-- ==== Sys2Proof/Word.lean ====
section
/-! DEFINITION. The word types of the module (R2 to R4). The helpers over them stand in Machine/Bits.lean. -/

namespace Sys2Proof

/-- A scalar register's contents, 64 bits (R85). -/
abbrev Word := BitVec 64
/-- One lane of a vector, 32 bits (R122). -/
abbrev Lane := BitVec 32
/-- A vector: 64 lanes of 32 bits, lane i in bits [32i+31:32i] (R122). -/
abbrev Vec := BitVec 2048
/-- A byte of memory. -/
abbrev Byte := BitVec 8
/-- A set of the sixteen load colours (R229). -/
abbrev TSet := BitVec 16
/-- A bundle address (R45). -/
abbrev BAddr := BitVec 13

end Sys2Proof
end

