-- ==== Sys2Proof/Machine/Bits.lean ====
section
/-! DEFINITION. Bit fields, sign extension, byte order and lanes (R3, R10, R71, R108, R122). -/

namespace Sys2Proof

/-- The saturated taint set (R230). -/
def taintAll : TSet := 0xFFFF#16

/-- Lane `i` of a vector. -/
def laneOf (v : Vec) (i : Nat) : Lane := v.extractLsb' (32 * i) 32

/-- The vector whose lane `i`, for `i < n`, is `f i`, and whose other lanes are zero. -/
def buildLanes (f : Nat → Lane) : Nat → Vec
  | 0 => 0#2048
  | n + 1 => buildLanes f n ||| ((f n).setWidth 2048 <<< (32 * n))

/-- The vector of the 64 lanes `f 0` to `f 63`. -/
def ofLanes (f : Nat → Lane) : Vec := buildLanes f 64

/-- A scalar in lanes 1:0 of a vector, the other lanes zero (R108, R177). -/
def wordToVec (w : Word) : Vec := w.setWidth 2048

/-- Lane 1 x 2^32 + lane 0 of a vector (R71). -/
def vecToWord (v : Vec) : Word := v.setWidth 64

/-- The low 32 bits of a scalar in every lane (R71). -/
def broadcastWord (w : Word) : Vec := ofLanes (fun _ => w.setWidth 32)

/-- Bits [lo+len-1 : lo] of a natural number. -/
def natField (x lo len : Nat) : Nat := (x >>> lo) % 2 ^ len

/-- The value of the low `n` bits of `x` read as two's complement (R10). -/
def signExtNat (x n : Nat) : Int :=
  let y := x % 2 ^ n
  if n = 0 then 0 else if y < 2 ^ (n - 1) then (y : Int) else (y : Int) - ((2 ^ n : Nat) : Int)

/-- The integer `z` modulo 2^n. -/
def intMod (z : Int) (n : Nat) : Nat := (z % ((2 ^ n : Nat) : Int)).toNat

/-- `ceil(a / b)`. -/
def ceilDiv (a b : Nat) : Nat := (a + b - 1) / b

/-- `ceil(log2 n)`, 0 for `n ≤ 1`. -/
def ceilLog2 (n : Nat) : Nat := if n ≤ 1 then 0 else Nat.log2 (n - 1) + 1

/-- The low `w` bits of `x` in reverse order (R109). -/
def bitReverse (x : Nat) : Nat → Nat
  | 0 => 0
  | w + 1 => (if x.testBit 0 then 2 ^ w else 0) + bitReverse (x / 2) w

/-- The number of set bits among the low `n` bits of `x`. -/
def popNat (x : Nat) : Nat → Nat
  | 0 => 0
  | n + 1 => popNat x n + (if x.testBit n then 1 else 0)

/-- Leading zeros of the low `n` bits of `x`. -/
def clzNat (x : Nat) : Nat → Nat
  | 0 => 0
  | n + 1 => if x.testBit n then 0 else clzNat x n + 1

/-- Trailing zeros of `x` counted from bit `at` over `n` bits. -/
def ctzFrom (x : Nat) (at_ : Nat) : Nat → Nat
  | 0 => 0
  | n + 1 => if x.testBit at_ then 0 else ctzFrom x (at_ + 1) n + 1

/-- The natural number whose little-endian bytes are `bs` (R3). -/
def leNat : List Byte → Nat
  | [] => 0
  | b :: bs => b.toNat + 256 * leNat bs

/-- The `n` little-endian bytes of `x` (R3). -/
def leBytes (x : Nat) : Nat → List Byte
  | 0 => []
  | n + 1 => BitVec.ofNat 8 x :: leBytes (x / 256) n

/-- The ASCII bytes of a string (R318, R331). -/
def asciiBytes (x : String) : List Byte := x.toList.map (fun c => BitVec.ofNat 8 c.toNat)

/-- `n` consecutive numbers from `a`. -/
def range' (a : Nat) : Nat → List Nat
  | 0 => []
  | n + 1 => a :: range' (a + 1) n

/-- Byte `i` of a vector or a wider word. -/
def byteOfVec (v : Vec) (i : Nat) : Byte := v.extractLsb' (8 * i) 8

/-- The 32-byte bundle word from its bytes, and generally the word of a list of bytes, least significant first. -/
def bvOfBytes (n : Nat) (bs : List Byte) : BitVec n := BitVec.ofNat n (leNat bs)

/-- `some` of the list's element at `i`, or the given default. -/
def nthD {α : Type} (l : List α) (i : Nat) (d : α) : α := (l[i]?).getD d

/-- The list with element `i` replaced, unchanged when there is none. -/
def setNth {α : Type} (l : List α) (i : Nat) (x : α) : List α := l.set i x

/-- An element of a vector of fixed length. -/
def vget {α : Type} {n : Nat} (v : Vector α n) (i : Fin n) : α := v[i.val]

/-- A vector of fixed length with one element replaced. -/
def vset {α : Type} {n : Nat} (v : Vector α n) (i : Fin n) (x : α) : Vector α n := v.set i.val x i.isLt

end Sys2Proof
end

