-- ==== Sys2Proof/Machine/Numeric.lean ====
section
/-! DEFINITION. Number formats and exact arithmetic: codes read at their exact values, rounding, the conversions, the FP32 lane
operations and the architected functions (R125, R126, R131, R138, R180 to R195). Exact values are dyadic: m x 2^e. -/

namespace Sys2Proof

/-! Exact dyadic numbers. -/

/-- The number m x 2^e. -/
structure Dy where
  m : Int
  e : Int
  deriving DecidableEq, Repr

def Dy.zero : Dy := { m := 0, e := 0 }

/-- x x 2^k for an integer k >= 0, as a natural exponent. -/
def shlInt (x : Int) (k : Int) : Int := x * ((2 ^ k.toNat : Nat) : Int)

def Dy.add (x y : Dy) : Dy :=
  if x.m = 0 then y else if y.m = 0 then x
  else
    let e := min x.e y.e
    { m := shlInt x.m (x.e - e) + shlInt y.m (y.e - e), e := e }

def Dy.mul (x y : Dy) : Dy := { m := x.m * y.m, e := x.e + y.e }

def Dy.sum (l : List Dy) : Dy := l.foldl Dy.add Dy.zero

/-- The number of significant bits of a natural number. -/
def bitLen (n : Nat) : Nat := if n = 0 then 0 else Nat.log2 n + 1

/-- floor(x / 2^k) for an integer x. -/
def floorShr (x : Int) (k : Nat) : Int := x / ((2 ^ k : Nat) : Int)

/-! Rounding. -/

/-- A natural number divided by 2^sh, rounded to nearest, ties to even. -/
def roundShr (m sh : Nat) : Nat :=
  if sh = 0 then m
  else
    let q := m / 2 ^ sh
    let r := m % 2 ^ sh
    let half := 2 ^ (sh - 1)
    if half < r ∨ (r = half ∧ q % 2 = 1) then q + 1 else q

/-- m x 2^e, m > 0, rounded to nearest even with `p` bits of significand whose last bit weighs no less than 2^emin: the integer
significand (2^p after a carry) and the exponent of its last bit. -/
def roundSig (m : Nat) (e : Int) (p : Nat) (emin : Option Int) : Nat × Int :=
  let t0 := (bitLen m : Int) + e - (p : Int)
  let t := match emin with | some lo => max t0 lo | none => t0
  if t ≤ e then (m * 2 ^ (e - t).toNat, t) else (roundShr m (t - e).toNat, t)

/-- The magnitude code of m x 2^e in a format with `f` fraction bits and last subnormal bit 2^emin, as if the exponent had no
upper bound (R186). -/
def magCode (m : Nat) (e : Int) (f : Nat) (emin : Int) : Nat :=
  if m = 0 then 0
  else
    let (q, t) := roundSig m e (f + 1) (some emin)
    (t - emin).toNat * 2 ^ f + q

/-- A signed rounding to the nearest even integer of m x 2^e. -/
def roundNat (m : Nat) (e : Int) : Nat := if 0 ≤ e then m * 2 ^ e.toNat else roundShr m (-e).toNat

/-! Reading codes (R180, R181). -/

/-- The exact reading of a floating code: NaN, an infinity, or a finite m x 2^e with its sign, a zero having m = 0. -/
inductive FVal where
  | nan
  | inf (neg : Bool)
  | fin (neg : Bool) (m : Nat) (e : Int)
  deriving DecidableEq, Repr

/-- A floating code with `x` exponent bits and `f` fraction bits, bias `b`, whose top exponent is infinite or NaN. -/
def readIeee (c x f b : Nat) : FVal :=
  let neg := c.testBit (x + f)
  let ex := natField c f x
  let fr := natField c 0 f
  if ex = 2 ^ x - 1 then (if fr = 0 then .inf neg else .nan)
  else if ex = 0 then .fin neg fr (1 - (b : Int) - (f : Int))
  else .fin neg (2 ^ f + fr) ((ex : Int) - (b : Int) - (f : Int))

def readF32 (l : Lane) : FVal := readIeee l.toNat 8 23 127
def readBf16 (c : Nat) : FVal := readIeee c 8 7 127

/-- E4M3 has no infinities; 0x7F and 0xFF are NaN. -/
def readE4m3 (c : Nat) : FVal :=
  let neg := c.testBit 7
  let ex := natField c 3 4
  let fr := natField c 0 3
  if c % 128 = 127 then .nan
  else if ex = 0 then .fin neg fr (-9)
  else .fin neg (8 + fr) ((ex : Int) - 10)

/-- The exact value of a finite reading. -/
def signed (neg : Bool) (m : Nat) : Int := if neg then -(m : Int) else (m : Int)
def FVal.dy : FVal → Dy
  | .fin n m e => { m := signed n m, e := e }
  | _ => Dy.zero

/-! FP32 codes. -/

def qnan : Lane := 0x7FC00000#32
def f32Max : Nat := 0x7F7FFFFF
def withSign (neg : Bool) (c : Nat) : Lane := BitVec.ofNat 32 (if neg then 0x80000000 + c else c)
def f32Inf (neg : Bool) : Lane := withSign neg 0x7F800000

/-- Rounded to FP32 as IEEE 754: overflow gives an infinity (R125). -/
def f32Ieee (neg : Bool) (m : Nat) (e : Int) : Lane := withSign neg (min (magCode m e 23 (-149)) 0x7F800000)

/-- `round_fp32_sat` (R193): subnormals delivered, overflow saturates. -/
def f32Sat (neg : Bool) (m : Nat) (e : Int) : Lane := withSign neg (min (magCode m e 23 (-149)) f32Max)

/-- Steps 2 to 5 of `round_fp32_sat_ftz` and its step 1 (R189). -/
def f32Ftz (z : Dy) : Lane :=
  if z.m = 0 then 0#32
  else
    let (q, t) := roundSig z.m.natAbs z.e 24 none
    -- the rounded magnitude lies below 2^-126
    if t + (bitLen q : Int) ≤ -126 then withSign (decide (z.m < 0)) 0
    else withSign (decide (z.m < 0)) (min (magCode q t 23 (-149)) f32Max)

/-! FP32 operations (R125 to R127). -/

def f32Neg (l : Lane) : Lane := l ^^^ 0x80000000#32

/-- An exact sum of two signed finite terms, rounded; an exact zero is +0 unless both terms are -0. -/
def sumF32 (n1 : Bool) (m1 : Nat) (e1 : Int) (n2 : Bool) (m2 : Nat) (e2 : Int) : Lane :=
  let z := Dy.add { m := signed n1 m1, e := e1 } { m := signed n2 m2, e := e2 }
  if z.m = 0 then (if n1 && n2 && decide (m1 = 0) && decide (m2 = 0) then 0x80000000#32 else 0#32)
  else f32Ieee (decide (z.m < 0)) z.m.natAbs z.e

def addF (a t : Lane) : Lane :=
  match readF32 a, readF32 t with
  | .nan, _ => qnan
  | _, .nan => qnan
  | .inf n, .inf k => if n = k then f32Inf n else qnan
  | .inf n, .fin _ _ _ => f32Inf n
  | .fin _ _ _, .inf n => f32Inf n
  | .fin n1 m1 e1, .fin n2 m2 e2 => sumF32 n1 m1 e1 n2 m2 e2

def subF (a t : Lane) : Lane := addF a (f32Neg t)

def mulF (a t : Lane) : Lane :=
  match readF32 a, readF32 t with
  | .nan, _ => qnan
  | _, .nan => qnan
  | .inf n, .inf k => f32Inf (n != k)
  | .inf n, .fin k m _ => if m = 0 then qnan else f32Inf (n != k)
  | .fin k m _, .inf n => if m = 0 then qnan else f32Inf (n != k)
  | .fin n1 m1 e1, .fin n2 m2 e2 => f32Ieee (n1 != n2) (m1 * m2) (e1 + e2)

/-- a x b + t with one rounding. -/
def fmaF (a b t : Lane) : Lane :=
  let addInf (n : Bool) : Lane := match readF32 t with
    | .nan => qnan
    | .inf k => if n = k then f32Inf n else qnan
    | .fin _ _ _ => f32Inf n
  match readF32 a, readF32 b with
  | .nan, _ => qnan
  | _, .nan => qnan
  | .inf n, .inf k => addInf (n != k)
  | .inf n, .fin k m _ => if m = 0 then qnan else addInf (n != k)
  | .fin k m _, .inf n => if m = 0 then qnan else addInf (n != k)
  | .fin n1 m1 e1, .fin n2 m2 e2 =>
    match readF32 t with
    | .nan => qnan
    | .inf n => f32Inf n
    | .fin n m e => sumF32 (n1 != n2) (m1 * m2) (e1 + e2) n m e

def fmsF (a b t : Lane) : Lane := fmaF a b (f32Neg t)

def isNanF (l : Lane) : Bool := match readF32 l with | .nan => true | _ => false

/-- The order of `max.f` and `min.f`: -0 below +0. -/
def orderKey (l : Lane) : Int :=
  let mag := l.toNat % 0x80000000
  if l.getLsbD 31 then -(mag : Int) - 1 else (mag : Int)

/-- The numeric order, the two zeros equal. -/
def numKey (l : Lane) : Int :=
  let mag := l.toNat % 0x80000000
  if l.getLsbD 31 then -(mag : Int) else (mag : Int)

def maxF (a t : Lane) : Lane := if isNanF a || isNanF t then qnan else if orderKey a < orderKey t then t else a
def minF (a t : Lane) : Lane := if isNanF a || isNanF t then qnan else if orderKey t < orderKey a then t else a
def absF (t : Lane) : Lane := if isNanF t then qnan else t &&& 0x7FFFFFFF#32
def eqF (a t : Lane) : Bool := !isNanF a && !isNanF t && decide (numKey a = numKey t)
def ltF (a t : Lane) : Bool := !isNanF a && !isNanF t && decide (numKey a < numKey t)
def leF (a t : Lane) : Bool := !isNanF a && !isNanF t && decide (numKey a ≤ numKey t)

/-! exp2, rcp, rsqrt (R131, R192 to R194). -/

/-- floor(m x 2^e x 2^24) of a signed finite value. -/
def floor24 (neg : Bool) (m : Nat) (e : Int) : Int :=
  let k := e + 24
  if 0 ≤ k then shlInt (signed neg m) k else floorShr (signed neg m) (-k).toNat

def exp2F (t : Lane) : Lane :=
  match readF32 t with
  | .nan => qnan
  | .inf neg => if neg then 0#32 else BitVec.ofNat 32 f32Max
  | .fin neg m e =>
    -- x >= 128, or below -2^8: decided on the code, before any shift
    if !neg && decide (0x43000000 ≤ t.toNat) then BitVec.ofNat 32 f32Max
    else if neg && decide (0xC3800000 ≤ t.toNat) then 0#32
    else
      let y := floor24 neg m e
      let n := y / 16777216
      if n < -126 then 0#32
      else
        let f := (y % 16777216).toNat
        let u1 := f * 10 / 128
        let u2 := f * (29 * 131072 + u1) / 16777216
        let u3 := f * (89 * 131072 + u2) / 16777216
        BitVec.ofNat 32 ((n + 127).toNat * 8388608 + u3 / 2)

/-- A quotient of natural numbers rounded to the nearest integer; ties do not arise where it is used (R193). -/
def nearestDiv (n d : Nat) : Nat := (2 * n + d) / (2 * d)

/-- floor(sqrt n) from `k` bits down, starting at `r`. -/
def isqrtFrom (n : Nat) : Nat → Nat → Nat
  | 0, r => r
  | k + 1, r => if (r + 2 ^ k) * (r + 2 ^ k) ≤ n then isqrtFrom n k (r + 2 ^ k) else isqrtFrom n k r

/-- rcp of m x 2^e, m > 0. -/
def rcpFin (neg : Bool) (m : Nat) (e : Int) : Lane :=
  let k := bitLen m - 1
  let ex := e + (k : Int)
  if m = 2 ^ k then f32Sat neg 1 (-ex)
  else
    let i := (m - 2 ^ k) * 1024 / 2 ^ k
    let y0 := nearestDiv (2 ^ 35) (2049 + 2 * i)
    let d := floorShr ((y0 : Int) * (((2 ^ (k + 24) : Nat) : Int) - ((m * y0 : Nat) : Int))) k
    let y := ((y0 * 16777216 : Nat) : Int) + d
    f32Sat neg y.toNat (-48 - ex)

def rcpF (t : Lane) : Lane :=
  match readF32 t with
  | .nan => qnan
  | .inf neg => withSign neg 0
  | .fin neg m e => if m = 0 then withSign neg f32Max else rcpFin neg m e

/-- rsqrt of m x 2^e, m > 0. -/
def rsqrtFin (m : Nat) (e : Int) : Lane :=
  let k := bitLen m - 1
  let ex := e + (k : Int)
  let q := (ex % 2).toNat
  if m = 2 ^ k ∧ q = 0 then f32Sat false 1 (-(ex / 2))
  else
    let j := (m - 2 ^ k) * 512 / 2 ^ k
    -- c = (1025 + 2j) x 2^q / 1024; floor(2^25 / sqrt c), then to the nearest
    let y0 := (isqrtFrom (2 ^ 60 / ((1025 + 2 * j) * 2 ^ q)) 27 0 + 1) / 2
    let d := floorShr ((y0 : Int) * (((2 ^ (k + 48) : Nat) : Int) - ((m * 2 ^ q * y0 * y0 : Nat) : Int))) (k + 25)
    let y := ((y0 * 16777216 : Nat) : Int) + d
    f32Sat false y.toNat (-48 - (ex - (q : Int)) / 2)

def rsqrtF (t : Lane) : Lane :=
  match readF32 t with
  | .nan => qnan
  | .inf neg => if neg then qnan else 0#32
  | .fin neg m e => if m = 0 then withSign neg f32Max else if neg then qnan else rsqrtFin m e

/-! Conversions (R136, R137, R186). -/

/-- A signed integer saturated to `n` bits of two's complement. -/
def satInt (z : Int) (n : Nat) : Nat :=
  let hi : Int := ((2 ^ (n - 1) : Nat) : Int)
  intMod (if z < -hi then -hi else if hi ≤ z then hi - 1 else z) n

def cvtFI (t : Lane) : Lane :=
  let z := t.toInt
  if z = 0 then 0#32 else f32Ieee (decide (z < 0)) z.natAbs 0

/-- FP32 to an integer of `n` bits, to nearest even or toward zero. -/
def toIntF (t : Lane) (n : Nat) (trunc : Bool) : Nat :=
  match readF32 t with
  | .nan => 0
  | .inf neg => satInt (if neg then -(2 ^ 40) else 2 ^ 40) n
  | .fin neg m e =>
    let q := if trunc then (if 0 ≤ e then m * 2 ^ e.toNat else m / 2 ^ (-e).toNat) else roundNat m e
    satInt (signed neg q) n

def toE4m3 (t : Lane) : Nat :=
  match readF32 t with
  | .nan => 0x7F
  | .inf neg => if neg then 0xFE else 0x7E
  | .fin neg m e => min (magCode m e 3 (-9)) 0x7E + (if neg then 0x80 else 0)

def toBf16 (t : Lane) : Nat :=
  match readF32 t with
  | .nan => 0x7FC0
  | .inf neg => if neg then 0xFF7F else 0x7F7F
  | .fin neg m e => min (magCode m e 7 (-133)) 0x7F7F + (if neg then 0x8000 else 0)

/-- A finite value that FP32 represents, as its code. -/
def ofE4m3 (c : Nat) : Lane :=
  match readE4m3 c with
  | .fin neg m e => f32Ieee neg m e
  | _ => qnan

def ofBf16 (c : Nat) : Lane := match readBf16 c with | .nan => qnan | _ => BitVec.ofNat 32 (c * 65536)

def ofInt (z : Int) : Lane := if z = 0 then 0#32 else f32Ieee (decide (z < 0)) z.natAbs 0

/-! Q4X (R138, R183, R184). -/

def magOf (l : Lane) : Nat := l.toNat % 0x80000000

/-- `outlier_code` of a value whose magnitude exceeds 7.5. -/
def outlierCode (l : Lane) : Nat :=
  let a := magOf l
  let g := if a ≤ 0x41200000 then 0 else if a < 0x41600000 then 1 else if a ≤ 0x41A00000 then 2 else if a < 0x41E00000 then 3
    else if a ≤ 0x42200000 then 4 else if a < 0x42600000 then 5 else if a ≤ 0x42A00000 then 6 else 7
  (if l.getLsbD 31 then 8 else 0) + g

/-- `normal_code`. -/
def normalCode (l : Lane) : Nat :=
  match readF32 l with
  | .fin neg m e => intMod (min 7 (max (-7) (signed neg (if 0x41000000 ≤ magOf l then 8 else roundNat m e)))) 4
  | .inf neg => if neg then 9 else 7
  | .nan => 0

/-- `encode_q4x_pair`. -/
def encodeQ4x (b t : Lane) : Nat :=
  let x0 := if isNanF b then 0#32 else b
  let x1 := if isNanF t then 0#32 else t
  if 0x40F00000 < max (magOf x0) (magOf x1) then
    let hi := decide (magOf x0 < magOf x1)
    let c := outlierCode (if hi then x1 else x0)
    if c ≠ 8 then (if hi then 128 + c else c * 16 + 8)
    else normalCode x1 * 16 + normalCode x0
  else normalCode x1 * 16 + normalCode x0

def outlierValue (c : Nat) : Int :=
  (if c.testBit 3 then -1 else 1) * ((8 + 4 * (c % 2)) * 2 ^ (c / 2 % 4) : Nat)

/-- `decode_q4x_pair`: element 2p and element 2p+1. -/
def decodeQ4x (b : Nat) : Int × Int :=
  let lo := b % 16
  let hi := b / 16 % 16
  if lo = 8 ∧ hi = 8 then (0, 0)
  else if lo = 8 then (outlierValue hi, 0)
  else if hi = 8 then (0, outlierValue lo)
  else (signExtNat lo 4, signExtNat hi 4)

/-! Elements, scales and the pass sum (R181, R185, R188 to R190). -/

/-- An operand element: its exact value, none for a NaN; an infinite one reads as the largest finite BF16 (R190; for value elements log
entry 101). -/
def opBf16 (c : Nat) : Option Dy :=
  match readBf16 c with
  | .nan => none
  | .inf neg => some { m := signed neg 255, e := 120 }
  | .fin neg m e => some { m := signed neg m, e := e }

def opE4m3 (c : Nat) : Option Dy :=
  match readE4m3 c with
  | .fin neg m e => some { m := signed neg m, e := e }
  | _ => none

def opQ8 (c : Nat) : Option Dy := some { m := signExtNat c 8, e := 0 }

def dyOne : Dy := { m := 1, e := 0 }

/-- The magnitude exponent floor(log2 |x|) of a non-zero dyadic number. -/
def Dy.top (x : Dy) : Int := (bitLen x.m.natAbs : Int) - 1 + x.e

/-- The number truncated toward zero to a multiple of 2^t. -/
def Dy.truncTo (x : Dy) (t : Int) : Dy :=
  if t ≤ x.e then x else { m := signed (decide (x.m < 0)) (x.m.natAbs / 2 ^ (t - x.e).toNat), e := t }

/-- The exact sum of one block's products; `trunc` when an operand is BF16 (R188). -/
def blockSum (trunc : Bool) (ps : List Dy) : Dy :=
  if trunc then
    match (ps.filter (fun p => decide (p.m ≠ 0))).map Dy.top with
    | [] => Dy.zero
    | t :: ts => let e := ts.foldl max t; Dy.sum (ps.map (fun p => p.truncTo (e - 96)))
  else Dy.sum ps

/-- The optional operands all read, or none. -/
def allSome : List (Option Dy) → Option (List Dy)
  | [] => some []
  | none :: _ => none
  | some x :: rest => (allSome rest).map (fun l => x :: l)

/-- One block: elements, scales; none when anything in it is a NaN. -/
def blockTerm (trunc : Bool) (x w : List (Option Dy)) (sx sw : Option Dy) : Option Dy :=
  match allSome x, allSome w, sx, sw with
  | some xs, some ws, some a, some b => some (Dy.mul (Dy.mul (blockSum trunc (List.zipWith Dy.mul xs ws)) a) b)
  | _, _, _, _ => none

/-- `pass_sum` over blocks of 32; none when a NaN reaches it (R188, R190). -/
def passSum (trunc : Bool) : List (Option Dy) → List (Option Dy) → List (Option Dy) → List (Option Dy) → Option Dy
  | x, w, sx :: sxs, sw :: sws =>
    match blockTerm trunc (x.take 32) (w.take 32) sx sw, passSum trunc (x.drop 32) (w.drop 32) sxs sws with
    | some a, some b => some (Dy.add a b)
    | _, _ => none
  | _, _, _, _ => some Dy.zero

/-- The base of an accumulator as it is read: an infinity is the largest finite value, NaN none (R189, R190). -/
def opBase (l : Lane) : Option Dy :=
  match readF32 l with
  | .nan => none
  | .inf neg => some { m := signed neg 16777215, e := 104 }
  | .fin neg m e => some { m := signed neg m, e := e }

/-- An accumulator output: base plus sum, rounded, or the canonical NaN (R189, R190). -/
def accRound (base : Option Dy) (sum : Option Dy) : Lane :=
  match base, sum with
  | some b, some z => f32Ftz (Dy.add b z)
  | _, _ => qnan

/-- A code times its scale as FP32 with one rounding by steps 2 to 5 of R189, so that a zero product keeps the sign of the product,
given as `neg` (R196, R197; log entry 74). -/
def scaledF32 (neg : Bool) (x s : Option Dy) : Lane :=
  match x, s with
  | some a, some b => let z := Dy.mul a b; if z.m = 0 then withSign neg 0 else f32Ftz z
  | _, _ => qnan

end Sys2Proof
end

