-- ==== Sys2Proof/Syntax.lean ====
section
/-! DEFINITION. The instruction type: one constructor per row of the opcode table. The 204 slot operations carry their
guard, source and fields (R48, R49, R52, R53); the 70 events of the module (95_what_each_step_holds) carry what the
event names. -/

namespace Sys2Proof

/-- A guard code of R49 other than the empty slot 0b1111. -/
inductive Guard where
  /-- 0b0000. -/
  | always
  /-- 0b0001 to 0b1100: if the condition of steer register k is set. -/
  | steer (k : Fin 12)
  /-- 0b1101: always, with a last-read mark on the source (R50). -/
  | last
  /-- 0b1110: masked under `vu.k` (R51). -/
  | mask
  deriving DecidableEq, Repr

/-- A result port (R80). -/
inductive PortId where
  | saR | sbR | seqR | vuR | vuSr | vuMr | anvR | engR | tntR | laR | lbR | xlR | barR
  deriving DecidableEq, Repr

/-- A source of a move (R80). -/
inductive Src where
  | g (i : Fin 32) | v (i : Fin 32) | p (i : Fin 8) | s (i : Fin 12) | a (i : Fin 16) | m (i : Fin 16) | h (i : Fin 16)
  | res (r : PortId)
  /-- `seq.i0` to `seq.i5`, innermost first. -/
  | loopIx (d : Fin 6)
  /-- A small immediate, code - 0x200 (R54). -/
  | imm (n : BitVec 9)
  | l0 | l1 | l2 | l01 | l12 | l012
  deriving DecidableEq, Repr

/-- An operand port (R70, R72). -/
inductive OpPort where
  | saO | sbO | cmpO | seqLo | seqCsel | vuA | vuB | vuK | anvX | anvW | anvAcc | anvN | anvF | anvS
  | eSrc | eDst | eNest | eLen | eAux | tntO | laD | laC | lbD | lbC
  deriving DecidableEq, Repr

/-- A destination of a plain move: a register or an operand port (R72, R87). -/
inductive Dst where
  | g (i : Fin 32) | v (i : Fin 32) | p (i : Fin 8) | a (i : Fin 16) | m (i : Fin 16)
  | op (o : OpPort)
  deriving DecidableEq, Repr

/-- A barrier channel: the block whose gang holds it, its scope code (R6), the instance (quad, die, 0) and its number (R38, R39). -/
structure ChanId where
  ctx : Nat
  scope : Nat
  inst : Nat
  ch : Nat
  deriving DecidableEq, Repr

/-- Where a frame came from and where it was sent (R335, R343): the port it came in on, its source MAC and IEEE 802.1Q tag, the IP
version, the two IP addresses, the DSCP and the UDP source and destination ports. -/
structure Origin where
  port : Nat
  mac : BitVec 48
  tag : Option (BitVec 16)
  v6 : Bool
  src : BitVec 128
  dst : BitVec 128
  dscp : BitVec 6
  udp : BitVec 16
  udpDst : BitVec 16
  deriving DecidableEq, Repr

/-- An Uludin frame as the port hands it on (R335 to R337): its header fields, the plaintext of its body, its tag and its origin, with the
outcome of the check of its FCS. -/
structure UFrame where
  /-- The FCS of the frame is good, and the packet buffers have kept it so (R333). -/
  fcsOk : Bool
  /-- The 16 bytes of its AES-256-GCM tag (R338). -/
  tag : List (BitVec 8)
  version : Nat
  cls : Nat
  /-- The reserved fields at 0x02 and 0x24. -/
  reserved : Nat
  reserved2 : Nat
  ctx : Nat
  session : Nat
  rid : Nat
  seq : Nat
  len : Nat
  status : Nat
  modid : Nat
  /-- Bytes the UDP payload holds. -/
  payload : Nat
  body : List Byte
  origin : Origin
  deriving DecidableEq, Repr

/-- What a PLOAD, PSTORE or PATOM asks for (R346), and the module that sent it. -/
structure PodReq where
  src : Nat
  xfer : Nat
  world : Nat
  fn : Nat
  paddr : Nat
  mask : BitVec 64
  data : List Byte
  deriving DecidableEq, Repr

/-- What a PREPLY says (R346). -/
structure PodAns where
  xfer : Nat
  result : Nat
  data : List Byte
  deriving DecidableEq, Repr

/-- What a PCOLL says (R346), and the module that sent it. -/
structure PColl where
  src : Nat
  group : Nat
  channel : Nat
  kind : Nat
  phase : Nat
  xfer : Nat
  op : Nat
  fnfmt : Nat
  root : Nat
  offset : Nat
  total : Nat
  data : List Byte
  /-- Tasks of the sender's gang (R40); the frame's bytes have no field for it (log entry 77). -/
  tasks : Nat
  deriving DecidableEq, Repr

/-- A PCOLL frame, and T of the gang it comes from (R40), for which its bytes have no field (log entry 77). -/
structure CollFrame where
  frame : UFrame
  tasks : Nat
  deriving DecidableEq, Repr

/-- The queue of an engine command that moves on, and the destination quads of a `copy.mc`, bit by quad-in-die, whose stash has just
failed (R157, R164). -/
structure EngineStart where
  queue : Nat
  errs : Nat
  deriving DecidableEq, Repr

/-- A micro-context, and whether what is loaded for it passes its check: the context image (R315), the schedule (R325). -/
structure LoadCheck where
  ctx : Nat
  intact : Bool
  deriving DecidableEq, Repr

/-- Where an error lies that is not the core's own (R310, R333): a line of HBM, as the L2 or the HBM holds it, or the data of a far access of
the core, by its issue order, on their way over the fabric. -/
inductive ErrorHop where
  | stored (pa : Nat)
  | fabric (ord : Nat)
  deriving DecidableEq, Repr

/-- What an error detected in a core does beyond that: whether it shows again in rerun B, and the far load in which it was detected, by
its issue order (R311); or the hop on which it was detected. -/
structure ErrorReport where
  again : Bool
  refetch : Option Nat
  hop : Option ErrorHop
  deriving DecidableEq, Repr

/-- A lease range or page as the host or firmware names it: first virtual page, pages, writable. -/
structure PageRange where
  vpage : Nat
  pages : Nat
  rw : Bool
  deriving DecidableEq, Repr

/-- What a submitted segment holds (R327): identity, content (measured as submitted), the public key under which its signature verifies,
if there is one, its scope, its launch records as 8,192-bit words (R284), for each record its schedule (R325) as runs of bundles,
its near image and its far image (R68), and as runs of (address, bundle) pairs each schedule. -/
structure Submission where
  ident : Nat
  content : List Byte
  signer : Option (BitVec 256)
  shared : Bool
  world : Nat
  recs : List (BitVec 8192)
  code : List (List (Nat × BitVec 256))
  near : List (List Byte)
  far : List (List Byte)
  deriving DecidableEq, Repr

/-- A host write to a register or table without a row of its own (R349, HOST_REGISTER_WRITE). -/
inductive HostWrite where
  /-- Service software sets `pkgid` and `podid` (R17). -/
  | identity (pkg pod : Nat)
  /-- Guarantee and burst allowance of a tenant, in frames (R216). -/
  | guarantee (tenant g u : Nat)
  /-- Window grant of a die (R297). -/
  | grant (die w : Nat)
  /-- Share of a tenant on a die (R297). -/
  | share (die tenant s : Nat)
  /-- Address-table entry of a module identity: its IPv4 address, IPv6 address or both, next-hop MAC and port mask (R347). -/
  | address (ident : Nat) (v4 : Option (BitVec 32)) (v6 : Option (BitVec 128)) (mac : BitVec 48) (ports : Nat)
  /-- The MAC address of a port (R343). -/
  | portMac (port : Nat) (mac : BitVec 48)
  /-- The key of session 0, from the pod configuration (R339). -/
  | podKey (key : BitVec 256)
  /-- Registration of a buffer: number, world, whole-write (R239, R324). -/
  | buffer (no world : Nat) (whole : Bool)
  /-- A key slot for a world: tenant, root and hallmark key (R318). -/
  | keySlot (slot world tenant : Nat) (root hkey : BitVec 256)
  /-- A key-value pool (R258). -/
  | pool (no world fmt dsel groups dvbase mvbase : Nat) (gstack : List Nat)
  /-- A share domain: world, stream count, node quota, pool (R268). -/
  | domain (no world ns quota pool : Nat)
  /-- The host returns a HALTED block to IDLE (0) or FREE (1) (R300). -/
  | unhalt (ctx : Nat) (free : Bool)
  /-- Service software assigns an export-table entry: world and frame (R344). -/
  | exported (world frame : Nat)
  /-- The firmware maps a lease page to a frame of a peer module (R211). -/
  | peerPage (ctx vpage pkg frame : Nat) (rw : Bool)
  /-- The firmware keeps a lease page stack-homed, in a frame of a stack (R210, R243; log entry 78). -/
  | stackHomed (ctx vpage stack : Nat)
  /-- A world registers the public key of its model owner (R327). -/
  | modelKey (world : Nat) (key : BitVec 256)
  /-- A world releases a reference to a sealed segment (R328; log entry 90). -/
  | release (world segment : Nat)
  /-- A byte of the function's 4 KiB mailbox to the policy core (R349). -/
  | mailbox (off : Nat) (byte : BitVec 8)
  /-- The key of the function's IDE stream, managed over SPDM; 0 takes the stream down (R350). -/
  | ideStream (key : BitVec 256)
  /-- What reaches the function over its IDE stream fails the stream's check (R333). -/
  | ideFailure
  deriving DecidableEq, Repr

/-- What the firmware found at boot (R356): images A and B verify; the dies whose training failed. -/
structure BootReport where
  imageA : Bool
  imageB : Bool
  deadDies : List Nat
  deriving DecidableEq, Repr

/-- An instruction: one constructor per row of the opcode table. -/
inductive Instr where
  /-- R87. Plain move: copies the source value with its taint and poison to a register or operand port in phase 3, with an optional steer guard or last-read mark. -/
  | mov (g : Guard) (src : Src) (dst : Dst)
  /-- R51. Move under guard 0b1110 that writes only the lanes of a v register whose bit in vu.k is set, joining taint and poison. -/
  | maskedVectorWrite (src : Src) (dst : BitVec 10)
  /-- R88. Scalar add of the unit's operand port and the trigger value, modulo 2^64, delivered to sa.r or sb.r. -/
  | saAdd (g : Guard) (src : Src) (sb : Bool)
  /-- R88. Scalar subtract o minus t modulo 2^64. -/
  | saSub (g : Guard) (src : Src) (sb : Bool)
  /-- R88. Scalar bitwise AND of o and t. -/
  | saAnd (g : Guard) (src : Src) (sb : Bool)
  /-- R88. Scalar bitwise OR of o and t. -/
  | saOr (g : Guard) (src : Src) (sb : Bool)
  /-- R88. Scalar bitwise XOR of o and t. -/
  | saXor (g : Guard) (src : Src) (sb : Bool)
  /-- R88. Scalar o AND NOT t. -/
  | saAndn (g : Guard) (src : Src) (sb : Bool)
  /-- R88. Scalar shift left of o by t[5:0]. -/
  | saShl (g : Guard) (src : Src) (sb : Bool)
  /-- R88. Scalar logical shift right of o by t[5:0]. -/
  | saShr (g : Guard) (src : Src) (sb : Bool)
  /-- R88. Scalar arithmetic shift right of o by t[5:0]. -/
  | saSar (g : Guard) (src : Src) (sb : Bool)
  /-- R88. Scalar signed minimum of o and t. -/
  | saMin (g : Guard) (src : Src) (sb : Bool)
  /-- R88. Scalar signed maximum of o and t. -/
  | saMax (g : Guard) (src : Src) (sb : Bool)
  /-- R88. Scalar unsigned minimum of o and t. -/
  | saMinu (g : Guard) (src : Src) (sb : Bool)
  /-- R88. Scalar unsigned maximum of o and t. -/
  | saMaxu (g : Guard) (src : Src) (sb : Bool)
  /-- R88. Scalar multiply, low 64 bits, latency 3. -/
  | saMul (g : Guard) (src : Src) (sb : Bool)
  /-- R88. Scalar signed multiply, high 64 bits. -/
  | saMulh (g : Guard) (src : Src) (sb : Bool)
  /-- R88. Scalar unsigned multiply, high 64 bits. -/
  | saMulhu (g : Guard) (src : Src) (sb : Bool)
  /-- R88. Count of leading zero bits of t. -/
  | saClz (g : Guard) (src : Src) (sb : Bool)
  /-- R88. Count of trailing zero bits of t. -/
  | saCtz (g : Guard) (src : Src) (sb : Bool)
  /-- R88. Count of set bits of t. -/
  | saPopc (g : Guard) (src : Src) (sb : Bool)
  /-- R90. Sign-extends the low t[6:0] bits of o, faulting on a width outside 1 to 64 unless t is poisoned. -/
  | saSext (g : Guard) (src : Src) (sb : Bool)
  /-- R90. Zero-extends the low t[6:0] bits of o, faulting on a width outside 1 to 64 unless t is poisoned. -/
  | saZext (g : Guard) (src : Src) (sb : Bool)
  /-- R89. Extracts a bit field of o selected by POS, WIDTH and SIGNED in t. -/
  | saBfx (g : Guard) (src : Src) (sb : Bool)
  /-- R92. Steer compare that sets COND of s_k when cmp.o equals t. -/
  | skEq (g : Guard) (src : Src) (k : Fin 12)
  /-- R92. Steer compare that sets COND when cmp.o differs from t. -/
  | skNe (g : Guard) (src : Src) (k : Fin 12)
  /-- R92. Steer compare that sets COND on signed less-than. -/
  | skLt (g : Guard) (src : Src) (k : Fin 12)
  /-- R92. Steer compare that sets COND on signed greater-or-equal. -/
  | skGe (g : Guard) (src : Src) (k : Fin 12)
  /-- R92. Steer compare that sets COND on unsigned less-than. -/
  | skLtu (g : Guard) (src : Src) (k : Fin 12)
  /-- R92. Steer compare that sets COND on unsigned greater-or-equal. -/
  | skGeu (g : Guard) (src : Src) (k : Fin 12)
  /-- R92. Steer compare that sets COND when cmp.o AND t is non-zero. -/
  | skTst (g : Guard) (src : Src) (k : Fin 12)
  /-- R92. Steer compare that sets COND when cmp.o AND t is zero. -/
  | skTstn (g : Guard) (src : Src) (k : Fin 12)
  /-- R93. Writes TARGET of a steer register, records the preparation cycle and fetches four bundles from the target. -/
  | skPrep (g : Guard) (src : Src) (k : Fin 12)
  /-- R94. Branches to TARGET of the named steer register when COND is 1, adding its taint to the path taint. -/
  | seqBr (g : Guard) (src : Src)
  /-- R94. Branches to TARGET of the named steer register when COND is 0, adding its taint to the path taint. -/
  | seqBrn (g : Guard) (src : Src)
  /-- R96. Unconditional jump to a bundle address. -/
  | seqJmp (g : Guard) (src : Src)
  /-- R96. Pushes the return address on the call stack and jumps. -/
  | seqCall (g : Guard) (src : Src)
  /-- R96. Pops the call stack and continues at the popped address. -/
  | seqRet (g : Guard) (src : Src)
  /-- R97. Opens a hardware loop with trip count from seq.lo and end address t, or skips the body when the count is 0. -/
  | seqLoop (g : Guard) (src : Src)
  /-- R99. Exhausts the innermost loop when COND of the named steer register is 1. -/
  | seqLbrk (g : Guard) (src : Src)
  /-- R101. Completes the task with an exit code after its empty cycles, as a commit event. -/
  | seqExit (g : Guard) (src : Src)
  /-- R102. Raises a user-level trap that vectors to uiv at the bundle's boundary. -/
  | seqTrap (g : Guard) (src : Src)
  /-- R104. Waits until the event pending register ANDed with the mask is non-zero, then clears those bits. -/
  | seqWfe (g : Guard) (src : Src)
  /-- R103. Sets event bits in the pending registers of the named cores of the quad in the second period after issue. -/
  | seqSev (g : Guard) (src : Src)
  /-- R306. Returns from a user-level handler to uepc and deactivates the shadow bank. -/
  | seqReti (g : Guard) (src : Src)
  /-- R106. Reads the named CSR into seq.r after 2 cycles. -/
  | seqCsrr (g : Guard) (src : Src)
  /-- R106. Writes the trigger value to the CSR named in seq.csel, effective from the next bundle. -/
  | seqCsrw (g : Guard) (src : Src)
  /-- R107. Safe point that sets the member's yield flag, allowing cheap pre-emption at equal priority. -/
  | seqYield (g : Guard) (src : Src)
  /-- R308. A bundle with CK set is a commit event and takes a checkpoint at its boundary, closing the no-rollback window and emptying the journal. -/
  | checkpoint (c : Nat)
  /-- R126. FP32 lane addition. -/
  | vuAddF (g : Guard) (src : Src)
  /-- R126. FP32 lane subtraction. -/
  | vuSubF (g : Guard) (src : Src)
  /-- R126. FP32 lane multiplication. -/
  | vuMulF (g : Guard) (src : Src)
  /-- R126. FP32 fused multiply-add a*b+t. -/
  | vuFmaF (g : Guard) (src : Src)
  /-- R126. FP32 fused multiply-subtract a*b-t. -/
  | vuFmsF (g : Guard) (src : Src)
  /-- R126. FP32 lane maximum. -/
  | vuMaxF (g : Guard) (src : Src)
  /-- R126. FP32 lane minimum. -/
  | vuMinF (g : Guard) (src : Src)
  /-- R126. FP32 lane absolute value. -/
  | vuAbsF (g : Guard) (src : Src)
  /-- R127. FP32 equality compare into a mask in vu.mr. -/
  | vuCmpeqF (g : Guard) (src : Src)
  /-- R127. FP32 less-than compare into a mask. -/
  | vuCmpltF (g : Guard) (src : Src)
  /-- R127. FP32 less-or-equal compare into a mask. -/
  | vuCmpleF (g : Guard) (src : Src)
  /-- R128. 32-bit lane integer addition. -/
  | vuAddI (g : Guard) (src : Src)
  /-- R128. 32-bit lane integer subtraction. -/
  | vuSubI (g : Guard) (src : Src)
  /-- R128. 32-bit lane integer multiplication, low bits. -/
  | vuMulI (g : Guard) (src : Src)
  /-- R128. Signed lane maximum. -/
  | vuMaxI (g : Guard) (src : Src)
  /-- R128. Signed lane minimum. -/
  | vuMinI (g : Guard) (src : Src)
  /-- R128. Unsigned lane maximum. -/
  | vuMaxuI (g : Guard) (src : Src)
  /-- R128. Unsigned lane minimum. -/
  | vuMinuI (g : Guard) (src : Src)
  /-- R128. Lane bitwise AND. -/
  | vuAnd (g : Guard) (src : Src)
  /-- R128. Lane bitwise OR. -/
  | vuOr (g : Guard) (src : Src)
  /-- R128. Lane bitwise XOR. -/
  | vuXor (g : Guard) (src : Src)
  /-- R128. Lane shift left. -/
  | vuShl (g : Guard) (src : Src)
  /-- R128. Lane logical shift right. -/
  | vuShr (g : Guard) (src : Src)
  /-- R128. Lane arithmetic shift right. -/
  | vuSar (g : Guard) (src : Src)
  /-- R129. Integer equality compare into a mask. -/
  | vuCmpeqI (g : Guard) (src : Src)
  /-- R129. Signed integer less-than compare into a mask. -/
  | vuCmpltI (g : Guard) (src : Src)
  /-- R129. Unsigned integer less-than compare into a mask. -/
  | vuCmpltuI (g : Guard) (src : Src)
  /-- R130. Four-way signed 8-bit dot product per lane added to t. -/
  | vuDot4 (g : Guard) (src : Src)
  /-- R131. Architected exp2 of each lane. -/
  | vuExp2 (g : Guard) (src : Src)
  /-- R131. Architected reciprocal of each lane. -/
  | vuRcp (g : Guard) (src : Src)
  /-- R131. Architected reciprocal square root of each lane. -/
  | vuRsqrt (g : Guard) (src : Src)
  /-- R132. Pairwise-tree FP32 sum of the 64 lanes into vu.sr. -/
  | vuRedaddF (g : Guard) (src : Src)
  /-- R132. Pairwise-tree FP32 maximum of the lanes. -/
  | vuRedmaxF (g : Guard) (src : Src)
  /-- R132. Exact signed sum of the lanes as 64 bits. -/
  | vuRedaddI (g : Guard) (src : Src)
  /-- R132. Signed maximum of the lanes. -/
  | vuRedmaxI (g : Guard) (src : Src)
  /-- R132. Signed minimum of the lanes. -/
  | vuRedminI (g : Guard) (src : Src)
  /-- R133. Inclusive prefix sum of t offset by lane 0 of vu.a. -/
  | vuScanI (g : Guard) (src : Src)
  /-- R134. Lane permute of vu.a by indices in t. -/
  | vuPerm (g : Guard) (src : Src)
  /-- R134. Lane rotation of vu.a by t_0[5:0]. -/
  | vuRot (g : Guard) (src : Src)
  /-- R134. Broadcast of one lane of vu.a. -/
  | vuBcast (g : Guard) (src : Src)
  /-- R134. Lane select between t and vu.a by vu.k. -/
  | vuSel (g : Guard) (src : Src)
  /-- R135. Packs the lanes of t selected by vu.k and delivers their count. -/
  | vuCompress (g : Guard) (src : Src)
  /-- R135. Spreads successive lanes of t into the lanes selected by vu.k. -/
  | vuExpand (g : Guard) (src : Src)
  /-- R134. Delivers t_0 plus the lane number in every lane. -/
  | vuIota (g : Guard) (src : Src)
  /-- R136. Signed 32-bit to FP32 conversion. -/
  | vuCvtFI (g : Guard) (src : Src)
  /-- R136. FP32 to signed 32-bit, round to nearest even, saturating. -/
  | vuCvtIF (g : Guard) (src : Src)
  /-- R136. FP32 to signed 32-bit toward zero, saturating. -/
  | vuCvtIFZ (g : Guard) (src : Src)
  /-- R137. Narrows t to E4M3 into byte 0 of vu.a lanes. -/
  | vuInsE40 (g : Guard) (src : Src)
  /-- R137. Narrows t to E4M3 into byte 1. -/
  | vuInsE41 (g : Guard) (src : Src)
  /-- R137. Narrows t to E4M3 into byte 2. -/
  | vuInsE42 (g : Guard) (src : Src)
  /-- R137. Narrows t to E4M3 into byte 3. -/
  | vuInsE43 (g : Guard) (src : Src)
  /-- R137. Narrows t to signed 8-bit into byte 0. -/
  | vuInsQ80 (g : Guard) (src : Src)
  /-- R137. Narrows t to signed 8-bit into byte 1. -/
  | vuInsQ81 (g : Guard) (src : Src)
  /-- R137. Narrows t to signed 8-bit into byte 2. -/
  | vuInsQ82 (g : Guard) (src : Src)
  /-- R137. Narrows t to signed 8-bit into byte 3. -/
  | vuInsQ83 (g : Guard) (src : Src)
  /-- R138. Encodes the pair (b, t) as a Q4X byte into byte 0. -/
  | vuInsQ4x0 (g : Guard) (src : Src)
  /-- R138. Encodes a Q4X pair into byte 1. -/
  | vuInsQ4x1 (g : Guard) (src : Src)
  /-- R138. Encodes a Q4X pair into byte 2. -/
  | vuInsQ4x2 (g : Guard) (src : Src)
  /-- R138. Encodes a Q4X pair into byte 3. -/
  | vuInsQ4x3 (g : Guard) (src : Src)
  /-- R137. Narrows t to BF16 into half 0. -/
  | vuInsH0 (g : Guard) (src : Src)
  /-- R137. Narrows t to BF16 into half 1. -/
  | vuInsH1 (g : Guard) (src : Src)
  /-- R137. Widens E4M3 byte 0 of each lane to FP32. -/
  | vuExtE40 (g : Guard) (src : Src)
  /-- R137. Widens E4M3 byte 1 to FP32. -/
  | vuExtE41 (g : Guard) (src : Src)
  /-- R137. Widens E4M3 byte 2 to FP32. -/
  | vuExtE42 (g : Guard) (src : Src)
  /-- R137. Widens E4M3 byte 3 to FP32. -/
  | vuExtE43 (g : Guard) (src : Src)
  /-- R137. Widens signed 8-bit byte 0 to FP32. -/
  | vuExtQ80 (g : Guard) (src : Src)
  /-- R137. Widens signed 8-bit byte 1 to FP32. -/
  | vuExtQ81 (g : Guard) (src : Src)
  /-- R137. Widens signed 8-bit byte 2 to FP32. -/
  | vuExtQ82 (g : Guard) (src : Src)
  /-- R137. Widens signed 8-bit byte 3 to FP32. -/
  | vuExtQ83 (g : Guard) (src : Src)
  /-- R138. Decodes Q4X element 0 of each lane to FP32. -/
  | vuExtQ4x0 (g : Guard) (src : Src)
  /-- R138. Decodes Q4X element 1 to FP32. -/
  | vuExtQ4x1 (g : Guard) (src : Src)
  /-- R138. Decodes Q4X element 2 to FP32. -/
  | vuExtQ4x2 (g : Guard) (src : Src)
  /-- R138. Decodes Q4X element 3 to FP32. -/
  | vuExtQ4x3 (g : Guard) (src : Src)
  /-- R138. Decodes Q4X element 4 to FP32. -/
  | vuExtQ4x4 (g : Guard) (src : Src)
  /-- R138. Decodes Q4X element 5 to FP32. -/
  | vuExtQ4x5 (g : Guard) (src : Src)
  /-- R138. Decodes Q4X element 6 to FP32. -/
  | vuExtQ4x6 (g : Guard) (src : Src)
  /-- R138. Decodes Q4X element 7 to FP32. -/
  | vuExtQ4x7 (g : Guard) (src : Src)
  /-- R137. Widens BF16 half 0 to FP32. -/
  | vuExtH0 (g : Guard) (src : Src)
  /-- R137. Widens BF16 half 1 to FP32. -/
  | vuExtH1 (g : Guard) (src : Src)
  /-- R140. Appends the lanes of t selected by vu.k to a quad stream queue and reports how many were accepted. -/
  | vuSpush (g : Guard) (src : Src)
  /-- R141. Removes up to MAX entries from a quad stream queue into a dense vector with a valid-lane mask. -/
  | vuSpop (g : Guard) (src : Src)
  /-- R149. Queues a load of a weight tile and its scales from the stash into the shadow buffer. -/
  | anvLdw (g : Guard) (src : Src)
  /-- R150. Queues an exchange of the active and shadow weight buffers. -/
  | anvSwap (g : Guard) (src : Src)
  /-- R151. Queues N activation rows times the active tile, accumulated into accumulator rows. -/
  | anvRun (g : Guard) (src : Src)
  /-- R151. Queues N activation rows times the active tile, replacing accumulator rows. -/
  | anvRunz (g : Guard) (src : Src)
  /-- R151. Queues a one-row run and delivers the updated accumulator row. -/
  | anvRunv (g : Guard) (src : Src)
  /-- R153. Queues the latching of a mask parameter block from the stash. -/
  | anvMpb (g : Guard) (src : Src)
  /-- R154. Queues a read of one accumulator row into anv.r. -/
  | anvRd (g : Guard) (src : Src)
  /-- R154. Queues a write of 64 FP32 lanes into an accumulator row. -/
  | anvWr (g : Guard) (src : Src)
  /-- R154. Queues the clearing of N accumulator rows to +0. -/
  | anvClr (g : Guard) (src : Src)
  /-- R154. Delivers the anvil queue's progress value without entering the queue. -/
  | anvProg (g : Guard) (src : Src)
  /-- R147. A queued anvil operation starts when the one ahead ends, reading the stash and writing rows at their architected cycles. -/
  | anvilOperationStart (c : Nat)
  /-- R163. Issues a copy of runs of bytes between near or far engine addresses on Q0. -/
  | engCopy (g : Guard) (src : Src)
  /-- R164. Issues a copy into the same near destination of every quad named in e.aux. -/
  | engCopyMc (g : Guard) (src : Src)
  /-- R165. Issues the installation of a stash-map window of the quad. -/
  | engSmap (g : Guard) (src : Src)
  /-- R165. Issues the invalidation of every C chunk of a window or of all windows. -/
  | engSinv (g : Guard) (src : Src)
  /-- R165. Issues the writeback of every D chunk of a window, optionally dropping it. -/
  | engSwb (g : Guard) (src : Src)
  /-- R166. Issues an indexed gather of elements into the stash. -/
  | engGather (g : Guard) (src : Src)
  /-- R166. Issues an indexed scatter of elements from the stash. -/
  | engScatter (g : Guard) (src : Src)
  /-- R167. Issues a selection of the k largest FP32 keys, writing their indices. -/
  | engTopk (g : Guard) (src : Src)
  /-- R249. Issues a crucible matrix-vector product on the stack holding the weights. -/
  | engSgemv (g : Guard) (src : Src)
  /-- R251. Issues crucible decode attention over key-value extents, producing one triple per head. -/
  | engSattn (g : Guard) (src : Src)
  /-- R255. Issues a crucible embedding-bag reduction. -/
  | engSred (g : Guard) (src : Src)
  /-- R168. Issues an all-reduce of near buffers among the gang's tasks at a scope. -/
  | engCallred (g : Guard) (src : Src)
  /-- R168. Issues a broadcast of the root rank's buffer to every member. -/
  | engCbcast (g : Guard) (src : Src)
  /-- R168. Issues a reduction delivered only to the root rank. -/
  | engCreduce (g : Guard) (src : Src)
  /-- R272. Issues an append of one position to up to 8 key-value streams, with copy-on-write of shared pages. -/
  | engKvapp (g : Guard) (src : Src)
  /-- R273. Issues a compaction of one stream to a keep list. -/
  | engKvcomp (g : Guard) (src : Src)
  /-- R275. Issues a longest-prefix lookup in a share domain that composes extents into empty streams. -/
  | engPxlook (g : Guard) (src : Src)
  /-- R276. Issues the publication of a prefix of streams as a new node of the prefix index. -/
  | engPxins (g : Guard) (src : Src)
  /-- R277. Issues the release of stream records or of a leaf node, dropping page references. -/
  | engPxrel (g : Guard) (src : Src)
  /-- R173. Places a fence in the named engine queues. -/
  | engQfence (g : Guard) (src : Src)
  /-- R170. Waits for a command or fence to complete and delivers its completion word. -/
  | engQwait (g : Guard) (src : Src)
  /-- R171. Reads the idle state and completion count of the named queues without waiting. -/
  | engQpoll (g : Guard) (src : Src)
  /-- R157. A queued engine command starts once the command ahead in its queue has completed and performs its elements. -/
  | engineCommandStart (c : Nat) (q : EngineStart)
  /-- R169. An engine command completes once all its accesses have performed, yielding its completion word and latching an event if IRQ is set. -/
  | engineCommandCompletion (c q : Nat)
  /-- R172. A pending engine completion event vectors to uiv at a safe point while uie is enabled and no handler is active. -/
  | engineCompletionEvent (c : Nat)
  /-- R175. Translates a virtual address into handle h_K, usable and reported in xl.r 12 cycles later, or ends the task outside the lease set. -/
  | xlHk (g : Guard) (src : Src) (k : Fin 16)
  /-- R176. Makes a handle invalid from the next bundle. -/
  | xlDrop (g : Guard) (src : Src)
  /-- R177. Delivers its value with an empty taint set. -/
  | tntClr (g : Guard) (src : Src)
  /-- R177. Delivers tnt.o with the taint of the trigger value joined. -/
  | tntJoin (g : Guard) (src : Src)
  /-- R177. Clears colours from the path taint and delivers the new path taint. -/
  | tntPclr (g : Guard) (src : Src)
  /-- R177. Advances the current taint colour and restarts the far-load count. -/
  | tntNext (g : Guard) (src : Src)
  /-- R177. Delivers the taint set and poison of its value as data. -/
  | tntOf (g : Guard) (src : Src)
  /-- R42. Counts the task's arrival for its next phase on a barrier channel, waiting if the phase counter is not free. -/
  | barArrive (g : Guard) (src : Src)
  /-- R43. Waits until the phase of the task's latest arrival has been released and delivers it in bar.r. -/
  | barWait (g : Guard) (src : Src)
  /-- R43. Arrival followed by a wait for its phase, in one bundle. -/
  | barSync (g : Guard) (src : Src)
  /-- R179. Commit event and wait until every earlier far access has performed at its home. -/
  | barDrain (g : Guard) (src : Src)
  /-- R111. Near load of one byte from the stash. -/
  | ldnB (g : Guard) (a : Fin 16) (u : Bool) (o : BitVec 6)
  /-- R111. Near load of two bytes. -/
  | ldnH (g : Guard) (a : Fin 16) (u : Bool) (o : BitVec 6)
  /-- R111. Near load of four bytes. -/
  | ldnW (g : Guard) (a : Fin 16) (u : Bool) (o : BitVec 6)
  /-- R111. Near load of eight bytes. -/
  | ldnD (g : Guard) (a : Fin 16) (u : Bool) (o : BitVec 6)
  /-- R111. Near load of 64 words into a vector. -/
  | ldnV (g : Guard) (a : Fin 16) (u : Bool) (o : BitVec 6)
  /-- R113. Near load of eight bytes that recovers the taint tag written by the same core. -/
  | ldnT (g : Guard) (a : Fin 16) (u : Bool) (o : BitVec 6)
  /-- R112. Near store of one byte. -/
  | stnB (g : Guard) (a : Fin 16) (u : Bool) (o : BitVec 6)
  /-- R112. Near store of two bytes. -/
  | stnH (g : Guard) (a : Fin 16) (u : Bool) (o : BitVec 6)
  /-- R112. Near store of four bytes. -/
  | stnW (g : Guard) (a : Fin 16) (u : Bool) (o : BitVec 6)
  /-- R112. Near store of eight bytes. -/
  | stnD (g : Guard) (a : Fin 16) (u : Bool) (o : BitVec 6)
  /-- R112. Near store of a vector, lane-masked under guard 0b1110. -/
  | stnV (g : Guard) (a : Fin 16) (u : Bool) (o : BitVec 6)
  /-- R113. Near store of eight bytes with a taint and poison tag into a temporary word. -/
  | stnT (g : Guard) (a : Fin 16) (u : Bool) (o : BitVec 6)
  /-- R115. Far load of four bytes through a handle, delivered at its latency class. -/
  | ldfW (g : Guard) (a : Fin 16) (k : Fin 16) (u : Bool) (l : BitVec 2)
  /-- R115. Far load of eight bytes. -/
  | ldfD (g : Guard) (a : Fin 16) (k : Fin 16) (u : Bool) (l : BitVec 2)
  /-- R115. Far load of 64 lanes. -/
  | ldfV (g : Guard) (a : Fin 16) (k : Fin 16) (u : Bool) (l : BitVec 2)
  /-- R115. Far store of four bytes into the store buffer. -/
  | stfW (g : Guard) (a : Fin 16) (k : Fin 16) (u : Bool) (l : BitVec 2)
  /-- R115. Far store of eight bytes into the store buffer. -/
  | stfD (g : Guard) (a : Fin 16) (k : Fin 16) (u : Bool) (l : BitVec 2)
  /-- R115. Far store of 64 lanes into the store buffer, lane-masked under guard 0b1110. -/
  | stfV (g : Guard) (a : Fin 16) (k : Fin 16) (u : Bool) (l : BitVec 2)
  /-- R117. Atomic add at the named scope, returning the old value. -/
  | atomAdd (g : Guard) (a : Fin 16) (k : Fin 16) (c : BitVec 3)
  /-- R117. Atomic AND at the named scope. -/
  | atomAnd (g : Guard) (a : Fin 16) (k : Fin 16) (c : BitVec 3)
  /-- R117. Atomic OR at the named scope. -/
  | atomOr (g : Guard) (a : Fin 16) (k : Fin 16) (c : BitVec 3)
  /-- R117. Atomic XOR at the named scope. -/
  | atomXor (g : Guard) (a : Fin 16) (k : Fin 16) (c : BitVec 3)
  /-- R117. Atomic signed minimum. -/
  | atomMin (g : Guard) (a : Fin 16) (k : Fin 16) (c : BitVec 3)
  /-- R117. Atomic signed maximum. -/
  | atomMax (g : Guard) (a : Fin 16) (k : Fin 16) (c : BitVec 3)
  /-- R117. Atomic unsigned minimum. -/
  | atomMinu (g : Guard) (a : Fin 16) (k : Fin 16) (c : BitVec 3)
  /-- R117. Atomic unsigned maximum. -/
  | atomMaxu (g : Guard) (a : Fin 16) (k : Fin 16) (c : BitVec 3)
  /-- R117. Atomic exchange. -/
  | atomXchg (g : Guard) (a : Fin 16) (k : Fin 16) (c : BitVec 3)
  /-- R117. Atomic compare-and-swap against la.c. -/
  | atomCas (g : Guard) (a : Fin 16) (k : Fin 16) (c : BitVec 3)
  /-- R118. Applies the post-update of a_j under modifier m_j and nothing else. -/
  | aupd (g : Guard) (a : Fin 16)
  /-- R118. Adds a signed 7-bit immediate to a_j. -/
  | aadd (g : Guard) (a : Fin 16) (n : BitVec 7)
  /-- R116. Prefetches the line containing the target into its home L2. -/
  | pf (g : Guard) (a : Fin 16) (k : Fin 16) (u : Bool) (l : BitVec 2)
  /-- R119. Near gather of 64 words by an index vector. -/
  | ldnGv (g : Guard) (a : Fin 16) (u : Bool) (o : BitVec 6)
  /-- R119. Near scatter of 64 words by an index vector. -/
  | stnSv (g : Guard) (a : Fin 16) (u : Bool) (o : BitVec 6)
  /-- R58. A result of an operation reaches its result port at its due core cycle. -/
  | resultDelivery (c : Nat)
  /-- R224. A far load or far atomic performs at its home and its data returns to the core's arrival buffer. -/
  | farLoadPerform (c ident : Nat)
  /-- R226. A released far store performs at its home. -/
  | farStorePerform (c ident : Nat)
  /-- R225. After 65,536 core cycles without a commit event the core releases its store buffer. -/
  | forcedCommit (c : Nat)
  /-- R229. When the far-load counter reaches 64 the current colour advances and the counter restarts. -/
  | tcolAdvance (c : Nat)
  /-- R42. A phase of a barrier channel is released after the last member's arrival and its release delay, ending the waits on it. -/
  | barrierRelease (x : ChanId)
  /-- R33. A freeze watchdog reaching 2^20 consecutive frozen periods ends the task. -/
  | freezeWatchdogExpiry (c : Nat)
  /-- R33. A wait watchdog reaching 2^26 periods ends the task. -/
  | waitWatchdogExpiry (c : Nat)
  /-- R36. A member stops at its next safe point; when the last member stops the gang's state is saved to a context image. -/
  | preemptionStop (c : Nat)
  /-- R37. A member that reaches no safe point within 2^20 periods of being marked ends with cause pre-emption timeout. -/
  | preemptionTimeout (c : Nat)
  /-- R359. A stopped gang is restored on its quads: schedule, image, anvil buffers, then all members issue together; an image
  that is not intact fails its check and ends the gang (R315). -/
  | gangResume (r : LoadCheck)
  /-- R240. When all tasks have exited and their stores and commands are done the command processor writes back windows, steps versions and releases the quads. -/
  | gangCompletion (ctx : Nat)
  /-- R288. The dispatcher places a waiting request on the candidate quad set of earliest expected start and broadcasts the launch. -/
  | placement (ctx : Nat)
  /-- R286. After any cold bind, drain and window invalidations, the near image streams in and every task issues its entry bundle; a
  schedule that is not intact fails its measurement and ends the request (R325). -/
  | launchStart (r : LoadCheck)
  /-- R358. On quad release the Uludin engine reads the result, computes the hallmark and sends the encrypted reply. -/
  | reply (ctx : Nat)
  /-- R342. A reply held for a port without link is dropped after 1 ms. -/
  | replyHoldExpiry (port : Nat)
  /-- R344. A pod transfer unanswered for 16 µs is resent, and after 8 resends delivers poison or is discarded. -/
  | podTransferResend (xfer : Nat)
  /-- R348. An atomic to the send ring header notifies packet core 2, which sends each posted INVOKE. -/
  | sendRingDoorbell (ctx : Nat)
  /-- R348. A sent entry without a reply for 1 s becomes failed. -/
  | sendTimeout (session rid : Nat)
  /-- R214. Once accesses and commands through revoked handles are done and D chunks written back, the Invalidate Completion is sent. -/
  | invalidateCompletion (ctx : Nat) (r : PageRange)
  /-- R218. A promotion completing after its lease ended leaves the frame warm as burst, or scrubs it. -/
  | promotionComplete (frame : Nat)
  /-- R319. USES reaching 2^44 before a rekey makes the key store flip generation itself. -/
  | forcedKeyFlip (slot : Nat) (root : BitVec 256)
  /-- R295. 1,024 periods without a detection raise the bank-read limit one step. -/
  | droopRecovery (die : Nat)
  /-- R297. At each 1,024-period window every tenant's token bucket is refilled with redistribution of idle tokens. -/
  | bucketWindowStart (die : Nat)
  /-- R291. A head request waiting 10 ms sets AGED, raising its current priority. -/
  | requestAgeing (ctx : Nat)
  /-- R292. A quad idle for 100 µs has its instruction memory zeroised and is power-gated. -/
  | quadPowerGate (quad : Nat)

  /-- R215. The firmware moves a leased frame to another frame of the same stack. -/
  | frameMigration (frame newFrame : Nat)
  /-- R351. The ladle brings a lease page into a frame from flash or a peer. -/
  | ladlePageFill (ctx vpage frame : Nat)
  /-- R319. When USES reaches 2^40 or a buffer version nears wrap, a new root is drawn and the world's frames are swept under the new generation. -/
  | rekey (slot : Nat) (root : BitVec 256)
  /-- R337. An incoming Uludin INVOKE frame is checked, written to its block's request ring and made visible to placement. -/
  | invoke (port : Nat) (f : UFrame)
  /-- R335. A frame that is not Uludin or not addressed to the module goes to the packet cores' management path. -/
  | managementFrame (port : Nat) (bytes : List Byte)
  /-- R344. A pod load of one line is performed at the home module and answered by PREPLY. -/
  | pload (f : UFrame)
  /-- R344. A pod store of a masked line is performed at the home module and answered by PREPLY. -/
  | pstore (f : UFrame)
  /-- R344. A pod atomic is performed at the home module and answered by PREPLY with the old value. -/
  | patom (f : UFrame)
  /-- R344. A pod transfer's answer arrives and delivers the data or a poisoned result. -/
  | preply (f : UFrame)
  /-- R345. A pod barrier or collective frame is combined or forwarded along the module tree and acknowledged. -/
  | pcoll (x : CollFrame)
  /-- R348. A reply to an INVOKE this module sent is written into its send entry. -/
  | sentInvokeReply (f : UFrame)
  /-- R281. A host write to a micro-context block, rejected while the block is binding, running, stopped or unsealing. -/
  | microContextWrite (fn : Nat) (ide : Bool) (ctx off len val : Nat)
  /-- R40. Service software writes or removes a pod-group table entry. -/
  | podGroupWrite (group : Nat) (members : List Nat) (channels : Nat)
  /-- R339. A tenant installs, rekeys or removes a session key through its function, resetting the SEQ state. -/
  | sessionInstall (fn : Nat) (ide : Bool) (session world role : Nat) (key : BitVec 256)
  /-- R327. A model segment is verified, measured, checked and stored sealed, or deduplicated. -/
  | segmentSubmission (fn : Nat) (sub : Submission)
  /-- R330. An assay for one world is produced and signed with the session key. -/
  | assayRequest (fn world segment : Nat) (nonce : BitVec 256)
  /-- R332. A TDISP lock request moves the interface state or is refused with INVALID_INTERFACE_STATE. -/
  | lockInterface (fn : Nat)
  /-- R332. The physical function forces an interface to ERROR, containing its gangs and scrubbing its frames. -/
  | forceInterfaceError (fn : Nat)
  /-- R349. A host write to a function register without a row of its own, subject to the interface state. -/
  | hostRegisterWrite (fn : Nat) (ide : Bool) (w : HostWrite)
  /-- R214. An ATS Invalidate Request revokes every handle to the invalidated range. -/
  | atsInvalidateRequest (ctx : Nat) (r : PageRange)
  /-- R267. The burnisher recomputes a page's CRC and marks it DAMAGED on mismatch or error. -/
  | burnisherCheck (pool page : Nat)
  /-- R293. Every 10 µs the module governor reads power and lowers or raises one gang's duty. -/
  | governorReading (watts : Nat)
  /-- R295. A droop on a die's rail lowers its bank-read limit. -/
  | droopDetection (die : Nat)
  /-- R310. An error detected in the core rolls it back to its checkpoint, or ends the task inside a no-rollback window. -/
  | detectedError (c : Nat) (e : ErrorReport)
  /-- R350. A Function Level Reset of a virtual function ends the tenant's gangs, halts its blocks and errors a locked interface. -/
  | flrVirtualFunction (fn : Nat)
  /-- R355. perst_n or FLR of physical function 0 ends every world, zeroises keys and reruns boot from step 3. -/
  | perst
  /-- R355. Power loss or mrst_n clears everything on the module. -/
  | moduleReset
  /-- R356. From AUX in regulation the module verifies firmware, trains links and certifies its session key. -/
  | boot (r : BootReport)
  /-- R354. A thermal trip drives therm_n low and sheds MAIN within 1 ms. -/
  | thermalTrip
  /-- R342. An Ethernet port loses its link, so replies for it are held and outgoing frames use another port of the mask. -/
  | linkLoss (port : Nat)
  /-- R342. An Ethernet port regains its link, so held replies leave and the port becomes eligible again under R347. -/
  | linkUp (port : Nat)
  /-- R333. A UCIe link that keeps failing its CRC retries is reported and its compute die is withdrawn. -/
  | ucieLinkFailure (die : Nat)
  /-- R220. A host DMA request reaches its home and performs there as an other-party access. -/
  | hostDma (write : Bool) (pa : Nat) (bytes : List Byte)
  /-- R214. The host answers a translation request that the firmware made, giving the page a translation or refusing it so that tasks holding the page end with lease violation. -/
  | atsTranslationCompletion (ctx vpage : Nat) (leaf : BitVec 64)
  /-- R356. perst_n rises, after which the PCIe link trains within 20 ms and the session key is certified within 3 s. -/
  | perstNRising
  /-- R354. A read of telemetry over the management bus takes an unread alert, releasing alert_n. -/
  | telemetryAlertRead
  /-- R332. A TDISP request moves a CONFIG_LOCKED interface to RUN, or is refused with INVALID_INTERFACE_STATE. -/
  | startInterface (fn : Nat)
  /-- R332. A TDISP request returns a locked, running or errored interface to CONFIG_UNLOCKED. -/
  | stopInterface (fn : Nat)
  deriving DecidableEq, Repr

end Sys2Proof
end

