-- ==== Sys2Proof/WellFormed.lean ====
section
/-! DEFINITION. Which instructions are well formed: the limits that R49, R51 and R53 place on the fields of a slot, and the
numbering of R12, R15, R18 and R19 for the events of the module. -/

namespace Sys2Proof

/-- A trigger or plain move carries any guard but the masked one (R49, R51). -/
def moveGuardOk (g : Guard) : Bool := decide (g ≠ .mask)

/-- An address operation carries no last-read mark, and the masked guard only where the operation allows it (R49). -/
def addrGuardOk (maskable : Bool) (g : Guard) : Bool :=
  match g with
  | .last => false
  | .mask => maskable
  | _ => true

/-- A latency class is L2, HBM or peer (R53). -/
def classOk (l : BitVec 2) : Bool := decide (l ≠ 3)

/-- An atomic's scope is 2 to 5, and at quad scope it names no handle (R53). -/
def scopeOk (k : Fin 16) (c : BitVec 3) : Bool :=
  decide (2 ≤ c.toNat ∧ c.toNat ≤ 5 ∧ (c.toNat = 2 → k = 0))

/-- A core, quad, die, port and micro-context number (R15, R18). -/
def coreOk (c : Nat) : Bool := decide (c < 1536)
def quadOk (q : Nat) : Bool := decide (q < 384)
def dieOk (d : Nat) : Bool := decide (d < 8)
def portOk (p : Nat) : Bool := decide (p < 8)
def ctxOk (c : Nat) : Bool := decide (c < 16384)

/-- Whether an instruction is well formed. -/
def wellFormed : Instr → Bool
  | .mov g _ _ => moveGuardOk g
  | .maskedVectorWrite _ d => decide (0x20 ≤ d.toNat ∧ d.toNat < 0x40)
  | .saAdd g _ _ => moveGuardOk g
  | .saSub g _ _ => moveGuardOk g
  | .saAnd g _ _ => moveGuardOk g
  | .saOr g _ _ => moveGuardOk g
  | .saXor g _ _ => moveGuardOk g
  | .saAndn g _ _ => moveGuardOk g
  | .saShl g _ _ => moveGuardOk g
  | .saShr g _ _ => moveGuardOk g
  | .saSar g _ _ => moveGuardOk g
  | .saMin g _ _ => moveGuardOk g
  | .saMax g _ _ => moveGuardOk g
  | .saMinu g _ _ => moveGuardOk g
  | .saMaxu g _ _ => moveGuardOk g
  | .saMul g _ _ => moveGuardOk g
  | .saMulh g _ _ => moveGuardOk g
  | .saMulhu g _ _ => moveGuardOk g
  | .saClz g _ _ => moveGuardOk g
  | .saCtz g _ _ => moveGuardOk g
  | .saPopc g _ _ => moveGuardOk g
  | .saSext g _ _ => moveGuardOk g
  | .saZext g _ _ => moveGuardOk g
  | .saBfx g _ _ => moveGuardOk g
  | .skEq g _ _ => moveGuardOk g
  | .skNe g _ _ => moveGuardOk g
  | .skLt g _ _ => moveGuardOk g
  | .skGe g _ _ => moveGuardOk g
  | .skLtu g _ _ => moveGuardOk g
  | .skGeu g _ _ => moveGuardOk g
  | .skTst g _ _ => moveGuardOk g
  | .skTstn g _ _ => moveGuardOk g
  | .skPrep g _ _ => moveGuardOk g
  | .seqBr g _ => moveGuardOk g
  | .seqBrn g _ => moveGuardOk g
  | .seqJmp g _ => moveGuardOk g
  | .seqCall g _ => moveGuardOk g
  | .seqRet g _ => moveGuardOk g
  | .seqLoop g _ => moveGuardOk g
  | .seqLbrk g _ => moveGuardOk g
  | .seqExit g _ => moveGuardOk g
  | .seqTrap g _ => moveGuardOk g
  | .seqWfe g _ => moveGuardOk g
  | .seqSev g _ => moveGuardOk g
  | .seqReti g _ => moveGuardOk g
  | .seqCsrr g _ => moveGuardOk g
  | .seqCsrw g _ => moveGuardOk g
  | .seqYield g _ => moveGuardOk g
  | .checkpoint c => coreOk c
  | .vuAddF g _ => moveGuardOk g
  | .vuSubF g _ => moveGuardOk g
  | .vuMulF g _ => moveGuardOk g
  | .vuFmaF g _ => moveGuardOk g
  | .vuFmsF g _ => moveGuardOk g
  | .vuMaxF g _ => moveGuardOk g
  | .vuMinF g _ => moveGuardOk g
  | .vuAbsF g _ => moveGuardOk g
  | .vuCmpeqF g _ => moveGuardOk g
  | .vuCmpltF g _ => moveGuardOk g
  | .vuCmpleF g _ => moveGuardOk g
  | .vuAddI g _ => moveGuardOk g
  | .vuSubI g _ => moveGuardOk g
  | .vuMulI g _ => moveGuardOk g
  | .vuMaxI g _ => moveGuardOk g
  | .vuMinI g _ => moveGuardOk g
  | .vuMaxuI g _ => moveGuardOk g
  | .vuMinuI g _ => moveGuardOk g
  | .vuAnd g _ => moveGuardOk g
  | .vuOr g _ => moveGuardOk g
  | .vuXor g _ => moveGuardOk g
  | .vuShl g _ => moveGuardOk g
  | .vuShr g _ => moveGuardOk g
  | .vuSar g _ => moveGuardOk g
  | .vuCmpeqI g _ => moveGuardOk g
  | .vuCmpltI g _ => moveGuardOk g
  | .vuCmpltuI g _ => moveGuardOk g
  | .vuDot4 g _ => moveGuardOk g
  | .vuExp2 g _ => moveGuardOk g
  | .vuRcp g _ => moveGuardOk g
  | .vuRsqrt g _ => moveGuardOk g
  | .vuRedaddF g _ => moveGuardOk g
  | .vuRedmaxF g _ => moveGuardOk g
  | .vuRedaddI g _ => moveGuardOk g
  | .vuRedmaxI g _ => moveGuardOk g
  | .vuRedminI g _ => moveGuardOk g
  | .vuScanI g _ => moveGuardOk g
  | .vuPerm g _ => moveGuardOk g
  | .vuRot g _ => moveGuardOk g
  | .vuBcast g _ => moveGuardOk g
  | .vuSel g _ => moveGuardOk g
  | .vuCompress g _ => moveGuardOk g
  | .vuExpand g _ => moveGuardOk g
  | .vuIota g _ => moveGuardOk g
  | .vuCvtFI g _ => moveGuardOk g
  | .vuCvtIF g _ => moveGuardOk g
  | .vuCvtIFZ g _ => moveGuardOk g
  | .vuInsE40 g _ => moveGuardOk g
  | .vuInsE41 g _ => moveGuardOk g
  | .vuInsE42 g _ => moveGuardOk g
  | .vuInsE43 g _ => moveGuardOk g
  | .vuInsQ80 g _ => moveGuardOk g
  | .vuInsQ81 g _ => moveGuardOk g
  | .vuInsQ82 g _ => moveGuardOk g
  | .vuInsQ83 g _ => moveGuardOk g
  | .vuInsQ4x0 g _ => moveGuardOk g
  | .vuInsQ4x1 g _ => moveGuardOk g
  | .vuInsQ4x2 g _ => moveGuardOk g
  | .vuInsQ4x3 g _ => moveGuardOk g
  | .vuInsH0 g _ => moveGuardOk g
  | .vuInsH1 g _ => moveGuardOk g
  | .vuExtE40 g _ => moveGuardOk g
  | .vuExtE41 g _ => moveGuardOk g
  | .vuExtE42 g _ => moveGuardOk g
  | .vuExtE43 g _ => moveGuardOk g
  | .vuExtQ80 g _ => moveGuardOk g
  | .vuExtQ81 g _ => moveGuardOk g
  | .vuExtQ82 g _ => moveGuardOk g
  | .vuExtQ83 g _ => moveGuardOk g
  | .vuExtQ4x0 g _ => moveGuardOk g
  | .vuExtQ4x1 g _ => moveGuardOk g
  | .vuExtQ4x2 g _ => moveGuardOk g
  | .vuExtQ4x3 g _ => moveGuardOk g
  | .vuExtQ4x4 g _ => moveGuardOk g
  | .vuExtQ4x5 g _ => moveGuardOk g
  | .vuExtQ4x6 g _ => moveGuardOk g
  | .vuExtQ4x7 g _ => moveGuardOk g
  | .vuExtH0 g _ => moveGuardOk g
  | .vuExtH1 g _ => moveGuardOk g
  | .vuSpush g _ => moveGuardOk g
  | .vuSpop g _ => moveGuardOk g
  | .anvLdw g _ => moveGuardOk g
  | .anvSwap g _ => moveGuardOk g
  | .anvRun g _ => moveGuardOk g
  | .anvRunz g _ => moveGuardOk g
  | .anvRunv g _ => moveGuardOk g
  | .anvMpb g _ => moveGuardOk g
  | .anvRd g _ => moveGuardOk g
  | .anvWr g _ => moveGuardOk g
  | .anvClr g _ => moveGuardOk g
  | .anvProg g _ => moveGuardOk g
  | .anvilOperationStart c => coreOk c
  | .engCopy g _ => moveGuardOk g
  | .engCopyMc g _ => moveGuardOk g
  | .engSmap g _ => moveGuardOk g
  | .engSinv g _ => moveGuardOk g
  | .engSwb g _ => moveGuardOk g
  | .engGather g _ => moveGuardOk g
  | .engScatter g _ => moveGuardOk g
  | .engTopk g _ => moveGuardOk g
  | .engSgemv g _ => moveGuardOk g
  | .engSattn g _ => moveGuardOk g
  | .engSred g _ => moveGuardOk g
  | .engCallred g _ => moveGuardOk g
  | .engCbcast g _ => moveGuardOk g
  | .engCreduce g _ => moveGuardOk g
  | .engKvapp g _ => moveGuardOk g
  | .engKvcomp g _ => moveGuardOk g
  | .engPxlook g _ => moveGuardOk g
  | .engPxins g _ => moveGuardOk g
  | .engPxrel g _ => moveGuardOk g
  | .engQfence g _ => moveGuardOk g
  | .engQwait g _ => moveGuardOk g
  | .engQpoll g _ => moveGuardOk g
  | .engineCommandStart c q => coreOk c && decide (q.queue < 5)
  | .engineCommandCompletion c q => coreOk c && decide (q < 5)
  | .engineCompletionEvent c => coreOk c
  | .xlHk g _ _ => moveGuardOk g
  | .xlDrop g _ => moveGuardOk g
  | .tntClr g _ => moveGuardOk g
  | .tntJoin g _ => moveGuardOk g
  | .tntPclr g _ => moveGuardOk g
  | .tntNext g _ => moveGuardOk g
  | .tntOf g _ => moveGuardOk g
  | .barArrive g _ => moveGuardOk g
  | .barWait g _ => moveGuardOk g
  | .barSync g _ => moveGuardOk g
  | .barDrain g _ => moveGuardOk g
  | .ldnB g _ _ _ => addrGuardOk false g
  | .ldnH g _ _ _ => addrGuardOk false g
  | .ldnW g _ _ _ => addrGuardOk false g
  | .ldnD g _ _ _ => addrGuardOk false g
  | .ldnV g _ _ _ => addrGuardOk false g
  | .ldnT g _ _ _ => addrGuardOk false g
  | .stnB g _ _ _ => addrGuardOk false g
  | .stnH g _ _ _ => addrGuardOk false g
  | .stnW g _ _ _ => addrGuardOk false g
  | .stnD g _ _ _ => addrGuardOk false g
  | .stnV g _ _ _ => addrGuardOk true g
  | .stnT g _ _ _ => addrGuardOk false g
  | .ldfW g _ _ _ l => addrGuardOk false g && classOk l
  | .ldfD g _ _ _ l => addrGuardOk false g && classOk l
  | .ldfV g _ _ _ l => addrGuardOk false g && classOk l
  | .stfW g _ _ _ l => addrGuardOk false g && classOk l
  | .stfD g _ _ _ l => addrGuardOk false g && classOk l
  | .stfV g _ _ _ l => addrGuardOk true g && classOk l
  | .atomAdd g _ k c => addrGuardOk false g && scopeOk k c
  | .atomAnd g _ k c => addrGuardOk false g && scopeOk k c
  | .atomOr g _ k c => addrGuardOk false g && scopeOk k c
  | .atomXor g _ k c => addrGuardOk false g && scopeOk k c
  | .atomMin g _ k c => addrGuardOk false g && scopeOk k c
  | .atomMax g _ k c => addrGuardOk false g && scopeOk k c
  | .atomMinu g _ k c => addrGuardOk false g && scopeOk k c
  | .atomMaxu g _ k c => addrGuardOk false g && scopeOk k c
  | .atomXchg g _ k c => addrGuardOk false g && scopeOk k c
  | .atomCas g _ k c => addrGuardOk false g && scopeOk k c
  | .aupd g _ => addrGuardOk false g
  | .aadd g _ _ => addrGuardOk false g
  | .pf g _ _ _ l => addrGuardOk false g && classOk l
  | .ldnGv g _ _ _ => addrGuardOk false g
  | .stnSv g _ _ _ => addrGuardOk true g
  | .resultDelivery c => coreOk c
  | .farLoadPerform c _ => coreOk c
  | .farStorePerform c _ => coreOk c
  | .forcedCommit c => coreOk c
  | .tcolAdvance c => coreOk c
  | .barrierRelease _ => true
  | .freezeWatchdogExpiry c => coreOk c
  | .waitWatchdogExpiry c => coreOk c
  | .preemptionStop c => coreOk c
  | .preemptionTimeout c => coreOk c
  | .gangResume r => ctxOk r.ctx
  | .gangCompletion ctx => ctxOk ctx
  | .placement ctx => ctxOk ctx
  | .launchStart r => ctxOk r.ctx
  | .reply ctx => ctxOk ctx
  | .replyHoldExpiry port => portOk port
  | .podTransferResend _ => true
  | .sendRingDoorbell ctx => ctxOk ctx
  | .sendTimeout _ _ => true
  | .invalidateCompletion ctx _ => ctxOk ctx
  | .promotionComplete _ => true
  | .forcedKeyFlip slot _ => decide (slot < 4096)
  | .droopRecovery die => dieOk die
  | .bucketWindowStart die => dieOk die
  | .requestAgeing ctx => ctxOk ctx
  | .quadPowerGate quad => quadOk quad
  | .invoke port _ => portOk port
  | .managementFrame port _ => portOk port
  | .pload _ => true
  | .pstore _ => true
  | .patom _ => true
  | .preply _ => true
  | .pcoll _ => true
  | .sentInvokeReply _ => true
  | .microContextWrite fn _ ctx _ _ _ => decide (fn < 256) && ctxOk ctx
  | .podGroupWrite _ _ _ => true
  | .sessionInstall fn _ _ _ _ _ => decide (fn < 256)
  | .segmentSubmission fn _ => decide (fn < 256)
  | .assayRequest fn _ _ _ => decide (fn < 256)
  | .lockInterface fn => decide (fn < 256)
  | .forceInterfaceError fn => decide (fn < 256)
  | .hostRegisterWrite fn _ _ => decide (fn < 256)
  | .atsInvalidateRequest ctx _ => ctxOk ctx
  | .frameMigration _ _ => true
  | .ladlePageFill ctx _ _ => ctxOk ctx
  | .rekey slot _ => decide (slot < 4096)
  | .burnisherCheck _ _ => true
  | .governorReading _ => true
  | .droopDetection die => dieOk die
  | .detectedError c _ => coreOk c
  | .flrVirtualFunction fn => decide (fn < 256)
  | .perst => true
  | .moduleReset => true
  | .boot _ => true
  | .thermalTrip => true
  | .linkLoss port => portOk port
  | .linkUp port => portOk port
  | .ucieLinkFailure die => dieOk die
  | .hostDma _ _ _ => true
  | .atsTranslationCompletion ctx _ _ => ctxOk ctx
  | .perstNRising => true
  | .telemetryAlertRead => true
  | .startInterface fn => decide (fn < 256)
  | .stopInterface fn => decide (fn < 256)

end Sys2Proof
end

