-- ==== Sys2Proof/Decode.lean ====
section
/-! DEFINITION. Decoding of the 24-bit slots and the 256-bit bundle (R45 to R54, R72 to R81), the faults of an encoding that
R55 calls `check_decode`, and the encoder, both from the encoding tables of the spec. -/

namespace Sys2Proof

/-- What a slot of a bundle holds: nothing, an instruction, or an encoding the spec rejects, with the cause code of R301 and
the PORT and HREG details of R302. -/
inductive SlotDec where
  | empty
  | op (i : Instr)
  | bad (cause port hreg : Nat)
  deriving DecidableEq, Repr

/-- The guard of a guard code below 0b1111 (R49). -/
def decodeGuard (n : Nat) : Guard :=
  if n = 0 then .always
  else if h : n - 1 < 12 then .steer ⟨n - 1, h⟩
  else if n = 13 then .last else .mask

/-- The source of a source code; reserved codes have none (R80). -/
def decodeSrc (n : Nat) : Option Src :=
  if h : n < 0x20 then some (.g ⟨n, h⟩)
  else if h : n - 0x20 < 32 then some (.v ⟨n - 0x20, h⟩)
  else if h : n - 0x40 < 8 then some (.p ⟨n - 0x40, h⟩)
  else if h : n - 0x48 < 12 then some (.s ⟨n - 0x48, h⟩)
  else if n < 0x60 then none
  else if h : n - 0x60 < 16 then some (.a ⟨n - 0x60, h⟩)
  else if h : n - 0x70 < 16 then some (.m ⟨n - 0x70, h⟩)
  else if h : n - 0x80 < 16 then some (.h ⟨n - 0x80, h⟩)
  else if n < 0x93 then [PortId.saR, .sbR, .seqR][n - 0x90]?.map .res
  else if h : n - 0x93 < 6 then some (.loopIx ⟨n - 0x93, h⟩)
  else if n < 0xA3 then
    [PortId.vuR, .vuSr, .vuMr, .anvR, .engR, .tntR, .laR, .lbR, .xlR, .barR][n - 0x99]?.map .res
  else if n < 0x100 then none
  else if n < 0x300 then some (.imm (BitVec.ofNat 9 n))
  else if n = 0x3F0 then some .l0
  else if n = 0x3F1 then some .l1
  else if n = 0x3F2 then some .l2
  else if n = 0x3F4 then some .l01
  else if n = 0x3F5 then some .l12
  else if n = 0x3F6 then some .l012
  else none

/-- The register or operand port of a destination code, if it is one (R72). -/
def decodeDst (n : Nat) : Option Dst :=
  if h : n < 0x20 then some (.g ⟨n, h⟩)
  else if h : n - 0x20 < 32 then some (.v ⟨n - 0x20, h⟩)
  else if h : n - 0x40 < 8 then some (.p ⟨n - 0x40, h⟩)
  else if n < 0x50 then none
  else if h : n - 0x50 < 16 then some (.a ⟨n - 0x50, h⟩)
  else if h : n - 0x60 < 16 then some (.m ⟨n - 0x60, h⟩)
  else if n = 0x80 then some (.op .saO)
  else if n = 0xA0 then some (.op .sbO)
  else if n = 0xC0 then some (.op .cmpO)
  else if n = 0x171 then some (.op .seqLo)
  else if n = 0x179 then some (.op .seqCsel)
  else if n = 0x180 then some (.op .vuA)
  else if n = 0x181 then some (.op .vuB)
  else if n = 0x182 then some (.op .vuK)
  else if n < 0x200 then none
  else if n < 0x206 then [OpPort.anvX, .anvW, .anvAcc, .anvN, .anvF, .anvS][n - 0x200]?.map .op
  else if n < 0x240 then none
  else if n < 0x245 then [OpPort.eSrc, .eDst, .eNest, .eLen, .eAux][n - 0x240]?.map .op
  else if n = 0x2A0 then some (.op .tntO)
  else if n = 0x2C0 then some (.op .laD)
  else if n = 0x2C1 then some (.op .laC)
  else if n = 0x2C8 then some (.op .lbD)
  else if n = 0x2C9 then some (.op .lbC)
  else none

/-- The scalar triggers of `sa` from 0x081, of `sb` from 0x0A1 (R73). -/
def saTable : List (Guard → Src → Bool → Instr) :=
  [Instr.saAdd, Instr.saSub, Instr.saAnd, Instr.saOr, Instr.saXor, Instr.saAndn,
   Instr.saShl, Instr.saShr, Instr.saSar, Instr.saMin, Instr.saMax, Instr.saMinu,
   Instr.saMaxu, Instr.saMul, Instr.saMulh, Instr.saMulhu, Instr.saClz, Instr.saCtz,
   Instr.saPopc, Instr.saSext, Instr.saZext, Instr.saBfx]

/-- The steer compares, conditions 0 to 7 (R74). -/
def skTable : List (Guard → Src → Fin 12 → Instr) :=
  [Instr.skEq, Instr.skNe, Instr.skLt, Instr.skGe, Instr.skLtu, Instr.skGeu,
   Instr.skTst, Instr.skTstn]

/-- The sequencer triggers from 0x16C; `none` where an operand port stands (R75). -/
def seqTable : List (Option (Guard → Src → Instr)) :=
  [some Instr.seqBr, some Instr.seqBrn, some Instr.seqJmp, some Instr.seqCall, some Instr.seqRet, none,
   some Instr.seqLoop, some Instr.seqLbrk, some Instr.seqExit, some Instr.seqTrap, some Instr.seqWfe, some Instr.seqSev,
   some Instr.seqReti, none, some Instr.seqCsrr, some Instr.seqCsrw, some Instr.seqYield]

/-- The vector triggers from 0x188 (R76). Part 0. -/
def vuTable0 : List (Guard → Src → Instr) :=
  [Instr.vuAddF, Instr.vuSubF, Instr.vuMulF, Instr.vuFmaF, Instr.vuFmsF, Instr.vuMaxF,
   Instr.vuMinF, Instr.vuAbsF, Instr.vuCmpeqF, Instr.vuCmpltF, Instr.vuCmpleF, Instr.vuAddI,
   Instr.vuSubI, Instr.vuMulI, Instr.vuMaxI, Instr.vuMinI, Instr.vuMaxuI, Instr.vuMinuI,
   Instr.vuAnd, Instr.vuOr, Instr.vuXor, Instr.vuShl, Instr.vuShr, Instr.vuSar,
   Instr.vuCmpeqI, Instr.vuCmpltI, Instr.vuCmpltuI]

/-- The vector triggers from 0x188 (R76). Part 1. -/
def vuTable1 : List (Guard → Src → Instr) :=
  [Instr.vuDot4, Instr.vuExp2, Instr.vuRcp, Instr.vuRsqrt, Instr.vuRedaddF, Instr.vuRedmaxF,
   Instr.vuRedaddI, Instr.vuRedmaxI, Instr.vuRedminI, Instr.vuScanI, Instr.vuPerm, Instr.vuRot,
   Instr.vuBcast, Instr.vuSel, Instr.vuCompress, Instr.vuExpand, Instr.vuIota, Instr.vuCvtFI,
   Instr.vuCvtIF, Instr.vuCvtIFZ, Instr.vuInsE40, Instr.vuInsE41, Instr.vuInsE42, Instr.vuInsE43,
   Instr.vuInsQ80, Instr.vuInsQ81, Instr.vuInsQ82]

/-- The vector triggers from 0x188 (R76). Part 2. -/
def vuTable2 : List (Guard → Src → Instr) :=
  [Instr.vuInsQ83, Instr.vuInsQ4x0, Instr.vuInsQ4x1, Instr.vuInsQ4x2, Instr.vuInsQ4x3, Instr.vuInsH0,
   Instr.vuInsH1, Instr.vuExtE40, Instr.vuExtE41, Instr.vuExtE42, Instr.vuExtE43, Instr.vuExtQ80,
   Instr.vuExtQ81, Instr.vuExtQ82, Instr.vuExtQ83, Instr.vuExtQ4x0, Instr.vuExtQ4x1, Instr.vuExtQ4x2,
   Instr.vuExtQ4x3, Instr.vuExtQ4x4, Instr.vuExtQ4x5, Instr.vuExtQ4x6, Instr.vuExtQ4x7, Instr.vuExtH0,
   Instr.vuExtH1, Instr.vuSpush, Instr.vuSpop]

/-- The vector triggers from 0x188 (R76). -/
def vuTable : List (Guard → Src → Instr) := vuTable0 ++ vuTable1 ++ vuTable2

/-- The anvil triggers from 0x210 (R77). -/
def anvTable : List (Guard → Src → Instr) :=
  [Instr.anvLdw, Instr.anvSwap, Instr.anvRun, Instr.anvRunz, Instr.anvRunv, Instr.anvMpb,
   Instr.anvRd, Instr.anvWr, Instr.anvClr, Instr.anvProg]

/-- The engine triggers from 0x250 (R78). -/
def engTable : List (Guard → Src → Instr) :=
  [Instr.engCopy, Instr.engCopyMc, Instr.engSmap, Instr.engSinv, Instr.engSwb, Instr.engGather,
   Instr.engScatter, Instr.engTopk, Instr.engSgemv, Instr.engSattn, Instr.engSred, Instr.engCallred,
   Instr.engCbcast, Instr.engCreduce, Instr.engKvapp, Instr.engKvcomp, Instr.engPxlook, Instr.engPxins,
   Instr.engPxrel, Instr.engQfence, Instr.engQwait, Instr.engQpoll]

/-- The taint triggers from 0x2A1 (R79). -/
def tntTable : List (Guard → Src → Instr) :=
  [Instr.tntClr, Instr.tntJoin, Instr.tntPclr, Instr.tntNext, Instr.tntOf]

/-- The barrier triggers from 0x2B0 (R79). -/
def barTable : List (Guard → Src → Instr) :=
  [Instr.barArrive, Instr.barWait, Instr.barSync, Instr.barDrain]

/-- The trigger of a destination code, if it is a trigger port (R72). -/
def decodeTrigger (n : Nat) (g : Guard) (s : Src) : Option Instr :=
  if n < 0x81 then none
  else if n < 0x97 then saTable[n - 0x81]?.map (fun f => f g s false)
  else if n < 0xA1 then none
  else if n < 0xB7 then saTable[n - 0xA1]?.map (fun f => f g s true)
  else if n < 0x100 then none
  else if h : (n - 0x100) / 8 < 12 then skTable[n % 8]?.map (fun f => f g s ⟨(n - 0x100) / 8, h⟩)
  else if h : n - 0x160 < 12 then some (.skPrep g s ⟨n - 0x160, h⟩)
  else if n < 0x17D then (seqTable[n - 0x16C]?.join).map (fun f => f g s)
  else if n < 0x188 then none
  else if n < 0x1D9 then vuTable[n - 0x188]?.map (fun f => f g s)
  else if n < 0x210 then none
  else if n < 0x21A then anvTable[n - 0x210]?.map (fun f => f g s)
  else if n < 0x250 then none
  else if n < 0x266 then engTable[n - 0x250]?.map (fun f => f g s)
  else if n < 0x280 then none
  else if h : n - 0x280 < 16 then some (.xlHk g s ⟨n - 0x280, h⟩)
  else if n = 0x290 then some (.xlDrop g s)
  else if n < 0x2A1 then none
  else if n < 0x2A6 then tntTable[n - 0x2A1]?.map (fun f => f g s)
  else if n < 0x2B0 then none
  else if n < 0x2B4 then barTable[n - 0x2B0]?.map (fun f => f g s)
  else none

/-- The instruction of a move slot from its guard, source and destination code (R48, R51, R72). -/
def decodeMoveFields (g s d : Nat) : SlotDec :=
  match decodeSrc s with
  | none => .bad 2 s 0
  | some src =>
    if g = 14 then
      match decodeDst d, decodeTrigger d .always src with
      | none, none => .bad 2 d 0
      | _, _ => .op (.maskedVectorWrite src (BitVec.ofNat 10 d))
    else
      match decodeDst d with
      | some dst => .op (.mov (decodeGuard g) src dst)
      | none =>
        match decodeTrigger d (decodeGuard g) src with
        | some i => .op i
        | none => .bad 2 d 0

/-- A move slot (R48, R49). -/
def decodeMove (w : Nat) : SlotDec :=
  let g := w / 2 ^ 20 % 16
  if g = 15 then (if w % 2 ^ 20 = 0 then .empty else .bad 1 0 0)
  else decodeMoveFields g (w / 2 ^ 10 % 2 ^ 10) (w % 2 ^ 10)

/-- The near loads and stores, AOP 0 to 11 (R81). -/
def nearTable : List (Guard → Fin 16 → Bool → BitVec 6 → Instr) :=
  [Instr.ldnB, Instr.ldnH, Instr.ldnW, Instr.ldnD, Instr.ldnV, Instr.ldnT,
   Instr.stnB, Instr.stnH, Instr.stnW, Instr.stnD, Instr.stnV, Instr.stnT]

/-- The gather and the scatter, AOP 22 and 23 (R81). -/
def gatherTable : List (Guard → Fin 16 → Bool → BitVec 6 → Instr) :=
  [.ldnGv, .stnSv]

/-- The far loads and stores, AOP 12 to 17 (R81). -/
def farTable : List (Guard → Fin 16 → Fin 16 → Bool → BitVec 2 → Instr) :=
  [Instr.ldfW, Instr.ldfD, Instr.ldfV, Instr.stfW, Instr.stfD, Instr.stfV]

/-- The atomic functions 0 to 9 of AOP 18 (R53). -/
def atomTable : List (Guard → Fin 16 → Fin 16 → BitVec 3 → Instr) :=
  [Instr.atomAdd, Instr.atomAnd, Instr.atomOr, Instr.atomXor, Instr.atomMin, Instr.atomMax,
   Instr.atomMinu, Instr.atomMaxu, Instr.atomXchg, Instr.atomCas]

/-- The instruction of an address slot from its guard, AOP, AREG, HREG and IMM7 (R52, R53). -/
def decodeAddrFields (g aop : Nat) (a h : Fin 16) (imm : Nat) : SlotDec :=
  let gd := decodeGuard g
  let u := imm.testBit 6
  if g = 13 then .bad 1 aop h.val
  else if aop < 12 ∨ aop = 22 ∨ aop = 23 then
    if h.val ≠ 0 then .bad 5 aop h.val
    else
      match (if aop < 12 then nearTable[aop]? else gatherTable[aop - 22]?) with
      | some f => .op (f gd a u (BitVec.ofNat 6 imm))
      | none => .bad 1 aop h.val
  else if aop < 18 then
    if imm % 16 ≠ 0 then .bad 1 aop h.val
    else
      match farTable[aop - 12]? with
      | some f => .op (f gd a h u (BitVec.ofNat 2 (imm / 16)))
      | none => .bad 1 aop h.val
  else if aop = 18 then
    match atomTable[imm / 8]? with
    | some f => .op (f gd a h (BitVec.ofNat 3 imm))
    | none => .bad 5 aop h.val
  else if aop = 19 then
    if imm = 64 ∧ h.val = 0 then .op (.aupd gd a) else .bad 1 aop h.val
  else if aop = 20 then
    if h.val = 0 then .op (.aadd gd a (BitVec.ofNat 7 imm)) else .bad 1 aop h.val
  else if aop = 21 then
    if imm % 16 ≠ 0 then .bad 1 aop h.val else .op (.pf gd a h u (BitVec.ofNat 2 (imm / 16)))
  else .bad 1 aop h.val

/-- An address slot (R49, R52). -/
def decodeAddr (w : Nat) : SlotDec :=
  let g := w / 2 ^ 20 % 16
  if g = 15 then (if w % 2 ^ 20 = 0 then .empty else .bad 1 0 0)
  else decodeAddrFields g (w / 2 ^ 15 % 32) (Fin.ofNat 16 (w / 2 ^ 11)) (Fin.ofNat 16 (w / 2 ^ 7)) (w % 128)

/-- Slot `k` of a bundle, `w` its 24 bits: slots 0 to 5 move slots, 6 and 7 address slots (R45). -/
def decodeSlot (k w : Nat) : SlotDec := if k < 6 then decodeMove w else decodeAddr w

/-- The fields of a bundle (R45, R46). -/
def bundleHeader (b : BitVec 256) : Nat := b.toNat % 2 ^ 16
def bundleStall (b : BitVec 256) : Nat := bundleHeader b / 2 ^ 12
def bundleCk (b : BitVec 256) : Bool := (bundleHeader b).testBit 11
def bundleSp (b : BitVec 256) : Bool := (bundleHeader b).testBit 10
def bundleSlot (b : BitVec 256) (k : Nat) : Nat := b.toNat / 2 ^ (16 + 24 * k) % 2 ^ 24
def bundleLit (b : BitVec 256) (k : Nat) : Nat := b.toNat / 2 ^ (208 + 16 * k) % 2 ^ 16

/-- Whether the header's reserved bits are zero (R46). -/
def headerOk (b : BitVec 256) : Bool := decide (bundleHeader b % 2 ^ 10 = 0)

/-- A bundle with header 0, the given 24-bit word in slot `k`, the other slots empty and zero literals. -/
def loneBundle (k w : Nat) : BitVec 256 :=
  BitVec.ofNat 256 ((range' 0 8).foldl (fun acc j => acc + (if j = k then w % 2 ^ 24 else 0xF00000) * 2 ^ (16 + 24 * j)) 0)

/-- The instruction a 24-bit word stands for where its slot is not given: a trigger or a masked vector write, else an address
operation, else a plain move. -/
def decodeWord (w : Nat) : Option Instr :=
  match decodeMove w with
  | .op (.mov g s d) =>
    match decodeAddr w with
    | .op i => some i
    | _ => some (.mov g s d)
  | .op i => some i
  | _ =>
    match decodeAddr w with
    | .op i => some i
    | _ => none

/-- The instruction of a word of the opcode table; the table gives every slot operation 24 bits and the events none. -/
def decodeTableWord (nbits w : Nat) : Option Instr :=
  if nbits = 24 then decodeWord (w % 2 ^ 24) else none

/-! The encoder, from the same tables. -/

/-- The code of a guard (R49). -/
def guardCode : Guard → Nat
  | .always => 0
  | .steer k => k.val + 1
  | .last => 13
  | .mask => 14

/-- The source code of a result port (R80). -/
def portSrcCode : PortId → Nat
  | .saR => 0x90 | .sbR => 0x91 | .seqR => 0x92 | .vuR => 0x99 | .vuSr => 0x9A | .vuMr => 0x9B | .anvR => 0x9C
  | .engR => 0x9D | .tntR => 0x9E | .laR => 0x9F | .lbR => 0xA0 | .xlR => 0xA1 | .barR => 0xA2

/-- The code of a source (R80). -/
def srcCode : Src → Nat
  | .g i => i.val
  | .v i => 0x20 + i.val
  | .p i => 0x40 + i.val
  | .s i => 0x48 + i.val
  | .a i => 0x60 + i.val
  | .m i => 0x70 + i.val
  | .h i => 0x80 + i.val
  | .res r => portSrcCode r
  | .loopIx d => 0x93 + d.val
  | .imm n => if n.toNat < 0x100 then 0x200 + n.toNat else n.toNat
  | .l0 => 0x3F0 | .l1 => 0x3F1 | .l2 => 0x3F2 | .l01 => 0x3F4 | .l12 => 0x3F5 | .l012 => 0x3F6

/-- The destination code of an operand port (R72). -/
def opPortCode : OpPort → Nat
  | .saO => 0x80 | .sbO => 0xA0 | .cmpO => 0xC0 | .seqLo => 0x171 | .seqCsel => 0x179 | .vuA => 0x180 | .vuB => 0x181
  | .vuK => 0x182 | .anvX => 0x200 | .anvW => 0x201 | .anvAcc => 0x202 | .anvN => 0x203 | .anvF => 0x204 | .anvS => 0x205
  | .eSrc => 0x240 | .eDst => 0x241 | .eNest => 0x242 | .eLen => 0x243 | .eAux => 0x244 | .tntO => 0x2A0 | .laD => 0x2C0
  | .laC => 0x2C1 | .lbD => 0x2C8 | .lbC => 0x2C9

/-- The code of a register or operand port (R72). -/
def dstCode : Dst → Nat
  | .g i => i.val
  | .v i => 0x20 + i.val
  | .p i => 0x40 + i.val
  | .a i => 0x50 + i.val
  | .m i => 0x60 + i.val
  | .op o => opPortCode o

/-- The fields of a slot's word. -/
inductive SlotEnc where
  | move (g s d : Nat)
  | addr (g aop a h imm : Nat)
  /-- An event of the module has no encoding. -/
  | none
  deriving DecidableEq, Repr

/-- A move slot's word (R48). -/
def packMove (g s d : Nat) : Nat := g * 2 ^ 20 + s * 2 ^ 10 + d

/-- An address slot's word (R52). -/
def packAddr (g aop a h imm : Nat) : Nat := g * 2 ^ 20 + aop * 2 ^ 15 + a * 2 ^ 11 + h * 2 ^ 7 + imm

/-- The fields of a slot's word as they stand, whether the encoding is legal or not (R48, R52). -/
def slotFields (k w : Nat) : SlotEnc :=
  if k < 6 then .move (w / 2 ^ 20 % 16) (w / 2 ^ 10 % 2 ^ 10) (w % 2 ^ 10)
  else .addr (w / 2 ^ 20 % 16) (w / 2 ^ 15 % 32) (w / 2 ^ 11 % 16) (w / 2 ^ 7 % 16) (w % 128)

/-- The guard code of a slot's fields, and their PORT and HREG details (R302). -/
def guardField : SlotEnc → Nat
  | .move g _ _ => g
  | .addr g _ _ _ _ => g
  | .none => 0

def portField : SlotEnc → Nat
  | .move _ _ d => d
  | .addr _ aop _ _ _ => aop
  | .none => 0

def hregField : SlotEnc → Nat
  | .addr _ _ _ h _ => h
  | _ => 0

/-- A trigger's fields. -/
def encTrig (g : Guard) (s : Src) (d : Nat) : SlotEnc := .move (guardCode g) (srcCode s) d

/-- The U bit of IMM7 (R53). -/
def uBit (u : Bool) : Nat := if u then 64 else 0

/-- A near operation's fields (R53). -/
def encNear (g : Guard) (aop : Nat) (a : Fin 16) (u : Bool) (o : BitVec 6) : SlotEnc :=
  .addr (guardCode g) aop a.val 0 (uBit u + o.toNat)

/-- A far operation's fields (R53). -/
def encFar (g : Guard) (aop : Nat) (a k : Fin 16) (u : Bool) (l : BitVec 2) : SlotEnc :=
  .addr (guardCode g) aop a.val k.val (uBit u + 16 * l.toNat)

/-- An atomic's fields (R53). -/
def encAtom (g : Guard) (fn : Nat) (a k : Fin 16) (c : BitVec 3) : SlotEnc :=
  .addr (guardCode g) 18 a.val k.val (8 * fn + c.toNat)

/-- The fields of an instruction's word (R72 to R81). -/
def encFields : Instr → SlotEnc
  | .mov g s d => .move (guardCode g) (srcCode s) (dstCode d)
  | .maskedVectorWrite s d => .move 14 (srcCode s) d.toNat
  | .saAdd g s b => encTrig g s (if b then 0xA1 else 0x81)
  | .saSub g s b => encTrig g s (if b then 0xA2 else 0x82)
  | .saAnd g s b => encTrig g s (if b then 0xA3 else 0x83)
  | .saOr g s b => encTrig g s (if b then 0xA4 else 0x84)
  | .saXor g s b => encTrig g s (if b then 0xA5 else 0x85)
  | .saAndn g s b => encTrig g s (if b then 0xA6 else 0x86)
  | .saShl g s b => encTrig g s (if b then 0xA7 else 0x87)
  | .saShr g s b => encTrig g s (if b then 0xA8 else 0x88)
  | .saSar g s b => encTrig g s (if b then 0xA9 else 0x89)
  | .saMin g s b => encTrig g s (if b then 0xAA else 0x8A)
  | .saMax g s b => encTrig g s (if b then 0xAB else 0x8B)
  | .saMinu g s b => encTrig g s (if b then 0xAC else 0x8C)
  | .saMaxu g s b => encTrig g s (if b then 0xAD else 0x8D)
  | .saMul g s b => encTrig g s (if b then 0xAE else 0x8E)
  | .saMulh g s b => encTrig g s (if b then 0xAF else 0x8F)
  | .saMulhu g s b => encTrig g s (if b then 0xB0 else 0x90)
  | .saClz g s b => encTrig g s (if b then 0xB1 else 0x91)
  | .saCtz g s b => encTrig g s (if b then 0xB2 else 0x92)
  | .saPopc g s b => encTrig g s (if b then 0xB3 else 0x93)
  | .saSext g s b => encTrig g s (if b then 0xB4 else 0x94)
  | .saZext g s b => encTrig g s (if b then 0xB5 else 0x95)
  | .saBfx g s b => encTrig g s (if b then 0xB6 else 0x96)
  | .skEq g s k => encTrig g s (0x100 + 8 * k.val)
  | .skNe g s k => encTrig g s (0x101 + 8 * k.val)
  | .skLt g s k => encTrig g s (0x102 + 8 * k.val)
  | .skGe g s k => encTrig g s (0x103 + 8 * k.val)
  | .skLtu g s k => encTrig g s (0x104 + 8 * k.val)
  | .skGeu g s k => encTrig g s (0x105 + 8 * k.val)
  | .skTst g s k => encTrig g s (0x106 + 8 * k.val)
  | .skTstn g s k => encTrig g s (0x107 + 8 * k.val)
  | .skPrep g s k => encTrig g s (0x160 + k.val)
  | .seqBr g s => encTrig g s 0x16C
  | .seqBrn g s => encTrig g s 0x16D
  | .seqJmp g s => encTrig g s 0x16E
  | .seqCall g s => encTrig g s 0x16F
  | .seqRet g s => encTrig g s 0x170
  | .seqLoop g s => encTrig g s 0x172
  | .seqLbrk g s => encTrig g s 0x173
  | .seqExit g s => encTrig g s 0x174
  | .seqTrap g s => encTrig g s 0x175
  | .seqWfe g s => encTrig g s 0x176
  | .seqSev g s => encTrig g s 0x177
  | .seqReti g s => encTrig g s 0x178
  | .seqCsrr g s => encTrig g s 0x17A
  | .seqCsrw g s => encTrig g s 0x17B
  | .seqYield g s => encTrig g s 0x17C
  | .vuAddF g s => encTrig g s 0x188
  | .vuSubF g s => encTrig g s 0x189
  | .vuMulF g s => encTrig g s 0x18A
  | .vuFmaF g s => encTrig g s 0x18B
  | .vuFmsF g s => encTrig g s 0x18C
  | .vuMaxF g s => encTrig g s 0x18D
  | .vuMinF g s => encTrig g s 0x18E
  | .vuAbsF g s => encTrig g s 0x18F
  | .vuCmpeqF g s => encTrig g s 0x190
  | .vuCmpltF g s => encTrig g s 0x191
  | .vuCmpleF g s => encTrig g s 0x192
  | .vuAddI g s => encTrig g s 0x193
  | .vuSubI g s => encTrig g s 0x194
  | .vuMulI g s => encTrig g s 0x195
  | .vuMaxI g s => encTrig g s 0x196
  | .vuMinI g s => encTrig g s 0x197
  | .vuMaxuI g s => encTrig g s 0x198
  | .vuMinuI g s => encTrig g s 0x199
  | .vuAnd g s => encTrig g s 0x19A
  | .vuOr g s => encTrig g s 0x19B
  | .vuXor g s => encTrig g s 0x19C
  | .vuShl g s => encTrig g s 0x19D
  | .vuShr g s => encTrig g s 0x19E
  | .vuSar g s => encTrig g s 0x19F
  | .vuCmpeqI g s => encTrig g s 0x1A0
  | .vuCmpltI g s => encTrig g s 0x1A1
  | .vuCmpltuI g s => encTrig g s 0x1A2
  | .vuDot4 g s => encTrig g s 0x1A3
  | .vuExp2 g s => encTrig g s 0x1A4
  | .vuRcp g s => encTrig g s 0x1A5
  | .vuRsqrt g s => encTrig g s 0x1A6
  | .vuRedaddF g s => encTrig g s 0x1A7
  | .vuRedmaxF g s => encTrig g s 0x1A8
  | .vuRedaddI g s => encTrig g s 0x1A9
  | .vuRedmaxI g s => encTrig g s 0x1AA
  | .vuRedminI g s => encTrig g s 0x1AB
  | .vuScanI g s => encTrig g s 0x1AC
  | .vuPerm g s => encTrig g s 0x1AD
  | .vuRot g s => encTrig g s 0x1AE
  | .vuBcast g s => encTrig g s 0x1AF
  | .vuSel g s => encTrig g s 0x1B0
  | .vuCompress g s => encTrig g s 0x1B1
  | .vuExpand g s => encTrig g s 0x1B2
  | .vuIota g s => encTrig g s 0x1B3
  | .vuCvtFI g s => encTrig g s 0x1B4
  | .vuCvtIF g s => encTrig g s 0x1B5
  | .vuCvtIFZ g s => encTrig g s 0x1B6
  | .vuInsE40 g s => encTrig g s 0x1B7
  | .vuInsE41 g s => encTrig g s 0x1B8
  | .vuInsE42 g s => encTrig g s 0x1B9
  | .vuInsE43 g s => encTrig g s 0x1BA
  | .vuInsQ80 g s => encTrig g s 0x1BB
  | .vuInsQ81 g s => encTrig g s 0x1BC
  | .vuInsQ82 g s => encTrig g s 0x1BD
  | .vuInsQ83 g s => encTrig g s 0x1BE
  | .vuInsQ4x0 g s => encTrig g s 0x1BF
  | .vuInsQ4x1 g s => encTrig g s 0x1C0
  | .vuInsQ4x2 g s => encTrig g s 0x1C1
  | .vuInsQ4x3 g s => encTrig g s 0x1C2
  | .vuInsH0 g s => encTrig g s 0x1C3
  | .vuInsH1 g s => encTrig g s 0x1C4
  | .vuExtE40 g s => encTrig g s 0x1C5
  | .vuExtE41 g s => encTrig g s 0x1C6
  | .vuExtE42 g s => encTrig g s 0x1C7
  | .vuExtE43 g s => encTrig g s 0x1C8
  | .vuExtQ80 g s => encTrig g s 0x1C9
  | .vuExtQ81 g s => encTrig g s 0x1CA
  | .vuExtQ82 g s => encTrig g s 0x1CB
  | .vuExtQ83 g s => encTrig g s 0x1CC
  | .vuExtQ4x0 g s => encTrig g s 0x1CD
  | .vuExtQ4x1 g s => encTrig g s 0x1CE
  | .vuExtQ4x2 g s => encTrig g s 0x1CF
  | .vuExtQ4x3 g s => encTrig g s 0x1D0
  | .vuExtQ4x4 g s => encTrig g s 0x1D1
  | .vuExtQ4x5 g s => encTrig g s 0x1D2
  | .vuExtQ4x6 g s => encTrig g s 0x1D3
  | .vuExtQ4x7 g s => encTrig g s 0x1D4
  | .vuExtH0 g s => encTrig g s 0x1D5
  | .vuExtH1 g s => encTrig g s 0x1D6
  | .vuSpush g s => encTrig g s 0x1D7
  | .vuSpop g s => encTrig g s 0x1D8
  | .anvLdw g s => encTrig g s 0x210
  | .anvSwap g s => encTrig g s 0x211
  | .anvRun g s => encTrig g s 0x212
  | .anvRunz g s => encTrig g s 0x213
  | .anvRunv g s => encTrig g s 0x214
  | .anvMpb g s => encTrig g s 0x215
  | .anvRd g s => encTrig g s 0x216
  | .anvWr g s => encTrig g s 0x217
  | .anvClr g s => encTrig g s 0x218
  | .anvProg g s => encTrig g s 0x219
  | .engCopy g s => encTrig g s 0x250
  | .engCopyMc g s => encTrig g s 0x251
  | .engSmap g s => encTrig g s 0x252
  | .engSinv g s => encTrig g s 0x253
  | .engSwb g s => encTrig g s 0x254
  | .engGather g s => encTrig g s 0x255
  | .engScatter g s => encTrig g s 0x256
  | .engTopk g s => encTrig g s 0x257
  | .engSgemv g s => encTrig g s 0x258
  | .engSattn g s => encTrig g s 0x259
  | .engSred g s => encTrig g s 0x25A
  | .engCallred g s => encTrig g s 0x25B
  | .engCbcast g s => encTrig g s 0x25C
  | .engCreduce g s => encTrig g s 0x25D
  | .engKvapp g s => encTrig g s 0x25E
  | .engKvcomp g s => encTrig g s 0x25F
  | .engPxlook g s => encTrig g s 0x260
  | .engPxins g s => encTrig g s 0x261
  | .engPxrel g s => encTrig g s 0x262
  | .engQfence g s => encTrig g s 0x263
  | .engQwait g s => encTrig g s 0x264
  | .engQpoll g s => encTrig g s 0x265
  | .xlHk g s k => encTrig g s (0x280 + k.val)
  | .xlDrop g s => encTrig g s 0x290
  | .tntClr g s => encTrig g s 0x2A1
  | .tntJoin g s => encTrig g s 0x2A2
  | .tntPclr g s => encTrig g s 0x2A3
  | .tntNext g s => encTrig g s 0x2A4
  | .tntOf g s => encTrig g s 0x2A5
  | .barArrive g s => encTrig g s 0x2B0
  | .barWait g s => encTrig g s 0x2B1
  | .barSync g s => encTrig g s 0x2B2
  | .barDrain g s => encTrig g s 0x2B3
  | .ldnB g a u o => encNear g 0 a u o
  | .ldnH g a u o => encNear g 1 a u o
  | .ldnW g a u o => encNear g 2 a u o
  | .ldnD g a u o => encNear g 3 a u o
  | .ldnV g a u o => encNear g 4 a u o
  | .ldnT g a u o => encNear g 5 a u o
  | .stnB g a u o => encNear g 6 a u o
  | .stnH g a u o => encNear g 7 a u o
  | .stnW g a u o => encNear g 8 a u o
  | .stnD g a u o => encNear g 9 a u o
  | .stnV g a u o => encNear g 10 a u o
  | .stnT g a u o => encNear g 11 a u o
  | .ldfW g a k u l => encFar g 12 a k u l
  | .ldfD g a k u l => encFar g 13 a k u l
  | .ldfV g a k u l => encFar g 14 a k u l
  | .stfW g a k u l => encFar g 15 a k u l
  | .stfD g a k u l => encFar g 16 a k u l
  | .stfV g a k u l => encFar g 17 a k u l
  | .atomAdd g a k c => encAtom g 0 a k c
  | .atomAnd g a k c => encAtom g 1 a k c
  | .atomOr g a k c => encAtom g 2 a k c
  | .atomXor g a k c => encAtom g 3 a k c
  | .atomMin g a k c => encAtom g 4 a k c
  | .atomMax g a k c => encAtom g 5 a k c
  | .atomMinu g a k c => encAtom g 6 a k c
  | .atomMaxu g a k c => encAtom g 7 a k c
  | .atomXchg g a k c => encAtom g 8 a k c
  | .atomCas g a k c => encAtom g 9 a k c
  | .aupd g a => .addr (guardCode g) 19 a.val 0 64
  | .aadd g a n => .addr (guardCode g) 20 a.val 0 n.toNat
  | .pf g a k u l => encFar g 21 a k u l
  | .ldnGv g a u o => encNear g 22 a u o
  | .stnSv g a u o => encNear g 23 a u o
  | .checkpoint _ => .none
  | .anvilOperationStart _ => .none
  | .engineCommandStart _ _ => .none
  | .engineCommandCompletion _ _ => .none
  | .engineCompletionEvent _ => .none
  | .resultDelivery _ => .none
  | .farLoadPerform _ _ => .none
  | .farStorePerform _ _ => .none
  | .forcedCommit _ => .none
  | .tcolAdvance _ => .none
  | .barrierRelease _ => .none
  | .freezeWatchdogExpiry _ => .none
  | .waitWatchdogExpiry _ => .none
  | .preemptionStop _ => .none
  | .preemptionTimeout _ => .none
  | .gangResume _ => .none
  | .gangCompletion _ => .none
  | .placement _ => .none
  | .launchStart _ => .none
  | .reply _ => .none
  | .replyHoldExpiry _ => .none
  | .podTransferResend _ => .none
  | .sendRingDoorbell _ => .none
  | .sendTimeout _ _ => .none
  | .invalidateCompletion _ _ => .none
  | .promotionComplete _ => .none
  | .forcedKeyFlip _ _ => .none
  | .droopRecovery _ => .none
  | .bucketWindowStart _ => .none
  | .requestAgeing _ => .none
  | .quadPowerGate _ => .none
  | .invoke _ _ => .none
  | .managementFrame _ _ => .none
  | .pload _ => .none
  | .pstore _ => .none
  | .patom _ => .none
  | .preply _ => .none
  | .pcoll _ => .none
  | .sentInvokeReply _ => .none
  | .microContextWrite _ _ _ _ _ _ => .none
  | .podGroupWrite _ _ _ => .none
  | .sessionInstall _ _ _ _ _ _ => .none
  | .segmentSubmission _ _ => .none
  | .assayRequest _ _ _ _ => .none
  | .lockInterface _ => .none
  | .forceInterfaceError _ => .none
  | .hostRegisterWrite _ _ _ => .none
  | .atsInvalidateRequest _ _ => .none
  | .frameMigration _ _ => .none
  | .ladlePageFill _ _ _ => .none
  | .rekey _ _ => .none
  | .burnisherCheck _ _ => .none
  | .governorReading _ => .none
  | .droopDetection _ => .none
  | .detectedError _ _ => .none
  | .flrVirtualFunction _ => .none
  | .perst => .none
  | .moduleReset => .none
  | .boot _ => .none
  | .thermalTrip => .none
  | .linkLoss _ => .none
  | .linkUp _ => .none
  | .ucieLinkFailure _ => .none
  | .hostDma _ _ _ => .none
  | .atsTranslationCompletion _ _ _ => .none
  | .perstNRising => .none
  | .telemetryAlertRead => .none
  | .startInterface _ => .none
  | .stopInterface _ => .none

/-- The word of a slot's fields; an event has none. -/
def packSlot : SlotEnc → Option Nat
  | .move g s d => some (packMove g s d)
  | .addr g aop a h imm => some (packAddr g aop a h imm)
  | .none => none

/-- The 24-bit word of a slot operation; an event has none. -/
def encode (i : Instr) : Option Nat := packSlot (encFields i)

/-- Whether the instruction stands in an address slot (R52). -/
def isAddr (i : Instr) : Bool :=
  match encFields i with
  | .addr _ _ _ _ _ => true
  | _ => false

/-- The PORT detail of R302 for an instruction: its DST code, or its AOP. -/
def portDetail (i : Instr) : Nat := portField (encFields i)

/-- The HREG detail of R302 for an instruction. -/
def hregDetail (i : Instr) : Nat := hregField (encFields i)

/-- The fault of an instruction that decodes but is not well formed (R49, R51, R53), by its cause code. -/
def encodingFault (i : Instr) : Option Nat := if wellFormed i then none else some 5

end Sys2Proof
end

