-- ==== Sys2Proof/Config.lean ====
section
/-! DEFINITION. What the module leaves to the implementation, and the free values: opaque constants, so that nothing can be
proved of a value the spec leaves open. They are applied to the counter `freeCtr` of State or to the operands. -/

namespace Sys2Proof.Config

/-- An unpredictable vector or scalar value (R8, R59). -/
opaque freeVec : Nat → BitVec 2048
/-- An unpredictable 64-bit value (R8, R90). -/
opaque freeWord : Nat → BitVec 64
/-- An unpredictable byte (R8, R260). -/
opaque freeByte : Nat → BitVec 8
/-- An unpredictable choice between two outcomes (R152). -/
opaque freeBool : Nat → Bool
/-- An unpredictable bundle address, `uepc` after a fatal cause (R301). -/
opaque freeAddr : Nat → BitVec 13

/-- KMAC256 (SP 800-185) of R318, R327, R330, R331: key, data, customisation string; 256-bit output. -/
opaque kmac256 : BitVec 256 → List (BitVec 8) → List (BitVec 8) → BitVec 256
/-- SHAKE256 with 256-bit output (R325, R327, R331, R340). -/
opaque shake256 : List (BitVec 8) → BitVec 256
/-- AES-256-XTS of a 64-byte line: the two keys and the tweak (R321); a bijection of the line. -/
opaque xtsAes : BitVec 256 → BitVec 256 → BitVec 40 → (BitVec 512 ≃ BitVec 512)
/-- GMAC with AES-256: key, 96-bit nonce, the authenticated bytes; the whole tag (R321). -/
opaque gmac : BitVec 256 → BitVec 96 → BitVec 512 → BitVec 128
/-- One block of AES-256 (R326). -/
opaque aesBlock : BitVec 256 → BitVec 128 → BitVec 128
/-- The XMSS signature of a session key and index over a body, 2,692 bytes (R329, R330). -/
opaque xmssSign : Nat → Nat → List (BitVec 8) → BitVec 21536
/-- The public key of the session key that the n-th long-term signature certifies (R329). -/
opaque sessionPublic : Nat → List (BitVec 8)
/-- The long-term key's XMSS signature with an index over a body (R329). -/
opaque longTermSign : Nat → List (BitVec 8) → List (BitVec 8)
/-- AES-256-GCM of a body: key, 96-bit nonce, additional data, body; ciphertext and tag (R338). -/
opaque gcmSeal : BitVec 256 → BitVec 96 → List (BitVec 8) → List (BitVec 8) → List (BitVec 8)
/-- Key drawn by the module itself: the session key of the device at a boot (R329). -/
opaque deviceKey : Nat → BitVec 256
/-- The device secret behind segment keys (R327). -/
opaque deviceSecret : BitVec 256
/-- The firmware measurement of the boot image used, A (true) or B (R356). -/
opaque firmwareMeasurement : Bool → BitVec 256

end Sys2Proof.Config
end

