-- ==== Sys2Proof/Machine/Sparse.lean ====
section
/-! DEFINITION. Sparse data by key: lists of key and value pairs in one canonical form, with strictly rising keys. Memories
list no entry equal to what an unlisted key reads as. -/

namespace Sys2Proof

/-- The value at a key; an unlisted key reads as `d`. -/
def alGet {α : Type} (d : α) : List (Nat × α) → Nat → α
  | [], _ => d
  | (k, v) :: t, n => if k = n then v else alGet d t n

/-- Sets the value at a key, keeping the keys rising. -/
def alPut {α : Type} : List (Nat × α) → Nat → α → List (Nat × α)
  | [], n, x => [(n, x)]
  | (k, v) :: t, n, x =>
    if n < k then (n, x) :: (k, v) :: t
    else if n = k then (n, x) :: t
    else (k, v) :: alPut t n x

/-- Removes a key. -/
def alDel {α : Type} : List (Nat × α) → Nat → List (Nat × α)
  | [], _ => []
  | (k, v) :: t, n => if n < k then (k, v) :: t else if n = k then t else (k, v) :: alDel t n

/-- Sets the value at a key of a map in canonical form: writing the default removes the entry. -/
def alSet {α : Type} [DecidableEq α] (d : α) (l : List (Nat × α)) (n : Nat) (x : α) : List (Nat × α) :=
  if x = d then alDel l n else alPut l n x

/-- The keys rise strictly from above `lo` (`none`: no bound). -/
def alRising {α : Type} : Option Nat → List (Nat × α) → Bool
  | _, [] => true
  | none, (k, _) :: t => alRising (some k) t
  | some lo, (k, _) :: t => decide (lo < k) && alRising (some k) t

/-- No entry equals the default. -/
def alNoDefault {α : Type} [DecidableEq α] (d : α) (l : List (Nat × α)) : Bool := l.all (fun e => decide (e.2 ≠ d))

/-- The canonical form of a sparse map. -/
def alWf {α : Type} [DecidableEq α] (d : α) (l : List (Nat × α)) : Bool := alRising none l && alNoDefault d l

/-- A memory: bytes at addresses in canonical form; an unlisted address reads as zero (R219, R355). -/
abbrev Memory := List Host.Cell

/-- What an unlisted address reads as: memory is cleared by power loss and a new frame reads as zero (R219, R355). -/
def memDefault : Byte := 0#8

/-- The byte at an address. -/
def memRead (m : Memory) (a : Nat) : Byte := alGet memDefault m a

/-- The memory with one byte written. -/
def memWrite (m : Memory) (a : Nat) (b : Byte) : Memory := alSet memDefault m a b

/-- The canonical form of a memory. -/
def memWf (m : Memory) : Bool := alWf memDefault m

/-- `n` bytes from an address. -/
def memReadN (m : Memory) (a : Nat) : Nat → List Byte
  | 0 => []
  | n + 1 => memRead m a :: memReadN m (a + 1) n

/-- Bytes written from an address upwards. -/
def memWriteN (m : Memory) (a : Nat) : List Byte → Memory
  | [] => m
  | b :: bs => memWriteN (memWrite m a b) (a + 1) bs

/-- `n` bytes from an address as a little-endian number (R3). -/
def memReadNat (m : Memory) (a n : Nat) : Nat := leNat (memReadN m a n)

/-- `n` zero bytes from an address. -/
def memClear (m : Memory) (a n : Nat) : Memory := m.filter (fun e => decide (e.1 < a ∨ a + n ≤ e.1))

end Sys2Proof
end

