-- ==== Sys2Proof/Machine/CoreState.lean ====
section
/-! DEFINITION. The state of one core: registers, ports, sequencer, control registers, far accesses, anvil, engine queues,
checkpoint and journal (R24, R28, R59, R70, R91, R103, R144, R157, R213, R225, R229, R304, R308). -/

namespace Sys2Proof.Machine

/-- A scalar value with its taint set and poison bit (R85). -/
structure SVal where
  v : Word
  t : TSet
  p : Bool
  deriving DecidableEq, Repr

/-- A vector value with its taint set and poison bit (R122). A scalar stands in lanes 1:0, the other lanes zero (R108). -/
structure VVal where
  v : Vec
  t : TSet
  p : Bool
  deriving DecidableEq, Repr

/-- A value as a source yields it: scalar or vector (R71). -/
inductive Val where
  | sc (x : SVal)
  | vec (x : VVal)
  deriving DecidableEq, Repr

/-- A scalar register: value, taint, poison, dead (R50, R70). -/
structure SReg where
  v : Word
  t : TSet
  p : Bool
  dead : Bool
  deriving DecidableEq, Repr

/-- A vector register (R50, R70, R122). -/
structure VReg where
  v : Vec
  t : TSet
  p : Bool
  dead : Bool
  deriving DecidableEq, Repr

/-- A result port: its value and whether it is empty (R58, R59). -/
structure RPort where
  val : VVal
  empty : Bool
  deriving DecidableEq, Repr

/-- The preparation cycle of a steer register: never prepared, prepared in a cycle, or restored, which counts as four or
more cycles back (R91, R95). -/
inductive Prep where
  | never
  | inCycle (c : Nat)
  | long
  deriving DecidableEq, Repr

/-- A steer register (R91). -/
structure Steer where
  cond : Bool
  ct : TSet
  cp : Bool
  target : BAddr
  tt : TSet
  tp : Bool
  prep : Prep
  deriving DecidableEq, Repr

/-- A handle (R175, R213): whether it was ever made since entry, the page's virtual base, the frame's physical address, HOME
and PKG, writable, whether the page itself is read-only (its W is 0), stack-homed, VALID, REVOKED and its taint. -/
structure Handle where
  made : Bool
  base : BitVec 48
  frame : Nat
  home : BitVec 2
  pkg : BitVec 10
  wr : Bool
  pageRo : Bool
  sh : Bool
  valid : Bool
  revoked : Bool
  t : TSet
  deriving DecidableEq, Repr

/-- The register files (R70). -/
structure Regs where
  g : Vector SReg 32
  v : Vector VReg 32
  p : Vector SReg 8
  a : Vector SReg 16
  m : Vector SReg 16
  s : Vector Steer 12
  h : Vector Handle 16
  deriving DecidableEq, Repr

/-- A result in flight (R58): its port, the cycle it is due, its issue order, its value, and whether it belongs to a short
operation (R34). -/
structure Due where
  port : PortId
  at_ : Nat
  ord : Nat
  val : VVal
  short : Bool
  deriving DecidableEq, Repr

/-- A translation in flight (R79, R175); a page whose translation was not in place at issue is looked up again when the
handle is due (R212). One that `xl.drop` discarded is not live: its status still arrives (R176). -/
structure HDue where
  k : Fin 16
  va : Nat
  at_ : Nat
  ord : Nat
  hnd : Handle
  live : Bool
  deriving DecidableEq, Repr

/-- A loop entry (R97). -/
structure LoopEntry where
  start : BAddr
  stop : BAddr
  count : BitVec 32
  index : BitVec 32
  deriving DecidableEq, Repr

/-- A call-stack entry: the return address and the issue cycle of the call (R95, R96); a restored entry counts as `long`. -/
structure CallEntry where
  ret : BAddr
  at_ : Prep
  deriving DecidableEq, Repr

/-- A transfer chosen in phase 4 of a bundle, with what its cost depends on (R95). -/
inductive Xfer where
  /-- A taken `br` or `brn` through a steer register with this preparation cycle. -/
  | branch (target : BAddr) (prep : Prep)
  /-- `jmp` and `call`. -/
  | jump (target : BAddr)
  /-- `seq.reti`: at the end of its bundle the shadow bank becomes inactive (R306). -/
  | reti (target : BAddr)
  /-- `ret`, with the issue cycle of the matching call. -/
  | ret (target : BAddr) (call : Prep)
  /-- `seq.loop` with a count that is not 0: the next bundle is START, the fall-through. -/
  | opened (target : BAddr)
  /-- The next bundle chosen by R98 for a taken `lbrk` or a loop of count 0; out of range when it would be 8,192. -/
  | looped (target : Nat)
  deriving DecidableEq, Repr

/-- The wait a core is in (R31). -/
inductive Wait where
  /-- `bar.wait`, `bar.sync` after its arrival: until the phase is released; then the phase goes to `bar.r`. -/
  | release (x : ChanId) (phase : Nat)
  /-- An arrival that is blocked until counter `phase mod 2` is free (R42); `sync` says whether the release is awaited next. -/
  | blocked (x : ChanId) (phase : Nat) (sync : Bool)
  /-- `bar.drain` (R179). -/
  | drain
  /-- `seq.wfe` with its mask (R104). -/
  | wfe (mask : BitVec 16)
  /-- `eng.qwait` on a command (R170). -/
  | command (q : Fin 5) (seq : Nat)
  /-- `eng.qwait` on a fence (R170). -/
  | fence (seq : Nat)
  /-- Waits of several units in one bundle: until both conditions have held (R31, R56). -/
  | both (x y : Wait)
  deriving DecidableEq, Repr

/-- The shadow bank: g24 to g31, s10, s11 (R304). -/
structure Shadow where
  g : Vector SReg 8
  s : Vector Steer 2
  deriving DecidableEq, Repr

/-- The sequencer (R24, R61). -/
structure Sequencer where
  pc : BAddr
  /-- Address of the bundle that issued last (R95, R314). -/
  last : BAddr
  loops : List LoopEntry
  calls : List CallEntry
  /-- Empty cycles left of the last bundle (R61). -/
  stall : Nat
  /-- Fetch-shortfall periods left before the next bundle (R95). -/
  fetchWait : Nat
  /-- The transfer chosen by the bundle that is issuing. -/
  next : Option Xfer
  /-- The entry bundle has issued (R27). -/
  entered : Bool
  /-- Exit code of a `seq.exit` whose empty cycles run (R101). -/
  exiting : Option (BitVec 16)
  /-- Trap number of a `seq.trap` waiting for its boundary (R102). -/
  trapping : Option (BitVec 8)
  /-- The coming boundary is a safe point (R34), a checkpoint (R308). -/
  atSafe : Bool
  atCk : Bool
  wait : Option Wait
  /-- Loop and call depths at handler entry; `some` is the in-handler flag (R304). -/
  handler : Option (Nat × Nat)
  shadow : Shadow
  yielded : Bool
  deriving DecidableEq, Repr

/-- The counters and control registers of a core (R28, R82, R84). -/
structure Csrs where
  cyc : Nat
  frzMem : Nat
  frzPwr : Nat
  frzBr : Nat
  frzWait : Nat
  uiv : BAddr
  ucause : BitVec 64
  uepc : BAddr
  uinfo : BitVec 64
  uie : Bool
  sbchk : Bool
  acchw : BitVec 14
  ctx : BitVec 14
  world : Nat
  prio : BitVec 3
  deriving DecidableEq, Repr

/-- A place in far memory: the peer's `pkgid` or none for this module, and the local physical address (R208). -/
structure Loc where
  peer : Option Nat
  pa : Nat
  deriving DecidableEq, Repr

/-- A line of the store buffer (R225): the place of its 64 bytes, the bytes stored and their mask, the effective taint of its
stores (R230), the issue order of its first and last store, and the bundle cycles of all of them. -/
structure StoreLine where
  ident : Nat
  loc : Loc
  mask : BitVec 64
  data : BitVec 512
  e : TSet
  first : Nat
  last : Nat
  bundles : List Nat
  deriving DecidableEq, Repr

/-- The part of a far access that lies in one line: its identity, its place, and once performed the stamp, bytes and poison. -/
structure FarPart where
  ident : Nat
  loc : Loc
  len : Nat
  done : Option (Nat × List Byte × Bool)
  deriving DecidableEq, Repr

/-- What a far access in flight does. -/
inductive FarKind where
  | load
  | prefetch
  /-- An atomic: function 0 to 9 of R117, its operands d and c, and its scope. -/
  | atom (fn : Nat) (d c : Word) (scope : Nat)
  deriving DecidableEq, Repr

/-- A far load, prefetch or far atomic in flight (R115, R224). -/
structure FarOp where
  kind : FarKind
  port : PortId
  /-- Bytes loaded: 4, 8 or 256; 64 for a prefetch. -/
  size : Nat
  due : Nat
  ord : Nat
  /-- Effective taint (R230), taint of the result, colour. -/
  e : TSet
  taint : TSet
  colour : Fin 16
  /-- Poison of the operands the result depends on. -/
  poison : Bool
  parts : List FarPart
  /-- Bytes of the core's own unreleased stores over the line, captured at issue (R115): offset in the load and byte. -/
  overlay : List (Nat × Byte)
  /-- Store lines that perform before it (R224, R228). -/
  after : List Nat
  deriving DecidableEq, Repr

/-- What a near access does (R110 to R113, R117, R119). -/
inductive NearKind where
  /-- A load of the bytes at the listed addresses, 1, 2, 4 or 8 from one address, or 64 words. -/
  | load
  /-- `ldn.t`. -/
  | loadTag
  /-- A store of the listed runs of bytes; `lanes` for `stn.sv`, whose lanes are journaled one by one (R309). -/
  | store (lanes : Bool)
  /-- `stn.t` with the data's taint and poison. -/
  | storeTag (t : TSet) (p : Bool)
  /-- A quad-scope atomic with its function and operands d and c. -/
  | atom (fn : Nat) (d c : Word)
  deriving DecidableEq, Repr

/-- A near access (R221): its identity, the spans of stash addresses it reads, in lane order, the runs of bytes it writes, its
port, due cycle and issue order, effective taint (R230), the taint and poison its result takes from its operands, its colour,
and the chunks it has filled so far. -/
structure NearOp where
  ident : Nat
  kind : NearKind
  spans : List (Nat × Nat)
  writes : List (Nat × List Byte)
  port : PortId
  due : Nat
  ord : Nat
  e : TSet
  taint : TSet
  poison : Bool
  colour : Fin 16
  got : List Nat
  deriving DecidableEq, Repr

/-- Far accesses, ordering and events of a core (R103, R172, R225, R229, R232). -/
structure Order where
  tcol : Fin 16
  farCount : Nat
  st : Vector Nat 16
  path : TSet
  events : BitVec 16
  /-- Pending engine completion events, oldest first: queue and completion word. -/
  engEvents : List (Nat × Word)
  sbuf : List StoreLine
  released : List StoreLine
  far : List FarOp
  /-- Near accesses not yet served, in issue order: one waits for a token or a line (R205, R298). -/
  nearq : List NearOp
  sinceCommit : Nat
  deriving DecidableEq, Repr

/-- A weight buffer of the anvil (R144, R149, R156). Weights and scales little-endian as they stand in the stash. -/
structure WeightBuf where
  tile : BitVec 65536
  scales : BitVec 4096
  wfmt : BitVec 2
  waddr : BitVec 22
  wsaddr : BitVec 22
  poison : Bool
  loaded : Bool
  deriving DecidableEq, Repr

/-- The latched mask block (R153). -/
structure MaskBlock where
  mode : Nat
  nodes : Nat
  pfx : Nat
  qorg : Nat
  korg : Nat
  bits : BitVec 4096
  deriving DecidableEq, Repr

/-- The anvil's operations (R77). -/
inductive AnvKind where
  | ldw | swap | run | runz | runv | mpb | rd | wr | clr
  deriving DecidableEq, Repr

/-- An anvil operation in the queue (R147): the values its operand ports and trigger had, the taint of its status, the effective
taint of its reads and rows (R151, R152), the colour at issue, its issue order, the cycle it started, rows done, CODE, whether
`ldw` or `mpb` has read its data and the chunks it has read so far, the chunks filled for the read under way and whether the read
of a row can be made now, and the images (bytes and their poison) that 64-byte chunks had before near stores issued since the
start (R152). -/
structure AnvOp where
  kind : AnvKind
  x : Word
  w : Word
  acc : Nat
  n : Nat
  f : Word
  s : Word
  trig : VVal
  taint : TSet
  e : TSet
  colour : Fin 16
  ord : Nat
  start : Option Nat
  rows : Nat
  code : Nat
  read : Bool
  taken : List (Nat × List (Byte × Bool))
  got : List Nat
  ready : Bool
  pre : List (Nat × List (Byte × Bool))
  deriving DecidableEq, Repr

/-- The anvil (R144). An accumulator row that is not listed is +0 with empty taint and no poison, or, from row `lost` upwards, one
that a restore or a rollback has lost and that reads as a free value: the row and the base of its counter, the latest loss first (R155). `slip` is what
the anvil's cycle is ahead of `cyc`: it has run on while its core stood before a full queue (R147; log entry 70). -/
structure Anvil where
  active : WeightBuf
  shadow : WeightBuf
  mask : MaskBlock
  rows : List (Nat × VVal)
  lost : List (Nat × Nat)
  slip : Nat
  queue : List AnvOp
  deriving DecidableEq, Repr

/-- An engine command's operation (R78), Q0 to Q4 and the fence. -/
inductive EngOp where
  | copy | copyMc | smap | sinv | swb | gather | scatter | topk | sgemv | sattn | sred
  | callred | cbcast | creduce | kvapp | kvcomp | pxlook | pxins | pxrel
  /-- An entry of a fence with its sequence number and mask (R173). -/
  | fence (seq : Nat) (mask : BitVec 5)
  deriving DecidableEq, Repr

/-- A command in an engine queue (R157, R158): the operand ports it reads, the command word, its effective taint, the handles it
took at issue by index, the command block and the near data read at issue, each byte with its poison, its sequence number, issue
order, whether it has started, for a collective the phase it arrived for, and once its accesses are done its completion word. -/
structure EngCmd where
  op : EngOp
  src : Word
  dst : Word
  nest : Word
  len : Word
  aux : Word
  word : Word
  e : TSet
  handles : List (Nat × Handle)
  block : List (Byte × Bool)
  data : List (Byte × Bool)
  seq : Nat
  ord : Nat
  started : Bool
  phase : Nat
  /-- The next element of a copy, gather or scatter: its progress (R174). -/
  elem : Nat
  /-- Quads of a `copy.mc` that have failed (R164). -/
  failed : List Nat
  /-- Lines of peer modules fetched for the command: (place, bytes, poison) (R344). -/
  fetched : List (Loc × List Byte × Bool)
  /-- Chunks of peer lines filled for the next element (R204, R205). -/
  filled : List Nat
  /-- Tokens taken for the lines of the next element, those asked for and waited for (R296, R298), and the period from which a
  command that found a line held is tried again. -/
  paid : Nat
  asked : Nat
  retryAt : Nat
  /-- Transfers to peers not yet answered (R344). -/
  waitFor : List Nat
  done : Option Word
  deriving DecidableEq, Repr

/-- An engine queue (R157, R169): commands oldest first, counts issued and completed, the last 64 completion words newest
first. -/
structure EngQueue where
  cmds : List EngCmd
  issued : Nat
  completed : Nat
  kept : List (Nat × Word)
  deriving DecidableEq, Repr

/-- The state of a core that a checkpoint snapshot holds (R308, R315). -/
structure CoreArch where
  regs : Regs
  ops : Vector VVal 24
  res : Vector RPort 13
  due : List Due
  hdue : List HDue
  seq : Sequencer
  csr : Csrs
  order : Order
  anv : Anvil
  q : Vector EngQueue 5
  /-- Fences issued (R173). -/
  fences : Nat
  deriving DecidableEq, Repr

/-- What has become of the core's task (R25, R27, R36, R307). -/
inductive Status where
  | idle
  | bound
  /-- Stopped for a pre-emption. -/
  | stopped
  | completed (code : BitVec 16)
  | ended (cause : Nat)
  deriving DecidableEq, Repr

/-- The tag of a temporary 8-byte word whose valid bit is set (R113). -/
structure Tag where
  core : Nat
  t : TSet
  p : Bool
  deriving DecidableEq, Repr

/-- The record of a far load delivered (R309): its issue order, colour, bytes as delivered, poison, the largest perform stamp of
its parts and its arrival cycle. One of an atomic is no record of R309: it has no size and counts nowhere. -/
structure LoadRec where
  ord : Nat
  atom : Bool
  colour : Fin 16
  bytes : List Byte
  bad : Bool
  stamp : Nat
  at_ : Nat
  deriving DecidableEq, Repr

/-- A journal record (R309). -/
inductive JRec where
  /-- A near store: the runs of old bytes by stash address, and the tags and poison marks they had, by stash key. -/
  | near (runs : List (Nat × List Byte)) (tags : List (Nat × Tag)) (bad : List (Nat × Bool))
  /-- The first write of an accumulator row. -/
  | row (n : Nat) (old : VVal)
  /-- A far load delivered. -/
  | load (r : LoadRec)
  deriving DecidableEq, Repr

/-- The checkpoint journal and the no-rollback window (R309, R310, R314). -/
structure Journal where
  recs : List JRec
  bytes : Nat
  windowOpen : Bool
  why : Nat
  ckaddr : BAddr
  rolls : Nat
  /-- The period at the checkpoint (R312). -/
  periodAt : Nat
  /-- Events latched, and engine completions delivered to the handler, since the checkpoint (R311). -/
  latched : BitVec 16
  took : List (Nat × Word)
  deriving DecidableEq, Repr

/-- A rollback under way (R311, R312): the core cycle in which rerun A reached the end point and its signature, none while it runs;
the periods of a restore still to come; the `cyc` of the end point; the periods since the checkpoint that count in `frz.mem`; the
load records that are replayed; the writes made so far, each with its issue order; and whether the error shows again in rerun B. -/
structure Rerun where
  first : Option (Nat × BitVec 64)
  left : Nat
  stop : Nat
  spent : Nat
  loads : List LoadRec
  writes : List (Nat × List Byte)
  errs : Bool
  deriving DecidableEq, Repr

/-- What the dispatcher receives of an ended task (R301): the cause, `uepc`, and for the causes that have one the fault layout. -/
structure TaskEnd where
  cause : Nat
  epc : BAddr
  info : Option Nat
  deriving DecidableEq, Repr

/-- A pre-emption mark: the periods since it that were not frozen (R37). -/
structure Mark where
  periods : Nat
  deriving DecidableEq, Repr

/-- A core. -/
structure Core where
  status : Status
  /-- The period in which the member stopped last (R357). -/
  stoppedAt : Nat
  /-- The micro-context whose gang the core serves. -/
  gang : Option Nat
  arch : CoreArch
  /-- The checkpoint snapshot (R308). -/
  ck : CoreArch
  jn : Journal
  freezeDog : Nat
  waitDog : Nat
  /-- Periods that the next bundle has been held by the droop limit (R295). -/
  droopHeld : Nat
  /-- Instruction memory: bundles by address (R45, R199); unlisted addresses hold zeros. -/
  imem : List (Nat × BitVec 256)
  /-- Addresses the loaded schedule covers, as (first, count) runs (R47, R325). -/
  covered : List (Nat × Nat)
  /-- Load epoch (R325). -/
  epoch : BitVec 32
  /-- World, segment and record whose schedule the instruction memory holds (R287). -/
  loadedFor : Option (Nat × Nat × Nat)
  mark : Option Mark
  report : Option TaskEnd
  rerun : Option Rerun
  deriving DecidableEq, Repr

/-! Reset and entry values. -/

def SReg.zero : SReg := { v := 0, t := 0, p := false, dead := false }
def VReg.zero : VReg := { v := 0, t := 0, p := false, dead := false }
def SVal.zero : SVal := { v := 0, t := 0, p := false }
def VVal.zero : VVal := { v := 0, t := 0, p := false }
def RPort.reset : RPort := { val := VVal.zero, empty := true }
def Steer.reset : Steer := { cond := false, ct := 0, cp := false, target := 0, tt := 0, tp := false, prep := .never }
def Handle.reset : Handle :=
  { made := false, base := 0, frame := 0, home := 0, pkg := 0, wr := false, pageRo := false, sh := false, valid := false, revoked := false,
    t := 0 }
def Regs.reset : Regs :=
  { g := Vector.replicate 32 SReg.zero, v := Vector.replicate 32 VReg.zero, p := Vector.replicate 8 SReg.zero,
    a := Vector.replicate 16 SReg.zero, m := Vector.replicate 16 SReg.zero, s := Vector.replicate 12 Steer.reset,
    h := Vector.replicate 16 Handle.reset }
def Shadow.reset : Shadow := { g := Vector.replicate 8 SReg.zero, s := Vector.replicate 2 Steer.reset }
def Sequencer.reset : Sequencer :=
  { pc := 0, last := 0, loops := [], calls := [], stall := 0, fetchWait := 0, next := none, entered := false, exiting := none,
    trapping := none, atSafe := false, atCk := false, wait := none, handler := none, shadow := Shadow.reset, yielded := false }
/-- The control registers at reset. `uiv` 8,168 and `acchw` 12,288 are the entry values of R84; the others are 0. -/
def Csrs.reset : Csrs :=
  { cyc := 0, frzMem := 0, frzPwr := 0, frzBr := 0, frzWait := 0, uiv := 8168, ucause := 0, uepc := 0, uinfo := 0,
    uie := false, sbchk := false, acchw := 12288, ctx := 0, world := 0, prio := 0 }
def Order.reset : Order :=
  { tcol := 0, farCount := 0, st := Vector.replicate 16 0, path := 0, events := 0, engEvents := [], sbuf := [], released := [],
    far := [], nearq := [], sinceCommit := 0 }
def WeightBuf.reset : WeightBuf :=
  { tile := 0, scales := 0, wfmt := 1, waddr := 0, wsaddr := 0, poison := false, loaded := false }
def MaskBlock.off : MaskBlock := { mode := 0, nodes := 0, pfx := 0, qorg := 0, korg := 0, bits := 0 }
def Anvil.reset : Anvil :=
  { active := WeightBuf.reset, shadow := WeightBuf.reset, mask := MaskBlock.off, rows := [], lost := [], slip := 0, queue := [] }
def EngQueue.reset : EngQueue := { cmds := [], issued := 0, completed := 0, kept := [] }
def CoreArch.reset : CoreArch :=
  { regs := Regs.reset, ops := Vector.replicate 24 VVal.zero, res := Vector.replicate 13 RPort.reset, due := [], hdue := [],
    seq := Sequencer.reset, csr := Csrs.reset, order := Order.reset, anv := Anvil.reset, q := Vector.replicate 5 EngQueue.reset,
    fences := 0 }
def Journal.reset : Journal :=
  { recs := [], bytes := 0, windowOpen := false, why := 0, ckaddr := 0, rolls := 0, periodAt := 0, latched := 0, took := [] }
def Core.reset : Core :=
  { status := .idle, stoppedAt := 0, gang := none, arch := CoreArch.reset, ck := CoreArch.reset, jn := Journal.reset, freezeDog := 0,
    waitDog := 0, droopHeld := 0, imem := [], covered := [], epoch := 0, loadedFor := none, mark := none, report := none,
    rerun := none }

end Sys2Proof.Machine
end

