-- ==== Sys2Proof/Machine/HubState.lean ====
section
/-! DEFINITION. The state outside the cores: quads and their stash windows, dies and their buckets, chunks, frames and
translations, gangs and barrier channels, and the hub: blocks, bindings, segments, keys, sessions, the prefix index, the pod,
the host link and the signals. -/

namespace Sys2Proof.Machine

/-- A stash-map window (R165, R203): the extent in the stash, the virtual tile, its micro-context's address space, whether the
command processor installed it, and for such a window the buffers it maps with the VERSION recorded for each (R241). -/
structure Window where
  base : Nat
  vbase : Nat
  rowBytes : Nat
  rows : Nat
  rowStride : Nat
  ro : Bool
  ctx : Nat
  byCp : Bool
  versions : List (Nat × Nat)
  deriving DecidableEq, Repr

/-- A temporary region (R202, R284). -/
structure Temp where
  base : Nat
  len : Nat
  owner : Nat
  deriving DecidableEq, Repr

/-- A `vu.spop` of this period: the queue changes at the period's end, after every push (R142). Its core, queue, MAX, the due
cycle and issue order of its results, and the taint of its descriptor. -/
structure Pop where
  core : Nat
  stream : Nat
  most : Nat
  due : Nat
  ord : Nat
  t : TSet
  deriving DecidableEq, Repr

/-- The power state of a quad (R292). -/
inductive Power where
  | gated | clockGated | awake
  deriving DecidableEq, Repr

/-- The events of a `seq.sev` under way (R103). -/
structure SevLatch where
  at_ : Nat
  core : Nat
  events : BitVec 16
  deriving DecidableEq, Repr

/-- A quad. -/
structure Quad where
  windows : List (Nat × Window)
  temps : List Temp
  /-- The four stream queues, oldest entry first: value and poison (R139). -/
  streams : List (List (Lane × Bool))
  /-- Pops of this period, in core order (R142). -/
  pops : List Pop
  latches : List SevLatch
  power : Power
  /-- The block whose gang holds the quad. -/
  busy : Option Nat
  drainEnd : Nat
  idleSince : Nat
  /-- The world the quad belongs to (R317). -/
  world : Option Nat
  withdrawn : Bool
  /-- The physical site (R14). -/
  site : Nat
  /-- The core that is rolled back; the quad is held for it (R311). -/
  hold : Option Nat
  /-- Rows that the banks have served in this period, by bank (R201). -/
  served : List (Nat × Nat)
  deriving DecidableEq, Repr

/-- A tenant's token bucket on a die (R296, R297). -/
structure Bucket where
  share : Nat
  tokens : Nat
  took : Bool
  deriving DecidableEq, Repr

/-- Lines waiting for tokens (R298): tenant, core, the access they belong to, how many there are still, the period in which they
reached the bucket. -/
structure TokenWait where
  tenant : Nat
  core : Nat
  ident : Nat
  lines : Nat
  at_ : Nat
  deriving DecidableEq, Repr

/-- A compute die. -/
structure Die where
  /-- The bank-read limit L, its value from the next period, and periods without a detection (R295). -/
  limit : Nat
  nextLimit : Nat
  quiet : Nat
  /-- A detection in this period (R295). -/
  droop : Bool
  /-- Spare quad sites left (R14). -/
  spares : Nat
  /-- The window grant W (R297). -/
  grant : Nat
  /-- The next window whose buckets have not been set. -/
  window : Nat
  buckets : List (Nat × Bucket)
  waitq : List TokenWait
  /-- Accesses whose waiting lines have got their tokens. -/
  granted : List Nat
  down : Bool
  /-- The lines that its L2 holds, latest first (R209, R210). -/
  l2 : List Nat
  /-- The registration directory, oldest first: line and chunk key, quad × 65,536 + chunk number (R203, R210). Die 8 is the
  host endpoint's. -/
  dir : List (Nat × Nat)
  deriving DecidableEq, Repr

/-- The state of a mapped chunk that is not I (R203). -/
structure Chunk where
  dirty : Bool
  stamp : Nat
  mask : BitVec 64
  deriving DecidableEq, Repr

/-- Frame states (R216). -/
inductive FrameState where
  | promoting | leased | warm | scrubbing
  deriving DecidableEq, Repr

/-- An HBM frame that is not free (R216 to R219): its tenant and world, the page it holds, when it was last leased, whether it
was promoted late, changed since promotion, the key generation recorded for it (R319). -/
structure Frame where
  st : FrameState
  tenant : Nat
  world : Nat
  page : Option (Nat × Nat)
  lastLease : Nat
  late : Bool
  changed : Bool
  gen : Bool
  deriving DecidableEq, Repr

/-- The state of a gang (R26, R27, R36). -/
inductive GangState where
  | running | stopping | stopped
  /-- Resumption under way until the period. -/
  | resuming (at_ : Nat)
  /-- Restored to its quads (R359): whether the anvil buffers are reloaded, and the period from which what is still awaited is looked at
  again; then the members run. -/
  | restored (reloaded : Bool) (at_ : Nat)
  /-- The gang has ended or completed; its writes are being finished. -/
  | finishing
  deriving DecidableEq, Repr

/-- A member as its gang's image holds it: its status, its core section, its rollbacks so far and its last checkpoint's address. -/
structure SavedCore where
  status : Status
  arch : CoreArch
  rolls : Nat
  ckaddr : BAddr
  deriving DecidableEq, Repr

/-- A member's part of a collective (R168): its phase, core and rank, the operation (0 `callred`, 1 `cbcast`, 2 `creduce`), FN,
FMT, root, its buffer and whether a byte of it was poisoned. -/
structure CollPart where
  phase : Nat
  core : Nat
  rank : Nat
  op : Nat
  fn : Nat
  fmt : Nat
  root : Nat
  bytes : List Byte
  bad : Bool
  deriving DecidableEq, Repr

/-- A barrier channel (R38 to R43): arrivals and observed releases per core, phases released, the periods of
releases that are due, parts of collectives, and at pod scope the modules' arrivals in the group. -/
structure Chan where
  ident : ChanId
  /-- At pod scope, the group phase that is the gang's phase 0 (R40); otherwise 0. -/
  base : Nat
  arrived : List (Nat × Nat)
  observed : List (Nat × Nat)
  released : Nat
  /-- Release periods of the phases `released`, `released + 1`, as far as every member has arrived for them. -/
  dueAt : List Nat
  parts : List CollPart
  deriving DecidableEq, Repr

/-- The gang header of a context image (R315): Format 1, block number, world, shape, global quad ids, the state of the gang's quad
and die channels, duty, and per member the yield flag. -/
structure ImgHeader where
  format : Nat
  ctx : Nat
  world : Nat
  shape : Nat
  quads : List Nat
  chans : List Chan
  duty : Nat
  yields : List (Nat × Bool)
  deriving DecidableEq, Repr

/-- The saved parts of a stopped gang (R315): the version of the image's lines, the gang header, cores, bytes of the temporary regions
with their poison and tags, stream queues; and the windows, which are held with the gang. -/
structure Image where
  version : Nat
  header : ImgHeader
  cores : List (Nat × SavedCore)
  bytes : List Host.Cell
  bad : List (Nat × Bool)
  tags : List (Nat × Tag)
  streams : List (Nat × List (List (Lane × Bool)))
  windows : List (Nat × List (Nat × Window))
  deriving DecidableEq, Repr

/-- A gang (R26, R27). -/
structure Gang where
  ctx : Nat
  world : Nat
  tenant : Nat
  /-- Number of the launch, in the order the command processor takes them (R241), and ring index of its request. -/
  launch : Nat
  ix : Nat
  /-- The launch record (R284), its index and the indexes run so far, this one included. -/
  record : BitVec 8192
  recIx : Nat
  path : List Nat
  quads : List Nat
  lease : List PageRange
  /-- Duty in sixteenths, and the duty of the next window (R293, R294). -/
  duty : Nat
  nextDuty : Nat
  /-- Periods bound since the entry bundle (R288). -/
  elapsed : Nat
  st : GangState
  stoppedAt : Nat
  image : Option Image
  /-- Cause and rank of the member that ended first (R307). -/
  cause : Option (Nat × Nat)
  /-- Saves of the gang (R315). -/
  saves : Nat
  /-- The quads that are remapped once the gang has stopped, each with its spare site (R14, R313). -/
  remap : List (Nat × Nat)
  deriving DecidableEq, Repr

/-- A pod-group table entry (R40): members in ascending order, channels, per channel the next phase of this module, the
arrivals of the other modules, phases released. -/
structure PodGroup where
  members : List Nat
  channels : Nat
  /-- (channel, phases this module has arrived for). -/
  mine : List (Nat × Nat)
  /-- (channel, module identity, phases it has arrived for). -/
  theirs : List (Nat × Nat × Nat)
  /-- (channel, phases released). -/
  released : List (Nat × Nat)
  /-- Parts of collectives received: channel, module identity, phase, operation, function and format, root, total, bytes. -/
  parts : List PColl
  deriving DecidableEq, Repr

/-- A step of binding (R286, R289, R357). -/
inductive BindStage where
  /-- Waiting to be placed. -/
  | waiting
  /-- Placed again when quads free or a gang completes (R288). -/
  | deferred
  /-- The launch broadcast, to its end: the quads, the victims to be marked then, the periods that power-gated quads take to
  wake, and the W of the start step. -/
  | broadcast (quads : List Nat) (at_ : Nat) (victims : List Nat) (wake : Nat) (warmUp : Nat)
  /-- Victims stop. -/
  | stopping (quads : List Nat) (victims : List Nat)
  /-- The victims are saved, power-gated quads wake or a drain ends, until a period; then the cold steps or the start step follow. -/
  | waking (quads : List Nat) (at_ : Nat) (warmUp : Nat)
  /-- The schedule step of R287, to its end. -/
  | unsealing (quads : List Nat) (at_ : Nat) (warmUp : Nat)
  /-- The near image is read from HBM, to its end (R287). -/
  | imaging (quads : List Nat) (at_ : Nat) (warmUp : Nat)
  /-- The start step, to its end. -/
  | starting (quads : List Nat) (at_ : Nat)
  /-- A stopped gang that takes its quads at their release (R289). -/
  | reserved (quads : List Nat)
  deriving DecidableEq, Repr

/-- A request being bound, or between two launches of its route, or a stopped gang's resumption (R285, R286, R289). -/
structure Binding where
  /-- The period from which placement sees it. -/
  visible : Nat
  stage : BindStage
  /-- Ring index of the request, index of the launch record, and the indexes run before it. -/
  ix : Nat
  recIx : Nat
  path : List Nat
  /-- Number of the launch, once placed. -/
  launch : Nat
  resume : Bool
  deriving DecidableEq, Repr

/-- A request accepted into a ring (R282, R340, R341): block, ring index, and what its reply needs: port, session, RID, digest,
origin; its arrival in periods. -/
structure Request where
  ctx : Nat
  ix : Nat
  port : Nat
  session : Nat
  rid : Nat
  digest : BitVec 256
  origin : Origin
  arrived : Nat
  /-- The bytes of its ring entry while they have still to be written, because the ring's page is not resident. -/
  entry : List Byte
  deriving DecidableEq, Repr

/-- A reply to be sent (R341, R358): the request, CLASS, STATUS, the plaintext body with its hallmark, and the period that
decides it. -/
structure ReplyDue where
  req : Request
  cls : Nat
  status : Nat
  body : List Byte
  since : Nat
  deriving DecidableEq, Repr

/-- A sealed segment (R327, R328): its content, and the world of each reference to it. -/
structure Segment where
  ident : Nat
  content : List Byte
  measure : BitVec 256
  shared : Bool
  worlds : List Nat
  recs : List (BitVec 8192)
  code : List (List (Nat × BitVec 256))
  near : List (List Byte)
  far : List (List Byte)
  /-- The measurement of each record's schedule, recorded at sealing (R325). -/
  measures : List (BitVec 256)
  deriving DecidableEq, Repr

/-- A near image in the staging store: block, segment, record, and its bytes, each with whether it is poisoned (R287, R299). -/
structure Staged where
  ctx : Nat
  seg : Nat
  rec_ : Nat
  bytes : List (Byte × Bool)
  deriving DecidableEq, Repr

/-- Work of the command processor ahead of a launch of a block, until a period (R299): the near image of a record of its route read
from HBM, and in prefetch mode the record's schedule opened on idle quads. -/
structure Staging where
  ctx : Nat
  recIx : Nat
  image : Bool
  quads : List Nat
  at_ : Nat
  deriving DecidableEq, Repr

/-- A buffer of the version table (R239, R324). -/
structure BufEntry where
  version : Nat
  world : Nat
  whole : Bool
  /-- Launches in flight that write it and that read it (R241), and the last launch that wrote it. -/
  writers : List Nat
  readers : List Nat
  last : Nat
  /-- The buffer is being reset by a rekey (R319). -/
  sweep : Bool
  deriving DecidableEq, Repr

/-- A key slot (R318). -/
structure KeySlot where
  root0 : BitVec 256
  root1 : BitVec 256
  gen : Bool
  uses0 : Nat
  uses1 : Nat
  hkey : BitVec 256
  st : Nat
  world : Nat
  tenant : Nat
  deriving DecidableEq, Repr

/-- The SEQ state of a session (R338): the highest accepted SEQ, none when none was, with the 64-bit window below it, and the next
outgoing SEQ. -/
structure SeqState where
  high : Option Nat
  window : BitVec 64
  out : Nat
  deriving DecidableEq, Repr

/-- A session entry (R338, R339). -/
structure Session where
  world : Nat
  role : Nat
  key : BitVec 256
  sq : SeqState
  deriving DecidableEq, Repr

/-- A key-value pool (R258). -/
structure Pool where
  world : Nat
  fmt : Nat
  dsel : Nat
  groups : Nat
  dvbase : Nat
  mvbase : Nat
  gstack : List Nat
  deriving DecidableEq, Repr

/-- A share domain (R268). -/
structure Domain where
  world : Nat
  ns : Nat
  quota : Nat
  pool : Nat
  deriving DecidableEq, Repr

/-- A node of the prefix index (R269): the token IDs of its positions and for each stream its run BASE, STRIDE. -/
structure PxNode where
  dom : Nat
  parent : Nat
  start : Nat
  stop : Nat
  label : List Nat
  runs : List (Nat × Nat)
  deriving DecidableEq, Repr

/-- TDISP interface states (R332). -/
inductive TdiState where
  | unlocked | locked | run | error
  deriving DecidableEq, Repr

/-- A tenant's guarantee and burst allowance (R216). -/
structure Tenant where
  g : Nat
  u : Nat
  deriving DecidableEq, Repr

/-- An address-table entry (R347): an IPv4 address, an IPv6 address or both, the next-hop MAC and the port mask. -/
structure AddrEntry where
  v4 : Option (BitVec 32)
  v6 : Option (BitVec 128)
  mac : BitVec 48
  ports : Nat
  deriving DecidableEq, Repr

/-- How a frame that the module sends is addressed (R343): Ethernet destination and source, IEEE 802.1Q tag, IP version, addresses,
hop limit and DSCP, UDP ports. -/
structure Way where
  ethDst : BitVec 48
  ethSrc : BitVec 48
  tag : Option (BitVec 16)
  v6 : Bool
  ipSrc : BitVec 128
  ipDst : BitVec 128
  hops : Nat
  dscp : BitVec 6
  udpSrc : Nat
  udpDst : Nat
  deriving DecidableEq, Repr

/-- What the module has sent (R341, R344, R346, R348, R350, R354). -/
inductive Outgoing where
  /-- A frame on a port: class, CTX, session, RID, SEQ, STATUS, MODID, body, how it is addressed, and the period its first byte leaves. -/
  | frame (port cls ctx session rid seq status modid : Nat) (body : List Byte) (way : Way) (at_ : Nat)
  /-- A frame handed to the management path (R335). -/
  | management (port : Nat) (bytes : List Byte)
  /-- A frame that finds no port, SEQ or key. -/
  | dropped (cls ctx rid : Nat)
  /-- A report to the physical function (R300). -/
  | report (cause ctx off : Nat)
  /-- An ATS Invalidate Completion (R214). -/
  | invalidated (ctx : Nat) (r : PageRange)
  /-- A TDISP answer: the function and INVALID_INTERFACE_STATE or not (R332). -/
  | tdisp (fn : Nat) (ok : Bool)
  /-- A host access that was rejected (R281, R332). -/
  | rejected (fn : Nat)
  /-- A segment stored, or a reference added to one already stored (R327, R328). -/
  | sealed (ident : Nat) (stored : Bool)
  /-- An assay with its signature, and the boot certificate (R329, R330). -/
  | assay (fn : Nat) (body cert : List Byte)
  /-- Data read by a host DMA read, each byte with whether it is poisoned (R220, R234). -/
  | dmaData (pa : Nat) (bytes : List (Byte × Bool))
  /-- Telemetry: enabled quads of each die (R14), unread alerts and log entries, failures by port (R337, R354). -/
  | telemetry (quads : List Nat) (alerts : Nat) (logs : List (Nat × Nat × Nat)) (ports : List (Nat × Nat))
  /-- A host access before the functions answer: Configuration Request Retry Status (R356). -/
  | retry (fn : Nat)
  deriving DecidableEq, Repr

/-- An outgoing pod transfer awaiting its PREPLY (R344): its core and access, the frame, the time and number of resends. -/
structure PodXfer where
  num : Nat
  core : Nat
  ident : Nat
  /-- 0 a part of a far load or atomic, 1 a chunk fill, 2 a line for an engine command, 3 a store, 4 a PCOLL,
  5 a chunk written back. -/
  kind : Nat
  peer : Nat
  world : Nat
  /-- Frame class: 0x40 PLOAD, 0x41 PSTORE, 0x42 PATOM. -/
  cls : Nat
  fn : Nat
  pa : Nat
  mask : BitVec 64
  data : List Byte
  /-- Stamp of its sending: no later than its access at the peer. -/
  stamp : Nat
  sentAt : Nat
  resends : Nat
  deriving DecidableEq, Repr

/-- A sent INVOKE awaiting its reply, with the module it went to (R348). -/
structure SentInvoke where
  ctx : Nat
  entry : Nat
  session : Nat
  rid : Nat
  dest : Nat
  sentAt : Nat
  deriving DecidableEq, Repr

/-- An access from outside the cores that has arrived and waits for a line (R298, R311, R319). -/
inductive Delayed where
  /-- A PLOAD, PSTORE or PATOM, by its class. -/
  | pod (cls : Nat) (r : PodReq)
  /-- A host DMA request. -/
  | dma (write : Bool) (pa : Nat) (bytes : List Byte)
  /-- The outcome of a sent entry: the STATUS and the body of its reply, or none when no reply came (R348). -/
  | sent (ctx entry : Nat) (reply : Option (Nat × List Byte))
  deriving DecidableEq, Repr

/-- A held reply (R342). -/
structure HeldReply where
  port : Nat
  since : Nat
  out : Outgoing
  deriving DecidableEq, Repr

/-- The connector's signals (R354); the management bus stands idle between the reads. -/
structure Pins where
  perstN : Bool
  mrstN : Bool
  pwrgd : Bool
  alertN : Bool
  thermN : Bool
  mgmtScl : Bool
  mgmtSda : Bool
  deriving DecidableEq, Repr

/-- Boot and attestation (R329, R356). -/
structure Boot where
  /-- Steps done: 0 none, 1 to step 3, 2 to step 6 (the functions answer), 3 all (the session key is certified). -/
  stage : Nat
  count : Nat
  longIndex : Nat
  sigsLeft : Nat
  imageB : Bool
  /-- Neither image verified (R356). -/
  dead : Bool
  deriving DecidableEq, Repr

/-- The hub die (R18). Micro-context blocks, segments and so on by number; what is not listed is absent. -/
structure Hub where
  /-- Micro-context blocks (R280), each 2,048 bits; a block that is all zero is FREE and not listed. -/
  blocks : List (Nat × BitVec 2048)
  bind : List (Nat × Binding)
  gangs : List (Nat × Gang)
  chans : List Chan
  groups : List (Nat × PodGroup)
  /-- Requests in the rings, and replies to be sent, oldest first. -/
  reqs : List Request
  replies : List ReplyDue
  /-- The period from which the dispatcher is free for another placement (R286), and the number of the next launch. -/
  placeAt : Nat
  nextLaunch : Nat
  /-- Near images in the staging store, oldest first, and staging under way (R287, R299). -/
  staged : List Staged
  staging : List Staging
  /-- Sealed segments, which the drives hold (R351), and the public keys that worlds have registered for them (R327). -/
  segs : List (Nat × Segment)
  modelKeys : List (Nat × BitVec 256)
  buffers : List (Nat × BufEntry)
  keys : List (Nat × KeySlot)
  sessions : List (Nat × Session)
  /-- The SEQ state of session 0 for each peer module (R339). -/
  peers : List (Nat × SeqState)
  pools : List (Nat × Pool)
  domains : List (Nat × Domain)
  nodes : List (Nat × PxNode)
  /-- Blocks of `eng.sattn` commands discarded with their gang, whose pages have still to be let go: core and command block
  (R265, R307). -/
  unsettled : List (Nat × List (Byte × Bool))
  tdi : List (Nat × TdiState)
  tenants : List (Nat × Tenant)
  addrTable : List (Nat × AddrEntry)
  /-- Lines of peer modules that a chunk of this module holds in state D: the place and the chunk (R204). -/
  peerDir : List (Loc × Nat)
  /-- Export table: frame and world (R344). -/
  exports : List (Nat × Nat)
  /-- Answers recorded by transfer number and sender (R344). -/
  answered : List (Nat × Nat × PodAns)
  xfers : List PodXfer
  nextXfer : Nat
  sends : List SentInvoke
  /-- Blocks whose send ring's header line an atomic has reached (R348). -/
  bells : List Nat
  deriving DecidableEq, Repr

/-- A page as the drives hold it (R351): its world, the frame and the key generation that its lines are sealed under, its bytes, the
versions its lines are sealed with and its failed lines, by offset and by line in the page. -/
structure Evicted where
  world : Nat
  frame : Nat
  gen : Bool
  bytes : List Host.Cell
  vers : List (Nat × Nat)
  bad : List (Nat × Bool)
  deriving DecidableEq, Repr

/-- An ATS invalidation under way (R214): micro-context, range, the frames its pages had. -/
structure Invalidation where
  ctx : Nat
  range : PageRange
  frames : List Nat
  deriving DecidableEq, Repr

/-- The module's edge: ports, signals, telemetry, boot (R335, R342, R354, R356). -/
structure Edge where
  /-- Bit p set when port p has its link. -/
  links : BitVec 8
  held : List HeldReply
  /-- The period from which port p is free to start another frame. -/
  busyUntil : List (Nat × Nat)
  outbox : List Outgoing
  pins : Pins
  boot : Boot
  pkgid : Nat
  podid : Nat
  /-- The MAC address of each port (R343), and the key of session 0, when it has one (R339). -/
  macs : List (Nat × BitVec 48)
  podKey : Option (BitVec 256)
  /-- The functions' mailboxes to the policy core, 4 KiB each (R349), and the keys of their IDE streams (R350). -/
  mail : Memory
  ide : List (Nat × BitVec 256)
  /-- Unread telemetry alerts, log entries (cause, a, b), failures counted by port (R337). -/
  alerts : Nat
  logs : List (Nat × Nat × Nat)
  portErrors : List (Nat × Nat)
  /-- Consecutive power readings below 2,250 W (R293). -/
  governor : Nat
  /-- Pages evicted to the drives (R217, R351), at ctx × 2^27 + page. -/
  drives : List (Nat × Evicted)
  /-- Lease pages that are host memory (R214), at ctx × 2^27 + page. -/
  hostPages : List Nat
  /-- Lease pages that the firmware keeps stack-homed, by the same key, each with its stack (R210, R243). -/
  stackPages : List (Nat × Nat)
  /-- ATS invalidations under way (R214). -/
  invalidating : List Invalidation
  /-- Virtual pages whose handles are revoked at the end of the period (R213). -/
  revoking : List (Nat × PageRange)
  /-- Frame migrations under way: the frame and its successor (R215). -/
  migrating : List (Nat × Nat)
  deriving DecidableEq, Repr

def SeqState.reset : SeqState := { high := none, window := 0, out := 0 }
def Quad.reset (n : Nat) : Quad :=
  { windows := [], temps := [], streams := [[], [], [], []], pops := [], latches := [], power := .gated, busy := none,
    drainEnd := 0, idleSince := 0, world := none, withdrawn := false, site := n % 48, hold := none, served := [] }
def Die.reset : Die :=
  { limit := 6, nextLimit := 6, quiet := 0, droop := false, spares := 2, grant := 0, window := 0, buckets := [], waitq := [], granted := [], down := false, l2 := [],
    dir := [] }
def Pins.reset : Pins :=
  { perstN := false, mrstN := true, pwrgd := false, alertN := true, thermN := true, mgmtScl := true, mgmtSda := true }
def Boot.reset : Boot := { stage := 0, count := 0, longIndex := 0, sigsLeft := 0, imageB := false, dead := false }
def Hub.reset : Hub :=
  { blocks := [], bind := [], gangs := [], chans := [], groups := [], reqs := [], replies := [], placeAt := 0, nextLaunch := 0,
    staged := [], staging := [], segs := [], modelKeys := [], buffers := [], keys := [], sessions := [], peers := [],
    pools := [], domains := [], nodes := [], unsettled := [], tdi := [], tenants := [], addrTable := [], peerDir := [], exports := [],
    answered := [], xfers := [], nextXfer := 0, sends := [], bells := [] }
def Edge.reset : Edge :=
  { links := 0, held := [], busyUntil := [], outbox := [], pins := Pins.reset, boot := Boot.reset, pkgid := 0, podid := 0,
    macs := [], podKey := none, mail := [], ide := [], alerts := 0, logs := [], portErrors := [], governor := 0, drives := [], hostPages := [], stackPages := [], invalidating := [], revoking := [], migrating := [] }

end Sys2Proof.Machine
end

