-- ==== Sys2Proof/Machine/State.lean ====
section
/-! DEFINITION. The state of the module, the reasons a step can stop, and the state after reset. -/

namespace Sys2Proof.Machine

/-- A slot of a bundle being issued has raised a fault: its rank in R57, its slot, its cause code and `uinfo` (R301, R302). -/
structure SlotFault where
  rank : Nat
  slot : Nat
  cause : Nat
  uinfo : Nat
  deriving DecidableEq, Repr

/-- The bundle that is issuing (R55): the core as it stood before the bundle, the slot that is running, the literals, STALL,
the faults raised so far, the registers its moves have written, and whether a full queue holds it (R29). -/
structure Issue where
  start : CoreArch
  startJn : Journal
  slot : Nat
  l0 : BitVec 16
  l1 : BitVec 16
  l2 : BitVec 16
  stall : Nat
  faults : List SlotFault
  written : List Dst
  /-- A commit event releases the store buffer at the end of the bundle (R226). -/
  commit : Bool
  /-- `tnt.next` advances the colour at the end of the cycle (R177). -/
  advance : Bool
  hold : Bool
  /-- The hold is for a place in the anvil's queue: the anvil runs on (R147). -/
  drain : Bool
  /-- Chunks whose fill an engine trigger awaits: they are started when the bundle is held. -/
  need : List Nat
  deriving DecidableEq, Repr

/-- What the next step does, where the schedule of the module leaves a choice: an event of the module, or a clock period. -/
inductive Sched where
  | ev (i : Instr)
  | tick
  deriving DecidableEq, Repr

/-- The reasons a step of the model stops. -/
inductive Fault where
  /-- An access to the reserved range of R208, 0x00C0_0000_0000 to 0x1FFF_FFFF_FFFF, where no memory is. Raised by the far
  memory operations. Safe: the spec gives such an access no effect. -/
  | reservedPhysical
  deriving DecidableEq, Repr

/-- The reasons the model refuses an instruction. -/
inductive Refusal where
  /-- The instruction has no meaning in this model yet. Raised by the dispatcher alone. Safe: nothing is claimed of it. -/
  | notModelled (mnemonic : String)
  deriving DecidableEq, Repr

/-- The state of the module. -/
structure State where
  /-- Periods since reset (R294) and the package perform clock (R203). -/
  now : Nat
  clock : Nat
  /-- The model's own: what moves next, and the cores that have still to run in this period. -/
  agenda : List Sched
  todo : List Nat
  /-- The model's own: whether the anvils have had their turn at the banks in this period, after the cores and before the engines (R201). -/
  served : Bool
  /-- The model's own: accesses from outside that wait for a line, in order; each is tried again in the next period (R298, R311, R319). -/
  waiting : List Delayed
  /-- The model's own: the counter of free values and the source of identities for accesses in flight. -/
  freeCtr : Nat
  uid : Nat
  /-- The model's own: the core whose slot runs, and the bundle it issues. -/
  cur : Nat
  issue : Option Issue
  cores : List (Nat × Core)
  quads : List (Nat × Quad)
  dies : List (Nat × Die)
  /-- Stash bytes of every quad at quad × 2^22 + address (R200). -/
  stash : Memory
  /-- Tags of temporary 8-byte words at quad × 2^22 + address (R113). -/
  tags : List (Nat × Tag)
  /-- Poisoned stash bytes, at quad × 2^22 + address (R111, R148). -/
  sbad : List (Nat × Bool)
  /-- Chunks in state C or D, at quad × 65,536 + chunk number (R203). -/
  chunks : List (Nat × Chunk)
  /-- Far memory by local physical address (R208). -/
  far : Memory
  /-- The version HBM lines are sealed with, by line number; 0 when not listed (R321). -/
  lineVer : List (Nat × Nat)
  /-- Lines that fail their integrity check, by line number (R234, R360). -/
  bad : List (Nat × Bool)
  /-- Frames that are not free, by frame number (R216). -/
  frames : List (Nat × Frame)
  /-- Leaf translation entries, by address space × 2^27 + virtual page (R211). -/
  xlat : List (Nat × BitVec 64)
  hub : Hub
  edge : Edge
  deriving DecidableEq, Repr

/-- The module right after reset (R292, R355, R356): nothing is loaded, every quad is power-gated. -/
def State.reset : State :=
  { now := 0, clock := 0, agenda := [], todo := [], served := false, waiting := [], freeCtr := 0, uid := 0, cur := 0, issue := none, cores := [], quads := [],
    dies := [], stash := [], tags := [], sbad := [], chunks := [], far := [], lineVer := [], bad := [], frames := [], xlat := [],
    hub := Hub.reset, edge := Edge.reset }

end Sys2Proof.Machine
end

