-- ==== Sys2Proof/Machine/Access.lean ====
section
/-! DEFINITION. Access to the parts of the state: cores, quads, dies, registers, operand and result ports (R15, R58, R70, R71,
R304). -/

namespace Sys2Proof.Machine

/-- What a step answers. -/
abbrev Out := Host.Outcome State Fault Refusal

def getCore (s : State) (c : Nat) : Core := alGet Core.reset s.cores c
def setCore (s : State) (c : Nat) (x : Core) : State := { s with cores := alPut s.cores c x }
def modCore (s : State) (c : Nat) (f : Core → Core) : State := setCore s c (f (getCore s c))
def getQuad (s : State) (q : Nat) : Quad := alGet (Quad.reset q) s.quads q
def setQuad (s : State) (q : Nat) (x : Quad) : State := { s with quads := alPut s.quads q x }
def modQuad (s : State) (q : Nat) (f : Quad → Quad) : State := setQuad s q (f (getQuad s q))
def getDie (s : State) (d : Nat) : Die := alGet Die.reset s.dies d
def setDie (s : State) (d : Nat) (x : Die) : State := { s with dies := alPut s.dies d x }
def modDie (s : State) (d : Nat) (f : Die → Die) : State := setDie s d (f (getDie s d))

/-- Identity of a core (R15). -/
def quadOf (c : Nat) : Nat := c / 4
def dieOf (c : Nat) : Nat := c / 192
def dieOfQuad (q : Nat) : Nat := q / 48
def coreInQuad (c : Nat) : Nat := c % 4

/-- The core whose slot runs. -/
def curCore (s : State) : Core := getCore s s.cur
def arch (s : State) : CoreArch := (getCore s s.cur).arch
def setArch (s : State) (a : CoreArch) : State := setCore s s.cur { getCore s s.cur with arch := a }
def modArch (s : State) (f : CoreArch → CoreArch) : State := setArch s (f (arch s))
def modSeq (s : State) (f : Sequencer → Sequencer) : State := modArch s (fun a => { a with seq := f a.seq })
def modCsr (s : State) (f : Csrs → Csrs) : State := modArch s (fun a => { a with csr := f a.csr })
def modOrder (s : State) (f : Order → Order) : State := modArch s (fun a => { a with order := f a.order })
def modAnv (s : State) (f : Anvil → Anvil) : State := modArch s (fun a => { a with anv := f a.anv })
def modRegs (s : State) (f : Regs → Regs) : State := modArch s (fun a => { a with regs := f a.regs })

/-- The core as it stood before the bundle that issues; outside a bundle, as it stands. -/
def startArch (s : State) : CoreArch :=
  match s.issue with
  | some i => i.start
  | none => arch s

/-- The journal as it stood before the bundle that issues. -/
def startJournal (s : State) : Journal :=
  match s.issue with
  | some i => i.startJn
  | none => (curCore s).jn

/-- The next number of the free-value counter, and the state past it. -/
def takeFree (s : State) : Nat × State := (s.freeCtr, { s with freeCtr := s.freeCtr + 1 })

/-- The next identity, and the state past it. -/
def takeUid (s : State) : Nat × State := (s.uid, { s with uid := s.uid + 1 })

/-- Whether the user-level handler is active (R304). -/
def inHandler (a : CoreArch) : Bool := a.seq.handler.isSome

/-- Register g_i: inside a handler g24 to g31 are the shadow bank's (R304). -/
def readG (a : CoreArch) (i : Fin 32) : SReg :=
  if inHandler a ∧ 24 ≤ i.val then vget a.seq.shadow.g (Fin.ofNat 8 (i.val - 24)) else vget a.regs.g i

def writeG (a : CoreArch) (i : Fin 32) (x : SReg) : CoreArch :=
  if inHandler a ∧ 24 ≤ i.val then
    { a with seq := { a.seq with shadow := { a.seq.shadow with g := vset a.seq.shadow.g (Fin.ofNat 8 (i.val - 24)) x } } }
  else { a with regs := { a.regs with g := vset a.regs.g i x } }

/-- Steer register s_k: inside a handler s10 and s11 are the shadow bank's (R304). -/
def readS (a : CoreArch) (k : Fin 12) : Steer :=
  if inHandler a ∧ 10 ≤ k.val then vget a.seq.shadow.s (Fin.ofNat 2 (k.val - 10)) else vget a.regs.s k

def writeS (a : CoreArch) (k : Fin 12) (x : Steer) : CoreArch :=
  if inHandler a ∧ 10 ≤ k.val then
    { a with seq := { a.seq with shadow := { a.seq.shadow with s := vset a.seq.shadow.s (Fin.ofNat 2 (k.val - 10)) x } } }
  else { a with regs := { a.regs with s := vset a.regs.s k x } }

/-- The taint and poison of a steer register: the union and the OR of its two fields' (R91). -/
def steerTaint (x : Steer) : TSet := x.ct ||| x.tt
def steerPoison (x : Steer) : Bool := x.cp || x.tp

/-- The number of an operand port and of a result port in the state's vectors. -/
def opIndex : OpPort → Fin 24
  | .saO => 0 | .sbO => 1 | .cmpO => 2 | .seqLo => 3 | .seqCsel => 4 | .vuA => 5 | .vuB => 6 | .vuK => 7 | .anvX => 8
  | .anvW => 9 | .anvAcc => 10 | .anvN => 11 | .anvF => 12 | .anvS => 13 | .eSrc => 14 | .eDst => 15 | .eNest => 16
  | .eLen => 17 | .eAux => 18 | .tntO => 19 | .laD => 20 | .laC => 21 | .lbD => 22 | .lbC => 23

def resIndex : PortId → Fin 13
  | .saR => 0 | .sbR => 1 | .seqR => 2 | .vuR => 3 | .vuSr => 4 | .vuMr => 5 | .anvR => 6 | .engR => 7 | .tntR => 8
  | .laR => 9 | .lbR => 10 | .xlR => 11 | .barR => 12

def getOp (a : CoreArch) (o : OpPort) : VVal := vget a.ops (opIndex o)
def setOp (a : CoreArch) (o : OpPort) (x : VVal) : CoreArch := { a with ops := vset a.ops (opIndex o) x }

/-- An operand port read as a 64-bit scalar, lanes 1:0 (R71, R108). -/
def getOpS (a : CoreArch) (o : OpPort) : SVal :=
  let x := getOp a o
  { v := vecToWord x.v, t := x.t, p := x.p }

def getRes (a : CoreArch) (r : PortId) : RPort := vget a.res (resIndex r)
def setRes (a : CoreArch) (r : PortId) (x : RPort) : CoreArch := { a with res := vset a.res (resIndex r) x }

/-- Whether a result port holds vectors: read as a source it yields a vector (R71, R80). -/
def isVecPort : PortId → Bool
  | .vuR | .anvR | .tntR | .laR | .lbR => true
  | _ => false

/-- A scalar value as a vector, lanes 1:0, the others zero (R108). -/
def SVal.toVec (x : SVal) : VVal := { v := wordToVec x.v, t := x.t, p := x.p }

/-- A value taken as a scalar: a vector gives lane 1 × 2^32 + lane 0 (R71). -/
def Val.scalar : Val → SVal
  | .sc x => x
  | .vec x => { v := vecToWord x.v, t := x.t, p := x.p }

/-- A value taken as a vector by broadcast: a scalar gives its low 32 bits in every lane (R71). -/
def Val.broadcast : Val → VVal
  | .sc x => { v := broadcastWord x.v, t := x.t, p := x.p }
  | .vec x => x

/-- A value taken as a vector without broadcast: a scalar gives lanes 1:0 (R108, R177). -/
def Val.lanes : Val → VVal
  | .sc x => x.toVec
  | .vec x => x

def Val.taint : Val → TSet
  | .sc x => x.t
  | .vec x => x.t

def Val.poison : Val → Bool
  | .sc x => x.p
  | .vec x => x.p

/-- The value with taint joined. -/
def Val.join (t : TSet) : Val → Val
  | .sc x => .sc { x with t := x.t ||| t }
  | .vec x => .vec { x with t := x.t ||| t }

def SReg.val (r : SReg) : SVal := { v := r.v, t := r.t, p := r.p }
def VReg.val (r : VReg) : VVal := { v := r.v, t := r.t, p := r.p }
def SVal.reg (x : SVal) : SReg := { v := x.v, t := x.t, p := x.p, dead := false }
def VVal.reg (x : VVal) : VReg := { v := x.v, t := x.t, p := x.p, dead := false }

/-- A scalar with empty taint and no poison. -/
def cleanW (w : Word) : SVal := { v := w, t := 0, p := false }
def cleanV (v : Vec) : VVal := { v := v, t := 0, p := false }

/-- Writes a register or operand port with a value converted as R71, R108 and R177 state; a register becomes live. -/
def writeDst (a : CoreArch) (d : Dst) (x : Val) : CoreArch :=
  match d with
  | .g i => writeG a i x.scalar.reg
  | .v i => { a with regs := { a.regs with v := vset a.regs.v i x.broadcast.reg } }
  | .p i => { a with regs := { a.regs with p := vset a.regs.p i x.scalar.reg } }
  | .a i => { a with regs := { a.regs with a := vset a.regs.a i x.scalar.reg } }
  | .m i => { a with regs := { a.regs with m := vset a.regs.m i x.scalar.reg } }
  | .op .vuA => setOp a .vuA x.broadcast
  | .op .vuB => setOp a .vuB x.broadcast
  | .op .laD => setOp a .laD x.lanes
  | .op .laC => setOp a .laC x.lanes
  | .op .lbD => setOp a .lbD x.lanes
  | .op .lbC => setOp a .lbC x.lanes
  | .op .tntO => setOp a .tntO x.lanes
  | .op o => setOp a o x.scalar.toVec

/-- The issue order of the running slot: later bundles and later slots order above (R58). -/
def orderNo (s : State) (a : CoreArch) : Nat :=
  8 * a.csr.cyc + (match s.issue with | some i => i.slot | none => 0)

/-- A result of the running slot, due `lat` cycles after its issue (R58). -/
def deliver (s : State) (port : PortId) (lat : Nat) (short : Bool) (x : VVal) : State :=
  modArch s (fun a =>
    { a with due := a.due ++ [{ port := port, at_ := a.csr.cyc + lat, ord := orderNo s a, val := x, short := short }] })

/-- A short result of one cycle or more (R34). -/
def deliverS (s : State) (port : PortId) (lat : Nat) (x : SVal) : State := deliver s port lat true x.toVec

/-- Joins a set into the path taint (R232). -/
def joinPath (s : State) (t : TSet) : State := modOrder s (fun o => { o with path := o.path ||| t })

/-- The gang of a core, if it serves one. -/
def gangOf (s : State) (c : Nat) : Option Gang :=
  match (getCore s c).gang with
  | some ctx => (s.hub.gangs.find? (fun e => e.1 = ctx)).map (·.2)
  | none => none

def getGang (s : State) (ctx : Nat) : Option Gang := (s.hub.gangs.find? (fun e => e.1 = ctx)).map (·.2)
def setGang (s : State) (g : Gang) : State := { s with hub := { s.hub with gangs := alPut s.hub.gangs g.ctx g } }
def delGang (s : State) (ctx : Nat) : State := { s with hub := { s.hub with gangs := alDel s.hub.gangs ctx } }

/-- The four cores of each quad of a gang, in rank order (R168): quads ascending, then core-in-quad. -/
def gangCores (g : Gang) : List Nat := g.quads.flatMap (fun q => [4 * q, 4 * q + 1, 4 * q + 2, 4 * q + 3])

/-- The position of an element in a list. -/
def posIn (l : List Nat) (x : Nat) : Nat := (l.takeWhile (fun y => y ≠ x)).length

/-- A task's rank (R168). -/
def rankOf (g : Gang) (c : Nat) : Nat := posIn (gangCores g) c

/-- The tenant of a core's gang, 0 when it has none. -/
def tenantOf (s : State) (c : Nat) : Nat := ((gangOf s c).map (·.tenant)).getD 0

end Sys2Proof.Machine
end

