-- ==== Sys2Proof/Machine/Mem.lean ====
section
/-! DEFINITION. Memory: translation, homes and the perform clock, tokens, sealed lines, the chunk protocol of the stash and
the pod transfers that far accesses become (R199 to R212, R220, R229, R230, R234, R296 to R298, R321 to R324, R344, R360). -/

namespace Sys2Proof.Machine

/-! Addresses. -/

/-- Bytes of a quad's stash (R200). -/
def stashBytes : Nat := 4161536

/-- The model's key of a stash byte and of a chunk. -/
def stashKey (q a : Nat) : Nat := q * 4194304 + a
def chunkKey (q a : Nat) : Nat := q * 65536 + a / 64
/-- The stash key of a chunk's first byte. -/
def chunkBase (key : Nat) : Nat := key / 65536 * 4194304 + key % 65536 * 64

/-- The reserved range of R208. -/
def isHole (pa : Nat) : Bool := decide (0xC000000000 ≤ pa ∧ pa < 0x200000000000) || decide (0x400000000000 ≤ pa)
def isHbm (pa : Nat) : Bool := decide (pa < 0xC000000000)
/-- The home: the die of PA[14:12], or 8 for the host endpoint (R208). -/
def homeOf (pa : Nat) : Nat := if isHbm pa then pa / 4096 % 8 else 8
/-- HBM4E stack and pseudo-channel of an address (R208). -/
def stackOf (pa : Nat) : Nat := pa / 2 ^ 36
def pchanOf (pa : Nat) : Nat := pa / 256 % 64
def frameOf (pa : Nat) : Nat := pa / 2097152

/-! Fields of a micro-context block (R280), by byte offset. -/

def getBlock (s : State) (ctx : Nat) : BitVec 2048 := alGet 0 s.hub.blocks ctx
def blkField (b : BitVec 2048) (off len : Nat) : Nat := natField b.toNat (8 * off) (8 * len)
def blkSet (b : BitVec 2048) (off len v : Nat) : BitVec 2048 :=
  let m : BitVec 2048 := BitVec.ofNat 2048 ((2 ^ (8 * len) - 1) * 2 ^ (8 * off))
  (b &&& ~~~m) ||| (BitVec.ofNat 2048 ((v % 2 ^ (8 * len)) * 2 ^ (8 * off)))
def setBlock (s : State) (ctx : Nat) (b : BitVec 2048) : State :=
  { s with hub := { s.hub with blocks := alSet 0 s.hub.blocks ctx b } }

def blkState (b : BitVec 2048) : Nat := blkField b 0 4 % 16
def blkPrio (b : BitVec 2048) : Nat := blkField b 0 4 / 16 % 8
def blkAged (b : BitVec 2048) : Bool := (blkField b 0 4).testBit 7
def blkWorld (b : BitVec 2048) : Nat := blkField b 4 2
def blkTenant (b : BitVec 2048) : Nat := blkField b 6 1
def blkDieCh (b : BitVec 2048) : Nat := blkField b 0x40 1
def blkPkgCh (b : BitVec 2048) : Nat := blkField b 0x41 1
def blkPodCh (b : BitVec 2048) : Nat := blkField b 0x42 1
def blkPodGrp (b : BitVec 2048) : Nat := blkField b 0x44 2
def setBlkState (b : BitVec 2048) (v : Nat) : BitVec 2048 :=
  blkSet b 0 4 (blkField b 0 4 / 16 * 16 + v % 16)
def setBlkAged (b : BitVec 2048) (v : Bool) : BitVec 2048 :=
  let c := blkField b 0 4
  blkSet b 0 4 (if c.testBit 7 = v then c else if v then c + 128 else c - 128)

/-! Pools and pages (R258 to R260). -/

/-- The pool a block names (R258, R280). -/
def poolNo (s : State) (ctx : Nat) : Nat := blkField (getBlock s ctx) 0x1C 4
def getPool (s : State) (n : Nat) : Option Pool := (s.hub.pools.find? (fun e => e.1 = n)).map (·.2)
/-- The pool of a block, which is a pool of the block's world (R258). -/
def poolOf (s : State) (ctx : Nat) : Option Pool :=
  if poolNo s ctx = 0xFFFFFFFF then none
  else (getPool s (poolNo s ctx)).filter (fun p => decide (p.world = blkWorld (getBlock s ctx)))

/-- Head dimension and element size (R258, R259). -/
def headDim (dsel : Nat) : Nat := 64 * 2 ^ dsel
def elemSize (fmt : Nat) : Nat := if fmt = 2 then 2 else 1

def Pool.pages (p : Pool) : Nat := 4096 * p.groups
def Pool.dim (p : Pool) : Nat := headDim p.dsel
/-- Bytes of a key or of a value of one slot, and of a page's data. -/
def Pool.slotBytes (p : Pool) : Nat := p.dim * elemSize p.fmt
def Pool.pageBytes (p : Pool) : Nat := 128 * p.slotBytes
/-- The stack of a page. -/
def Pool.stack (p : Pool) (page : Nat) : Nat := nthD p.gstack (page / 4096) 0

/-- Whether a virtual address lies in a pool's data region, or in its metadata region. -/
def Pool.inData (p : Pool) (va : Nat) : Bool := decide (p.dvbase ≤ va ∧ va < p.dvbase + p.pages * p.pageBytes)
def Pool.inMeta (p : Pool) (va : Nat) : Bool := decide (p.mvbase ≤ va ∧ va < p.mvbase + p.pages * 512)

/-- The address space that translates a virtual page of a micro-context: its own, but a page of a pool's regions is the pool's, one
for every micro-context that names the pool (R258; log entry 73). -/
def spaceOf (s : State) (ctx vpage : Nat) : Nat :=
  match poolOf s ctx with
  | some p => if p.inData (2097152 * vpage) || p.inMeta (2097152 * vpage) then 16384 + poolNo s ctx else ctx
  | none => ctx

/-- Whether an address space translates pages of a micro-context. -/
def spaceServes (s : State) (space ctx : Nat) : Bool := decide (space = ctx ∨ space = 16384 + poolNo s ctx)

/-- The pool whose regions an address space is, if it is one. -/
def spacePool (s : State) (space : Nat) : Option Pool := if 16384 ≤ space then getPool s (space - 16384) else none

/-- Fields of a leaf entry (R211). -/
def leafV (e : BitVec 64) : Bool := e.getLsbD 0
def leafW (e : BitVec 64) : Bool := e.getLsbD 1
def leafSh (e : BitVec 64) : Bool := e.getLsbD 2
def leafHome (e : BitVec 64) : Nat := natField e.toNat 3 2
def leafFrame (e : BitVec 64) : Nat := natField e.toNat 21 25 * 2097152
def leafPkg (e : BitVec 64) : Nat := natField e.toNat 46 10

/-- The index that a virtual address has at a level of the translation tables: VA[47:39], VA[38:30] and VA[29:21] (R211). -/
def levelIndex (level va : Nat) : Nat := natField va (39 - 9 * level) 9

/-- The key of a virtual page of an address space: the space's number, then the page's index at each level (R211; log entry 8). -/
def pageKey (space vpage : Nat) : Nat :=
  let va := 2097152 * vpage
  space * 134217728 + levelIndex 0 va * 262144 + levelIndex 1 va * 512 + levelIndex 2 va

/-- The address space and the virtual page of a key. -/
def keySpace (key : Nat) : Nat := key / 134217728
def keyPage (key : Nat) : Nat := key % 134217728

/-- The leaf entry of a virtual address of a micro-context, reached through the three levels; all zero (invalid) when none was
placed. -/
def leafOf (s : State) (ctx va : Nat) : BitVec 64 := alGet 0#64 s.xlat (pageKey (spaceOf s ctx (va / 2097152)) (va / 2097152))

/-- Whether a leaf entry names memory that exists (R208, R211). -/
def leafOk (e : BitVec 64) : Bool :=
  leafV e && (match leafHome e with
    | 0 => isHbm (leafFrame e)
    | 1 => decide (0x200000000000 ≤ leafFrame e)
    | 2 => true
    | _ => false)

/-- Whether a page is being invalidated by the host or its frame migrated: translations of it are late until that is over (R212, R214,
R215). -/
def pageMoving (s : State) (ctx va : Nat) : Bool :=
  let e := leafOf s ctx va
  (decide (leafHome e = 0) && s.edge.migrating.any (fun m => m.1 = frameOf (leafFrame e))) ||
    (decide (leafHome e = 1) && s.edge.invalidating.any (fun x =>
      decide (x.ctx = ctx ∧ x.range.vpage ≤ va / 2097152 ∧ va / 2097152 < x.range.vpage + x.range.pages)))

/-- Whether a translation of an address can be made now. -/
def pageReady (s : State) (ctx va : Nat) : Bool := leafOk (leafOf s ctx va) && !pageMoving s ctx va

/-- The place an address has under a leaf entry. -/
def leafLoc (e : BitVec 64) (off : Nat) : Loc :=
  { peer := if leafHome e = 2 then some (leafPkg e) else none, pa := leafFrame e + off % 2097152 }

/-- The place of a virtual address, when its page is translated. -/
def locOf (s : State) (ctx va : Nat) : Option Loc :=
  let e := leafOf s ctx va
  if leafOk e then some (leafLoc e va) else none

/-- The place of the line that holds a place. -/
def lineLoc (l : Loc) : Loc := { l with pa := l.pa / 64 * 64 }

/-! The perform clock and tokens. -/

/-- Perform stamps are counted in parts of a fabric cycle, so that the accesses of one cycle have an order among themselves
(R203, R220; log entry 3). -/
def stampUnit : Nat := 4294967296

/-- The fabric cycle from module reset in which a stamp falls: always two a period (R20). -/
def fabricCycle (stamp : Nat) : Nat := stamp / stampUnit

/-- The clock at the start of a period. -/
def clockAt (now : Nat) : Nat := 2 * now * stampUnit

/-- The next perform stamp. -/
def nextStamp (s : State) : Nat × State :=
  let n := max (s.clock + 1) (clockAt s.now)
  (n, { s with clock := n })

/-- Lines an L2 holds: 1 GiB of them (R13). -/
def l2Lines : Nat := 16777216

/-- The home L2 has the line that an access of an HBM address found or wrote; the line longest unused makes room (R209, R210; log
entry 66). -/
def touchL2 (s : State) (pa : Nat) : State :=
  if isHbm pa then modDie s (homeOf pa) (fun d => { d with l2 := (pa / 64 :: d.l2.erase (pa / 64)).take l2Lines }) else s

/-- The bucket of a tenant on a die. -/
def getBucket (d : Die) (t : Nat) : Bucket := alGet { share := 0, tokens := 0, took := false } d.buckets t
def setBucket (d : Die) (t : Nat) (b : Bucket) : Die := { d with buckets := alPut d.buckets t b }

/-- A wait enters the queue of its die: in the order in which lines reach the bucket, those of one period in core id order (R298). -/
def insertWait (w : TokenWait) : List TokenWait → List TokenWait
  | [] => [w]
  | x :: rest => if w.at_ < x.at_ ∨ (w.at_ = x.at_ ∧ w.core < x.core) then w :: x :: rest else x :: insertWait w rest

/-- Takes tokens of a tenant on a die for `n` lines of an access, or lets those wait for which none is left (R296, R298). -/
def takeTokensOf (s : State) (dn t core ident n : Nat) : Bool × State :=
  let d := getDie s dn
  if d.granted.contains ident then (true, setDie s dn { d with granted := d.granted.erase ident })
  else if d.waitq.any (fun w => w.core = core && w.ident = ident) then (false, s)
  else
    let b := getBucket d t
    let k := if d.waitq.any (fun w => w.tenant = t) then 0 else min n b.tokens
    let d1 := if k = 0 then d else setBucket d t { b with tokens := b.tokens - k, took := true }
    if k = n then (true, setDie s dn d1)
    else
      let w : TokenWait := { tenant := t, core := core, ident := ident, lines := n - k, at_ := s.now }
      (false, setDie s dn { d1 with waitq := insertWait w d1.waitq })

/-- Takes tokens for `n` lines of an access of a core. -/
def takeTokens (s : State) (core ident n : Nat) : Bool × State := takeTokensOf s (dieOf core) (tenantOf s core) core ident n

/-- Takes a token for one line of an access of a core, or lets the line wait. -/
def takeToken (s : State) (core ident : Nat) : Bool × State := takeTokens s core ident 1

/-- Writebacks at the end of a gang and of a window take what tokens of their quad's tenant are left, and do not wait (R296; log entry
23). -/
def chargeTokens (s : State) (core n : Nat) : State :=
  let d := getDie s (dieOf core)
  let b := getBucket d (tenantOf s core)
  let k := min n b.tokens
  if 0 < k then setDie s (dieOf core) (setBucket d (tenantOf s core) { b with tokens := b.tokens - k, took := true }) else s

/-! Buffers and sealed lines. -/

/-- Fields of a launch record (R284), numbered by byte offset. -/
def recField (r : BitVec 8192) (off len : Nat) : Nat := natField r.toNat (8 * off) (8 * len)

/-- The buffers a launch record names: number, access, virtual base, length (R284). -/
def recBufs (r : BitVec 8192) : List (Nat × Nat × Nat × Nat) :=
  (range' 0 (min 32 (natField (recField r 0x10 4) 0 6))).map (fun b =>
    let x := recField r (0x200 + 16 * b) 8
    (natField x 0 20, natField x 20 2, recField r (0x208 + 16 * b) 8, natField x 32 32))

/-- The virtual address of an HBM address, from the page its frame backs. -/
def vaOf (s : State) (pa : Nat) : Option (Nat × Nat) :=
  match s.frames.find? (fun e => e.1 = frameOf pa) with
  | some (_, f) => f.page.map (fun p => (p.1, p.2 * 2097152 + pa % 2097152))
  | none => none

/-- The buffer of a list that holds a virtual address: its number and access. -/
def bufAt (l : List (Nat × Nat × Nat × Nat)) (va : Nat) : Option (Nat × Nat) :=
  (l.find? (fun b => decide (b.2.2.1 ≤ va ∧ va < b.2.2.1 + b.2.2.2))).map (fun b => (b.1, b.2.1))

/-- The buffers that the launch records of a micro-context name. -/
def blockBufs (s : State) (ctx : Nat) : List (Nat × Nat × Nat × Nat) :=
  match (s.hub.blocks.find? (fun e => e.1 = ctx)).bind (fun e => s.hub.segs.find? (fun g => g.1 = blkField e.2 0x28 8)) with
  | some (_, g) => g.recs.flatMap recBufs
  | none => []

/-- The buffer that a line of HBM belongs to, and whether the accessing launch names it W or RW: a buffer of that launch's record, else
one of another record of the micro-context; a line of a pool belongs to none (R322; log entry 83). -/
def lineBuf (s : State) (g : Option Gang) (pa : Nat) : Option (Nat × Bool) :=
  match vaOf s pa with
  | none => none
  | some (space, va) =>
    if 16384 ≤ space then none
    else
      match g.bind (fun g => bufAt (recBufs g.record) va) with
      | some (n, acc) => some (n, decide (acc ≠ 1))
      | none => (bufAt (blockBufs s space) va).map (fun b => (b.1, false))

def getBuf (s : State) (n : Nat) : BufEntry :=
  alGet { version := 0, world := 0, whole := false, writers := [], readers := [], last := 0, sweep := false } s.hub.buffers n

/-- The version a write of a launch, or of another party, seals a line with: VERSION + 1 for a launch that names its buffer W or RW,
else VERSION; a line outside every buffer has version 0 (R322). -/
def writeVersion (s : State) (g : Option Gang) (pa : Nat) : Nat :=
  match lineBuf s g pa with
  | some (n, writes) => let v := (getBuf s n).version; if writes then (v + 1) % 2 ^ 32 else v
  | none => 0

/-- The version at or below a bound that ends in the stored 8 bits (R323). -/
def versionBelow (bound stored : Nat) : Nat := (bound + 2 ^ 32 - (bound + 256 - stored % 256) % 256) % 2 ^ 32

/-- Whether a read by a launch, or by another party, opens a line (R323): the version rebuilt from its low 8 bits is the one it was
sealed with, and a whole-write buffer's line is current. -/
def lineOpens (s : State) (g : Option Gang) (pa : Nat) : Bool :=
  let stored := alGet 0 s.lineVer (pa / 64)
  let bound := writeVersion s g pa
  let v := versionBelow bound stored
  decide (v = stored) &&
    match lineBuf s g pa with
    | some (n, writes) => !(getBuf s n).whole || decide (v = bound) || (writes && decide (v = (getBuf s n).version))
    | none => true

/-- The key slot of a world (R316, R318). -/
def keyOf (s : State) (world : Nat) : Option (Nat × KeySlot) := s.hub.keys.find? (fun e => e.2.world = world && e.2.st ≠ 0)

/-- Line encryptions under the generation that new writes are sealed under, saturating (R318). -/
def keyUses (k : KeySlot) : Nat := if k.gen then k.uses1 else k.uses0

/-- Counts sealed lines against the world's key slot (R319). -/
def countSeals (s : State) (world lines : Nat) : State :=
  match keyOf s world with
  | none => s
  | some (n, k) =>
    let k' := if k.gen then { k with uses1 := min (k.uses1 + lines) (2 ^ 44 - 1) }
      else { k with uses0 := min (k.uses0 + lines) (2 ^ 44 - 1) }
    { s with hub := { s.hub with keys := alPut s.hub.keys n k' } }

/-- The world that owns the frame of an HBM address. -/
def worldAt (s : State) (pa : Nat) : Option Nat := (s.frames.find? (fun e => e.1 = frameOf pa)).map (·.2.world)

/-- Counts a line sealed at an HBM address (R319). -/
def countSeal (s : State) (pa : Nat) : State :=
  match worldAt s pa with
  | some w => countSeals s w 1
  | none => s

/-- Whether a write to an HBM address waits for a rekey: the generation it would seal under has no uses left (R319). -/
def sealWaits (s : State) (l : Loc) : Bool :=
  l.peer.isNone && isHbm l.pa && match (worldAt s l.pa).bind (keyOf s) with
    | some (_, k) => decide (2 ^ 44 - 1 ≤ keyUses k)
    | none => false

/-- Whether a line fails its integrity check whoever reads it (R360). -/
def isBad (s : State) (pa : Nat) : Bool := alGet false s.bad (pa / 64)

/-- Marks a line failed; the failure is logged once, with its world and its line, which gives its frame (R323, R360). -/
def markBad (s : State) (pa : Nat) : State :=
  if isBad s pa then s
  else { s with bad := alSet false s.bad (pa / 64) true,
                edge := { s.edge with logs := s.edge.logs ++ [(1, (worldAt s pa).getD 0, pa / 64)], alerts := s.edge.alerts + 1,
                                      pins := { s.edge.pins with alertN := false } } }

/-- Before a write of some bytes of a line, which opens it to merge them: a line that does not open is found failed (R323, R360). -/
def openForMerge (s : State) (g : Option Gang) (pa : Nat) (mask : BitVec 64) : State :=
  if isHbm pa ∧ mask ≠ BitVec.allOnes 64 ∧ lineOpens s g pa = false then markBad s pa else s

/-- Writes masked bytes of a line at its home, sealing it anew (R321, R322, R360). A partial write of a failed line leaves it
failed. -/
def homeWrite (s0 : State) (g : Option Gang) (pa : Nat) (mask : BitVec 64) (data : BitVec 512) : State :=
  let s := openForMerge s0 g pa mask
  if isBad s pa ∧ mask ≠ BitVec.allOnes 64 then s
  else
    let far := (range' 0 64).foldl
      (fun m i => if mask.getLsbD i then memWrite m (pa + i) (data.extractLsb' (8 * i) 8) else m) s.far
    let s1 := { s with far := far, bad := alSet false s.bad (pa / 64) false }
    if isHbm pa then
      touchL2 (countSeal { s1 with
        lineVer := alSet 0 s1.lineVer (pa / 64) (writeVersion s1 g pa),
        frames := s1.frames.map (fun e => if e.1 = frameOf pa then (e.1, { e.2 with changed := true }) else e) } pa) pa
    else s1

/-- FILL in the metadata at an address of a pool's space (R260): as its frame holds it, as the drives do; 0, a free page's, where it was
never written. -/
def metaFill (s : State) (space va : Nat) : Nat :=
  let vp := va / 2097152
  let e := alGet 0#64 s.xlat (pageKey space vp)
  if leafOk e then memReadNat s.far (leafLoc e va).pa 4
  else
    match s.frames.find? (fun f => f.2.page = some (space, vp)), s.edge.drives.find? (fun d => d.1 = pageKey space vp) with
    | some (f, _), _ => memReadNat s.far (2097152 * f + va % 2097152) 4
    | none, some (_, x) => leNat ((range' (va % 2097152) 4).map (alGet memDefault x.bytes))
    | none, none => 0

/-- Whether a line of HBM lies in a slot at or above the fill count of its key-value page: its bytes are unpredictable (R260). -/
def slotOpen (s : State) (pa : Nat) : Bool :=
  match (s.frames.find? (fun e => e.1 = frameOf pa)).bind (fun e => e.2.page) with
  | none => false
  | some (space, vp) =>
    match spacePool s space with
    | none => false
    | some p =>
      let off := 2097152 * vp + pa % 2097152 - p.dvbase
      p.inData (2097152 * vp + pa % 2097152) &&
        decide (metaFill s space (p.mvbase + 512 * (off / p.pageBytes)) ≤ off % p.pageBytes / p.slotBytes % 64)

/-- The 64 bytes of a line in far memory; those of an open slot are free values, new at each reading (R8, R260; log entry 5). -/
def homeBytes (s : State) (pa : Nat) : List Byte :=
  if isHbm pa && slotOpen s pa then (range' pa 64).map (fun a => Config.freeByte (2 ^ 64 * (s.clock + 1) + a))
  else memReadN s.far pa 64

/-! The chunk protocol. -/

/-- The chunk that holds a line registered at its home. -/
def registered (s : State) (pa : Nat) : Option Nat :=
  ((getDie s (homeOf pa)).dir.find? (fun e => e.1 = pa / 64)).map (·.2)

def getChunk (s : State) (key : Nat) : Option Chunk := (s.chunks.find? (fun e => e.1 = key)).map (·.2)
def putChunk (s : State) (key : Nat) (c : Chunk) : State := { s with chunks := alPut s.chunks key c }
def dropChunk (s : State) (key : Nat) : State := { s with chunks := alDel s.chunks key }

/-- The 64 stash bytes of a chunk, and whether any is poisoned. -/
def chunkBytes (s : State) (key : Nat) : List Byte := memReadN s.stash (chunkBase key) 64
def chunkBad (s : State) (key : Nat) : Bool := (range' (chunkBase key) 64).any (fun k => alGet false s.sbad k)

/-- A 512-bit line from its bytes. -/
def lineOfBytes (bs : List Byte) : BitVec 512 := bvOfBytes 512 bs

/-- Reads a line at its home for another party (R204, R220): registered bytes are forwarded, a failed line arrives poisoned
(R234). -/
def readLine (s : State) (g : Option Gang) (pa : Nat) : List Byte × Bool :=
  match registered s pa with
  | some key => (chunkBytes s key, chunkBad s key)
  | none => (homeBytes s pa, isBad s pa || (isHbm pa && !lineOpens s g pa))

/-- The state after a read: the L2 has the line, and one that does not open stays failed (R210, R360). -/
def noteRead (s : State) (g : Option Gang) (pa : Nat) : State :=
  match registered s pa with
  | some _ => s
  | none => touchL2 (if isHbm pa ∧ ¬ lineOpens s g pa then markBad s pa else s) pa

/-- The core whose rollback a quad is held for (R311). -/
def quadHold (s : State) (q : Nat) : Option Nat := (getQuad s q).hold

/-- The chunk of this module that holds the line at a place in state D: registered at its home, or noted here for a line of a peer
module (R204; log entry 68). -/
def holderOf (s : State) (l : Loc) : Option Nat :=
  match l.peer with
  | none => registered s l.pa
  | some _ => (s.hub.peerDir.find? (fun e => e.1 = lineLoc l)).map (·.2)

/-- Whether forwards and recalls of the line at a place wait, its D chunk standing in a held quad (R311). -/
def lineHeld (s : State) (l : Loc) : Bool :=
  match holderOf s l with
  | some key => (quadHold s (key / 65536)).isSome
  | none => false

/-- Removes a line from its home's directory. -/
def unregister (s : State) (pa : Nat) : State :=
  modDie s (homeOf pa) (fun d => { d with dir := d.dir.filter (fun e => e.1 ≠ pa / 64) })

/-- The gang whose quad holds a chunk. -/
def chunkGang (s : State) (key : Nat) : Option Gang :=
  match (getQuad s (key / 65536)).busy with
  | some ctx => getGang s ctx
  | none => none

/-- Writes a D chunk's marked bytes to the home and leaves it C with the writeback's stamp (R204). -/
def writebackChunk (s : State) (key pa : Nat) : State :=
  match getChunk s key with
  | none => unregister s pa
  | some c =>
    let (n, s1) := nextStamp s
    let s2 := if c.dirty then homeWrite s1 (chunkGang s1 key) pa c.mask (lineOfBytes (chunkBytes s1 key)) else s1
    putChunk (unregister s2 pa) key { dirty := false, stamp := n, mask := 0 }

/-- Recalls a registration before another party writes (R204). -/
def recallLine (s : State) (pa : Nat) : State :=
  match registered s pa with
  | some key => writebackChunk s key pa
  | none => s

/-- The writeback of a line by the identity under which it waits for its token. -/
def recallIdent (l : Loc) : Nat := 2 ^ 96 + (match l.peer with | some p => (p + 1) * 2 ^ 64 | none => 0) + l.pa / 64

/-- The core whose port the writeback of a D chunk crosses: the first of the chunk's quad. -/
def recallCore (key : Nat) : Nat := 4 * (key / 65536)

/-- Whether the token of a writeback that an access of the line forces can be asked for: the line has no D chunk of this module, or its
writeback waits in no queue (R298). -/
def recallAskable (s : State) (l : Loc) : Bool :=
  match holderOf s l with
  | none => true
  | some key =>
    let d := getDie s (dieOf (recallCore key))
    d.granted.contains (recallIdent l) || !d.waitq.any (fun w => w.ident = recallIdent l)

/-- Takes the token of the writeback that an access of a line forces, if it forces one (R296, R298). -/
def recallToken (s : State) (l : Loc) : Bool × State :=
  match holderOf s l with
  | none => (true, s)
  | some key => takeToken s (recallCore key) (recallIdent l)

/-- A token that a writeback has taken is kept for it while something else is awaited. -/
def keepGrant (s : State) (l : Loc) : State :=
  match holderOf s l with
  | none => s
  | some key => modDie s (dieOf (recallCore key)) (fun d => { d with granted := recallIdent l :: d.granted })

/-- Takes the tokens of the writebacks that accesses of these lines force, all of them or none. -/
def takeRecalls : List Loc → State → Bool × State
  | [], s => (true, s)
  | l :: ls, s =>
    match recallToken s l with
    | (false, s1) => (false, s1)
    | (true, s1) =>
      match takeRecalls ls s1 with
      | (true, s2) => (true, s2)
      | (false, s2) => (false, keepGrant s2 l)

/-- Takes the token of an access and those of the writebacks that it forces, all of them or none (R296, R298). -/
def takeWithRecalls (s : State) (core ident : Nat) (l : List Loc) : Bool × State :=
  match takeRecalls l s with
  | (false, s1) => (false, s1)
  | (true, s1) =>
    match takeToken s1 core ident with
    | (true, s2) => (true, s2)
    | (false, s2) => (false, l.foldl keepGrant s2)

/-- Writes masked bytes of a line for another party: a registration is recalled first (R204). -/
def writeLine (s : State) (g : Option Gang) (pa : Nat) (mask : BitVec 64) (data : BitVec 512) : State :=
  homeWrite (recallLine s pa) g pa mask data

/-- Stash bytes written; the tags of the words they lie in become invalid and the bytes good (R113). -/
def stashWrite (s : State) (q a : Nat) (bs : List Byte) : State :=
  let k := stashKey q a
  let n := bs.length
  { s with stash := memWriteN s.stash k bs,
           sbad := s.sbad.filter (fun e => decide (e.1 < k ∨ k + n ≤ e.1)),
           tags := s.tags.filter (fun e => decide (e.1 + 8 ≤ k ∨ k + n ≤ e.1)) }

/-- Marks stash bytes poisoned. -/
def stashPoison (s : State) (q a n : Nat) : State :=
  { s with sbad := (range' (stashKey q a) n).foldl (fun m k => alPut m k true) s.sbad }

def stashBad (s : State) (q a n : Nat) : Bool := (range' (stashKey q a) n).any (fun k => alGet false s.sbad k)

/-- A chunk takes its line's bytes with the stamp of the read that brought them, and is C (R204). -/
def placeLine (s : State) (key n : Nat) (bytes : List Byte) (bad : Bool) : State :=
  let q := key / 65536
  let a := key % 65536 * 64
  let s2 := stashWrite s q a bytes
  let s3 := if bad then stashPoison s2 q a 64 else s2
  putChunk s3 key { dirty := false, stamp := n, mask := 0 }

/-- Fills a chunk from its line, or refetches it (R204): the new stamp, and the chunk C. -/
def fillChunk (s : State) (key : Nat) (bytes : List Byte) (bad : Bool) : Nat × State :=
  let (n, s1) := nextStamp s
  (n, placeLine s1 key n bytes bad)

/-- The registration that a full directory gives up for another (R210): its oldest. -/
def evictedLine (s : State) (pa : Nat) : Option Nat :=
  let d := getDie s (homeOf pa)
  if d.dir.length < 1048576 then none else d.dir.head?.map (fun e => e.1 * 64)

/-- The lines of this module whose registrations a registration recalls first: its own, and the oldest of a full directory. -/
def recallsFor (s : State) (pa : Nat) : List Loc :=
  { peer := none, pa := pa } :: (match evictedLine (recallLine s pa) pa with | some p => [{ peer := none, pa := p }] | none => [])

/-- Whether a recall has to wait: its D chunk stands in a held quad (R311), or its writeback would seal under a generation that has no
uses left (R319). -/
def recallHeld (s : State) (l : Loc) : Bool := lineHeld s l || ((holderOf s l).isSome && sealWaits s l)

/-- Registers a line in a chunk (R204): another registration is recalled first, the oldest of a full directory too (R210), the
line is returned into the chunk, and the chunk is D with nothing written yet. -/
def registerChunk (s : State) (key : Nat) (pa : Nat) : Nat × State :=
  let s0 := recallLine s pa
  let s1 := match evictedLine s0 pa with | some p => recallLine s0 p | none => s0
  let g := chunkGang s1 key
  let (bytes, bad) := readLine s1 g pa
  let (n, s2) := fillChunk (noteRead s1 g pa) key bytes bad
  let s3 := putChunk s2 key { dirty := true, stamp := n, mask := 0 }
  (n, modDie s3 (homeOf pa) (fun d => { d with dir := d.dir ++ [(pa / 64, key)] }))

/-! Regions of a stash. -/

/-- The region a stash address lies in (R202). -/
inductive Region where
  | temp
  | mapped (n : Nat) (w : Window)
  | unassigned
  deriving DecidableEq, Repr

def windowBytes (w : Window) : Nat := w.rows * w.rowBytes

def regionOf (s : State) (q a : Nat) : Region :=
  let qd := getQuad s q
  if qd.temps.any (fun t => decide (t.base ≤ a ∧ a < t.base + t.len)) then .temp
  else
    match qd.windows.find? (fun e => decide (e.2.base ≤ a ∧ a < e.2.base + windowBytes e.2)) with
    | some (n, w) => .mapped n w
    | none => .unassigned

/-- The virtual address a window gives a stash address (R165). -/
def windowVa (w : Window) (a : Nat) : Nat :=
  let off := a - w.base
  w.vbase + off / w.rowBytes * w.rowStride + off % w.rowBytes

/-- The place of the line a chunk of a window caches. -/
def chunkLoc (s : State) (w : Window) (a : Nat) : Option Loc := locOf s w.ctx (windowVa w (a / 64 * 64))

/-- Whether the range of stash bytes lies in regions of the gang (R202): checked chunk by chunk. -/
def spanAssigned (s : State) (q a n : Nat) : Bool :=
  decide (a + n ≤ stashBytes) &&
    (range' (a / 64) (if n = 0 then 0 else (a + n - 1) / 64 - a / 64 + 1)).all (fun k => decide (regionOf s q (64 * k) ≠ .unassigned))

/-- Whether a gang leases the page of an address read-write. -/
def leaseWritable (g : Option Gang) (va : Nat) : Bool :=
  match g with
  | none => true
  | some g => g.lease.any (fun r => r.rw && decide (r.vpage ≤ va / 2097152 ∧ va / 2097152 < r.vpage + r.pages))

/-- Whether a quad write to a chunk is protected (R206): RO window, read-only or stack-homed page, a range leased read-only. A page
whose translation is away is neither read-only nor stack-homed for that. -/
def chunkProtected (s : State) (q a : Nat) : Bool :=
  match regionOf s q a with
  | .mapped _ w =>
    let va := windowVa w (a / 64 * 64)
    let e := leafOf s w.ctx va
    w.ro || (leafV e && (!leafW e || leafSh e)) || !leaseWritable (getGang s w.ctx) va
  | _ => false

def spanProtected (s : State) (q a n : Nat) : Bool :=
  (range' (a / 64) (if n = 0 then 0 else (a + n - 1) / 64 - a / 64 + 1)).any (fun k => chunkProtected s q (64 * k))

/-! Pod transfers (R344). -/

/-- This module's identity (R17). -/
def modIdent (s : State) : Nat := s.edge.podid * 1024 + s.edge.pkgid

/-- A port of the mask with its link up, the lowest-numbered (R347). -/
def pickPort (s : State) (mask : Nat) : Option Nat := (range' 0 8).find? (fun p => mask.testBit p && s.edge.links.getLsbD p)

def emit (s : State) (o : Outgoing) : State := { s with edge := { s.edge with outbox := s.edge.outbox ++ [o] } }

def getSession (s : State) (n : Nat) : Option Session := (s.hub.sessions.find? (fun e => e.1 = n)).map (·.2)
def setSession (s : State) (n : Nat) (x : Session) : State := { s with hub := { s.hub with sessions := alPut s.hub.sessions n x } }

/-- Takes the next outgoing SEQ; none when the session stops sending at 2^63 (R338). -/
def SeqState.take (x : SeqState) : Option Nat × SeqState :=
  if x.out < 2 ^ 63 then (some x.out, { x with out := x.out + 1 }) else (none, x)

/-- Whether an arriving SEQ is fresh (R338). -/
def SeqState.fresh (x : SeqState) (n : Nat) : Bool :=
  match x.high with
  | none => true
  | some h => decide (h < n) || (decide (h - n ≤ 63) && !x.window.getLsbD (h - n))

/-- Marks an accepted SEQ (R338). -/
def SeqState.mark (x : SeqState) (n : Nat) : SeqState :=
  match x.high with
  | none => { x with high := some n, window := 1 }
  | some h =>
    if h < n then { x with high := some n, window := (x.window <<< (n - h)) ||| 1 }
    else { x with window := x.window ||| (1#64 <<< (h - n)) }

/-- The next outgoing SEQ of a tenant's session; none when there is none to take. -/
def takeSeq (s : State) (n : Nat) : Option Nat × State :=
  match getSession s n with
  | none => (none, s)
  | some x => let (q, y) := x.sq.take; (q, setSession s n { x with sq := y })

/-- The SEQ state of session 0 for a peer (R339). -/
def getPeer (s : State) (m : Nat) : SeqState := alGet SeqState.reset s.hub.peers m
def setPeer (s : State) (m : Nat) (x : SeqState) : State := { s with hub := { s.hub with peers := alPut s.hub.peers m x } }

/-- Bytes of a frame with a body of `n` bytes: the Ethernet, IP, UDP and Uludin headers, the body, its tag and the FCS (R343). -/
def frameBytes (w : Way) (n : Nat) : Nat :=
  14 + (if w.tag.isSome then 4 else 0) + (if w.v6 then 40 else 20) + 8 + 40 + n + 16 + 4

/-- Periods a frame occupies its port at 800 Gb/s (R337). -/
def frameTime (w : Way) (n : Nat) : Nat := ceilDiv (frameBytes w n * 940) 100000

/-- Sends a frame on a port after the frames before it (R341, R358). -/
def sendFrame (s : State) (port cls ctx session rid seq status modid : Nat) (body : List Byte) (way : Way) : State :=
  let t := max s.now (alGet 0 s.edge.busyUntil port)
  { s with edge := { s.edge with outbox := s.edge.outbox ++ [.frame port cls ctx session rid seq status modid body way t],
                                 busyUntil := alPut s.edge.busyUntil port (t + frameTime way body.length) } }

/-- The address-table entry of a module. -/
def addrOf (s : State) (ident : Nat) : Option AddrEntry := (s.hub.addrTable.find? (fun e => e.1 = ident)).map (·.2)

/-- The module's own address of an IP version, from the entry for its own identity (R343, R347); none when it has none. -/
def ownAddress (s : State) (v6 : Bool) : Option (BitVec 128) :=
  (addrOf s (modIdent s)).bind (fun a => if v6 then a.v6 else a.v4.map (·.setWidth 128))

/-- The MAC address of a port. -/
def portMac (s : State) (port : Nat) : BitVec 48 := alGet 0 s.edge.macs port

/-- The UDP port of Uludin frames (R335). -/
def uludinPort : Nat := 47334

/-- How a reply is addressed: back to where its request came from (R343). -/
def replyWay (s : State) (port : Nat) (o : Origin) : Way :=
  { ethDst := o.mac, ethSrc := portMac s port, tag := o.tag, v6 := o.v6, ipSrc := o.dst, ipDst := o.src, hops := 64, dscp := o.dscp,
    udpSrc := uludinPort, udpDst := o.udp.toNat }

/-- How a frame to another module is addressed (R343): by its entry, over IPv6 when that has an IPv6 address. -/
def moduleWay (s : State) (port : Nat) (a : AddrEntry) : Way :=
  { ethDst := a.mac, ethSrc := portMac s port, tag := none, v6 := a.v6.isSome, ipSrc := (ownAddress s a.v6.isSome).getD 0,
    ipDst := (a.v6 <|> a.v4.map (·.setWidth 128)).getD 0, hops := 64, dscp := 0, udpSrc := uludinPort, udpDst := uludinPort }

/-- Sends a frame of session 0 to a module (R343, R346). -/
def sendPod (s : State) (cls dest rid : Nat) (body : List Byte) : State :=
  match (if s.edge.podKey.isSome then addrOf s dest else none) with
  | none => emit s (.dropped cls 0 rid)
  | some a =>
    match pickPort s a.ports with
    | none => emit s (.dropped cls 0 rid)
    | some p =>
      match (getPeer s dest).take with
      | (some sq, x) => sendFrame (setPeer s dest x) p cls 0 0 rid sq 0 dest body (moduleWay s p a)
      | (none, _) => emit s (.dropped cls 0 rid)

/-- The body of a PLOAD, PSTORE or PATOM (R346). -/
def podBody (x : PodXfer) : List Byte :=
  leBytes x.num 4 ++ leBytes x.world 2 ++ leBytes x.fn 1 ++ [0#8] ++ leBytes (x.peer * 2 ^ 46 + x.pa) 8 ++
    leBytes x.mask.toNat 8 ++ leBytes 0 8 ++ (if x.cls = 0x40 then [] else x.data)

/-- Starts a pod transfer of one line (R344). -/
def startXfer (s : State) (core ident kind cls fn : Nat) (l : Loc) (mask : BitVec 64) (data : List Byte) : Nat × State :=
  let world := ((gangOf s core).map (·.world)).getD 0
  let n := s.hub.nextXfer
  let (t, s0) := nextStamp s
  let x : PodXfer :=
    { num := n, core := core, ident := ident, kind := kind, peer := l.peer.getD 0, world := world, cls := cls,
      fn := fn, pa := l.pa, mask := mask, data := data, stamp := t, sentAt := s.now, resends := 0 }
  let s1 := { s0 with hub := { s.hub with xfers := s.hub.xfers ++ [x], nextXfer := (n + 1) % 2 ^ 32 } }
  (n, sendPod s1 cls (s.edge.podid * 1024 + x.peer) n (podBody x))

/-- The colour under which a fill's stamp is noted. -/
def fillColour (x : PodXfer) : Option (Fin 16) :=
  match x.data with
  | [b] => if x.kind = 1 then some (Fin.ofNat 16 b.toNat) else none
  | _ => none

/-- Whether a transfer of this kind for this access is under way. -/
def xferPending (s : State) (kind ident : Nat) : Bool := s.hub.xfers.any (fun x => x.kind = kind && x.ident = ident)

/-- Whether a transfer of a line of a peer module is under way: what follows it there waits, so that the line's transfers keep their
order (R344). -/
def peerBusy (s : State) (l : Loc) : Bool :=
  l.peer.isSome && s.hub.xfers.any (fun x => decide (0x40 ≤ x.cls ∧ x.cls ≤ 0x42) && decide (some x.peer = l.peer) &&
    decide (x.pa / 64 = l.pa / 64))

/-- The bytes of 64 bits of a mask over a run of bytes: bit i set when byte i of the line lies in the run. -/
def runMask (off len : Nat) : BitVec 64 := BitVec.ofNat 64 ((2 ^ len - 1) * 2 ^ off)

/-- Removes a chunk from the lines of peers that this module holds. -/
def unregisterPeer (s : State) (key : Nat) : State :=
  { s with hub := { s.hub with peerDir := s.hub.peerDir.filter (fun e => e.2 ≠ key) } }

/-- Writes back a D chunk of a window: to this module's home, or as a PSTORE to a peer (R204, R344). -/
def flushChunk (s : State) (core key : Nat) (l : Loc) : State :=
  match l.peer with
  | none => writebackChunk s key l.pa
  | some _ =>
    match getChunk s key with
    | some c =>
      if c.dirty then
        let (n, s1) := nextStamp s
        let s2 := if c.mask = 0 then s1 else (startXfer s1 core key 5 0x41 0 (lineLoc l) c.mask (chunkBytes s1 key)).2
        putChunk (unregisterPeer s2 key) key { dirty := false, stamp := n, mask := 0 }
      else s
    | none => s

/-- Before this module accesses a line of a peer otherwise than through the chunk that holds it in state D, the chunk's bytes go
back to the peer (R204, R222; log entry 68). -/
def recallPeer (s : State) (core : Nat) (l : Loc) : State :=
  match l.peer with
  | none => s
  | some _ =>
    match holderOf s l with
    | some key => flushChunk s core key l
    | none => s

/-- Recalls the line of a peer from the chunk of this module that holds it, once its writeback has a token (R298). -/
def recallPaid (s : State) (core : Nat) (l : Loc) : State :=
  match recallToken s l with
  | (true, s1) => recallPeer s1 core l
  | (false, s1) => s1

/-- Notes that a chunk holds the line of a peer in state D (R204). -/
def registerPeer (s : State) (key : Nat) (l : Loc) : State :=
  let s1 := unregisterPeer s key
  { s1 with hub := { s1.hub with peerDir := s1.hub.peerDir ++ [(lineLoc l, key)] } }

/-- The keys of the chunks of a window of a quad. -/
def windowKeys (q : Nat) (w : Window) : List Nat := range' (chunkKey q w.base) (windowBytes w / 64)

/-- The listed chunks of a window, so that a window over I chunks costs nothing. -/
def windowChunks (s : State) (q : Nat) (w : Window) : List Nat :=
  (s.chunks.filter (fun e => decide (chunkKey q w.base ≤ e.1 ∧ e.1 < chunkKey q w.base + windowBytes w / 64))).map (·.1)

/-- The D chunks of a window: the lines that a writeback of it moves (R296). -/
def dirtyChunks (s : State) (q : Nat) (w : Window) : List Nat :=
  (windowChunks s q w).filter (fun k => ((getChunk s k).map (·.dirty)).getD false)

/-- Whether a writeback of a window would seal a line under a generation that has no uses left (R319). -/
def flushSeals (s : State) (q : Nat) (w : Window) : Bool :=
  (dirtyChunks s q w).any (fun k => match chunkLoc s w (k % 65536 * 64) with | some l => sealWaits s l | none => false)

/-- Writes back every D chunk of a window (R204). -/
def flushWindow (s : State) (core q : Nat) (w : Window) : State :=
  (windowChunks s q w).foldl (fun s key =>
    match getChunk s key with
    | some c =>
      if c.dirty then
        match chunkLoc s w (key % 65536 * 64) with
        | some l => flushChunk s core key l
        | none => s
      else s
    | none => s) s

/-- Removes a window after writing it back: its chunks become unassigned (R204). -/
def dropWindow (s : State) (core q n : Nat) : State :=
  match (getQuad s q).windows.find? (fun e => e.1 = n) with
  | none => s
  | some (_, w) =>
    let s1 := flushWindow s core q w
    let s2 := (windowChunks s1 q w).foldl dropChunk s1
    modQuad s2 q (fun x => { x with windows := alDel x.windows n })

/-- Makes every C chunk of a window I (R204). -/
def invalidateWindow (s : State) (q : Nat) (w : Window) : State :=
  (windowChunks s q w).foldl (fun s key =>
    match getChunk s key with
    | some c => if c.dirty then s else dropChunk s key
    | none => s) s

end Sys2Proof.Machine
end

