-- ==== Sys2Proof/Machine/Ops.lean ====
section
/-! DEFINITION. The shared operations of the sequencer: raising a fault, entering the user-level handler and leaving it, ending a
task with its gang, commit events and the no-rollback window, transfer costs (R9, R57, R95, R225, R226, R301 to R307, R309,
R310). -/

namespace Sys2Proof.Machine

/-! Cause codes of R301. -/
def cIllegalBundle : Nat := 0x01
def cIllegalPort : Nat := 0x02
def cConflict : Nat := 0x03
def cPoison : Nat := 0x04
def cOperand : Nat := 0x05
def cScoreboard : Nat := 0x06
def cSafePoint : Nat := 0x07
def cCallDepth : Nat := 0x08
def cLoopDepth : Nat := 0x09
def cModifier : Nat := 0x0A
def cAlign : Nat := 0x0B
def cNearBound : Nat := 0x0C
def cHandleBound : Nat := 0x0D
def cHandleInvalid : Nat := 0x0E
def cMapping : Nat := 0x0F
def cWriteProtect : Nat := 0x10
def cAtomicScope : Nat := 0x11
def cUserTrap : Nat := 0x20
def cHrev : Nat := 0x21
def cEngine : Nat := 0x22
def cLease : Nat := 0x30
def cFreezeDog : Nat := 0x31
def cWaitDog : Nat := 0x32
def cPreempt : Nat := 0x33
def cDoubleTrap : Nat := 0x34
def cContain : Nat := 0x35
def cUncorrectable : Nat := 0x36
def cGangEnded : Nat := 0x37
def cRetired : Nat := 0x38

/-- The rank of a cause in the order of R57; a user trap inside a handler comes after every synchronous fault (R303). -/
def rankOfCause (c : Nat) : Nat := if 1 ≤ c ∧ c ≤ 7 then c else if c = cDoubleTrap then 9 else 8

/-- The fault layout of `uinfo` (R302). -/
def faultInfo (hreg slot port lane : Nat) : Nat := hreg % 16 + 16 * (slot % 8) + 256 * (port % 1024) + 2 ^ 18 * (lane % 64)

/-! The no-rollback window and the journal. -/

/-- Opens the no-rollback window of a core for a reason of R314, unless it is open (R310). -/
def openWindow (s : State) (c why : Nat) : State :=
  modCore s c (fun x => if x.jn.windowOpen then x else { x with jn := { x.jn with windowOpen := true, why := why } })

/-- A write of a rerun, kept for its signature (R311). -/
def signWrite (s : State) (c ord : Nat) (bytes : List Byte) : State :=
  match (getCore s c).rerun with
  | none => s
  | some r => modCore s c (fun x => { x with rerun := some { r with writes := r.writes ++ [(ord, bytes)] } })

/-- Writes a journal record; one that does not fit opens the window (R309, R310). -/
def journal (s : State) (c : Nat) (r : JRec) (bytes : Nat) : State :=
  let x := getCore s c
  if x.jn.bytes + bytes ≤ 131072 then
    setCore s c { x with jn := { x.jn with recs := r :: x.jn.recs, bytes := x.jn.bytes + bytes } }
  else openWindow s c 4

/-! Commit events. -/

/-- Releases a core's store buffer (R226). -/
def releaseStores (s : State) (c : Nat) : State :=
  modCore s c (fun x =>
    { x with arch := { x.arch with order :=
        { x.arch.order with released := x.arch.order.released ++ x.arch.order.sbuf, sbuf := [], sinceCommit := 0 } } })

/-- A commit event of the running bundle: the release comes at its end (R225, R226). -/
def commitEvent (s : State) : State :=
  match s.issue with
  | some i => { s with issue := some { i with commit := true } }
  | none => releaseStores s s.cur

/-! Transfer costs (R95). -/

/-- Frozen periods of a branch through a register with this preparation cycle, its target due in cycle `tnext`. -/
def prepCost (tnext : Nat) : Prep → Nat
  | .never => 3
  | .inCycle c => 4 - (tnext - c)
  | .long => 0

/-- The more recent of two preparation cycles. -/
def laterPrep : Prep → Prep → Prep
  | .inCycle a, .inCycle b => if a ≤ b then .inCycle b else .inCycle a
  | .inCycle a, _ => .inCycle a
  | _, .inCycle b => .inCycle b
  | .long, _ => .long
  | _, .long => .long
  | .never, .never => .never

/-- The preparation cycle of the steer register most recently prepared whose TARGET is the address. -/
def prepFor (a : CoreArch) (target : BAddr) : Prep :=
  (List.finRange 12).foldl
    (fun acc k => let r := readS a k; if r.target = target then laterPrep acc r.prep else acc) .never

/-- Frozen periods of a jump to the address. -/
def jumpCost (a : CoreArch) (target : BAddr) (tnext : Nat) : Nat := prepCost tnext (prepFor a target)

/-! The user-level handler. -/

/-- Handler entry (R304): `uepc`, `ucause` and `uinfo` written, the shadow bank made a copy and active, the depths recorded, the
next bundle `uiv` at the cost of a jump whose target is due in cycle `tnext`. -/
def enterHandler (a : CoreArch) (cause queue uinfo : Nat) (epc : BAddr) (tnext : Nat) : CoreArch :=
  let shadow : Shadow :=
    { g := Vector.ofFn (fun i => readG a (Fin.ofNat 32 (24 + i.val))),
      s := Vector.ofFn (fun i => readS a (Fin.ofNat 12 (10 + i.val))) }
  { a with
    csr := { a.csr with uepc := epc, ucause := BitVec.ofNat 64 (cause + 256 * queue), uinfo := BitVec.ofNat 64 uinfo },
    seq := { a.seq with handler := some (a.seq.loops.length, a.seq.calls.length), shadow := shadow, pc := a.csr.uiv,
                        fetchWait := jumpCost a a.csr.uiv tnext, next := none, trapping := none, stall := 0,
                        atSafe := false, atCk := false, wait := none } }

/-- Return from the handler (R306): the shadow bank inactive, its contents discarded, the flag cleared. -/
def leaveHandler (a : CoreArch) : CoreArch := { a with seq := { a.seq with handler := none, shadow := Shadow.reset } }

/-! The end of a task and of its gang (R9, R307). -/

/-- Every part of a far access has performed. -/
def farArrived (f : FarOp) : Bool := f.parts.all (fun p => p.done.isSome)

/-- Whether a near access in the queue writes. -/
def nearWrites (n : NearOp) : Bool := match n.kind with | .load | .loadTag => false | _ => true

/-- A far atomic that has still to perform. -/
def atomPending (f : FarOp) : Bool :=
  match f.kind with
  | .atom _ _ _ _ => !farArrived f
  | _ => false

/-- What is left of a core's accesses when its task is over: loads and results in flight are lost; the writes and atomics of the
bundles that have issued perform (R101, R226, R301). -/
def dropLoads (a : CoreArch) : CoreArch :=
  { a with due := [], hdue := [],
           order := { a.order with far := a.order.far.filter atomPending, nearq := a.order.nearq.filter nearWrites } }

/-- The engine commands and anvil operations that end with a gang: those that have not started are discarded; Q0, Q1 and Q3
commands in progress stop, Q2 and Q4 commands in progress run on (R307). -/
def dropCommands (a : CoreArch) : CoreArch :=
  { a with
    anv := { a.anv with queue := [] },
    q := Vector.ofFn (fun i =>
      let q := vget a.q i
      { q with cmds := if i.val = 2 ∨ i.val = 4 then q.cmds.filter (·.started) else [] }) }

/-- What an ended task loses besides: unreleased stores, events not delivered (R9, R226). -/
def loseTask (a : CoreArch) : CoreArch :=
  let b := dropCommands (dropLoads a)
  { b with order := { b.order with sbuf := [], engEvents := [] } }

/-- Discards a core's commands; the pages that an `eng.sattn` among them named have still to be let go (R265, R307). -/
def discardCommands (s : State) (c : Nat) : State :=
  let lost := (vget (getCore s c).arch.q 2).cmds.filter (fun x => decide (x.op = .sattn) && !x.started)
  modCore { s with hub := { s.hub with unsettled := s.hub.unsettled ++ lost.map (fun x => (c, x.block)) } } c
    (fun x => { x with arch := dropCommands x.arch })

/-- The causes of class F (R301). -/
def isFatal (cause : Nat) : Bool := decide (0x35 ≤ cause ∧ cause ≤ 0x38)

/-- What the dispatcher receives of a task that ends (R301): `uepc` names the bundle that has had no effect; it is unpredictable
after a fatal cause. -/
def taskEnd (s : State) (c cause : Nat) (info : Option Nat) : TaskEnd :=
  { cause := cause, epc := if isFatal cause then Config.freeAddr s.freeCtr else (getCore s c).arch.seq.pc, info := info }

/-- Ends the task of one core with a cause. -/
def endMember (s : State) (c cause : Nat) (info : Option Nat := none) : State :=
  let r := taskEnd s c cause info
  let s1 := if isFatal cause then (takeFree s).2 else s
  let s2 := modCore (discardCommands s1 c) c (fun x =>
    { x with status := .ended cause, arch := loseTask x.arch, mark := none, freezeDog := 0, waitDog := 0, report := some r, rerun := none })
  modQuad s2 (quadOf c) (fun q => if q.hold = some c then { q with hold := none } else q)

/-- Whether a core's task can still end. -/
def isLive (x : Core) : Bool :=
  match x.status with
  | .bound | .stopped => true
  | _ => false

/-- Ends a gang: the first member with its cause, the others with `Gang ended` in the same period; a member that had completed
loses its commands (R307 steps 1 and 2). -/
def endGang (s : State) (g : Gang) (c cause : Nat) (info : Option Nat := none) : State :=
  let cores := gangCores g
  let s1 := endMember s c cause info
  let s2 := cores.foldl (fun s d =>
    if d = c ∨ (getCore s d).gang ≠ some g.ctx then s
    else if isLive (getCore s d) then endMember s d cGangEnded
    else discardCommands s d) s1
  let s3 := { s2 with hub := { s2.hub with chans := s2.hub.chans.map (fun x =>
                { x with parts := x.parts.filter (fun p => !cores.contains p.core) }) } }
  setGang s3 { g with st := .finishing, image := none, cause := match g.cause with | some k => some k | none => some (cause, rankOf g c) }

/-- Ends the task of a core, and with it its gang. -/
def endTask (s : State) (c cause : Nat) (info : Option Nat := none) : State :=
  match gangOf s c with
  | some g => endGang s g c cause info
  | none => endMember s c cause info

/-- The fault layout that the dispatcher receives with a cause: the causes of R301 from 0x01 to 0x11 have one. -/
def endInfo (cause uinfo : Nat) : Option Nat := if 1 ≤ cause ∧ cause ≤ 0x11 then some uinfo else none

/-- Taking a precise synchronous cause on the running core (R301, R303, R304, R305): HREV vectors to the handler, inside a
handler it is a double trap, every other cause ends the task, and the dispatcher receives the fault layout. `uepc` is the address
of the bundle. -/
def takeFault (s : State) (cause uinfo : Nat) : State :=
  let a := arch s
  if cause = cHrev then
    if inHandler a then endTask s s.cur cDoubleTrap
    else setArch s (enterHandler a cause 0 uinfo a.seq.pc (a.csr.cyc + 1))
  else endTask s s.cur cause (endInfo cause uinfo)

/-- The slot that runs: within a bundle its number, outside one 6 for an address operation and 0 for a move. -/
def slotNo (s : State) (i : Instr) : Nat :=
  match s.issue with
  | some x => x.slot
  | none => if isAddr i then 6 else 0

/-- Raises a fault of the running slot with its PORT and LANE details: within a bundle it is recorded, and the bundle's end
decides (R57); outside one it is taken at once. -/
def raiseWith (s : State) (i : Instr) (cause port lane : Nat) : State :=
  let info := faultInfo (hregDetail i) (slotNo s i) port lane
  match s.issue with
  | some x =>
    { s with issue := some { x with faults := x.faults ++
        [{ rank := rankOfCause cause, slot := x.slot, cause := cause, uinfo := info }] } }
  | none => takeFault s cause info

/-- Raises a fault of the running slot. -/
def raise (s : State) (i : Instr) (cause : Nat) : State := raiseWith s i cause (portDetail i) 0

/-- A bundle that finds a queue full does not issue in this period (R29): within a bundle the bundle is held, outside one the
frozen period is counted. -/
def holdIssue (s : State) : State :=
  match s.issue with
  | some x => { s with issue := some { x with hold := true } }
  | none => modCsr s (fun c => { c with frzMem := c.frzMem + 1 })

/-- A wait of the bundle that issues, beside those of its other slots (R31). -/
def setWait (s : State) (w : Wait) : State :=
  modSeq s (fun q => { q with wait := some (match q.wait with | some v => .both v w | none => w) })

/-- STALL of the bundle that issues. -/
def stallOf (s : State) : Nat := match s.issue with | some x => x.stall | none => 0

/-- Whether every short result is due by cycle `c` (R34, R61). -/
def shortDone (a : CoreArch) (c : Nat) : Bool :=
  a.due.all (fun d => !d.short || decide (d.at_ ≤ c)) && a.hdue.all (fun d => decide (d.at_ ≤ c)) &&
    a.order.nearq.all (fun d => decide (d.due ≤ c))

end Sys2Proof.Machine
end

