-- ==== Sys2Proof/Machine/Operands.lean ====
section
/-! DEFINITION. Every operand form: guards, sources with early reads and last-read marks, literals, address registers with their
modifiers, near and far addresses, handles, engine addresses (R49 to R54, R58, R59, R71, R80, R86, R109, R110, R114, R159). -/

namespace Sys2Proof.Machine

/-! Guards. -/

/-- What a guard decides: the slot is off, it runs and its steer register's taint joins what it writes, or the steer register
is poisoned (R49). -/
inductive GuardRes where
  | off
  | on (t : TSet)
  | poisoned
  deriving DecidableEq, Repr

def guardRes (a : CoreArch) : Guard → GuardRes
  | .steer k =>
    let r := readS a k
    if steerPoison r then .poisoned else if r.cond then .on (steerTaint r) else .off
  | .always => .on 0
  | .last => .on 0
  | .mask => .on 0

/-! Sources. -/

/-- A sign-extended literal of `n` bits (R54). -/
def litWord (x n : Nat) : Word := BitVec.ofInt 64 (signExtNat x n)

/-- A steer register as a source: TARGET in [12:0], COND in [13] (R80, R87). -/
def steerWord (x : Steer) : Word := x.target.setWidth 64 ||| (if x.cond then 0x2000 else 0)

/-- The INDEX of the loop at a depth, 0 where there is none (R80, R97). -/
def loopIndex (a : CoreArch) (d : Nat) : Word :=
  match a.seq.loops[d]? with
  | some l => l.index.setWidth 64
  | none => 0

/-- What reading a source gives: a value, or an early read of a scalar or a vector (R59). -/
inductive ReadRes where
  | val (x : Val)
  | earlyScalar
  | earlyVector
  deriving DecidableEq, Repr

def readSReg (r : SReg) : ReadRes := if r.dead then .earlyScalar else .val (.sc r.val)

/-- The literals of the bundle that issues; zeros outside a bundle. -/
def literals (s : State) : BitVec 16 × BitVec 16 × BitVec 16 :=
  match s.issue with
  | some i => (i.l0, i.l1, i.l2)
  | none => (0, 0, 0)

/-- Reads a source as the core stood before the bundle (R55, R80). -/
def readSrc (s : State) : Src → ReadRes
  | .g i => readSReg (readG (startArch s) i)
  | .v i => let r := vget (startArch s).regs.v i; if r.dead then .earlyVector else .val (.vec r.val)
  | .p i => readSReg (vget (startArch s).regs.p i)
  | .s i => let r := readS (startArch s) i; .val (.sc { v := steerWord r, t := steerTaint r, p := steerPoison r })
  | .a i => readSReg (vget (startArch s).regs.a i)
  | .m i => readSReg (vget (startArch s).regs.m i)
  | .h i => .val (.sc (cleanW ((vget (startArch s).regs.h i).base.setWidth 64)))
  | .res r =>
    let x := getRes (startArch s) r
    if x.empty then (if isVecPort r then .earlyVector else .earlyScalar)
    else if isVecPort r then .val (.vec x.val)
    else .val (.sc { v := vecToWord x.val.v, t := x.val.t, p := x.val.p })
  | .loopIx d => .val (.sc (cleanW (loopIndex (startArch s) d.val)))
  | .imm n => .val (.sc (cleanW (n.signExtend 64)))
  | .l0 => .val (.sc (cleanW (litWord (literals s).1.toNat 16)))
  | .l1 => .val (.sc (cleanW (litWord (literals s).2.1.toNat 16)))
  | .l2 => .val (.sc (cleanW (litWord (literals s).2.2.toNat 16)))
  | .l01 => .val (.sc (cleanW (litWord ((literals s).2.1.toNat * 65536 + (literals s).1.toNat) 32)))
  | .l12 => .val (.sc (cleanW (litWord ((literals s).2.2.toNat * 65536 + (literals s).2.1.toNat) 32)))
  | .l012 =>
    .val (.sc (cleanW (litWord ((literals s).2.2.toNat * 4294967296 + (literals s).2.1.toNat * 65536 +
      (literals s).1.toNat) 48)))

/-- Whether a move of the bundle has already written a register, which keeps it live under a last-read mark (R50). -/
def writtenIn (s : State) (d : Dst) : Bool :=
  match s.issue with
  | some i => i.written.contains d
  | none => false

/-- A last-read mark on a source (R50). -/
def markLast (s : State) (src : Src) : State :=
  match src with
  | .g i => if writtenIn s (.g i) then s else modArch s (fun a => writeG a i { readG a i with dead := true })
  | .v i =>
    if writtenIn s (.v i) then s
    else modRegs s (fun r => { r with v := vset r.v i { vget r.v i with dead := true } })
  | .p i =>
    if writtenIn s (.p i) then s
    else modRegs s (fun r => { r with p := vset r.p i { vget r.p i with dead := true } })
  | .a i =>
    if writtenIn s (.a i) then s
    else modRegs s (fun r => { r with a := vset r.a i { vget r.a i with dead := true } })
  | .m i =>
    if writtenIn s (.m i) then s
    else modRegs s (fun r => { r with m := vset r.m i { vget r.m i with dead := true } })
  | .res p => modArch s (fun a => setRes a p { getRes a p with empty := true })
  | _ => s

/-- The last-read mark of a guard (R49, R50). -/
def markGuard (s : State) (g : Guard) (src : Src) : State := if g = .last then markLast s src else s

/-- Notes a register that a move of the bundle writes (R50). -/
def noteWritten (s : State) (d : Dst) : State :=
  match s.issue with
  | some i => { s with issue := some { i with written := d :: i.written } }
  | none => s

/-- Whether `sbchk` makes early reads faults (R59, R60). -/
def sbchkOn (s : State) : Bool := (startArch s).csr.sbchk

/-- An unpredictable value with a saturated taint set (R8, R59). -/
def freeVal (vec : Bool) (n : Nat) : Val :=
  if vec then .vec { v := Config.freeVec n, t := taintAll, p := false }
  else .sc { v := Config.freeWord n, t := taintAll, p := false }

/-- The fault of an early read under `sbchk`: the slot's own fault of a class above scoreboard that does not hang on the value
read (`pre`), else scoreboard (R57, R59). -/
def earlyFault (i : Instr) (src : Src) (pre : Option Nat) (s : State) : State :=
  match pre with
  | some c => raise s i c
  | none => raiseWith s i cScoreboard (srcCode src) 0

/-- Reads a source for a slot, or raises the fault of an early read (R59): the value with the guard's taint joined (R49), and
the state with the last-read mark made. -/
def fetchSrc (i : Instr) (g : Guard) (t : TSet) (src : Src) (pre : Option Nat) (s : State) : Sum State (Val × State) :=
  match readSrc s src with
  | .val x => .inr (x.join t, markGuard s g src)
  | .earlyScalar =>
    if sbchkOn s then .inl (earlyFault i src pre s)
    else .inr ((freeVal false (takeFree s).1).join t, markGuard (takeFree s).2 g src)
  | .earlyVector =>
    if sbchkOn s then .inl (earlyFault i src pre s)
    else .inr ((freeVal true (takeFree s).1).join t, markGuard (takeFree s).2 g src)

/-- Runs a live move slot: the checks of its encoding, its guard, its source, then its effect on the moved value (R48, R49,
R55). `pre` is the fault of the slot that ranks above scoreboard whatever value the source has (R57). -/
def runMovePre (i : Instr) (g : Guard) (src : Src) (pre : Option Nat) (s : State) (f : Val → State → State) : State :=
  match encodingFault i with
  | some c => raise s i c
  | none =>
    match guardRes (startArch s) g with
    | .off => s
    | .poisoned => raise s i cPoison
    | .on t =>
      match fetchSrc i g t src pre s with
      | .inl s' => s'
      | .inr (x, s') => f x s'

/-- A live move slot with no fault of its own but those that hang on the value read. -/
def runMove (i : Instr) (g : Guard) (src : Src) (s : State) (f : Val → State → State) : State := runMovePre i g src none s f

/-! Address slots. -/

/-- The post-update of R109; none is the modifier-format fault. -/
def addrUpdate (a m : Word) : Option Word :=
  let mm := m.toNat
  let len := natField mm 22 22
  let w := natField mm 44 5
  let inc := signExtNat mm 22
  if natField mm 49 15 ≠ 0 then none
  else if w ≠ 0 ∧ len ≠ 0 then none
  else if w ≠ 0 then
    let lo := a.toNat % 2 ^ w
    let r := (bitReverse lo w + bitReverse (intMod inc w) w) % 2 ^ w
    some (BitVec.ofNat 64 (a.toNat - lo + bitReverse r w))
  else if len ≠ 0 then
    let n := ceilLog2 len
    let off := a.toNat % 2 ^ n
    some (BitVec.ofInt 64 (((a.toNat - off : Nat) : Int) + ((off : Int) + inc) % (len : Int)))
  else some (BitVec.ofInt 64 ((a.toNat : Int) + inc))

/-- Writes an address register at the end of the issue cycle (R81, R109). -/
def writeA (s : State) (j : Fin 16) (x : SVal) : State :=
  modRegs s (fun r => { r with a := vset r.a j { v := x.v, t := x.t, p := x.p, dead := (vget r.a j).dead } })

/-- The address register and modifier of a slot, as before the bundle; an early read of one gives a free value (R59). -/
structure AddrIn where
  a : SVal
  m : SVal
  /-- The modifier was dead: its update is unpredictable and never malformed (R8, R59). -/
  mFree : Bool
  /-- Taint of the guard's steer register (R230). -/
  guard : TSet
  deriving DecidableEq, Repr

/-- Whether a_j, or m_j where the slot updates, is dead (R59). -/
def addrEarly (u : Bool) (j : Fin 16) (s : State) : Bool :=
  (vget (startArch s).regs.a j).dead || (u && (vget (startArch s).regs.m j).dead)

/-- Reads a_j, and m_j where the slot updates, for an address slot; a dead one gives a free value without poison (R59). -/
def fetchAddr (u : Bool) (j : Fin 16) (gt : TSet) (s : State) : AddrIn × State :=
  let ar := vget (startArch s).regs.a j
  let mr := vget (startArch s).regs.m j
  let (a, s1) := if ar.dead then ({ v := Config.freeWord s.freeCtr, t := taintAll, p := false : SVal }, (takeFree s).2) else (ar.val, s)
  let (m, s2) :=
    if u && mr.dead then ({ v := Config.freeWord s1.freeCtr, t := taintAll, p := false : SVal }, (takeFree s1).2) else (mr.val, s1)
  ({ a := a, m := m, mFree := u && mr.dead, guard := gt }, s2)

/-- Runs a live address slot (R49, R52, R55): `poison` is the poison-use test of its operation, which ranks above the scoreboard
fault of an early read (R57, R121). -/
def runAddr (i : Instr) (g : Guard) (j : Fin 16) (u : Bool) (poison : AddrIn → Bool) (s : State) (f : AddrIn → State → State) :
    State :=
  match encodingFault i with
  | some c => raise s i c
  | none =>
    match guardRes (startArch s) g with
    | .off => s
    | .poisoned => raise s i cPoison
    | .on t =>
      let (x, s') := fetchAddr u j t s
      if poison x then raise s i cPoison
      else if addrEarly u j s && sbchkOn s then raise s i cScoreboard
      else f x s'

/-- The updated address register, or the modifier-format fault (R109). -/
def updated (x : AddrIn) : Option SVal :=
  if x.mFree then some { v := x.m.v, t := x.a.t ||| x.m.t, p := x.a.p || x.m.p }
  else (addrUpdate x.a.v x.m.v).map (fun v => { v := v, t := x.a.t ||| x.m.t, p := x.a.p || x.m.p })

/-- Whether a post-update that the slot makes is malformed. -/
def updateBad (u : Bool) (x : AddrIn) : Bool := u && (updated x).isNone

/-- Makes the slot's post-update when U is set (R109). -/
def postUpdate (s : State) (u : Bool) (j : Fin 16) (x : AddrIn) : State :=
  if u then
    match updated x with
    | some v => writeA s j v
    | none => s
  else s

/-- The effective address of a near access (R110). -/
def nearAddr (a : Word) (o : BitVec 6) (size : Nat) : Nat :=
  (BitVec.ofInt 64 ((a.toNat : Int) + o.toInt * (size : Int))).toNat

/-- A handle as an access finds it (R79, R114): whether a translation into it is still due, and the handle as before. -/
structure HandleIn where
  h : Handle
  early : Bool
  deriving DecidableEq, Repr

def fetchHandle (s : State) (k : Fin 16) : HandleIn :=
  let a := startArch s
  { h := vget a.regs.h k, early := a.hdue.any (fun d => d.live && decide (d.k = k)) }

/-- Whether a handle can be used at all (R114). -/
def handleValid (h : Handle) : Bool := h.made && h.valid

/-- The place of an offset in a handle's frame, which is one of 2 MiB (R114, R211). -/
def handleLoc (h : Handle) (off : Nat) : Loc :=
  { peer := if h.home = 2 then some h.pkg.toNat else none, pa := h.frame / 2097152 * 2097152 + off }

/-- The taint a handle gives an access, saturated while its translation is due (R79, R230). -/
def handleTaint (x : HandleIn) : TSet := if x.early then taintAll else x.h.t

/-! Engine addresses (R159). -/

/-- An engine address: near, or far through a handle; none when a reserved bit is set. -/
inductive EngAddr where
  | near (a : Nat)
  | far (k : Fin 16) (off : Nat)
  deriving DecidableEq, Repr

def engAddr (w : Word) : Option EngAddr :=
  let n := w.toNat
  if w.getLsbD 63 then
    if natField n 25 38 = 0 then some (.far (Fin.ofNat 16 (natField n 21 4)) (natField n 0 21)) else none
  else if natField n 22 41 = 0 then some (.near (natField n 0 22)) else none

/-- A near address: a stash address in [21:0] with the other bits zero (R162). -/
def nearOnly (w : Word) : Option Nat := if w.toNat < 4194304 then some w.toNat else none

end Sys2Proof.Machine
end

