-- ==== Sys2Proof/Machine/Stash.lean ====
section
/-! DEFINITION. Near accesses of a core: fills, refetches and registrations as an access finds its chunks, and the access
itself once every chunk is ready (R111 to R113, R117, R119, R202 to R205, R221, R229, R230, R309). -/

namespace Sys2Proof.Machine

/-! Chunks. -/

/-- The 64-byte chunks that spans of addresses touch. -/
def spanChunks (l : List (Nat × Nat)) : List Nat :=
  (l.flatMap (fun p => if p.2 = 0 then [] else range' (p.1 / 64) ((p.1 + p.2 - 1) / 64 - p.1 / 64 + 1))).eraseDups

/-- The largest stamp register over the colours of a set (R230). -/
def stMax (o : Order) (e : TSet) : Nat :=
  (List.finRange 16).foldl (fun m i => if e.getLsbD i.val then max m (vget o.st i) else m) 0

/-- A load of a colour performed at a stamp (R229). -/
def noteStamp (s : State) (c : Nat) (colour : Fin 16) (n : Nat) : State :=
  modCore s c (fun x =>
    { x with arch := { x.arch with order :=
        { x.arch.order with st := vset x.arch.order.st colour (max (vget x.arch.order.st colour) n) } } })

/-! Banks (R200, R201). -/

/-- The bank and the row of a stash address. -/
def bankOf (a : Nat) : Nat := a / 32 % 127
def rowOf (a : Nat) : Nat := a / 32 / 127

/-- The rows that spans of addresses touch, each with its bank. -/
def spanRows (l : List (Nat × Nat)) : List (Nat × Nat) :=
  (l.flatMap (fun p => if p.2 = 0 then [] else
    (range' (p.1 / 32) ((p.1 + p.2 - 1) / 32 - p.1 / 32 + 1)).map (fun r => (r % 127, r / 127)))).eraseDups

/-- Whether no bank of the rows has served another row in this period (R201). -/
def banksFree (s : State) (q : Nat) (rows : List (Nat × Nat)) : Bool :=
  rows.all (fun r => (getQuad s q).served.all (fun e => decide (e.1 ≠ r.1 ∨ e.2 = r.2)))

/-- The rows are served. -/
def serveBanks (s : State) (q : Nat) (rows : List (Nat × Nat)) : State :=
  modQuad s q (fun x => { x with served := rows ++ x.served })

/-- The rows that a near access reads and writes. The network of a gather or scatter takes its lanes together (R201): it names
every row once. -/
def nearRows (op : NearOp) : List (Nat × Nat) := spanRows (op.spans ++ op.writes.map (fun r => (r.1, r.2.length)))

/-! Fills and registrations. -/

/-- What a line of a peer needs before a transfer reads it: the writes under way there answered, another chunk's registration
recalled, or its fill awaited. `none` when it can go (R204, R205, R344). -/
def peerFirst (s : State) (c key : Nat) (l : Loc) : Option State :=
  if peerBusy s l then some s
  else
    match holderOf s l with
    | none => none
    | some k => if k = key then none else if xferPending s 1 k || lineHeld s l then some s else some (recallPaid s c l)

/-- Starts or makes the fill of a mapped chunk (R204): from this module's home once a token is there, from a peer by a PLOAD whose
answer makes the fill (R344). `colour` is the colour that the fill's stamp is noted under, none for an engine. The answer:
whether the chunk is filled now, whether a fill was made or started. -/
def startFill (s : State) (c ident : Nat) (colour : Option (Fin 16)) (w : Window) (key : Nat) : Bool × Bool × State :=
  match chunkLoc s w (key % 65536 * 64) with
  | none => (false, false, s)
  | some l =>
    if lineHeld s l then (false, false, s)
    else
    match l.peer.bind (fun _ => peerFirst s c key l) with
    | some s1 => (false, false, s1)
    | none =>
    let (ok, s1) := takeToken s c ident
    if !ok then (false, false, s1)
    else
      match l.peer with
      | some _ =>
        (false, true, (startXfer s1 c key 1 0x40 0 l 0 (match colour with | some k => [BitVec.ofNat 8 k.val] | none => [])).2)
      | none =>
        let g := gangOf s1 c
        let (bytes, bad) := readLine s1 g l.pa
        let (n, s2) := fillChunk (noteRead s1 g l.pa) key bytes bad
        (true, true, match colour with | some k => noteStamp s2 c k n | none => s2)

/-- Makes a chunk ready for a quad read (R204, R230). -/
def readyRead (c ident : Nat) (colour : Option (Fin 16)) (e : TSet) (got : List Nat) (k : Nat) (s : State) :
    Bool × Bool × State :=
  match regionOf s (quadOf c) (64 * k) with
  | .mapped _ w =>
    let key := quadOf c * 65536 + k
    if xferPending s 1 key then (false, false, s)
    else
      match getChunk s key with
      | some ch =>
        if ch.dirty || got.contains k || decide (stMax (getCore s c).arch.order e ≤ ch.stamp) then (true, false, s)
        else startFill s c ident colour w key
      | none => startFill s c ident colour w key
  | _ => (true, false, s)

/-- Makes a chunk ready for a quad write: registered at its home, or fetched from a peer (R204). -/
def readyWrite (c ident : Nat) (k : Nat) (s : State) : Bool × Bool × State :=
  match regionOf s (quadOf c) (64 * k) with
  | .mapped _ w =>
    let key := quadOf c * 65536 + k
    if xferPending s 1 key then (false, false, s)
    else if ((getChunk s key).map (·.dirty)).getD false then (true, false, s)
    else
      match chunkLoc s w (64 * k) with
      | none => (false, false, s)
      | some l =>
        match l.peer with
        | some _ =>
          match getChunk s key, holderOf s l == some key with
          | some ch, true => (true, false, putChunk s key { ch with dirty := true, mask := 0 })
          | _, _ =>
            match startFill s c ident none w key with
            | (r, true, s1) => (r, true, registerPeer s1 key l)
            | r => r
        | none =>
          if (recallsFor s l.pa).any (recallHeld s) then (false, false, s)
          else
          let (ok, s1) := takeWithRecalls s c ident (recallsFor s l.pa)
          if ok then (true, false, (registerChunk s1 key l.pa).2) else (false, false, s1)
  | _ => (true, false, s)

/-- Makes every chunk of a list ready: whether all are, the chunks filled or being filled, and the state. -/
def readyAll (f : List Nat → Nat → State → Bool × Bool × State) : List Nat → List Nat → State → Bool × List Nat × State
  | [], got, s => (true, got, s)
  | k :: ks, got, s =>
    let (ok, filled, s1) := f got k s
    let got1 := if filled then k :: got else got
    let (all, got2, s2) := readyAll f ks got1 s1
    (ok && all, got2, s2)

/-- Bytes written through a quad: the stash, and the byte mask of a registered chunk (R203). -/
def quadWrite (s : State) (q a : Nat) (bs : List Byte) : State :=
  let s1 := stashWrite s q a bs
  (spanChunks [(a, bs.length)]).foldl (fun s k =>
    let key := q * 65536 + k
    match getChunk s key with
    | some ch =>
      if ch.dirty then
        let lo := max a (64 * k) - 64 * k
        let hi := min (a + bs.length) (64 * k + 64) - 64 * k
        putChunk s key { ch with mask := ch.mask ||| runMask lo (hi - lo) }
      else s
    | none => s) s1

/-! The access. -/

/-- The functions of R117: the new value. -/
def atomFn (fn : Nat) (old d c : Word) : Word :=
  match fn with
  | 0 => old + d
  | 1 => old &&& d
  | 2 => old ||| d
  | 3 => old ^^^ d
  | 4 => if d.slt old then d else old
  | 5 => if old.slt d then d else old
  | 6 => if d.ult old then d else old
  | 7 => if old.ult d then d else old
  | 8 => d
  | _ => if old = c then d else old

/-- Whether an atomic writes: a `cas` that does not match leaves the location unwritten (R117). -/
def atomWrites (fn : Nat) (old c : Word) : Bool := decide (fn ≠ 9) || decide (old = c)

/-- Bytes in the journal of a near store (R309). -/
def nearRecord (lanes : Bool) (runs : List (Nat × List Byte)) : Nat :=
  if lanes then 16 * runs.length
  else 8 + ceilDiv ((runs.map (fun r => r.2.length)).foldl (· + ·) 0) 8 * 8

/-- A result of an access of core `c`. -/
def deliverTo (s : State) (c : Nat) (port : PortId) (due ord : Nat) (short : Bool) (x : VVal) : State :=
  modCore s c (fun k => { k with arch := { k.arch with due := k.arch.due ++
    [{ port := port, at_ := due, ord := ord, val := x, short := short }] } })

/-- The colour of an access as a set. -/
def colourSet (k : Fin 16) : TSet := 1#16 <<< k.val

/-- The bytes that spans of a stash hold, in order. -/
def spanBytes (s : State) (q : Nat) (l : List (Nat × Nat)) : List Byte := l.flatMap (fun p => memReadN s.stash (stashKey q p.1) p.2)

/-- The bytes of a 64-byte chunk of a quad's stash, with their poison. -/
def chunkImage (s : State) (q k : Nat) : List (Byte × Bool) :=
  (range' (stashKey q (64 * k)) 64).map (fun i => (memRead s.stash i, alGet false s.sbad i))

/-- Before a near store: an anvil operation of core `d` in progress may still read the chunks as they stand (R152). -/
def keepImage (s : State) (d : Nat) (chunks : List Nat) : State :=
  match (getCore s d).arch.anv.queue with
  | op :: rest =>
    if op.start.isSome then
      let op1 := { op with pre := op.pre ++ chunks.map (fun k => (k, chunkImage s (quadOf d) k)) }
      modCore s d (fun x => { x with arch := { x.arch with anv := { x.arch.anv with queue := op1 :: rest } } })
    else s
  | [] => s

/-- The images for the four anvils of a core's quad. -/
def keepImages (s : State) (c : Nat) (chunks : List Nat) : State :=
  (range' (4 * quadOf c) 4).foldl (fun s d => keepImage s d chunks) s

/-- The journal record of a near store: the old bytes, with the tags and the poison that they had (R309). -/
def oldRecord (s : State) (q : Nat) (runs : List (Nat × List Byte)) : JRec :=
  let hit (lo hi : Nat) : Bool :=
    runs.any (fun r => decide (lo < stashKey q r.1 + r.2.length ∧ stashKey q r.1 < hi))
  .near (runs.map (fun r => (r.1, memReadN s.stash (stashKey q r.1) r.2.length)))
    (s.tags.filter (fun e => hit e.1 (e.1 + 8))) (s.sbad.filter (fun e => hit e.1 (e.1 + 1)))

/-- The bytes of the line at a place that a near store writes through its chunks. -/
def nearMask (s : State) (q : Nat) (runs : List (Nat × List Byte)) (l : Loc) : BitVec 64 :=
  runs.foldl (fun m r => (spanChunks [(r.1, r.2.length)]).foldl (fun m k =>
    match regionOf s q (64 * k) with
    | .mapped _ w =>
      let lo := max r.1 (64 * k)
      if chunkLoc s w (64 * k) = some l then m ||| runMask (lo - 64 * k) (min (r.1 + r.2.length) (64 * k + 64) - lo) else m
    | _ => m) m) 0

/-- A near store of slot 7 stands over the far store of slot 6 of its bundle that is still buffered: what both write stays slot 7's
(R120; log entry 89). -/
def standOver (s : State) (c ord : Nat) (runs : List (Nat × List Byte)) : State :=
  if ord % 8 = 7 ∧ ((getCore s c).arch.order.sbuf ++ (getCore s c).arch.order.released).any (fun x => x.bundles.contains (ord / 8)) then
    let cut (l : List StoreLine) : List StoreLine :=
      (l.map (fun x =>
        if x.bundles.contains (ord / 8) then { x with mask := x.mask &&& ~~~ nearMask s (quadOf c) runs x.loc } else x)).filter
        (fun x => x.mask ≠ 0)
    modCore s c (fun x =>
      { x with arch := { x.arch with order := { x.arch.order with sbuf := cut x.arch.order.sbuf, released := cut x.arch.order.released } } })
  else s

/-- Journals the old bytes of a near store of issue order `ord`, then writes the new ones. -/
def nearStore (s0 : State) (c ord : Nat) (lanes : Bool) (runs : List (Nat × List Byte)) : State :=
  let q := quadOf c
  if runs.isEmpty then s0
  else
    let s := standOver s0 c ord runs
    let s1 := keepImages s c (spanChunks (runs.map (fun r => (r.1, r.2.length))))
    let s2 := runs.foldl (fun s r => signWrite s c ord (leBytes r.1 8 ++ r.2)) s1
    runs.foldl (fun s r => quadWrite s q r.1 r.2) (journal s2 c (oldRecord s q runs) (nearRecord lanes runs))

/-- A near access whose chunks are ready performs (R111 to R113, R117, R119), with the bytes its quad reads found and their
poison. -/
def performNear (c : Nat) (op : NearOp) (bytes : List Byte) (bad : Bool) (s : State) : State :=
  let q := quadOf c
  let t := if op.got.isEmpty then op.taint else op.taint ||| colourSet op.colour
  let v : Vec := BitVec.ofNat 2048 (leNat bytes)
  match op.kind with
  | .load => deliverTo s c op.port op.due op.ord true { v := v, t := t, p := op.poison || bad }
  | .loadTag =>
    let tag := (op.spans.head?.bind (fun p => (s.tags.find? (fun e => e.1 = stashKey q p.1)).map (·.2)))
    match tag with
    | some x =>
      if x.core = c then deliverTo s c op.port op.due op.ord true { v := v, t := t ||| x.t, p := op.poison || x.p }
      else deliverTo s c op.port op.due op.ord true { v := v, t := t, p := op.poison || bad }
    | none => deliverTo s c op.port op.due op.ord true { v := v, t := t, p := op.poison || bad }
  | .store lanes => nearStore s c op.ord lanes op.writes
  | .storeTag t p =>
    let s1 := nearStore s c op.ord false op.writes
    match op.writes with
    | (a, _) :: _ => { s1 with tags := alPut s1.tags (stashKey q a) { core := c, t := t, p := p } }
    | [] => s1
  | .atom fn d x =>
    let old : Word := v.setWidth 64
    let s1 := match op.spans with
      | (a, _) :: _ => if atomWrites fn old x then quadWrite s q a (leBytes (atomFn fn old d x).toNat 8) else s
      | [] => s
    deliverTo s1 c op.port op.due op.ord true { v := wordToVec old, t := t, p := op.poison || bad }

/-- The stash chunks that a near access writes. -/
def writeChunks (op : NearOp) : List Nat :=
  match op.kind with
  | .atom _ _ _ => spanChunks op.spans
  | _ => spanChunks (op.writes.map (fun r => (r.1, r.2.length)))

/-- Whether a near write through a window waits for the far loads and atomics of its own bundle that have still to read: a store for
all of them, a quad atomic for the loads and for an atomic of the slot before it (R120, R220). A write of a temporary chunk, which has
no home, waits for none (log entry 89). -/
def writeWaits (s : State) (c : Nat) (op : NearOp) : Bool :=
  (writeChunks op).any (fun k => match regionOf s (quadOf c) (64 * k) with | .mapped _ _ => true | _ => false) &&
    (getCore s c).arch.order.far.any (fun f => decide (f.ord / 8 = op.ord / 8) && f.parts.any (fun p => p.done.isNone) &&
      match f.kind, op.kind with
      | .prefetch, _ => false
      | .atom _ _ _ _, .atom _ _ _ => decide (f.ord < op.ord)
      | _, _ => true)

/-- Tries a near access: it performs when its chunks are ready and the banks of its rows have served no other row in this period,
and otherwise waits with what it has filled (R201, R205). -/
def tryNear (c : Nat) (op : NearOp) (s : State) : Option NearOp × State :=
  let (ready, got, s1) :=
    readyAll (fun got k s => readyRead c op.ident (some op.colour) op.e got k s) (spanChunks op.spans) op.got s
  let op1 := { op with got := got }
  if !ready then (some op1, s1)
  else
    if writeWaits s1 c op then (some op1, s1)
    else
    let (ready2, _, s2) := readyAll (fun _ k s => readyWrite c op.ident k s) (writeChunks op) got s1
    -- an atomic reads what its registration has returned, so that it is indivisible at the home (R228)
    let bytes := spanBytes s2 (quadOf c) op.spans
    let bad := op.spans.any (fun p => stashBad s2 (quadOf c) p.1 p.2)
    if !ready2 then (some op1, s2)
    else if !banksFree s2 (quadOf c) (nearRows op) then (some op1, s2)
    else (none, performNear c op1 bytes bad (serveBanks s2 (quadOf c) (nearRows op)))

/-- The near accesses of a core that wait perform in issue order as far as they can (R221). -/
def serveNear (c : Nat) : Nat → State → State
  | 0, s => s
  | n + 1, s =>
    match (getCore s c).arch.order.nearq with
    | [] => s
    | op :: rest =>
      let put (s : State) (l : List NearOp) : State :=
        modCore s c (fun x => { x with arch := { x.arch with order := { x.arch.order with nearq := l } } })
      match tryNear c op s with
      | (none, s1) => serveNear c n (put s1 rest)
      | (some op1, s1) => put s1 (op1 :: rest)

/-- Issues a near access of the running core: it performs at once unless one ahead of it, or a chunk it needs, is awaited. -/
def submitNear (s : State) (op : NearOp) : State :=
  let wait (s : State) (op : NearOp) : State := modOrder s (fun o => { o with nearq := o.nearq ++ [op] })
  if (arch s).order.nearq.isEmpty then
    match tryNear s.cur op s with
    | (none, s1) => s1
    | (some op1, s1) => wait s1 op1
  else wait s op

end Sys2Proof.Machine
end

