-- ==== Sys2Proof/Machine/Anvil.lean ====
section
/-! DEFINITION. The anvil: its descriptors, its queue, reads of the stash, the rows of a run, and its triggers (R77, R144 to R156,
R188 to R191, R309). -/

namespace Sys2Proof.Machine

/-! Descriptors (R145). -/

def AnvOp.xaddr (o : AnvOp) : Nat := natField o.x.toNat 0 22
def AnvOp.xstride (o : AnvOp) : Nat := natField o.x.toNat 22 22
def AnvOp.waddr (o : AnvOp) : Nat := natField o.w.toNat 0 22
def AnvOp.wsaddr (o : AnvOp) : Nat := natField o.w.toNat 22 22
def AnvOp.xfmt (o : AnvOp) : Nat := natField o.f.toNat 0 2
def AnvOp.masks (o : AnvOp) : Bool := o.f.getLsbD 2
def AnvOp.saddr (o : AnvOp) : Nat := natField o.s.toNat 0 22
/-- WFMT of `ldw` and the block address of `mpb`. -/
def AnvOp.ldfmt (o : AnvOp) : Nat := natField o.trig.v.toNat 0 2
def AnvOp.mpaddr (o : AnvOp) : Nat := natField o.trig.v.toNat 0 22

/-- The depth of a tile of a weight format: 0 E4M3, 1 Q8, 2 Q4X, 3 BF16 (R144). -/
def depthOf (wfmt : Nat) : Nat := if wfmt = 2 then 128 else 64

def isRun (k : AnvKind) : Bool :=
  match k with
  | .run | .runz | .runv => true
  | _ => false

/-- Rows that a run processes. -/
def AnvOp.count (o : AnvOp) : Nat := if o.kind = .runv then 1 else o.n

/-- q of R151. -/
def rateOf (xfmt wfmt : Nat) : Nat := if xfmt = 2 ∨ wfmt = 3 then 4 else 1

/-- The latency of an operation under an active weight format (R77). -/
def anvLatency (o : AnvOp) (wfmt : Nat) : Nat :=
  match o.kind with
  | .ldw => if o.ldfmt = 3 then 128 else 64
  | .swap => 2
  | .run | .runz | .runv => 16 + o.count * rateOf o.xfmt wfmt
  | .mpb => 16
  | .rd => 8
  | .wr => 8
  | .clr => 4 + ceilDiv o.n 64

/-- The spans of stash addresses that row `r` of a run reads: the activations and, unless they are BF16, their scales (R146). -/
def rowSpans (o : AnvOp) (depth r : Nat) : List (Nat × Nat) :=
  let e := if o.xfmt = 2 then 2 else 1
  let b := depth / 32
  (o.xaddr + r * o.xstride, e * depth) :: (if o.xfmt = 2 then [] else [(o.saddr + 2 * b * r, 2 * b)])

/-- The spans that `ldw` and `mpb` read. -/
def dataSpans (o : AnvOp) : List (Nat × Nat) :=
  match o.kind with
  | .ldw => if o.ldfmt = 3 then [(o.waddr, 8192)] else [(o.waddr, 4096), (o.wsaddr, 4 * depthOf o.ldfmt)]
  | .mpb => [(o.mpaddr, 576)]
  | _ => []

/-! The accumulator store (R144, R155). -/

/-- An accumulator row. DESIGN CHOICE (log entry 19): a lost row has an unpredictable value, an empty taint set and no poison. -/
def accRow (v : Anvil) (row : Nat) : VVal :=
  match v.rows.find? (fun e => e.1 = row) with
  | some (_, x) => x
  | none =>
    match v.lost.find? (fun e => decide (e.1 ≤ row)) with
    | some (_, base) => { v := Config.freeVec (base + row), t := 0, p := false }
    | none => VVal.zero

/-- The lost ranges after a restore or a rollback to `acchw` (R155): the rows from there up, and below it those that were lost before. -/
def loseRows (v : Anvil) (acchw base : Nat) : List (Nat × Nat) :=
  let old := v.lost.filter (fun e => decide (e.1 < acchw))
  if acchw < 12288 then (acchw, base) :: old else old

def modAnvOf (s : State) (c : Nat) (f : Anvil → Anvil) : State :=
  modCore s c (fun x => { x with arch := { x.arch with anv := f x.arch.anv } })

/-- The anvil's cycle at the core's present cycle. -/
def anvNow (a : CoreArch) : Nat := a.csr.cyc + a.anv.slip

/-- Writes an accumulator row for an operation of issue order `ord`; its first write since the checkpoint is journaled below
`acchw` (R309). -/
def putRow (s0 : State) (c ord row : Nat) (x : VVal) : State :=
  let s := signWrite s0 c ord (leBytes row 2 ++ leBytes x.v.toNat 256)
  let k := getCore s c
  let seen := k.jn.recs.any (fun r => match r with | .row n _ => decide (n = row) | _ => false)
  let s1 := if row < k.arch.csr.acchw.toNat ∧ ¬ seen then journal s c (.row row (accRow k.arch.anv row)) 264 else s
  modAnvOf s1 c (fun v => { v with rows := alPut v.rows row x })

/-! Reads of the stash (R152). -/

/-- A chunk as an operation in progress reads it: as it stands, or as it stood before one of the near stores issued since the
operation started, a free choice. -/
def pickImage (now : List (Byte × Bool)) : List (List (Byte × Bool)) → Nat → List (Byte × Bool)
  | [], _ => now
  | x :: rest, n => if Config.freeBool n then x else pickImage now rest (n + 1)

def anvChunk (s : State) (q : Nat) (o : AnvOp) (k : Nat) : List (Byte × Bool) × State :=
  let olds := (o.pre.filter (fun e => e.1 = k)).map (·.2)
  (pickImage (chunkImage s q k) olds s.freeCtr, { s with freeCtr := s.freeCtr + olds.length })

/-- The bytes of chunks: those read already, the others as the operation reads them now. -/
def anvChunks (s : State) (q : Nat) (o : AnvOp) : List Nat → List (Byte × Bool) × State
  | [] => ([], s)
  | k :: ks =>
    let (x, s1) := match o.taken.find? (fun e => e.1 = k) with | some e => (e.2, s) | none => anvChunk s q o k
    let (y, s2) := anvChunks s1 q o ks
    (x ++ y, s2)

/-- The bytes of a span, whether any is poisoned, and the state past the free choices. -/
def anvSpan (s : State) (q : Nat) (o : AnvOp) (p : Nat × Nat) : List Byte × Bool × State :=
  let (l, s1) := anvChunks s q o (spanChunks [p])
  let b := (l.drop (p.1 % 64)).take p.2
  (b.map (·.1), b.any (·.2), s1)

/-- The core's earlier near stores have all performed: an operation sees them (R152). -/
def storesSeen (s : State) (c : Nat) (o : AnvOp) : Bool :=
  (getCore s c).arch.order.nearq.all (fun n =>
    decide (o.ord ≤ n.ord) || match n.kind with | .load | .loadTag => true | _ => false)

/-- Makes the chunks of spans ready, as near loads with the operation's taint. -/
def anvReady (c : Nat) (o : AnvOp) (spans : List (Nat × Nat)) (s : State) : Bool × List Nat × State :=
  if storesSeen s c o then
    readyAll (fun got k s => readyRead c o.ord (some o.colour) o.e got k s) (spanChunks spans) o.got s
  else (false, o.got, s)

/-! `ldw` and `mpb` (R149, R153). -/

def loadTile (fmt : Nat) (o : AnvOp) (tile scales : List Byte) (bad : Bool) : WeightBuf :=
  { tile := bvOfBytes 65536 tile, scales := bvOfBytes 4096 scales, wfmt := BitVec.ofNat 2 fmt,
    waddr := BitVec.ofNat 22 o.waddr, wsaddr := BitVec.ofNat 22 o.wsaddr, poison := bad, loaded := true }

/-- The block that `mpb` latches, and its CODE. -/
def parseMask (bs : List Byte) (bad : Bool) : MaskBlock × Nat :=
  let word (i : Nat) : Nat := leNat ((bs.drop i).take 4)
  let mode := word 0 % 4
  if bad then (MaskBlock.off, 1)
  else if mode = 3 ∨ (mode = 2 ∧ (word 4 = 0 ∨ 64 < word 4)) then (MaskBlock.off, 2)
  else ({ mode := mode, nodes := word 4, pfx := word 8, qorg := word 12, korg := word 16,
          bits := bvOfBytes 4096 (bs.drop 64) }, 0)

/-- masked(r, c) of R153. -/
def masked (m : MaskBlock) (r c : Nat) : Bool :=
  let j := m.korg + c
  match m.mode with
  | 1 => decide (m.qorg + r < j)
  | 2 =>
    !(decide (r < m.nodes) &&
      (decide (j < m.pfx) || (decide (j - m.pfx < m.nodes) && m.bits.getLsbD (64 * r + (j - m.pfx)))))
  | _ => false

/-- An `ldw` or `mpb` whose chunks are ready reads its data. -/
def readData (c : Nat) (o : AnvOp) (s : State) : State × Nat :=
  let q := quadOf c
  match o.kind with
  | .ldw =>
    let (tile, b1, s1) := anvSpan s q o (nthD (dataSpans o) 0 (0, 0))
    let (scales, b2, s2) := anvSpan s1 q o (nthD (dataSpans o) 1 (0, 0))
    let bad := b1 || b2
    (modAnvOf s2 c (fun v => { v with shadow := loadTile o.ldfmt o tile scales bad }), if bad then 1 else 0)
  | _ =>
    let (bs, bad, s1) := anvSpan s q o (o.mpaddr, 576)
    let (m, code) := parseMask bs bad
    (modAnvOf s1 c (fun v => { v with mask := m }), code)

/-! The rows of a run (R151, R188 to R190). -/

/-- The elements of an activation row. -/
def actElems (fmt : Nat) (bs : List Byte) : List (Option Dy) :=
  match fmt with
  | 0 => bs.map (fun b => opE4m3 b.toNat)
  | 1 => bs.map (fun b => opQ8 b.toNat)
  | _ => (range' 0 (bs.length / 2)).map (fun i => opBf16 (leNat ((bs.drop (2 * i)).take 2)))

/-- BF16 values from bytes, two each. -/
def bf16s (bs : List Byte) : List (Option Dy) :=
  (range' 0 (bs.length / 2)).map (fun i => opBf16 (leNat ((bs.drop (2 * i)).take 2)))

def tileByte (b : WeightBuf) (i : Nat) : Nat := (b.tile.extractLsb' (8 * i) 8).toNat
def tileHalf (b : WeightBuf) (i : Nat) : Nat := (b.tile.extractLsb' (16 * i) 16).toNat

/-- The elements of column `c` of a tile (R146). -/
def colElems (b : WeightBuf) (c : Nat) : List (Option Dy) :=
  match b.wfmt.toNat with
  | 0 => (range' 0 64).map (fun k => opE4m3 (tileByte b (64 * k + c)))
  | 1 => (range' 0 64).map (fun k => opQ8 (tileByte b (64 * k + c)))
  | 2 => (range' 0 64).flatMap (fun j =>
      let (x, y) := decodeQ4x (tileByte b (64 * j + c))
      [some { m := x, e := 0 }, some { m := y, e := 0 }])
  | _ => (range' 0 64).map (fun k => opBf16 (tileHalf b (64 * k + c)))

/-- The scales of column `c` of a tile. -/
def colScales (b : WeightBuf) (c : Nat) : List (Option Dy) :=
  let n := depthOf b.wfmt.toNat / 32
  if b.wfmt = 3 then List.replicate n (some dyOne)
  else (range' 0 n).map (fun k => opBf16 (b.scales.extractLsb' (16 * (64 * k + c)) 16).toNat)

/-- One output of a run. -/
def runOutput (v : Anvil) (o : AnvOp) (r : Nat) (x sx : List (Option Dy)) (base : VVal) (c : Nat) : Lane :=
  if o.masks && masked v.mask r c then 0xFF7FFFFF#32
  else
    let trunc := decide (o.xfmt = 2) || decide (v.active.wfmt = 3)
    let b := if o.kind = .runz then some Dy.zero else opBase (laneOf base.v c)
    accRound b (passSum trunc x (colElems v.active c) sx (colScales v.active c))

/-- Computes and writes row `r` of a run whose chunks are ready. -/
def runRow (c : Nat) (o : AnvOp) (r : Nat) (s : State) : State × Nat :=
  let v := (getCore s c).arch.anv
  let d := depthOf v.active.wfmt.toNat
  let spans := rowSpans o d r
  let (xs, b1, s1) := anvSpan s (quadOf c) o (nthD spans 0 (0, 0))
  let (ss, b2, s2) := anvSpan s1 (quadOf c) o (nthD spans 1 (0, 0))
  let sx := if o.xfmt = 2 then List.replicate (d / 32) (some dyOne) else bf16s ss
  let base := accRow v (o.acc + r)
  let bad := v.active.poison || b1 || b2
  let fill : TSet := if o.got.isEmpty then 0 else colourSet o.colour
  let x := actElems o.xfmt xs
  let out : VVal :=
    { v := ofLanes (runOutput v o r x sx base),
      t := o.e ||| fill ||| (if o.kind = .runz then 0 else base.t),
      p := bad || (o.kind != .runz && base.p) }
  (putRow s2 c o.ord (o.acc + r) out, if bad then 1 else o.code)

/-! The queue (R147). -/

/-- Replaces the head of a core's anvil queue. -/
def setHead (s : State) (c : Nat) (o : AnvOp) : State :=
  modAnvOf s c (fun v => { v with queue := o :: v.queue.drop 1 })

/-- The status of an operation (R148). -/
def anvStatus (o : AnvOp) : VVal :=
  let count := match o.kind with
    | .run | .runz | .clr => o.n
    | .runv | .wr => 1
    | .ldw => depthOf o.ldfmt
    | _ => 0
  { v := wordToVec (BitVec.ofNat 64 (o.code + 2 ^ 32 * count)), t := o.taint, p := false }

/-- What an operation delivers at its end, with its remaining effect. A run under a poisoned buffer reports it even without a row
(R148). DESIGN CHOICE (log entry 71): `anv.clr` writes its rows at its end, and the progress value shows none of them before. -/
def finishOp (c : Nat) (o : AnvOp) (s : State) : State × VVal :=
  let v := (getCore s c).arch.anv
  match o.kind with
  | .swap => (modAnvOf s c (fun v => { v with active := v.shadow, shadow := v.active }), anvStatus o)
  | .runv => (s, accRow v o.acc)
  | .rd => let x := accRow v (o.trig.v.toNat % 16384); (s, { x with t := x.t ||| o.taint })
  | .wr => (putRow s c o.ord o.acc { v := o.trig.v, t := o.taint, p := false }, anvStatus o)
  | .clr => ((range' o.acc o.n).foldl (fun s r => putRow s c o.ord r VVal.zero) s, anvStatus o)
  | .run | .runz => (s, anvStatus { o with code := if v.active.poison then 1 else o.code })
  | _ => (s, anvStatus o)

/-- Reads the chunks of a list that are ready, each as the stash then stands. -/
def takeChunks (c : Nat) : List Nat → AnvOp → State → AnvOp × State
  | [], o, s => (o, s)
  | k :: ks, o, s =>
    let (ok, filled, s1) := readyRead c o.ord (some o.colour) o.e o.got k s
    let o1 := if filled then { o with got := k :: o.got } else o
    if ok then
      let (x, s2) := anvChunk s1 (quadOf c) o1 k
      takeChunks c ks { o1 with taken := o1.taken ++ [(k, x)] } s2
    else takeChunks c ks o1 s1

/-- Reads the data of a started `ldw` or `mpb`: each chunk as it stands at the start, or once its fill is there (R149, R153). -/
def anvilData (c : Nat) (s : State) : State :=
  match (getCore s c).arch.anv.queue with
  | [] => s
  | o :: _ =>
    if o.start.isSome ∧ ¬ (dataSpans o).isEmpty ∧ ¬ o.read ∧ storesSeen s c o then
      let (o1, s1) := takeChunks c ((spanChunks (dataSpans o)).filter (fun k => !o.taken.any (fun e => e.1 = k))) o s
      if (spanChunks (dataSpans o)).all (fun k => o1.taken.any (fun e => e.1 = k)) then
        let (s2, code) := readData c o1 s1
        setHead s2 c { o1 with read := true, taken := [], code := code }
      else setHead s1 c o1
    else s

/-- The spans of the row that a run writes next. -/
def headReads (v : Anvil) (o : AnvOp) (cyc : Nat) : List (Nat × Nat) :=
  match o.start with
  | none => []
  | some st =>
    if isRun o.kind && decide (o.rows < o.count ∧ st ≤ cyc) then rowSpans o (depthOf v.active.wfmt.toNat) o.rows else []

/-- Fills chunks for the head's next read (R152) and takes the banks of its rows, once the cores of the quad have had them: another
row served in the period holds the read back (R201). -/
def serveAnvil (c : Nat) (s : State) : State :=
  let v := (getCore s c).arch.anv
  match v.queue with
  | [] => s
  | o :: _ =>
    let spans := headReads v o (anvNow (getCore s c).arch + 1)
    if spans.isEmpty then anvilData c s
    else
      let (ok, got, s1) := anvReady c o spans s
      let rows := spanRows spans
      if ok && !o.ready && banksFree s1 (quadOf c) rows then setHead (serveBanks s1 (quadOf c) rows) c { o with got := got, ready := true }
      else setHead s1 c { o with got := got, ready := ok && o.ready }

/-- Whether the head's data falls short of the core's next cycle (R29, R152). -/
def anvilLate (a : CoreArch) : Bool :=
  match a.anv.queue with
  | [] => false
  | o :: _ =>
    match o.start with
    | none => false
    | some st =>
      let w := a.anv.active.wfmt.toNat
      let n := anvNow a + 1
      if isRun o.kind then
        decide (o.rows < o.count ∧ st + 16 + (o.rows + 1) * rateOf o.xfmt w ≤ n) && !o.ready
      else !(dataSpans o).isEmpty && !o.read && decide (st + anvLatency o w ≤ n)

/-- Writes the rows of the head that are due by the core's cycle. -/
def anvilRows (c : Nat) : Nat → State → State
  | 0, s => s
  | n + 1, s =>
    let a := (getCore s c).arch
    match a.anv.queue with
    | [] => s
    | o :: _ =>
      match o.start with
      | none => s
      | some st =>
        if isRun o.kind ∧ o.rows < o.count ∧ st + 16 + (o.rows + 1) * rateOf o.xfmt a.anv.active.wfmt.toNat ≤ anvNow a then
          let (ok, got, s1) := anvReady c o (rowSpans o (depthOf a.anv.active.wfmt.toNat) o.rows) s
          let o1 := { o with got := got, ready := ok }
          if ok then
            let (s2, code) := runRow c o1 o.rows s1
            anvilRows c n (setHead s2 c { o1 with rows := o.rows + 1, code := code, got := [], ready := false })
          else setHead s1 c o1
        else s

/-- Whether the head has done all its work by the core's cycle. -/
def headDone (a : CoreArch) (o : AnvOp) (st : Nat) : Bool :=
  decide (st + anvLatency o a.anv.active.wfmt.toNat ≤ anvNow a) &&
    (if isRun o.kind then decide (o.count ≤ o.rows) else (dataSpans o).isEmpty || o.read)

/-- Brings the anvil to the core's cycle: starts the head, reads, writes rows, ends it, and goes on with the next. -/
def anvilRun (c : Nat) : Nat → State → State
  | 0, s => s
  | n + 1, s =>
    match (getCore s c).arch.anv.queue with
    | [] => s
    | o0 :: _ =>
      let st := o0.start.getD (anvNow (getCore s c).arch)
      let s1 := if o0.start.isSome then s else setHead s c { o0 with start := some st }
      let s2 := anvilData c (anvilRows c (o0.count - o0.rows) s1)
      match (getCore s2 c).arch.anv.queue with
      | [] => s2
      | o :: rest =>
        if headDone (getCore s2 c).arch o st then
          let fin := st + anvLatency o (getCore s2 c).arch.anv.active.wfmt.toNat
          let (s3, x) := finishOp c o s2
          let s4 := deliverTo s3 c .anvR (fin - (getCore s3 c).arch.anv.slip) o.ord false x
          let next := match rest with
            | [] => []
            | p :: ps => { p with start := some fin } :: ps
          anvilRun c n (modAnvOf s4 c (fun v => { v with queue := next }))
        else s2

/-- ANVIL_OPERATION_START: the anvil of a core at its present cycle: an operation whose turn has come starts, reads the stash,
writes the rows due and ends (R147). -/
def execAnvilOperationStart (c : Nat) (s : State) : Out := .next (anvilRun c 9 s)

/-! Triggers (R155). -/

/-- The operand ports an operation reads. -/
def anvPorts (k : AnvKind) (xfmt : Nat) : List OpPort :=
  match k with
  | .ldw => [.anvW]
  | .run | .runz => [.anvX, .anvAcc, .anvN, .anvF] ++ (if xfmt = 2 then [] else [.anvS])
  | .runv => [.anvX, .anvAcc, .anvF] ++ (if xfmt = 2 then [] else [.anvS])
  | .wr => [.anvAcc]
  | .clr => [.anvAcc, .anvN]
  | .swap | .mpb | .rd => []

/-- Whether an operation's result or effect depends on its trigger value. -/
def readsTrigger (k : AnvKind) : Bool :=
  match k with
  | .ldw | .mpb | .rd | .wr => true
  | _ => false

/-- The operation that a trigger of the running core queues. -/
def anvOpOf (s : State) (k : AnvKind) (t : VVal) : AnvOp :=
  let a := arch s
  let f := (getOpS a .anvF).v
  let ports := anvPorts k (natField f.toNat 0 2)
  let taint := ports.foldl (fun x p => x ||| (getOp a p).t) (if readsTrigger k then t.t else 0)
  { kind := k, x := (getOpS a .anvX).v, w := (getOpS a .anvW).v, acc := (getOpS a .anvAcc).v.toNat % 16384,
    n := (getOpS a .anvN).v.toNat % 16384, f := f, s := (getOpS a .anvS).v, trig := t, taint := taint,
    e := taint ||| (startArch s).order.path, colour := (startArch s).order.tcol, ord := orderNo s a,
    start := none, rows := 0, code := 0, read := false, taken := [], got := [], ready := false, pre := [] }

/-- The active format that an operation queued now will find (R147, R150). -/
def futureFmt (v : Anvil) : Nat :=
  (v.queue.foldl (fun (x : Nat × Nat) o =>
    match o.kind with
    | .ldw => (x.1, o.ldfmt)
    | .swap => (x.2, x.1)
    | _ => x) (v.active.wfmt.toNat, v.shadow.wfmt.toNat)).1

/-- The fault of a trigger, in the order of R155. -/
def anvFault (s : State) (o : AnvOp) : Option Nat :=
  let a := arch s
  let q := quadOf s.cur
  let d := depthOf (futureFmt a.anv)
  let trigPoison := o.trig.p && !(decide (o.kind = .swap) || decide (o.kind = .clr))
  let operand :=
    match o.kind with
    | .run | .runz => decide (o.xfmt = 3 ∨ 12288 < o.n ∨ 12288 < o.acc + o.n)
    | .runv => decide (o.xfmt = 3 ∨ 12288 ≤ o.acc)
    | .clr => decide (12288 < o.n ∨ 12288 < o.acc + o.n)
    | .wr => decide (12288 ≤ o.acc)
    | .rd => decide (12288 ≤ o.trig.v.toNat % 16384)
    | _ => false
  let align :=
    match o.kind with
    | .ldw => decide (o.waddr % 64 ≠ 0 ∨ (o.ldfmt ≠ 3 ∧ o.wsaddr % 32 ≠ 0))
    | .run | .runz | .runv => decide (o.xaddr % 32 ≠ 0 ∨ o.xstride % 32 ≠ 0 ∨ (o.xfmt ≠ 2 ∧ o.saddr % 32 ≠ 0))
    | .mpb => decide (o.mpaddr % 64 ≠ 0)
    | _ => false
  let spans := if isRun o.kind then (range' 0 o.count).flatMap (rowSpans o d) else dataSpans o
  if trigPoison || (anvPorts o.kind o.xfmt).any (fun p => (getOp a p).p) then some cPoison
  else if operand then some cOperand
  else if align then some cAlign
  else if spans.all (fun p => spanAssigned s q p.1 p.2) then none
  else some cNearBound

/-- A full queue: within a bundle the bundle is held, and the anvil runs on until a place frees (R147). -/
def holdAnvil (s : State) : State :=
  { holdIssue s with issue := (holdIssue s).issue.map (fun x => { x with drain := true }) }

/-- A period in which the anvil runs on while its core stands before its full queue (R147; log entry 70). -/
def drainAnvil (c : Nat) (s : State) : State :=
  if anvilLate (getCore s c).arch then s
  else anvilRun c 9 (modAnvOf s c (fun v => { v with slip := v.slip + 1 }))

/-- Queues an operation of the running core: a full queue holds the bundle (R147); on an empty queue it starts at issue. -/
def anvTrigger (i : Instr) (k : AnvKind) (x : Val) (s : State) : State :=
  let o := anvOpOf s k x.lanes
  match anvFault s o with
  | some c => raise s i c
  | none =>
    if 8 ≤ (arch s).anv.queue.length then holdAnvil s
    else
      let s1 := modAnv s (fun v => { v with queue := v.queue ++ [o] })
      if (arch s).anv.queue.isEmpty then anvilRun s.cur 1 s1 else s1

/-- The faults of a trigger that rank above scoreboard and do not hang on its trigger value (R57, R155). -/
def anvEarly (s : State) (k : AnvKind) : Option Nat :=
  (anvFault s (anvOpOf s k (cleanV 0))).filter (fun c => decide (rankOfCause c < 6))

/-- `anv.ldw` (R149). -/
def execAnvLdw (g : Guard) (src : Src) (s : State) : Out :=
  .next (runMovePre (.anvLdw g src) g src (anvEarly s .ldw) s (anvTrigger (.anvLdw g src) .ldw))

/-- `anv.swap` (R150). -/
def execAnvSwap (g : Guard) (src : Src) (s : State) : Out :=
  .next (runMovePre (.anvSwap g src) g src (anvEarly s .swap) s (anvTrigger (.anvSwap g src) .swap))

/-- `anv.run` (R151). -/
def execAnvRun (g : Guard) (src : Src) (s : State) : Out :=
  .next (runMovePre (.anvRun g src) g src (anvEarly s .run) s (anvTrigger (.anvRun g src) .run))

/-- `anv.runz` (R151). -/
def execAnvRunz (g : Guard) (src : Src) (s : State) : Out :=
  .next (runMovePre (.anvRunz g src) g src (anvEarly s .runz) s (anvTrigger (.anvRunz g src) .runz))

/-- `anv.runv` (R151). -/
def execAnvRunv (g : Guard) (src : Src) (s : State) : Out :=
  .next (runMovePre (.anvRunv g src) g src (anvEarly s .runv) s (anvTrigger (.anvRunv g src) .runv))

/-- `anv.mpb` (R153). -/
def execAnvMpb (g : Guard) (src : Src) (s : State) : Out :=
  .next (runMovePre (.anvMpb g src) g src (anvEarly s .mpb) s (anvTrigger (.anvMpb g src) .mpb))

/-- `anv.rd` (R154). -/
def execAnvRd (g : Guard) (src : Src) (s : State) : Out :=
  .next (runMovePre (.anvRd g src) g src (anvEarly s .rd) s (anvTrigger (.anvRd g src) .rd))

/-- `anv.wr` (R154): the 64 lanes of t; a scalar is broadcast (R71). -/
def execAnvWr (g : Guard) (src : Src) (s : State) : Out :=
  .next (runMovePre (.anvWr g src) g src (anvEarly s .wr) s (fun x => anvTrigger (.anvWr g src) .wr (.vec x.broadcast)))

/-- `anv.clr` (R154). -/
def execAnvClr (g : Guard) (src : Src) (s : State) : Out :=
  .next (runMovePre (.anvClr g src) g src (anvEarly s .clr) s (anvTrigger (.anvClr g src) .clr))

/-- The code of an operation in the progress value: its trigger code - 0x210 + 1. -/
def anvCode (k : AnvKind) : Nat :=
  match k with
  | .ldw => 1 | .swap => 2 | .run => 3 | .runz => 4 | .runv => 5 | .mpb => 6 | .rd => 7 | .wr => 8 | .clr => 9

/-- The progress value of R154 at the core's present cycle. -/
def progressWord (a : CoreArch) : Word :=
  match a.anv.queue with
  | [] => 0
  | o :: rest =>
    let rows :=
      if isRun o.kind then
        match o.start with
        | some st => min o.count ((anvNow a - 1 - st - 16) / rateOf o.xfmt a.anv.active.wfmt.toNat)
        | none => 0
      else 0
    BitVec.ofNat 64 (rows % 65536 + 2 ^ 16 * anvCode o.kind + 2 ^ 20 * rest.length)

/-- `anv.prog` (R147, R154): the progress as the cycle began. -/
def execAnvProg (g : Guard) (src : Src) (s : State) : Out :=
  .next (runMove (.anvProg g src) g src s (fun _ s =>
    deliver s .anvR 2 false (cleanV (wordToVec (progressWord (startArch s))))))

end Sys2Proof.Machine
end

