-- ==== Sys2Proof/Machine/Address.lean ====
section
/-! DEFINITION. The address slots: near and far loads and stores, prefetch, atomics, gathers and scatters, address arithmetic
(R81, R108 to R121, R224 to R231). -/

namespace Sys2Proof.Machine

/-- The slot's own ports: `la` for slot 6, `lb` for slot 7 (R81, R108). -/
def inSlotB (s : State) : Bool := match s.issue with | some x => decide (x.slot = 7) | none => false
def addrResult (s : State) : PortId := if inSlotB s then .lbR else .laR
def addrData (s : State) : VVal := getOp (arch s) (if inSlotB s then .lbD else .laD)
def addrSecond (s : State) : VVal := getOp (arch s) (if inSlotB s then .lbC else .laC)

/-- The mask of a masked store: `vu.k` as it stood before the bundle, or every lane (R49, R51). -/
def storeMask (s : State) (g : Guard) : Word := if g = .mask then (getOpS (startArch s) .vuK).v else BitVec.allOnes 64

/-- The taint sets that join every effective taint: a_j, the guard's steer register, the path taint before the bundle (R230). -/
def accessTaint (s : State) (x : AddrIn) : TSet := x.a.t ||| x.guard ||| (startArch s).order.path

/-- The bytes of a vector's lanes, little-endian. -/
def laneBytes (v : Vec) (i : Nat) : List Byte := leBytes (laneOf v i).toNat 4

/-- The lanes a mask names, in order. -/
def maskedLanes (k : Word) : List Nat := (range' 0 64).filter (fun i => k.getLsbD i)

/-- Whether an address in a stash lies in a mapped region (R113). -/
def isMapped (s : State) (c a : Nat) : Bool := match regionOf s (quadOf c) a with | .mapped _ _ => true | _ => false

/-! Near accesses. -/

/-- A near access of the running slot, as it is submitted. -/
def nearOp (s : State) (kind : NearKind) (spans : List (Nat × Nat)) (writes : List (Nat × List Byte)) (lat : Nat) (e taint : TSet)
    (poison : Bool) : NearOp :=
  { ident := s.uid, kind := kind, spans := spans, writes := writes, port := addrResult s, due := (arch s).csr.cyc + lat,
    ord := orderNo s (arch s), e := e, taint := taint, poison := poison, colour := (startArch s).order.tcol, got := [] }

/-- Submits a near access and makes the slot's post-update (R109). -/
def issueNear (s : State) (op : NearOp) (u : Bool) (a : Fin 16) (x : AddrIn) : State :=
  postUpdate (submitNear { s with uid := s.uid + 1 } op) u a x

/-- The near loads of R111: bytes zero-extended, or 64 lanes. -/
def nearLoad (i : Instr) (g : Guard) (a : Fin 16) (u : Bool) (o : BitVec 6) (size align lat : Nat) (kind : NearKind) (s : State) :
    State :=
  runAddr i g a u (·.a.p) s (fun x s =>
    let ea := nearAddr x.a.v o size
    if updateBad u x then raise s i cModifier
    else if ea % align ≠ 0 then raise s i cAlign
    else if !spanAssigned s (quadOf s.cur) ea size then raise s i cNearBound
    else if decide (kind = .loadTag) && isMapped s s.cur ea then raise s i cMapping
    else issueNear s (nearOp s kind [(ea, size)] [] lat (accessTaint s x) x.a.t x.a.p) u a x)

/-- The runs of bytes that a near store of `size` bytes writes (R112); only the lanes of the mask for a vector. -/
def storeRuns (ea size : Nat) (d : Vec) (k : Word) : List (Nat × List Byte) :=
  if size = 256 then (maskedLanes k).map (fun i => (ea + 4 * i, laneBytes d i)) else [(ea, leBytes d.toNat size)]

/-- The near stores of R112 and R113. -/
def nearStoreOp (i : Instr) (g : Guard) (a : Fin 16) (u : Bool) (o : BitVec 6) (size align : Nat) (tagged : Bool) (s : State) :
    State :=
  runAddr i g a u (fun x => x.a.p || ((addrData s).p && !tagged)) s (fun x s =>
    let ea := nearAddr x.a.v o size
    let d := addrData s
    let runs := storeRuns ea size d.v (storeMask s g)
    if updateBad u x then raise s i cModifier
    else if ea % align ≠ 0 then raise s i cAlign
    else if !spanAssigned s (quadOf s.cur) ea size then raise s i cNearBound
    else if tagged && isMapped s s.cur ea then raise s i cMapping
    else if runs.any (fun r => spanProtected s (quadOf s.cur) r.1 r.2.length) then raise s i cWriteProtect
    else
      let kind : NearKind := if tagged then .storeTag d.t d.p else .store false
      issueNear s (nearOp s kind [] runs 0 (accessTaint s x ||| d.t) 0 false) u a x)

/-- The lane addresses of a gather or scatter: no modulus, so a lane past 2^64 lies beyond the stash (R119). -/
def laneAddrs (ea : Nat) (index : Vec) : List Nat := (range' 0 64).map (fun i => ea + 4 * (laneOf index i).toNat)

/-- The lowest lane of a list of lanes that fails a test. -/
def firstLane (l : List Nat) (f : Nat → Bool) : Option Nat := l.find? f

/-- A gather or scatter: every lane checked before any acts, the lowest failing lane in `uinfo` (R119). -/
def laneAccess (i : Instr) (g : Guard) (a : Fin 16) (u : Bool) (o : BitVec 6) (store : Bool) (s : State) : State :=
  runAddr i g a u (fun x => x.a.p || (addrSecond s).p || (store && (addrData s).p)) s (fun x s =>
    let ea := nearAddr x.a.v o 4
    let ix := addrSecond s
    let d := addrData s
    let q := quadOf s.cur
    let as := laneAddrs ea ix.v
    let at_ (n : Nat) : Nat := nthD as n 0
    let active := maskedLanes (storeMask s g)
    if updateBad u x then raise s i cModifier
    else
      match firstLane (range' 0 64) (fun n => decide (at_ n % 4 ≠ 0)) with
      | some n => raiseWith s i cAlign (portDetail i) n
      | none =>
        match firstLane (range' 0 64) (fun n => !spanAssigned s q (at_ n) 4) with
        | some n => raiseWith s i cNearBound (portDetail i) n
        | none =>
          if store then
            match firstLane active (fun n => spanProtected s q (at_ n) 4) with
            | some n => raiseWith s i cWriteProtect (portDetail i) n
            | none =>
              issueNear s (nearOp s (.store true) [] (active.map (fun n => (at_ n, laneBytes d.v n))) 0
                (accessTaint s x ||| ix.t ||| d.t) 0 false) u a x
          else
            issueNear s (nearOp s .load (as.map (fun b => (b, 4))) [] 12 (accessTaint s x ||| ix.t) (x.a.t ||| ix.t) false) u a x)

/-! Far accesses. -/

/-- The checks that every far access through a handle makes, in the order of R121, but for pf. -/
def farFault (h : HandleIn) (off size align : Nat) (writes : Bool) : Option Nat :=
  if off % align ≠ 0 then some cAlign
  else if 2097152 < off + size then some cHandleBound
  else if !handleValid h.h then some cHandleInvalid
  else if h.h.revoked then some cHrev
  else if writes && !h.h.wr then some cWriteProtect
  else none

/-- Raises a fault of a far access; `uinfo` names the handle (R302). -/
def raiseFar (s : State) (i : Instr) (cause : Nat) : State := raise s i cause

/-- The latency of a far latency class (R53, R81). -/
def farLatency (l : BitVec 2) : Nat := if l = 0 then 128 else if l = 1 then 512 else 3072

/-- The parts of a far access, one per line (R224). -/
def farParts (u : Nat) (l : Loc) (size : Nat) : List FarPart :=
  let first := l.pa / 64
  (range' first ((l.pa + size - 1) / 64 - first + 1)).map (fun n =>
    let lo := max l.pa (64 * n)
    let hi := min (l.pa + size) (64 * n + 64)
    { ident := u + (n - first), loc := { l with pa := lo }, len := hi - lo, done := none })

/-- The lines of a store list that hold a place's line. -/
def linesAt (l : List StoreLine) (p : Loc) : List StoreLine := l.filter (fun x => x.loc = lineLoc p)

/-- The bytes of the core's own unreleased stores of earlier bundles over a load (R115): offset in the load and byte. -/
def farOverlay (s : State) (l : Loc) (size : Nat) : List (Nat × Byte) :=
  (startArch s).order.sbuf.flatMap (fun x =>
    if x.loc.peer = l.peer then
      (range' 0 64).filterMap (fun i =>
        let pa := x.loc.pa + i
        if x.mask.getLsbD i ∧ l.pa ≤ pa ∧ pa < l.pa + size then some (pa - l.pa, x.data.extractLsb' (8 * i) 8) else none)
    else [])

/-- The released stores that a load of a place performs after (R224). -/
def storesBefore (s : State) (l : Loc) (size : Nat) : List Nat :=
  ((farParts 0 l size).flatMap (fun p => linesAt (arch s).order.released p.loc)).map (·.ident)

/-- A far load (R114, R115, R224, R229). -/
def farLoad (i : Instr) (g : Guard) (a k : Fin 16) (u : Bool) (l : BitVec 2) (size align : Nat) (s : State) : State :=
  runAddr i g a u (·.a.p) s (fun x s =>
    let h := fetchHandle s k
    let off := x.a.v.toNat
    if h.early && sbchkOn s then raise s i cScoreboard
    else if updateBad u x then raise s i cModifier
    else
      match farFault h off size align false with
      | some c => raiseFar s i c
      | none =>
        let loc := handleLoc h.h off
        let colour := (startArch s).order.tcol
        let op : FarOp :=
          { kind := .load, port := addrResult s, size := size, due := (arch s).csr.cyc + farLatency l, ord := orderNo s (arch s),
            e := accessTaint s x ||| handleTaint h, taint := x.a.t ||| colourSet colour, colour := colour, poison := false,
            parts := farParts s.uid loc size, overlay := farOverlay s loc size, after := storesBefore s loc size }
        let s1 := modOrder { s with uid := s.uid + op.parts.length } (fun r =>
          { r with far := r.far ++ [op], farCount := r.farCount + 1 })
        postUpdate s1 u a x)

/-- Byte `i` of a 64-byte line replaced. -/
def setLineByte (d : BitVec 512) (i : Nat) (b : Byte) : BitVec 512 :=
  let m : BitVec 512 := 255#512 <<< (8 * i)
  let x : BitVec 512 := b.setWidth 512 <<< (8 * i)
  (d &&& ~~~m) ||| x

/-- The mask and data of the bytes of a store that lie in one line. -/
def lineStore (runs : List (Nat × List Byte)) (line : Nat) : BitVec 64 × BitVec 512 :=
  (runs.flatMap (fun r => r.2.zipIdx.map (fun e => (r.1 + e.2, e.1)))).foldl
    (fun acc e =>
      if e.1 / 64 = line then
        (acc.1 ||| (1#64 <<< (e.1 % 64)), setLineByte acc.2 (e.1 % 64) e.2)
      else acc) ((0#64, 0#512) : BitVec 64 × BitVec 512)

/-- A far store in the signature of a rerun: one record, its address and the bytes it stores (R311); a store without a byte writes
nothing. -/
def signStore (s : State) (loc : Loc) (runs : List (Nat × List Byte)) : State :=
  if runs.isEmpty then s else signWrite s s.cur (orderNo s (arch s)) (leBytes loc.pa 8 ++ runs.flatMap (·.2))

/-- A store's bytes joined to the store buffer, merging with the line's earlier stores in issue order (R225). A line of an
earlier bundle is not merged into once an atomic of this bundle is ordered after it (R120, R228). A new line that finds 512
makes a forced commit. -/
def bufferStore (s : State) (loc : Loc) (mask : BitVec 64) (data : BitVec 512) (e : TSet) : State :=
  let a := arch s
  let n := orderNo s a
  let committed := match s.issue with | some x => x.commit | none => false
  let mergeable (x : StoreLine) : Bool := decide (x.loc = loc) && (!committed || decide (x.last / 8 = n / 8))
  if a.order.sbuf.any mergeable then
    modOrder s (fun r => { r with sbuf := r.sbuf.map (fun x =>
      if mergeable x then
        { x with mask := x.mask ||| mask, e := x.e ||| e, last := n, bundles := (n / 8 :: x.bundles).eraseDups,
                 data := (range' 0 64).foldl (fun d i =>
                   if mask.getLsbD i then setLineByte d i (data.extractLsb' (8 * i) 8) else d) x.data }
      else x) })
  else
    let s1 := if 512 ≤ a.order.sbuf.length then openWindow (commitEvent s) s.cur 3 else s
    let line : StoreLine :=
      { ident := s1.uid, loc := loc, mask := mask, data := data, e := e, first := n, last := n, bundles := [n / 8] }
    modOrder { s1 with uid := s1.uid + 1 } (fun r => { r with sbuf := r.sbuf ++ [line] })

/-- A far store (R114, R115, R225). -/
def farStore (i : Instr) (g : Guard) (a k : Fin 16) (u : Bool) (size align : Nat) (s : State) : State :=
  runAddr i g a u (fun x => x.a.p || (addrData s).p) s (fun x s =>
    let h := fetchHandle s k
    let off := x.a.v.toNat
    let d := addrData s
    if h.early && sbchkOn s then raise s i cScoreboard
    else if updateBad u x then raise s i cModifier
    else
      match farFault h off size align true with
      | some c => raiseFar s i c
      | none =>
        let loc := handleLoc h.h off
        let runs := storeRuns loc.pa size d.v (storeMask s g)
        let e := accessTaint s x ||| handleTaint h ||| d.t
        let s1 := (farParts 0 loc size).foldl (fun s p =>
          let (m, w) := lineStore runs (p.loc.pa / 64)
          if m = 0 then s else bufferStore s (lineLoc p.loc) m w e) (signStore s loc runs)
        postUpdate s1 u a x)

/-- A prefetch (R116): without effect of its own when the handle cannot be used, the offset is out of bound, a_j is poisoned or
the line is homed on a peer. DESIGN CHOICE (log 67): the offset is out of bound when it is 2^21 or more; R81's 64 bytes are the
line's, which the offset need not begin. -/
def prefetch (i : Instr) (g : Guard) (a k : Fin 16) (u : Bool) (s : State) : State :=
  runAddr i g a u (fun _ => false) s (fun x s =>
    let h := fetchHandle s k
    let off := x.a.v.toNat
    if h.early && sbchkOn s then raise s i cScoreboard
    else if updateBad u x then raise s i cModifier
    else if x.a.p || !handleValid h.h || h.h.revoked || decide (2097152 ≤ off) || decide (h.h.home = 2) then
      postUpdate s u a x
    else
      let loc := lineLoc (handleLoc h.h off)
      let op : FarOp :=
        { kind := .prefetch, port := addrResult s, size := 64, due := 0, ord := orderNo s (arch s),
          e := accessTaint s x ||| handleTaint h, taint := 0, colour := (startArch s).order.tcol, poison := false,
          parts := farParts s.uid loc 64, overlay := [], after := [] }
      postUpdate (modOrder { s with uid := s.uid + 1 } (fun r => { r with far := r.far ++ [op] })) u a x)

/-! Atomics (R117, R228). -/

/-- The latency of an atomic's scope (R81). -/
def atomLatency (scope : Nat) : Nat := if scope = 2 then 12 else if scope = 3 then 160 else if scope = 4 then 256 else 3072

/-- Whether the line of an atomic is homed within its scope. -/
def atomInScope (c scope : Nat) (l : Loc) : Bool :=
  match scope with
  | 3 => l.peer.isNone && decide (homeOf l.pa = dieOf c)
  | 4 => l.peer.isNone
  | _ => true

def atomOp (i : Instr) (g : Guard) (a k : Fin 16) (c : BitVec 3) (fn : Nat) (s : State) : State :=
  runAddr i g a false (fun x => x.a.p || (addrData s).p || (decide (fn = 9) && (addrSecond s).p)) s (fun x s =>
    let d := addrData s
    let y := addrSecond s
    let scope := c.toNat
    let off := x.a.v.toNat
    let e := accessTaint s x ||| d.t ||| (if fn = 9 then y.t else 0)
    let dw := vecToWord d.v
    let cw := vecToWord y.v
    if scope = 2 then
      if off % 8 ≠ 0 then raise s i cAlign
      else if !spanAssigned s (quadOf s.cur) off 8 then raise s i cNearBound
      else if spanProtected s (quadOf s.cur) off 8 then raise s i cWriteProtect
      else
        let op := nearOp s (.atom fn dw cw) [(off, 8)] [] 12 e x.a.t false
        openWindow (submitNear { s with uid := s.uid + 1 } op) s.cur 5
    else
      let h := fetchHandle s k
      if h.early && sbchkOn s then raise s i cScoreboard
      else
        match farFault h off 8 8 true with
        | some f => raiseFar s i f
        | none =>
          let loc := handleLoc h.h off
          if !atomInScope s.cur scope loc then raise s i cAtomicScope
          else
            let colour := (startArch s).order.tcol
            let ord := (arch s).order
            let op : FarOp :=
              { kind := .atom fn dw cw scope, port := addrResult s, size := 8, due := (arch s).csr.cyc + atomLatency scope,
                ord := orderNo s (arch s), e := e ||| handleTaint h, taint := x.a.t ||| colourSet colour, colour := colour,
                poison := false, parts := farParts s.uid loc 8, overlay := [],
                after := (ord.sbuf ++ ord.released).map (·.ident) }
            let s1 := modOrder { s with uid := s.uid + 1 } (fun r => { r with far := r.far ++ [op] })
            openWindow (commitEvent s1) s1.cur 1)

/-- `ldn.b` (R110, R111). -/
def execLdnB (g : Guard) (a : Fin 16) (u : Bool) (o : BitVec 6) (s : State) : Out :=
  .next (nearLoad (.ldnB g a u o) g a u o 1 1 6 .load s)

/-- `ldn.h` (R110, R111). -/
def execLdnH (g : Guard) (a : Fin 16) (u : Bool) (o : BitVec 6) (s : State) : Out :=
  .next (nearLoad (.ldnH g a u o) g a u o 2 2 6 .load s)

/-- `ldn.w` (R110, R111). -/
def execLdnW (g : Guard) (a : Fin 16) (u : Bool) (o : BitVec 6) (s : State) : Out :=
  .next (nearLoad (.ldnW g a u o) g a u o 4 4 6 .load s)

/-- `ldn.d` (R110, R111). -/
def execLdnD (g : Guard) (a : Fin 16) (u : Bool) (o : BitVec 6) (s : State) : Out :=
  .next (nearLoad (.ldnD g a u o) g a u o 8 8 6 .load s)

/-- `ldn.v` (R110, R111). -/
def execLdnV (g : Guard) (a : Fin 16) (u : Bool) (o : BitVec 6) (s : State) : Out :=
  .next (nearLoad (.ldnV g a u o) g a u o 256 32 8 .load s)

/-- `ldn.t`: the word with its tag (R113). -/
def execLdnT (g : Guard) (a : Fin 16) (u : Bool) (o : BitVec 6) (s : State) : Out :=
  .next (nearLoad (.ldnT g a u o) g a u o 8 8 6 .loadTag s)

/-- `stn.b` (R110, R112). -/
def execStnB (g : Guard) (a : Fin 16) (u : Bool) (o : BitVec 6) (s : State) : Out :=
  .next (nearStoreOp (.stnB g a u o) g a u o 1 1 false s)

/-- `stn.h` (R110, R112). -/
def execStnH (g : Guard) (a : Fin 16) (u : Bool) (o : BitVec 6) (s : State) : Out :=
  .next (nearStoreOp (.stnH g a u o) g a u o 2 2 false s)

/-- `stn.w` (R110, R112). -/
def execStnW (g : Guard) (a : Fin 16) (u : Bool) (o : BitVec 6) (s : State) : Out :=
  .next (nearStoreOp (.stnW g a u o) g a u o 4 4 false s)

/-- `stn.d` (R110, R112). -/
def execStnD (g : Guard) (a : Fin 16) (u : Bool) (o : BitVec 6) (s : State) : Out :=
  .next (nearStoreOp (.stnD g a u o) g a u o 8 8 false s)

/-- `stn.v` (R110, R112). -/
def execStnV (g : Guard) (a : Fin 16) (u : Bool) (o : BitVec 6) (s : State) : Out :=
  .next (nearStoreOp (.stnV g a u o) g a u o 256 32 false s)

/-- `stn.t`: the word with its tag, poisoned data too (R113). -/
def execStnT (g : Guard) (a : Fin 16) (u : Bool) (o : BitVec 6) (s : State) : Out :=
  .next (nearStoreOp (.stnT g a u o) g a u o 8 8 true s)

/-- `ldn.gv` (R119). -/
def execLdnGv (g : Guard) (a : Fin 16) (u : Bool) (o : BitVec 6) (s : State) : Out :=
  .next (laneAccess (.ldnGv g a u o) g a u o false s)

/-- `stn.sv` (R119). -/
def execStnSv (g : Guard) (a : Fin 16) (u : Bool) (o : BitVec 6) (s : State) : Out :=
  .next (laneAccess (.stnSv g a u o) g a u o true s)

/-- `ldf.w` (R114, R115). -/
def execLdfW (g : Guard) (a : Fin 16) (k : Fin 16) (u : Bool) (l : BitVec 2) (s : State) : Out :=
  .next (farLoad (.ldfW g a k u l) g a k u l 4 4 s)

/-- `stf.w` (R114, R115). -/
def execStfW (g : Guard) (a : Fin 16) (k : Fin 16) (u : Bool) (l : BitVec 2) (s : State) : Out :=
  .next (farStore (.stfW g a k u l) g a k u 4 4 s)

/-- `ldf.d` (R114, R115). -/
def execLdfD (g : Guard) (a : Fin 16) (k : Fin 16) (u : Bool) (l : BitVec 2) (s : State) : Out :=
  .next (farLoad (.ldfD g a k u l) g a k u l 8 8 s)

/-- `stf.d` (R114, R115). -/
def execStfD (g : Guard) (a : Fin 16) (k : Fin 16) (u : Bool) (l : BitVec 2) (s : State) : Out :=
  .next (farStore (.stfD g a k u l) g a k u 8 8 s)

/-- `ldf.v` (R114, R115). -/
def execLdfV (g : Guard) (a : Fin 16) (k : Fin 16) (u : Bool) (l : BitVec 2) (s : State) : Out :=
  .next (farLoad (.ldfV g a k u l) g a k u l 256 64 s)

/-- `stf.v` (R114, R115). -/
def execStfV (g : Guard) (a : Fin 16) (k : Fin 16) (u : Bool) (l : BitVec 2) (s : State) : Out :=
  .next (farStore (.stfV g a k u l) g a k u 256 64 s)

/-- `atom.add` (R117). -/
def execAtomAdd (g : Guard) (a : Fin 16) (k : Fin 16) (c : BitVec 3) (s : State) : Out :=
  .next (atomOp (.atomAdd g a k c) g a k c 0 s)

/-- `atom.and` (R117). -/
def execAtomAnd (g : Guard) (a : Fin 16) (k : Fin 16) (c : BitVec 3) (s : State) : Out :=
  .next (atomOp (.atomAnd g a k c) g a k c 1 s)

/-- `atom.or` (R117). -/
def execAtomOr (g : Guard) (a : Fin 16) (k : Fin 16) (c : BitVec 3) (s : State) : Out :=
  .next (atomOp (.atomOr g a k c) g a k c 2 s)

/-- `atom.xor` (R117). -/
def execAtomXor (g : Guard) (a : Fin 16) (k : Fin 16) (c : BitVec 3) (s : State) : Out :=
  .next (atomOp (.atomXor g a k c) g a k c 3 s)

/-- `atom.min` (R117). -/
def execAtomMin (g : Guard) (a : Fin 16) (k : Fin 16) (c : BitVec 3) (s : State) : Out :=
  .next (atomOp (.atomMin g a k c) g a k c 4 s)

/-- `atom.max` (R117). -/
def execAtomMax (g : Guard) (a : Fin 16) (k : Fin 16) (c : BitVec 3) (s : State) : Out :=
  .next (atomOp (.atomMax g a k c) g a k c 5 s)

/-- `atom.minu` (R117). -/
def execAtomMinu (g : Guard) (a : Fin 16) (k : Fin 16) (c : BitVec 3) (s : State) : Out :=
  .next (atomOp (.atomMinu g a k c) g a k c 6 s)

/-- `atom.maxu` (R117). -/
def execAtomMaxu (g : Guard) (a : Fin 16) (k : Fin 16) (c : BitVec 3) (s : State) : Out :=
  .next (atomOp (.atomMaxu g a k c) g a k c 7 s)

/-- `atom.xchg` (R117). -/
def execAtomXchg (g : Guard) (a : Fin 16) (k : Fin 16) (c : BitVec 3) (s : State) : Out :=
  .next (atomOp (.atomXchg g a k c) g a k c 8 s)

/-- `atom.cas` (R117). -/
def execAtomCas (g : Guard) (a : Fin 16) (k : Fin 16) (c : BitVec 3) (s : State) : Out :=
  .next (atomOp (.atomCas g a k c) g a k c 9 s)

/-- `aupd`: the post-update of R109 and nothing else (R118). -/
def execAupd (g : Guard) (a : Fin 16) (s : State) : Out :=
  .next (runAddr (.aupd g a) g a true (fun _ => false) s (fun x s =>
    if updateBad true x then raise s (.aupd g a) cModifier else postUpdate s true a x))

/-- `aadd`: a_j := a_j + n (R118). -/
def execAadd (g : Guard) (a : Fin 16) (n : BitVec 7) (s : State) : Out :=
  .next (runAddr (.aadd g a n) g a false (fun _ => false) s (fun x s =>
    writeA s a { v := x.a.v + n.signExtend 64, t := x.a.t, p := x.a.p }))

/-- `pf` (R116). -/
def execPf (g : Guard) (a : Fin 16) (k : Fin 16) (u : Bool) (l : BitVec 2) (s : State) : Out :=
  .next (prefetch (.pf g a k u l) g a k u s)

end Sys2Proof.Machine
end

