-- ==== Sys2Proof/Machine/Flags.lean ====
section
/-! DEFINITION. Every flag computation: the conditions of the steer compares, the masks of the vector compares, and the fields of
the status registers `ckstat`, `sbchk` and `uie` (R60, R82, R92, R127, R129, R314). -/

namespace Sys2Proof.Machine

/-- The eight conditions of R92. -/
def condEq (o t : Word) : Bool := decide (o = t)
def condNe (o t : Word) : Bool := decide (o ≠ t)
def condLt (o t : Word) : Bool := o.slt t
def condGe (o t : Word) : Bool := !o.slt t
def condLtu (o t : Word) : Bool := o.ult t
def condGeu (o t : Word) : Bool := !o.ult t
def condTst (o t : Word) : Bool := decide (o &&& t ≠ 0)
def condTstn (o t : Word) : Bool := decide (o &&& t = 0)

/-- A 64-bit mask whose bit `i`, for `i < n`, is `f i`. -/
def buildMask (f : Nat → Bool) : Nat → Word
  | 0 => 0
  | n + 1 => buildMask f n ||| (if f n then (1#64 <<< n) else 0)

/-- A mask over the 64 lanes (R127, R129). -/
def laneMask (f : Nat → Bool) : Word := buildMask f 64

/-- A bit as a word. -/
def boolWord (b : Bool) : Word := if b then 1 else 0

/-- `ckstat` (R314). -/
def ckstatWord (jn : Journal) (stores : Nat) : Word :=
  BitVec.ofNat 64 ((if jn.windowOpen then 1 + 2 * (jn.why % 8) else 0) + 16 * jn.ckaddr.toNat +
    2 ^ 17 * (ceilDiv jn.bytes 64 % 4096) + 2 ^ 29 * (stores % 1024) + 2 ^ 39 * min jn.rolls 255)

/-- A field that a poisoned, tainted result takes from its operands (R85). -/
def joinS (o t : SVal) (v : Word) : SVal := { v := v, t := o.t ||| t.t, p := o.p || t.p }

end Sys2Proof.Machine
end

