-- ==== Sys2Proof/Machine/Channels.lean ====
section
/-! DEFINITION. Barrier channels: members, arrivals, observed releases, release delays, and the pod tree (R38 to R43, R345). -/

namespace Sys2Proof.Machine

/-! Channels. -/

def emptyChan (x : ChanId) : Chan :=
  { ident := x, base := 0, arrived := [], observed := [], released := 0, dueAt := [], parts := [] }

def getChan (s : State) (x : ChanId) : Chan := (s.hub.chans.find? (fun c => c.ident = x)).getD (emptyChan x)

def setChan (s : State) (c : Chan) : State :=
  let l := if s.hub.chans.any (fun d => d.ident = c.ident) then s.hub.chans.map (fun d => if d.ident = c.ident then c else d)
    else s.hub.chans ++ [c]
  { s with hub := { s.hub with chans := l } }

/-- The channel a core names: its gang's, on the core's instance of the scope (R38, R39). -/
def chanIdOf (s : State) (c scope ch : Nat) : ChanId :=
  { ctx := ((getCore s c).gang).getD 0, scope := scope,
    inst := if scope = 2 then quadOf c else if scope = 3 then dieOf c else 0, ch := ch }

/-- Whether the gang of a core holds a channel (R39, R41). -/
def holdsChan (s : State) (c scope ch : Nat) : Bool :=
  match (getCore s c).gang with
  | none => false
  | some ctx =>
    let b := getBlock s ctx
    match scope with
    | 2 => decide (ch < 8)
    | 3 => decide (ch < blkDieCh b)
    | 4 => decide (ch < blkPkgCh b)
    | 5 => decide (ch < blkPodCh b)
    | _ => false

/-- The members of a channel's instance, in rank order (R38). -/
def chanMembers (s : State) (x : ChanId) : List Nat :=
  match getGang s x.ctx with
  | none => []
  | some g =>
    let cs := gangCores g
    if x.scope = 2 then cs.filter (fun c => quadOf c = x.inst)
    else if x.scope = 3 then cs.filter (fun c => dieOf c = x.inst)
    else cs

/-- Whether a core's task has completed (R42). -/
def hasCompleted (s : State) (c : Nat) : Bool :=
  match (getCore s c).status with
  | .completed _ => true
  | _ => false

def arrivals (x : Chan) (c : Nat) : Nat := alGet 0 x.arrived c

/-- Phases for which every member has arrived, a completed member having arrived for all; when every member has completed, those
that any has arrived for (R42). -/
def fullPhases (s : State) (x : Chan) : Nat :=
  match (chanMembers s x.ident).filter (fun c => !hasCompleted s c) with
  | c :: rest => rest.foldl (fun n d => min n (arrivals x d)) (arrivals x c)
  | [] => (x.arrived.map (·.2)).foldl max 0

/-- The release delay of a scope in periods (R38). -/
def releaseDelay (scope : Nat) : Nat := if scope = 2 then 4 else if scope = 3 then 24 else 96

/-- Whether a wait is for a blocked arrival on a channel. -/
def blockedOn (x : ChanId) : Wait → Bool
  | .blocked y _ _ => decide (y = x)
  | .both a b => blockedOn x a || blockedOn x b
  | _ => false

/-- How many releases a member has observed: a member blocked on the channel observes them all (R42). -/
def observedBy (s : State) (x : Chan) (c : Nat) : Nat :=
  match (getCore s c).arch.seq.wait with
  | some w => if blockedOn x.ident w then x.released else alGet 0 x.observed c
  | none => alGet 0 x.observed c

/-- Whether the counter of an arrival's phase is free (R42). -/
def counterFree (s : State) (x : Chan) (phase : Nat) : Bool :=
  decide (phase < 2) ||
    (chanMembers s x.ident).all (fun c => hasCompleted s c || decide (phase - 1 ≤ observedBy s x c))

/-- A member has an operation on the channel issued: it has observed every release so far (R42). -/
def noteObserved (s : State) (x : ChanId) (c : Nat) : State :=
  let ch := getChan s x
  setChan s { ch with observed := alPut ch.observed c ch.released }

/-! The pod tree (R345): the module at position i of the group sends to the position with the lowest set bit of i cleared, so
that parts combine pairwise in the order of module identity. -/

def getGroup (s : State) (n : Nat) : Option PodGroup := (s.hub.groups.find? (fun e => e.1 = n)).map (·.2)
def setGroup (s : State) (n : Nat) (g : PodGroup) : State := { s with hub := { s.hub with groups := alPut s.hub.groups n g } }

/-- The position of this module in a group. -/
def groupPos (s : State) (g : PodGroup) : Nat := posIn g.members (modIdent s)

/-- The parent of a position. -/
def treeParent (i : Nat) : Nat := i &&& (i - 1)

/-- The children of a position among `n`. -/
def treeChildren (i n : Nat) : List Nat := (range' (i + 1) (n - (i + 1))).filter (fun j => treeParent j = i)

def getPhase (l : List (Nat × Nat)) (ch : Nat) : Nat := alGet 0 l ch

/-- The body of a PCOLL frame (R346). -/
def pcollBody (x : PColl) : List Byte :=
  leBytes x.group 2 ++ leBytes x.channel 1 ++ leBytes x.kind 1 ++ leBytes x.phase 4 ++ leBytes x.xfer 4 ++ leBytes x.op 1 ++
    leBytes x.fnfmt 1 ++ leBytes x.root 2 ++ leBytes x.offset 4 ++ leBytes x.total 4 ++ leBytes 0 8 ++ x.data

/-- Sends a PCOLL to a module; it is resent until acknowledged (R345, R346). -/
def sendPcoll (s : State) (dest : Nat) (x : PColl) : State :=
  let n := s.hub.nextXfer
  let y := { x with src := modIdent s, xfer := n }
  let r : PodXfer :=
    { num := n, core := 0, ident := x.group * 16 + x.channel, kind := 4, peer := dest, world := 0, cls := 0x50, fn := x.kind,
      pa := x.phase, mask := 0, data := pcollBody y, stamp := s.clock, sentAt := s.now, resends := 0 }
  sendPod { s with hub := { s.hub with xfers := s.hub.xfers ++ [r], nextXfer := (n + 1) % 2 ^ 32 } } 0x50 dest n (pcollBody y)

/-- An arrival or release frame. -/
def plainPcoll (group ch kind phase : Nat) : PColl :=
  { src := 0, group := group, channel := ch, kind := kind, phase := phase, xfer := 0, op := 0, fnfmt := 0, root := 0, offset := 0,
    total := 0, data := [], tasks := 0 }

/-- Whether this module and every module below it have arrived for a phase of a group channel. -/
def subtreeArrived (s : State) (g : PodGroup) (ch phase : Nat) : Bool :=
  decide (phase < getPhase g.mine ch) &&
    (treeChildren (groupPos s g) g.members.length).all (fun j =>
      g.theirs.any (fun e => e.1 = ch && e.2.1 = nthD g.members j 0 && decide (phase < e.2.2)))

/-- Releases a phase of a group channel here and sends the release down the tree. -/
def podRelease (s : State) (n ch phase : Nat) : State :=
  match getGroup s n with
  | none => s
  | some g =>
    if getPhase g.released ch ≤ phase then
      let s1 := setGroup s n { g with released := alPut g.released ch (phase + 1) }
      (treeChildren (groupPos s g) g.members.length).foldl
        (fun s j => sendPcoll s (nthD g.members j 0) (plainPcoll n ch 1 phase)) s1
    else s

/-- After an arrival: when the subtree is complete for the next phase, the arrival goes to the parent, and at the root the
phase is released. -/
def podAdvance (s : State) (n ch phase : Nat) : State :=
  match getGroup s n with
  | none => s
  | some g =>
    if subtreeArrived s g ch phase then
      if groupPos s g = 0 then podRelease s n ch phase
      else sendPcoll s (nthD g.members (treeParent (groupPos s g)) 0) (plainPcoll n ch 0 phase)
    else s

/-- This module's arrivals follow its gang's (R39, R40). -/
def podArrive (s : State) (x : Chan) (full : Nat) : State :=
  let n := blkPodGrp (getBlock s x.ident.ctx)
  match getGroup s n with
  | none => s
  | some g =>
    let have_ := getPhase g.mine x.ident.ch
    (range' have_ (x.base + full - have_)).foldl
      (fun s p =>
        match getGroup s n with
        | some g => podAdvance (setGroup s n { g with mine := alPut g.mine x.ident.ch (p + 1) }) n x.ident.ch p
        | none => s) s

/-- After an arrival or a completion: the releases that have become due are dated (R38, R42). The delay is a number of whole periods
after that of the last arrival, all counted by a task that waits. -/
def dateReleases (s : State) (x : ChanId) : State :=
  let ch := getChan s x
  let n := fullPhases s ch
  if x.scope = 5 then podArrive s ch n
  else
    let fresh := n - (ch.released + ch.dueAt.length)
    setChan s { ch with dueAt := ch.dueAt ++ List.replicate fresh (s.now + releaseDelay x.scope + 1) }

/-- Counts a member's arrival for its next phase (R42). -/
def countArrival (s : State) (x : ChanId) (c : Nat) : State :=
  let ch := getChan s x
  dateReleases (setChan s { ch with arrived := alPut ch.arrived c (arrivals ch c + 1) }) x

/-- After a member completes, every channel of its gang is looked at (R42). -/
def dateGang (s : State) (ctx : Nat) : State :=
  (s.hub.chans.filter (fun c => c.ident.ctx = ctx)).foldl (fun s c => dateReleases s c.ident) s

/-- Whether a phase has been released. -/
def phaseReleased (s : State) (x : ChanId) (phase : Nat) : Bool := decide (phase < (getChan s x).released)

/-- Releases the next phase of a channel (R42). -/
def releasePhase (s : State) (x : ChanId) : State :=
  let ch := getChan s x
  setChan s { ch with released := ch.released + 1, dueAt := ch.dueAt.drop 1 }

/-- Whether the release of the next phase is due: after its delay, at pod scope when the group channel is released. -/
def releaseDue (s : State) (ch : Chan) : Bool :=
  if ch.ident.scope = 5 then
    match getGroup s (blkPodGrp (getBlock s ch.ident.ctx)) with
    | some g => decide (ch.base + ch.released < getPhase g.released ch.ident.ch)
    | none => false
  else
    match ch.dueAt with
    | t :: _ => decide (t ≤ s.now)
    | [] => false

/-! The descriptor of R41. -/

def barScope (w : Word) : Nat := natField w.toNat 0 3
def barChannel (w : Word) : Nat := natField w.toNat 3 6

/-- Whether a descriptor names a channel the core holds (R41). -/
def barOk (s : State) (c : Nat) (x : SVal) : Bool :=
  decide (2 ≤ barScope x.v ∧ barScope x.v ≤ 5) && !x.p && holdsChan s c (barScope x.v) (barChannel x.v)

end Sys2Proof.Machine
end

