-- ==== Sys2Proof/Machine/System.lean ====
section
/-! DEFINITION. Handles, the taint unit and the barrier unit (R41 to R43, R79, R175 to R179, R212, R213). -/

namespace Sys2Proof.Machine

/-! Handles. -/

/-- The range of the task's lease set that holds a virtual address (R175, R212). DESIGN CHOICE (log entry 105): of two that hold it, the one
that the record names first. -/
def leaseRange (s : State) (c va : Nat) : Option PageRange :=
  match gangOf s c with
  | none => none
  | some g => g.lease.find? (fun r => decide (r.vpage ≤ va / 2097152 ∧ va / 2097152 < r.vpage + r.pages))

/-- The handle that a translation of a page gives (R212, R213): WR only where the page and the range both allow writing. -/
def makeHandle (s : State) (c va : Nat) (rw : Bool) (t : TSet) : Handle :=
  let ctx := ((getCore s c).gang).getD 0
  let e := leafOf s ctx va
  { made := pageReady s ctx va, base := BitVec.ofNat 48 (va / 2097152 * 2097152), frame := leafFrame e, home := BitVec.ofNat 2 (leafHome e),
    pkg := BitVec.ofNat 10 (leafPkg e), wr := leafW e && rw, pageRo := !leafW e, sh := leafSh e, valid := true, revoked := false,
    t := t }

/-- The status of a translation in `xl.r` (R175). -/
def handleStatus (h : Handle) : Word := BitVec.ofNat 64 (1 + (if h.wr then 2 else 0) + 4 * h.home.toNat)

/-- `xl.hK` (R175): poison, the address range, the lease, then a translation due 12 cycles later. -/
def execXlHk (g : Guard) (src : Src) (k : Fin 16) (s : State) : Out :=
  .next (runMove (.xlHk g src k) g src s (fun x s =>
    let t := x.scalar
    let va := t.v.toNat
    if t.p then raise s (.xlHk g src k) cPoison
    else if 2 ^ 48 ≤ va then raise s (.xlHk g src k) cOperand
    else
      match leaseRange s s.cur va with
      | none => raise s (.xlHk g src k) cLease
      | some r =>
        modArch s (fun a =>
          { a with hdue := a.hdue ++
              [{ k := k, va := va, at_ := a.csr.cyc + 12, ord := orderNo s a, hnd := makeHandle s s.cur va r.rw t.t,
                 live := true }] })))

/-- `xl.drop` (R176): h_K invalid from the next bundle, a translation into it in flight discarded. -/
def execXlDrop (g : Guard) (src : Src) (s : State) : Out :=
  .next (runMove (.xlDrop g src) g src s (fun x s =>
    let t := x.scalar
    let k := Fin.ofNat 16 (t.v.toNat % 16)
    if t.p then raise s (.xlDrop g src) cPoison
    else
      modArch s (fun a =>
        { a with regs := { a.regs with h := vset a.regs.h k { vget a.regs.h k with valid := false } },
                 hdue := a.hdue.map (fun d => if d.k = k then { d with live := false } else d) })))

/-! Taint (R177). -/

/-- `tnt.clr`: t with empty taint. -/
def execTntClr (g : Guard) (src : Src) (s : State) : Out :=
  .next (runMove (.tntClr g src) g src s (fun x s =>
    let t := x.lanes
    deliver s .tntR 1 true { v := t.v, t := 0, p := t.p }))

/-- `tnt.join`: the value in `tnt.o` with both taints and poisons. -/
def execTntJoin (g : Guard) (src : Src) (s : State) : Out :=
  .next (runMove (.tntJoin g src) g src s (fun x s =>
    let o := getOp (arch s) .tntO
    let t := x.lanes
    deliver s .tntR 1 true { v := o.v, t := o.t ||| t.t, p := o.p || t.p }))

/-- `tnt.pclr`: the colours of t leave the path taint, whose new value is the result. -/
def execTntPclr (g : Guard) (src : Src) (s : State) : Out :=
  .next (runMove (.tntPclr g src) g src s (fun x s =>
    let t := x.lanes
    if t.p then raise s (.tntPclr g src) cPoison
    else
      let new := (arch s).order.path &&& ~~~(t.v.setWidth 16)
      deliver (modOrder s (fun o => { o with path := new })) .tntR 1 true (cleanV (new.setWidth 2048))))

/-- `tnt.next`: the colour advances at the end of the cycle; the new colour is the result (R177, R229). -/
def execTntNext (g : Guard) (src : Src) (s : State) : Out :=
  .next (runMove (.tntNext g src) g src s (fun _ s =>
    let new := (startArch s).order.tcol + 1
    let s1 := deliver s .tntR 1 true (cleanV (BitVec.ofNat 2048 new.val))
    match s1.issue with
    | some i => { s1 with issue := some { i with advance := true } }
    | none => modOrder s1 (fun o => { o with tcol := new, farCount := 0 })))

/-- `tnt.of`: the taint and poison of t as a value. -/
def execTntOf (g : Guard) (src : Src) (s : State) : Out :=
  .next (runMove (.tntOf g src) g src s (fun x s =>
    let t := x.lanes
    deliver s .tntR 1 true (cleanV (BitVec.ofNat 2048 (t.t.toNat + if t.p then 65536 else 0)))))

/-! Barriers (R41 to R43, R178, R179). -/

/-- An arrival, counted or blocked; `sync` waits for its release next (R42, R43). -/
def arriveAt (s : State) (x : ChanId) (sync : Bool) : State :=
  let s1 := openWindow (noteObserved s x s.cur) s.cur 5
  let phase := arrivals (getChan s1 x) s1.cur
  if counterFree s1 (getChan s1 x) phase then
    let s2 := countArrival s1 x s1.cur
    if sync then setWait s2 (.release x phase) else s2
  else setWait s1 (.blocked x phase sync)

/-- The channel a descriptor names. -/
def descChan (s : State) (t : Word) : ChanId := chanIdOf s s.cur (barScope t) (barChannel t)

/-- `bar.arrive`. -/
def execBarArrive (g : Guard) (src : Src) (s : State) : Out :=
  .next (runMove (.barArrive g src) g src s (fun x s =>
    if barOk s s.cur x.scalar then arriveAt s (descChan s x.scalar.v) false else raise s (.barArrive g src) cOperand))

/-- `bar.wait`: until the phase of the latest arrival is released; without an arrival it leaves all ones (R43). -/
def execBarWait (g : Guard) (src : Src) (s : State) : Out :=
  .next (runMove (.barWait g src) g src s (fun x s =>
    if barOk s s.cur x.scalar then
      let c := descChan s x.scalar.v
      let s1 := noteObserved s c s.cur
      let n := arrivals (getChan s1 c) s1.cur
      if n = 0 then deliver s1 .barR 1 false (cleanV (wordToVec (BitVec.allOnes 64))) else setWait s1 (.release c (n - 1))
    else raise s (.barWait g src) cOperand))

/-- `bar.sync`: an arrival and the wait for its release. -/
def execBarSync (g : Guard) (src : Src) (s : State) : Out :=
  .next (runMove (.barSync g src) g src s (fun x s =>
    if barOk s s.cur x.scalar then arriveAt s (descChan s x.scalar.v) true else raise s (.barSync g src) cOperand))

/-- `bar.drain`: a commit event and a wait until every far access has performed (R179). -/
def execBarDrain (g : Guard) (src : Src) (s : State) : Out :=
  .next (runMove (.barDrain g src) g src s (fun _ s => setWait (openWindow (commitEvent s) s.cur 1) .drain))

end Sys2Proof.Machine
end

