-- ==== Sys2Proof/Machine/CoreEvents.lean ====
section
/-! DEFINITION. Events of a core: results delivered, far accesses performed, the colour, forced commits, checkpoints, watchdogs
and engine completions taken (R30, R33, R35, R58, R115, R172, R224 to R231, R308, R309). An event that is not enabled changes
nothing. -/

namespace Sys2Proof.Machine

def modArchOf (s : State) (c : Nat) (f : CoreArch → CoreArch) : State := modCore s c (fun x => { x with arch := f x.arch })

/-! Results (R58). -/

/-- Inserts a result by issue order. -/
def insertDue (d : Due) : List Due → List Due
  | [] => [d]
  | e :: rest => if d.at_ < e.at_ ∨ (d.at_ = e.at_ ∧ d.ord ≤ e.ord) then d :: e :: rest else e :: insertDue d rest

def sortDues (l : List Due) : List Due := l.foldr insertDue []

/-- The bytes of a far access that has arrived, the core's own unreleased stores merged over the home's (R115). -/
def farBytes (f : FarOp) : List Byte :=
  f.overlay.foldl (fun l e => setNth l e.1 e.2)
    (f.parts.flatMap (fun p => match p.done with | some (_, bs, _) => bs | none => []))

/-- A far access that has arrived, as a result. -/
def farDue (f : FarOp) : Due :=
  { port := f.port, at_ := f.due, ord := f.ord, short := false,
    val := { v := BitVec.ofNat 2048 (leNat (farBytes f)), t := f.taint,
             p := f.poison || f.parts.any (fun p => match p.done with | some (_, _, b) => b | none => false) } }

/-- Whether a far access is an atomic. -/
def isAtom (f : FarOp) : Bool := match f.kind with | .atom _ _ _ _ => true | _ => false

/-- The journal record of a far access delivered (R309). An atomic issued before the checkpoint is kept too, without a size of its
own, so that a rerun does not perform it again. -/
def loadRec (f : FarOp) : LoadRec :=
  { ord := f.ord, atom := isAtom f, colour := f.colour, bytes := farBytes f,
    bad := f.poison || f.parts.any (fun p => match p.done with | some (_, _, b) => b | none => false),
    stamp := (f.parts.map (fun p => match p.done with | some (n, _, _) => n | none => 0)).foldl max 0, at_ := f.due }

/-- A translation as it arrives: the handle made at issue, or looked up now (R212). -/
def arrivedHandle (s : State) (c : Nat) (d : HDue) : Handle :=
  if d.hnd.made then d.hnd
  else makeHandle s c d.va (((leaseRange s c d.va).map (·.rw)).getD false) d.hnd.t

/-- Delivers the translations that are due: the handles, then their statuses as results (R79, R175). -/
def deliverHandles (s : State) (c : Nat) : State :=
  let n := (getCore s c).arch.csr.cyc
  let ctx := ((getCore s c).gang).getD 0
  let ready := (getCore s c).arch.hdue.filter (fun d => decide (d.at_ ≤ n) && (d.hnd.made || pageReady s ctx d.va))
  ready.foldl (fun s d =>
    let h := arrivedHandle s c d
    modArchOf s c (fun a =>
      { a with hdue := a.hdue.erase d,
               regs := if d.live then { a.regs with h := vset a.regs.h d.k h } else a.regs,
               due := a.due ++ [{ port := .xlR, at_ := d.at_, ord := d.ord, val := cleanV (wordToVec (handleStatus h)), short := true }] })) s

/-- RESULT_DELIVERY: every result due reaches its port, the later-issued of two last (R30, R58); far loads are journaled (R309). -/
def execResultDelivery (c : Nat) (s : State) : Out :=
  let s0 := deliverHandles s c
  let a := (getCore s0 c).arch
  let n := a.csr.cyc
  let arrived := a.order.far.filter (fun f => decide (f.kind ≠ .prefetch ∧ f.due ≤ n) && farArrived f)
  let dues := sortDues (a.due.filter (fun d => decide (d.at_ ≤ n)) ++ arrived.map farDue)
  let s1 := modArchOf s0 c (fun a =>
    dues.foldl (fun a d => setRes a d.port { val := d.val, empty := false })
      { a with due := a.due.filter (fun d => decide (n < d.at_)),
               order := { a.order with far := a.order.far.filter (fun f => !arrived.contains f) } })
  .next (arrived.foldl (fun s f =>
    journal s c (.load (loadRec f)) (if f.kind = .load then 16 + ceilDiv f.size 8 * 8 else 0)) s1)

/-! Colours, commits, checkpoints. -/

/-- TCOL_ADVANCE (R229). -/
def execTcolAdvance (c : Nat) (s : State) : Out :=
  .next (if 64 ≤ (getCore s c).arch.order.farCount then
    modArchOf s c (fun a => { a with order := { a.order with tcol := a.order.tcol + 1, farCount := 0 } })
  else s)

/-- FORCED_COMMIT by time (R225): the stores are released and the no-rollback window opens (R310). -/
def execForcedCommit (c : Nat) (s : State) : Out :=
  .next (if 65536 ≤ (getCore s c).arch.order.sinceCommit then openWindow (releaseStores s c) c 2 else s)

/-- The checkpoint of a core as it stands (R308). -/
def takeCheckpoint (s : State) (c : Nat) (addr : BAddr) : State :=
  modCore s c (fun x =>
    let a := { x.arch with seq := { x.arch.seq with atCk := false } }
    { x with arch := a, ck := a,
             jn := { Journal.reset with ckaddr := addr, rolls := x.jn.rolls, periodAt := s.now } })

/-- CHECKPOINT, at the boundary of a bundle with CK set (R308). -/
def execCheckpoint (c : Nat) (s : State) : Out :=
  let q := (getCore s c).arch.seq
  .next (if q.atCk && decide (q.stall = 0) && q.wait.isNone then takeCheckpoint s c q.last else s)

/-! Watchdogs and limits (R33, R37). -/

/-- FREEZE_WATCHDOG_EXPIRY. -/
def execFreezeWatchdogExpiry (c : Nat) (s : State) : Out :=
  .next (if (getCore s c).status = .bound ∧ 2 ^ 20 ≤ (getCore s c).freezeDog then endTask s c cFreezeDog else s)

/-- WAIT_WATCHDOG_EXPIRY. -/
def execWaitWatchdogExpiry (c : Nat) (s : State) : Out :=
  .next (if (getCore s c).status = .bound ∧ 2 ^ 26 ≤ (getCore s c).waitDog then endTask s c cWaitDog else s)

/-- PREEMPTION_TIMEOUT. -/
def execPreemptionTimeout (c : Nat) (s : State) : Out :=
  match (getCore s c).mark with
  | some m => .next (if (getCore s c).status = .bound ∧ 2 ^ 20 ≤ m.periods ∧ (getCore s c).rerun.isNone then endTask s c cPreempt else s)
  | none => .next s

/-! Engine completions (R35, R172, R304). -/

/-- The core stands at a safe point (R34). -/
def atSafePoint (a : CoreArch) : Bool := a.seq.atSafe && decide (a.seq.stall = 0) && a.seq.wait.isNone

/-- ENGINE_COMPLETION_EVENT: the oldest pending completion vectors to `uiv`. -/
def execEngineCompletionEvent (c : Nat) (s : State) : Out :=
  let x := getCore s c
  match x.arch.order.engEvents with
  | (q, w) :: rest =>
    if x.status = .bound ∧ x.rerun.isNone ∧ x.arch.csr.uie ∧ ¬ inHandler x.arch ∧ atSafePoint x.arch then
      let a := { x.arch with order := { x.arch.order with engEvents := rest } }
      .next (setCore s c { x with arch := enterHandler a cEngine q w.toNat a.seq.pc (a.csr.cyc + 1),
                                  jn := { x.jn with took := x.jn.took ++ [(q, w)] } })
    else .next s
  | [] => .next s

/-! Far accesses perform at their homes (R220, R224, R226, R228, R231). -/

/-- Whether the accesses of one core act in the order `f`, `g`: bundle by bundle, in a bundle the loads before the atomics, then
slot 6 before slot 7 (R120). -/
def actsBefore (f g : FarOp) : Bool :=
  if f.ord / 8 = g.ord / 8 then (!isAtom f && isAtom g) || (isAtom f == isAtom g && decide (f.ord < g.ord)) else decide (f.ord < g.ord)

/-- The near accesses that a far access performs after: earlier near writes (R222), earlier loads of its colours (R231), and for an
atomic the loads of its bundle and the quad atomic of the slot before it (R120). -/
def nearBefore (o : Order) (op : FarOp) : Bool :=
  o.nearq.all (fun n =>
    if n.ord / 8 < op.ord / 8 then !(nearWrites n || op.e.getLsbD n.colour.val)
    else decide (op.ord / 8 < n.ord / 8) || !isAtom op ||
      !(!nearWrites n || (decide (n.ord < op.ord) && (match n.kind with | .atom _ _ _ => true | _ => false))))

/-- The loads of the colours in `e` from bundles before cycle `cyc` have performed (R231): far loads and atomics, near accesses, and
the fills under way from peers. -/
def loadsBefore (s : State) (c cyc : Nat) (e : TSet) : Bool :=
  let o := (getCore s c).arch.order
  o.far.all (fun f => decide (cyc ≤ f.ord / 8) || decide (f.kind = .prefetch) || !e.getLsbD f.colour.val || farArrived f) &&
    o.nearq.all (fun n => decide (cyc ≤ n.ord / 8) || !e.getLsbD n.colour.val) &&
    s.hub.xfers.all (fun x => decide (x.core ≠ c) || (match fillColour x with | some k => !e.getLsbD k.val | none => true))

/-- Whether a part of a far access may perform now: the earlier accesses of its line done, for an atomic those of its bundle too
(R117, R120, R224), the stores and loads that it comes after (R228, R231); an atomic that would seal waits for a rekey (R319). -/
def partReady (s : State) (c : Nat) (op : FarOp) (p : FarPart) : Bool :=
  let o := (getCore s c).arch.order
  p.done.isNone && !xferPending s 0 p.ident && !lineHeld s p.loc && !peerBusy s p.loc && !(isAtom op && sealWaits s p.loc) &&
    o.far.all (fun f => !actsBefore f op || decide (f.kind = .prefetch) ||
      f.parts.all (fun q => q.done.isSome ||
        (decide (lineLoc q.loc ≠ lineLoc p.loc) && !(isAtom op && decide (f.ord / 8 = op.ord / 8))))) &&
    (o.sbuf ++ o.released).all (fun x => !op.after.contains x.ident) &&
    loadsBefore s c (op.ord / 8) op.e && nearBefore o op

/-- Whether a line's token can be asked for: it waits in no queue, or has been granted (R298). The same of the writeback of a
registration that the access may recall. -/
def tokenAskable (s : State) (c ident : Nat) : Bool :=
  let d := getDie s (dieOf c)
  d.granted.contains ident || !d.waitq.any (fun w => w.core = c && w.ident = ident)

/-- A far access with the outcome of one part. -/
def FarOp.withPart (f : FarOp) (ident : Nat) (r : Nat × List Byte × Bool) : FarOp :=
  { f with parts := f.parts.map (fun p => if p.ident = ident then { p with done := some r } else p) }

/-- The part of a far access with its outcome; a prefetch that has performed leaves, and every access whose task is over. -/
def finishPart (s : State) (c ident : Nat) (r : Nat × List Byte × Bool) : State :=
  let gone := !isLive (getCore s c)
  modArchOf s c (fun a =>
    let l := (a.order.far.map (fun f => f.withPart ident r)).filter (fun f => !((gone || decide (f.kind = .prefetch)) && farArrived f))
    { a with order := { a.order with far := l } })

/-- A load's or prefetch's line read at its home (R224): the bytes of the part. -/
def loadAtHome (s : State) (c : Nat) (op : FarOp) (p : FarPart) : State :=
  let g := gangOf s c
  let pa := p.loc.pa / 64 * 64
  let (bytes, bad) := readLine s g pa
  let (n, s1) := nextStamp (noteRead s g pa)
  let s2 := if op.kind = .prefetch then s1 else noteStamp s1 c op.colour n
  finishPart s2 c p.ident (n, (bytes.drop (p.loc.pa % 64)).take p.len, bad)

/-- An atomic of package or pod scope to the header line of a send ring is its doorbell (R348). -/
def ringBells (s : State) (scope pa : Nat) : State :=
  if scope < 4 then s
  else
    let hit := (s.hub.blocks.filter (fun e =>
      let va := blkField e.2 0x48 8
      decide (va ≠ 0) && decide (locOf s e.1 va = some { peer := none, pa := pa / 64 * 64 }))).map (·.1)
    { s with hub := { s.hub with bells := s.hub.bells ++ hit.filter (fun c => !s.hub.bells.contains c) } }

/-- An atomic performed at its home as one step (R117, R228). -/
def atomAtHome (s : State) (c : Nat) (op : FarOp) (p : FarPart) (fn : Nat) (d x : Word) (scope : Nat) : State :=
  let g := gangOf s c
  let pa := p.loc.pa / 64 * 64
  let off := p.loc.pa % 64
  let (bytes, bad) := readLine s g pa
  let old : Word := BitVec.ofNat 64 (leNat ((bytes.drop off).take 8))
  let (n, s1) := nextStamp (noteRead s g pa)
  let s2 := noteStamp s1 c op.colour n
  let s3 := if atomWrites fn old x then
      writeLine s2 g pa (runMask off 8) ((atomFn fn old d x).setWidth 512 <<< (8 * off))
    else s2
  finishPart (ringBells s3 scope pa) c p.ident (n, leBytes old.toNat 8, bad)

/-- The registrations that a part of a far access recalls: an atomic of this module's memory that writes recalls its line's (R204). -/
def farRecalls (s : State) (c : Nat) (op : FarOp) (p : FarPart) : List Loc :=
  match p.loc.peer, op.kind with
  | none, .atom fn _ x _ =>
    let old : Word := BitVec.ofNat 64 (leNat (((readLine s (gangOf s c) (p.loc.pa / 64 * 64)).1.drop (p.loc.pa % 64)).take 8))
    if atomWrites fn old x then [p.loc] else []
  | _, _ => []

/-- The body data of a PATOM: d, c, zeros (R346). -/
def patomData (d x : Word) : List Byte := leBytes d.toNat 8 ++ leBytes x.toNat 8 ++ leBytes 0 48

/-- FAR_LOAD_PERFORM: a part of a far load, prefetch or atomic performs at its home, or leaves for a peer (R344). -/
def execFarLoadPerform (c ident : Nat) (s : State) : Out :=
  match (getCore s c).arch.order.far.find? (fun f => f.parts.any (fun p => p.ident = ident)) with
  | none => .next s
  | some op =>
    match op.parts.find? (fun p => p.ident = ident) with
    | none => .next s
    | some p =>
      if !partReady s c op p then .next s
      else if p.loc.peer.isSome && (holderOf s p.loc).isSome then .next (recallPaid s c p.loc)
      else if p.loc.peer.isNone && isHole p.loc.pa then .fault .reservedPhysical
      else
        let (ok, s1) := takeWithRecalls s c ident (farRecalls s c op p)
        if !ok then .next s1
        else
          match p.loc.peer, op.kind with
          | some _, .atom fn d x _ => .next (startXfer s1 c ident 0 0x42 fn p.loc 0 (patomData d x)).2
          | some _, _ => .next (startXfer s1 c ident 0 0x40 0 (lineLoc p.loc) 0 []).2
          | none, .atom fn d x scope => .next (atomAtHome s1 c op p fn d x scope)
          | none, _ => .next (loadAtHome s1 c op p)

/-- Whether an access to a line of a peer waits for an earlier one of its core that has still to leave, so that the line's transfers
travel in issue order (R344). -/
def peerFirstLoad (x : StoreLine) (f : FarOp) : Bool :=
  x.loc.peer.isSome && !f.after.contains x.ident && decide (f.ord / 8 ≤ x.last / 8) &&
    f.parts.any (fun p => p.done.isNone && decide (lineLoc p.loc = x.loc))

/-- Whether a released store may perform now: the line's earlier stores, the core's earlier atomics, the loads and atomics of the
bundles of its stores (R120, R220), the loads of its taint, earlier near writes (R222), the earlier accesses of a peer's line (R344); a
store that would seal waits for a rekey (R319). -/
def storeReady (s : State) (c : Nat) (x : StoreLine) : Bool :=
  let o := (getCore s c).arch.order
  !xferPending s 3 x.ident && !lineHeld s x.loc && !peerBusy s x.loc && !sealWaits s x.loc &&
    (o.released.takeWhile (fun y => y.ident ≠ x.ident)).all (fun y => decide (y.loc ≠ x.loc)) &&
    o.far.all (fun f => farArrived f || decide (f.kind = .prefetch) ||
      (!x.bundles.contains (f.ord / 8) && (decide (x.first ≤ f.ord) || !isAtom f) && !peerFirstLoad x f)) &&
    o.nearq.all (fun n => match n.kind with
      | .store _ | .storeTag _ _ => decide (x.last / 8 ≤ n.ord / 8)
      | .atom _ _ _ => !x.bundles.contains (n.ord / 8) && decide (x.last / 8 ≤ n.ord / 8)
      | _ => !x.bundles.contains (n.ord / 8)) &&
    loadsBefore s c (x.last / 8) x.e

/-- Removes a released store that has performed. -/
def dropStore (s : State) (c ident : Nat) : State :=
  modArchOf s c (fun a => { a with order := { a.order with released := a.order.released.filter (fun y => y.ident ≠ ident) } })

/-- FAR_STORE_PERFORM: a released store performs at its home, or leaves for a peer (R226, R344). -/
def execFarStorePerform (c ident : Nat) (s : State) : Out :=
  match (getCore s c).arch.order.released.find? (fun x => x.ident = ident) with
  | none => .next s
  | some x =>
    if !storeReady s c x then .next s
    else if x.loc.peer.isSome && (holderOf s x.loc).isSome then .next (recallPaid s c x.loc)
    else if x.loc.peer.isNone && isHole x.loc.pa then .fault .reservedPhysical
    else
      let (ok, s1) := takeWithRecalls s c ident (if x.loc.peer.isNone then [x.loc] else [])
      if !ok then .next s1
      else
        match x.loc.peer with
        | some _ => .next (startXfer s1 c ident 3 0x41 0 x.loc x.mask (leBytes x.data.toNat 64)).2
        | none =>
          let (_, s2) := nextStamp s1
          .next (dropStore (writeLine s2 (gangOf s2 c) x.loc.pa x.mask x.data) c ident)

end Sys2Proof.Machine
end

