-- ==== Sys2Proof/Machine/EngineBase.lean ====
section
/-! DEFINITION. What all engine commands share: the fields of a command word, the ports each command reads, engine addresses and
their checks in the order of R160, near data read at issue, and the reads and writes of a running command (R157 to R162, R235). -/

namespace Sys2Proof.Machine

/-! The command word (R158). -/

def cmdIrq (w : Word) : Bool := w.getLsbD 0
def cmdTag (w : Word) : Nat := natField w.toNat 8 8
def cmdOpf (w : Word) (lo len : Nat) : Nat := natField w.toNat lo len

/-- The queue of a command (R78). -/
def queueOf (op : EngOp) : Fin 5 :=
  match op with
  | .copy | .copyMc | .smap | .sinv | .swb => 0
  | .gather | .scatter | .topk => 1
  | .sgemv | .sattn | .sred => 2
  | .callred | .cbcast | .creduce => 3
  | .kvapp | .kvcomp | .pxlook | .pxins | .pxrel => 4
  | .fence _ _ => 0

/-- The operand ports a command reads (R162, R247, R270). -/
def engPorts (op : EngOp) (word : Word) : List OpPort :=
  match op with
  | .copy => [.eSrc, .eDst, .eLen, .eNest]
  | .copyMc | .smap | .gather | .scatter => [.eSrc, .eDst, .eLen, .eNest, .eAux]
  | .sinv | .swb => [.eAux]
  | .topk => [.eSrc, .eDst, .eAux]
  | .sgemv | .sred => [.eSrc, .eDst, .eNest]
  | .sattn => if word.getLsbD 20 then [.eSrc, .eDst, .eNest] else [.eDst, .eNest]
  | .callred => [.eSrc, .eDst, .eLen]
  | .cbcast | .creduce => [.eSrc, .eDst, .eLen, .eAux]
  | .kvapp | .kvcomp | .pxrel => [.eNest]
  | .pxlook | .pxins => [.eDst, .eNest]
  | .fence _ _ => []

/-- The ports of a command that hold engine addresses, whose far form names a handle (R159). -/
def addrPorts (op : EngOp) (word : Word) : List OpPort :=
  match op with
  | .copy | .copyMc | .gather | .scatter | .sgemv | .sred => [.eSrc, .eDst]
  | .sattn => if word.getLsbD 20 then [.eSrc] else []
  | _ => []

/-! Checks (R160). A check is `some (cause, K)` when it fails; K is the handle an HREV names, 0 otherwise. -/

abbrev Chk := Option (Nat × Nat)

def chk (bad : Bool) (cause : Nat) : Chk := if bad then some (cause, 0) else none

/-- The first failing check of a list (R160). -/
def firstFail : List Chk → Chk
  | [] => none
  | some c :: _ => some c
  | none :: rest => firstFail rest

/-- A failed check gives way to an early handle where scoreboard ranks above it (R57, R79). -/
def rankChk (early : Bool) (c : Nat × Nat) : Nat × Nat := if early && decide (rankOfCause c.1 = 8) then (cScoreboard, 0) else c

/-- The fault of a list of checks: the first that fails, or scoreboard where a handle is early. -/
def firstChk (l : List Chk) : Chk := (firstFail l).map (rankChk (l.contains (some (cScoreboard, 0))))

/-- Raises a failed check of the running slot. -/
def raiseChk (s : State) (i : Instr) (c : Nat × Nat) : State :=
  match s.issue with
  | some x =>
    { s with issue := some { x with faults := x.faults ++
        [{ rank := rankOfCause c.1, slot := x.slot, cause := c.1, uinfo := faultInfo c.2 x.slot (portDetail i) 0 }] } }
  | none => takeFault s c.1 (faultInfo c.2 (slotNo s i) (portDetail i) 0)

/-- The handle an engine address names. -/
def eaHandle (ea : EngAddr) : List (Fin 16) :=
  match ea with
  | .far k _ => [k]
  | .near _ => []

/-- Item 5 for a handle: early under `sbchk`, invalid, or revoked (R79, R114). -/
def chkHandle (s : State) (k : Fin 16) : Chk :=
  let h := fetchHandle s k
  if h.early && sbchkOn s then some (cScoreboard, 0)
  else if !handleValid h.h then some (cHandleInvalid, 0)
  else if h.h.revoked then some (cHrev, k.val)
  else none

/-- The handle a command has taken. -/
def cmdHandle (c : EngCmd) (k : Fin 16) : Handle :=
  match c.handles.find? (fun e => e.1 = k.val) with
  | some (_, h) => h
  | none => Handle.reset

/-- A run of `n` bytes at a signed offset from an engine address lies within the stash and the gang's regions, or within the
frame (R110, R160, R202). -/
def runOk (s : State) (q : Nat) (ea : EngAddr) (off : Int) (n : Nat) : Bool :=
  match ea with
  | .near a => decide (0 ≤ (a : Int) + off) && spanAssigned s q ((a : Int) + off).toNat n
  | .far _ o => decide (0 ≤ (o : Int) + off ∧ (o : Int) + off + (n : Int) ≤ 2097152)

/-- Item 4 for one run. -/
def chkRun (s : State) (q : Nat) (ea : EngAddr) (off : Int) (n : Nat) : Chk :=
  chk (!runOk s q ea off n) (match ea with | .near _ => cNearBound | .far _ _ => cHandleBound)

/-- A near span (item 4). -/
def chkNear (s : State) (q a n : Nat) : Chk := chk (!spanAssigned s q a n) cNearBound

/-- Item 6 for one run. -/
def chkWrite (s : State) (q : Nat) (c : EngCmd) (ea : EngAddr) (off : Int) (n : Nat) : Chk :=
  match ea with
  | .near a => chk (spanProtected s q ((a : Int) + off).toNat n) cWriteProtect
  | .far k _ => chk (!(cmdHandle c k).wr) cWriteProtect

/-- The handles that a command takes at issue, as they stood before the bundle (R159). -/
def takeHandles (s : State) (ks : List (Fin 16)) : List (Nat × Handle) :=
  ks.map (fun k => (k.val, (fetchHandle s k).h))

/-- The taint of the handles (R79, R158). -/
def handlesTaint (s : State) (ks : List (Fin 16)) : TSet := ks.foldl (fun t k => t ||| handleTaint (fetchHandle s k)) 0

/-! Near data read at issue (R158, R161, R166, R244, R270). -/

/-- Whether a chunk of the running core's quad serves a read of taint `e` as it stands (R204, R230). -/
def chunkFresh (s : State) (c : Nat) (e : TSet) (k : Nat) : Bool :=
  match regionOf s (quadOf c) (64 * k) with
  | .mapped _ _ =>
    match getChunk s (quadOf c * 65536 + k) with
    | some ch => ch.dirty || decide (stMax (getCore s c).arch.order e ≤ ch.stamp)
    | none => false
  | _ => true

/-- Makes chunks ready for a read at issue, without a colour (R229): the chunks that have to be awaited. -/
def issueFills (c : Nat) (e : TSet) : List Nat → State → List Nat × State
  | [], s => ([], s)
  | k :: ks, s =>
    if chunkFresh s c e k then issueFills c e ks s
    else
      match regionOf s (quadOf c) (64 * k) with
      | .mapped _ w =>
        let key := quadOf c * 65536 + k
        let (done, _, s1) := if xferPending s 1 key then (false, false, s) else startFill s c (2 ^ 64 + key) none w key
        let (rest, s2) := issueFills c e ks s1
        (if done then rest else key :: rest, s2)
      | _ => issueFills c e ks s

/-- Near bytes with their poison. -/
def nearImage (s : State) (q a n : Nat) : List (Byte × Bool) :=
  (range' (stashKey q a) n).map (fun i => (memRead s.stash i, alGet false s.sbad i))

/-- What a read at issue gives: the bytes and the state, or the chunks to await. -/
inductive IssueRead where
  | got (l : List (Byte × Bool)) (s : State)
  | await (keys : List Nat)

/-- Whether near data may be read for a command of the running core now: the loads of its taint from earlier bundles have performed
(R231), and so have the core's earlier near writes (R222). -/
def readOrdered (s : State) (e : TSet) : Bool :=
  loadsBefore s s.cur (arch s).csr.cyc e && (arch s).order.nearq.all (fun n => decide ((arch s).csr.cyc ≤ n.ord / 8) || !nearWrites n)

/-- Reads near bytes at issue, once the accesses that come first have performed. -/
def issueRead (s : State) (e : TSet) (a n : Nat) : IssueRead :=
  if !readOrdered s e then .await []
  else
    match issueFills s.cur e (spanChunks [(a, n)]) s with
    | ([], s1) => .got (nearImage s1 (quadOf s.cur) a n) s1
    | (keys, _) => .await keys

/-- Holds the bundle until the fills of these chunks have come; outside a bundle the fills are started at once. -/
def holdFor (s : State) (keys : List Nat) : State :=
  match s.issue with
  | some x => { s with issue := some { x with hold := true, need := x.need ++ keys } }
  | none =>
    keys.foldl (fun s key =>
      match regionOf s (quadOf s.cur) (key % 65536 * 64) with
      | .mapped _ w =>
        if xferPending s 1 key then s else (startFill s s.cur (2 ^ 64 + key) none w key).2.2
      | _ => s) (holdIssue s)

/-- A little-endian field of data read at issue. -/
def fieldOf (l : List (Byte × Bool)) (off len : Nat) : Nat := leNat (((l.drop off).take len).map (·.1))
def badIn (l : List (Byte × Bool)) : Bool := l.any (·.2)

/-! A running command. -/

/-- A command as it runs: the state, its core, its effective taint, peer lines fetched so far and those missing, lines that
take a token, line writes bound for peers, whether something it needs is held back in this period, the lines of peers to be recalled
first, the lines of this module whose registrations it recalls, the chunks of peer lines to be filled first, each with whether it is to be
registered, and those filled for it already. -/
structure EngRun where
  st : State
  core : Nat
  e : TSet
  fetched : List (Loc × List Byte × Bool)
  miss : List Loc
  lines : Nat
  sent : List (Loc × BitVec 64 × List Byte)
  held : Bool
  recalls : List Loc
  forced : List Loc
  fills : List (Nat × Bool)
  filled : List Nat

/-- A run as it begins. -/
def EngRun.start (s : State) (core : Nat) (e : TSet) (fetched : List (Loc × List Byte × Bool)) : EngRun :=
  { st := s, core := core, e := e, fetched := fetched, miss := [], lines := 0, sent := [], held := false, recalls := [],
    forced := [], fills := [], filled := [] }

/-- The run finds something held back. -/
def EngRun.hold (x : EngRun) : EngRun := { x with held := true }

/-- The pieces of a span by line: line number, offset in the line, length. -/
def pieces (a n : Nat) : List (Nat × Nat × Nat) :=
  (spanChunks [(a, n)]).map (fun k => let lo := max a (64 * k); (k, lo - 64 * k, min (a + n) (64 * k + 64) - lo))

/-- The bytes of a peer line the command has fetched; a line it has not is noted as missing. -/
def peerLine (x : EngRun) (l : Loc) : List Byte × Bool × EngRun :=
  match x.fetched.find? (fun e => e.1 = l) with
  | some (_, bs, b) => (bs, b, x)
  | none => (List.replicate 64 0#8, false, { x with miss := if x.miss.contains l then x.miss else l :: x.miss })

/-- A line that a run accesses is held in a quad that rolls back (R311), has a chunk of this module to give up first (R204), or lies
in a page that has no translation yet. -/
def gateLine (x : EngRun) (l : Loc) : EngRun :=
  if lineHeld x.st l || peerBusy x.st l || (l.peer.isNone && isHole l.pa) then x.hold
  else if l.peer.isSome && (holderOf x.st l).isSome then { x with held := true, recalls := l :: x.recalls }
  else x

/-- Reads one line at its home (R220, R234). -/
def engLine (x0 : EngRun) (l : Loc) : List Byte × Bool × EngRun :=
  let x := gateLine x0 l
  match l.peer with
  | some _ => peerLine x l
  | none =>
    let g := gangOf x.st x.core
    let (bs, bad) := readLine x.st g l.pa
    let (_, s1) := nextStamp (noteRead x.st g l.pa)
    (bs, bad, { x with st := s1, lines := x.lines + 1 })

/-- Reads far bytes. -/
def farReadPieces (x : EngRun) (l : Loc) : List (Nat × Nat × Nat) → List Byte × Bool × EngRun
  | [] => ([], false, x)
  | (k, off, n) :: rest =>
    let (bs, bad, x1) := engLine x { l with pa := 64 * k }
    let (bs2, bad2, x2) := farReadPieces x1 l rest
    ((bs.drop off).take n ++ bs2, bad || bad2, x2)

def engFarRead (x : EngRun) (l : Loc) (n : Nat) : List Byte × Bool × EngRun := farReadPieces x l (pieces l.pa n)

/-- A run recalls the registrations of lines of this module (R204); it waits for those that have to wait. -/
def forceRecalls (x : EngRun) (ls : List Loc) : EngRun :=
  let l := ls.filter (fun l => (holderOf x.st l).isSome)
  { x with forced := x.forced ++ l, held := x.held || l.any (recallHeld x.st) }

/-- Writes bytes of one line at its home (R220). -/
def engLineWrite (x0 : EngRun) (l : Loc) (off : Nat) (bs : List Byte) : EngRun :=
  let data := List.replicate off 0#8 ++ bs
  let x1 := if sealWaits x0.st l then (gateLine x0 l).hold else gateLine x0 l
  let x := if l.peer.isNone then forceRecalls x1 [l] else x1
  match l.peer with
  | some _ =>
    { x with lines := x.lines + 1, sent := x.sent ++ [(l, runMask off bs.length, data ++ List.replicate (64 - data.length) 0#8)],
             fetched := x.fetched.map (fun e =>
               if e.1 = l then (e.1, e.2.1.take off ++ bs ++ e.2.1.drop (off + bs.length), e.2.2) else e) }
  | none =>
    let (_, s1) := nextStamp x.st
    { x with st := writeLine s1 (gangOf s1 x.core) l.pa (runMask off bs.length) (lineOfBytes data), lines := x.lines + 1 }

def farWritePieces (x : EngRun) (l : Loc) : List (Nat × Nat × Nat) → List Byte → EngRun
  | [], _ => x
  | (k, off, n) :: rest, bs => farWritePieces (engLineWrite x { l with pa := 64 * k } off (bs.take n)) l rest (bs.drop n)

def engFarWrite (x : EngRun) (l : Loc) (bs : List Byte) : EngRun := farWritePieces x l (pieces l.pa bs.length) bs

/-- Fills a chunk for a command from its line with the stamp of that read (R203, R204); the fill of a peer's line is asked for and
awaited (R205), and so is a page without a translation. -/
def engFill (x0 : EngRun) (key : Nat) (w : Window) : EngRun :=
  match chunkLoc x0.st w (key % 65536 * 64) with
  | none => x0.hold
  | some l =>
    if l.peer.isSome then { x0 with held := true, fills := x0.fills ++ [(key, false)] }
    else
      let x := gateLine x0 l
      let g := gangOf x.st x.core
      let (bs, bad) := readLine x.st g l.pa
      { x with st := (fillChunk (noteRead x.st g l.pa) key bs bad).2, lines := x.lines + 1 }

/-- Makes a chunk ready for a near read of a command (R204, R230). -/
def engReadyRead (x : EngRun) (q k : Nat) : EngRun :=
  match regionOf x.st q (64 * k) with
  | .mapped _ w =>
    if xferPending x.st 1 (q * 65536 + k) then x.hold
    else
    match getChunk x.st (q * 65536 + k) with
    | some ch =>
      if ch.dirty || x.filled.contains (q * 65536 + k) || decide (stMax (getCore x.st x.core).arch.order x.e ≤ ch.stamp) then x
      else engFill x (q * 65536 + k) w
    | none => engFill x (q * 65536 + k) w
  | _ => x

/-- A run that accesses the stash of a quad held for a rollback waits (R311). -/
def gateStash (x : EngRun) (q : Nat) : EngRun := if (quadHold x.st q).isSome then x.hold else x

/-- Reads near bytes of a quad for a command. -/
def engNearRead (x : EngRun) (q a n : Nat) : List Byte × Bool × EngRun :=
  let x1 := (spanChunks [(a, n)]).foldl (fun x k => engReadyRead x q k) (gateStash x q)
  (memReadN x1.st.stash (stashKey q a) n, stashBad x1.st q a n, x1)

/-- Makes a chunk ready for a near write of a command: it registers (R204), the line of a peer once its bytes have come. -/
def engReadyWrite (x : EngRun) (q k : Nat) : EngRun :=
  match regionOf x.st q (64 * k) with
  | .mapped _ w =>
    let key := q * 65536 + k
    if xferPending x.st 1 key then x.hold
    else if ((getChunk x.st key).map (·.dirty)).getD false then x
    else
      match chunkLoc x.st w (64 * k) with
      | none => x.hold
      | some l =>
        match l.peer with
        | none =>
          let x1 := forceRecalls (gateLine x l) (recallsFor x.st l.pa)
          { x1 with st := (registerChunk x1.st key l.pa).2, lines := x1.lines + 1 }
        | some _ =>
          match getChunk x.st key, holderOf x.st l == some key with
          | some ch, true => { x with st := putChunk x.st key { ch with dirty := true, mask := 0 } }
          | _, _ => { x with held := true, fills := x.fills ++ [(key, true)] }
  | _ => x

/-- Writes near bytes of a quad for a command. -/
def engNearWrite (x : EngRun) (q a : Nat) (bs : List Byte) : EngRun :=
  let x1 := (spanChunks [(a, bs.length)]).foldl (fun x k => engReadyWrite x q k) (gateStash x q)
  { x1 with st := quadWrite x1.st q a bs }

/-- Reads and writes at an offset from an engine address. -/
def engRead (x : EngRun) (c : EngCmd) (ea : EngAddr) (off : Int) (n : Nat) : List Byte × Bool × EngRun :=
  match ea with
  | .near a => engNearRead x (quadOf x.core) ((a : Int) + off).toNat n
  | .far k o => engFarRead x (handleLoc (cmdHandle c k) ((o : Int) + off).toNat) n

def engWrite (x : EngRun) (c : EngCmd) (ea : EngAddr) (off : Int) (bs : List Byte) : EngRun :=
  match ea with
  | .near a => engNearWrite x (quadOf x.core) ((a : Int) + off).toNat bs
  | .far k o => engFarWrite x (handleLoc (cmdHandle c k) ((o : Int) + off).toNat) bs

/-- The outcome of a command: STATUS, DETAIL (R169). -/
abbrev EngEnd := Nat × Nat

/-- Runs elements in order from number `i`; the first that stops gives STATUS and its own number (R169). -/
def runElems {α : Type} (f : EngRun → Nat → α → Option Nat × EngRun) (i : Nat) : List α → EngRun → Option EngEnd × EngRun
  | [], x => (none, x)
  | a :: rest, x =>
    match f x i a with
    | (some st, x1) => (some (st, i), x1)
    | (none, x1) => runElems f (i + 1) rest x1

/-- What running a command gives: its end, a collective that has taken its source, or one element performed, with the number of the
next and the quads that have failed. -/
inductive CmdRun where
  | ended (e : EngEnd) (x : EngRun)
  | taken (x : EngRun)
  | part (elem : Nat) (failed : List Nat) (x : EngRun)

/-- The run of a command, whatever it came to. -/
def CmdRun.run : CmdRun → EngRun
  | .ended _ x => x
  | .taken x => x
  | .part _ _ x => x

/-- What an element that has been performed leads to: the next, or the end `e` after the last of `n`. -/
def afterElem (c : EngCmd) (n : Nat) (failed : List Nat) (e : EngEnd) (x : EngRun) : CmdRun :=
  if c.elem + 1 < n then .part (c.elem + 1) failed x else .ended e x

/-- What the issue of a command comes to: a failed check, chunks to await, or the command with the state after its reads. -/
inductive EngIssue where
  | bad (c : Nat × Nat)
  | await (keys : List Nat)
  | ok (c : EngCmd) (s : State)

/-- Goes on with the near bytes read at issue. -/
def withRead (s : State) (e : TSet) (a n : Nat) (f : List (Byte × Bool) → State → EngIssue) : EngIssue :=
  match issueRead s e a n with
  | .got l s1 => f l s1
  | .await keys => .await keys

/-- Goes on when no check fails. -/
def checked (c : Chk) (r : EngIssue) : EngIssue :=
  match c with
  | some x => .bad x
  | none => r

end Sys2Proof.Machine
end

