-- ==== Sys2Proof/Machine/Collect.lean ====
section
/-! DEFINITION. Collectives: the members' parts, their combination by rank, the parts and results of a pod group, and what a
member's command comes to (R40, R168, R345, R346). -/

namespace Sys2Proof.Machine

/-! Combination (R168). -/

/-- One element: FN 0 add, 1 max, 2 min; FMT 0 FP32, 1 signed 32-bit. -/
def combElem (fn fmt : Nat) (a b : Lane) : Lane :=
  match fmt, fn with
  | 0, 0 => addF a b
  | 0, 1 => maxF a b
  | 0, _ => minF a b
  | _, 0 => a + b
  | _, 1 => if a.slt b then b else a
  | _, _ => if b.slt a then b else a

/-- The 32-bit elements of a buffer, and back. -/
def bufLanes (l : List Byte) : List Lane := (range' 0 (l.length / 4)).map (fun i => BitVec.ofNat 32 (leNat ((l.drop (4 * i)).take 4)))
def lanesBuf (l : List Lane) : List Byte := l.flatMap (fun x => leBytes x.toNat 4)

/-- Two buffers combined element by element. -/
def combBufs (fn fmt : Nat) (a b : List Byte) : List Byte := lanesBuf (List.zipWith (combElem fn fmt) (bufLanes a) (bufLanes b))

/-- One level of a pairwise tree; a node with one absent child passes the other. -/
def pairLevel {α : Type} (f : α → α → α) : List (Option α) → List (Option α)
  | a :: b :: rest =>
    (match a, b with
      | some x, some y => some (f x y)
      | some x, none => some x
      | none, r => r) :: pairLevel f rest
  | l => l

/-- The pairwise tree over leaves by rank, `n` levels. -/
def pairTree {α : Type} (f : α → α → α) : Nat → List (Option α) → Option α
  | 0, l => match l with | x :: _ => x | [] => none
  | n + 1, l => pairTree f n (pairLevel f l)

/-! Parts of a module's members. -/

/-- Fields of the command word of a collective. -/
def collScope (w : Word) : Nat := cmdOpf w 16 3
def collChannel (w : Word) : Nat := cmdOpf w 19 6
def collFn (w : Word) : Nat := cmdOpf w 25 2
def collFmt (w : Word) : Nat := cmdOpf w 27 1
def collOp (op : EngOp) : Nat := match op with | .cbcast => 1 | .creduce => 2 | _ => 0
def isColl (op : EngOp) : Bool := match op with | .callred | .cbcast | .creduce => true | _ => false

/-- The channel of a collective. -/
def collChan (s : State) (core : Nat) (c : EngCmd) : ChanId := chanIdOf s core (collScope c.word) (collChannel c.word)

/-- Whether a core has a collective of a phase of a channel in its queue. -/
def hasColl (s : State) (core : Nat) (x : ChanId) (phase : Nat) : Bool :=
  (vget (getCore s core).arch.q 3).cmds.any (fun c => isColl c.op && decide (c.phase = phase ∧ collChan s core c = x))

/-- Two parts agree: operation, length, FN, FMT and root; FN and FMT do not count for `cbcast`. -/
def partsAgree (a b : CollPart) : Bool :=
  decide (a.op = b.op ∧ a.bytes.length = b.bytes.length ∧ a.root = b.root) && (decide (a.op = 1) || decide (a.fn = b.fn ∧ a.fmt = b.fmt))

/-- What the parts of a module's members come to. -/
inductive Gathered where
  | waiting
  | mismatch
  | poisoned
  /-- The parts by rank. -/
  | got (first : CollPart) (leaves : List (Option (List Byte)))
  deriving DecidableEq, Repr

def findPart (x : Chan) (phase core : Nat) : Option CollPart := x.parts.find? (fun p => decide (p.phase = phase ∧ p.core = core))

/-- The parts of a phase: a member whose collective is still to start is waited for, one that has none is a mismatch. -/
def gatherParts (s : State) (x : Chan) (phase : Nat) : Gathered :=
  let ms := chanMembers s x.ident
  let cores := match getGang s x.ident.ctx with | some g => gangCores g | none => []
  if ms.any (fun c => (findPart x phase c).isNone && hasColl s c x.ident phase) then .waiting
  else
    match ms.filterMap (findPart x phase) with
    | [] => .mismatch
    | p :: rest =>
      if rest.length + 1 ≠ ms.length ∨ !rest.all (partsAgree p) then .mismatch
      else if (p :: rest).any (·.bad) then .poisoned
      else .got p (cores.map (fun c => if ms.contains c then (findPart x phase c).map (·.bytes) else none))

/-- A module's combination of its members' buffers. -/
def combineLeaves (p : CollPart) (leaves : List (Option (List Byte))) : List Byte :=
  (pairTree (combBufs p.fn p.fmt) (ceilLog2 leaves.length) leaves).getD []

/-! Pod groups (R40, R345, R346). -/

/-- The fragments of a part or result a group holds: from a module, of a kind, for a phase of a channel. -/
def podFrags (g : PodGroup) (ch kind phase src : Nat) : List PColl :=
  g.parts.filter (fun p => decide (p.channel = ch ∧ p.kind = kind ∧ p.phase = phase ∧ p.src = src))

/-- Bytes written over a list from an offset. -/
def overlayBytes (l : List Byte) (off : Nat) (bs : List Byte) : List Byte := l.take off ++ bs ++ l.drop (off + bs.length)

/-- A part or result that has arrived whole: its first fragment and its bytes. TOTAL 0 stands for a mismatch. -/
def podWhole (l : List PColl) : Option (PColl × List Byte) :=
  match l with
  | [] => none
  | p :: _ =>
    if p.total ≤ (l.map (fun x => x.data.length)).foldl (· + ·) 0 then
      some (p, (l.foldl (fun acc x => overlayBytes acc x.offset x.data) (List.replicate p.total 0#8)).take p.total)
    else none

/-- The fragments of at most 4,000 bytes of a buffer. -/
def cutFrags (p : PColl) : Nat → Nat → List Byte → List PColl
  | 0, _, _ => []
  | n + 1, off, bs => { p with offset := off, data := bs.take 4000 } :: cutFrags p n (off + 4000) (bs.drop 4000)

def fragments (p : PColl) (bs : List Byte) : List PColl := cutFrags { p with total := bs.length } (max 1 (ceilDiv bs.length 4000)) 0 bs

/-- Stores fragments in a group, a repeated one once. -/
def storeFrag (g : PodGroup) (p : PColl) : PodGroup :=
  if (podFrags g p.channel p.kind p.phase p.src).any (fun x => x.offset = p.offset) then g else { g with parts := g.parts ++ [p] }

/-- Sends fragments to a module. -/
def sendFrags (s : State) (dest : Nat) (l : List PColl) : State := l.foldl (fun s p => sendPcoll s dest p) s

/-- Whether position `j` is `r` or an ancestor of it in the tree of R345. -/
def inSubtree (j : Nat) : Nat → Nat → Bool
  | 0, r => decide (j = r)
  | n + 1, r => decide (j = r) || (decide (r ≠ 0) && inSubtree j n (treeParent r))

/-- Two parts of modules combined, the second that of the module at position `j`: a `cbcast` takes the root's. Gangs of differing T do
not combine (R40). -/
def combinePod (j : Nat) (a b : PColl × List Byte) : PColl × List Byte :=
  let p := a.1
  let q := b.1
  if p.total = 0 ∨ q.total ≠ p.total ∨ p.tasks ≠ q.tasks ∨ p.op ≠ q.op ∨ p.root ≠ q.root ∨ (p.op ≠ 1 ∧ p.fnfmt ≠ q.fnfmt) then ({ p with total := 0 }, [])
  else if p.op = 1 then (if inSubtree j 10 p.root then (p, b.2) else a)
  else (p, combBufs (p.fnfmt % 4) (p.fnfmt / 4 % 2) a.2 b.2)

/-- This module's own part of a phase of a pod channel, once every member's is there. DESIGN CHOICE (log entry 77): ROOT of a part is
the root's module position alone (R346), so that roots that name different tasks of one module agree across modules. -/
def ownPodPart (s : State) (n : Nat) (g : PodGroup) (x : Chan) (phase : Nat) : Option (PColl × List Byte) :=
  let h (op fnfmt root total : Nat) : PColl :=
    { plainPcoll n x.ident.ch 2 (x.base + phase) with
      src := modIdent s, op := op, fnfmt := fnfmt, root := root, total := total, tasks := (chanMembers s x.ident).length }
  let t := (chanMembers s x.ident).length
  match gatherParts s x phase with
  | .waiting => none
  | .mismatch => some (h 0 0 0 0, [])
  | .poisoned => some (h 0 0 0 0, [])
  | .got p leaves =>
    let bytes := if p.op = 1 then
        (if p.root / t = groupPos s g then (nthD leaves (p.root % t) none).getD [] else List.replicate p.bytes.length 0#8)
      else combineLeaves p leaves
    some (h p.op (p.fn + 4 * p.fmt) (p.root / t) p.bytes.length, bytes)

/-- Stores a result of a phase and sends it down the tree. -/
def spreadResult (s : State) (n : Nat) (p : PColl) (bs : List Byte) : State :=
  match getGroup s n with
  | none => s
  | some g =>
    let fs := fragments { p with kind := 3, src := modIdent s } bs
    (treeChildren (groupPos s g) g.members.length).foldl (fun s j => sendFrags s (nthD g.members j 0) fs)
      (setGroup s n (fs.foldl storeFrag g))

/-- The pod channel that a gang of this module holds in a group. -/
def podChanOf (s : State) (n ch : Nat) : Option Chan :=
  s.hub.chans.find? (fun x => decide (x.ident.scope = 5 ∧ x.ident.ch = ch ∧ blkPodGrp (getBlock s x.ident.ctx) = n))

/-- After a member's part or a child's: when all are there, this module's part goes to the parent, or at the root of the tree the
result goes down. -/
def podCollStep (s : State) (n ch phase : Nat) : State :=
  match getGroup s n, podChanOf s n ch with
  | some g, some x =>
    if phase < x.base ∨ !(podFrags g ch 2 phase (modIdent s)).isEmpty then s
    else
      let kids := treeChildren (groupPos s g) g.members.length
      let parts := kids.map (fun j => (j, podWhole (podFrags g ch 2 phase (nthD g.members j 0))))
      match ownPodPart s n g x (phase - x.base) with
      | none => s
      | some own =>
        if parts.any (fun e => e.2.isNone) then s
        else
          let whole := parts.foldl (fun a e => match e.2 with | some b => combinePod e.1 a b | none => a) own
          let fs := fragments { whole.1 with src := modIdent s } whole.2
          let s1 := setGroup s n (fs.foldl storeFrag g)
          if groupPos s g = 0 then spreadResult s1 n whole.1 whole.2
          else sendFrags s1 (nthD g.members (treeParent (groupPos s g)) 0) fs
  | _, _ => s

/-! A member's command. -/

/-- A collective takes its source buffer when it starts. -/
def takeSource (c : EngCmd) (x : EngRun) : EngRun :=
  let (bs, bad, x1) := engNearRead x (quadOf x.core) c.src.toNat c.len.toNat
  let ch := getChan x1.st (collChan x1.st x1.core c)
  let rank := match gangOf x1.st x1.core with | some g => rankOf g x1.core | none => 0
  let p : CollPart :=
    { phase := c.phase, core := x1.core, rank := rank, op := collOp c.op, fn := collFn c.word, fmt := collFmt c.word,
      root := c.aux.toNat, bytes := bs, bad := bad }
  let s1 := setChan x1.st { ch with parts := ch.parts ++ [p] }
  { x1 with st := if ch.ident.scope = 5 then podCollStep s1 (blkPodGrp (getBlock s1 ch.ident.ctx)) ch.ident.ch (ch.base + c.phase) else s1 }

/-- What a collective that has taken its source comes to, once its phase is released and the parts are there: its end, and the
buffer written when the member receives one. -/
def collOutcome (s : State) (core : Nat) (c : EngCmd) : Option (EngEnd × Option (List Byte)) :=
  let id := collChan s core c
  let x := getChan s id
  let rank := match gangOf s core with | some g => rankOf g core | none => 0
  if !phaseReleased s id c.phase then none
  else if id.scope = 5 then
    match getGroup s (blkPodGrp (getBlock s id.ctx)) with
    | none => none
    | some g =>
      let from_ := nthD g.members (treeParent (groupPos s g)) 0
      match podWhole (podFrags g id.ch 3 (x.base + c.phase) (if groupPos s g = 0 then modIdent s else from_)) with
      | none => none
      | some (p, bs) =>
        if p.total = 0 then some ((if gatherParts s x c.phase = .poisoned then 1 else 4, 0), none)
        else
          let me := groupPos s g * (chanMembers s id).length + rank
          some ((0, 0), if c.op = .creduce ∧ me ≠ c.aux.toNat then none else some bs)
  else
    match gatherParts s x c.phase with
    | .waiting => none
    | .mismatch => some ((4, 0), none)
    | .poisoned => some ((1, 0), none)
    | .got p leaves =>
      let bs := if p.op = 1 then (nthD leaves p.root none).getD [] else combineLeaves p leaves
      some ((0, 0), if c.op = .creduce ∧ rank ≠ c.aux.toNat then none else some bs)

/-- Writes a collective's result. -/
def writeResult (c : EngCmd) (r : EngEnd × Option (List Byte)) (x : EngRun) : EngEnd × EngRun :=
  match r.2 with
  | some bs => (r.1, engNearWrite x (quadOf x.core) c.dst.toNat bs)
  | none => (r.1, x)

/-- Drops the parts of a phase that no command of the channel needs any more. -/
def dropParts (s : State) (id : ChanId) (phase : Nat) : State :=
  if (chanMembers s id).any (fun c => hasColl s c id phase) then s
  else
    let x := getChan s id
    let s1 := setChan s { x with parts := x.parts.filter (fun p => decide (p.phase ≠ phase)) }
    if id.scope = 5 then
      match getGroup s1 (blkPodGrp (getBlock s1 id.ctx)) with
      | some g =>
        setGroup s1 (blkPodGrp (getBlock s1 id.ctx))
          { g with parts := g.parts.filter (fun p => !decide (p.channel = id.ch ∧ p.phase = x.base + phase)) }
      | none => s1
    else s1

end Sys2Proof.Machine
end

