-- ==== Sys2Proof/Machine/Vector.lean ====
section
/-! DEFINITION. The vector unit: the 81 operations of `vu`, and the quad's stream queues (R76, R122 to R142). -/

namespace Sys2Proof.Machine

/-- The taint and poison that a result takes from the operands it reads (R123). -/
def joinV (v : Vec) (l : List VVal) : VVal :=
  { v := v, t := l.foldl (fun t x => t ||| x.t) 0, p := l.any (·.p) }

/-- A scalar or mask result (R122). -/
def joinW (w : Word) (l : List VVal) : VVal := joinV (wordToVec w) l

/-- Runs a vector trigger: `f` takes the trigger value as a vector and the operand ports after phase 3, and gives the result of
one port (R70, R122). -/
def vectorOp (i : Instr) (g : Guard) (src : Src) (port : PortId) (lat : Nat) (f : VVal → CoreArch → VVal) (s : State) : State :=
  runMove i g src s (fun x s => deliver s port lat true (f x.broadcast (arch s)))

/-- Lane by lane, on t alone. -/
def lanesT (f : Lane → Lane) (t : VVal) (_ : CoreArch) : VVal := joinV (ofLanes (fun i => f (laneOf t.v i))) [t]

/-- Lane by lane, on a and t. -/
def lanesAT (f : Lane → Lane → Lane) (t : VVal) (c : CoreArch) : VVal :=
  let a := getOp c .vuA
  joinV (ofLanes (fun i => f (laneOf a.v i) (laneOf t.v i))) [a, t]

/-- Lane by lane, on a, b and t. -/
def lanesABT (f : Lane → Lane → Lane → Lane) (t : VVal) (c : CoreArch) : VVal :=
  let a := getOp c .vuA
  let b := getOp c .vuB
  joinV (ofLanes (fun i => f (laneOf a.v i) (laneOf b.v i) (laneOf t.v i))) [a, b, t]

/-- A mask of compares of a and t. -/
def maskAT (f : Lane → Lane → Bool) (t : VVal) (c : CoreArch) : VVal :=
  let a := getOp c .vuA
  joinW (laneMask (fun i => f (laneOf a.v i) (laneOf t.v i))) [a, t]

/-- One level of the pairwise tree of R132. -/
def pairUp {α : Type} (op : α → α → α) : List α → List α
  | x :: y :: rest => op x y :: pairUp op rest
  | l => l

/-- The fixed tree over 64 lanes (R132). -/
def reduceTree {α : Type} (op : α → α → α) (d : α) (l : List α) : α :=
  nthD (pairUp op (pairUp op (pairUp op (pairUp op (pairUp op (pairUp op l)))))) 0 d

def lanesOf (v : Vec) : List Lane := (range' 0 64).map (laneOf v)

/-- A reduction of the lanes of t to a scalar. -/
def reduceT {α : Type} (read : Lane → α) (op : α → α → α) (d : α) (out : α → Word) (t : VVal) (_ : CoreArch) : VVal :=
  joinW (out (reduceTree op d ((lanesOf t.v).map read))) [t]

/-- The running sums of R133 from a start. -/
def scanFrom (a : Lane) : List Lane → List Lane
  | [] => []
  | x :: rest => (a + x) :: scanFrom (a + x) rest

/-- A vector from a list of lanes, zeros beyond it. -/
def vecOfList (l : List Lane) : Vec := ofLanes (fun i => nthD l i 0#32)

/-- Signed and unsigned choices. -/
def maxI (a t : Lane) : Lane := if a.slt t then t else a
def minI (a t : Lane) : Lane := if t.slt a then t else a
def maxuI (a t : Lane) : Lane := if a.ult t then t else a
def minuI (a t : Lane) : Lane := if t.ult a then t else a

/-- `dot4` of one lane (R130). -/
def dot4Lane (a b t : Lane) : Lane :=
  let p (j : Nat) : Int := signExtNat (natField a.toNat (8 * j) 8) 8 * signExtNat (natField b.toNat (8 * j) 8) 8
  BitVec.ofInt 32 (t.toInt + p 0 + p 1 + p 2 + p 3)

/-- A lane with the `n` bits from `lo` replaced (R137). -/
def insertBits (a : Lane) (lo n x : Nat) : Lane :=
  let m : Lane := BitVec.ofNat 32 ((2 ^ n - 1) * 2 ^ lo)
  (a &&& ~~~m) ||| BitVec.ofNat 32 (x % 2 ^ n * 2 ^ lo)

/-- Element `n` of the Q4X bytes of a lane (R137, R138). -/
def q4xElement (t : Lane) (n : Nat) : Lane :=
  let (lo, hi) := decodeQ4x (natField t.toNat (8 * (n / 2)) 8)
  ofInt (if n % 2 = 0 then lo else hi)

/-- The elements of a list where a mask is set, in lane order (R135). -/
def keepMasked (k : Word) (l : List Lane) : List Lane := (l.zipIdx.filter (fun e => k.getLsbD e.2)).map (·.1)

/-- `expand`: lane i takes the next element of `ts` where the mask is set, else a_i (R135). -/
def expandFrom (k : Word) : Nat → List Lane → List Lane → List Lane
  | _, [], _ => []
  | i, a :: as, ts =>
    if k.getLsbD i then (nthD ts 0 0#32) :: expandFrom k (i + 1) as (ts.drop 1) else a :: expandFrom k (i + 1) as ts

/-- `add.f` (R126): a + t. -/
def execVuAddF (g : Guard) (src : Src) (s : State) : Out :=
  .next (vectorOp (.vuAddF g src) g src .vuR 2 (lanesAT addF) s)

/-- `sub.f` (R126): a - t. -/
def execVuSubF (g : Guard) (src : Src) (s : State) : Out :=
  .next (vectorOp (.vuSubF g src) g src .vuR 2 (lanesAT subF) s)

/-- `mul.f` (R126): a x t. -/
def execVuMulF (g : Guard) (src : Src) (s : State) : Out :=
  .next (vectorOp (.vuMulF g src) g src .vuR 3 (lanesAT mulF) s)

/-- `fma.f` (R126): a x b + t, one rounding. -/
def execVuFmaF (g : Guard) (src : Src) (s : State) : Out :=
  .next (vectorOp (.vuFmaF g src) g src .vuR 4 (lanesABT fmaF) s)

/-- `fms.f` (R126): a x b - t, one rounding. -/
def execVuFmsF (g : Guard) (src : Src) (s : State) : Out :=
  .next (vectorOp (.vuFmsF g src) g src .vuR 4 (lanesABT fmsF) s)

/-- `max.f` (R126). -/
def execVuMaxF (g : Guard) (src : Src) (s : State) : Out :=
  .next (vectorOp (.vuMaxF g src) g src .vuR 2 (lanesAT maxF) s)

/-- `min.f` (R126). -/
def execVuMinF (g : Guard) (src : Src) (s : State) : Out :=
  .next (vectorOp (.vuMinF g src) g src .vuR 2 (lanesAT minF) s)

/-- `abs.f` (R126). -/
def execVuAbsF (g : Guard) (src : Src) (s : State) : Out :=
  .next (vectorOp (.vuAbsF g src) g src .vuR 2 (lanesT absF) s)

/-- `cmpeq.f` (R127). -/
def execVuCmpeqF (g : Guard) (src : Src) (s : State) : Out :=
  .next (vectorOp (.vuCmpeqF g src) g src .vuMr 2 (maskAT eqF) s)

/-- `cmplt.f` (R127). -/
def execVuCmpltF (g : Guard) (src : Src) (s : State) : Out :=
  .next (vectorOp (.vuCmpltF g src) g src .vuMr 2 (maskAT ltF) s)

/-- `cmple.f` (R127). -/
def execVuCmpleF (g : Guard) (src : Src) (s : State) : Out :=
  .next (vectorOp (.vuCmpleF g src) g src .vuMr 2 (maskAT leF) s)

/-- `add.i` (R128). -/
def execVuAddI (g : Guard) (src : Src) (s : State) : Out :=
  .next (vectorOp (.vuAddI g src) g src .vuR 2 (lanesAT (fun a t => a + t)) s)

/-- `sub.i` (R128). -/
def execVuSubI (g : Guard) (src : Src) (s : State) : Out :=
  .next (vectorOp (.vuSubI g src) g src .vuR 2 (lanesAT (fun a t => a - t)) s)

/-- `mul.i` (R128). -/
def execVuMulI (g : Guard) (src : Src) (s : State) : Out :=
  .next (vectorOp (.vuMulI g src) g src .vuR 3 (lanesAT (fun a t => a * t)) s)

/-- `max.i` (R128). -/
def execVuMaxI (g : Guard) (src : Src) (s : State) : Out :=
  .next (vectorOp (.vuMaxI g src) g src .vuR 2 (lanesAT (maxI)) s)

/-- `min.i` (R128). -/
def execVuMinI (g : Guard) (src : Src) (s : State) : Out :=
  .next (vectorOp (.vuMinI g src) g src .vuR 2 (lanesAT (minI)) s)

/-- `maxu.i` (R128). -/
def execVuMaxuI (g : Guard) (src : Src) (s : State) : Out :=
  .next (vectorOp (.vuMaxuI g src) g src .vuR 2 (lanesAT (maxuI)) s)

/-- `minu.i` (R128). -/
def execVuMinuI (g : Guard) (src : Src) (s : State) : Out :=
  .next (vectorOp (.vuMinuI g src) g src .vuR 2 (lanesAT (minuI)) s)

/-- `and` (R128). -/
def execVuAnd (g : Guard) (src : Src) (s : State) : Out :=
  .next (vectorOp (.vuAnd g src) g src .vuR 2 (lanesAT (fun a t => a &&& t)) s)

/-- `or` (R128). -/
def execVuOr (g : Guard) (src : Src) (s : State) : Out :=
  .next (vectorOp (.vuOr g src) g src .vuR 2 (lanesAT (fun a t => a ||| t)) s)

/-- `xor` (R128). -/
def execVuXor (g : Guard) (src : Src) (s : State) : Out :=
  .next (vectorOp (.vuXor g src) g src .vuR 2 (lanesAT (fun a t => a ^^^ t)) s)

/-- `shl` (R128). -/
def execVuShl (g : Guard) (src : Src) (s : State) : Out :=
  .next (vectorOp (.vuShl g src) g src .vuR 2 (lanesAT (fun a t => a <<< (t.toNat % 32))) s)

/-- `shr` (R128). -/
def execVuShr (g : Guard) (src : Src) (s : State) : Out :=
  .next (vectorOp (.vuShr g src) g src .vuR 2 (lanesAT (fun a t => a >>> (t.toNat % 32))) s)

/-- `sar` (R128). -/
def execVuSar (g : Guard) (src : Src) (s : State) : Out :=
  .next (vectorOp (.vuSar g src) g src .vuR 2 (lanesAT (fun a t => a.sshiftRight (t.toNat % 32))) s)

/-- `cmpeq.i` (R129). -/
def execVuCmpeqI (g : Guard) (src : Src) (s : State) : Out :=
  .next (vectorOp (.vuCmpeqI g src) g src .vuMr 2 (maskAT (fun a t => decide (a = t))) s)

/-- `cmplt.i` (R129). -/
def execVuCmpltI (g : Guard) (src : Src) (s : State) : Out :=
  .next (vectorOp (.vuCmpltI g src) g src .vuMr 2 (maskAT (fun a t => a.slt t)) s)

/-- `cmpltu.i` (R129). -/
def execVuCmpltuI (g : Guard) (src : Src) (s : State) : Out :=
  .next (vectorOp (.vuCmpltuI g src) g src .vuMr 2 (maskAT (fun a t => a.ult t)) s)

/-- `dot4` (R130). -/
def execVuDot4 (g : Guard) (src : Src) (s : State) : Out :=
  .next (vectorOp (.vuDot4 g src) g src .vuR 4 (lanesABT dot4Lane) s)

/-- `exp2` (R131, R192 to R194). -/
def execVuExp2 (g : Guard) (src : Src) (s : State) : Out :=
  .next (vectorOp (.vuExp2 g src) g src .vuR 6 (lanesT exp2F) s)

/-- `rcp` (R131, R192 to R194). -/
def execVuRcp (g : Guard) (src : Src) (s : State) : Out :=
  .next (vectorOp (.vuRcp g src) g src .vuR 6 (lanesT rcpF) s)

/-- `rsqrt` (R131, R192 to R194). -/
def execVuRsqrt (g : Guard) (src : Src) (s : State) : Out :=
  .next (vectorOp (.vuRsqrt g src) g src .vuR 6 (lanesT rsqrtF) s)

/-- `redadd.f` (R132). -/
def execVuRedaddF (g : Guard) (src : Src) (s : State) : Out :=
  .next (vectorOp (.vuRedaddF g src) g src .vuSr 5 (reduceT id addF 0#32 (fun x => x.setWidth 64)) s)

/-- `redmax.f` (R132). -/
def execVuRedmaxF (g : Guard) (src : Src) (s : State) : Out :=
  .next (vectorOp (.vuRedmaxF g src) g src .vuSr 5 (reduceT id maxF 0#32 (fun x => x.setWidth 64)) s)

/-- `redadd.i` (R132): the exact sum. -/
def execVuRedaddI (g : Guard) (src : Src) (s : State) : Out :=
  .next (vectorOp (.vuRedaddI g src) g src .vuSr 5 (reduceT (fun x => x.toInt) (fun x y => x + y) 0 (fun z => BitVec.ofInt 64 z)) s)

/-- `redmax.i` (R132). -/
def execVuRedmaxI (g : Guard) (src : Src) (s : State) : Out :=
  .next (vectorOp (.vuRedmaxI g src) g src .vuSr 5 (reduceT id maxI 0#32 (fun x => x.signExtend 64)) s)

/-- `redmin.i` (R132). -/
def execVuRedminI (g : Guard) (src : Src) (s : State) : Out :=
  .next (vectorOp (.vuRedminI g src) g src .vuSr 5 (reduceT id minI 0#32 (fun x => x.signExtend 64)) s)

/-- `scan.i` (R133). -/
def execVuScanI (g : Guard) (src : Src) (s : State) : Out :=
  .next (vectorOp (.vuScanI g src) g src .vuR 5 (fun t c =>
    let a := getOp c .vuA
    joinV (vecOfList (scanFrom (laneOf a.v 0) (lanesOf t.v))) [a, t]) s)

/-- `perm` (R134). -/
def execVuPerm (g : Guard) (src : Src) (s : State) : Out :=
  .next (vectorOp (.vuPerm g src) g src .vuR 3 (fun t c =>
    let a := getOp c .vuA
    joinV (ofLanes (fun i => let j := (laneOf t.v i).toNat; if j < 64 then laneOf a.v j else 0)) [a, t]) s)

/-- `rot` (R134). -/
def execVuRot (g : Guard) (src : Src) (s : State) : Out :=
  .next (vectorOp (.vuRot g src) g src .vuR 3 (fun t c =>
    let a := getOp c .vuA
    joinV (ofLanes (fun i => laneOf a.v ((i + (laneOf t.v 0).toNat % 64) % 64))) [a, t]) s)

/-- `bcast` (R134). -/
def execVuBcast (g : Guard) (src : Src) (s : State) : Out :=
  .next (vectorOp (.vuBcast g src) g src .vuR 3 (fun t c =>
    let a := getOp c .vuA
    joinV (ofLanes (fun _ => laneOf a.v ((laneOf t.v 0).toNat % 64))) [a, t]) s)

/-- `sel` (R134). -/
def execVuSel (g : Guard) (src : Src) (s : State) : Out :=
  .next (vectorOp (.vuSel g src) g src .vuR 2 (fun t c =>
    let a := getOp c .vuA
    let k := getOp c .vuK
    joinV (ofLanes (fun i => if (vecToWord k.v).getLsbD i then laneOf t.v i else laneOf a.v i)) [a, k, t]) s)

/-- `compress`: the lanes to `vu.r`, their count, with the taint and poison of k alone, to `vu.sr` (R135). -/
def execVuCompress (g : Guard) (src : Src) (s : State) : Out :=
  .next (runMove (.vuCompress g src) g src s (fun x s =>
    let t := x.broadcast
    let k := getOp (arch s) .vuK
    let kept := keepMasked (vecToWord k.v) (lanesOf t.v)
    let s1 := deliver s .vuR 3 true (joinV (vecOfList kept) [k, t])
    deliver s1 .vuSr 3 true (joinW (BitVec.ofNat 64 kept.length) [k])))

/-- `expand` (R135). -/
def execVuExpand (g : Guard) (src : Src) (s : State) : Out :=
  .next (vectorOp (.vuExpand g src) g src .vuR 3 (fun t c =>
    let a := getOp c .vuA
    let k := getOp c .vuK
    joinV (vecOfList (expandFrom (vecToWord k.v) 0 (lanesOf a.v) (lanesOf t.v))) [a, k, t]) s)

/-- `iota` (R134). -/
def execVuIota (g : Guard) (src : Src) (s : State) : Out :=
  .next (vectorOp (.vuIota g src) g src .vuR 2 (fun t _ => joinV (ofLanes (fun i => laneOf t.v 0 + BitVec.ofNat 32 i)) [t]) s)

/-- `cvt.f.i` (R136): signed integer to FP32. -/
def execVuCvtFI (g : Guard) (src : Src) (s : State) : Out :=
  .next (vectorOp (.vuCvtFI g src) g src .vuR 2 (lanesT cvtFI) s)

/-- `cvt.i.f` (R136): FP32 to the nearest even integer. -/
def execVuCvtIF (g : Guard) (src : Src) (s : State) : Out :=
  .next (vectorOp (.vuCvtIF g src) g src .vuR 2 (lanesT (fun t => BitVec.ofNat 32 (toIntF t 32 false))) s)

/-- `cvt.i.f.z` (R136): FP32 to an integer, toward zero. -/
def execVuCvtIFZ (g : Guard) (src : Src) (s : State) : Out :=
  .next (vectorOp (.vuCvtIFZ g src) g src .vuR 2 (lanesT (fun t => BitVec.ofNat 32 (toIntF t 32 true))) s)

/-- `ins.e4.0` (R137). -/
def execVuInsE40 (g : Guard) (src : Src) (s : State) : Out :=
  .next (vectorOp (.vuInsE40 g src) g src .vuR 2 (lanesAT (fun a t => insertBits a 0 8 (toE4m3 t))) s)

/-- `ins.e4.1` (R137). -/
def execVuInsE41 (g : Guard) (src : Src) (s : State) : Out :=
  .next (vectorOp (.vuInsE41 g src) g src .vuR 2 (lanesAT (fun a t => insertBits a 8 8 (toE4m3 t))) s)

/-- `ins.e4.2` (R137). -/
def execVuInsE42 (g : Guard) (src : Src) (s : State) : Out :=
  .next (vectorOp (.vuInsE42 g src) g src .vuR 2 (lanesAT (fun a t => insertBits a 16 8 (toE4m3 t))) s)

/-- `ins.e4.3` (R137). -/
def execVuInsE43 (g : Guard) (src : Src) (s : State) : Out :=
  .next (vectorOp (.vuInsE43 g src) g src .vuR 2 (lanesAT (fun a t => insertBits a 24 8 (toE4m3 t))) s)

/-- `ins.q8.0` (R137). -/
def execVuInsQ80 (g : Guard) (src : Src) (s : State) : Out :=
  .next (vectorOp (.vuInsQ80 g src) g src .vuR 2 (lanesAT (fun a t => insertBits a 0 8 (toIntF t 8 false))) s)

/-- `ins.q8.1` (R137). -/
def execVuInsQ81 (g : Guard) (src : Src) (s : State) : Out :=
  .next (vectorOp (.vuInsQ81 g src) g src .vuR 2 (lanesAT (fun a t => insertBits a 8 8 (toIntF t 8 false))) s)

/-- `ins.q8.2` (R137). -/
def execVuInsQ82 (g : Guard) (src : Src) (s : State) : Out :=
  .next (vectorOp (.vuInsQ82 g src) g src .vuR 2 (lanesAT (fun a t => insertBits a 16 8 (toIntF t 8 false))) s)

/-- `ins.q8.3` (R137). -/
def execVuInsQ83 (g : Guard) (src : Src) (s : State) : Out :=
  .next (vectorOp (.vuInsQ83 g src) g src .vuR 2 (lanesAT (fun a t => insertBits a 24 8 (toIntF t 8 false))) s)

/-- `ins.q4x.0` (R137, R138): element 0 from b, element 1 from t. -/
def execVuInsQ4x0 (g : Guard) (src : Src) (s : State) : Out :=
  .next (vectorOp (.vuInsQ4x0 g src) g src .vuR 2 (lanesABT (fun a b t => insertBits a 0 8 (encodeQ4x b t))) s)

/-- `ins.q4x.1` (R137, R138): element 2 from b, element 3 from t. -/
def execVuInsQ4x1 (g : Guard) (src : Src) (s : State) : Out :=
  .next (vectorOp (.vuInsQ4x1 g src) g src .vuR 2 (lanesABT (fun a b t => insertBits a 8 8 (encodeQ4x b t))) s)

/-- `ins.q4x.2` (R137, R138): element 4 from b, element 5 from t. -/
def execVuInsQ4x2 (g : Guard) (src : Src) (s : State) : Out :=
  .next (vectorOp (.vuInsQ4x2 g src) g src .vuR 2 (lanesABT (fun a b t => insertBits a 16 8 (encodeQ4x b t))) s)

/-- `ins.q4x.3` (R137, R138): element 6 from b, element 7 from t. -/
def execVuInsQ4x3 (g : Guard) (src : Src) (s : State) : Out :=
  .next (vectorOp (.vuInsQ4x3 g src) g src .vuR 2 (lanesABT (fun a b t => insertBits a 24 8 (encodeQ4x b t))) s)

/-- `ins.h.0` (R137). -/
def execVuInsH0 (g : Guard) (src : Src) (s : State) : Out :=
  .next (vectorOp (.vuInsH0 g src) g src .vuR 2 (lanesAT (fun a t => insertBits a 0 16 (toBf16 t))) s)

/-- `ins.h.1` (R137). -/
def execVuInsH1 (g : Guard) (src : Src) (s : State) : Out :=
  .next (vectorOp (.vuInsH1 g src) g src .vuR 2 (lanesAT (fun a t => insertBits a 16 16 (toBf16 t))) s)

/-- `ext.e4.0` (R137). -/
def execVuExtE40 (g : Guard) (src : Src) (s : State) : Out :=
  .next (vectorOp (.vuExtE40 g src) g src .vuR 2 (lanesT (fun t => ofE4m3 (natField t.toNat 0 8))) s)

/-- `ext.e4.1` (R137). -/
def execVuExtE41 (g : Guard) (src : Src) (s : State) : Out :=
  .next (vectorOp (.vuExtE41 g src) g src .vuR 2 (lanesT (fun t => ofE4m3 (natField t.toNat 8 8))) s)

/-- `ext.e4.2` (R137). -/
def execVuExtE42 (g : Guard) (src : Src) (s : State) : Out :=
  .next (vectorOp (.vuExtE42 g src) g src .vuR 2 (lanesT (fun t => ofE4m3 (natField t.toNat 16 8))) s)

/-- `ext.e4.3` (R137). -/
def execVuExtE43 (g : Guard) (src : Src) (s : State) : Out :=
  .next (vectorOp (.vuExtE43 g src) g src .vuR 2 (lanesT (fun t => ofE4m3 (natField t.toNat 24 8))) s)

/-- `ext.q8.0` (R137). -/
def execVuExtQ80 (g : Guard) (src : Src) (s : State) : Out :=
  .next (vectorOp (.vuExtQ80 g src) g src .vuR 2 (lanesT (fun t => ofInt (signExtNat (natField t.toNat 0 8) 8))) s)

/-- `ext.q8.1` (R137). -/
def execVuExtQ81 (g : Guard) (src : Src) (s : State) : Out :=
  .next (vectorOp (.vuExtQ81 g src) g src .vuR 2 (lanesT (fun t => ofInt (signExtNat (natField t.toNat 8 8) 8))) s)

/-- `ext.q8.2` (R137). -/
def execVuExtQ82 (g : Guard) (src : Src) (s : State) : Out :=
  .next (vectorOp (.vuExtQ82 g src) g src .vuR 2 (lanesT (fun t => ofInt (signExtNat (natField t.toNat 16 8) 8))) s)

/-- `ext.q8.3` (R137). -/
def execVuExtQ83 (g : Guard) (src : Src) (s : State) : Out :=
  .next (vectorOp (.vuExtQ83 g src) g src .vuR 2 (lanesT (fun t => ofInt (signExtNat (natField t.toNat 24 8) 8))) s)

/-- `ext.q4x.0` (R137, R138). -/
def execVuExtQ4x0 (g : Guard) (src : Src) (s : State) : Out :=
  .next (vectorOp (.vuExtQ4x0 g src) g src .vuR 2 (lanesT (fun t => q4xElement t 0)) s)

/-- `ext.q4x.1` (R137, R138). -/
def execVuExtQ4x1 (g : Guard) (src : Src) (s : State) : Out :=
  .next (vectorOp (.vuExtQ4x1 g src) g src .vuR 2 (lanesT (fun t => q4xElement t 1)) s)

/-- `ext.q4x.2` (R137, R138). -/
def execVuExtQ4x2 (g : Guard) (src : Src) (s : State) : Out :=
  .next (vectorOp (.vuExtQ4x2 g src) g src .vuR 2 (lanesT (fun t => q4xElement t 2)) s)

/-- `ext.q4x.3` (R137, R138). -/
def execVuExtQ4x3 (g : Guard) (src : Src) (s : State) : Out :=
  .next (vectorOp (.vuExtQ4x3 g src) g src .vuR 2 (lanesT (fun t => q4xElement t 3)) s)

/-- `ext.q4x.4` (R137, R138). -/
def execVuExtQ4x4 (g : Guard) (src : Src) (s : State) : Out :=
  .next (vectorOp (.vuExtQ4x4 g src) g src .vuR 2 (lanesT (fun t => q4xElement t 4)) s)

/-- `ext.q4x.5` (R137, R138). -/
def execVuExtQ4x5 (g : Guard) (src : Src) (s : State) : Out :=
  .next (vectorOp (.vuExtQ4x5 g src) g src .vuR 2 (lanesT (fun t => q4xElement t 5)) s)

/-- `ext.q4x.6` (R137, R138). -/
def execVuExtQ4x6 (g : Guard) (src : Src) (s : State) : Out :=
  .next (vectorOp (.vuExtQ4x6 g src) g src .vuR 2 (lanesT (fun t => q4xElement t 6)) s)

/-- `ext.q4x.7` (R137, R138). -/
def execVuExtQ4x7 (g : Guard) (src : Src) (s : State) : Out :=
  .next (vectorOp (.vuExtQ4x7 g src) g src .vuR 2 (lanesT (fun t => q4xElement t 7)) s)

/-- `ext.h.0` (R137). -/
def execVuExtH0 (g : Guard) (src : Src) (s : State) : Out :=
  .next (vectorOp (.vuExtH0 g src) g src .vuR 2 (lanesT (fun t => ofBf16 (natField t.toNat 0 16))) s)

/-- `ext.h.1` (R137). -/
def execVuExtH1 (g : Guard) (src : Src) (s : State) : Out :=
  .next (vectorOp (.vuExtH1 g src) g src .vuR 2 (lanesT (fun t => ofBf16 (natField t.toNat 16 16))) s)

/-- `spush`: the first lanes of the mask that find room join the queue; `vu.sr` receives their number with the taint of `vu.k`
and no poison (R140). -/
def execVuSpush (g : Guard) (src : Src) (s : State) : Out :=
  .next (runMovePre (.vuSpush g src) g src
    (if (getOp (arch s) .vuB).p || (getOp (arch s) .vuK).p then some cPoison else none) s (fun x s =>
    let t := x.broadcast
    let b := getOp (arch s) .vuB
    let k := getOp (arch s) .vuK
    if b.p || k.p then raise s (.vuSpush g src) cPoison
    else
      let q := quadOf s.cur
      let n := (laneOf b.v 0).toNat % 4
      let held := nthD (getQuad s q).streams n []
      let new := (keepMasked (vecToWord k.v) (lanesOf t.v)).take (1024 - held.length)
      let s1 := modQuad s q (fun x => { x with streams := setNth x.streams n (held ++ new.map (fun l => (l, t.p))) })
      let s2 := openWindow s1 s1.cur 5
      deliver s2 .vuSr 8 true { v := wordToVec (BitVec.ofNat 64 new.length), t := k.t, p := false }))

/-- `spop`: the descriptor's entries leave the queue at the end of the period, after every push of it, and arrive at 8 cycles
(R141, R142). -/
def execVuSpop (g : Guard) (src : Src) (s : State) : Out :=
  .next (runMove (.vuSpop g src) g src s (fun x s =>
    let t := x.broadcast
    let d := (laneOf t.v 0).toNat
    if t.p then raise s (.vuSpop g src) cPoison
    else if 64 < natField d 2 7 then raise s (.vuSpop g src) cOperand
    else
      let a := arch s
      let p : Pop :=
        { core := s.cur, stream := d % 4, most := natField d 2 7, due := a.csr.cyc + 8, ord := orderNo s a, t := t.t }
      openWindow (modQuad s (quadOf s.cur) (fun x => { x with pops := x.pops ++ [p] })) s.cur 5))

end Sys2Proof.Machine
end

