-- ==== Sys2Proof/Machine/Crucible.lean ====
section
/-! DEFINITION. The stack engines: key-value page addresses, the issue checks of `eng.sgemv`, `eng.sattn` and `eng.sred`, and
their runs (R195 to R197, R243 to R257, R258 to R260). -/

namespace Sys2Proof.Machine

/-! The places of a pool's bytes (R258 to R260). -/

/-- The place of a virtual address of pool `no`; a page that is not translated has no place, and what accesses it waits. -/
def poolPlace (s : State) (no va : Nat) : Loc :=
  let e := alGet 0#64 s.xlat (pageKey (16384 + no) (va / 2097152))
  if leafOk e then leafLoc e va else { peer := none, pa := 0xC000000000 }

/-- The places of a page's key, value and metadata bytes. -/
def Pool.keyLoc (s : State) (no : Nat) (p : Pool) (page slot : Nat) : Loc :=
  poolPlace s no (p.dvbase + page * p.pageBytes + slot * p.slotBytes)
def Pool.valLoc (s : State) (no : Nat) (p : Pool) (page slot : Nat) : Loc :=
  poolPlace s no (p.dvbase + page * p.pageBytes + (64 + slot) * p.slotBytes)
def Pool.metaLoc (s : State) (no : Nat) (p : Pool) (page off : Nat) : Loc := poolPlace s no (p.mvbase + 512 * page + off)

/-! Extents (R250). -/

/-- An extent: BASE, LEN, STRIDE. -/
structure Extent where
  base : Nat
  len : Nat
  stride : Int
  deriving DecidableEq, Repr

def extentOf (w : Nat) : Extent := { base := natField w 0 32, len := natField w 32 16, stride := signExtNat (natField w 48 16) 16 }

/-- The page of an extent's `i`-th run of 64 positions. -/
def Extent.page (e : Extent) (i : Nat) : Int := (e.base : Int) + (i : Int) * e.stride

/-- Positions held by extents. -/
def extentsLen (l : List Extent) : Nat := (l.map (·.len)).foldl (· + ·) 0

/-- The pages that hold positions `ts` to `te - 1`, in position order: page, first position, positions, first slot. -/
def extentPages (ts te : Nat) : Nat → List Extent → List (Int × Nat × Nat × Nat)
  | _, [] => []
  | p, e :: rest =>
    let lo := max ts p
    let hi := min te (p + e.len)
    (if lo < hi then
      (range' ((lo - p) / 64) ((hi - 1 - p) / 64 - (lo - p) / 64 + 1)).map (fun i =>
        let a := max lo (p + 64 * i)
        (e.page i, a, min hi (p + 64 * i + 64) - a, a - p - 64 * i))
     else []) ++ extentPages ts te (p + e.len) rest

/-- The extents of a `sattn` block. -/
def sattnExtents (b : List (Byte × Bool)) : List Extent :=
  (range' 0 (min 16 (fieldOf b 8 4))).map (fun e => extentOf (fieldOf b (0x40 + 8 * e) 8))

/-- The pages that a `sattn` names over its token range. -/
def sattnPages (b : List (Byte × Bool)) : List (Int × Nat × Nat × Nat) :=
  extentPages (fieldOf b 0 4) (fieldOf b 4 4) 0 (sattnExtents b)

/-! Operands. -/

/-- Elements of a format: 0 E4M3, 1 Q8, 2 BF16 (R195). -/
def elemsOf (fmt : Nat) (bs : List Byte) : List (Option Dy) :=
  match fmt with
  | 0 => bs.map (fun b => opE4m3 b.toNat)
  | 1 => bs.map (fun b => opQ8 b.toNat)
  | _ => (range' 0 (bs.length / 2)).map (fun i => opBf16 (leNat ((bs.drop (2 * i)).take 2)))

/-- The signs of a format's codes; a Q8 zero has none. -/
def signsOf (fmt : Nat) (bs : List Byte) : List Bool :=
  match fmt with
  | 0 | 1 => bs.map (fun b => b.getLsbD 7)
  | _ => (range' 0 (bs.length / 2)).map (fun i => (nthD bs (2 * i + 1) 0#8).getLsbD 7)

/-- BF16 scales, or `n` ones for a BF16 operand (R185). -/
def scalesOf (bf : Bool) (n : Nat) (bs : List Byte) : List (Option Dy) :=
  if bf then List.replicate n (some dyOne) else elemsOf 2 bs

/-- The offset in its frame of the first poisoned line of a far read, with the bytes. -/
def crucibleRead (x : EngRun) (l : Loc) : List (Nat × Nat × Nat) → List Byte × Option Nat × EngRun
  | [] => ([], none, x)
  | (k, off, n) :: rest =>
    let (bs, bad, x1) := engLine x { l with pa := 64 * k }
    let (bs2, bad2, x2) := crucibleRead x1 l rest
    ((bs.drop off).take n ++ bs2, if bad then some (64 * k % 2097152) else bad2, x2)

def stackRead (x : EngRun) (l : Loc) (n : Nat) : List Byte × Option Nat × EngRun := crucibleRead x l (pieces l.pa n)

/-- Reads a list of spans: their bytes, the first poisoned line. -/
def stackReads : List (Loc × Nat) → EngRun → List (List Byte) × Option Nat × EngRun
  | [], x => ([], none, x)
  | (l, n) :: rest, x =>
    let (bs, bad, x1) := stackRead x l n
    let (more, bad2, x2) := stackReads rest x1
    (bs :: more, (match bad with | some b => some b | none => bad2), x2)

/-- Reads a list of near spans of the core's quad: their bytes, whether any is poisoned. -/
def nearReads : List (Nat × Nat) → EngRun → List (List Byte) × Bool × EngRun
  | [], x => ([], false, x)
  | (a, n) :: rest, x =>
    let (bs, bad, x1) := engNearRead x (quadOf x.core) a n
    let (more, bad2, x2) := nearReads rest x1
    (bs :: more, bad || bad2, x2)

/-- FP32 lanes as bytes. -/
def laneList (l : List Lane) : List Byte := l.flatMap (fun x => leBytes x.toNat 4)

/-! `sgemv` (R247 to R249). -/

/-- The fields of a `sgemv`. -/
structure Gemv where
  k : Nat
  n : Nat
  wrow : Nat
  wsoff : Nat
  xaddr : Nat
  xstride : Nat
  xsaddr : Nat
  wfmt : Nat
  xbf : Bool
  nv : Nat
  deriving DecidableEq, Repr

def gemvOf (c : EngCmd) : Gemv :=
  { k := fieldOf c.block 0 4, n := fieldOf c.block 4 4, wrow := fieldOf c.block 8 4, wsoff := fieldOf c.block 0xC 4,
    xaddr := fieldOf c.block 0x10 4, xstride := fieldOf c.block 0x14 4, xsaddr := fieldOf c.block 0x18 4,
    wfmt := cmdOpf c.word 16 2, xbf := c.word.getLsbD 18, nv := cmdOpf c.word 19 3 + 1 }

/-- Rows of weights as stored, bytes of a weight, bytes of a near element. -/
def Gemv.rows (v : Gemv) : Nat := if v.wfmt = 2 then v.k / 2 else v.k
def Gemv.ew (v : Gemv) : Nat := if v.wfmt = 3 then 2 else 1
def Gemv.ex (v : Gemv) : Nat := if v.xbf then 2 else 1
def Gemv.blocks (v : Gemv) : Nat := v.k / 32

/-- The near source spans. -/
def Gemv.near (v : Gemv) : List (Nat × Nat) :=
  (range' 0 v.nv).map (fun i => (v.xaddr + i * v.xstride, v.ex * v.k)) ++
    (if v.xbf then [] else [(v.xsaddr, 2 * v.nv * v.blocks)])

def overlaps (a n b m : Nat) : Bool := decide (a < b + m ∧ b < a + n)

/-- The bounding byte ranges of the near sources (R160, R248). DESIGN CHOICE (log entry 103): the command block, which is read at issue, is
none of them. -/
def Gemv.bounds (v : Gemv) : List (Nat × Nat) :=
  (v.xaddr, (v.nv - 1) * v.xstride + v.ex * v.k) :: (if v.xbf then [] else [(v.xsaddr, 2 * v.nv * v.blocks)])

/-- The far source of a crucible command: item 5, then the conditions of R243 on its handle. -/
def chkSource (s : State) (k : Fin 16) : Chk :=
  let h := (fetchHandle s k).h
  chk (decide (h.home ≠ 0) || (!h.pageRo && !h.sh)) cOperand

/-- The issue of a command with a block at `e.nest`: where the block cannot be read, the alignment and bound faults; otherwise the
block, then the checks on it. -/
def stackIssue (s : State) (c : EngCmd) (n : Nat) (early align : Chk) (f : EngCmd → State → EngIssue) : EngIssue :=
  let a := natField c.nest.toNat 0 22
  let near := chkNear s (quadOf s.cur) a n
  checked early
    (if a % 64 ≠ 0 then .bad (cAlign, 0)
     else
       match near with
       | some x => checked align (.bad x)
       | none => withRead s c.e a n (fun l s1 => f { c with block := l } s1))

/-- The checks of a `sgemv` whose block has been read (R160, R243, R248). -/
def chkGemv (s : State) (c : EngCmd) : Chk :=
  let v := gemvOf c
  let q := quadOf s.cur
  let dst := c.dst.toNat
  match engAddr c.src with
  | some (.far k o) =>
    firstChk
      [chk (decide (v.k % 32 ≠ 0 ∨ v.k < 32 ∨ 65536 < v.k ∨ v.n < 1 ∨ 16384 < v.n ∨ v.wrow % 4 ≠ 0 ∨
         (1 < v.rows ∧ v.wrow < v.n * v.ew))) cOperand,
       chk (decide ((v.wfmt ≠ 3 ∧ v.wsoff % 32 ≠ 0) ∨ v.xaddr % 32 ≠ 0 ∨ v.xstride % 32 ≠ 0 ∨
         (v.xbf = false ∧ v.xsaddr % 32 ≠ 0) ∨ dst % 4 ≠ 0)) cAlign,
       firstChk (v.near.map (fun p => chkNear s q p.1 p.2)),
       chkNear s q dst (4 * v.nv * v.n),
       chk (decide (2097152 < o + (v.rows - 1) * v.wrow + v.n * v.ew)) cHandleBound,
       chk (decide (v.wfmt ≠ 3 ∧ 2097152 < v.wsoff + 2 * v.blocks * v.n)) cHandleBound,
       chkHandle s k,
       chk (spanProtected s q dst (4 * v.nv * v.n)) cWriteProtect,
       chkSource s k,
       chk (v.bounds.any (fun p => overlaps p.1 p.2 dst (4 * v.nv * v.n))) cOperand]
  | _ => some (cOperand, 0)

/-- The issue of a `sgemv`. -/
def issueGemv (s : State) (c : EngCmd) : EngIssue :=
  let early := chk ((match engAddr c.src with | some (.far _ _) => false | _ => true) || (nearOnly c.dst).isNone) cOperand
  stackIssue s c 64 early (chk (decide (c.dst.toNat % 4 ≠ 0)) cAlign) (fun c s => checked (chkGemv s c) (.ok c s))

/-- Column `j` of the weights, from the rows as stored. -/
def gemvColumn (v : Gemv) (rows : List (List Byte)) (j : Nat) : List (Option Dy) :=
  match v.wfmt with
  | 0 => rows.map (fun r => opE4m3 (nthD r j 0#8).toNat)
  | 1 => rows.map (fun r => opQ8 (nthD r j 0#8).toNat)
  | 2 => rows.flatMap (fun r =>
      let (a, b) := decodeQ4x (nthD r j 0#8).toNat
      [some { m := a, e := 0 }, some { m := b, e := 0 }])
  | _ => rows.map (fun r => opBf16 (leNat ((r.drop (2 * j)).take 2)))

/-- The segments of 256 elements, one rounding each (R195, R249). -/
def segments (trunc : Bool) : Nat → Lane → List (Option Dy) → List (Option Dy) → List (Option Dy) → List (Option Dy) → Lane
  | 0, acc, _, _, _, _ => acc
  | n + 1, acc, x, w, sx, sw =>
    segments trunc n (accRound (opBase acc) (passSum trunc (x.take 256) (w.take 256) (sx.take 8) (sw.take 8)))
      (x.drop 256) (w.drop 256) (sx.drop 8) (sw.drop 8)

/-- The results of a `sgemv` on its operands. -/
def gemvResult (v : Gemv) (xs : List (List Byte)) (xscales : List Byte) (rows : List (List Byte)) (wscales : List Byte) : List Lane :=
  let trunc := v.xbf || decide (v.wfmt = 3)
  let ws := elemsOf 2 wscales
  (range' 0 v.nv).flatMap (fun i =>
    let x := elemsOf (if v.xbf then 2 else 1) (nthD xs i [])
    let sx := scalesOf v.xbf v.blocks ((xscales.drop (2 * i * v.blocks)).take (2 * v.blocks))
    (range' 0 v.n).map (fun j =>
      let sw := if v.wfmt = 3 then List.replicate v.blocks (some dyOne)
        else (range' 0 v.blocks).map (fun b => nthD ws (b * v.n + j) none)
      segments trunc (ceilDiv v.k 256) 0#32 x (gemvColumn v rows j) sx sw))

/-- Runs a `sgemv` (R244, R249, R256); poison in any word of its block ends it (log entry 98). -/
def runGemv (c : EngCmd) (x : EngRun) : EngEnd × EngRun :=
  let v := gemvOf c
  match engAddr c.src with
  | some (.far k o) =>
    let frame := handleLoc (cmdHandle c k) 0
    let at_ (off : Nat) : Loc := { frame with pa := frame.pa + off }
    let (near, nbad, x1) := nearReads v.near x
    let (rows, bad1, x2) := stackReads ((range' 0 v.rows).map (fun r => (at_ (o + r * v.wrow), v.n * v.ew))) x1
    let (ws, bad2, x3) := if v.wfmt = 3 then ([], none, x2) else stackReads [(at_ v.wsoff, 2 * v.blocks * v.n)] x2
    if nbad || badIn c.block then ((21, 0), x1)
    else
      match bad1, bad2 with
      | some off, _ => ((21, off), x2)
      | none, some off => ((21, off), x3)
      | none, none =>
        let y := gemvResult v (near.take v.nv) (nthD near v.nv []) rows (nthD ws 0 [])
        ((0, v.nv * v.n), engNearWrite x3 (quadOf x3.core) c.dst.toNat (laneList y))
  | _ => ((21, 0), x)

/-! `sattn` (R250 to R252). -/

/-- The fields of a `sattn`. -/
structure Attn where
  ts : Nat
  te : Nat
  next : Nat
  c : Lane
  qaddr : Nat
  qstride : Nat
  qsaddr : Nat
  qbf : Bool
  heads : Nat
  score : Bool
  dsel : Nat
  kvfmt : Nat
  deriving DecidableEq, Repr

def attnOf (c : EngCmd) : Attn :=
  { ts := fieldOf c.block 0 4, te := fieldOf c.block 4 4, next := fieldOf c.block 8 4, c := BitVec.ofNat 32 (fieldOf c.block 0xC 4),
    qaddr := fieldOf c.block 0x10 4, qstride := fieldOf c.block 0x14 4, qsaddr := fieldOf c.block 0x18 4,
    qbf := c.word.getLsbD 16, heads := cmdOpf c.word 17 3 + 1, score := c.word.getLsbD 20, dsel := cmdOpf c.word 21 2,
    kvfmt := cmdOpf c.word 23 2 }

def Attn.dim (v : Attn) : Nat := headDim v.dsel

/-- The near source spans: each head's query, then the scales. -/
def Attn.near (v : Attn) : List (Nat × Nat) :=
  (range' 0 v.heads).map (fun g => (v.qaddr + g * v.qstride, (if v.qbf then 2 else 1) * v.dim)) ++
    (if v.qbf then [] else [(v.qsaddr, 2 * v.heads * v.dim / 32)])

def Attn.dstBytes (v : Attn) : Nat := v.heads * (64 + 4 * v.dim)

/-- The conditions of R243 on the pages and the score table. -/
def chkStacks (s : State) (c : EngCmd) (p : Pool) (ctx : Nat) : Chk :=
  let pages := (sattnPages c.block).map (fun e => e.1.toNat)
  let inStacks := (pages.map p.stack).eraseDups
  let pageSh := pages.all (fun n => leafSh (leafOf s ctx (p.dvbase + n * p.pageBytes)) && leafSh (leafOf s ctx (p.mvbase + 512 * n)))
  let score := match (attnOf c).score, engAddr c.src with
    | true, some (.far k _) =>
      let h := (fetchHandle s k).h
      decide (h.home ≠ 0) || !h.sh || !(inStacks.contains (stackOf h.frame))
    | _, _ => false
  chk (score || decide (1 < inStacks.length) || !pageSh) cOperand

/-- The checks of a `sattn` whose block has been read (R160, R243, R250). DESIGN CHOICE (log entry 104): only the pages of the positions from
TSTART to TEND − 1 are checked. -/
def chkAttn (s : State) (c : EngCmd) : Chk :=
  let v := attnOf c
  let q := quadOf s.cur
  let ctx := ((curCore s).gang).getD 0
  let exts := sattnExtents c.block
  let dst := c.dst.toNat
  let far : Option (Fin 16 × Nat) := match v.score, engAddr c.src with | true, some (.far k o) => some (k, o) | _, _ => none
  match poolOf s ctx with
  | none => some (cOperand, 0)
  | some p =>
    firstChk
      ([chk (decide (v.te ≤ v.ts ∨ extentsLen exts < v.te ∨ 1048576 < v.te ∨ v.next < 1 ∨ 16 < v.next) ||
          exts.any (fun e => decide (e.len = 0)) ||
          (sattnPages c.block).any (fun e => decide (e.1 < 0 ∨ (p.pages : Int) ≤ e.1))) cOperand,
        chk (decide (v.qaddr % 32 ≠ 0 ∨ v.qstride % 32 ≠ 0 ∨ (v.qbf = false ∧ v.qsaddr % 32 ≠ 0) ∨ dst % 4 ≠ 0)) cAlign,
        firstChk (v.near.map (fun e => chkNear s q e.1 e.2)),
        chkNear s q dst v.dstBytes] ++
       (match far with
        | some (k, o) =>
          [chk (decide (2097152 < o + 4 * v.te)) cHandleBound, chkHandle s k,
           chk (!(cmdHandle c k).wr || spanProtected s q dst v.dstBytes) cWriteProtect]
        | none => [chk (spanProtected s q dst v.dstBytes) cWriteProtect]) ++
       [chkStacks s c p ctx])

/-- The issue of a `sattn`. -/
def issueAttn (s : State) (c : EngCmd) : EngIssue :=
  let score := c.word.getLsbD 20
  let early := chk (decide (cmdOpf c.word 21 2 = 3 ∨ cmdOpf c.word 23 2 = 3) || (nearOnly c.dst).isNone ||
    (score && (match engAddr c.src with | some (.far _ _) => false | _ => true))) cOperand
  stackIssue s c 192 early (chk (decide (c.dst.toNat % 4 ≠ 0)) cAlign) (fun c s => checked (chkAttn s c) (.ok c s))

/-- A page's metadata as validation reads it: FILL and ATTR. -/
structure PageMeta where
  fill : Nat
  attr : Nat
  deriving DecidableEq, Repr

/-- Reads the metadata records of a list of pages of pool `no`; a line that fails is no cause before validation has passed (R256). -/
def readMetas (no : Nat) (p : Pool) : List Nat → EngRun → List (Nat × PageMeta) × EngRun
  | [], x => ([], x)
  | n :: rest, x =>
    let (bs, _, x1) := stackRead x (p.metaLoc x.st no n 0) 512
    let (more, x2) := readMetas no p rest x1
    ((n, { fill := leNat (bs.take 4), attr := leNat ((bs.drop 4).take 4) }) :: more, x2)

/-- Step 1 of R251 for one page. -/
def validatePage (v : Attn) (m : PageMeta) (page first count slot : Nat) : Option EngEnd :=
  if m.attr.testBit 8 then some (16, page)
  else if m.attr % 4 ≠ v.kvfmt ∨ m.attr / 4 % 4 ≠ v.dsel then some (18, page)
  else if m.fill < slot + count then some (17, if slot ≤ m.fill then first + (m.fill - slot) else first)
  else none

def validateAll (v : Attn) (metas : List (Nat × PageMeta)) : List (Int × Nat × Nat × Nat) → Option EngEnd
  | [] => none
  | (pg, first, count, slot) :: rest =>
    match metas.find? (fun e => e.1 = pg.toNat) with
    | none => some (17, first)
    | some (_, m) =>
      match validatePage v m pg.toNat first count slot with
      | some e => some e
      | none => validateAll v metas rest

/-- A token as the crucibles read it: key elements and scale, value lanes. -/
structure Token where
  key : List (Option Dy)
  kscale : Option Dy
  val : List Lane
  deriving Repr

/-- The scale of a slot as it is used: 1 for a BF16 page. -/
def slotScale (p : Pool) (bs : List Byte) : Option Dy := if p.fmt = 2 then some dyOne else opBf16 (leNat bs)

/-- Codes times their scale as FP32 lanes (R196). DESIGN CHOICE (log entry 101): an infinite BF16 element reads as the largest finite BF16,
as R190 has it for activations and weights. -/
def valueLanes (fmt : Nat) (bs : List Byte) (neg : Bool) (scale : Option Dy) : List Lane :=
  List.zipWith (fun n e => scaledF32 (n != neg) e scale) (signsOf fmt bs) (elemsOf fmt bs)

/-- Reads the scale of a slot at an offset of the metadata record; a BF16 page has none. DESIGN CHOICE (log entry 102): its line is read for
each slot. -/
def readScale (no : Nat) (p : Pool) (page off slot : Nat) (x : EngRun) : List Byte × Option Nat × EngRun :=
  if p.fmt = 2 then ([], none, x) else stackRead x (p.metaLoc x.st no page (off + 2 * slot)) 2

/-- Reads the tokens of one page, slots in order; a poisoned line gives none. -/
def readSlots (no : Nat) (p : Pool) (page : Nat) : List Nat → EngRun → Option (List Token) × EngRun
  | [], x => (some [], x)
  | slot :: rest, x =>
    let (k, bad1, x1) := stackRead x (p.keyLoc x.st no page slot) p.slotBytes
    let (w, bad2, x2) := stackRead x1 (p.valLoc x1.st no page slot) p.slotBytes
    let (ks, bad3, x3) := readScale no p page 0x100 slot x2
    let (vs, bad4, x4) := readScale no p page 0x180 slot x3
    let (more, x5) := readSlots no p page rest x4
    if bad1.isSome || bad2.isSome || bad3.isSome || bad4.isSome then (none, x5)
    else
      let tok : Token := { key := elemsOf p.fmt k, kscale := slotScale p ks,
                           val := valueLanes p.fmt w ((nthD vs 1 0#8).getLsbD 7) (slotScale p vs) }
      (more.map (fun l => tok :: l), x5)

/-- Reads the tokens of every page; the first page with a poisoned line stops. -/
def readTokens (no : Nat) (p : Pool) : List (Int × Nat × Nat × Nat) → EngRun → Sum Nat (List Token) × EngRun
  | [], x => (.inr [], x)
  | (pg, _, count, slot) :: rest, x =>
    let (l, x1) := readSlots no p pg.toNat (range' slot count) x
    match l with
    | none => (.inl pg.toNat, x1)
    | some toks =>
      let (more, x2) := readTokens no p rest x1
      (match more with | .inl n => .inl n | .inr l => .inr (toks ++ l), x2)

/-- The triple of a head as it grows (R196). -/
structure Triple where
  m : Lane
  l : Lane
  acc : List Lane
  deriving DecidableEq, Repr

/-- The score of a token (R195). -/
def attnScore (trunc : Bool) (q sq : List (Option Dy)) (t : Token) : Lane :=
  accRound (some Dy.zero) (passSum trunc q t.key sq (List.replicate sq.length t.kscale))

/-- One token of R196. -/
def attnStep (x : Triple) (s : Lane) (t : Token) : Triple :=
  let m := maxF x.m s
  let alpha := exp2F (subF x.m m)
  let beta := exp2F (subF s m)
  { m := m, l := fmaF x.l alpha beta, acc := List.zipWith (fun a v => fmaF a alpha (mulF beta v)) x.acc t.val }

/-- The triple of one head over tokens with their scores. -/
def attnTriple (d : Nat) (l : List (Lane × Token)) : Triple :=
  l.foldl (fun x e => attnStep x e.1 e.2) { m := 0xFF7FFFFF#32, l := 0, acc := List.replicate d 0#32 }

/-- A head's record (R252). -/
def tripleBytes (count : Nat) (x : Triple) : List Byte :=
  leBytes x.m.toNat 4 ++ leBytes x.l.toNat 4 ++ leBytes count 4 ++ List.replicate 52 0#8 ++ laneList x.acc

/-- The score of every token for every head. -/
def headScores (v : Attn) (qs : List (List Byte)) (scales : List Byte) (toks : List Token) : List (List Lane) :=
  let nb := v.dim / 32
  (range' 0 v.heads).map (fun g =>
    let q := elemsOf (if v.qbf then 2 else 1) (nthD qs g [])
    let sq := scalesOf v.qbf nb ((scales.drop (2 * g * nb)).take (2 * nb))
    toks.map (attnScore (v.qbf || decide (v.kvfmt = 2)) q sq))

/-- One addition to a score entry: a read-modify-write at the stack (R251), which takes a token for its read and one for its write (log
entry 102). -/
def scoreAdd (l : Loc) (x : EngRun) (y : Lane) : EngRun :=
  let (old, _, x1) := engFarRead x l 4
  engFarWrite x1 l (leBytes (addF (BitVec.ofNat 32 (leNat old)) y).toNat 4)

/-- Step 3 of R251: the additions to the score entry of each position, heads in order. -/
def scoreUpdates (v : Attn) (table : Loc) (scores : List (List Lane)) : List Nat → EngRun → EngRun
  | [], x => x
  | i :: rest, x =>
    let l : Loc := { table with pa := table.pa + 4 * (v.ts + i) }
    scoreUpdates v table scores rest (scores.foldl (fun x h => scoreAdd l x (exp2F (subF (nthD h i 0#32) v.c))) x)

/-- The place of a `sattn`'s score entries, if it updates them. -/
def scoreTable (c : EngCmd) : Option Loc :=
  match (attnOf c).score, engAddr c.src with
  | true, some (.far k o) => some (handleLoc (cmdHandle c k) o)
  | _, _ => none

/-- The offset in its frame of the first poisoned line of the score entries, which are read once ahead of the additions (R256; log entries
75 and 102). -/
def scoreBad (v : Attn) (c : EngCmd) (x : EngRun) : Option Nat × EngRun :=
  match scoreTable c with
  | some l => let (_, bad, x1) := stackRead x { l with pa := l.pa + 4 * v.ts } (4 * (v.te - v.ts)); (bad, x1)
  | none => (none, x)

/-- Runs a `sattn` of a core whose gang's block is `ctx` (R251, R256): after validation, poison in any word of its block ends it (log entry
98). -/
def runAttn (ctx : Nat) (c : EngCmd) (x : EngRun) : EngEnd × EngRun :=
  let v := attnOf c
  match poolOf x.st ctx with
  | none => ((21, 0), x)
  | some p =>
    let no := poolNo x.st ctx
    let runs := sattnPages c.block
    let (metas, x1) := readMetas no p ((runs.map (fun e => e.1.toNat)).eraseDups) x
    match validateAll v metas runs with
    | some e => (e, x1)
    | none =>
      let (near, nbad, x2) := nearReads v.near x1
      if nbad || badIn c.block then ((21, 0), x2)
      else
        match readTokens no p runs x2 with
        | (.inl page, x3) => ((21, page), x3)
        | (.inr toks, x3) =>
          match scoreBad v c x3 with
          | (some off, x4) => ((21, off), x4)
          | (none, x4) =>
            let scores := headScores v (near.take v.heads) (nthD near v.heads []) toks
            let out := scores.flatMap (fun h => tripleBytes (v.te - v.ts) (attnTriple v.dim (h.zip toks)))
            let x5 := match scoreTable c with
              | some l => scoreUpdates v l scores (range' 0 (v.te - v.ts)) x4
              | none => x4
            ((0, v.te - v.ts), engNearWrite x5 (quadOf x5.core) c.dst.toNat out)

/-! `sred` (R254, R255). -/

/-- The fields of a `sred`. -/
structure Bags where
  dim : Nat
  rows : Nat
  stride : Nat
  soff : Nat
  iaddr : Nat
  fmt : Nat
  max : Bool
  nidx : Nat
  nbags : Nat
  deriving DecidableEq, Repr

def bagsOf (c : EngCmd) : Bags :=
  { dim := fieldOf c.block 0 4, rows := fieldOf c.block 4 4, stride := fieldOf c.block 8 4, soff := fieldOf c.block 0xC 4,
    iaddr := fieldOf c.block 0x10 4, fmt := cmdOpf c.word 16 2, max := c.word.getLsbD 18, nidx := cmdOpf c.word 19 7,
    nbags := cmdOpf c.word 26 8 + 1 }

def Bags.et (v : Bags) : Nat := elemSize v.fmt

/-- The checks of a `sred` whose block has been read (R160, R243, R254). -/
def chkBags (s : State) (c : EngCmd) : Chk :=
  let v := bagsOf c
  let q := quadOf s.cur
  let dst := c.dst.toNat
  match engAddr c.src with
  | some (.far k o) =>
    firstChk
      [chk (decide (v.dim % 32 ≠ 0 ∨ v.dim < 32 ∨ 4096 < v.dim ∨ v.rows < 1 ∨ 16777216 < v.rows ∨ v.stride % 4 ≠ 0 ∨
         (1 < v.rows ∧ v.stride < v.dim * v.et))) cOperand,
       chk (decide ((v.fmt ≠ 2 ∧ v.soff % 32 ≠ 0) ∨ v.iaddr % 4 ≠ 0 ∨ dst % 4 ≠ 0)) cAlign,
       chkNear s q v.iaddr (4 * v.nidx), chkNear s q dst (4 * v.nbags * v.dim),
       chk (decide (2097152 < o + (v.rows - 1) * v.stride + v.dim * v.et)) cHandleBound,
       chk (decide (v.fmt ≠ 2 ∧ 2097152 < v.soff + 2 * (v.rows * v.dim / 32))) cHandleBound,
       chkHandle s k,
       chk (spanProtected s q dst (4 * v.nbags * v.dim)) cWriteProtect,
       chkSource s k]
  | _ => some (cOperand, 0)

/-- The issue of a `sred`: its index list is read too. -/
def issueBags (s : State) (c : EngCmd) : EngIssue :=
  let early := chk (decide (cmdOpf c.word 16 2 = 3 ∨ cmdOpf c.word 19 7 < 1 ∨ 64 < cmdOpf c.word 19 7) ||
    (match engAddr c.src with | some (.far _ _) => false | _ => true) || (nearOnly c.dst).isNone) cOperand
  stackIssue s c 64 early (chk (decide (c.dst.toNat % 4 ≠ 0)) cAlign) (fun c s =>
    checked (chkBags s c)
      (withRead s c.e (bagsOf c).iaddr (4 * (bagsOf c).nidx) (fun l s1 => .ok { c with data := l } s1)))

/-- The entries of an index list: (ROW, BAG). -/
def indexEntries (l : List (Byte × Bool)) (n : Nat) : List (Nat × Nat) :=
  (range' 0 n).map (fun i => (fieldOf l (4 * i) 3, fieldOf l (4 * i + 3) 1))

/-- The first entry that stops a `sred` (R255). -/
def badEntry (v : Bags) : Nat → List (Nat × Nat) → Option EngEnd
  | _, [] => none
  | i, (r, b) :: rest =>
    if v.rows ≤ r then some (19, i) else if v.nbags ≤ b then some (20, i) else badEntry v (i + 1) rest

/-- A table row as FP32 lanes (R197). -/
def bagRow (v : Bags) (bs sc : List Byte) : List Lane :=
  if v.fmt = 2 then (range' 0 v.dim).map (fun i => ofBf16 (leNat ((bs.drop (2 * i)).take 2)))
  else
    let s := elemsOf 2 sc
    let neg := signsOf 2 sc
    ((signsOf v.fmt bs).zip (elemsOf v.fmt bs)).zipIdx.map (fun e =>
      scaledF32 (e.1.1 != nthD neg (e.2 / 32) false) e.1.2 (nthD s (e.2 / 32) none))

/-- Joins a row to its bag; none is a bag no entry has named (R197). -/
def bagAdd (v : Bags) (old : Option (List Lane)) (row : List Lane) : List Lane :=
  match old with
  | none => if v.max then row else row.map (fun x => addF 0#32 x)
  | some l => List.zipWith (if v.max then maxF else addF) l row

/-- Reduces the rows of the entries in list order; a poisoned line stops. -/
def reduceBags (v : Bags) (frame : Loc) (o : Nat) :
    List (Nat × Nat) → List (Nat × List Lane) → EngRun → Sum Nat (List (Nat × List Lane)) × EngRun
  | [], bags, x => (.inr bags, x)
  | (r, b) :: rest, bags, x =>
    let nb := v.dim / 32
    let (bs, bad1, x1) := stackRead x { frame with pa := frame.pa + o + r * v.stride } (v.dim * v.et)
    let (sc, bad2, x2) := if v.fmt = 2 then ([], none, x1)
      else stackRead x1 { frame with pa := frame.pa + v.soff + 2 * (r * nb) } (2 * nb)
    match bad1, bad2 with
    | some off, _ => (.inl off, x2)
    | none, some off => (.inl off, x2)
    | none, none =>
      let old := (bags.find? (fun e => e.1 = b)).map (·.2)
      reduceBags v frame o rest (alPut bags b (bagAdd v old (bagRow v bs sc))) x2

/-- Runs a `sred` (R255, R256): the entries are checked first, as they stand in the list; poison of the list or of the block, a reserved
word of it too, decides after them (DESIGN CHOICE, log entry 98). -/
def runBags (c : EngCmd) (x : EngRun) : EngEnd × EngRun :=
  let v := bagsOf c
  let es := indexEntries c.data v.nidx
  match engAddr c.src with
  | some (.far k o) =>
    match badEntry v 0 es with
    | some e => (e, x)
    | none =>
      if badIn c.block || badIn c.data then ((21, 0), x)
      else
        match reduceBags v (handleLoc (cmdHandle c k) 0) o es [] x with
        | (.inl off, x1) => ((21, off), x1)
        | (.inr bags, x1) =>
          let out := (range' 0 v.nbags).flatMap (fun b =>
            laneList (((bags.find? (fun e => e.1 = b)).map (·.2)).getD (List.replicate v.dim 0#32)))
          ((0, v.nidx), engNearWrite x1 (quadOf x1.core) c.dst.toNat out)
  | _ => ((21, 0), x)

end Sys2Proof.Machine
end

