-- ==== Sys2Proof/Machine/KeyValue.lean ====
section
/-! DEFINITION. The key-value unit: pages and their allocator, stream records, the prefix index, and the five commands of Q4
(R258 to R279). -/

namespace Sys2Proof.Machine

/-! CRC-32C (R261). -/

/-- Eight steps of the reflected polynomial. -/
def crcBits : Nat → Nat → Nat
  | 0, x => x
  | n + 1, x => crcBits n (if x % 2 = 1 then (x / 2) ^^^ 0x82F63B78 else x / 2)

/-- A CRC extended by bytes; 0 is the CRC of the empty string. -/
def crcExtend (crc : Nat) (bs : List Byte) : Nat :=
  (bs.foldl (fun x b => crcBits 8 (x ^^^ b.toNat)) (crc ^^^ 0xFFFFFFFF)) ^^^ 0xFFFFFFFF

/-! Pages (R260, R264, R265). -/

/-- What the unit needs at hand: a pool's number, which is also its translation's, and the pool. -/
structure KvEnv where
  no : Nat
  pool : Pool
  deriving DecidableEq, Repr

/-- A field of a page's metadata record. -/
def metaGet (v : KvEnv) (s : State) (page off len : Nat) : Nat := memReadNat s.far (v.pool.metaLoc s v.no page off).pa len

/-- Writes a field of a page's metadata record. -/
def metaPut (v : KvEnv) (page off len val : Nat) (x : EngRun) : EngRun :=
  engFarWrite x (v.pool.metaLoc x.st v.no page off) (leBytes val len)

def pageFill (v : KvEnv) (s : State) (page : Nat) : Nat := metaGet v s page 0 4
def pageAttr (v : KvEnv) (s : State) (page : Nat) : Nat := metaGet v s page 4 4
def pageCrc (v : KvEnv) (s : State) (page : Nat) : Nat := metaGet v s page 8 4
def pageRefs (v : KvEnv) (s : State) (page : Nat) : Nat := metaGet v s page 12 4
def pageDamaged (v : KvEnv) (s : State) (page : Nat) : Bool := (pageAttr v s page).testBit 8
/-- ATTR of an undamaged page of the pool. -/
def freshAttr (v : KvEnv) : Nat := v.pool.fmt + 4 * v.pool.dsel

/-- The pages that the `sattn` commands of a core name. -/
def coreAttnPages (a : CoreArch) : List Nat :=
  (vget a.q 2).cmds.flatMap (fun c => if c.op = .sattn then (sattnPages c.block).map (fun e => e.1.toNat) else [])

/-- A page that a `sattn` named at issue, not yet complete, still holds (R246, R265). -/
def pagePinned (s : State) (no page : Nat) : Bool :=
  s.cores.any (fun e =>
    match e.2.gang with
    | some ctx => decide (poolNo s ctx = no) && (coreAttnPages e.2.arch).contains page
    | none => false) ||
  s.hub.gangs.any (fun g =>
    decide (poolNo s g.1 = no) && match g.2.image with
      | some m => m.cores.any (fun e => (coreAttnPages e.2.arch).contains page)
      | none => false)

def pageFree (v : KvEnv) (s : State) (page : Nat) : Bool := decide (pageRefs v s page = 0) && !pagePinned s v.no page

/-- Reads the heads of pages' metadata records; the flag says that a line failed (R278). -/
def readHeads (v : KvEnv) : List Nat → EngRun → Bool × EngRun
  | [], x => (false, x)
  | page :: rest, x =>
    let (_, b, x1) := engFarRead x (v.pool.metaLoc x.st v.no page 0) 16
    let (b2, x2) := readHeads v rest x1
    (b || b2, x2)

/-- Writes the whole first line of a metadata record with FILL, ATTR and CRC, and REFS 0 (R260). -/
def putHead (v : KvEnv) (page fill crc : Nat) (x : EngRun) : EngRun :=
  engFarWrite x (v.pool.metaLoc x.st v.no page 0)
    (leBytes fill 4 ++ leBytes (freshAttr v) 4 ++ leBytes crc 4 ++ List.replicate 52 0#8)

/-- Makes a page read as a free page does (R260). -/
def clearPage (v : KvEnv) (page : Nat) (x : EngRun) : EngRun := putHead v page 0 0 x

/-- Drops one reference to a page; at 0 it is free, at once or when the last `sattn` that named it completes (R265). -/
def dropRef (v : KvEnv) (x : EngRun) (page : Nat) : EngRun :=
  let r := pageRefs v x.st page - 1
  let x1 := metaPut v page 12 4 r x
  if r = 0 ∧ ¬ pagePinned x1.st v.no page then clearPage v page x1 else x1

/-- Adds one reference. -/
def addRef (v : KvEnv) (x : EngRun) (page : Nat) : EngRun := metaPut v page 12 4 (pageRefs v x.st page + 1) x

/-- Whether a page's references cannot rise by `n` (R265). -/
def refFull (v : KvEnv) (s : State) (page n : Nat) : Bool := decide (0xFFFFFFFF < pageRefs v s page + n)

/-- The lowest free block of order `k` in a group (R264). -/
def findBlock (v : KvEnv) (s : State) (k g : Nat) : Option Nat :=
  (range' 0 (4096 / 2 ^ k)).findSome? (fun i =>
    let n := 4096 * g + i * 2 ^ k
    if (range' n (2 ^ k)).all (pageFree v s) then some n else none)

/-- An allocation of order `k`, the preferred group first (R264). -/
def alloc (v : KvEnv) (s : State) (k g : Nat) : Option Nat :=
  (g :: range' 0 v.pool.groups).findSome? (findBlock v s k)

/-! Slots (R259, R261). -/

/-- The bytes that a slot adds to the CRC string: key, value and, unless BF16, the two scales. -/
structure Slot where
  key : List Byte
  val : List Byte
  ks : List Byte
  vs : List Byte
  deriving DecidableEq, Repr

def Slot.crcBytes (v : KvEnv) (x : Slot) : List Byte := x.key ++ x.val ++ (if v.pool.fmt = 2 then [] else x.ks ++ x.vs)

/-- Reads a slot; the flag says that a line failed. -/
def readSlot (v : KvEnv) (page slot : Nat) (x : EngRun) : Slot × Bool × EngRun :=
  let (k, b1, x1) := engFarRead x (v.pool.keyLoc x.st v.no page slot) v.pool.slotBytes
  let (w, b2, x2) := engFarRead x1 (v.pool.valLoc x1.st v.no page slot) v.pool.slotBytes
  let (ks, b3, x3) := engFarRead x2 (v.pool.metaLoc x2.st v.no page (0x100 + 2 * slot)) 2
  let (vs, b4, x4) := engFarRead x3 (v.pool.metaLoc x3.st v.no page (0x180 + 2 * slot)) 2
  ({ key := k, val := w, ks := ks, vs := vs }, b1 || b2 || b3 || b4, x4)

/-- Writes a slot; the scales of a BF16 page stay zero. -/
def writeSlot (v : KvEnv) (page slot : Nat) (y : Slot) (x : EngRun) : EngRun :=
  let x1 := engFarWrite x (v.pool.keyLoc x.st v.no page slot) y.key
  let x2 := engFarWrite x1 (v.pool.valLoc x1.st v.no page slot) y.val
  if v.pool.fmt = 2 then x2
  else
    let x3 := engFarWrite x2 (v.pool.metaLoc x2.st v.no page (0x100 + 2 * slot)) y.ks
    engFarWrite x3 (v.pool.metaLoc x3.st v.no page (0x180 + 2 * slot)) y.vs

/-- Writes slots into a page from number `n`. -/
def writeSlots (v : KvEnv) (page : Nat) : Nat → List Slot → EngRun → EngRun
  | _, [], x => x
  | n, y :: rest, x => writeSlots v page (n + 1) rest (writeSlot v page n y x)

/-- A CRC extended by slots (R261). -/
def crcSlots (v : KvEnv) (crc : Nat) (l : List Slot) : Nat := l.foldl (fun c y => crcExtend c (y.crcBytes v)) crc

/-- The head of a page that slots have been added to: a newly allocated page holds just them; another has its FILL raised and its CRC
extended (R261, R264, R266). -/
def headWith (v : KvEnv) (fresh : Bool) (page : Nat) (l : List Slot) (x : EngRun) : EngRun :=
  if fresh then putHead v page l.length (crcSlots v 0 l) x
  else
    let x1 := metaPut v page 8 4 (crcSlots v (pageCrc v x.st page) l) x
    metaPut v page 0 4 (pageFill v x1.st page + l.length) x1

/-- The references that a newly allocated page holds: 1 (R264). -/
def claimRef (v : KvEnv) (x : EngRun) (page : Nat) : EngRun := metaPut v page 12 4 1 x

/-- Reads slots given by page and slot, in order; the flag says that a line failed. -/
def readSlotList (v : KvEnv) : List (Nat × Nat) → EngRun → List Slot × Bool × EngRun
  | [], x => ([], false, x)
  | (page, slot) :: rest, x =>
    let (y, b, x1) := readSlot v page slot x
    let (ys, b2, x2) := readSlotList v rest x1
    (y :: ys, b || b2, x2)

/-! Stream records (R262, R263). -/

structure Stream where
  next : Nat
  length : Nat
  exts : List Extent
  deriving DecidableEq, Repr

def parseStream (bs : List Byte) : Stream :=
  let n := leNat (bs.take 4)
  { next := n, length := leNat ((bs.drop 4).take 4),
    exts := (range' 0 (min n 16)).map (fun e => extentOf (leNat ((bs.drop (0x40 + 8 * e)).take 8))) }

def Extent.word (e : Extent) : Nat := e.base % 2 ^ 32 + 2 ^ 32 * (e.len % 2 ^ 16) + 2 ^ 48 * intMod e.stride 16

/-- A record's 192 bytes. -/
def streamBytes (r : Stream) : List Byte :=
  leBytes r.exts.length 4 ++ leBytes r.length 4 ++ List.replicate 56 0#8 ++
    r.exts.flatMap (fun e => leBytes e.word 8) ++ List.replicate (128 - 8 * r.exts.length) 0#8

/-- The pages an extent names, in order. -/
def Extent.pages (e : Extent) : List Int := (range' 0 (ceilDiv e.len 64)).map e.page

def pageIn (p : Pool) (n : Int) : Bool := decide (0 ≤ n ∧ n < (p.pages : Int))

/-- A malformed record (R263). -/
def streamBad (p : Pool) (r : Stream) : Bool :=
  decide (16 < r.next) || r.exts.any (fun e => decide (e.len = 0)) || decide (r.length ≠ extentsLen r.exts) ||
    r.exts.any (fun e => e.pages.any (fun n => !pageIn p n))

/-- Every page a record names, once: the record is one holder of it (R265). -/
def streamPages (r : Stream) : List Nat := (r.exts.flatMap (fun e => e.pages.map Int.toNat)).eraseDups

/-- The page and slot of a position. -/
def positionOf : Nat → List Extent → Nat → Option (Int × Nat)
  | _, [], _ => none
  | p, e :: rest, pos => if pos < p + e.len then some (e.page ((pos - p) / 64), (pos - p) % 64) else positionOf (p + e.len) rest pos

/-- Replaces the last extent. -/
def setLast (l : List Extent) (e : Extent) : List Extent := l.dropLast ++ [e]

/-- The place of a stream record, from its far address. -/
def recLoc (c : EngCmd) (w : Nat) (off : Nat) : Loc :=
  match engAddr (BitVec.ofNat 64 w) with
  | some (.far k o) => handleLoc (cmdHandle c k) (o + off)
  | _ => { peer := none, pa := 0 }

/-! `kvapp` (R271, R272). -/

/-- The fields of a `kvapp` block. -/
structure KvApp where
  pos : Nat
  nstr : Nat
  kaddr : Nat
  vaddr : Nat
  stride : Nat
  saddr : Nat
  recs : List Nat
  deriving DecidableEq, Repr

def kvAppOf (b : List (Byte × Bool)) : KvApp :=
  { pos := fieldOf b 0 4, nstr := fieldOf b 4 4, kaddr := fieldOf b 8 4, vaddr := fieldOf b 0xC 4, stride := fieldOf b 0x10 4,
    saddr := fieldOf b 0x14 4, recs := (range' 0 (min 8 (fieldOf b 4 4))).map (fun i => fieldOf b (0x40 + 8 * i) 8) }

/-- The near spans of stream `i`: key, value, scales. -/
def KvApp.spans (p : Pool) (v : KvApp) (i : Nat) : List (Nat × Nat) :=
  [(v.kaddr + i * v.stride, p.slotBytes), (v.vaddr + i * v.stride, p.slotBytes)] ++
    (if p.fmt = 2 then [] else [(v.saddr + 4 * i, 4)])

/-- The handle of a far word, if it has the far form with its reserved bits zero. -/
def farWord (w : Nat) : Option (Fin 16 × Nat) :=
  match engAddr (BitVec.ofNat 64 w) with
  | some (.far k o) => some (k, o)
  | _ => none

/-- The checks of items 2 to 6 on far words, each with the bytes it spans and its alignment. -/
def chkFarForm (l : List Nat) : Chk := chk (l.any (fun w => (farWord w).isNone)) cOperand
def chkFarAlign (l : List Nat) (n : Nat) : Chk :=
  chk (l.any (fun w => match farWord w with | some (_, o) => decide (o % n ≠ 0) | none => false)) cAlign
def chkFarBound (l : List Nat) (n : Nat) : Chk :=
  chk (l.any (fun w => match farWord w with | some (_, o) => decide (2097152 < o + n) | none => false)) cHandleBound
def chkFarHandle (s : State) (l : List Nat) : Chk :=
  firstChk (l.map (fun w => match farWord w with | some (k, _) => chkHandle s k | none => none))
def chkFarWrite (s : State) (l : List Nat) : Chk :=
  chk (l.any (fun w => match farWord w with | some (k, _) => !(fetchHandle s k).h.wr | none => false)) cWriteProtect

/-- A command that takes further handles, named in its block. -/
def addHandles (s : State) (c : EngCmd) (l : List Nat) : EngCmd :=
  let ks := l.filterMap (fun w => (farWord w).map (·.1))
  { c with handles := c.handles ++ takeHandles s ks, e := c.e ||| handlesTaint s ks }

/-- Reads a list of near spans at issue, one after the other. -/
def readSpans (e : TSet) (f : List (Byte × Bool) → State → EngIssue) : List (Nat × Nat) → List (Byte × Bool) → State → EngIssue
  | [], acc, s => f acc s
  | (a, n) :: rest, acc, s => withRead s e a n (fun l s1 => readSpans e f rest (acc ++ l) s1)

/-- The pool and translation of the running core's gang; none is the illegal-operand fault (R270). -/
def ctxEnv (s : State) (ctx : Nat) : Option KvEnv := (poolOf s ctx).map (fun p => { no := poolNo s ctx, pool := p })

/-- The environment of a core: that of its gang's block. -/
def kvEnv (s : State) (core : Nat) : Option KvEnv := ctxEnv s (((getCore s core).gang).getD 0)

/-- The issue of a `kvapp`. -/
def issueKvapp (s : State) (c : EngCmd) : EngIssue :=
  match kvEnv s s.cur with
  | none => .bad (cOperand, 0)
  | some v =>
    stackIssue s c 128 none none (fun c s =>
      let b := kvAppOf c.block
      let spans := (range' 0 b.recs.length).flatMap (b.spans v.pool)
      checked (firstChk
        [chk (decide (1048576 < b.pos ∨ b.nstr < 1 ∨ 8 < b.nstr)) cOperand, chkFarForm b.recs,
         chk (decide (b.kaddr % 32 ≠ 0 ∨ b.vaddr % 32 ≠ 0 ∨ b.stride % 32 ≠ 0 ∨ (v.pool.fmt ≠ 2 ∧ b.saddr % 4 ≠ 0))) cAlign,
         chkFarAlign b.recs 64,
         firstChk (spans.map (fun e => chkNear s (quadOf s.cur) e.1 e.2)), chkFarBound b.recs 192,
         chkFarHandle s b.recs, chkFarWrite s b.recs])
        (readSpans (addHandles s c b.recs).e (fun l s => .ok (addHandles s { c with data := l } b.recs) s) spans [] s))

/-- The slot that stream `i` appends, from the data read at issue, with its poison. -/
def kvSlot (p : Pool) (c : EngCmd) (i : Nat) : Slot × Bool :=
  let per := 2 * p.slotBytes + (if p.fmt = 2 then 0 else 4)
  let d := (c.data.drop (i * per)).take per
  let b := d.map (·.1)
  ({ key := b.take p.slotBytes, val := (b.drop p.slotBytes).take p.slotBytes, ks := (b.drop (2 * p.slotBytes)).take 2,
     vs := (b.drop (2 * p.slotBytes + 2)).take 2 }, badIn d)

/-- Where an append goes: a stop, or the target page, whether it is newly allocated, the slots copied into it first and the page that
loses a reference by that, and the record's extents. -/
inductive Place where
  | stop (st : EngEnd) (x : EngRun)
  | at_ (page : Nat) (fresh : Bool) (copied : List Slot) (left : List Nat) (exts : List Extent) (x : EngRun)

/-- The target page of an append in a whole number of pages (R272). -/
def newPage (v : KvEnv) (i : Nat) (r : Stream) (x : EngRun) : Place :=
  let last := r.exts.getLast?
  let follow : Option Nat := match last with
    | none => none
    | some e =>
      let f := e.page (e.len / 64)
      if pageIn v.pool f && decide (f.toNat / 4096 = (e.page ((e.len - 1) / 64)).toNat / 4096) && decide (e.len < 65535) &&
          pageFree v x.st f.toNat then some f.toNat else none
  match follow with
  | some f => .at_ f true [] [] r.exts x
  | none =>
    if r.next = 16 then .stop (35, i) x
    else
      let g := match last with | none => 0 | some e => (e.page ((e.len - 1) / 64)).toNat / 4096
      match alloc v x.st 0 g with
      | none => .stop (34, i) x
      | some n => .at_ n true [] [] (r.exts ++ [{ base := n, len := 0, stride := 1 }]) x

/-- The target page of an append into a page that holds `s` slots of the stream: in place, or a copy (R272). -/
def partPage (v : KvEnv) (i : Nat) (r : Stream) (e : Extent) (s : Nat) (x0 : EngRun) : Place :=
  let p := (e.page ((e.len - 1) / 64)).toNat
  let (failed, x) := readHeads v [p] x0
  if failed then .stop (1, i) x
  else if pageDamaged v x.st p then .stop (33, p) x
  else if pageFill v x.st p < s then .stop (41, i) x
  else if pageRefs v x.st p = 1 ∧ pageFill v x.st p = s then .at_ p false [] [] r.exts x
  else if e.len ≠ s ∧ r.next = 16 then .stop (35, i) x
  else
    match alloc v x.st 0 (p / 4096) with
    | none => .stop (34, i) x
    | some t =>
      let (ys, bad, x1) := readSlotList v ((range' 0 s).map (fun k => (p, k))) x
      if bad then .stop (1, i) x1
      else
        .at_ t true ys [p]
          (if e.len = s then setLast r.exts { e with base := t }
           else setLast r.exts { e with len := e.len - s } ++ [{ base := t, len := s, stride := 1 }]) x1

/-- The writes of an append, in the order of R266: slots, the page's head, references, and the record at `l`. DESIGN CHOICE (log entry 100): LEN
65,536 of an extent that was appended to in place is stored in its 16 bits as 0. -/
def appendWrites (v : KvEnv) (l : Loc) (pos : Nat) (slot : Slot) (t : Nat) (fresh : Bool) (copied : List Slot) (left : List Nat)
    (exts : List Extent) (x : EngRun) : EngRun :=
  let new := copied ++ [slot]
  let x1 := headWith v fresh t new (writeSlots v t (if fresh then 0 else pageFill v x.st t) new x)
  let x2 := left.foldl (dropRef v) (if fresh then claimRef v x1 t else x1)
  let last := (exts.getLast?).getD { base := t, len := 0, stride := 1 }
  let exts2 := setLast exts { last with len := last.len + 1 }
  engFarWrite x2 l (streamBytes { next := exts2.length, length := pos + 1, exts := exts2 })

/-- One element of a `kvapp` (R272). -/
def kvappElem (v : KvEnv) (c : EngCmd) (b : KvApp) (i : Nat) (x : EngRun) : Option EngEnd × EngRun :=
  let l := recLoc c (nthD b.recs i 0) 0
  let (bs, bad, x1) := engFarRead x l 192
  let r := parseStream bs
  let (slot, sbad) := kvSlot v.pool c i
  if bad then (some (1, i), x1)
  else if streamBad v.pool r then (some (41, i), x1)
  else if r.length = 1048576 ∨ b.pos = 1048576 then (some (35, i), x1)
  else if b.pos ≠ r.length then (some (32, i), x1)
  else if sbad then (some (1, i), x1)
  else
    let s := match r.exts.getLast? with | none => 0 | some e => e.len % 64
    let place := match r.exts.getLast? with
      | none => newPage v i r x1
      | some e => if s = 0 then newPage v i r x1 else partPage v i r e s x1
    match place with
    | .stop st x2 => (some st, x2)
    | .at_ t fresh copied left exts x2 => (none, appendWrites v l b.pos slot t fresh copied left exts x2)

/-- Runs the next element of a command of `n` elements: each is indivisible to every other Q4 element (R266). -/
def nextElem (c : EngCmd) (n : Nat) (e : EngEnd) (f : Nat → EngRun → Option EngEnd × EngRun) (x : EngRun) : CmdRun :=
  match f c.elem x with
  | (some st, x1) => .ended st x1
  | (none, x1) => afterElem c n [] e x1

/-- Runs the next stream of a `kvapp`. -/
def runKvapp (c : EngCmd) (x : EngRun) : CmdRun :=
  match kvEnv x.st x.core with
  | none => .ended (1, 0) x
  | some v =>
    let b := kvAppOf c.block
    if badIn c.block then .ended (1, 0) x else nextElem c b.recs.length (0, b.nstr) (kvappElem v c b) x

/-! `kvcomp` (R273). -/

def compRec (b : List (Byte × Bool)) : Nat := fieldOf b 0 8
def compScore (b : List (Byte × Bool)) : Nat := fieldOf b 8 8
def compKaddr (b : List (Byte × Bool)) : Nat := fieldOf b 0x10 4
def compNkeep (b : List (Byte × Bool)) : Nat := fieldOf b 0x14 4

/-- The issue of a `kvcomp`. -/
def issueKvcomp (s : State) (c : EngCmd) : EngIssue :=
  match kvEnv s s.cur with
  | none => .bad (cOperand, 0)
  | some _ =>
    stackIssue s c 64 none none (fun c s =>
      let b := c.block
      let score := c.word.getLsbD 16
      let tables := if score then [compScore b] else []
      checked (firstChk
        [chk (decide (compNkeep b < 1 ∨ 65535 < compNkeep b)) cOperand, chkFarForm (compRec b :: tables),
         chkFarAlign [compRec b] 64, chkFarAlign tables 4, chk (decide (compKaddr b % 4 ≠ 0)) cAlign,
         chkNear s (quadOf s.cur) (compKaddr b) (4 * compNkeep b), chkFarBound [compRec b] 192,
         chkFarBound tables (4 * compNkeep b), chkFarHandle s (compRec b :: tables), chkFarWrite s (compRec b :: tables)])
        (withRead s (addHandles s c (compRec b :: tables)).e (compKaddr b) (4 * compNkeep b) (fun l s =>
          .ok (addHandles s { c with data := l } (compRec b :: tables)) s)))

/-- The first entry of a keep list that is not above the one before, or not below LENGTH (R273). -/
def keepBad (len : Nat) : Nat → Option Nat → List Nat → Option Nat
  | _, _, [] => none
  | i, prev, k :: rest =>
    let rising := match prev with | none => true | some p => decide (p < k)
    if rising && decide (k < len) then keepBad len (i + 1) (some k) rest else some i

/-- Reads a list of 4-byte table entries. -/
def readEntries (l : Loc) : List Nat → EngRun → List (List Byte) × Bool × EngRun
  | [], x => ([], false, x)
  | i :: rest, x =>
    let (bs, bad, x1) := engFarRead x { l with pa := l.pa + 4 * i } 4
    let (more, bad2, x2) := readEntries l rest x1
    (bs :: more, bad || bad2, x2)

/-- Writes table entries from number `i`. -/
def writeEntries (l : Loc) : Nat → List (List Byte) → EngRun → EngRun
  | _, [], x => x
  | i, bs :: rest, x => writeEntries l (i + 1) rest (engFarWrite x { l with pa := l.pa + 4 * i } bs)

/-- The pages that the kept slots fill from `base`, 64 to a page, each with its slots. -/
def keptPages (base : Nat) (l : List Slot) : List (Nat × List Slot) :=
  (range' 0 (ceilDiv l.length 64)).map (fun i => (base + i, (l.drop (64 * i)).take 64))

/-- The writes of a compaction in the order of R266: slots, heads, the score table, references, the record at `l`. -/
def compWrites (v : KvEnv) (l table : Loc) (base : Nat) (kept : List Slot) (scores : List (List Byte)) (left : List Nat) (x : EngRun) :
    EngRun :=
  let pages := keptPages base kept
  let x1 := pages.foldl (fun x e => writeSlots v e.1 0 e.2 x) x
  let x2 := pages.foldl (fun x e => headWith v true e.1 e.2 x) x1
  let x3 := writeEntries table 0 scores x2
  let x4 := left.foldl (dropRef v) ((pages.map (·.1)).foldl (claimRef v) x3)
  engFarWrite x4 l (streamBytes { next := 1, length := kept.length, exts := [{ base := base, len := kept.length, stride := 1 }] })

/-- Runs a `kvcomp`. -/
def runKvcomp (c : EngCmd) (x : EngRun) : EngEnd × EngRun :=
  match kvEnv x.st x.core with
  | none => ((1, 0), x)
  | some v =>
    let b := c.block
    let n := compNkeep b
    let l := recLoc c (compRec b) 0
    let table := recLoc c (compScore b) 0
    let score := c.word.getLsbD 16
    let (bs, bad, x0) := engFarRead x l 192
    let r := parseStream bs
    let old := streamPages r
    let (failed, x1) := if bad || streamBad v.pool r then (false, x0) else readHeads v old x0
    let keep := (range' 0 n).map (fun i => fieldOf c.data (4 * i) 4)
    let places := keep.filterMap (positionOf 0 r.exts)
    let soff := match farWord (compScore b) with | some (_, o) => o | none => 0
    if bad || badIn b || badIn c.data then ((1, 0), x1)
    else if streamBad v.pool r then ((41, 0), x1)
    else
      match keepBad r.length 0 none keep with
      | some i => ((40, i), x1)
      | none =>
        match places.find? (fun e => pageDamaged v x1.st e.1.toNat) with
        | some e => ((33, e.1.toNat), x1)
        | none =>
          if failed then ((1, 0), x1)
          else if places.any (fun e => decide (pageFill v x1.st e.1.toNat ≤ e.2)) then ((41, 0), x1)
          else if score && decide (2097152 < soff + 4 * r.length) then ((2, max n ((2097152 - soff) / 4)), x1)
          else
            let np := ceilDiv n 64
            let g := match r.exts.head? with | some e => e.base / 4096 | none => 0
            match alloc v x1.st (ceilLog2 np) g with
            | none => ((34, 0), x1)
            | some base =>
              let (ys, bad2, x2) := readSlotList v (places.map (fun e => (e.1.toNat, e.2))) x1
              let (old3, bad3, x3) := if score then readEntries table keep x2 else ([], false, x2)
              if bad2 || bad3 then ((1, 0), x3)
              else
                let scores := if score then old3 ++ List.replicate (r.length - n) (List.replicate 4 0#8) else []
                ((0, n), compWrites v l table base ys scores old x3)

/-! The prefix index (R268, R269, R274). -/

def pxDomain (b : List (Byte × Bool)) : Nat := fieldOf b 0 4
/-- NTOK, NODE or COUNT. -/
def pxCount (b : List (Byte × Bool)) : Nat := fieldOf b 4 4
def pxTaddr (b : List (Byte × Bool)) : Nat := fieldOf b 8 4
def pxSarr (b : List (Byte × Bool)) : Nat := fieldOf b 0x10 8

def getDomain (s : State) (n : Nat) : Option Domain := (s.hub.domains.find? (fun e => e.1 = n)).map (·.2)

/-- A domain that the running core's task may name: of its world, over its pool (R268, R270). -/
def domainOk (s : State) (core n : Nat) : Bool :=
  match getDomain s n, gangOf s core with
  | some d, some g => decide (n < 4096 ∧ d.world = g.world ∧ d.pool = poolNo s g.ctx)
  | _, _ => false

/-- The issue of `pxlook` and `pxins`. -/
def issuePx (s : State) (c : EngCmd) : EngIssue :=
  match kvEnv s s.cur with
  | none => .bad (cOperand, 0)
  | some _ =>
    let early := chk ((nearOnly c.dst).isNone) cOperand
    stackIssue s c 64 early (chk (decide (c.dst.toNat % 4 ≠ 0)) cAlign) (fun c s =>
      let b := c.block
      let ns := ((getDomain s (pxDomain b)).map (·.ns)).getD 0
      checked (firstChk
        [chk (!domainOk s s.cur (pxDomain b) || decide (pxCount b < 1 ∨ 1048576 < pxCount b)) cOperand, chkFarForm [pxSarr b],
         chk (decide (pxTaddr b % 4 ≠ 0 ∨ c.dst.toNat % 4 ≠ 0)) cAlign, chkFarAlign [pxSarr b] 64,
         chkNear s (quadOf s.cur) (pxTaddr b) (4 * pxCount b), chkNear s (quadOf s.cur) c.dst.toNat 8,
         chkFarBound [pxSarr b] (192 * ns), chkFarHandle s [pxSarr b], chkFarWrite s [pxSarr b],
         chk (spanProtected s (quadOf s.cur) c.dst.toNat 8) cWriteProtect])
        (withRead s (addHandles s c [pxSarr b]).e (pxTaddr b) (4 * pxCount b) (fun l s => .ok (addHandles s { c with data := l } [pxSarr b]) s)))

/-- The issue of `pxrel`. -/
def issuePxrel (s : State) (c : EngCmd) : EngIssue :=
  match kvEnv s s.cur with
  | none => .bad (cOperand, 0)
  | some _ =>
    stackIssue s c 64 none none (fun c s =>
      let b := c.block
      let mode1 := c.word.getLsbD 16
      let arr := if mode1 then [] else [pxSarr b]
      let most := if mode1 then 1048575 else 4096
      checked (firstChk
        [chk (!domainOk s s.cur (pxDomain b) || decide (pxCount b < 1 ∨ most < pxCount b)) cOperand, chkFarForm arr,
         chkFarAlign arr 64, chkFarBound arr (192 * pxCount b), chkFarHandle s arr, chkFarWrite s arr])
        (.ok (addHandles s c arr) s))

/-- Token IDs read at issue. -/
def pxTokens (c : EngCmd) (n : Nat) : List Nat := (range' 0 n).map (fun i => fieldOf c.data (4 * i) 4)

/-- The length of the common prefix of two lists. -/
def commonLen : List Nat → List Nat → Nat
  | a :: as, b :: bs => if a = b then commonLen as bs + 1 else 0
  | _, _ => 0

/-- The path from a node along tokens, and the tokens matched (R275). -/
def pxWalk (nodes : List (Nat × PxNode)) (dom : Nat) : Nat → Nat → List Nat → List (Nat × PxNode) × Nat
  | 0, _, _ => ([], 0)
  | fuel + 1, parent, toks =>
    match nodes.find? (fun e => e.2.dom = dom && e.2.parent = parent && decide (0 < commonLen e.2.label toks)) with
    | none => ([], 0)
    | some (n, x) =>
      let m := commonLen x.label toks
      if m = x.label.length then
        let (path, more) := pxWalk nodes dom fuel n (toks.drop m)
        ((n, x) :: path, m + more)
      else ([(n, x)], m)

/-- Whether an extent goes on from another (R275). -/
def joins (l e : Extent) : Bool :=
  decide (l.len % 64 = 0 ∧ l.stride = e.stride ∧ l.page (l.len / 64) = (e.base : Int) ∧ l.len + e.len ≤ 65535)

def addExtent (l : List Extent) (e : Extent) : List Extent :=
  match l.getLast? with
  | some x => if joins x e then setLast l { x with len := x.len + e.len } else l ++ [e]
  | none => [e]

/-- The extents of stream `j` composed from a path for a match of `m` positions (R275). -/
def composeExts (j m : Nat) : List PxNode → List Extent → List Extent
  | [], acc => acc
  | n :: rest, acc =>
    let lo := n.start / 64 * 64
    let hi := match rest with | [] => m | _ => n.stop / 64 * 64
    let run := nthD n.runs j (0, 0)
    composeExts j m rest
      (if lo < hi then addExtent acc { base := run.1, len := hi - lo, stride := signExtNat run.2 16 } else acc)

/-- Whether every stream fits in 16 extents. -/
def pathFits (ns m : Nat) (path : List PxNode) : Bool :=
  (range' 0 ns).all (fun j => decide ((composeExts j m path []).length ≤ 16))

/-- The match and path after lowering M to the largest node END at which every stream fits (R275): first M itself, then the
path shortened node by node. -/
def lowerMatch (ns : Nat) : Nat → List (Nat × PxNode) → Nat → List (Nat × PxNode) × Nat
  | 0, _, _ => ([], 0)
  | fuel + 1, path, m =>
    if pathFits ns m (path.map (·.2)) then (path, m)
    else
      let at_ := path.filter (fun e => decide (e.2.stop < m))
      lowerMatch ns fuel at_ (match at_.getLast? with | some e => e.2.stop | none => 0)

/-- The records of a stream array: parsed, and the first that fails its check. -/
def readStreams (c : EngCmd) (w : Nat) : List Nat → EngRun → List Stream × Bool × EngRun
  | [], x => ([], false, x)
  | j :: rest, x =>
    let (bs, bad, x1) := engFarRead x (recLoc c w (192 * j)) 192
    let (more, bad2, x2) := readStreams c w rest x1
    (parseStream bs :: more, bad || bad2, x2)

/-- The first stream that a test fails. -/
def firstStream (f : Stream → Bool) (l : List Stream) : Option Nat := (l.zipIdx.find? (fun e => f e.1)).map (·.2)

/-- Writes stream records from index 0. -/
def writeStreams (c : EngCmd) (w : Nat) : Nat → List Stream → EngRun → EngRun
  | _, [], x => x
  | j, r :: rest, x => writeStreams c w (j + 1) rest (engFarWrite x (recLoc c w (192 * j)) (streamBytes r))

/-- Whether adding one reference for each entry of a list of pages passes the limit. -/
def refsFull (v : KvEnv) (s : State) (l : List Nat) : Bool := l.any (fun n => refFull v s n (l.count n))

/-- The result of `pxlook` and `pxins` at e.dst. -/
def pxResult (x : EngRun) (c : EngCmd) (a b : Nat) : EngRun := engNearWrite x (quadOf x.core) c.dst.toNat (leBytes a 4 ++ leBytes b 4)

/-- The number of the last node of a path, 0 for the root. -/
def pathNode (path : List (Nat × PxNode)) : Nat := match path.getLast? with | some e => e.1 | none => 0

/-- Runs a `pxlook` (R275). -/
def runPxlook (c : EngCmd) (x : EngRun) : EngEnd × EngRun :=
  match kvEnv x.st x.core with
  | none => ((1, 0), x)
  | some v =>
    let b := c.block
    let ns := ((getDomain x.st (pxDomain b)).map (·.ns)).getD 0
    let toks := pxTokens c (pxCount b)
    let (rs, bad, x1) := readStreams c (pxSarr b) (range' 0 ns) x
    if bad || badIn b || badIn c.data then ((1, 0), x1)
    else
      match firstStream (streamBad v.pool) rs with
      | some j => ((41, j), x1)
      | none =>
        match firstStream (fun r => decide (r.next ≠ 0)) rs with
        | some j => ((36, j), x1)
        | none =>
          let (p0, m0) := pxWalk x1.st.hub.nodes (pxDomain b) toks.length 0 toks
          let (path, m) := lowerMatch ns (p0.length + 2) p0 m0
          let new := (range' 0 ns).map (fun j =>
            let es := composeExts j m (path.map (·.2)) []
            ({ next := es.length, length := m, exts := es } : Stream))
          let pages := new.flatMap streamPages
          let (failed, x2) := readHeads v pages.eraseDups x1
          if failed then ((1, 0), x2)
          else if refsFull v x2.st pages then ((38, 0), x2)
          else
            let x3 := writeStreams c (pxSarr b) 0 new (pages.foldl (addRef v) x2)
            ((0, m), pxResult x3 c m (if m = 0 then 0 else pathNode path))

/-- The run that a stream gives a new leaf from position `lo`, a multiple of 64, to `hi - 1`: BASE, STRIDE and its pages; none
when the positions do not lie in one aligned extent and one group (R276). -/
def leafRun : Nat → List Extent → Nat → Nat → Option (Nat × Nat × List Nat)
  | _, [], _, _ => none
  | p, e :: rest, lo, hi =>
    if p ≤ lo ∧ lo < p + e.len then
      let first := (lo - p) / 64
      let pages := (range' first (ceilDiv (hi - lo) 64)).map e.page
      let grp := (e.page first).toNat / 4096
      if p % 64 = 0 ∧ hi ≤ p + e.len ∧ pages.all (fun n => decide (n.toNat / 4096 = grp)) then
        some ((e.page first).toNat, intMod e.stride 16, pages.map Int.toNat)
      else none
    else leafRun (p + e.len) rest lo hi

/-- The page `i` of a node's run. -/
def runPage (run : Nat × Nat) (i : Nat) : Nat := ((run.1 : Int) + (i : Int) * signExtNat run.2 16).toNat

/-- The pages of one run of a node. -/
def nodePages (n : PxNode) (run : Nat × Nat) : List Nat :=
  (range' 0 (ceilDiv (n.stop - n.start / 64 * 64) 64)).map (runPage run)

/-- The pages of every run of a node, each once: the node is one holder of it (R265). -/
def nodeHolds (n : PxNode) : List Nat := (n.runs.flatMap (nodePages n)).eraseDups

/-- The lowest free node number. -/
def freeNode (nodes : List (Nat × PxNode)) : Nat :=
  (range' 1 (nodes.length + 1)).foldl (fun acc n => if nodes.any (fun e => e.1 = n) then acc else if acc = 0 then n else acc) 0

/-- A node split at `m`: the upper part, and the lower part under the parent's number (R276). -/
def splitUpper (n : PxNode) (m : Nat) : PxNode := { n with stop := m, label := n.label.take (m - n.start) }
def splitLower (no : Nat) (n : PxNode) (m : Nat) : PxNode :=
  { n with parent := no, start := m, label := n.label.drop (m - n.start),
           runs := n.runs.map (fun r => (runPage r (m / 64 - n.start / 64), r.2)) }

/-- Sets the node store. -/
def setNodes (x : EngRun) (l : List (Nat × PxNode)) : EngRun := { x with st := { x.st with hub := { x.st.hub with nodes := l } } }

/-- The leaf runs of every stream, or the first stream that has none. -/
def leafRuns (lo hi : Nat) (rs : List Stream) : Sum Nat (List (Nat × Nat × List Nat)) :=
  match firstStream (fun r => (leafRun 0 r.exts lo hi).isNone) rs with
  | some j => .inl j
  | none => .inr (rs.filterMap (fun r => leafRun 0 r.exts lo hi))

/-- The last page of each run holds too few slots (R278). -/
def runShort (v : KvEnv) (s : State) (lo hi : Nat) (r : Nat × Nat × List Nat) : Bool :=
  r.2.2.zipIdx.any (fun e => decide (pageFill v s e.1 < min 64 (hi - lo - 64 * e.2)))

/-- Runs a `pxins` (R276). -/
def runPxins (c : EngCmd) (x : EngRun) : EngEnd × EngRun :=
  match kvEnv x.st x.core with
  | none => ((1, 0), x)
  | some v =>
    let b := c.block
    let dom := pxDomain b
    let ntok := pxCount b
    let ns := ((getDomain x.st dom).map (·.ns)).getD 0
    let quota := ((getDomain x.st dom).map (·.quota)).getD 0
    let toks := pxTokens c ntok
    let nodes := x.st.hub.nodes
    let (rs, bad, x1) := readStreams c (pxSarr b) (range' 0 ns) x
    if bad || badIn b || badIn c.data then ((1, 0), x1)
    else
      match firstStream (streamBad v.pool) rs with
      | some j => ((41, j), x1)
      | none =>
        match firstStream (fun r => decide (r.length < ntok)) rs with
        | some j => ((36, j), x1)
        | none =>
          let (path, m) := pxWalk nodes dom toks.length 0 toks
          if m = ntok then ((0, 0), pxResult x1 c 0 (pathNode path))
          else
            let lo := m / 64 * 64
            match leafRuns lo ntok rs with
            | .inl j => ((37, j), x1)
            | .inr runs =>
              let inside := match path.getLast? with | some e => decide (m < e.2.stop) | none => false
              let shared : List Nat := match path.getLast? with
                | some e =>
                  if inside then (nodeHolds (splitUpper e.2 m)).filter (fun n => (nodeHolds (splitLower 0 e.2 m)).contains n) else []
                | none => []
              let fresh := (runs.flatMap (·.2.2)).eraseDups
              let pages := shared ++ fresh
              let (failed, x2) := readHeads v pages.eraseDups x1
              match fresh.find? (pageDamaged v x2.st) with
              | some pg => ((33, pg), x2)
              | none =>
                match (runs.zipIdx.find? (fun e => runShort v x2.st lo ntok e.1)).map (·.2) with
                | some j => ((41, j), x2)
                | none =>
                  let more := if inside then 2 else 1
                  let held := (nodes.filter (fun e => e.2.dom = dom)).length
                  if failed then ((1, 0), x2)
                  else if quota < held + more ∨ 1048575 < nodes.length + more then ((38, 0), x2)
                  else if refsFull v x2.st pages then ((38, 0), x2)
                  else
                    let n1 := match path.getLast? with
                      | some (no, e) =>
                        if inside then
                          let low := freeNode nodes
                          let moved := nodes.map (fun k => if k.2.dom = dom && k.2.parent = no then (k.1, { k.2 with parent := low }) else k)
                          alPut (alPut moved no (splitUpper e m)) low (splitLower no e m)
                        else nodes
                      | none => nodes
                    let leaf := freeNode n1
                    let node : PxNode :=
                      { dom := dom, parent := pathNode path, start := m, stop := ntok, label := toks.drop m,
                        runs := runs.map (fun r => (r.1, r.2.1)) }
                    let x3 := setNodes (pages.foldl (addRef v) x2) (alPut n1 leaf node)
                    ((0, ntok - m), pxResult x3 c (ntok - m) leaf)

/-- One stream record of a `pxrel` in MODE 0 (R277). -/
def pxrelElem (v : KvEnv) (c : EngCmd) (i : Nat) (x : EngRun) : Option EngEnd × EngRun :=
  let l := recLoc c (pxSarr c.block) (192 * i)
  let (bs, bad, x1) := engFarRead x l 192
  let r := parseStream bs
  if bad then (some (1, 0), x1)
  else if streamBad v.pool r then (some (41, i), x1)
  else
    let (failed, x2) := readHeads v (streamPages r) x1
    if failed then (some (1, 0), x2)
    else (none, engFarWrite ((streamPages r).foldl (dropRef v) x2) l (streamBytes { next := 0, length := 0, exts := [] }))

/-- The removal of a leaf by a `pxrel` (R277). -/
def removeLeaf (v : KvEnv) (no : Nat) (node : PxNode) (x : EngRun) : EngEnd × EngRun :=
  let (failed, x1) := readHeads v (nodeHolds node) x
  if failed then ((1, 0), x1)
  else let x2 := (nodeHolds node).foldl (dropRef v) x1; ((0, 1), setNodes x2 (alDel x2.st.hub.nodes no))

/-- Runs a `pxrel` (R277): in MODE 0 the next record, in MODE 1 its one element. -/
def runPxrel (c : EngCmd) (x : EngRun) : CmdRun :=
  match kvEnv x.st x.core with
  | none => .ended (1, 0) x
  | some v =>
    let b := c.block
    let n := pxCount b
    let nodes := x.st.hub.nodes
    if badIn b then .ended (1, 0) x
    else if c.word.getLsbD 16 then
      match nodes.find? (fun e => e.1 = n && e.2.dom = pxDomain b) with
      | some (_, node) =>
        if nodes.any (fun e => e.2.dom = pxDomain b && e.2.parent = n) then .ended (39, n) x
        else let (e, x1) := removeLeaf v n node x; .ended e x1
      | none => .ended (39, n) x
    else nextElem c n (0, n) (pxrelElem v c) x

/-! Pages held by `sattn` commands that have gone (R246, R265). -/

/-- Pages of a command of a block's gang that hold no reference any more and are no longer named become free. -/
def settlePages (s : State) (ctx core : Nat) (b : List (Byte × Bool)) : State :=
  match ctxEnv s ctx with
  | none => s
  | some v =>
    let x := EngRun.start s core 0 []
    let y := ((sattnPages b).map (fun e => e.1.toNat)).eraseDups.foldl (fun x n =>
      if pageFree v x.st n ∧ (pageFill v x.st n ≠ 0 ∨ pageAttr v x.st n ≠ freshAttr v ∨ pageCrc v x.st n ≠ 0) then clearPage v n x
      else x) x
    if y.held then s else y.st

end Sys2Proof.Machine
end

