-- ==== Sys2Proof/Machine/Waits.lean ====
section
/-! DEFINITION. Waits: when the condition of a wait holds and what its end does (R31, R43, R104, R170, R179). -/

namespace Sys2Proof.Machine

/-- Whether every far load, store and atomic of a core has performed at its home (R179). -/
def farDone (o : Order) : Bool :=
  o.far.all (fun f => decide (f.kind = .prefetch) || f.parts.all (fun p => p.done.isSome)) && o.released.isEmpty

/-- Whether a fence has passed in every queue (R173). -/
def fencePassed (a : CoreArch) (n : Nat) : Bool :=
  (List.finRange 5).all (fun i => (vget a.q i).cmds.all (fun c =>
    match c.op with
    | .fence m _ => decide (m ≠ n)
    | _ => true))

/-- Whether the condition of a core's wait holds. -/
def waitHolds (s : State) (c : Nat) : Wait → Bool
  | .release x phase => phaseReleased s x phase
  | .blocked x phase _ => counterFree s (getChan s x) phase
  | .drain => farDone (getCore s c).arch.order
  | .wfe mask => decide ((getCore s c).arch.order.events &&& mask ≠ 0)
  | .command q n => decide (n < (vget (getCore s c).arch.q q).completed)
  | .fence n => fencePassed (getCore s c).arch n
  | .both a b => waitHolds s c a && waitHolds s c b

/-- The completion word of an awaited command; STATUS 255 when it is no longer retained (R170). -/
def keptWord (q : EngQueue) (n : Nat) : Word :=
  match q.kept.find? (fun e => e.1 = n) with
  | some (_, w) => w
  | none => 255

/-- A result of the running core due in its next cycle, the first after a wait. -/
def afterWait (s : State) (port : PortId) (w : Word) : State := deliver s port 1 false (wordToVec w |> cleanV)

/-- What the end of a wait does; an arrival that was blocked is counted and, for `bar.sync`, its release is awaited next. DESIGN
CHOICE (log entry 79): at pod scope `bar.r` holds the group's phase, the gang's own phase counted from the group phase at which it
began (R40, R42, R43). -/
def endWait (s : State) : Wait → Option Wait × State
  | .release x phase => (none, afterWait s .barR (BitVec.ofNat 64 ((getChan s x).base + phase)))
  | .blocked x phase sync =>
    (if sync then some (.release x phase) else none, countArrival (noteObserved s x s.cur) x s.cur)
  | .wfe mask => (none, modOrder s (fun o => { o with events := o.events &&& ~~~mask }))
  | .command q n => (none, afterWait s .engR (keptWord (vget (arch s).q q) n))
  | .fence _ => (none, afterWait s .engR 0)
  | _ => (none, s)

/-- A wait of one unit, ended if its condition holds; what is still waited for. -/
def stepWait (s : State) (w : Wait) : Option Wait × State :=
  if waitHolds s s.cur w then
    match endWait s w with
    | (some v, s1) => if waitHolds s1 s1.cur v then endWait s1 v else (some v, s1)
    | r => r
  else (some w, s)

/-- The waits of a bundle, each ended if its condition holds. -/
def stepWaits (s : State) : Wait → Option Wait × State
  | .both a b =>
    let (x, s1) := stepWaits s a
    let (y, s2) := stepWaits s1 b
    (match x, y with
      | some v, some w => some (.both v w)
      | some v, none => some v
      | none, r => r, s2)
  | w => stepWait s w

/-- Ends the running core's wait as far as its conditions hold; a `bar.sync` may go on to the wait for its release. -/
def tryEndWait (s : State) : State :=
  match (arch s).seq.wait with
  | none => s
  | some w =>
    let (r, s1) := stepWaits s w
    modSeq s1 (fun q => { q with wait := r })

end Sys2Proof.Machine
end

