-- ==== Sys2Proof/Machine/Engines.lean ====
section
/-! DEFINITION. The engine triggers: issue, queues, tickets, fences, waits and polls; the commands of Q0, Q1 and Q3; starting and
completing a command (R157 to R174, R225, R231, R235, R246, R296, R307, R344). -/

namespace Sys2Proof.Machine

/-! Copies (R161, R163, R164). -/

/-- A dimension of a nest block: COUNT, SSTRIDE, DSTRIDE. -/
abbrev NestDim := Nat × Int × Int

def nestUsed (c : EngCmd) : Bool := c.nest.getLsbD 22

/-- The dimensions of a nest block that has been read, innermost first. -/
def nestDims (c : EngCmd) : List NestDim :=
  if nestUsed c then
    (range' 0 (min 3 (fieldOf c.block 0 4))).map (fun d =>
      (fieldOf c.block (8 + 16 * d) 4, signExtNat (fieldOf c.block (0x10 + 16 * d) 4) 32, signExtNat (fieldOf c.block (0x14 + 16 * d) 4) 32))
  else []

/-- The number of runs. -/
def nestCount : List NestDim → Nat
  | [] => 1
  | (n, _, _) :: outer => n * nestCount outer

/-- The offsets of run number `i`, the innermost dimension moving fastest (R161). -/
def nestRun : List NestDim → Nat → Int × Int
  | [], _ => (0, 0)
  | (n, ss, ds) :: outer, i =>
    let o := nestRun outer (i / n)
    (o.1 + ((i % n : Nat) : Int) * ss, o.2 + ((i % n : Nat) : Int) * ds)

/-- The offsets of the runs in element order. -/
def nestRuns (l : List NestDim) : List (Int × Int) := (range' 0 (nestCount l)).map (nestRun l)

/-- The least and the greatest offset of runs. -/
def runSpan (l : List Int) : Int × Int := l.foldl (fun x o => (min x.1 o, max x.2 o)) (0, 0)

/-- The quads that the mask of a `copy.mc` names. -/
def mcQuads (core : Nat) (c : EngCmd) : List Nat :=
  ((range' 0 48).filter (fun q => c.aux.getLsbD q)).map (fun q => dieOf core * 48 + q)

/-- Whether a mask names some quad and only quads of the gang (R164). -/
def mcOk (s : State) (core : Nat) (c : EngCmd) : Bool :=
  let l := mcQuads core c
  !l.isEmpty && l.all (fun q => match gangOf s core with | some g => g.quads.contains q | none => decide (q = quadOf core))

/-- Where the bounding range of an address lies, for item 7 of R160: near addresses of one quad, far addresses by place. -/
def spansMeet (c : EngCmd) (a b : EngAddr) (sa sb : Int × Int) (n : Nat) : Bool :=
  let hit (x y : Int) : Bool := decide (x + sa.1 < y + sb.2 + (n : Int) ∧ y + sb.1 < x + sa.2 + (n : Int))
  match a, b with
  | .near x, .near y => hit x y
  | .far k x, .far j y =>
    let l := handleLoc (cmdHandle c k) x
    let m := handleLoc (cmdHandle c j) y
    decide (l.peer = m.peer) && hit l.pa m.pa
  | _, _ => false

/-- The checks of a copy whose nest block has been read (R160). -/
def chkCopy (mc : Bool) (s : State) (c : EngCmd) : Chk :=
  match engAddr c.src, engAddr c.dst with
  | some src, some dst =>
    let q := quadOf s.cur
    let dims := nestDims c
    let n := c.len.toNat
    let runs := nestRuns dims
    let quads := if mc then mcQuads s.cur c else [q]
    let off (e : EngAddr) : Nat := match e with | .near a => a | .far _ o => o
    firstChk
      ([chk (nestUsed c && (decide (3 < fieldOf c.block 0 4) || dims.any (fun d => decide (d.1 = 0 ∨ 65535 < d.1)))) cOperand,
        chk (decide (n % 4 ≠ 0 ∨ off src % 4 ≠ 0 ∨ off dst % 4 ≠ 0) || dims.any (fun d => decide (d.2.1 % 4 ≠ 0 ∨ d.2.2 % 4 ≠ 0))) cAlign] ++
       runs.map (fun o => chkRun s q src o.1 n) ++
       quads.flatMap (fun k => runs.map (fun o => chkRun s k dst o.2 n)) ++
       (eaHandle src ++ eaHandle dst).map (chkHandle s) ++
       quads.flatMap (fun k => runs.map (fun o => chkWrite s k c dst o.2 n)) ++
       [chk ((!mc || quads.contains q) && spansMeet c src dst (runSpan (runs.map (·.1))) (runSpan (runs.map (·.2))) n) cOperand])
  | _, _ => some (cOperand, 0)

/-- The issue of `eng.copy` and `eng.copy.mc`. -/
def issueCopy (mc : Bool) (s : State) (c : EngCmd) : EngIssue :=
  let n := c.len.toNat
  let a := natField c.nest.toNat 0 22
  let badOff (w : Word) : Bool := match engAddr w with | some (.near a) => decide (a % 4 ≠ 0) | some (.far _ o) => decide (o % 4 ≠ 0) | none => false
  let early := chk ((engAddr c.src).isNone || (if mc then (nearOnly c.dst).isNone || !mcOk s s.cur c else (engAddr c.dst).isNone) ||
    decide (n < 4 ∨ 2097152 < n)) cOperand
  checked early
    (if !nestUsed c then checked (chkCopy mc s c) (.ok c s)
     else if a % 32 ≠ 0 then .bad (cAlign, 0)
     else
       match chkNear s (quadOf s.cur) a 64 with
       | some x => checked (chk (decide (n % 4 ≠ 0) || badOff c.src || badOff c.dst) cAlign) (.bad x)
       | none => withRead s c.e a 64 (fun l s1 => let c1 := { c with block := l }; checked (chkCopy mc s1 c1) (.ok c1 s1)))

/-- Runs the next run of a copy: read in full, then written (R163). DESIGN CHOICE (log entry 72): a poisoned byte in the nest block
that was read at issue ends the command with STATUS 1, DETAIL 0 before any run. -/
def runCopy (c : EngCmd) (x : EngRun) : CmdRun :=
  match engAddr c.src, engAddr c.dst with
  | some src, some dst =>
    if badIn c.block then .ended (1, 0) x
    else
      let n := nestCount (nestDims c)
      let o := nestRun (nestDims c) c.elem
      let (bs, bad, x1) := engRead x c src o.1 c.len.toNat
      if bad then .ended (1, c.elem) x1 else afterElem c n [] (0, n) (engWrite x1 c dst o.2 bs)
  | _, _ => .ended (1, 0) x

/-- Writes one run into every quad that has not failed; a quad with a destination chunk in a window fails (R164), and a quad held
for a rollback is awaited (R311). -/
def mcWrite (a : Nat) (bs : List Byte) (failed : List Nat) (x : EngRun) : List Nat → List Nat × EngRun
  | [] => (failed, x)
  | q :: rest =>
    let inWindow := (spanChunks [(a, bs.length)]).any (fun k => match regionOf x.st q (64 * k) with | .mapped _ _ => true | _ => false)
    if failed.contains q then mcWrite a bs failed x rest
    else if inWindow then mcWrite a bs (q :: failed) x rest
    else let x1 := gateStash x q; mcWrite a bs failed { x1 with st := quadWrite x1.st q a bs } rest

/-- STATUS and DETAIL at the end of a `copy.mc` (R164, R169). -/
def mcEnd (failed : List Nat) : EngEnd :=
  if failed.isEmpty then (0, 0) else (3, (failed.map (fun q => 2 ^ (q % 48))).foldl (· + ·) 0)

/-- Runs the next run of a `copy.mc`. -/
def runCopyMc (c : EngCmd) (x : EngRun) : CmdRun :=
  match engAddr c.src with
  | some src =>
    if badIn c.block then .ended (1, 0) x
    else
      let o := nestRun (nestDims c) c.elem
      let (bs, bad, x1) := engRead x c src o.1 c.len.toNat
      if bad then .ended (1, c.elem) x1
      else
        let (f, x2) := mcWrite ((c.dst.toNat : Int) + o.2).toNat bs c.failed x1 (mcQuads x.core c)
        afterElem c (nestCount (nestDims c)) f (mcEnd f) x2
  | none => .ended (1, 0) x

/-! Stash-map windows (R165, R202). -/

def mapWindow (c : EngCmd) : Nat := cmdOpf c.aux 0 6
def mapAll (c : EngCmd) : Bool := c.aux.getLsbD 6
def mapDrop (c : EngCmd) : Bool := c.aux.getLsbD 7

/-- The window that a `smap` describes. -/
def mapTile (ctx : Nat) (c : EngCmd) : Window :=
  { base := c.dst.toNat, vbase := c.src.toNat, rowBytes := cmdOpf c.len 0 24, rows := cmdOpf c.len 24 24, rowStride := c.nest.toNat,
    ro := c.aux.getLsbD 6, ctx := ctx, byCp := false, versions := [] }

/-- The virtual 64-byte lines of a window's tile. -/
def tileLines (w : Window) : List Nat :=
  (range' 0 w.rows).flatMap (fun r => range' ((w.vbase + r * w.rowStride) / 64) (w.rowBytes / 64))

/-- Whether the tiles of two windows share a line. -/
def tilesShare (a b : Window) : Bool :=
  decide (a.ctx = b.ctx) && (range' 0 a.rows).any (fun i => (range' 0 b.rows).any (fun j =>
    let x := a.vbase + i * a.rowStride
    let y := b.vbase + j * b.rowStride
    decide (x / 64 * 64 < y + b.rowBytes ∧ y / 64 * 64 < x + a.rowBytes)))

/-- Whether a window's near extent meets a temporary region or another window, or its tile another window's (R202); the window
of the same number is exempt. -/
def mapConflict (s : State) (q n : Nat) (w : Window) : Bool :=
  let qd := getQuad s q
  qd.temps.any (fun t => overlaps w.base (windowBytes w) t.base t.len) ||
    qd.windows.any (fun e => decide (e.1 ≠ n) && (overlaps w.base (windowBytes w) e.2.base (windowBytes e.2) || tilesShare w e.2))

/-- The issue of `eng.smap`. -/
def issueMap (s : State) (c : EngCmd) : EngIssue :=
  let w := mapTile (((curCore s).gang).getD 0) c
  checked (firstChk
    [chk (decide (2 ^ 48 ≤ w.vbase ∨ w.rowBytes = 0 ∨ w.rowBytes % 64 ≠ 0 ∨ w.rows = 0 ∨ w.rowStride % 64 ≠ 0 ∨
       (1 < w.rows ∧ w.rowStride < w.rowBytes) ∨ stashBytes < w.base + windowBytes w) || (nearOnly c.dst).isNone) cOperand,
     chk (mapConflict s (quadOf s.cur) (mapWindow c) w) cOperand,
     chk (decide (w.vbase % 64 ≠ 0 ∨ w.base % 64 ≠ 0)) cAlign,
     chk ((tileLines w).any (fun l => (leaseRange s s.cur (64 * l)).isNone)) cLease])
    (.ok c s)

/-- Runs a `smap`: the checks of R202 again, the window of that number written back and dropped, the new one installed. -/
def runMap (c : EngCmd) (x : EngRun) : EngEnd × EngRun :=
  let q := quadOf x.core
  let n := mapWindow c
  let w := mapTile (((getCore x.st x.core).gang).getD 0) c
  if mapConflict x.st q n w then ((6, 0), x)
  else
    let lines := match (getQuad x.st q).windows.find? (fun e => e.1 = n) with | some e => (dirtyChunks x.st q e.2).length | none => 0
    let seals := match (getQuad x.st q).windows.find? (fun e => e.1 = n) with | some e => flushSeals x.st q e.2 | none => false
    let s1 := dropWindow x.st x.core q n
    ((0, 0), { x with lines := x.lines + lines, held := x.held || seals, st := modQuad s1 q (fun d => { d with windows := alPut d.windows n w }) })

/-- The windows that a `sinv` or `swb` acts on. -/
def mapNamed (s : State) (q : Nat) (c : EngCmd) : List (Nat × Window) :=
  if mapAll c then (getQuad s q).windows else (getQuad s q).windows.filter (fun e => e.1 = mapWindow c)

/-- Runs a `sinv`. -/
def runInv (c : EngCmd) (x : EngRun) : EngEnd × EngRun :=
  let q := quadOf x.core
  ((0, 0), { x with st := (mapNamed x.st q c).foldl (fun s e => invalidateWindow s q e.2) x.st })

/-- Runs a `swb`. -/
def runWb (c : EngCmd) (x : EngRun) : EngEnd × EngRun :=
  let q := quadOf x.core
  let act (s : State) (e : Nat × Window) : State := if mapDrop c then dropWindow s x.core q e.1 else flushWindow s x.core q e.2
  ((0, 0), { x with lines := x.lines + ((mapNamed x.st q c).map (fun e => (dirtyChunks x.st q e.2).length)).foldl (· + ·) 0,
                    held := x.held || (mapNamed x.st q c).any (fun e => flushSeals x.st q e.2),
                    st := (mapNamed x.st q c).foldl act x.st })

/-! Gathers and scatters (R166). -/

def idxCount (c : EngCmd) : Nat := c.aux.toNat
def idxStride (c : EngCmd) : Nat := let k := cmdOpf c.word 16 32; if k = 0 then c.len.toNat else k

/-- The issue of `eng.gather` (`g`) and `eng.scatter`. -/
def issueIndexed (g : Bool) (s : State) (c : EngCmd) : EngIssue :=
  let q := quadOf s.cur
  let n := c.len.toNat
  let k := idxCount c
  let far := if g then c.src else c.dst
  let near := if g then c.dst else c.src
  let list := c.nest.toNat
  match engAddr far with
  | none => .bad (cOperand, 0)
  | some ea =>
    checked (firstChk
      ([chk ((nearOnly near).isNone || (nearOnly c.nest).isNone || decide (n < 4 ∨ 256 < n ∨ k < 1 ∨ 4096 < k)) cOperand,
        chk (decide (n % 4 ≠ 0 ∨ near.toNat % 4 ≠ 0 ∨ list % 4 ≠ 0 ∨ idxStride c % 4 ≠ 0)) cAlign,
        chkNear s q list (4 * k), chkNear s q near.toNat (k * n)] ++ (eaHandle ea).map (chkHandle s) ++
       [if g then chk (spanProtected s q near.toNat (k * n)) cWriteProtect
        else match ea with | .far j _ => chk (!(cmdHandle c j).wr) cWriteProtect | .near _ => none]))
      (withRead s c.e list (4 * k) (fun l s1 => .ok { c with data := l } s1))

/-- One element of a gather or scatter. -/
def idxElem (g : Bool) (c : EngCmd) (ea : EngAddr) (x : EngRun) (i : Nat) (idx : Nat) : Option Nat × EngRun :=
  let n := c.len.toNat
  let off : Int := (idx * idxStride c : Nat)
  let near := EngAddr.near (if g then c.dst.toNat else c.src.toNat)
  let at_ : Int := (i * n : Nat)
  let q := quadOf x.core
  if !runOk x.st q ea off n then (some 2, x)
  else if !g && (match ea with | .near a => spanProtected x.st q ((a : Int) + off).toNat n | .far _ _ => false) then (some 5, x)
  else
    let (bs, bad, x1) := if g then engRead x c ea off n else engRead x c near at_ n
    if bad then (some 1, x1)
    else (none, if g then engWrite x1 c near at_ bs else engWrite x1 c ea off bs)

/-- Runs the next element of a gather or scatter. DESIGN CHOICE (log entry 72): a poisoned byte anywhere in the index list that was
read at issue ends the command with STATUS 1, DETAIL 0. -/
def runIndexed (g : Bool) (c : EngCmd) (x : EngRun) : CmdRun :=
  match engAddr (if g then c.src else c.dst) with
  | none => .ended (1, 0) x
  | some ea =>
    if badIn c.data then .ended (1, 0) x
    else
      match idxElem g c ea x c.elem (fieldOf c.data (4 * c.elem) 4) with
      | (some st, x1) => .ended (st, c.elem) x1
      | (none, x1) => afterElem c (idxCount c) [] (0, idxCount c) x1

/-! `eng.topk` (R167). -/

def topCount (c : EngCmd) : Nat := c.aux.toNat
def topK (c : EngCmd) : Nat := cmdOpf c.word 16 11

/-- The issue of `eng.topk`. -/
def issueTopk (s : State) (c : EngCmd) : EngIssue :=
  let q := quadOf s.cur
  checked (firstChk
    [chk ((nearOnly c.src).isNone || (nearOnly c.dst).isNone ||
       decide (topCount c < 1 ∨ 4096 < topCount c ∨ topK c < 1 ∨ 1024 < topK c ∨ topCount c < topK c)) cOperand,
     chk (decide (c.src.toNat % 4 ≠ 0 ∨ c.dst.toNat % 4 ≠ 0)) cAlign,
     chkNear s q c.src.toNat (4 * topCount c), chkNear s q c.dst.toNat (4 * topK c),
     chk (spanProtected s q c.dst.toNat (4 * topK c)) cWriteProtect])
    (.ok c s)

/-- Whether a key ranks above another, by value, then by index. -/
def keyAbove (a b : Lane × Nat) : Bool :=
  match isNanF a.1, isNanF b.1 with
  | true, true => decide (a.2 < b.2)
  | true, false => false
  | false, true => true
  | false, false => decide (numKey b.1 < numKey a.1) || (decide (numKey a.1 = numKey b.1) && decide (a.2 < b.2))

/-- The indices of the `k` keys that rank highest, ascending. -/
def topIndices (k : Nat) (keys : List Lane) : List Nat :=
  (keys.zipIdx.filter (fun a => decide ((keys.zipIdx.filter (fun b => keyAbove b a)).length < k))).map (·.2)

/-- Runs a `topk`. -/
def runTopk (c : EngCmd) (x : EngRun) : EngEnd × EngRun :=
  let (bs, bad, x1) := engNearRead x (quadOf x.core) c.src.toNat (4 * topCount c)
  if bad then ((1, 0), x1)
  else
    ((0, topK c), engNearWrite x1 (quadOf x1.core) c.dst.toNat ((topIndices (topK c) (bufLanes bs)).flatMap (fun i => leBytes i 4)))

/-! Collectives: issue (R40, R168). -/

/-- Whether a root rank is a member's. -/
def rootOk (s : State) (core : Nat) (x : ChanId) (root : Nat) : Bool :=
  let ms := chanMembers s x
  if x.scope = 5 then
    match getGroup s (blkPodGrp (getBlock s x.ctx)) with
    | some g => decide (root < g.members.length * ms.length)
    | none => false
  else
    match gangOf s core with
    | some g => ms.any (fun c => decide (rankOf g c = root))
    | none => false

/-- The issue of a collective. -/
def issueColl (s : State) (c : EngCmd) : EngIssue :=
  let q := quadOf s.cur
  let n := c.len.toNat
  let sc := collScope c.word
  checked (firstChk
    [chk (decide (sc < 2 ∨ 5 < sc) || !holdsChan s s.cur sc (collChannel c.word) || (decide (c.op ≠ .cbcast) && decide (collFn c.word = 3)) ||
       (nearOnly c.src).isNone || (nearOnly c.dst).isNone || decide (n < 4 ∨ 65536 < n) ||
       (decide (c.op ≠ .callred) && !rootOk s s.cur (collChan s s.cur c) c.aux.toNat)) cOperand,
     chk (decide (n % 4 ≠ 0)) cAlign,
     chkNear s q c.src.toNat n, chkNear s q c.dst.toNat n,
     chk (spanProtected s q c.dst.toNat n) cWriteProtect])
    (.ok { c with phase := arrivals (getChan s (collChan s s.cur c)) s.cur } s)

/-! Issue. -/

/-- The issue of a command by its operation. -/
def issueOfOp (s : State) (c : EngCmd) : EngIssue :=
  match c.op with
  | .copy => issueCopy false s c
  | .copyMc => issueCopy true s c
  | .smap => issueMap s c
  | .sinv | .swb => .ok c s
  | .gather => issueIndexed true s c
  | .scatter => issueIndexed false s c
  | .topk => issueTopk s c
  | .sgemv => issueGemv s c
  | .sattn => issueAttn s c
  | .sred => issueBags s c
  | .callred | .cbcast | .creduce => issueColl s c
  | .kvapp => issueKvapp s c
  | .kvcomp => issueKvcomp s c
  | .pxlook | .pxins => issuePx s c
  | .pxrel => issuePxrel s c
  | .fence _ _ => .bad (cOperand, 0)

/-- The command that a trigger makes from its ports and its command word (R158, R159). -/
def makeCmd (s : State) (op : EngOp) (t : SVal) : EngCmd :=
  let ports := engPorts op t.v
  let rd (o : OpPort) : SVal := if ports.contains o then getOpS (arch s) o else SVal.zero
  let addrs := (addrPorts op t.v).flatMap (fun o => match engAddr (rd o).v with | some ea => eaHandle ea | none => [])
  { op := op, src := (rd .eSrc).v, dst := (rd .eDst).v, nest := (rd .eNest).v, len := (rd .eLen).v, aux := (rd .eAux).v, word := t.v,
    e := t.t ||| (rd .eSrc).t ||| (rd .eDst).t ||| (rd .eNest).t ||| (rd .eLen).t ||| (rd .eAux).t ||| handlesTaint s addrs |||
      (startArch s).order.path,
    handles := takeHandles s addrs, block := [], data := [], seq := 0, ord := orderNo s (arch s), started := false, phase := 0, elem := 0, failed := [],
    fetched := [], filled := [], paid := 0, asked := 0, retryAt := 0, waitFor := [], done := none }

/-- The ticket of a command or fence (R158, R173). -/
def ticket (q seq : Nat) : Word := BitVec.ofNat 64 (q + 8 * seq)

/-- Puts a command in its queue: its ticket two cycles later, a commit event and the no-rollback window (R158, R225, R310). -/
def enqueue (s : State) (c : EngCmd) : State :=
  let q := queueOf c.op
  let s1 := modArch s (fun a =>
    let u := vget a.q q
    { a with q := vset a.q q { u with cmds := u.cmds ++ [{ c with seq := u.issued }], issued := u.issued + 1 } })
  openWindow (commitEvent (deliver s1 .engR 2 false (cleanV (wordToVec (ticket q.val (vget (arch s).q q).issued))))) s.cur 1

/-- A command word that no limit of R160 turns away, where the limits on the word are its own; none where the word decides what
the other fields mean. -/
def plainWord (op : EngOp) : Option Word :=
  match op with
  | .topk => some 0x10000
  | .copy | .copyMc | .smap | .sinv | .swb | .gather | .scatter | .sgemv | .kvapp | .pxlook | .pxins => some 0
  | _ => none

/-- The faults of a command that rank above scoreboard whatever its command word: poison of the ports it reads in any case, an
operand out of its limits (R57, R160). -/
def engEarly (op : EngOp) (s : State) : Option Nat :=
  let port (o : OpPort) : SVal := getOpS (arch s) o
  if (engPorts op 0).any (fun o => (port o).p) then some cPoison
  else if (addrPorts op 0).any (fun o => (engAddr (port o).v).isNone) then some cOperand
  else
    match plainWord op with
    | none => none
    | some w =>
      match issueOfOp s (makeCmd s op (cleanW w)) with
      | .bad k => if rankOfCause k.1 < 6 then some k.1 else none
      | _ => none

/-- Whether a handle that the command's engine addresses name is early and `sbchk` makes that a fault (R79). -/
def cmdEarly (s : State) (c : EngCmd) : Bool := sbchkOn s && c.handles.any (fun e => (fetchHandle s (Fin.ofNat 16 e.1)).early)

/-- An engine trigger of a command (R158, R160). -/
def engTrigger (op : EngOp) (i : Instr) (g : Guard) (src : Src) (s : State) : State :=
  runMovePre i g src (engEarly op s) s (fun x s =>
    let t := x.scalar
    if t.p || (engPorts op t.v).any (fun o => (getOpS (arch s) o).p) then raise s i cPoison
    else
      match issueOfOp s (makeCmd s op t) with
      | .bad k => raiseChk s i (rankChk (cmdEarly s (makeCmd s op t)) k)
      | .await keys => holdFor s keys
      | .ok c s1 =>
        if 32 ≤ (vget (arch s).q (queueOf op)).cmds.length then holdIssue s
        else
          let s2 := enqueue s1 c
          if isColl op then arriveAt s2 (collChan s2 s2.cur c) false else s2)

/-- `eng.copy` (R163). -/
def execEngCopy (g : Guard) (src : Src) (s : State) : Out := .next (engTrigger .copy (.engCopy g src) g src s)

/-- `eng.copy.mc` (R164). -/
def execEngCopyMc (g : Guard) (src : Src) (s : State) : Out := .next (engTrigger .copyMc (.engCopyMc g src) g src s)

/-- `eng.smap` (R165). -/
def execEngSmap (g : Guard) (src : Src) (s : State) : Out := .next (engTrigger .smap (.engSmap g src) g src s)

/-- `eng.sinv` (R165). -/
def execEngSinv (g : Guard) (src : Src) (s : State) : Out := .next (engTrigger .sinv (.engSinv g src) g src s)

/-- `eng.swb` (R165). -/
def execEngSwb (g : Guard) (src : Src) (s : State) : Out := .next (engTrigger .swb (.engSwb g src) g src s)

/-- `eng.gather` (R166). -/
def execEngGather (g : Guard) (src : Src) (s : State) : Out := .next (engTrigger .gather (.engGather g src) g src s)

/-- `eng.scatter` (R166). -/
def execEngScatter (g : Guard) (src : Src) (s : State) : Out := .next (engTrigger .scatter (.engScatter g src) g src s)

/-- `eng.topk` (R167). -/
def execEngTopk (g : Guard) (src : Src) (s : State) : Out := .next (engTrigger .topk (.engTopk g src) g src s)

/-- `eng.sgemv` (R247 to R249). -/
def execEngSgemv (g : Guard) (src : Src) (s : State) : Out := .next (engTrigger .sgemv (.engSgemv g src) g src s)

/-- `eng.sattn` (R250 to R252). -/
def execEngSattn (g : Guard) (src : Src) (s : State) : Out := .next (engTrigger .sattn (.engSattn g src) g src s)

/-- `eng.sred` (R254, R255). -/
def execEngSred (g : Guard) (src : Src) (s : State) : Out := .next (engTrigger .sred (.engSred g src) g src s)

/-- `eng.callred` (R168). -/
def execEngCallred (g : Guard) (src : Src) (s : State) : Out := .next (engTrigger .callred (.engCallred g src) g src s)

/-- `eng.cbcast` (R168). -/
def execEngCbcast (g : Guard) (src : Src) (s : State) : Out := .next (engTrigger .cbcast (.engCbcast g src) g src s)

/-- `eng.creduce` (R168). -/
def execEngCreduce (g : Guard) (src : Src) (s : State) : Out := .next (engTrigger .creduce (.engCreduce g src) g src s)

/-- `eng.kvapp` (R271, R272). -/
def execEngKvapp (g : Guard) (src : Src) (s : State) : Out := .next (engTrigger .kvapp (.engKvapp g src) g src s)

/-- `eng.kvcomp` (R273). -/
def execEngKvcomp (g : Guard) (src : Src) (s : State) : Out := .next (engTrigger .kvcomp (.engKvcomp g src) g src s)

/-- `eng.pxlook` (R274, R275). -/
def execEngPxlook (g : Guard) (src : Src) (s : State) : Out := .next (engTrigger .pxlook (.engPxlook g src) g src s)

/-- `eng.pxins` (R276). -/
def execEngPxins (g : Guard) (src : Src) (s : State) : Out := .next (engTrigger .pxins (.engPxins g src) g src s)

/-- `eng.pxrel` (R277). -/
def execEngPxrel (g : Guard) (src : Src) (s : State) : Out := .next (engTrigger .pxrel (.engPxrel g src) g src s)

/-! Fences, waits, polls (R170, R171, R173). -/

/-- The queues that a mask names. -/
def maskQueues (m : BitVec 5) : List (Fin 5) := (List.finRange 5).filter (fun q => m.getLsbD q.val)

/-- `eng.qfence`: an entry in every named queue (R173). -/
def execEngQfence (g : Guard) (src : Src) (s : State) : Out :=
  .next (runMove (.engQfence g src) g src s (fun x s =>
    let t := x.scalar
    let m : BitVec 5 := t.v.setWidth 5
    if t.p then raise s (.engQfence g src) cPoison
    else if m = 0 then raise s (.engQfence g src) cOperand
    else if (maskQueues m).any (fun q => decide (32 ≤ (vget (arch s).q q).cmds.length)) then holdIssue s
    else
      let n := (arch s).fences
      let entry : EngCmd := { makeCmd s (.fence n m) t with seq := n }
      let s1 := modArch s (fun a =>
        { a with fences := n + 1,
                 q := (maskQueues m).foldl (fun v q => vset v q { vget v q with cmds := (vget v q).cmds ++ [entry] }) a.q })
      openWindow (commitEvent (deliver s1 .engR 2 false (cleanV (wordToVec (ticket 7 n))))) s.cur 1))

/-- `eng.qwait`: a wait for a command or a fence (R170). -/
def execEngQwait (g : Guard) (src : Src) (s : State) : Out :=
  .next (runMove (.engQwait g src) g src s (fun x s =>
    let t := x.scalar
    let q := natField t.v.toNat 0 3
    let n := natField t.v.toNat 3 61
    if t.p then raise s (.engQwait g src) cPoison
    else if q = 7 then
      (if (startArch s).fences ≤ n then raise s (.engQwait g src) cOperand
       else setWait (openWindow (commitEvent s) s.cur 1) (.fence n))
    else if h : q < 5 then
      (if (vget (startArch s).q ⟨q, h⟩).issued ≤ n then raise s (.engQwait g src) cOperand
       else setWait (openWindow (commitEvent s) s.cur 1) (.command ⟨q, h⟩ n))
    else raise s (.engQwait g src) cOperand))

/-- The state of the queues that a poll delivers: they are as they stood at the start of the cycle (R171). DESIGN CHOICE (log entry
80): a queue that holds only a fence does not count as empty. -/
def pollWord (a : CoreArch) (m : BitVec 5) : Word :=
  let qs := maskQueues m
  let idle := (qs.map (fun q => if (vget a.q q).cmds.isEmpty then 2 ^ q.val else 0)).foldl (· + ·) 0
  let done := match qs with | q :: _ => (vget a.q q).completed | [] => 0
  BitVec.ofNat 64 (idle + 65536 * (done % 2 ^ 48))

/-- `eng.qpoll` (R171). -/
def execEngQpoll (g : Guard) (src : Src) (s : State) : Out :=
  .next (runMove (.engQpoll g src) g src s (fun x s =>
    let t := x.scalar
    let m : BitVec 5 := t.v.setWidth 5
    if t.p then raise s (.engQpoll g src) cPoison
    else if m = 0 then raise s (.engQpoll g src) cOperand
    else openWindow (commitEvent (deliver s .engR 2 false (cleanV (wordToVec (pollWord (startArch s) m))))) s.cur 1))

/-! Starting a command (R157, R235, R344). -/

/-- The queue of a core by its number. -/
def coreQueue (s : State) (c : Nat) (q : Fin 5) : EngQueue := vget (getCore s c).arch.q q

/-- Changes the head command of a queue. -/
def modHead (s : State) (c : Nat) (q : Fin 5) (f : EngCmd → EngCmd) : State :=
  modArchOf s c (fun a =>
    let u := vget a.q q
    match u.cmds with
    | x :: rest => { a with q := vset a.q q { u with cmds := f x :: rest } }
    | [] => a)

/-- The peers' answers for a queue's head command carry its identity. -/
def engIdent (c : Nat) (q : Fin 5) : Nat := 2 ^ 80 + 8 * c + q.val

/-- Runs a command. -/
def runCmd (c : EngCmd) (x : EngRun) : CmdRun :=
  let fin (r : EngEnd × EngRun) : CmdRun := .ended r.1 r.2
  match c.op with
  | .copy => runCopy c x
  | .copyMc => runCopyMc c x
  | .smap => fin (runMap c x)
  | .sinv => fin (runInv c x)
  | .swb => fin (runWb c x)
  | .gather => runIndexed true c x
  | .scatter => runIndexed false c x
  | .topk => fin (runTopk c x)
  | .sgemv => fin (runGemv c x)
  | .sattn => fin (runAttn (((getCore x.st x.core).gang).getD 0) c x)
  | .sred => fin (runBags c x)
  | .callred | .cbcast | .creduce => .taken (takeSource c x)
  | .kvapp => runKvapp c x
  | .kvcomp => fin (runKvcomp c x)
  | .pxlook => fin (runPxlook c x)
  | .pxins => fin (runPxins c x)
  | .pxrel => runPxrel c x
  | .fence _ _ => fin ((0, 0), x)

/-- A completion word (R169). -/
def completionWord (c : EngCmd) (e : EngEnd) : Word := BitVec.ofNat 64 (e.1 % 256 + 256 * cmdTag c.word + 65536 * (e.2 % 2 ^ 48))

/-- The transfers of the second state that the first does not have. -/
def newXfers (old new : State) : List Nat :=
  (new.hub.xfers.filter (fun x => !old.hub.xfers.any (fun y => y.num = x.num))).map (·.num)

/-- Sends a command's writes to peers. -/
def sendWrites (s : State) (c : Nat) (q : Fin 5) (l : List (Loc × BitVec 64 × List Byte)) : State :=
  l.foldl (fun s w => (startXfer s c (engIdent c q) 2 0x41 0 (lineLoc w.1) w.2.1 w.2.2).2) s

/-- Asks peers for the lines a command misses; the command runs again when they have come. -/
def askLines (s : State) (c : Nat) (q : Fin 5) (l : List Loc) : State :=
  let s1 := l.foldl (fun s p => (startXfer s c (engIdent c q) 2 0x40 0 (lineLoc p) 0 []).2) s
  modHead s1 c q (fun x => { x with started := true, waitFor := newXfers s s1 })

/-- The state after a run: its effects, the writes to peers, the completion word when the command has ended. -/
def settleRun (s : State) (c : Nat) (q : Fin 5) (cmd : EngCmd) (e : Option EngEnd) (x : EngRun) : State :=
  if !x.miss.isEmpty then askLines s c q x.miss.reverse
  else
    let s1 := sendWrites x.st c q x.sent
    modHead s1 c q (fun y =>
      { y with started := true, fetched := [], filled := [], waitFor := newXfers s s1, done := e.map (completionWord cmd) })

/-- The state after an element that is not the last: its effects, and the number of the next, once it misses no line. -/
def settlePart (s : State) (c : Nat) (q : Fin 5) (i : Nat) (failed : List Nat) (x : EngRun) : State :=
  if !x.miss.isEmpty then askLines s c q x.miss.reverse
  else
    let s1 := sendWrites x.st c q x.sent
    modHead s1 c q (fun y =>
      { y with started := true, elem := i, failed := failed, fetched := [], filled := [], waitFor := newXfers s s1 })

/-- A command as its run begins. -/
def beginRun (s : State) (c : Nat) (cmd : EngCmd) : EngRun := { EngRun.start s c cmd.e cmd.fetched with filled := cmd.filled }

/-- The state after a run, whatever it came to. -/
def settle (s : State) (c : Nat) (q : Fin 5) (cmd : EngCmd) : CmdRun → State
  | .ended e x => settleRun s c q cmd (some e) x
  | .taken x => settleRun s c q cmd none x
  | .part i failed x => settlePart s c q i failed x

/-- The tokens that a run takes: one for each line that it asks of a peer first, or for each line that it moves (R245, R296). -/
def runNeeds (x : EngRun) : Nat := if x.miss.isEmpty then x.lines else x.miss.length

/-- The tokens that a command has waited for, once they are granted. -/
def claimTokens (s : State) (c : Nat) (q : Fin 5) (cmd : EngCmd) : EngCmd × State :=
  if decide (0 < cmd.asked) && (getDie s (dieOf c)).granted.contains (engIdent c q) then
    let cmd1 := { cmd with paid := cmd.paid + cmd.asked, asked := 0 }
    (cmd1, modHead (takeTokens s c (engIdent c q) cmd.asked).2 c q (fun _ => cmd1))
  else (cmd, s)

/-- Starts the fill of a chunk that a command awaits, for a write with the registration (R204, R205). -/
def startEngFill (c : Nat) (s : State) (f : Nat × Bool) : State :=
  if xferPending s 1 f.1 then s
  else
    match regionOf s (f.1 / 65536) (f.1 % 65536 * 64) with
    | .mapped _ w => if f.2 then (readyWrite c (2 ^ 64 + f.1) (f.1 % 65536) s).2.2 else (startFill s c (2 ^ 64 + f.1) none w f.1).2.2
    | _ => s

/-- A command that finds something held back: what it needs first is begun, and it is tried again in the next period. -/
def heldRun (s : State) (c : Nat) (q : Fin 5) (x : EngRun) : State :=
  let s1 := x.fills.foldl (startEngFill c) (x.recalls.foldl (fun s l => recallPaid s c l) s)
  modHead s1 c q (fun y =>
    { y with retryAt := s.now + 1, filled := y.filled ++ (x.fills.map (·.1)).filter (fun k => xferPending s1 1 k && !y.filled.contains k) })

/-- Runs the next element of a command once its lines, and the writebacks that it forces, have their tokens (R245, R298); one that
finds something held back is tried again in the next period. -/
def paidRun (s : State) (c : Nat) (q : Fin 5) (cmd0 : EngCmd) (run : EngCmd → State → CmdRun) : State :=
  let (cmd, s0) := claimTokens s c q cmd0
  let x := (run cmd s0).run
  let n := runNeeds x
  if x.held then heldRun s0 c q x
  else
    match takeRecalls x.forced s0 with
    | (false, s1) => modHead s1 c q (fun y => { y with retryAt := s.now + 1 })
    | (true, s1) =>
      if n ≤ cmd.paid then modHead (settle s1 c q cmd (run cmd s1)) c q (fun y => { y with paid := cmd.paid - n })
      else
        match takeTokens s1 c (engIdent c q) (n - cmd.paid) with
        | (true, s2) => modHead (settle s2 c q cmd (run cmd s2)) c q (fun y => { y with paid := 0 })
        | (false, s2) => modHead (x.forced.foldl keepGrant s2) c q (fun y => { y with asked := n - cmd.paid })

/-- Whether a command waits for no token and not for a later period. -/
def tokensHere (s : State) (c : Nat) (q : Fin 5) (cmd : EngCmd) : Bool :=
  decide (cmd.retryAt ≤ s.now) && (decide (cmd.asked = 0) || tokenAskable s c (engIdent c q))

/-- Whether the head of a queue may run: the cores and the anvils of the period have had the banks (R201), the core serves its task, or
the queue runs on after its end, and its earlier near writes and coloured loads have performed (R157, R231, R307). -/
def startReady (s : State) (c : Nat) (q : Fin 5) (cmd : EngCmd) : Bool :=
  let x := getCore s c
  let live := match x.status with
    | .bound | .completed _ => true
    | .stopped | .ended _ => (decide (q.val = 2) || decide (q.val = 4)) && cmd.started
    | .idle => false
  s.todo.isEmpty && s.served && live && (quadHold s (quadOf c)).isNone && (match cmd.op with | .fence _ _ => false | _ => true) && cmd.done.isNone && cmd.waitFor.isEmpty &&
    !(cmd.started && isColl cmd.op) && x.arch.order.nearq.all (fun n => decide (cmd.ord / 8 ≤ n.ord / 8) || !nearWrites n) &&
    loadsBefore s c (cmd.ord / 8) cmd.e

/-- The quads of a `copy.mc` whose stash reports an uncorrectable error now have failed (R164): bit q for quad-in-die q. -/
def failQuads (c errs : Nat) (cmd : EngCmd) : EngCmd :=
  if cmd.op = .copyMc then
    { cmd with failed := cmd.failed ++ (mcQuads c cmd).filter (fun q => errs.testBit (q % 48) && !cmd.failed.contains q) }
  else cmd

/-- ENGINE_COMMAND_START: the head of a queue performs its elements in element order (R157, R235), a copy, a gather and a scatter
one element a step. -/
def execEngineCommandStart (c : Nat) (q : EngineStart) (s : State) : Out :=
  if h : q.queue < 5 then
    let k : Fin 5 := ⟨q.queue, h⟩
    match (coreQueue s c k).cmds with
    | cmd :: _ =>
      if startReady s c k cmd then
        let cmd1 := failQuads c q.errs cmd
        .next (paidRun (modHead s c k (fun _ => cmd1)) c k cmd1 (fun cmd s => runCmd cmd (beginRun s c cmd)))
      else .next s
    | [] => .next s
  else .next s

/-! Completion (R169, R172, R173). -/

/-- The fence at the head of a queue stands at the head of every queue it names. -/
def fenceReady (a : CoreArch) (n : Nat) (m : BitVec 5) : Bool :=
  (maskQueues m).all (fun q =>
    match (vget a.q q).cmds with
    | x :: _ => decide (x.op = .fence n m)
    | [] => false)

/-- A fence passes in every queue it names. -/
def passFence (s : State) (c : Nat) (m : BitVec 5) : State :=
  modArchOf s c (fun a =>
    { a with q := (maskQueues m).foldl (fun v q => vset v q { vget v q with cmds := (vget v q).cmds.drop 1 }) a.q })

/-- Whether a core's task has ended or completed, so that its completions are no longer delivered. -/
def taskOver (x : Core) : Bool := match x.status with | .completed _ | .ended _ | .idle => true | _ => false

/-- Completes the head command of a queue: its word kept, its event latched, what it held let go (R169, R172, R265). -/
def completeCmd (s : State) (c : Nat) (q : Fin 5) (cmd : EngCmd) (w : Word) : State :=
  let x := getCore s c
  let u := vget x.arch.q q
  let gone := taskOver x
  let s1 := modArchOf s c (fun a =>
    { a with q := vset a.q q { u with cmds := u.cmds.drop 1, completed := u.completed + 1, kept := ((cmd.seq, w) :: u.kept).take 64 },
             order := { a.order with engEvents := if cmdIrq cmd.word && !gone then a.order.engEvents ++ [(q.val, w)] else a.order.engEvents } })
  let s2 := if cmd.op = .sattn then settlePages s1 (((getCore s1 c).gang).getD 0) c cmd.block else s1
  if isColl cmd.op then dropParts s2 (collChan s2 c cmd) cmd.phase else s2

/-- A collective whose phase is released forms its result (R168). -/
def formResult (s : State) (c : Nat) (q : Fin 5) (cmd : EngCmd) : State :=
  match collOutcome s c cmd with
  | some r => paidRun s c q cmd (fun cmd s => let (e, x) := writeResult cmd r (beginRun s c cmd); .ended e x)
  | none => s

/-- ENGINE_COMMAND_COMPLETION: a fence passes, a collective forms its result, which a stopped gang's holds (R174), a command whose
accesses have all performed completes. -/
def execEngineCommandCompletion (c q : Nat) (s : State) : Out :=
  if h : q < 5 then
    let k : Fin 5 := ⟨q, h⟩
    match (coreQueue s c k).cmds with
    | cmd :: _ =>
      match cmd.op, cmd.done with
      | .fence n m, _ => .next (if fenceReady (getCore s c).arch n m then passFence s c m else s)
      | _, some w =>
        .next (if cmd.waitFor.isEmpty then completeCmd s c k cmd w else s)
      | _, none =>
        .next (if isColl cmd.op && cmd.started && cmd.waitFor.isEmpty && decide ((getCore s c).status ≠ .stopped) && s.todo.isEmpty &&
            s.served then formResult s c k cmd else s)
    | [] => .next s
  else .next s

end Sys2Proof.Machine
end

