-- ==== Sys2Proof/Machine/Revoke.lean ====
section
/-! DEFINITION. Revocation of handles and scrubbing of frames (R213 to R215, R219). -/

namespace Sys2Proof.Machine

/-- Whether a virtual address lies in a range of pages. -/
def inRange (r : PageRange) (va : Nat) : Bool := decide (r.vpage ≤ va / 2097152 ∧ va / 2097152 < r.vpage + r.pages)

/-- A core section with its handles to the pages that a test picks revoked: a translation in flight is made again when it is due
(R212). -/
def revokeArch (pick : Nat → Bool) (a : CoreArch) : CoreArch :=
  { a with regs := { a.regs with h := a.regs.h.map (fun h => if pick h.base.toNat then { h with revoked := true } else h) },
           hdue := a.hdue.map (fun d => if pick d.va then { d with hnd := { d.hnd with made := false } } else d) }

/-- Whether a micro-context reaches an address through a range of an address space. -/
def rangeOf (s : State) (space : Nat) (r : PageRange) (ctx va : Nat) : Bool :=
  inRange r va && decide (spaceOf s ctx (va / 2097152) = space)

/-- Revokes every handle to a range of an address space, in cores, their checkpoints and the images of stopped gangs (R213). -/
def revokeNow (s : State) (space : Nat) (r : PageRange) : State :=
  let s1 := { s with cores := s.cores.map (fun (e : Nat × Core) =>
    (e.1, match e.2.gang with
      | some ctx => { e.2 with arch := revokeArch (rangeOf s space r ctx) e.2.arch, ck := revokeArch (rangeOf s space r ctx) e.2.ck }
      | none => e.2)) }
  { s1 with hub := { s1.hub with gangs := s1.hub.gangs.map (fun (e : Nat × Gang) =>
      (e.1, { e.2 with image := e.2.image.map (fun m =>
          { m with cores := m.cores.map (fun c => (c.1, { c.2 with arch := revokeArch (rangeOf s space r e.1) c.2.arch })) }) })) } }

/-- Asks for a revocation in an address space: it takes effect at the end of the period. -/
def revokeLater (s : State) (space : Nat) (r : PageRange) : State :=
  { s with edge := { s.edge with revoking := s.edge.revoking ++ [(space, r)] } }

/-- The revocations of the period that ends. -/
def applyRevocations (s : State) : State :=
  s.edge.revoking.foldl (fun s e => revokeNow s e.1 e.2) { s with edge := { s.edge with revoking := [] } }

/-! Scrubbing (R219). -/

/-- Purges a frame's lines from the L2s and drops every registration of them without writing back (R219). -/
def dropRegistrations (s : State) (f : Nat) : State :=
  let keys := s.dies.flatMap (fun d => (d.2.dir.filter (fun e => e.1 / 32768 = f)).map (·.2))
  let s1 := { s with dies := s.dies.map (fun d => (d.1, { d.2 with dir := d.2.dir.filter (fun e => e.1 / 32768 ≠ f), l2 := d.2.l2.filter (fun l => l / 32768 ≠ f) })) }
  keys.foldl dropChunk s1

/-- Empties a frame: its bytes zero, its lines without version or failure. -/
def clearFrame (s : State) (f : Nat) : State :=
  { s with far := memClear s.far (2097152 * f) 2097152,
           lineVer := s.lineVer.filter (fun e => decide (e.1 / 32768 ≠ f)), bad := s.bad.filter (fun e => decide (e.1 / 32768 ≠ f)) }

/-- Scrubs a frame, which becomes free (R219): no page is translated to it, and nothing is moved from it any more. -/
def scrubFrame (s : State) (f : Nat) : State :=
  let s1 := clearFrame (dropRegistrations s f) f
  { s1 with frames := alDel s1.frames f,
            xlat := s1.xlat.filter (fun e => !(decide (leafHome e.2 = 0) && leafV e.2 && decide (frameOf (leafFrame e.2) = f))),
            hub := { s1.hub with exports := s1.hub.exports.filter (fun e => e.1 ≠ f) },
            edge := { s1.edge with migrating := s1.edge.migrating.filter (fun e => e.1 ≠ f) } }

/-- Scrubs the marked frames of the tenants that have no gang left. -/
def scrubMarked (s : State) : State :=
  (s.frames.filter (fun e => decide (e.2.st = .scrubbing) && !s.hub.gangs.any (fun g => g.2.tenant = e.2.tenant))).foldl (fun s e => scrubFrame s e.1) s

end Sys2Proof.Machine
end

