-- ==== Sys2Proof/Machine/Sched.lean ====
section
/-! DEFINITION. What dispatch shares: blocks, shapes, launch records, lease sets, world-owned quads and their drain, schedules and
near images, windows of a launch, and the entry state of a task (R26, R68, R213, R241, R280 to R287, R290, R292, R317, R325). -/

namespace Sys2Proof.Machine

/-! Blocks (R280, R281). -/

def stFree : Nat := 0
def stIdle : Nat := 1
def stReady : Nat := 2
def stBinding : Nat := 3
def stRunning : Nat := 4
def stStopped : Nat := 5
def stHalted : Nat := 6
def stUnsealing : Nat := 7

def blkQbase (b : BitVec 2048) : Nat := blkField b 8 8
def blkQhead (b : BitVec 2048) : Nat := blkField b 0x10 4
def blkQtail (b : BitVec 2048) : Nat := blkField b 0x14 4
def blkQlog2 (b : BitVec 2048) : Nat := blkField b 0x18 1
def blkShape (b : BitVec 2048) : Nat := blkField b 0x19 1
def blkKeySlot (b : BitVec 2048) : Nat := blkField b 0x1A 2
def blkSegment (b : BitVec 2048) : Nat := blkField b 0x28 8
def blkRoute (b : BitVec 2048) : Nat := blkField b 0x30 8
def blkHint (b : BitVec 2048) : Nat := blkField b 0x38 8
def blkNlease (b : BitVec 2048) : Nat := blkField b 0x43 1
def blkSendq (b : BitVec 2048) : Nat := blkField b 0x48 8
/-- POOLVA, 0 in a block without a pool (R280, R283). -/
def blkPoolva (b : BitVec 2048) : Nat := if blkField b 0x1C 4 = 0xFFFFFFFF then 0 else blkField b 0x68 8
/-- MODE (R280, R299). -/
def blkLookAhead (b : BitVec 2048) : Bool := (blkField b 0 4).testBit 8

/-- Current priority (R291). -/
def curPrio (b : BitVec 2048) : Nat := min 7 (blkPrio b + if blkAged b then 1 else 0)

/-- Sets STATE of a block. -/
def setState (s : State) (ctx v : Nat) : State := setBlock s ctx (setBlkState (getBlock s ctx) v)

/-- Adds to a counter of a block. -/
def bumpBlk (s : State) (ctx off len : Nat) : State :=
  let b := getBlock s ctx
  setBlock s ctx (blkSet b off len (blkField b off len + 1))

/-- Quads of a shape code (R280). -/
def shapeQuads (code : Nat) : Nat := nthD [1, 2, 4, 8, 16, 24, 48, 96, 192, 384] code 0

/-- The groups of dies that a shape may use (R26). -/
def dieGroups (n : Nat) : List (List Nat) :=
  if n ≤ 48 then (range' 0 8).map (fun d => [d])
  else if n = 96 then (range' 0 4).map (fun k => [2 * k, 2 * k + 1])
  else if n = 192 then [[0, 1, 2, 3], [4, 5, 6, 7]]
  else [range' 0 8]

/-- The quads of a group of dies. -/
def groupQuads (ds : List Nat) : List Nat := ds.flatMap (fun d => range' (48 * d) 48)

/-- Inserts into a rising list. -/
def insertQuad (q : Nat) : List Nat → List Nat
  | [] => [q]
  | r :: rest => if q ≤ r then q :: r :: rest else r :: insertQuad q rest

def sortQuads (l : List Nat) : List Nat := l.foldr insertQuad []

/-- Cores that begin in a period run in it. -/
def addTodo (s : State) (cores : List Nat) : State :=
  { s with todo := sortQuads (s.todo ++ cores.filter (fun c => !s.todo.contains c)) }

/-! Ring entries (R282). -/

/-- The virtual address of ring entry `n`. -/
def ringVa (b : BitVec 2048) (n : Nat) : Nat := blkQbase b + 4096 * (n % 2 ^ blkQlog2 b)

/-- The place of an address of a block that the hub itself reads or writes: memory of this module. -/
def hubLoc (s : State) (ctx va : Nat) : Option Loc := (locOf s ctx va).filter (fun l => l.peer.isNone)

/-- A line as the hub reads it: a failed one arrives poisoned, with bytes that the spec leaves open, and is logged (R234, R323). -/
def hubLine (s : State) (l : Loc) : List (Byte × Bool) × State :=
  let (bytes, bad) := readLine s none l.pa
  let s1 := noteRead s none l.pa
  if bad then ((range' s1.freeCtr 64).map (fun k => (Config.freeByte k, true)), { s1 with freeCtr := s1.freeCtr + 64 })
  else (bytes.map (fun b => (b, false)), s1)

/-- Pieces of a block's memory read by the hub, one line after another. -/
def hubPieces (ctx : Nat) : List (Nat × Nat × Nat) → State → List (Byte × Bool) × State
  | [], s => ([], s)
  | (k, off, n) :: rest, s =>
    let (line, s1) := match hubLoc s ctx (64 * k) with
      | some l => hubLine s (lineLoc l)
      | none => (List.replicate 64 (0#8, false), s)
    let (l, s2) := hubPieces ctx rest s1
    ((line.drop off).take n ++ l, s2)

/-- Bytes of a block's memory read by the hub, each with whether it is poisoned, and the state after. -/
def hubFetch (s : State) (ctx va n : Nat) : List (Byte × Bool) × State := hubPieces ctx (pieces va n) s

/-- The bytes of a read by the hub. -/
def hubRead (s : State) (ctx va n : Nat) : List Byte := (hubFetch s ctx va n).1.map (·.1)

/-- Whether the hub may read or write a block's memory now: no line of it stands in a held quad (R311), and before a write the
registrations can be recalled and the lines sealed (R298, R319). -/
def hubReady (s : State) (write : Bool) (ctx va n : Nat) : Bool :=
  (pieces va n).all (fun p =>
    match hubLoc s ctx (64 * p.1) with
    | some l => !lineHeld s l && (!write || (!recallHeld s l && !sealWaits s l && recallAskable s l))
    | none => true)

/-- Takes the tokens of the writebacks that a write by the hub forces (R296, R298). -/
def hubRecalls (s : State) (ctx va n : Nat) : Bool × State :=
  takeRecalls ((pieces va n).filterMap (fun p => (hubLoc s ctx (64 * p.1)).map lineLoc)) s

/-- Bytes of a block's memory written by the hub; the writes perform one after another. -/
def hubWritePieces (ctx : Nat) : List (Nat × Nat × Nat) → List Byte → State → State
  | [], _, s => s
  | (k, off, n) :: rest, bs, s =>
    let s1 := match hubLoc s ctx (64 * k) with
      | some l =>
        let (_, s0) := nextStamp s
        writeLine s0 none (l.pa / 64 * 64) (runMask off n) (lineOfBytes (List.replicate off 0#8 ++ bs.take n))
      | none => s
    hubWritePieces ctx rest (bs.drop n) s1

def hubWrite (s : State) (ctx va : Nat) (bs : List Byte) : State := hubWritePieces ctx (pieces va bs.length) bs s

/-! The send ring's tokens (R348; log entry 85). -/

/-- The identity under which the lines of a block's send ring wait for tokens, above those of cores and accesses. -/
def sendIdent (ctx : Nat) : Nat := 2 ^ 64 + ctx

/-- The die whose bucket a send takes tokens from: the home of the ring's header line. -/
def sendDie (s : State) (ctx : Nat) : Nat :=
  match locOf s ctx (blkSendq (getBlock s ctx)) with
  | some l => homeOf l.pa % 8
  | none => 0

/-- Whether the lines of a block's send ring wait for tokens. -/
def sendWaits (s : State) (ctx : Nat) : Bool := (getDie s (sendDie s ctx)).waitq.any (fun w => w.core = sendIdent ctx)

/-! Segments (R328). -/

def getSeg (s : State) (n : Nat) : Option Segment := (s.hub.segs.find? (fun e => e.1 = n)).map (·.2)

/-- The segment a block names: a PRIVATE one only for blocks of its worlds. -/
def segOf (s : State) (ctx : Nat) : Option Segment :=
  let b := getBlock s ctx
  (getSeg s (blkSegment b)).filter (fun g => g.shared || g.worlds.contains (blkWorld b))

/-! Replies (R331, R341). -/

/-- The hallmark of a reply body: KMAC256 under HKEY of the block's key slot. -/
def hallmark (s : State) (r : Request) (path : List Nat) (body : List Byte) : List Byte :=
  let b := getBlock s r.ctx
  let hkey := ((s.hub.keys.find? (fun e => e.1 = blkKeySlot b)).map (·.2.hkey)).getD 0
  let measure := ((segOf s r.ctx).map (·.measure)).getD 0
  let route := leBytes (blkSegment b) 8 ++ path.flatMap (fun i => leBytes i 2)
  leBytes (Config.kmac256 hkey
    (leBytes r.ctx 2 ++ leBytes (blkWorld b) 2 ++ leBytes r.rid 8 ++ leBytes measure.toNat 32 ++ leBytes r.digest.toNat 32 ++
      leBytes (Config.shake256 body).toNat 32 ++ leBytes (Config.shake256 route).toNat 32)
    (asciiBytes "RHV-HALLMARK")).toNat 32

/-- The reply to a request, and the state after what it reads: STATUS 0 its result, 1 the busy reply, 2 an error record. A result of
more than 4,000 bytes is an error of code 0x80. -/
def makeReply (s : State) (r : Request) (status code rank : Nat) (path : List Nat) : ReplyDue × State :=
  let err (code rank : Nat) : ReplyDue :=
    let rec_ := leBytes code 1 ++ [0#8] ++ leBytes rank 2 ++ leBytes 0 4
    { req := r, cls := 0x83, status := 2, body := rec_ ++ hallmark s r path rec_, since := s.now }
  if status = 1 then ({ req := r, cls := 0x82, status := 1, body := hallmark s r [] [], since := s.now }, s)
  else if status = 2 then (err code rank, s)
  else
    let va := ringVa (getBlock s r.ctx) r.ix
    let (l, s1) := hubFetch s r.ctx va 4
    let n := leNat (l.map (·.1))
    if 4000 < n then (err 0x80 0, s1)
    else
      let (res, s2) := hubFetch s1 r.ctx (va + 0x40) n
      ({ req := r, cls := 0x81, status := 0, body := res.map (·.1) ++ hallmark s r path (res.map (·.1)), since := s.now }, s2)

/-! Launch records (R284). -/

/-- The number of a block's record `i` in its segment: ROUTE counts from there. -/
def recNo (b : BitVec 2048) (i : Nat) : Nat := blkRoute b / 1024 + i

/-- A record of a block's route. -/
def routeRec (s : State) (ctx i : Nat) : Option (BitVec 8192) :=
  match segOf s ctx with
  | some g => g.recs[recNo (getBlock s ctx) i]?
  | none => none

def recEntry (r : BitVec 8192) : Nat := recField r 0 4 % 8192
def recNext (r : BitVec 8192) : Nat := recField r 4 2
def recDyn (r : BitVec 8192) : Bool := (recField r 4 4).testBit 16
def recSpmax (r : BitVec 8192) : Nat := recField r 8 4
def recRunest (r : BitVec 8192) : Nat := recField r 0xC 4
def recCounts (r : BitVec 8192) : Nat := recField r 0x10 4
def recNearVa (r : BitVec 8192) : Nat := recField r 0x18 8
def recLmask (r : BitVec 8192) : Nat := recField r 0x1E0 2
def recUiv0 (r : BitVec 8192) : Nat := recField r 0x1E2 2
def recFarva (r : BitVec 8192) : Nat := recField r 0x1E8 8

/-- The temporary regions. -/
def recTemps (r : BitVec 8192) : List Temp :=
  (range' 0 (min 16 (natField (recCounts r) 16 5))).map (fun i =>
    let w := recField r (0x20 + 8 * i) 8
    { base := natField w 0 22, len := natField w 22 22, owner := natField w 44 2 })

def recNearLen (r : BitVec 8192) : Nat := ((recTemps r).map (·.len)).foldl (· + ·) 0

/-- Whether two virtual ranges meet, the first a window's row. -/
def windowMeets (w : Window) (va len : Nat) : Bool :=
  (range' 0 w.rows).any (fun i => overlaps (w.vbase + i * w.rowStride) w.rowBytes va len)

/-- The buffers of a record that a window maps, with their VERSION (R241). -/
def mappedVersions (s : State) (r : BitVec 8192) (w : Window) : List (Nat × Nat) :=
  ((recBufs r).filter (fun b => windowMeets w b.2.2.1 b.2.2.2)).map (fun b => (b.1, (getBuf s b.1).version))

/-- The windows of a record, by number. -/
def recWins (s : State) (ctx : Nat) (r : BitVec 8192) : List (Nat × Window) :=
  (range' 0 (min 8 (natField (recCounts r) 8 4))).map (fun i =>
    let f (k : Nat) : Nat := recField r (0xA0 + 40 * i + 8 * k) 8
    let w : Window :=
      { base := f 1, vbase := f 0, rowBytes := natField (f 2) 0 24, rows := natField (f 2) 24 24, rowStride := f 3,
        ro := (f 4).testBit 6, ctx := ctx, byCp := true, versions := [] }
    (natField (f 4) 0 6, { w with versions := mappedVersions s r w }))

/-! Lease sets (R212, R284). -/

/-- Range `i` of a block's lease. -/
def blkLease (b : BitVec 2048) (i : Nat) : PageRange :=
  let w := blkField b (0x80 + 8 * i) 8
  { vpage := natField w 0 27, pages := natField w 27 20 + 1, rw := w.testBit 47 }

/-- The near and far images and the schedule of a record. -/
def recCode (s : State) (ctx i : Nat) : List (Nat × BitVec 256) :=
  match segOf s ctx with
  | some g => nthD g.code (recNo (getBlock s ctx) i) []
  | none => []
def recNear (s : State) (ctx i : Nat) : List Byte :=
  match segOf s ctx with
  | some g => nthD g.near (recNo (getBlock s ctx) i) []
  | none => []
def recFar (s : State) (ctx i : Nat) : List Byte :=
  match segOf s ctx with
  | some g => nthD g.far (recNo (getBlock s ctx) i) []
  | none => []

/-- The lease set of a launch: the ranges of LMASK, the pool descriptor's page, the far image's pages. -/
def leaseSet (s : State) (ctx i : Nat) (r : BitVec 8192) : List PageRange :=
  let b := getBlock s ctx
  let m := recLmask r
  let far := recFar s ctx i
  ((range' 0 (min 16 (blkNlease b))).filter (fun k => m = 0 || m.testBit k)).map (blkLease b) ++
    (if blkPoolva b = 0 then [] else [{ vpage := blkPoolva b / 2097152, pages := 1, rw := false }]) ++
    (if recFarva r = 0 then [] else [{ vpage := recFarva r / 2097152, pages := max 1 (ceilDiv far.length 2097152), rw := false }])

/-- Whether a range of a micro-context names a page of an address space. -/
def rangeNames (s : State) (ctx : Nat) (r : PageRange) (space vp : Nat) : Bool :=
  decide (r.vpage ≤ vp ∧ vp < r.vpage + r.pages) && decide (spaceOf s ctx vp = space)

/-- The translations of a range's pages. -/
def rangeEntries (s : State) (ctx : Nat) (r : PageRange) : List (Nat × BitVec 64) :=
  s.xlat.filter (fun e => rangeNames s ctx r (keySpace e.1) (keyPage e.1))

/-- Whether a range's pages all have a translation. -/
def rangeResident (s : State) (ctx : Nat) (r : PageRange) : Bool :=
  decide (((rangeEntries s ctx r).filter (fun e => leafOk e.2)).length = r.pages)

/-- Whether a page has a translation. -/
def pageResident (s : State) (ctx va : Nat) : Bool := (locOf s ctx va).isSome

/-! What lies behind a lease page (R68, R258, R284, R351). -/

/-- The pool descriptor's bytes (R258). -/
def poolBytes (p : Pool) : List Byte :=
  leBytes p.fmt 1 ++ leBytes p.dsel 1 ++ leBytes (p.groups - 1) 1 ++ leBytes 0 5 ++ leBytes p.dvbase 8 ++ leBytes p.mvbase 8 ++
    leBytes 0 8 ++ p.gstack.flatMap (fun k => leBytes k 1)

/-- Bytes at an offset of a page, as contents. -/
def cellsAt (off : Nat) (bs : List Byte) : List Host.Cell :=
  (bs.zipIdx.filter (fun e => e.1 ≠ memDefault)).map (fun e => (off + e.2, e.1))

/-- The records of a block's route with their indexes. -/
def routeRecs (s : State) (ctx : Nat) : List (Nat × BitVec 8192) :=
  match segOf s ctx with
  | none => []
  | some g => (range' 0 g.recs.length).filterMap (fun i => (routeRec s ctx i).map (fun r => (i, r)))

/-- The far image of a block's route that a page belongs to: the bytes from the page's start. -/
def farPage (s : State) (ctx vp : Nat) : Option (List Byte) :=
  (routeRecs s ctx).findSome? (fun e =>
    let va := recFarva e.2
    let bs := recFar s ctx e.1
    if va ≠ 0 ∧ va ≤ 2097152 * vp ∧ 2097152 * vp < va + 2097152 * max 1 (ceilDiv bs.length 2097152) then
      some ((bs.drop (2097152 * vp - va)).take 2097152)
    else none)

/-- The bytes of near images of a block's route that lie in a page. -/
def nearCells (s : State) (ctx vp : Nat) : List Host.Cell :=
  (routeRecs s ctx).flatMap (fun e =>
    let va := recNearVa e.2
    ((cellsAt va (recNear s ctx e.1)).filter (fun c => c.1 / 2097152 = vp)).map (fun c => (c.1 % 2097152, c.2)))

/-- The versions that the lines of a page are sealed with when it is first brought in: those of the buffers they belong to (R322). -/
def freshVers (s : State) (ctx vp : Nat) : List (Nat × Nat) :=
  if spaceOf s ctx vp ≠ ctx then []
  else
    (blockBufs s ctx).flatMap (fun b =>
      let v := (getBuf s b.1).version
      let lo := max b.2.2.1 (2097152 * vp)
      let hi := min (b.2.2.1 + b.2.2.2) (2097152 * (vp + 1))
      if v = 0 ∨ hi ≤ lo then [] else (range' (lo / 64 - 32768 * vp) ((hi - 1) / 64 - lo / 64 + 1)).map (fun i => (i, v)))

/-- What is brought into a page that was never evicted: the pool descriptor, a far image, the metadata records of free key-value pages
(R260), near images (R284), else zeros (R219). -/
def freshPage (s : State) (ctx vp : Nat) : Evicted :=
  let b := getBlock s ctx
  let of (l : List Host.Cell) : Evicted :=
    { world := blkWorld b, frame := 0, gen := false, bytes := l, vers := freshVers s ctx vp, bad := [] }
  match farPage s ctx vp, poolOf s ctx with
  | some bs, _ => of (cellsAt 0 bs)
  | none, some p =>
    if blkPoolva b ≠ 0 ∧ vp = blkPoolva b / 2097152 then of (cellsAt (blkPoolva b % 2097152) (poolBytes p))
    else if p.inMeta (2097152 * vp) ∧ 0 < p.fmt + 4 * p.dsel then
      of ((range' 0 4096).map (fun n => (512 * n + 4, BitVec.ofNat 8 (p.fmt + 4 * p.dsel))))
    else of (nearCells s ctx vp)
  | none, none => of (nearCells s ctx vp)

/-- What the slow tier holds of a page. -/
def slowPage (s : State) (ctx vp : Nat) : Evicted :=
  match s.edge.drives.find? (fun e => e.1 = pageKey (spaceOf s ctx vp) vp) with
  | some (_, x) => x
  | none => freshPage s ctx vp

/-- Whether a page belongs to a block: to a lease range, the pool descriptor or a far image. -/
def isLeasePage (s : State) (ctx vp : Nat) : Bool :=
  let b := getBlock s ctx
  decide (blkState b ≠ stFree) &&
    ((range' 0 (min 16 (blkNlease b))).any (fun i => let r := blkLease b i; decide (r.vpage ≤ vp ∧ vp < r.vpage + r.pages)) ||
      (decide (blkPoolva b ≠ 0) && decide (vp = blkPoolva b / 2097152)) || (farPage s ctx vp).isSome)

/-- Pieces of a near image read at their addresses: a page in no frame is read as the drives hold it. -/
def imagePieces (ctx : Nat) : List (Nat × Nat × Nat) → State → List (Byte × Bool) × State
  | [], s => ([], s)
  | (k, off, n) :: rest, s =>
    let (here, s1) :=
      if pageResident s ctx (64 * k) then hubFetch s ctx (64 * k + off) n
      else
        let x := slowPage s ctx (k / 32768)
        ((range' (64 * k % 2097152 + off) n).map (fun a => (alGet memDefault x.bytes a, alGet false x.bad (a / 64))), s)
    let (l, s2) := imagePieces ctx rest s1
    (here ++ l, s2)

/-- The near image of a record as the command processor reads it at NEARIMG, each byte with whether it is poisoned, and the state after;
where no page of the block lies there, the sealed image (R68, R284). -/
def imageCells (s : State) (ctx i : Nat) : List (Byte × Bool) × State :=
  match routeRec s ctx i with
  | none => ([], s)
  | some r =>
    if isLeasePage s ctx (recNearVa r / 2097152) then imagePieces ctx (pieces (recNearVa r) (recNearLen r)) s
    else ((recNear s ctx i).map (fun b => (b, false)), s)

/-! Quads and their drain (R292, R317). -/

/-- Whether a quad can carry a gang at all (R14, R333). -/
def quadUp (s : State) (q : Nat) : Bool := !(getQuad s q).withdrawn && !(getDie s (dieOfQuad q)).down

/-- The quads that a stage of binding holds for its gang. -/
def stageQuads : BindStage → List Nat
  | .waiting => []
  | .deferred => []
  | .broadcast q _ _ _ _ => q
  | .stopping q _ => q
  | .waking q _ _ => q
  | .unsealing q _ _ => q
  | .imaging q _ _ => q
  | .starting q _ => q
  | .reserved q => q

/-- Whether another block has been given a quad. -/
def reservedFor (s : State) (ctx q : Nat) : Bool := s.hub.bind.any (fun e => decide (e.1 ≠ ctx) && (stageQuads e.2.stage).contains q)

/-- A quad that a placement of a block may take now. -/
def quadFree (s : State) (ctx q : Nat) : Bool :=
  quadUp s q && (getQuad s q).busy.isNone && !reservedFor s ctx q

/-- Keeps the stash data of a quad only where `keep` holds of the address. -/
def stashKeep (s : State) (q : Nat) (keep : Nat → Bool) : State :=
  let ok (k : Nat) : Bool := decide (k / 4194304 ≠ q) || keep (k % 4194304)
  { s with stash := s.stash.filter (fun e => ok e.1), tags := s.tags.filter (fun e => ok e.1), sbad := s.sbad.filter (fun e => ok e.1) }

/-- Whether an address lies in a window that the command processor installed. -/
def inKept (x : Quad) (a : Nat) : Bool := x.windows.any (fun e => e.2.byCp && decide (e.2.base ≤ a ∧ a < e.2.base + windowBytes e.2))

/-- A core after its quad's drain: instruction memory and load epoch stay. DESIGN CHOICE (log entry 99): instruction memory is zeroised when
the world leaves the quad (R317), not at each drain (R207). -/
def drainedCore (x : Core) : Core :=
  { Core.reset with imem := x.imem, covered := x.covered, epoch := x.epoch, loadedFor := x.loadedFor }

/-- The windows of a quad that a test picks, written back and removed; the writebacks take what tokens there are (R296). -/
def dropWindows (s : State) (q : Nat) (pick : Window → Bool) : State :=
  ((getQuad s q).windows.filter (fun e => pick e.2)).foldl
    (fun s e => dropWindow (chargeTokens s (4 * q) (dirtyChunks s q e.2).length) (4 * q) q e.1) s

/-- Drains a quad (R317): the core state, temporary regions and unkept chunks are zeroised; it takes 1,600 periods. -/
def drainQuad (s : State) (q : Nat) : State :=
  let s1 := (range' (4 * q) 4).foldl (fun s c => modCore s c drainedCore) s
  let s2 := stashKeep s1 q (inKept (getQuad s1 q))
  modQuad s2 q (fun x =>
    { x with temps := [], streams := [[], [], [], []], pops := [], latches := [], busy := none, drainEnd := s.now + 1600,
             idleSince := s.now, power := .clockGated, hold := none })

/-- The world leaves a quad (R317): every window goes, the whole stash and the instruction memory are zeroised. -/
def leaveWorld (s : State) (q : Nat) : State :=
  let s1 := dropWindows s q (fun _ => true)
  let s2 := stashKeep s1 q (fun _ => false)
  let s3 := { s2 with chunks := s2.chunks.filter (fun e => decide (e.1 / 65536 ≠ q)) }
  let s4 := (range' (4 * q) 4).foldl (fun s c => modCore s c (fun x => { x with imem := [], covered := [], loadedFor := none })) s3
  modQuad s4 q (fun x => { x with world := none, streams := [[], [], [], []] })

/-- A quad is left by its world and power-gated (R292). -/
def gateQuad (s : State) (q : Nat) : State := modQuad (leaveWorld s q) q (fun x => { x with power := .gated })

/-- The periods of drain that remain after a number of periods. -/
def drainLeft (s : State) (q ahead : Nat) : Nat := (getQuad s q).drainEnd - (s.now + ahead)

/-! Schedules (R213, R287, R325). -/

/-- A bundle from its STALL, six move slots and L0; the address slots are empty. -/
def makeBundle (stall : Nat) (l0 : Nat) (slots : List Instr) : BitVec 256 :=
  let words := (slots.map (fun i => (encode i).getD 0xF00000)) ++ List.replicate (8 - slots.length) 0xF00000
  BitVec.ofNat 256 (stall * 4096 + (words.zipIdx.map (fun e => e.1 * 2 ^ (16 + 24 * e.2))).foldl (· + ·) 0 + l0 * 2 ^ 208)

/-- The standard handler for HREV at 8,168 to 8,191 (R213). -/
def standardHandler : List (Nat × BitVec 256) :=
  [(8168, makeBundle 1 0 [.seqCsrr .always (.imm 0x23)]),
   (8169, makeBundle 0 0 [.mov .always (.res .seqR) (.op .saO), .saAnd .always (.imm 15) false]),
   (8170, makeBundle 0 8176 [.mov .always (.res .saR) (.op .saO), .saAdd .always .l0 false]),
   (8171, makeBundle 0 0 [.seqJmp .always (.res .saR)])] ++
    (List.finRange 16).map (fun k => (8176 + k.val, makeBundle 11 0 [.xlHk .always (.h k) k, .seqReti .always (.imm 0)]))

/-- The bundles that the measured loader writes for a record. -/
def loadCode (s : State) (ctx i : Nat) (r : BitVec 8192) : List (Nat × BitVec 256) :=
  recCode s ctx i ++ (if recUiv0 r = 0xFFFF then standardHandler else [])

/-- The measurement of a schedule: SHAKE256 over its bundles with their addresses (R325). -/
def codeMeasure (code : List (Nat × BitVec 256)) : BitVec 256 :=
  Config.shake256 (code.flatMap (fun e => leBytes e.1 2 ++ leBytes e.2.toNat 32))

/-- Whether the measurement of a record's schedule is the one recorded at sealing (R325). -/
def measuredRight (s : State) (ctx i : Nat) : Bool :=
  match segOf s ctx with
  | some g => decide (codeMeasure (recCode s ctx i) = nthD g.measures (recNo (getBlock s ctx) i) 0)
  | none => true

/-- Loads a schedule into a core (R325). -/
def loadCore (world seg rec_ : Nat) (code : List (Nat × BitVec 256)) (x : Core) : Core :=
  { x with imem := code.foldl (fun m e => alPut m e.1 e.2) [], covered := code.map (fun e => (e.1, 1)), epoch := x.epoch + 1,
           loadedFor := some (world, seg, rec_) }

/-- Whether every core of a quad could be loaded again: its epoch would not wrap (R325). -/
def loadable (s : State) (q : Nat) : Bool := (range' (4 * q) 4).all (fun c => decide ((getCore s c).epoch ≠ BitVec.allOnes 32))

/-- Whether a core's instruction memory holds a record's schedule for a world: the record itself, or one with the same code. -/
def coreWarm (s : State) (world ctx i : Nat) (r : BitVec 8192) (c : Nat) : Bool :=
  match (getCore s c).loadedFor with
  | none => false
  | some (w, seg, n) =>
    let b := getBlock s ctx
    decide (w = world) &&
      (decide (seg = blkSegment b ∧ n = recNo b i) ||
        match getSeg s seg with
        | some g =>
          decide (nthD g.code n [] = recCode s ctx i) &&
            decide (((nthD g.recs n 0#8192) |> recUiv0) = 0xFFFF ↔ recUiv0 r = 0xFFFF)
        | none => false)

/-- A quad is warm for the record being bound (R287). -/
def quadWarm (s : State) (world ctx i : Nat) (r : BitVec 8192) (q : Nat) : Bool :=
  (range' (4 * q) 4).all (coreWarm s world ctx i r)

/-! The staging store (R287, R299). -/

/-- Whether a staged image is that of a record of a block. -/
def stagedFor (s : State) (ctx i : Nat) (x : Staged) : Bool :=
  let b := getBlock s ctx
  decide (x.ctx = ctx ∧ x.seg = blkSegment b ∧ x.rec_ = recNo b i)

/-- Whether a near image is staged (R287). -/
def imageStaged (s : State) (ctx i : Nat) : Bool := s.hub.staged.any (stagedFor s ctx i)

/-- The near image that a launch takes: the staged one. -/
def launchImage (s : State) (ctx i : Nat) : List (Byte × Bool) :=
  match s.hub.staged.find? (stagedFor s ctx i) with
  | some x => x.bytes
  | none => (imageCells s ctx i).1

/-- Bytes of the staging store (R299). -/
def stagingBytes : Nat := 16777216

def stagedTotal (l : List Staged) : Nat := (l.map (fun x => x.bytes.length)).foldl (· + ·) 0

/-- The staged image that is evicted first: of the block of lowest priority, the oldest of them. -/
def firstEvicted (s : State) (l : List Staged) : Option Staged :=
  l.foldl (fun acc x => match acc with
    | none => some x
    | some y => if curPrio (getBlock s x.ctx) < curPrio (getBlock s y.ctx) then some x else some y) none

/-- Makes room for so many bytes. -/
def evictStaged (s : State) (need : Nat) : Nat → List Staged → List Staged
  | 0, l => l
  | n + 1, l =>
    if stagedTotal l + need ≤ stagingBytes then l
    else match firstEvicted s l with | some x => evictStaged s need n (l.erase x) | none => l

/-- Stages the near image of a record. -/
def stageImage (s : State) (ctx i : Nat) : State :=
  let b := getBlock s ctx
  let (bs, s1) := imageCells s ctx i
  let x : Staged := { ctx := ctx, seg := blkSegment b, rec_ := recNo b i, bytes := bs }
  let l := s1.hub.staged.filter (fun y => !stagedFor s1 ctx i y)
  { s1 with hub := { s1.hub with staged := evictStaged s1 x.bytes.length l.length l ++ [x] } }

/-- Periods of the two cold steps of R287. -/
def coldSchedule (s : State) (ctx i : Nat) : Nat := 2048 + ceilDiv (recCode s ctx i).length 4
def coldImage (s : State) (ctx i : Nat) (r : BitVec 8192) : Nat :=
  if imageStaged s ctx i ∨ recNearLen r = 0 then 0 else 512 + ceilDiv (recNearLen r) 512

/-! Saves (R290). -/

/-- Bytes saved for a quad of a gang. -/
def savedBytes (s : State) (g : Gang) (q : Nat) : Nat :=
  let acchw (c : Nat) : Nat :=
    match g.image with
    | some m => match m.cores.find? (fun e => e.1 = c) with | some (_, x) => x.arch.csr.acchw.toNat | none => 0
    | none => (getCore s c).arch.csr.acchw.toNat
  65536 + 4 * 24576 + ((range' (4 * q) 4).map (fun c => 256 * acchw c)).foldl (· + ·) 0 + recNearLen g.record

/-- The per-die term of the save time over the quads of gangs. -/
def saveTerm (s : State) (gs : List Gang) : Nat :=
  let all := gs.flatMap (fun g => g.quads.map (fun q => (dieOfQuad q, savedBytes s g q)))
  ((range' 0 8).map (fun d =>
    let l := (all.filter (fun e => e.1 = d)).map (·.2)
    max (ceilDiv (l.foldl max 0) 512) (ceilDiv (l.foldl (· + ·) 0) 8192))).foldl max 0

/-! Entry of a task (R84, R283). -/

/-- The core section of a task at its entry bundle. -/
def entryArch (b : BitVec 2048) (ctx ix rank : Nat) (r : BitVec 8192) : CoreArch :=
  let a := CoreArch.reset
  let put (a : CoreArch) (i : Fin 32) (v : Nat) : CoreArch := writeG a i (cleanW (BitVec.ofNat 64 v)).reg
  let a1 := put (put (put a 0 (ringVa b ix)) 1 rank) 2 (blkPoolva b)
  { a1 with
    seq := { a1.seq with pc := BitVec.ofNat 13 (recEntry r), last := BitVec.ofNat 13 (recEntry r) },
    csr := { a1.csr with uiv := if recUiv0 r = 0xFFFF then 8168 else BitVec.ofNat 13 (recUiv0 r), ctx := BitVec.ofNat 14 ctx,
                         world := blkWorld b, prio := BitVec.ofNat 3 (curPrio b) } }

/-- Writes a near image into the temporary regions of a quad, its poisoned bytes poisoned (R68, R234, R286). -/
def loadNear (q : Nat) : List Temp → List (Byte × Bool) → State → State
  | [], _, s => s
  | t :: rest, bs, s =>
    let s1 := stashWrite s q t.base ((bs.take t.len).map (·.1) ++ List.replicate (t.len - bs.length) 0#8)
    let s2 := ((bs.take t.len).zipIdx.filter (fun e => e.1.2)).foldl (fun s e => stashPoison s q (t.base + e.2) 1) s1
    loadNear q rest (bs.drop t.len) s2

/-- Whether a kept window is the record's window of its number. -/
def sameWindow (a b : Window) : Bool :=
  decide (a.base = b.base ∧ a.vbase = b.vbase ∧ a.rowBytes = b.rowBytes ∧ a.rows = b.rows ∧ a.rowStride = b.rowStride ∧ a.ro = b.ro ∧
    a.ctx = b.ctx ∧ a.byCp = b.byCp)

/-- Installs the windows of a record on a quad: a window kept from the launch before stays, and its C chunks become I when a
buffer it maps that the launch reads has another VERSION than recorded (R241). -/
def installWindows (s : State) (ctx q : Nat) (r : BitVec 8192) : State :=
  let wins := recWins s ctx r
  let keep (e : Nat × Window) : Bool := wins.any (fun x => decide (x.1 = e.1) && sameWindow x.2 e.2)
  let s1 := ((getQuad s q).windows.filter (fun e => !keep e)).foldl (fun s e => dropWindow s (4 * q) q e.1) s
  wins.foldl (fun s e =>
    match (getQuad s q).windows.find? (fun x => x.1 = e.1) with
    | some (_, old) =>
      let reads := ((recBufs r).filter (fun b => b.2.1 ≠ 2)).map (·.1)
      let stale := e.2.versions.any (fun v => reads.contains v.1 && !old.versions.contains v)
      if stale then modQuad (invalidateWindow s q old) q (fun x => { x with windows := alPut x.windows e.1 e.2 }) else s
    | none => modQuad s q (fun x => { x with windows := alPut x.windows e.1 e.2 })) s1

/-- Sets a member at an implicit checkpoint (R308). -/
def bindCore (ctx period : Nat) (a : CoreArch) (rolls : Nat) (ckaddr : BAddr) (x : Core) : Core :=
  { x with status := .bound, stoppedAt := 0, gang := some ctx, arch := a, ck := a, freezeDog := 0, waitDog := 0, droopHeld := 0, mark := none,
           jn := { Journal.reset with ckaddr := ckaddr, rolls := rolls, periodAt := period } }

end Sys2Proof.Machine
end

