-- ==== Sys2Proof/Machine/Gang.lean ====
section
/-! DEFINITION. The life of a gang after its launch: barrier releases, the pre-emption stop and the save, the resumption, the
completion or end with its reply, and rollbacks (R27, R36, R42, R101, R156, R174, R206, R240, R285, R307, R310 to R315, R359). -/

namespace Sys2Proof.Machine

/-- BARRIER_RELEASE: a phase of a channel is released once its delay has passed (R38, R42). -/
def execBarrierRelease (x : ChanId) (s : State) : Out :=
  match s.hub.chans.find? (fun c => c.ident = x) with
  | some c => .next (if releaseDue s c then releasePhase s x else s)
  | none => .next s

/-! Stopping (R36, R174, R242, R315). -/

/-- Whether a member has come to rest. -/
def memberRests (x : Core) : Bool := match x.status with | .stopped | .completed _ => true | _ => false

/-- Whether a queue holds nothing that has to finish before a save: no started command of Q2 or Q4, no command of the others whose
accesses are done or under way. -/
def queueRests (k : Fin 5) (q : EngQueue) : Bool :=
  q.cmds.all (fun c => if k.val = 2 ∨ k.val = 4 then !c.started else c.done.isNone && c.waitFor.isEmpty)

/-- Whether a member's accesses are done as far as a save needs. -/
def coreRests (a : CoreArch) : Bool :=
  a.order.sbuf.isEmpty && a.order.released.isEmpty && a.order.nearq.isEmpty && a.order.far.all farArrived &&
    (List.finRange 5).all (fun k => queueRests k (vget a.q k))

/-- Writes to peers under way for a core. -/
def sendsPending (s : State) (c : Nat) : Bool := s.hub.xfers.any (fun x => decide (x.core = c ∧ x.kind ≠ 0 ∧ x.kind ≠ 1 ∧ x.kind ≠ 4))

/-- Whether a quad has neither pops of this period nor events on their way (R103, R142). -/
def quadRests (s : State) (q : Nat) : Bool := (getQuad s q).pops.isEmpty && (getQuad s q).latches.isEmpty

/-- Whether a gang that stops can be saved. -/
def savable (s : State) (g : Gang) : Bool :=
  let cs := gangCores g
  decide (g.st = .stopping) && cs.all (fun c => memberRests (getCore s c)) && cs.any (fun c => decide ((getCore s c).status = .stopped)) &&
    cs.all (fun c => coreRests (getCore s c).arch && !sendsPending s c) && g.quads.all (quadRests s)

/-- The D chunks of a quad's windows: the lines that their writeback moves. -/
def quadDirty (s : State) (q : Nat) : Nat := ((getQuad s q).windows.map (fun e => (dirtyChunks s q e.2).length)).foldl (· + ·) 0

/-- The identity under which the writeback of a quad's windows waits for its tokens. -/
def flushIdent (q : Nat) : Nat := 2 ^ 112 + q

/-- Takes the tokens of the writebacks of the quads' windows (R296, R298). -/
def takeFlush : List Nat → State → Bool × State
  | [], s => (true, s)
  | q :: rest, s =>
    match (if quadDirty s q = 0 then (true, s) else takeTokens s (4 * q) (flushIdent q) (quadDirty s q)) with
    | (false, s1) => (false, s1)
    | (true, s1) =>
      match takeFlush rest s1 with
      | (true, s2) => (true, s2)
      | (false, s2) => (false, modDie s2 (dieOfQuad q) (fun d => { d with granted := flushIdent q :: d.granted }))

/-- Whether the windows of a gang can be written back: no chunk waits for a rekey (R319), and the tokens can be asked for. -/
def flushAskable (s : State) (g : Gang) : Bool :=
  g.quads.all (fun q =>
    let d := getDie s (dieOfQuad q)
    (getQuad s q).windows.all (fun e => !flushSeals s q e.2) &&
      (d.granted.contains (flushIdent q) || !d.waitq.any (fun w => w.ident = flushIdent q)))

/-- Writes back the D chunks of a gang's windows once their tokens are there: whether it is done. -/
def flushGang (s : State) (g : Gang) : Bool × State :=
  if !flushAskable s g then (false, s)
  else
    match takeFlush g.quads s with
    | (false, s1) => (false, s1)
    | (true, s1) =>
      (true, g.quads.foldl (fun s q => (getQuad s q).windows.foldl (fun s e => flushWindow s (4 * q) q e.2) s) s1)

/-- The temporary regions of a quad as a span test. -/
def inTemps (ts : List Temp) (a : Nat) : Bool := ts.any (fun t => decide (t.base ≤ a ∧ a < t.base + t.len))

/-- Whether a stash key lies in a temporary region of one of the quads. -/
def keyInTemps (s : State) (quads : List Nat) (k : Nat) : Bool :=
  quads.contains (k / 4194304) && inTemps (getQuad s (k / 4194304)).temps (k % 4194304)

/-- Whether a channel is one of a gang's quad or die channels, whose state is saved with it (R36). -/
def savedChan (g : Gang) (x : Chan) : Bool := decide (x.ident.ctx = g.ctx ∧ x.ident.scope ≤ 3)

/-- The gang header of an image (R315). -/
def makeHeader (s : State) (g : Gang) : ImgHeader :=
  { format := 1, ctx := g.ctx, world := g.world, shape := blkField (getBlock s g.ctx) 0x19 1, quads := g.quads,
    chans := s.hub.chans.filter (savedChan g), duty := g.duty, yields := (gangCores g).map (fun c => (c, (getCore s c).arch.seq.yielded)) }

/-- The context image of a gang, under the version of this save (R315). -/
def makeImage (s : State) (g : Gang) : Image :=
  let inT (k : Nat) : Bool := keyInTemps s g.quads k
  { version := g.saves + 1, header := makeHeader s g,
    cores := (gangCores g).map (fun c =>
      let x := getCore s c
      (c, { status := x.status, arch := x.arch, rolls := x.jn.rolls, ckaddr := x.jn.ckaddr })),
    bytes := s.stash.filter (fun e => inT e.1), bad := s.sbad.filter (fun e => inT e.1), tags := s.tags.filter (fun e => inT e.1),
    streams := g.quads.map (fun q => (q, (getQuad s q).streams)), windows := g.quads.map (fun q => (q, (getQuad s q).windows)) }

/-- A quad left by a stopped gang: free, its core state gone to the image. -/
def vacateQuad (s : State) (q : Nat) : State :=
  let s1 := (dropWindows s q (fun _ => true))
  let s2 := (range' (4 * q) 4).foldl (fun s c => modCore s c drainedCore) s1
  modQuad (stashKeep s2 q (fun _ => false)) q (fun x =>
    { x with temps := [], streams := [[], [], [], []], pops := [], latches := [], busy := none, idleSince := s.now, hold := none })

/-- Bindings that wait for quads are placed again (R288). -/
def wakeDeferred (s : State) : State :=
  { s with hub := { s.hub with bind := s.hub.bind.map (fun e =>
      (e.1, if e.2.stage = .deferred then { e.2 with stage := .waiting } else e.2)) } }

def setBind (s : State) (ctx : Nat) (b : Binding) : State := { s with hub := { s.hub with bind := alPut s.hub.bind ctx b } }
def getBind (s : State) (ctx : Nat) : Option Binding := (s.hub.bind.find? (fun e => e.1 = ctx)).map (·.2)
def delBind (s : State) (ctx : Nat) : State := { s with hub := { s.hub with bind := alDel s.hub.bind ctx } }

/-- Remaps a quad to its spare site (R14, R313): the site's instruction memories hold nothing. The cores' load epochs go on (R325). -/
def remapQuad (s : State) (q site : Nat) : State :=
  let s1 := (range' (4 * q) 4).foldl (fun s c => modCore s c (fun x => { x with imem := [], covered := [], loadedFor := none })) s
  modQuad s1 q (fun x => { x with site := site })

/-- Remaps the quads of a gang that wait for it. -/
def remapAll (s : State) (g : Gang) : State := g.remap.foldl (fun s e => remapQuad s e.1 e.2) s

/-- Saves a gang whose members rest: the image, whose lines are sealed (R319), the windows written back and removed, the quads released,
its resumption waiting (R36, R289, R313, R315). -/
def saveGang (s : State) (g : Gang) : State :=
  let img := makeImage s g
  let term := saveTerm s [g]
  let last := ((gangCores g).map (fun c => (getCore s c).stoppedAt)).foldl max 0
  let s1 := g.quads.foldl vacateQuad s
  let g1 := { g with st := .stopped, stoppedAt := last, image := some img, saves := g.saves + 1, remap := [] }
  let lines := (g.quads.map (fun q => ceilDiv (savedBytes s g q) 64)).foldl (· + ·) 64
  let s2 := setGang (countSeals { s1 with hub := { s1.hub with chans := s1.hub.chans.filter (fun x => !savedChan g x) } } g.world lines) g1
  let b : Binding :=
    { visible := s.now, stage := .waiting, ix := g.ix, recIx := g.recIx, path := g.path, launch := g.launch, resume := true }
  if g.remap.isEmpty then wakeDeferred (setBind s2 g.ctx b)
  else
    wakeDeferred (setBind (remapAll s2 g) g.ctx
      { b with stage := .reserved g.quads, visible := max s.now (last + 64 + term) + 256 * g.remap.length })

/-- Saves the gang of a core when it can be saved: D chunks are written back first, as their tokens come, to peers by transfers that are
awaited. -/
def trySave (s : State) (ctx : Nat) : State :=
  match getGang s ctx with
  | none => s
  | some g =>
    if savable s g then
      match flushGang s g with
      | (false, s1) => s1
      | (true, s1) => if (gangCores g).any (sendsPending s1) then s1 else saveGang s1 g
    else s

/-- PREEMPTION_STOP: a marked member stops at a safe point or inside a wait, its stores released; when the last has stopped and its
accesses are done the gang is saved (R35, R36, R242). The yield flag clears (R107); a core that rolls back takes no event (R311). -/
def execPreemptionStop (c : Nat) (s : State) : Out :=
  let x := getCore s c
  let ctx := x.gang.getD 0
  if x.status = .bound ∧ x.mark.isSome ∧ x.rerun.isNone ∧ (atSafePoint x.arch ∨ x.arch.seq.wait.isSome) then
    let s1 := modCore (releaseStores s c) c (fun x =>
      { x with status := .stopped, stoppedAt := s.now, mark := none, freezeDog := 0, waitDog := 0,
               arch := { x.arch with seq := { x.arch.seq with yielded := false } } })
    .next (trySave s1 ctx)
  else if x.status = .stopped then .next (trySave s ctx)
  else .next s

/-- Marks a gang's pre-emption pending on every member (R36, R289, R357). -/
def markGang (s : State) (g : Gang) : State :=
  let s1 := (gangCores g).foldl (fun s c =>
    modCore s c (fun x => if x.status = .bound then { x with mark := some { periods := 0 } } else x)) s
  setState (setGang s1 { g with st := .stopping }) g.ctx stStopped

/-! Ending gangs from outside (R300, R307). -/

/-- Ends a gang with a cause that names no member: running, stopped or resuming. -/
def endGangAll (s : State) (g : Gang) (cause : Nat) : State :=
  let s1 := (gangCores g).foldl (fun s c =>
    if (getCore s c).gang = some g.ctx ∧ isLive (getCore s c) then endMember s c cause else s) s
  let s2 := { s1 with hub := { s1.hub with chans := s1.hub.chans.map (fun x =>
    if x.ident.ctx = g.ctx then { x with parts := [] } else x) } }
  let s3 := match g.image with
    | some m =>
      { s2 with hub := { s2.hub with unsettled := s2.hub.unsettled ++ m.cores.flatMap (fun e =>
          ((vget e.2.arch.q 2).cmds.filter (fun x => decide (x.op = .sattn))).map (fun x => (e.1, x.block))) } }
    | none => s2
  delBind (setGang s3 { g with st := .finishing, image := none, cause := match g.cause with | some k => some k | none => some (cause, 0) }) g.ctx

/-! Resumption (R27, R156, R174, R315, R359). -/

/-- Places a stopped gang on its quads: the steps of R359 begin. -/
def startResume (s : State) (g : Gang) : State :=
  let img := g.image
  let cores := match img with | some m => m.cores | none => []
  let reload (x : SavedCore) : Nat :=
    let one (w : WeightBuf) : Nat := if w.loaded then (if w.wfmt = 3 then 128 else 64) else 0
    one x.arch.anv.shadow + one x.arch.anv.active
  let anv := (cores.map (fun e => reload e.2)).foldl max 0
  let at_ := s.now + coldSchedule s g.ctx g.recIx + 64 + saveTerm s [g] + anv
  let s1 := g.quads.foldl (fun s q =>
    let s0 := if (getQuad s q).world = some g.world then s else leaveWorld s q
    modQuad s0 q (fun x => { x with busy := some g.ctx, world := some g.world, power := .awake })) s
  delBind (setGang s1 { g with st := .resuming at_ }) g.ctx

/-- A preparation cycle after a restore counts as four or more cycles back (R95). -/
def longPrep : Prep → Prep
  | .never => .never
  | _ => .long

def longSteers {n : Nat} (v : Vector Steer n) : Vector Steer n := v.map (fun x => { x with prep := longPrep x.prep })

/-- The anvil after a restore: rows below `acchw` with the union of the saved rows' taint, those lost before among them, the others lost
(R155, R315). -/
def restoreAnvil (v : Anvil) (acchw base : Nat) : Anvil :=
  let below := v.rows.filter (fun e => decide (e.1 < acchw))
  let union : TSet := below.foldl (fun t e => t ||| e.2.t) 0
  let rows := if union = 0 then below else (range' 0 acchw).map (fun r => (r, { accRow v r with t := union }))
  { v with rows := rows, lost := loseRows v acchw base,
           queue := v.queue.map (fun o => { o with got := [], ready := false, pre := [] }) }

/-- The commands of a queue after a restore: one that had not done its accesses goes on from its next element; a collective
keeps its arrival and its source (R174). -/
def restoreQueue (q : EngQueue) : EngQueue :=
  { q with cmds := q.cmds.map (fun c => if isColl c.op then c else { c with started := false, fetched := [], filled := [], waitFor := [] }) }

/-- A saved core section as it is restored: every fetch buffer is refilled (R95), the yield flag clear (R107). -/
def restoreArch (prio base : Nat) (a : CoreArch) : CoreArch :=
  { a with regs := { a.regs with s := longSteers a.regs.s },
           seq := { a.seq with calls := a.seq.calls.map (fun c => { c with at_ := longPrep c.at_ }),
                               shadow := { a.seq.shadow with s := longSteers a.seq.shadow.s }, fetchWait := 0, yielded := false },
           csr := { a.csr with prio := BitVec.ofNat 3 prio }, anv := restoreAnvil a.anv a.csr.acchw.toNat base,
           q := a.q.map restoreQueue }

/-- Reloads a weight buffer from its recorded sources. -/
def reloadBuf (x : EngRun) (w : WeightBuf) : WeightBuf × EngRun :=
  if w.loaded then
    let f := w.wfmt.toNat
    let (tile, b1, x1) := engNearRead x (quadOf x.core) w.waddr.toNat (if f = 3 then 8192 else 4096)
    let (sc, b2, x2) := if f = 3 then ([], false, x1) else engNearRead x1 (quadOf x1.core) w.wsaddr.toNat (4 * depthOf f)
    ({ w with tile := bvOfBytes 65536 tile, scales := bvOfBytes 4096 sc, poison := b1 || b2 }, x2)
  else ({ WeightBuf.reset with loaded := false }, x)

/-- Reloads the buffers of a core, the shadow buffer first. -/
def reloadCore (x : EngRun) (c : Nat) : EngRun :=
  let v := (getCore x.st c).arch.anv
  let (sh, x1) := reloadBuf { x with core := c } v.shadow
  let (ac, x2) := reloadBuf x1 v.active
  { x2 with st := modAnvOf x2.st c (fun v => { v with shadow := sh, active := ac }) }

/-- Restores the quads and members of a gang from its image, every chunk of its windows in state I (R206); its members stand until the
gang runs. -/
def restoreGang (s : State) (g : Gang) (m : Image) : State :=
  let b := getBlock s g.ctx
  let code := loadCode s g.ctx g.recIx g.record
  let s1 := g.quads.foldl (fun s q =>
    let wins := ((m.windows.find? (fun e => e.1 = q)).map (·.2)).getD []
    let streams := ((m.streams.find? (fun e => e.1 = q)).map (·.2)).getD [[], [], [], []]
    let kept := dropWindows s q (fun _ => true)
    let clear := { kept with chunks := kept.chunks.filter (fun e => decide (e.1 / 65536 ≠ q)) }
    let s0 := (range' (4 * q) 4).foldl
      (fun s c => modCore s c (loadCore g.world (blkSegment b) (recNo b g.recIx) code)) (stashKeep clear q (fun _ => false))
    modQuad s0 q (fun x => { x with temps := recTemps g.record, windows := wins, streams := streams, power := .awake })) s
  let s2 := { s1 with hub := { s1.hub with chans := s1.hub.chans ++ m.header.chans },
                      stash := m.bytes.foldl (fun l e => memWrite l e.1 e.2) s1.stash,
                      sbad := m.bad.foldl (fun l e => alPut l e.1 e.2) s1.sbad,
                      tags := m.tags.foldl (fun l e => alPut l e.1 e.2) s1.tags }
  m.cores.foldl (fun s e =>
    let a := restoreArch (curPrio b) s.freeCtr e.2.arch
    let bound (x : Core) : Core := bindCore g.ctx s.now a e.2.rolls e.2.ckaddr x
    { modCore s e.1 (fun x => match e.2.status with
        | .completed k => { bound x with status := .completed k }
        | _ => { bound x with status := .stopped }) with freeCtr := s.freeCtr + 12288 }) s2

/-- The members run, each from an implicit checkpoint of its restored state (R308). -/
def runMembers (s : State) (g : Gang) : State :=
  (gangCores g).foldl (fun s c => modCore s c (fun x =>
    { x with status := if x.status = .stopped then .bound else x.status, ck := x.arch, jn := { x.jn with periodAt := s.now } })) s

/-- Whether the head of a core's collective queue had its phase released while the gang was stopped and its result is not yet written,
its writes to peers included (R174). -/
def resultHeld (s : State) (c : Nat) : Bool :=
  match (coreQueue s c 3).cmds with
  | cmd :: _ => isColl cmd.op && cmd.started && (if cmd.done.isSome then !cmd.waitFor.isEmpty else (collOutcome s c cmd).isSome)
  | [] => false

/-- Forms the result that a core's collective held while its gang was stopped (R174). -/
def formHeld (s : State) (c : Nat) : State :=
  match (coreQueue s c 3).cmds with
  | cmd :: _ => if resultHeld s c && cmd.done.isNone && cmd.waitFor.isEmpty then formResult s c 3 cmd else s
  | [] => s

/-- The last of the steps of R359 for a restored gang: the anvil buffers are reloaded, the fills of peers' lines awaited, held results are
written (R174), and then every member runs. What has still to be awaited is looked at again in the next period. -/
def finishResume (s : State) (g : Gang) (reloaded : Bool) : State :=
  let core := 4 * nthD g.quads 0 0
  let x := (if reloaded then [] else gangCores g).foldl reloadCore (EngRun.start s core 0 [])
  if x.held then
    setGang (x.fills.foldl (startEngFill core) (x.recalls.foldl (fun s l => recallPaid s core l) s)) { g with st := .restored false (s.now + 1) }
  else
    let s1 := (gangCores g).foldl formHeld x.st
    if (gangCores g).any (resultHeld s1) then setGang s1 { g with st := .restored true (s.now + 1) }
    else
      let s2 := (gangCores g).foldl (fun s c => serveAnvil c s) (setGang s1 { g with st := .running })
      addTodo (setState (runMembers s2 g) g.ctx stRunning) (gangCores g)

/-- GANG_RESUME: once the steps of R359 have run, every member issues its first restored bundle in one period. An image that fails its
check, or is not the latest, is not restored and the gang ends (R315); one whose schedule is not measured right ends with an error reply
of code 0x82 (R325, R341). -/
def execGangResume (r : LoadCheck) (s : State) : Out :=
  let ctx := r.ctx
  match getGang s ctx with
  | none => .next s
  | some g =>
    match g.st, g.image with
    | .resuming t, some m =>
      if t ≤ s.now then
        if !measuredRight s ctx g.recIx then .next (endGangAll s g 0x82)
        else if !r.intact || decide (m.version ≠ g.saves) then .next (endGangAll s g cUncorrectable)
        else
          let g1 := { g with st := .restored false s.now, image := none }
          .next (finishResume (setGang (restoreGang s g m) g1) g1 false)
      else .next s
    | .restored reloaded t, _ => .next (if t ≤ s.now then finishResume s g reloaded else s)
    | _, _ => .next s

/-! The end of a request (R285, R291, R341). -/

def reqOf (s : State) (ctx ix : Nat) : Option Request := s.hub.reqs.find? (fun r => decide (r.ctx = ctx ∧ r.ix = ix))

/-- The binding of a request that placement sees from a period on. -/
def newBinding (ix visible : Nat) : Binding :=
  { visible := visible, stage := .waiting, ix := ix, recIx := 0, path := [], launch := 0, resume := false }

/-- After a request has left its ring: the next one of the block is bound, or the ring is empty. A HALTED block stays so. -/
def nextRequest (s : State) (ctx : Nat) : State :=
  let b := getBlock s ctx
  if blkState b = stHalted ∨ blkState b = stFree then delBind s ctx
  else if blkQhead b = blkQtail b then setState (delBind s ctx) ctx stIdle
  else setBind (setState s ctx stReady) ctx (newBinding (blkQhead b) s.now)

/-- Ends a request: its reply is decided, AGED is cleared, an error reply counted. -/
def endRequest (s : State) (ctx ix status code rank : Nat) (path : List Nat) : State :=
  let s1 := setBlock s ctx (setBlkAged (getBlock s ctx) false)
  let s2 := match reqOf s1 ctx ix with
    | some r =>
      let (d, s0) := makeReply s1 r status code rank path
      let t := { s0 with hub := { s0.hub with reqs := s0.hub.reqs.erase r, replies := s0.hub.replies ++ [d] } }
      if d.status = 2 then bumpBlk t ctx 0x58 4 else t
    | none => s1
  nextRequest s2 ctx

/-! Completion and end (R206, R240, R285, R307, R317). -/

/-- Whether a member has completed or ended, and its writes, atomics and commands are done. -/
def memberDone (s : State) (c : Nat) : Bool :=
  let x := getCore s c
  (match x.status with | .completed _ | .ended _ | .idle => true | _ => false) && x.arch.order.released.isEmpty && x.arch.order.nearq.isEmpty &&
    x.arch.order.far.isEmpty &&
    (List.finRange 5).all (fun k => (vget x.arch.q k).cmds.isEmpty) && !sendsPending s c

/-- Whether the result of a gang's request can be read now (R311, R341). -/
def resultReady (s : State) (g : Gang) : Bool := hubReady s false g.ctx (ringVa (getBlock s g.ctx) g.ix) 4096

/-- Whether a gang is complete for ordering, but for its D chunks, and the result of its request can be read. -/
def gangDone (s : State) (g : Gang) : Bool :=
  resultReady s g && match g.st with
  | .running | .stopping => (gangCores g).all (memberDone s)
  | .finishing => (gangCores g).all (fun c => decide ((getCore s c).gang ≠ some g.ctx) || memberDone s c)
  | _ => false

/-- VERSION steps for every buffer that a launch named W or RW; the launch is no longer in flight (R240, R241). -/
def stepVersions (s : State) (g : Gang) : State :=
  let named := recBufs g.record
  { s with hub := { s.hub with buffers := s.hub.buffers.map (fun e =>
      let w := named.any (fun b => decide (b.1 = e.1 ∧ b.2.1 ≠ 1))
      (e.1, { e.2 with version := if w then (e.2.version + 1) % 2 ^ 32 else e.2.version, last := if w then g.launch else e.2.last,
                       writers := e.2.writers.filter (fun n => n ≠ g.launch), readers := e.2.readers.filter (fun n => n ≠ g.launch) })) } }

/-- Whether a launch wrote a buffer that a record names, or that its near image lies in (R299). -/
def wroteFor (g : Gang) (r : BitVec 8192) : Bool :=
  (recBufs g.record).any (fun w => decide (w.2.1 ≠ 1) &&
    ((recBufs r).any (fun b => decide (b.1 = w.1)) ||
      decide (recNearVa r < w.2.2.1 + w.2.2.2 ∧ w.2.2.1 < recNearVa r + recNearLen r)))

/-- Staged images whose buffers a completed launch wrote are to be staged again before they are used (R299). -/
def restage (s : State) (g : Gang) : State :=
  { s with hub := { s.hub with staged := s.hub.staged.filter (fun x =>
      match (getSeg s x.seg).bind (fun q => q.recs[x.rec_]?) with
      | some r => !wroteFor g r
      | none => true) } }

/-- Whether the lease of a gang holds a page of an address space. -/
def leaseHolds (s : State) (space vp : Nat) : Bool :=
  s.hub.gangs.any (fun g => spaceServes s space g.1 && g.2.lease.any (fun r => decide (r.vpage ≤ vp ∧ vp < r.vpage + r.pages)))

/-- Frames of a block's pages that no lease in force names any more become warm (R216). -/
def warmFrames (s : State) (ctx : Nat) : State :=
  { s with frames := s.frames.map (fun e =>
      match e.2.page with
      | some (c, vp) =>
        if spaceServes s c ctx ∧ e.2.st = .leased ∧ ¬ leaseHolds s c vp then (e.1, { e.2 with st := .warm, lastLease := s.now }) else e
      | none => e) }

/-- Pages that discarded `eng.sattn` commands named are let go (R265). -/
def settleAll (s : State) (g : Gang) : State :=
  let mine := s.hub.unsettled.filter (fun e => (gangCores g).contains e.1)
  let s1 := { s with hub := { s.hub with unsettled := s.hub.unsettled.filter (fun e => !(gangCores g).contains e.1) } }
  mine.foldl (fun s e => settlePages s g.ctx e.1 e.2) s1

/-- Releases a gang's quads: program windows removed, the drain begun, the channels freed; those of a contained
tenant leave its world (R240, R300, R317). -/
def releaseQuads (s : State) (g : Gang) : State :=
  let halted := blkState (getBlock s g.ctx) = stHalted
  let s1 := g.quads.foldl (fun s q =>
    if (getQuad s q).busy = some g.ctx then
      let s0 := drainQuad (dropWindows s q (fun w => !w.byCp)) q
      if halted then gateQuad s0 q else s0
    else s) s
  let s2 := remapAll s1 g
  { s2 with hub := { s2.hub with chans := s2.hub.chans.filter (fun c => c.ident.ctx ≠ g.ctx) } }

/-- The exit code of rank 0. -/
def exitCode (s : State) (g : Gang) : Nat :=
  match (getCore s (4 * nthD g.quads 0 0)).status with
  | .completed k => k.toNat
  | _ => 0xFFFF

/-- What follows a launch: an error reply, the next record, or the reply (R285, R307). -/
def afterLaunch (s : State) (g : Gang) (code : Nat) : State :=
  match g.cause with
  | some (k, rank) => endRequest s g.ctx g.ix 2 k rank g.path
  | none =>
    let next := if recDyn g.record then code else recNext g.record
    if next = 0xFFFF then endRequest s g.ctx g.ix 0 0 0 g.path
    else
      match routeRec s g.ctx next with
      | none => endRequest s g.ctx g.ix 2 0x81 0 g.path
      | some _ =>
        setBind (setState s g.ctx stBinding) g.ctx
          { visible := s.now, stage := .waiting, ix := g.ix, recIx := next, path := g.path, launch := 0, resume := false }

/-- GANG_COMPLETION: D chunks are written back, VERSION steps, the quads are released, and then the request goes on (R240, R307). -/
def execGangCompletion (ctx : Nat) (s : State) : Out :=
  match getGang s ctx with
  | none => .next s
  | some g =>
    if gangDone s g then
      let (ok, s1) := if g.image.isSome then (true, s) else flushGang s g
      if !ok || (gangCores g).any (fun c => decide ((getCore s1 c).gang = some ctx) && sendsPending s1 c) then .next s1
      else
        let code := exitCode s1 g
        let s2 := restage (stepVersions (settleAll s1 g) g) g
        let s3 := releaseQuads s2 g
        .next (wakeDeferred (afterLaunch (scrubMarked (warmFrames (delGang s3 ctx) ctx)) g code))
    else .next s

/-! Rollbacks (R308 to R313). -/

/-- A chunk whose bytes an undone store changes takes part in the chunk protocol as for a write (R204). -/
def undoReady (c : Nat) (s : State) (k : Nat) : State :=
  let key := quadOf c * 65536 + k
  match regionOf s (quadOf c) (64 * k) with
  | .mapped _ w =>
    if ((getChunk s key).map (·.dirty)).getD false then s
    else
      match chunkLoc s w (64 * k) with
      | none => s
      | some l =>
        match l.peer with
        | none => (registerChunk s key l.pa).2
        | some _ =>
          let (n, s1) := nextStamp s
          registerPeer (putChunk s1 key { dirty := true, stamp := n, mask := 0 }) key l
  | _ => s

/-- Puts back the old bytes of one run. -/
def undoRun (c : Nat) (s : State) (r : Nat × List Byte) : State :=
  quadWrite ((spanChunks [(r.1, r.2.length)]).foldl (undoReady c) s) (quadOf c) r.1 r.2

/-- Undoes the near stores of a core's journal, newest first: bytes, tags and poison (R242, R309, R311). -/
def undoNear (c : Nat) : List JRec → State → State
  | [], s => s
  | .near runs tags bad :: rest, s =>
    let s1 := runs.foldl (undoRun c) s
    undoNear c rest { s1 with tags := tags.foldl (fun l e => alPut l e.1 e.2) s1.tags, sbad := bad.foldl (fun l e => alPut l e.1 e.2) s1.sbad }
  | _ :: rest, s => undoNear c rest s

/-- The accumulator after a rollback: journaled rows as they were, rows from `acchw` up lost (R155, R309). -/
def undoRows (v : Anvil) (recs : List JRec) (acchw base : Nat) : List (Nat × VVal) × List (Nat × Nat) :=
  (recs.foldl (fun l r => match r with | .row n old => alPut l n old | _ => l) (v.rows.filter (fun e => decide (e.1 < acchw))),
   loseRows v acchw base)

/-- The far loads that a journal records, without the one that is fetched again. -/
def loadRecs (recs : List JRec) (refetch : Option Nat) : List LoadRec :=
  recs.filterMap (fun r => match r with | .load x => if refetch = some x.ord then none else some x | _ => none)

/-- A far load as its record gives it (R311). -/
def FarOp.replayed (f : FarOp) (r : LoadRec) : FarOp :=
  { f with parts := f.parts.zipIdx.map (fun e => { e.1 with done := some (r.stamp, if e.2 = 0 then r.bytes else [], r.bad) }) }

/-- The far accesses of a snapshot: those that have arrived since as they are now, those that have been delivered since from their
records, the others to perform yet; a prefetch that has performed stays done. -/
def restoredFar (old now : List FarOp) (loads : List LoadRec) : List FarOp :=
  old.filterMap (fun f =>
    match now.find? (fun g => g.ord = f.ord), loads.find? (fun r => r.ord = f.ord) with
    | some g, _ => some g
    | none, some r => some (f.replayed r)
    | none, none => if f.kind = .prefetch then none else some f)

/-- Notes the perform stamps of far accesses that are done. -/
def noteDone (c : Nat) (l : List FarOp) (s : State) : State :=
  l.foldl (fun s f =>
    if f.kind = .prefetch then s
    else f.parts.foldl (fun s p => match p.done with | some (n, _, _) => noteStamp s c f.colour n | none => s) s) s

/-- The core section that a rollback restores: the snapshot with its stamps, taint and path; engine queues and released stores as they
are now, unreleased stores gone, every event latched since and every completion not delivered at the checkpoint pending (R311). -/
def rolledBack (x : Core) (loads : List LoadRec) (base : Nat) : CoreArch :=
  let (rows, lost) := undoRows x.arch.anv x.jn.recs x.ck.csr.acchw.toNat base
  { x.ck with q := x.arch.q, fences := x.arch.fences, anv := { x.ck.anv with rows := rows, lost := lost },
              order := { x.ck.order with engEvents := x.jn.took ++ x.arch.order.engEvents, released := x.arch.order.released, sbuf := [],
                                         events := x.ck.order.events ||| x.jn.latched,
                                         far := restoredFar x.ck.order.far x.arch.order.far loads } }

/-- Undoes a core's journal and restores its snapshot, far loads replaying `loads` (R311 steps 2 and 3). -/
def restoreCk (s : State) (c : Nat) (loads : List LoadRec) : State :=
  let x := getCore s c
  let a := rolledBack x loads s.freeCtr
  let s1 := undoNear c x.jn.recs { s with freeCtr := s.freeCtr + 12288 }
  noteDone c a.order.far (modCore s1 c (fun y =>
    { y with arch := a, freezeDog := 0, waitDog := 0, droopHeld := 0, jn := { y.jn with recs := [], bytes := 0, took := [] } }))

/-- The records of R309 that a journal holds. -/
def journaled (l : List JRec) : List JRec := l.filter (fun r => match r with | .load x => !x.atom | _ => true)

/-- Periods of a restore: 16 and one for each journal record undone (R312). -/
def restorePeriods (x : Core) : Nat := 16 + (journaled x.jn.recs).length

/-- Whether a quad of the die of `q` is already to take a spare site. -/
def remapPending (g : Gang) (q : Nat) : Bool := g.remap.any (fun e => decide (e.1 = q))

/-- A core at its checkpoint is retired: its gang stops, its quad takes a spare site of its die, or the gang ends when there is none
(R14, R313). DESIGN CHOICE (log entry 76): the spare sites are 48 and 49, taken in that order. -/
def retireCore (s : State) (c : Nat) : State :=
  let x := getCore s c
  let q := quadOf c
  let s1 := restoreCk s c (loadRecs x.jn.recs none)
  let s2 := modQuad (modCore s1 c (fun y =>
    { y with status := .stopped, stoppedAt := s.now, mark := none, rerun := none, jn := { y.jn with rolls := y.jn.rolls + 1 } })) q (fun y => { y with hold := none })
  match gangOf s2 c with
  | none => s2
  | some g =>
    let d := getDie s2 (dieOfQuad q)
    if remapPending g q then trySave (markGang s2 g) g.ctx
    else if d.spares = 0 then modQuad (endGang s2 g c cRetired) q (fun x => { x with withdrawn := true })
    else
      let g1 := { g with remap := g.remap ++ [(q, 50 - d.spares)] }
      trySave (markGang (setDie s2 (dieOfQuad q) { d with spares := d.spares - 1 }) g1) g.ctx

/-! The signature of a rerun (R311). -/

/-- One byte of CRC-64 of ECMA-182, unreflected. -/
def crc64Bits : Nat → BitVec 64 → BitVec 64
  | 0, x => x
  | n + 1, x => crc64Bits n (if x.msb then (x <<< 1) ^^^ 0x42F0E1EBA9EA3693#64 else x <<< 1)

def crc64 (bs : List Byte) : BitVec 64 := bs.foldl (fun x b => crc64Bits 8 (x ^^^ ((b.setWidth 64 : BitVec 64) <<< 56))) 0

/-- Puts a record among others by issue order. -/
def insertRecord (r : Nat × List Byte) : List (Nat × List Byte) → List (Nat × List Byte)
  | [] => [r]
  | e :: rest => if r.1 < e.1 then r :: e :: rest else e :: insertRecord r rest

/-- The signature of the writes of a rerun, in issue order. -/
def signature (l : List (Nat × List Byte)) : BitVec 64 :=
  crc64 ((l.foldl (fun acc r => insertRecord r acc) []).flatMap (·.2))

/-! Reruns (R311, R312). -/

/-- Puts a core at its checkpoint to run again up to the `cyc` of the end point; the other periods since the checkpoint count in `frz.mem`
(R312). -/
def beginRerun (s : State) (c : Nat) (r : Rerun) : State :=
  let k := restorePeriods (getCore s c)
  modCore (restoreCk s c r.loads) c (fun x =>
    { x with rerun := some { r with left := k, writes := [] },
             arch := { x.arch with csr := { x.arch.csr with frzMem := x.arch.csr.frzMem + r.spent } } })

/-- A rollback begins: the quad is held, the core goes back to its checkpoint. The periods since the checkpoint count in `frz.mem`
(R312). -/
def startRollback (s : State) (c : Nat) (e : ErrorReport) : State :=
  let x := getCore s c
  let last := if s.todo.contains c then s.now - 1 else s.now
  let first := if x.ck.seq.entered then 0 else 1
  let r : Rerun :=
    { first := none, left := 0, stop := x.arch.csr.cyc, spent := last + first - x.jn.periodAt, loads := loadRecs x.jn.recs e.refetch,
      writes := [], errs := e.again }
  modQuad (beginRerun s c r) (quadOf c) (fun q => { q with hold := some c })

/-- The reruns agree: the second one's state stands. The quad is released at the end of the period. -/
def agreedRollback (s : State) (c : Nat) : State :=
  modCore s c (fun x => { x with rerun := none, jn := { x.jn with rolls := x.jn.rolls + 1 } })

/-- Releases the quads held for rollbacks that have ended (R311 step 7). -/
def releaseHolds (s : State) : State :=
  { s with quads := s.quads.map (fun e =>
      if e.2.hold.isNone then e else (e.1, { e.2 with hold := e.2.hold.filter (fun c => (getCore s c).rerun.isSome) })) }

/-- Whether a rerun of a core has reached the end point, at a bundle boundary or inside a wait; one that has opened a window is not
looked at here. -/
def rerunDone (x : Core) : Bool :=
  match x.rerun with
  | some r => decide (r.left = 0 ∧ r.stop ≤ x.arch.csr.cyc) && !x.jn.windowOpen
  | none => false

/-- The end of a rerun (R311 steps 5 to 7): after rerun A the core goes back once more; after rerun B the two are compared. The answer
says whether the core goes on from here. -/
def endRerun (s : State) (c : Nat) : Bool × State :=
  let x := getCore s c
  match x.rerun with
  | none => (true, s)
  | some r =>
    if !rerunDone x then (true, s)
    else
      let sig := signature r.writes
      match r.first with
      | none => (false, beginRerun s c { r with first := some (x.arch.csr.cyc, sig), loads := loadRecs x.jn.recs none })
      | some (n, sigA) =>
        if x.arch.csr.cyc = n ∧ sig = sigA ∧ r.errs = false then (true, agreedRollback s c) else (false, retireCore s c)

/-- One of the periods of a restore; a rerun whose end point is the checkpoint itself ends with it. -/
def restorePeriod (s : State) (c : Nat) (r : Rerun) : State :=
  (endRerun (modCore s c (fun x =>
    { x with rerun := some { r with left := r.left - 1, spent := r.spent + 1 },
             arch := { x.arch with csr := { x.arch.csr with frzMem := x.arch.csr.frzMem + 1 } } })) c).2

/-- The far loads of a rerun replay their records as they are issued (R311). -/
def replayLoads (s : State) (c : Nat) : State :=
  match (getCore s c).rerun with
  | none => s
  | some r =>
    let pick (f : FarOp) : Option LoadRec := if f.kind = .load && !farArrived f then r.loads.find? (fun x => x.ord = f.ord) else none
    let hit := (getCore s c).arch.order.far.filterMap (fun f => (pick f).map f.replayed)
    noteDone c hit (modCore s c (fun x =>
      { x with arch := { x.arch with order := { x.arch.order with far := x.arch.order.far.map (fun f =>
          match pick f with | some l => f.replayed l | none => f) } } }))

/-- The data of a far access that have arrived are poisoned; their bytes the spec leaves open (R234, R333). -/
def poisonFar (s : State) (c ord : Nat) : State :=
  let free (i n : Nat) : List Byte := (range' (s.freeCtr + 64 * i) n).map Config.freeByte
  let part (e : FarPart × Nat) : FarPart := { e.1 with done := e.1.done.map (fun d => (d.1, free e.2 d.2.1.length, true)) }
  let op (f : FarOp) : FarOp := if f.ord = ord then { f with parts := f.parts.zipIdx.map part } else f
  modCore { s with freeCtr := s.freeCtr + 512 } c (fun x =>
    { x with arch := { x.arch with order := { x.arch.order with far := x.arch.order.far.map op } } })

/-- An error on a hop outside the core poisons what crosses it (R310, R333); the report names the hop (log entry 96). -/
def hopError (s : State) (c : Nat) : ErrorHop → State
  | .stored pa => if isHbm pa then markBad s (pa / 64 * 64) else s
  | .fabric ord => poisonFar s c ord

/-- DETECTED_ERROR (R310, R311): with the window open the task ends, with it closed the core rolls back; an error in stored data poisons
them instead. -/
def execDetectedError (c : Nat) (e : ErrorReport) (s : State) : Out :=
  let x := getCore s c
  if e.hop.isSome then .next (match e.hop with | some h => hopError s c h | none => s)
  else if x.status ≠ .bound ∨ x.rerun.isSome then .next s
  else if x.jn.windowOpen then .next (endTask s c cUncorrectable)
  else .next (startRollback s c e)

end Sys2Proof.Machine
end

