-- ==== Sys2Proof/Machine/Contain.lean ====
section
/-! DEFINITION. Containment of a tenant, and the release of a quad for power gating (R292, R300, R317). -/

namespace Sys2Proof.Machine

/-- Blocks of a tenant that are not FREE. -/
def tenantBlocks (s : State) (t : Nat) : List Nat :=
  (s.hub.blocks.filter (fun e => decide (blkTenant e.2 = t ∧ blkState e.2 ≠ stFree))).map (·.1)

/-- Worlds of a tenant: those of its blocks and key slots (R316). -/
def tenantWorlds (s : State) (t : Nat) : List Nat :=
  (tenantBlocks s t).map (fun c => blkWorld (getBlock s c)) ++ (s.hub.keys.filter (fun e => decide (e.2.tenant = t ∧ e.2.st ≠ 0))).map (·.2.world)

/-- A launch that has been placed and will not start is no longer in flight (R241). -/
def forgetLaunch (s : State) (n : Nat) : State :=
  { s with hub := { s.hub with buffers := s.hub.buffers.map (fun e =>
      (e.1, { e.2 with writers := e.2.writers.filter (fun k => k ≠ n), readers := e.2.readers.filter (fun k => k ≠ n) })) } }

/-- Gives up the binding of a block's request, placed or not; the quads it held are free for the requests that wait (R288). -/
def dropBinding (s : State) (ctx : Nat) : State :=
  match getBind s ctx with
  | some b => wakeDeferred (if b.resume then delBind s ctx else delBind (forgetLaunch s b.launch) ctx)
  | none => s

/-- A block's staged images and the staging under way for it go. -/
def dropStaged (s : State) (ctx : Nat) : State :=
  { s with hub := { s.hub with staged := s.hub.staged.filter (fun x => x.ctx ≠ ctx), staging := s.hub.staging.filter (fun x => x.ctx ≠ ctx) } }

/-- Discards the queued requests of a block (R300 step 2): the one a gang serves stays. -/
def dropQueued (s : State) (ctx : Nat) : State :=
  let keep (r : Request) : Bool :=
    decide (r.ctx ≠ ctx) || (match getGang s ctx with | some g => decide (g.ix = r.ix) | none => false)
  let s1 := if (getGang s ctx).isSome then s else dropBinding s ctx
  let b := getBlock s1 ctx
  let s2 := { s1 with hub := { s1.hub with reqs := s1.hub.reqs.filter keep } }
  setBlock s2 ctx (blkSet b 0x10 4 (blkField b 0x14 4))

/-- Releases the idle quads of a tenant's worlds and its staged images (R300 step 4). -/
def releaseTenant (s : State) (t : Nat) : State :=
  let ws := tenantWorlds s t
  let qs := (s.quads.filter (fun e => e.2.busy.isNone && (match e.2.world with | some w => ws.contains w | none => false))).map (·.1)
  qs.foldl gateQuad ((tenantBlocks s t).foldl dropStaged s)

/-- Ends the gangs of a tenant with cause containment and halts its blocks. -/
def haltTenant (s : State) (t : Nat) : State :=
  let bs := tenantBlocks s t
  let s1 := bs.foldl (fun s c => setState s c stHalted) s
  let s2 := bs.foldl dropQueued s1
  bs.foldl (fun s c => match getGang s c with | some g => endGangAll s g cContain | none => s) s2

/-- Writes a log entry and raises the telemetry alert (R354). -/
def logEntry (s : State) (cause a b : Nat) : State :=
  { s with edge := { s.edge with logs := s.edge.logs ++ [(cause, a, b)], alerts := s.edge.alerts + 1,
                                 pins := { s.edge.pins with alertN := false } } }

/-- Containment (R300): the steps in order, the report last. Causes of the report: 1 a malformed packet, 2 a queue error. -/
def contain (s : State) (t cause ctx off : Nat) : State :=
  emit (logEntry (releaseTenant (haltTenant s t) t) (0x100 + cause) ctx off) (.report cause ctx off)

end Sys2Proof.Machine
end

