-- ==== Sys2Proof/Machine/Dispatcher.lean ====
section
/-! DEFINITION. The dispatcher: placement, launch, replies, ageing, gating, the two governors and the bandwidth buckets (R26, R39,
R40, R240, R241, R286 to R298, R341, R342, R357, R358). -/

namespace Sys2Proof.Machine

/-! What is being placed. -/

/-- The period from which a waiting binding's age counts: its request's ARRIVAL, or the stop of its gang (R289, R291). -/
def bindAge (s : State) (ctx : Nat) (b : Binding) : Nat :=
  if b.resume then ((getGang s ctx).map (·.stoppedAt)).getD 0 else ((reqOf s ctx b.ix).map (·.arrived)).getD 0

/-- Whether a binding waits for the dispatcher. -/
def bindWaits (s : State) (ctx : Nat) (b : Binding) : Bool :=
  decide (b.stage = .waiting ∧ b.visible ≤ s.now) && (((reqOf s ctx b.ix).map (·.entry.isEmpty)).getD true)

/-- Whether binding `a` goes before binding `b`: higher current priority, then older (R286). -/
def bindBefore (s : State) (a b : Nat × Binding) : Bool :=
  let pa := curPrio (getBlock s a.1)
  let pb := curPrio (getBlock s b.1)
  decide (pb < pa) || (decide (pa = pb) && decide (bindAge s a.1 a.2 < bindAge s b.1 b.2))

/-- The waiting binding that is placed next. -/
def nextToPlace (s : State) : Option (Nat × Binding) :=
  (s.hub.bind.filter (fun e => bindWaits s e.1 e.2)).foldl
    (fun acc e => match acc with | none => some e | some x => if bindBefore s e x then some e else some x) none

/-- A request as the dispatcher sees it: block, priority, world, quads needed, record and its index. -/
structure Want where
  ctx : Nat
  prio : Nat
  world : Nat
  n : Nat
  ri : Nat
  rc : BitVec 8192
  deriving DecidableEq, Repr

def wantOf (ctx : Nat) (b : BitVec 2048) (ri : Nat) (rc : BitVec 8192) : Want :=
  { ctx := ctx, prio := curPrio b, world := blkWorld b, n := shapeQuads (blkShape b), ri := ri, rc := rc }

/-! Channels (R39, R40). -/

/-- Whether a gang holds die channels: while it has its quads; a stopped gang's are saved with it (R36). -/
def holdsDie (g : Gang) : Bool := g.image.isNone || (match g.st with | .resuming _ => true | _ => false)

/-- Whether the channels that a block declares are free for a set of quads (R38, R39). The die channels of the victims will be free; a
stopped gang goes on holding its package and pod channels (R36), and at pod scope one gang at a time holds those of a group (R40). -/
def channelsFree (s : State) (ctx : Nat) (quads victims : List Nat) : Bool :=
  let b := getBlock s ctx
  let others := (s.hub.gangs.map (·.2)).filter (fun g => decide (g.ctx ≠ ctx))
  let net := others.filter (fun g => holdsDie g && !victims.contains g.ctx)
  let placed := (s.hub.bind.filter (fun e => decide (e.1 ≠ ctx) && !(stageQuads e.2.stage).isEmpty && !e.2.resume)).map (fun e => (e.1, stageQuads e.2.stage))
  let all := net.map (fun g => (g.ctx, g.quads)) ++ placed
  let dieUse (d : Nat) : Nat :=
    ((all.filter (fun e => e.2.any (fun q => decide (dieOfQuad q = d)))).map (fun e => blkDieCh (getBlock s e.1))).foldl (· + ·) 0
  let held := others.map (·.ctx) ++ placed.map (·.1)
  let use (f : BitVec 2048 → Nat) : Nat := (held.map (fun c => f (getBlock s c))).foldl (· + ·) 0
  quads.all (fun q => decide (blkDieCh b + dieUse (dieOfQuad q) ≤ 32)) && decide (blkPkgCh b + use blkPkgCh ≤ 64) &&
    (decide (blkPodCh b = 0) ||
      (decide (blkPodCh b + use blkPodCh ≤ 16) && !held.any (fun c =>
        decide (0 < blkPodCh (getBlock s c) ∧ blkPodGrp (getBlock s c) = blkPodGrp b))))

/-! Candidates (R288). -/

/-- A candidate: its expected start, its kind (0 Awake, 1 Waiting, 2 Waking, 3 Pre-empting), the busy quads of its dies, its
quads and its victims. -/
structure Cand where
  start : Nat
  kind : Nat
  busy : Nat
  quads : List Nat
  victims : List Nat
  deriving DecidableEq, Repr

/-- Lexicographic order of quad lists. -/
def quadsBefore : List Nat → List Nat → Bool
  | [], [] => false
  | [], _ :: _ => true
  | _ :: _, [] => false
  | a :: as, b :: bs => decide (a < b) || (decide (a = b) && quadsBefore as bs)

/-- Whether candidate `a` is preferred to `b`. -/
def candBefore (a b : Cand) : Bool :=
  decide (a.start < b.start) ||
    (decide (a.start = b.start) &&
      (decide (a.kind < b.kind) ||
        (decide (a.kind = b.kind) &&
          (decide (b.busy < a.busy) || (decide (a.busy = b.busy) && quadsBefore a.quads b.quads)))))

def bestCand (l : List Cand) : Option Cand :=
  l.foldl (fun acc c => match acc with | none => some c | some x => if candBefore c x then some c else some x) none

/-- A quad that is clock-gated, as a completed gang leaves it (R292). -/
def isClocked (s : State) (q : Nat) : Bool := decide ((getQuad s q).power = .clockGated)

def isGated (s : State) (q : Nat) : Bool := decide ((getQuad s q).power = .gated)

/-- W of the start step (R286). -/
def startW (s : State) (quads : List Nat) : Nat := if quads.any (isClocked s) then 40 else 0

/-- The start step without W. -/
def startStep (w : Want) : Nat := ceilDiv (recNearLen w.rc) 512 + 12

def isWarm (s : State) (w : Want) (q : Nat) : Bool := quadWarm s w.world w.ctx w.ri w.rc q

/-- The periods of R287 and of the drain for a set of free quads. -/
def coldTerms (s : State) (w : Want) (quads : List Nat) (ahead : Nat) : Nat :=
  let img := coldImage s w.ctx w.ri w.rc
  if quads.all (isWarm s w) then (quads.map (fun q => drainLeft s q ahead)).foldl max 0 + img
  else coldSchedule s w.ctx w.ri + img

/-- Busy quads of a group of dies. -/
def busyQuads (s : State) (ds : List Nat) : Nat :=
  ((groupQuads ds).filter (fun q => (getQuad s q).busy.isSome || reservedFor s 16384 q)).length

/-- Quads of a group that may be chosen: for a request that needs whole dies all of them have to be enabled. -/
def groupOk (s : State) (w : Want) (ds : List Nat) : Bool := decide (w.n ≤ 24) || (groupQuads ds).all (quadUp s)

/-- The lowest `n` quads of a list, if there are as many. -/
def lowest (n : Nat) (l : List Nat) : Option (List Nat) := if n ≤ l.length then some (l.take n) else none

/-- Of warm quads, the sets with the earliest end of their drains: the lowest `n` among those whose drain is at most the n-th. -/
def soonest (s : State) (n ahead : Nat) (l : List Nat) : Option (List Nat) :=
  let times := (l.map (fun q => drainLeft s q ahead))
  let fits (t : Nat) : Bool := decide (n ≤ (times.filter (fun x => decide (x ≤ t))).length)
  match (times.filter fits).foldl (fun acc t => match acc with | none => some t | some x => some (min x t)) (none : Option Nat) with
  | some t => lowest n (l.filter (fun q => decide (drainLeft s q ahead ≤ t)))
  | none => lowest n l

/-- The Awake candidates of a group of dies. -/
def awakeCands (s : State) (w : Want) (ahead : Nat) (ds : List Nat) : List Cand :=
  let free := (groupQuads ds).filter (fun q => quadFree s w.ctx q && !isGated s q)
  let warm := free.filter (isWarm s w)
  let cold := free.filter (fun q => isWarm s w q || loadable s q)
  let now0 (l : List Nat) : List Nat := l.filter (fun q => !isClocked s q)
  let sets := [soonest s w.n ahead (now0 warm), soonest s w.n ahead warm, lowest w.n (now0 cold), lowest w.n cold].filterMap (fun x => x)
  sets.map (fun q =>
    { start := coldTerms s w q ahead + startW s q + startStep w, kind := 0, busy := busyQuads s ds, quads := q, victims := [] })

/-- The Waiting candidates: gangs of equal or higher priority whose quads on a group of dies suffice. -/
def waitingCands (s : State) (w : Want) (ds : List Nat) : List Cand :=
  ((s.hub.gangs.map (·.2)).filter (fun g => decide (g.st = .running ∧ w.prio ≤ curPrio (getBlock s g.ctx)))).filterMap (fun g =>
    (lowest w.n (g.quads.filter (fun q => (groupQuads ds).contains q))).map (fun q =>
      let cold := !q.all (isWarm s w)
      { start := (recRunest g.record - g.elapsed) + (if cold then coldSchedule s w.ctx w.ri else 1600) +
                   coldImage s w.ctx w.ri w.rc + startStep w,
        kind := 1, busy := busyQuads s ds, quads := q, victims := [] }))

/-- The Waking candidate of a group of dies: at least one of its quads is power-gated. -/
def wakingCands (s : State) (w : Want) (ds : List Nat) : List Cand :=
  let free := (groupQuads ds).filter (fun q => quadFree s w.ctx q && loadable s q)
  match lowest w.n free with
  | some q =>
    if q.any (isGated s) then
      [{ start := 9024 + coldSchedule s w.ctx w.ri + coldImage s w.ctx w.ri w.rc + startStep w, kind := 2,
         busy := busyQuads s ds, quads := q, victims := [] }]
    else []
  | none => []

/-- Whether every member of a gang has set its yield flag (R107, R289). -/
def allYielded (s : State) (g : Gang) : Bool := (gangCores g).all (fun c => (getCore s c).arch.seq.yielded)

/-- Inserts a victim: lowest priority first, then latest launched first. -/
def insertVictim (s : State) (g : Gang) : List Gang → List Gang
  | [] => [g]
  | h :: rest =>
    let pg := curPrio (getBlock s g.ctx)
    let ph := curPrio (getBlock s h.ctx)
    if pg < ph ∨ (pg = ph ∧ h.launch < g.launch) then g :: h :: rest else h :: insertVictim s g rest

/-- The gangs that may be victims of a request, in the order in which they are taken. -/
def victimOrder (s : State) (w : Want) : List Gang :=
  ((s.hub.gangs.map (·.2)).filter (fun g =>
    decide (g.st = .running) &&
      (let p := curPrio (getBlock s g.ctx)
       decide (p < w.prio) || (decide (p = w.prio) && allYielded s g)))).foldl (fun l g => insertVictim s g l) []

/-- Takes victims until their quads on the group and the free ones make up the shape. -/
def takeVictims (need : Nat) (inGroup : Nat → Bool) : List Gang → List Gang → Nat → Option (List Gang)
  | [], acc, have_ => if need ≤ have_ then some acc else none
  | g :: rest, acc, have_ =>
    if need ≤ have_ then some acc
    else
      let k := (g.quads.filter inGroup).length
      if k = 0 then takeVictims need inGroup rest acc have_ else takeVictims need inGroup rest (acc ++ [g]) (have_ + k)

/-- The sets that victims' quads make with free ones: one of warm quads alone where there are enough, of those with the earliest end
of their drains, and the lowest; the victims' own quads before free ones (R288). -/
def preemptSets (s : State) (w : Want) (ahead : Nat) (mine free : List Nat) : List (List Nat) :=
  let fill (m f : List Nat) (pick : Nat → List Nat → Option (List Nat)) : Option (List Nat) :=
    if w.n ≤ m.length then some (m.take w.n) else (pick (w.n - m.length) f).map (fun l => sortQuads (m ++ l))
  [fill (mine.filter (isWarm s w)) (free.filter (isWarm s w)) (fun n l => soonest s n ahead l), fill mine free lowest].filterMap (fun x => x)

/-- The Pre-empting candidates of a group of dies. -/
def preemptCands (s : State) (w : Want) (ahead : Nat) (ds : List Nat) : List Cand :=
  let inG (q : Nat) : Bool := (groupQuads ds).contains q && !reservedFor s w.ctx q && quadUp s q && (isWarm s w q || loadable s q)
  let free := (groupQuads ds).filter (fun q => quadFree s w.ctx q && !isGated s q && (isWarm s w q || loadable s q))
  match takeVictims w.n inG (victimOrder s w) [] free.length with
  | none => []
  | some [] => []
  | some vs =>
    let mine := sortQuads (vs.flatMap (fun g => g.quads.filter inG))
    let save := (vs.map (fun g => recSpmax g.record)).foldl max 0 + 64 + saveTerm s vs
    (preemptSets s w ahead mine free).map (fun quads =>
      { start := save + coldTerms s w quads ahead + startStep w, kind := 3, busy := busyQuads s ds, quads := quads, victims := vs.map (·.ctx) })

/-- The candidates of a request. -/
def candidates (s : State) (w : Want) (ahead : Nat) : List Cand :=
  ((dieGroups w.n).filter (groupOk s w)).flatMap (fun ds =>
    (awakeCands s w ahead ds ++ wakingCands s w ds ++ preemptCands s w ahead ds).filter (fun c => channelsFree s w.ctx c.quads c.victims) ++
      waitingCands s w ds)

/-- The quads of an accepted hint (R286). -/
def hintQuads (s : State) (w : Want) (hint : Nat) : Option (List Nat) :=
  let d := natField hint 48 3
  let qs := (range' (48 * d) 48).filter (fun q =>
    hint.testBit (q - 48 * d) && quadFree s w.ctx q && !isGated s q && decide (drainLeft s q 0 = 0) && isWarm s w q)
  if hint.testBit 63 ∧ w.n ≤ 48 ∧ groupOk s w [d] then
    match lowest w.n qs with
    | some q => if channelsFree s w.ctx q [] then some q else none
    | none => none
  else none

/-! Placement. -/

/-- Enters a buffer of a world in the version table if it is not there (R239). -/
def enterBuffer (s : State) (world n : Nat) : State :=
  if s.hub.buffers.any (fun e => e.1 = n) then s
  else
    let b : BufEntry := { version := 0, world := world, whole := false, writers := [], readers := [], last := 0, sweep := false }
    { s with hub := { s.hub with buffers := s.hub.buffers ++ [(n, b)] } }

/-- A new launch of a world is in flight: the buffers it names know it (R239, R241). -/
def noteLaunch (s : State) (world : Nat) (rc : BitVec 8192) : Nat × State :=
  let n := s.hub.nextLaunch
  let named := recBufs rc
  let s1 := (named.map (·.1)).foldl (fun s b => enterBuffer s world b) s
  (n, { s1 with hub := { s1.hub with nextLaunch := n + 1, buffers := s1.hub.buffers.map (fun e =>
    let acc := (named.filter (fun b => b.1 = e.1)).map (·.2.1)
    (e.1, { e.2 with writers := if acc.any (· ≠ 1) then e.2.writers ++ [n] else e.2.writers,
                     readers := if acc.any (· ≠ 2) then e.2.readers ++ [n] else e.2.readers })) } })

/-- Whether a record names only buffers that no other world has (R239). -/
def buffersFree (s : State) (world : Nat) (rc : BitVec 8192) : Bool :=
  (recBufs rc).all (fun b => !s.hub.buffers.any (fun e => decide (e.1 = b.1 ∧ e.2.world ≠ world)))

/-- Binds a request to the quads of a candidate: STATE is BINDING, the broadcast ends `t` periods from now. -/
def bindTo (s : State) (w : Want) (b : Binding) (c : Cand) (t : Nat) : State :=
  let (n, s1) := noteLaunch s w.world w.rc
  let wake := if c.kind = 2 then 9024 else 0
  let up := if c.kind = 0 then startW s c.quads else 0
  setBind (setState s1 w.ctx stBinding) w.ctx { b with stage := .broadcast c.quads (s.now + t) c.victims wake up, launch := n }

/-- Places a request: the hint, or the best candidate; when the best is to wait, it stays READY. -/
def placeRequest (s : State) (w : Want) (b : Binding) : State :=
  let busy (t : Nat) (s : State) : State := { s with hub := { s.hub with placeAt := s.now + t } }
  match hintQuads s w (blkHint (getBlock s w.ctx)) with
  | some q => busy 20 (bindTo s w b { start := 0, kind := 0, busy := 0, quads := q, victims := [] } 68)
  | none =>
    match bestCand (candidates s w 112) with
    | some c => busy 64 (if c.kind = 1 then setBind s w.ctx { b with stage := .deferred } else bindTo s w b c 112)
    | none => busy 64 (setBind s w.ctx { b with stage := .deferred })

/-- Whether a stopped gang may be placed on its quads: they are up and can be loaded again (R14, R325), and no other stopped gang has been
placed on one (R289). Quads that a gang holds, or
that a request placed before takes, are taken at their release. -/
def resumable (s : State) (g : Gang) : Bool :=
  g.quads.all (fun q => quadUp s q && loadable s q &&
    !s.hub.bind.any (fun e => decide (e.1 ≠ g.ctx) && (match e.2.stage with | .reserved l => l.contains q | _ => false)))

/-- PLACEMENT (R286, R288, R289). -/
def execPlacement (ctx : Nat) (s : State) : Out :=
  match nextToPlace s with
  | none => .next s
  | some (c, b) =>
    if c ≠ ctx ∨ s.now < s.hub.placeAt then .next s
    else
      let blk := getBlock s ctx
      if b.resume then
        match getGang s ctx with
        | none => .next (delBind s ctx)
        | some g =>
          let stage : BindStage := if resumable s g then .reserved g.quads else .deferred
          .next { setBind s ctx { b with stage := stage, visible := s.now + 64 } with
                  hub := { (setBind s ctx { b with stage := stage, visible := s.now + 64 }).hub with placeAt := s.now + 64 } }
      else
        match routeRec s ctx b.recIx with
        | none => .next (contain s (blkTenant blk) 2 ctx 0x30)
        | some rc =>
          let w := wantOf ctx blk b.recIx rc
          if w.n = 0 then .next (contain s (blkTenant blk) 2 ctx 0x19)
          else if !buffersFree s w.world rc then .next (contain s (blkTenant blk) 2 ctx 0x200)
          else .next (placeRequest s w b)

/-! Launch (R286, R287, R357). -/

/-- The periods that the invalidation of kept windows takes after the broadcast (R241). -/
def invalidationTime (s : State) (ctx : Nat) (quads : List Nat) (r : BitVec 8192) : Nat :=
  let wins := recWins s ctx r
  let reads := ((recBufs r).filter (fun b => b.2.1 ≠ 2)).map (·.1)
  (quads.flatMap (fun q => wins.map (fun e =>
    match (getQuad s q).windows.find? (fun x => x.1 = e.1) with
    | some (_, old) =>
      if sameWindow e.2 old ∧ e.2.versions.any (fun v => reads.contains v.1 && !old.versions.contains v) then
        8 + ceilDiv (windowBytes old / 64) 127
      else 0
    | none => 0))).foldl max 0

/-- The start step begins: STATE is BINDING. -/
def beginStart (s : State) (ctx : Nat) (b : Binding) (rc : BitVec 8192) (quads : List Nat) (up : Nat) : State :=
  let t := max (up + ceilDiv (recNearLen rc) 512 + 12) (invalidationTime s ctx quads rc)
  setBind (setState s ctx stBinding) ctx { b with stage := .starting quads (s.now + t) }

/-- The quads leave a world that is not the request's (R317). -/
def changeWorld (s : State) (world : Nat) (quads : List Nat) : State :=
  quads.foldl (fun s q =>
    match (getQuad s q).world with
    | some v => if v = world then s else leaveWorld s q
    | none => s) s

/-- The schedule is there: the near image is read from HBM, during which STATE is UNSEALING, or the start step begins (R287, R357). -/
def beginImage (s : State) (ctx : Nat) (b : Binding) (rc : BitVec 8192) (quads : List Nat) (up : Nat) : State :=
  let img := coldImage s ctx b.recIx rc
  if img = 0 then beginStart s ctx b rc quads up
  else setBind (setState s ctx stUnsealing) ctx { b with stage := .imaging quads (s.now + img) up }

/-- The quads come to a launch: what is left of their drain, then the cold steps, during which STATE is UNSEALING, then the start step.
The drain of cold quads falls within the schedule step (R287, R288, R357). -/
def beginCold (s : State) (ctx : Nat) (b : Binding) (rc : BitVec 8192) (quads : List Nat) (up : Nat) : State :=
  let world := blkWorld (getBlock s ctx)
  let warm := quads.all (quadWarm s world ctx b.recIx rc)
  let drained := (quads.map (fun q => (getQuad s q).drainEnd)).foldl max 0
  let s1 := changeWorld s world quads
  if !warm then
    setBind (setState s1 ctx stUnsealing) ctx
      { b with stage := .unsealing quads (max (s.now + 2048) drained + (coldSchedule s ctx b.recIx - 2048)) up }
  else if s.now < drained then setBind s1 ctx { b with stage := .waking quads drained up }
  else beginImage s1 ctx b rc quads up

/-- The quads come to a launch in a period to come: the victims' save or the waking of gated quads goes before (R357). -/
def beginAt (s : State) (ctx : Nat) (b : Binding) (rc : BitVec 8192) (quads : List Nat) (t up : Nat) : State :=
  if t ≤ s.now then beginCold s ctx b rc quads up else setBind s ctx { b with stage := .waking quads t up }

/-- Marks the victims of a launch (R36, R357): a gang that still runs stops, and NPRE increases. -/
def markVictims (s : State) (victims : List Nat) : State :=
  victims.foldl (fun s c =>
    match getGang s c with
    | some g => if g.st = .running then bumpBlk (markGang s g) c 0x5C 4 else s
    | none => s) s

/-- The end of the save of the victims: 64 periods plus the term of R290 from the last stop (R357). -/
def saveEnd (s : State) (victims : List Nat) : Nat :=
  let gs := victims.filterMap (fun c => match getGang s c with | some g => if g.image.isSome then some g else none | none => none)
  if gs.isEmpty then s.now else (gs.map (·.stoppedAt)).foldl max 0 + 64 + saveTerm s gs

/-- Whether a launch may issue its entry bundles: its drains are over, its pages resident, the launches it depends on
complete (R212, R241, R317). -/
def entryReady (s : State) (ctx : Nat) (b : Binding) (rc : BitVec 8192) (quads : List Nat) : Bool :=
  let named := recBufs rc
  quads.all (fun q => decide ((getQuad s q).drainEnd ≤ s.now)) && (leaseSet s ctx b.recIx rc).all (rangeResident s ctx) &&
    s.hub.buffers.all (fun e =>
      let acc := (named.filter (fun x => x.1 = e.1)).map (·.2.1)
      acc.isEmpty ||
        (!e.2.sweep && e.2.writers.all (fun n => decide (b.launch ≤ n)) &&
          (acc.all (· = 1) || e.2.readers.all (fun n => decide (b.launch ≤ n)))))

/-- Frames of the pages of a lease set are leased (R216). -/
def leaseFrames (s : State) (ctx : Nat) (l : List PageRange) : State :=
  { s with frames := s.frames.map (fun e =>
      match e.2.page with
      | some (c, vp) =>
        if l.any (fun r => rangeNames s ctx r c vp) then
          (e.1, { e.2 with st := .leased, lastLease := s.now, late := false })
        else e
      | none => e) }

/-- The pod channels of a gang continue from the module's next phases (R40). -/
def podChannels (s : State) (ctx : Nat) : State :=
  let b := getBlock s ctx
  match getGroup s (blkPodGrp b) with
  | some g =>
    (range' 0 (blkPodCh b)).foldl (fun s c =>
      setChan s { emptyChan { ctx := ctx, scope := 5, inst := 0, ch := c } with base := getPhase g.mine c }) s
  | none => s

/-- A quad as its gang's entry finds it: the record's regions and windows, the near image, empty stream queues (R284, R286). -/
def enterQuad (s : State) (ctx ri world : Nat) (rc : BitVec 8192) (q : Nat) : State :=
  let s1 := installWindows s ctx q rc
  let s2 := stashKeep s1 q (inKept (getQuad s1 q))
  let s3 := modQuad s2 q (fun x =>
    { x with temps := recTemps rc, streams := [[], [], [], []], pops := [], latches := [], power := .awake,
             busy := some ctx, world := some world, hold := none, served := [] })
  loadNear q (recTemps rc) (launchImage s ctx ri) s3

/-- QHEAD, NBOUND and WMAX when a request is bound (R280). -/
def noteBound (s : State) (ctx ix : Nat) : State :=
  let b := getBlock s ctx
  let wait := (s.now - ((reqOf s ctx ix).map (·.arrived)).getD s.now) / 940
  setBlock s ctx (blkSet (blkSet (blkSet b 0x10 4 (ix + 1)) 0x50 8 (blkField b 0x50 8 + 1)) 0x60 4
    (min (2 ^ 32 - 1) (max (blkField b 0x60 4) wait)))

/-- Every task of the gang issues its entry bundle in this period (R27, R283, R286). -/
def enterGang (s : State) (ctx : Nat) (b : Binding) (rc : BitVec 8192) (quads : List Nat) : State :=
  let blk := getBlock s ctx
  let lease := leaseSet s ctx b.recIx rc
  let g : Gang :=
    { ctx := ctx, world := blkWorld blk, tenant := blkTenant blk, launch := b.launch, ix := b.ix, record := rc, recIx := b.recIx,
      path := b.path ++ [b.recIx], quads := quads, lease := lease, duty := 16, nextDuty := 16,
      elapsed := 0, st := .running, stoppedAt := 0, image := none, cause := none, saves := 0, remap := [] }
  let s1 := quads.foldl (fun s q => enterQuad s ctx b.recIx (blkWorld blk) rc q) (setGang (leaseFrames s ctx lease) g)
  let s2 := (gangCores g).zipIdx.foldl (fun s e =>
    modCore s e.1 (bindCore ctx s.now (entryArch blk ctx b.ix e.2 rc) 0 (BitVec.ofNat 13 (recEntry rc)))) s1
  let s3 := setState (if b.path.isEmpty then noteBound s2 ctx b.ix else s2) ctx stRunning
  addTodo (podChannels (delBind s3 ctx) ctx) (gangCores g)

/-- A record's schedule written into every core of a set of quads that are not all warm for it (R287, R325). -/
def openQuads (s : State) (ctx i : Nat) (rc : BitVec 8192) (quads : List Nat) : State :=
  let blk := getBlock s ctx
  let code := loadCode s ctx i rc
  if quads.all (quadWarm s (blkWorld blk) ctx i rc) then s else
    quads.foldl (fun s q =>
      (range' (4 * q) 4).foldl (fun s c => modCore s c (loadCore (blkWorld blk) (blkSegment blk) (recNo blk i) code))
        (modQuad s q (fun x => { x with world := some (blkWorld blk) }))) s

/-- The end of the schedule step: the schedule is in every core of the gang (R287, R357). -/
def openSchedule (s : State) (ctx : Nat) (b : Binding) (rc : BitVec 8192) (quads : List Nat) : State :=
  quads.foldl (fun s q => modQuad s q (fun x => { x with power := .awake, idleSince := s.now })) (openQuads s ctx b.recIx rc quads)

/-- The end of the reading of a near image: it is staged (R287). -/
def endImage (s : State) (ctx : Nat) (b : Binding) (rc : BitVec 8192) : State :=
  if imageStaged s ctx b.recIx ∨ recNearLen rc = 0 then s else stageImage s ctx b.recIx

/-- A launch whose quads have been withdrawn is placed again (R14). -/
def placeAgain (s : State) (ctx : Nat) (b : Binding) : State :=
  setBind (setState (forgetLaunch s b.launch) ctx stReady) ctx { b with stage := .waiting, launch := 0 }

/-- Whether a launch has been given a quad that is withdrawn. -/
def quadsGone (s : State) (b : Binding) : Bool := !b.resume && !(stageQuads b.stage).all (quadUp s)

/-- Whether the victims of a launch have all been saved, or are gone (R357). -/
def victimsSaved (s : State) (victims : List Nat) : Bool :=
  victims.all (fun c => match getGang s c with | some g => g.image.isSome | none => true)

/-- A schedule whose measurement is not the one recorded at sealing: nothing is loaded, the request ends with code 0x82 (R325, R341). -/
def failLaunch (s : State) (ctx : Nat) (b : Binding) (quads : List Nat) : State :=
  let s1 := quads.foldl (fun s q => modQuad s q (fun x => { x with power := .clockGated, idleSince := s.now })) (forgetLaunch s b.launch)
  let s2 := if b.path.isEmpty then setBlock s1 ctx (blkSet (getBlock s1 ctx) 0x10 4 (b.ix + 1)) else s1
  wakeDeferred (endRequest s2 ctx b.ix 2 0x82 0 b.path)

/-- LAUNCH_START: the steps of a launch after its placement, each when the one before has ended (R286, R357); for a stopped gang
its placement on its quads. A schedule that is not intact, or whose measurement is not the one recorded, is not loaded (R325). A launch
whose quads are withdrawn is placed again (R14). -/
def execLaunchStart (r : LoadCheck) (s : State) : Out :=
  let ctx := r.ctx
  match getBind s ctx with
  | none => .next s
  | some b =>
    if quadsGone s b then .next (placeAgain s ctx b) else
    match b.stage with
    | .waiting => .next s
    | .deferred => .next s
    | .reserved quads =>
      match getGang s ctx with
      | some g =>
        if b.visible ≤ s.now ∧ quads.all (quadFree s ctx) ∧ channelsFree s ctx quads [] then .next (startResume s g) else .next s
      | none => .next s
    | .broadcast quads at_ victims wake up =>
      match routeRec s ctx b.recIx with
      | some rc =>
        if s.now < at_ then .next s
        else if victims.isEmpty then .next (beginAt s ctx b rc quads (s.now + wake) up)
        else .next (setBind (markVictims s victims) ctx { b with stage := .stopping quads victims })
      | none => .next s
    | .stopping quads victims =>
      match routeRec s ctx b.recIx with
      | some rc =>
        if victimsSaved s victims ∧ quads.all (fun q => (getQuad s q).busy.isNone) then .next (beginAt s ctx b rc quads (saveEnd s victims) 0) else .next s
      | none => .next s
    | .waking quads at_ up =>
      match routeRec s ctx b.recIx with
      | some rc => if s.now < at_ then .next s else .next (beginCold s ctx b rc quads up)
      | none => .next s
    | .unsealing quads at_ up =>
      match routeRec s ctx b.recIx with
      | some rc =>
        if s.now < at_ then .next s
        else if !(r.intact && measuredRight s ctx b.recIx) && !quads.all (quadWarm s (blkWorld (getBlock s ctx)) ctx b.recIx rc) then
          .next (failLaunch s ctx b quads)
        else .next (beginImage (openSchedule s ctx b rc quads) ctx b rc quads up)
      | none => .next s
    | .imaging quads at_ up =>
      match routeRec s ctx b.recIx with
      | some rc => if s.now < at_ then .next s else .next (beginStart (endImage s ctx b rc) ctx b rc quads up)
      | none => .next s
    | .starting quads at_ =>
      match routeRec s ctx b.recIx with
      | some rc => if at_ ≤ s.now ∧ entryReady s ctx b rc quads then .next (enterGang s ctx b rc quads) else .next s
      | none => .next s

/-! Staging ahead of the running launch (R299; log entry 53). -/

/-- Whether a launch of a record would be blocked by the launches in flight (R241). -/
def recBlocked (s : State) (rc : BitVec 8192) : Bool :=
  (recBufs rc).any (fun b => s.hub.buffers.any (fun e =>
    decide (e.1 = b.1) && (!e.2.writers.isEmpty || (decide (b.2.1 ≠ 1) && !e.2.readers.isEmpty))))

/-- The records that follow one through NEXT, as many at most; a record with DYN 1 ends the look-ahead, the index that follows it not
being known before it completes. -/
def recordsAhead (s : State) (ctx : Nat) : Nat → Nat → List Nat
  | 0, _ => []
  | n + 1, i =>
    match routeRec s ctx i with
    | none => []
    | some r =>
      if recDyn r ∨ recNext r = 0xFFFF ∨ (routeRec s ctx (recNext r)).isNone then [] else recNext r :: recordsAhead s ctx n (recNext r)

/-- Idle quads of a block's world on which a record's schedule may be opened: they still hold the world's schedule of an earlier
launch, as many as the shape has, the lowest of the first group of dies that has them; none when a set is warm already. -/
def idleQuads (s : State) (ctx i : Nat) (rc : BitVec 8192) : List Nat :=
  let b := getBlock s ctx
  let n := shapeQuads (blkShape b)
  let idle (q : Nat) : Bool :=
    quadFree s 16384 q && decide ((getQuad s q).power ≠ .gated ∧ (getQuad s q).drainEnd ≤ s.now ∧ (getQuad s q).world = some (blkWorld b))
  let sets := (dieGroups n).filterMap (fun ds => lowest n ((groupQuads ds).filter (fun q => idle q && loadable s q)))
  let warm := (dieGroups n).any (fun ds => decide (n ≤ ((groupQuads ds).filter (fun q => idle q && quadWarm s (blkWorld b) ctx i rc q)).length))
  match sets with
  | q :: _ => if warm ∨ n = 0 then [] else q
  | [] => []

/-- Whether a record's near image has still to be staged. -/
def imageWanted (s : State) (ctx i : Nat) : Bool :=
  match routeRec s ctx i with
  | some r => decide (0 < recNearLen r) && !imageStaged s ctx i
  | none => false

/-- What the command processor stages next for a running gang. -/
def nextStaging (s : State) (g : Gang) : Option Staging :=
  let take (i : Nat) (rc : BitVec 8192) (quads : List Nat) : Option Staging :=
    let image := imageWanted s g.ctx i
    if !image && quads.isEmpty then none
    else some { ctx := g.ctx, recIx := i, image := image, quads := quads,
                at_ := s.now + (if quads.isEmpty then 0 else coldSchedule s g.ctx i) + (if image then 512 + ceilDiv (recNearLen rc) 512 else 0) }
  if blkLookAhead (getBlock s g.ctx) then
    match (recordsAhead s g.ctx 8 g.recIx).find? (imageWanted s g.ctx) with
    | some i => (routeRec s g.ctx i).bind (fun rc => take i rc [])
    | none => none
  else
    match recordsAhead s g.ctx 1 g.recIx with
    | i :: _ => (routeRec s g.ctx i).bind (fun rc => if recBlocked s rc then take i rc (idleQuads s g.ctx i rc) else none)
    | [] => none

/-- The end of a piece of staging: the image is in the store, the schedule on the quads that are all still idle; one that is not measured
right is not loaded (R325), and is found so again when the launch is bound. -/
def endStaging (s : State) (x : Staging) : State :=
  let s0 := { s with hub := { s.hub with staging := s.hub.staging.erase x } }
  match routeRec s0 x.ctx x.recIx with
  | none => s0
  | some rc =>
    let w := some (blkWorld (getBlock s0 x.ctx))
    let s1 := if x.image then stageImage s0 x.ctx x.recIx else s0
    if measuredRight s1 x.ctx x.recIx && x.quads.all (fun q => quadFree s1 16384 q && decide ((getQuad s1 q).power ≠ .gated ∧ (getQuad s1 q).world = w) && loadable s1 q) then
      openQuads s1 x.ctx x.recIx rc x.quads
    else s1

/-- The command processor's staging in a period: what ends, then what begins, one piece at a time for a block. -/
def stageAhead (s : State) : State :=
  let s1 := (s.hub.staging.filter (fun x => x.at_ ≤ s.now)).foldl endStaging s
  { s1 with hub := { s1.hub with staging := s1.hub.staging ++
      (s1.hub.gangs.filter (fun e => decide (e.2.st = .running) && !s1.hub.staging.any (fun x => x.ctx = e.1))).filterMap (fun e => nextStaging s1 e.2) } }

/-! Replies (R341, R342, R358). -/

/-- Sends a reply on its port, or holds it when the port has lost its link. -/
def sendReply (s : State) (r : ReplyDue) : State :=
  match takeSeq s r.req.session with
  | (none, s1) => emit s1 (.dropped r.cls r.req.ctx r.req.rid)
  | (some q, s1) =>
    if s1.edge.links.getLsbD r.req.port then
      sendFrame s1 r.req.port r.cls r.req.ctx r.req.session r.req.rid q r.status (modIdent s1) r.body
        (replyWay s1 r.req.port r.req.origin)
    else
      let o : Outgoing := .frame r.req.port r.cls r.req.ctx r.req.session r.req.rid q r.status (modIdent s1) r.body
        (replyWay s1 r.req.port r.req.origin) s1.now
      { s1 with edge := { s1.edge with held := s1.edge.held ++ [{ port := r.req.port, since := s1.now, out := o }] } }

/-- The replies that are the first of their sessions, oldest first: those of one session leave in the order in which their routes ended
(R342). -/
def firstReplies : List Nat → List ReplyDue → List ReplyDue
  | _, [] => []
  | seen, r :: rest =>
    if seen.contains r.req.session then firstReplies seen rest else r :: firstReplies (r.req.session :: seen) rest

/-- The reply of a block that is due. -/
def dueReply (s : State) (ctx : Nat) : Option ReplyDue :=
  (firstReplies [] s.hub.replies).find? (fun r => decide (r.req.ctx = ctx ∧ r.since + 96 ≤ s.now))

/-- REPLY: 96 periods after the release the first byte leaves, in the order of its session. -/
def execReply (ctx : Nat) (s : State) : Out :=
  match dueReply s ctx with
  | some r => .next (sendReply { s with hub := { s.hub with replies := s.hub.replies.erase r } } r)
  | none => .next s

/-- REPLY_HOLD_EXPIRY: replies held for a port for 1 ms are dropped (R342). -/
def execReplyHoldExpiry (port : Nat) (s : State) : Out :=
  .next { s with edge := { s.edge with held := s.edge.held.filter (fun h => !decide (h.port = port ∧ h.since + 940000 ≤ s.now)) } }

/-! Ageing and gating (R291, R292). -/

/-- The period since which the head of a READY or STOPPED block waits. -/
def headSince (s : State) (ctx : Nat) : Option Nat :=
  let b := getBlock s ctx
  if blkState b = stReady then (reqOf s ctx (blkQhead b)).map (·.arrived)
  else if blkState b = stStopped then
    match getGang s ctx with
    | some g => if g.st = .stopped then some g.stoppedAt else none
    | none => none
  else none

/-- REQUEST_AGEING: AGED is set after 10 ms. -/
def execRequestAgeing (ctx : Nat) (s : State) : Out :=
  match headSince s ctx with
  | some t => .next (if t + 9400000 ≤ s.now then setBlock s ctx (setBlkAged (getBlock s ctx) true) else s)
  | none => .next s

/-- Whether a stopped gang counts on a quad. -/
def heldForStopped (s : State) (q : Nat) : Bool := s.hub.gangs.any (fun e => e.2.image.isSome && e.2.quads.contains q)

/-- QUAD_POWER_GATE: a quad idle for 100 µs is left by its world and power-gated. -/
def execQuadPowerGate (quad : Nat) (s : State) : Out :=
  let x := getQuad s quad
  .next (if x.power ≠ .gated ∧ x.busy.isNone ∧ x.idleSince + 94000 ≤ s.now ∧ ¬ heldForStopped s quad ∧ ¬ reservedFor s 16384 quad then
    gateQuad s quad else s)

/-! The governors (R293, R295). -/

/-- Whether a running gang is lowered before another: lower priority, then higher duty, then later launched. -/
def lowerFirst (s : State) (a b : Gang) : Bool :=
  let pa := curPrio (getBlock s a.ctx)
  let pb := curPrio (getBlock s b.ctx)
  decide (pa < pb) || (decide (pa = pb) && (decide (b.nextDuty < a.nextDuty) || (decide (a.nextDuty = b.nextDuty) && decide (b.launch < a.launch))))

/-- Whether a running gang is raised before another: higher priority, then lower duty, then earlier launched. -/
def raiseFirst (s : State) (a b : Gang) : Bool :=
  let pa := curPrio (getBlock s a.ctx)
  let pb := curPrio (getBlock s b.ctx)
  decide (pb < pa) || (decide (pa = pb) && (decide (a.nextDuty < b.nextDuty) || (decide (a.nextDuty = b.nextDuty) && decide (a.launch < b.launch))))

/-- The first gang of a list under an order. -/
def firstGang (before : Gang → Gang → Bool) (l : List Gang) : Option Gang :=
  l.foldl (fun acc g => match acc with | none => some g | some h => if before g h then some g else some h) none

/-- Changes the duty of a gang by a sixteenth. -/
def stepDuty (s : State) (up : Bool) : Option Gang → State
  | some g => setGang s { g with nextDuty := if up then g.nextDuty + 1 else g.nextDuty - 1 }
  | none => s

/-- GOVERNOR_READING of so many watts. -/
def execGovernorReading (watts : Nat) (s : State) : Out :=
  let run := (s.hub.gangs.map (·.2)).filter (fun g => decide (g.st = .running))
  let count (s : State) (n : Nat) : State := { s with edge := { s.edge with governor := n } }
  if 2350 < watts then
    .next (count (stepDuty s false (firstGang (lowerFirst s) (run.filter (fun g => decide (1 < g.nextDuty))))) 0)
  else if 2250 ≤ watts then .next (count s 0)
  else if 10 ≤ s.edge.governor + 1 then
    .next (count (stepDuty s true (firstGang (raiseFirst s) (run.filter (fun g => decide (g.nextDuty < 16))))) 0)
  else .next (count s (s.edge.governor + 1))

/-- DROOP_DETECTION: the limit is lowered from the next period. -/
def execDroopDetection (die : Nat) (s : State) : Out :=
  .next (modDie s die (fun d => { d with nextLimit := if d.nextLimit = 6 then 2 else 1, quiet := 0, droop := true }))

/-- DROOP_RECOVERY: 1,024 periods without a detection raise the limit. -/
def execDroopRecovery (die : Nat) (s : State) : Out :=
  .next (modDie s die (fun d =>
    if 1024 ≤ d.quiet then
      let l := if d.nextLimit = 1 then 2 else 6
      { d with limit := l, nextLimit := l, quiet := 0 }
    else d))

/-! Bandwidth (R297, R298). -/

/-- A tenant was idle in the window that ends. -/
def wasIdle (d : Die) (e : Nat × Bucket) : Bool := !e.2.took && !d.waitq.any (fun w => w.tenant = e.1)

/-- The buckets at the start of a window. -/
def refill (d : Die) : List (Nat × Bucket) :=
  let r := ((d.buckets.filter (wasIdle d)).map (·.2.tokens)).foldl (· + ·) 0
  let a := ((d.buckets.filter (fun e => !wasIdle d e)).map (·.2.share)).foldl (· + ·) 0
  d.buckets.map (fun e =>
    let own := d.grant * e.2.share / 65536
    (e.1, { e.2 with tokens := if !wasIdle d e && decide (0 < a) then own + r * e.2.share / a else own, took := false }))

/-- Waiting lines take the tokens that their tenant has. -/
def grantLine (d : Die) (w : TokenWait) : Die :=
  let b := getBucket d w.tenant
  let k := min w.lines b.tokens
  let d1 := if k = 0 then d else setBucket d w.tenant { b with tokens := b.tokens - k, took := true }
  if k = w.lines then { d1 with granted := d1.granted ++ [w.ident] } else { d1 with waitq := d1.waitq ++ [{ w with lines := w.lines - k }] }

/-- BUCKET_WINDOW_START: once at the start of each window, then the waiting lines take tokens in their order. -/
def execBucketWindowStart (die : Nat) (s : State) : Out :=
  let d := getDie s die
  let k := s.now / 1024
  if s.now % 1024 = 0 ∧ d.window ≤ k then
    .next (setDie s die (d.waitq.foldl grantLine { d with buckets := refill d, waitq := [], window := k + 1 }))
  else .next s

end Sys2Proof.Machine
end

