-- ==== Sys2Proof/Machine/Pod.lean ====
section
/-! DEFINITION. The Ethernet side: requests, management frames, pod transfers and their answers, pod collectives, the send ring and
the links (R40, R282, R300, R335 to R348, R358). -/

namespace Sys2Proof.Machine

/-! Frames that arrive (R335 to R338, R343). -/

/-- The functions answer (R356 step 6). -/
def answers (s : State) : Bool := decide (2 ≤ s.edge.boot.stage)

/-- A frame dropped and counted in its port's telemetry (R337). -/
def dropFrame (s : State) (port : Nat) : State :=
  { s with edge := { s.edge with portErrors := alSet 0 s.edge.portErrors port (alGet 0 s.edge.portErrors port + 1) } }

/-- The 40 header bytes of a frame (R336). -/
def headerBytes (f : UFrame) : List Byte :=
  leBytes f.version 1 ++ leBytes f.cls 1 ++ leBytes f.reserved 2 ++ leBytes f.ctx 2 ++ leBytes f.session 2 ++ leBytes f.rid 8 ++
    leBytes f.seq 8 ++ leBytes f.len 4 ++ leBytes f.status 4 ++ leBytes f.modid 4 ++ leBytes f.reserved2 4

/-- The nonce of a frame (R338): SEQ in [63:0], SESSION in [79:64], DIR in [80]. -/
def frameNonce (session seq : Nat) (dir : Bool) : BitVec 96 :=
  (0#15 ++ BitVec.ofBool dir ++ BitVec.ofNat 16 session ++ BitVec.ofNat 64 seq : BitVec 96)

/-- The key of a session: that of the pod for session 0 (R339). -/
def sessionKey (s : State) (n : Nat) : BitVec 256 :=
  if n = 0 then s.edge.podKey.getD 0 else ((getSession s n).map (·.key)).getD 0

/-- The tag that a frame has to carry under its session's key (R338); DIR is 1 for the reply to an INVOKE that this module sent (R339). -/
def frameTag (s : State) (f : UFrame) (dir : Bool) : List Byte :=
  (Config.gcmSeal (sessionKey s f.session) (frameNonce f.session f.seq dir) (headerBytes f) f.body).drop f.body.length

/-- The check of a frame's tag. -/
def tagGood (s : State) (f : UFrame) (dir : Bool) : Bool := decide (f.tag = frameTag s f dir)

/-- Bytes of a frame that arrives: its Ethernet, IP and UDP headers, the UDP payload and the FCS. -/
def arrivedBytes (f : UFrame) : Nat :=
  14 + (if f.origin.tag.isSome then 4 else 0) + (if f.origin.v6 then 40 else 20) + 8 + f.payload + 4

/-- Whether a frame is addressed to the module's own IP address; any other goes to the management path (R343). -/
def addressedHere (s : State) (o : Origin) : Bool := decide (ownAddress s o.v6 = some o.dst)

/-- Goes on with a frame whose FCS is good, of at most 9,216 bytes, that is a Uludin frame for this module, once the functions answer
(R335, R337, R343, R356). -/
def arriving (port : Nat) (f : UFrame) (s : State) (go : State → Out) : Out :=
  if !f.fcsOk || decide (9216 < arrivedBytes f) || !answers s then .next (dropFrame s port)
  else if f.origin.udpDst.toNat ≠ uludinPort ∨ !addressedHere s f.origin then .next (emit s (.management port (headerBytes f ++ f.body)))
  else go s

/-- The header rules that every class shares: the offset of the first field that breaks one. -/
def headerFault (f : UFrame) (classes : Nat → Bool) (modid : Nat) : Option Nat :=
  if f.version ≠ 1 then some 0
  else if f.reserved ≠ 0 then some 2
  else if f.reserved2 ≠ 0 then some 0x24
  else if !classes f.cls then some 1
  else if f.modid ≠ modid then some 0x20
  else if 4032 < f.len ∨ f.payload < 56 + f.len ∨ f.body.length ≠ f.len then some 0x18
  else none

/-- The module that a frame of session 0 comes from: the one whose address-table entry has its IP source address (log entry 40). -/
def podSender (s : State) (o : Origin) : Option Nat :=
  (s.hub.addrTable.find? (fun e => decide ((if o.v6 then e.2.v6 else e.2.v4.map (·.setWidth 128)) = some o.src))).map (·.1)

/-- Goes on with a frame of session 0: its key installed, its SEQ fresh for its sender, its tag good, its header as the rules have it; a
frame that breaks the header rules is logged and dropped, for no tenant owns the session (R337 to R339). -/
def podSession (port : Nat) (f : UFrame) (classes : Nat → Bool) (go : Nat → State → Out) (s : State) : Out :=
  match (if s.edge.podKey.isSome then podSender s f.origin else none) with
  | none => .next (dropFrame s port)
  | some src =>
    let p := getPeer s src
    if !p.fresh f.seq || !tagGood s f false then .next (dropFrame s port)
    else
      let s1 := setPeer s src (p.mark f.seq)
      if (headerFault f classes (modIdent s1)).isSome ∨ f.ctx ≠ 0 then .next (logEntry s1 2 src f.rid) else go src s1

/-! Requests (R282, R337, R340, R341). -/

/-- The tenant of a world: of its key slot, or of its blocks that hold content (R316). -/
def worldTenant (s : State) (w : Nat) : Nat :=
  match s.hub.keys.find? (fun e => decide (e.2.world = w ∧ e.2.st ≠ 0)) with
  | some (_, k) => k.tenant
  | none => ((s.hub.blocks.find? (fun e => decide (blkWorld e.2 = w ∧ blkState e.2 ≠ stFree))).map (fun e => blkTenant e.2)).getD 0

/-- The rules of a request: its block is there and belongs to the session's world. -/
def requestFault (s : State) (f : UFrame) (world : Nat) : Option Nat :=
  match headerFault f (fun c => decide (1 ≤ c ∧ c ≤ 15)) (modIdent s) with
  | some o => some o
  | none =>
    let b := getBlock s f.ctx
    if 16384 ≤ f.ctx ∨ blkState b = stFree ∨ blkWorld b ≠ world then some 4 else none

/-- Offset of the ring field of a block that breaks R280 to R282. -/
def ringFault (s : State) (ctx : Nat) : Option Nat :=
  let b := getBlock s ctx
  let q := blkQbase b
  if q % 2097152 ≠ 0 ∨ ¬ (range' 0 (min 16 (blkNlease b))).any (fun i =>
      let r := blkLease b i; r.rw && decide (r.vpage ≤ q / 2097152 ∧ q / 2097152 < r.vpage + r.pages)) then some 8
  else if 9 < blkQlog2 b then some 0x18
  else if 2 ^ blkQlog2 b < (blkQtail b + 2 ^ 32 - blkQhead b) % 2 ^ 32 then some 0x14
  else none

/-- The bytes of a ring entry (R282, R340). -/
def entryBytes (f : UFrame) (port arrival : Nat) (digest : BitVec 256) : List Byte :=
  leBytes f.len 4 ++ leBytes port 2 ++ leBytes f.cls 1 ++ [0#8] ++ leBytes arrival 8 ++ leBytes f.rid 8 ++ leBytes digest.toNat 32 ++
    leBytes 0 8 ++ f.body

/-- Writes the ring entries of a block that wait, those whose page is there and whose lines can be written now. -/
def flushEntries (s : State) (ctx : Nat) : State :=
  s.hub.reqs.foldl (fun s r =>
    let va := ringVa (getBlock s ctx) r.ix
    if r.ctx = ctx ∧ r.entry ≠ [] ∧ (hubLoc s ctx va).isSome ∧ hubReady s true ctx va r.entry.length then
      match hubRecalls s ctx va r.entry.length with
      | (true, s0) =>
        let s1 := hubWrite s0 ctx va r.entry
        { s1 with hub := { s1.hub with reqs := s1.hub.reqs.map (fun x => if x = r then { x with entry := [] } else x) } }
      | (false, s0) => s0
    else s) s

/-- A request that has passed its checks enters the ring, or is refused. The step stands for the end of the lookup, 64 periods after
the last header byte. -/
def lookupRequest (s : State) (port : Nat) (f : UFrame) : State :=
  let b := getBlock s f.ctx
  let arrived := s.now - 64
  let digest := Config.shake256 (headerBytes f ++ f.body)
  let r : Request :=
    { ctx := f.ctx, ix := blkQtail b, port := port, session := f.session, rid := f.rid, digest := digest, origin := f.origin,
      arrived := arrived, entry := entryBytes f port (2 * arrived) digest }
  let refuse (status code : Nat) : State :=
    { s with hub := { s.hub with replies := s.hub.replies ++ [(makeReply s r status code 0 []).1] } }
  if blkState b = stHalted then refuse 2 0x83
  else
    match ringFault s f.ctx with
    | some off => contain s (blkTenant b) 2 f.ctx off
    | none =>
      if (blkQtail b + 2 ^ 32 - blkQhead b) % 2 ^ 32 = 2 ^ blkQlog2 b then refuse 1 0
      else
        let s1 := setBlock { s with hub := { s.hub with reqs := s.hub.reqs ++ [r] } } f.ctx (blkSet b 0x14 4 (blkQtail b + 1))
        let s2 := flushEntries s1 f.ctx
        if blkState b = stIdle then setBind (setState s2 f.ctx stReady) f.ctx (newBinding (blkQhead b) s.now) else s2

/-- A frame of a tenant's ROLE 0 session (R337, R339): SEQ, tag, header rules, lookup. -/
def sessionFrame (port : Nat) (f : UFrame) (s : State) : Out :=
  match getSession s f.session with
  | none => .next (dropFrame s port)
  | some x =>
    if x.role ≠ 0 ∨ !x.sq.fresh f.seq ∨ !tagGood s f false then .next (dropFrame s port)
    else
      let s1 := setSession s f.session { x with sq := x.sq.mark f.seq }
      match requestFault s1 f x.world with
      | some off => .next (contain s1 (worldTenant s1 x.world) 1 f.ctx off)
      | none => .next (lookupRequest s1 port f)

/-- INVOKE (R337, R343). No class is one of session 0 here. -/
def execInvoke (port : Nat) (f : UFrame) (s : State) : Out :=
  arriving port f s (fun s => if f.session = 0 then podSession port f (fun _ => false) (fun _ s => .next s) s else sessionFrame port f s)

/-- MANAGEMENT_FRAME (R335, R352): handed to the packet cores. -/
def execManagementFrame (port : Nat) (bytes : List Byte) (s : State) : Out := .next (emit s (.management port bytes))

/-! The bytes of a frame that the module sends (R335, R336, R338). -/

/-- The UDP payload: the header, the body's ciphertext and the tag, under the key of the session. A reply goes with DIR 1, a request and a
pod frame with DIR 0 (R339; log entry 84). -/
def udpPayload (s : State) : Outgoing → List Byte
  | .frame _ cls ctx session rid seq status modid body _ _ =>
    let hdr := leBytes 1 1 ++ leBytes cls 1 ++ leBytes 0 2 ++ leBytes ctx 2 ++ leBytes session 2 ++ leBytes rid 8 ++ leBytes seq 8 ++
      leBytes body.length 4 ++ leBytes status 4 ++ leBytes modid 4 ++ leBytes 0 4
    hdr ++ Config.gcmSeal (sessionKey s session) (frameNonce session seq (decide (0x80 < cls))) hdr body
  | _ => []

/-- The sum of the 16-bit big-endian words of a list. -/
def wordSum : List Byte → Nat
  | [] => 0
  | [a] => 256 * a.toNat
  | a :: b :: rest => 256 * a.toNat + b.toNat + wordSum rest

/-- The UDP checksum of a payload over its IP version's pseudo-header (log entry 84). -/
def udpChecksum (w : Way) (payload : List Byte) : Nat :=
  let be (v n : Nat) : List Byte := (leBytes v n).reverse
  let n := 8 + payload.length
  let k := if w.v6 then 16 else 4
  let sum := wordSum (be w.ipSrc.toNat k ++ be w.ipDst.toNat k ++ be n 4 ++ be 17 4 ++ be w.udpSrc 2 ++ be w.udpDst 2 ++ be n 2) + wordSum payload
  let c := 65535 - ((sum - 1) % 65535 + 1)
  if c = 0 then 65535 else c

/-- The UDP datagram of a frame that the module sends: ports, length, checksum, payload. -/
def udpDatagram (s : State) (o : Outgoing) : List Byte :=
  match o with
  | .frame _ _ _ _ _ _ _ _ _ w _ =>
    let be (v n : Nat) : List Byte := (leBytes v n).reverse
    let p := udpPayload s o
    be w.udpSrc 2 ++ be w.udpDst 2 ++ be (8 + p.length) 2 ++ be (udpChecksum w p) 2 ++ p
  | _ => []

/-! The home of pod transfers (R344, R346). -/

/-- A field of a body. -/
def bodyField (b : List Byte) (off len : Nat) : Nat := leNat ((b.drop off).take len)

/-- The body of a PLOAD, PSTORE or PATOM; none when it breaks R346. -/
def podRequest (src : Nat) (f : UFrame) : Option PodReq :=
  let g := bodyField f.body
  let r : PodReq :=
    { src := src, xfer := g 0 4, world := g 4 2, fn := g 6 1, paddr := g 8 8, mask := BitVec.ofNat 64 (g 0x10 8), data := f.body.drop 0x20 }
  let ok := decide (f.rid = r.xfer ∧ g 7 1 = 0 ∧ g 0x18 8 = 0) &&
    match f.cls with
    | 0x40 => decide (f.len = 32 ∧ r.fn = 0 ∧ r.mask = 0 ∧ r.paddr % 64 = 0)
    | 0x41 => decide (f.len = 96 ∧ r.fn = 0 ∧ r.paddr % 64 = 0)
    | _ => decide (f.len = 96 ∧ r.fn ≤ 9 ∧ r.mask = 0 ∧ r.paddr % 8 = 0 ∧ g 0x30 48 = 0)
  if ok then some r else none

/-- The answer recorded for a transfer of a module. -/
def recorded (s : State) (src xfer : Nat) : Option PodAns :=
  (s.hub.answered.find? (fun e => decide (e.1 = xfer ∧ e.2.1 = src))).map (·.2.2)

/-- The body of a PREPLY. -/
def preplyBody (a : PodAns) : List Byte := leBytes a.xfer 4 ++ leBytes a.result 1 ++ leBytes 0 3 ++ a.data

/-- Sends an answer to a module. -/
def sendAnswer (s : State) (dest : Nat) (a : PodAns) : State := sendPod s 0x43 dest a.xfer (preplyBody a)

/-- Records and sends the answer to a transfer. -/
def answer (s : State) (r : PodReq) (result : Nat) (data : List Byte) : State :=
  let a : PodAns := { xfer := r.xfer, result := result, data := data }
  sendAnswer { s with hub := { s.hub with answered := s.hub.answered ++ [(r.xfer, r.src, a)] } } r.src a

/-- The local address of a pod address. -/
def podPa (r : PodReq) : Nat := r.paddr % 2 ^ 46

/-- Whether the target frame is in this module's export table for the world (R344). -/
def isExported (s : State) (r : PodReq) : Bool :=
  decide (r.paddr / 2 ^ 46 = s.edge.pkgid) && s.hub.exports.any (fun e => decide (e.1 = frameOf (podPa r) ∧ e.2 = r.world)) &&
    !isHole (podPa r)

/-- A load of a line for a peer. -/
def podLoad (r : PodReq) (s : State) : State :=
  let (bytes, bad) := readLine s none (podPa r)
  let (_, s1) := nextStamp (noteRead s none (podPa r))
  if bad then answer s1 r 2 [] else answer s1 r 0 bytes

/-- A store of masked bytes of a line for a peer. -/
def podStore (r : PodReq) (s : State) : State :=
  let (_, s1) := nextStamp s
  answer (writeLine s1 none (podPa r) r.mask (lineOfBytes r.data)) r 0 []

/-- The two operands of a PATOM, and the old value with whether its line failed. -/
def podOperands (r : PodReq) : Word × Word :=
  (BitVec.ofNat 64 (leNat (r.data.take 8)), BitVec.ofNat 64 (leNat ((r.data.drop 8).take 8)))
def podOld (s : State) (r : PodReq) : Word × Bool :=
  let (bytes, bad) := readLine s none (podPa r / 64 * 64)
  (BitVec.ofNat 64 (leNat ((bytes.drop (podPa r % 64)).take 8)), bad)

/-- An atomic of R117 for a peer, as one step; on a failed line it leaves the line unchanged (R360). -/
def podAtom (r : PodReq) (s : State) : State :=
  let pa := podPa r / 64 * 64
  let off := podPa r % 64
  let (d, c) := podOperands r
  let (old, bad) := podOld s r
  let (_, s1) := nextStamp (noteRead s none pa)
  if bad then answer s1 r 2 []
  else
    let s2 := if atomWrites r.fn old c then
        writeLine s1 none pa (runMask off 8) ((atomFn r.fn old d c).setWidth 512 <<< (8 * off))
      else s1
    answer (ringBells s2 5 pa) r 0 (leBytes old.toNat 8)

/-- Whether a transfer writes its line. -/
def podWrites (s : State) (cls : Nat) (r : PodReq) : Bool :=
  match cls with
  | 0x40 => false
  | 0x41 => true
  | _ => let (old, bad) := podOld s r; !bad && atomWrites r.fn old (podOperands r).2

/-- What a transfer does at its home. -/
def performPod (cls : Nat) (r : PodReq) (s : State) : State :=
  match cls with
  | 0x40 => podLoad r s
  | 0x41 => podStore r s
  | _ => podAtom r s

/-- A transfer performs at its home, unless its line stands in a held quad (R311), its write waits for a rekey (R319), or the writeback it
forces for a token (R298). -/
def tryPod (cls : Nat) (r : PodReq) (s : State) : Bool × State :=
  let l : Loc := { peer := none, pa := podPa r / 64 * 64 }
  let writes := podWrites s cls r
  if lineHeld s l || (writes && (recallHeld s l || sealWaits s l)) then (false, s)
  else
    match takeRecalls (if writes then [l] else []) s with
    | (true, s1) => (true, performPod cls r s1)
    | (false, s1) => (false, s1)

/-- Whether a transfer of a module waits here. -/
def podWaits (s : State) (r : PodReq) : Bool :=
  s.waiting.any (fun d => match d with | .pod _ x => decide (x.src = r.src ∧ x.xfer = r.xfer) | _ => false)

/-- Serves a pod request once: a repeated transfer number is answered from the record, a frame that is not exported is refused, a
body that breaks R346 is dropped and logged. -/
def servePod (f : UFrame) (src : Nat) (s : State) : Out :=
  match podRequest src f with
  | none => .next (logEntry s 2 src f.rid)
  | some r =>
    match recorded s src r.xfer with
    | some a => .next (sendAnswer s src a)
    | none =>
      if !isExported s r then .next (answer s r 1 [])
      else if podWaits s r then .next s
      else
        match tryPod f.cls r s with
        | (true, s1) => .next s1
        | (false, s1) => .next { s1 with waiting := s1.waiting ++ [.pod f.cls r] }

/-- A frame of a pod class: under session 0 it is taken, under a tenant's it is malformed (R337, R340). -/
def podFrame (cls : Nat) (f : UFrame) (go : Nat → State → Out) (s : State) : Out :=
  arriving f.origin.port f s (fun s =>
    if f.session = 0 then podSession f.origin.port f (fun c => decide (c = cls)) go s else sessionFrame f.origin.port f s)

/-- PLOAD. -/
def execPload (f : UFrame) (s : State) : Out := podFrame 0x40 f (servePod f) s

/-- PSTORE: masked bytes of a line. -/
def execPstore (f : UFrame) (s : State) : Out := podFrame 0x41 f (servePod f) s

/-- PATOM. -/
def execPatom (f : UFrame) (s : State) : Out := podFrame 0x42 f (servePod f) s

/-! Answers to this module's transfers. -/

/-- Bytes of a poisoned result, which the spec leaves open. -/
def freeBytes (s : State) (n : Nat) : List Byte × State :=
  ((range' s.freeCtr n).map Config.freeByte, { s with freeCtr := s.freeCtr + n })

/-- Removes a transfer. -/
def dropXfer (s : State) (x : PodXfer) : State := { s with hub := { s.hub with xfers := s.hub.xfers.filter (fun y => y.num ≠ x.num) } }

/-- A far load's or atomic's line from a peer. -/
def landPart (s : State) (x : PodXfer) (bytes : List Byte) (bad : Bool) : State :=
  match (getCore s x.core).arch.order.far.find? (fun f => f.parts.any (fun p => p.ident = x.ident)) with
  | none => s
  | some op =>
    match op.parts.find? (fun p => p.ident = x.ident) with
    | none => s
    | some p =>
      let (n, s1) := nextStamp s
      let s2 := if op.kind = .prefetch then s1 else noteStamp s1 x.core op.colour n
      let got := if x.cls = 0x42 then bytes.take 8 else (bytes.drop (p.loc.pa % 64)).take p.len
      finishPart s2 x.core x.ident (n, got, bad)

/-- A chunk's line from a peer; a chunk no longer mapped to it, or registered meanwhile, takes nothing. The peer has read the line
between the sending and the answer: the chunk is as old as the sending, the load as young as the answer, so that no refetch is
missed (R220; log entry 69). -/
def landFill (s : State) (x : PodXfer) (bytes : List Byte) (bad : Bool) : State :=
  let key := x.ident
  let a := key % 65536 * 64
  match regionOf s (key / 65536) a with
  | .mapped _ w =>
    if chunkLoc s w a = some { peer := some x.peer, pa := x.pa } ∧ ¬ ((getChunk s key).map (·.dirty)).getD false then
      let s1 := placeLine s key x.stamp bytes bad
      match fillColour x with
      | some k => let (n, s2) := nextStamp s1; noteStamp s2 x.core k n
      | none => s1
    else s
  | _ => s

/-- An answer for an engine command: a line fetched, or a write that has performed. -/
def landEngine (s : State) (x : PodXfer) (bytes : List Byte) (bad : Bool) : State :=
  (List.finRange 5).foldl (fun s k =>
    modArchOf s x.core (fun a =>
      let u := vget a.q k
      { a with q := vset a.q k { u with cmds := u.cmds.map (fun c =>
          if c.waitFor.contains x.num then
            { c with waitFor := c.waitFor.erase x.num,
                     fetched := if x.kind = 2 ∧ x.cls = 0x40 then ({ peer := some x.peer, pa := x.pa }, bytes, bad) :: c.fetched
                       else c.fetched }
          else c) } })) s

/-- What an answer, or its absence, does: `bad` for a poisoned result; a store is then discarded and logged. -/
def landXfer (s : State) (x : PodXfer) (bytes : List Byte) (bad : Bool) : State :=
  let s0 := dropXfer s x
  let (bs, s1) := if bad then freeBytes s0 64 else (bytes, s0)
  let s2 := if bad ∧ x.cls = 0x41 then logEntry s1 3 x.peer x.pa else s1
  match x.kind with
  | 0 => landPart s2 x bs bad
  | 1 => landFill s2 x bs bad
  | 2 => landEngine s2 x bs bad
  | 3 => dropStore s2 x.core x.ident
  | 5 => landEngine s2 x bs bad
  | _ => s2

/-- The bytes of DATA in the PREPLY of a transfer (R346). -/
def answerLength (cls result : Nat) : Nat := if result ≠ 0 ∨ cls = 0x41 then 0 else if cls = 0x40 then 64 else 8

/-- The body of a PREPLY to a transfer; none when it breaks R346. -/
def podAnswer (cls : Nat) (f : UFrame) : Option PodAns :=
  let g := bodyField f.body
  let r : PodAns := { xfer := g 0 4, result := g 4 1, data := f.body.drop 8 }
  if f.rid = r.xfer ∧ g 5 3 = 0 ∧ r.result ≤ 2 ∧ f.len = 8 + answerLength cls r.result then some r else none

/-- A PREPLY: a transfer that is not awaited is ignored, a body that breaks R346 is dropped and logged. -/
def takeAnswer (f : UFrame) (src : Nat) (s : State) : Out :=
  match s.hub.xfers.find? (fun x => decide (x.num = f.rid ∧ x.kind ≠ 4 ∧ s.edge.podid * 1024 + x.peer = src)) with
  | none => .next s
  | some x =>
    match podAnswer x.cls f with
    | some r => .next (landXfer s x r.data (decide (r.result ≠ 0)))
    | none => .next (logEntry s 2 src f.rid)

/-- PREPLY (R344). -/
def execPreply (f : UFrame) (s : State) : Out := podFrame 0x43 f (takeAnswer f) s

/-- The module a transfer goes to. -/
def xferDest (s : State) (x : PodXfer) : Nat := if x.kind = 4 then x.peer else s.edge.podid * 1024 + x.peer

/-- The body of a transfer as it is sent again. -/
def xferBody (x : PodXfer) : List Byte := if x.kind = 4 then x.data else podBody x

/-- POD_TRANSFER_RESEND: 16 µs without an answer; after eight resends the transfer has failed (R344); a PCOLL is sent again until it is
acknowledged (R346). -/
def execPodTransferResend (xfer : Nat) (s : State) : Out :=
  match s.hub.xfers.find? (fun x => x.num = xfer) with
  | none => .next s
  | some x =>
    if s.now < x.sentAt + 15040 then .next s
    else if x.kind ≠ 4 ∧ 8 ≤ x.resends then .next (landXfer s x [] true)
    else
      let s1 := { s with hub := { s.hub with xfers := s.hub.xfers.map (fun y =>
        if y.num = xfer then { y with sentAt := s.now, resends := y.resends + 1 } else y) } }
      .next (sendPod s1 x.cls (xferDest s x) x.num (xferBody x))

/-! Pod barriers and collectives (R40, R345, R346). -/

/-- Acknowledges a PCOLL. -/
def ackPcoll (s : State) (r : PColl) : State :=
  sendPod s 0x50 r.src r.xfer (pcollBody { plainPcoll r.group r.channel 4 r.phase with src := modIdent s, xfer := r.xfer })

/-- The acknowledgement of one of this module's PCOLLs. -/
def ackArrives (s : State) (r : PColl) : State :=
  { s with hub := { s.hub with xfers := s.hub.xfers.filter (fun x => !decide (x.kind = 4 ∧ x.num = r.xfer ∧ x.peer = r.src)) } }

/-- A PCOLL that is new takes effect: arrival, release, part or result. -/
def applyPcoll (s : State) (g : PodGroup) (r : PColl) : State :=
  match r.kind with
  | 0 =>
    let old := g.theirs.find? (fun e => decide (e.1 = r.channel ∧ e.2.1 = r.src))
    let n := match old with | some (_, _, k) => max k (r.phase + 1) | none => r.phase + 1
    let rest := g.theirs.filter (fun e => !decide (e.1 = r.channel ∧ e.2.1 = r.src))
    podAdvance (setGroup s r.group { g with theirs := rest ++ [(r.channel, r.src, n)] }) r.group r.channel r.phase
  | 1 => podRelease s r.group r.channel r.phase
  | 2 => podCollStep (setGroup s r.group (storeFrag g r)) r.group r.channel r.phase
  | 3 =>
    let s1 := setGroup s r.group (storeFrag g r)
    (treeChildren (groupPos s g) g.members.length).foldl (fun s j => sendFrags s (nthD g.members j 0) [{ r with src := modIdent s }]) s1
  | _ => s

/-- Whether the fragment of a part or result lies in its buffer as R346 has it; a part that stands for a mismatch or for poison has TOTAL
0 (log entry 25). -/
def fragmentOk (r : PColl) : Bool :=
  decide (r.op ≤ 2 ∧ r.fnfmt < 8 ∧ r.offset % 4 = 0 ∧ r.total % 4 = 0 ∧ r.total ≤ 65536 ∧ r.data.length % 4 = 0 ∧
    r.data.length ≤ 4000 ∧ r.offset + r.data.length ≤ r.total)

/-- The body of a PCOLL; none when it breaks R346. -/
def podColl (src : Nat) (x : CollFrame) : Option PColl :=
  let g := bodyField x.frame.body
  let r : PColl :=
    { src := src, group := g 0 2, channel := g 2 1, kind := g 3 1, phase := g 4 4, xfer := g 8 4, op := g 0xC 1, fnfmt := g 0xD 1,
      root := g 0xE 2, offset := g 0x10 4, total := g 0x14 4, data := x.frame.body.drop 0x20, tasks := x.tasks }
  let ok := decide (32 ≤ x.frame.len ∧ x.frame.rid = r.xfer ∧ g 0x18 8 = 0 ∧ r.kind ≤ 4) &&
    (if r.kind = 2 ∨ r.kind = 3 then fragmentOk r else decide (r.data = []))
  if ok then some r else none

/-- A PCOLL: acknowledged, and applied the first time its transfer number arrives; one of a group this module is not in is dropped and
logged. -/
def takePcoll (x : CollFrame) (src : Nat) (s : State) : Out :=
  match podColl src x with
  | none => .next (logEntry s 2 src x.frame.rid)
  | some r =>
    if r.kind = 4 then .next (ackArrives s r)
    else
      match getGroup s r.group with
      | none => .next (logEntry s 2 src r.xfer)
      | some g =>
        if !g.members.contains src ∨ g.channels ≤ r.channel then .next (logEntry s 2 src r.xfer)
        else if (recorded s src r.xfer).isSome then .next (ackPcoll s r)
        else
          let a : PodAns := { xfer := r.xfer, result := 0, data := [] }
          .next (applyPcoll (ackPcoll { s with hub := { s.hub with answered := s.hub.answered ++ [(r.xfer, src, a)] } } r) g r)

/-- PCOLL (R345). -/
def execPcoll (x : CollFrame) (s : State) : Out := podFrame 0x50 x.frame (takePcoll x) s

/-! The send ring (R348). -/

/-- The virtual address of entry `n` of a send ring. -/
def sendVa (b : BitVec 2048) (n : Nat) : Nat := blkSendq b + 4096 * (1 + n % 256)

/-- Whether a block's send ring is a page of a read-write lease range (R280, R348). -/
def sendRingOk (s : State) (ctx : Nat) : Bool :=
  let b := getBlock s ctx
  let q := blkSendq b
  decide (q % 2097152 = 0) && (range' 0 (min 16 (blkNlease b))).any (fun i =>
    let r := blkLease b i; r.rw && decide (r.vpage ≤ q / 2097152 ∧ q / 2097152 < r.vpage + r.pages))

/-- Writes STATE of an entry. -/
def sendState (s : State) (ctx n v : Nat) : State := hubWrite s ctx (sendVa (getBlock s ctx) n + 7) (leBytes v 1)

/-- An entry fails: STATE 3, RSTATUS all ones. -/
def sendFails (s : State) (ctx n : Nat) : State :=
  sendState (hubWrite s ctx (sendVa (getBlock s ctx) n + 0x20) (leBytes 0xFFFFFFFF 4)) ctx n 3

/-- The header of an entry as the hub reads it. -/
def sendHeader (s : State) (ctx n : Nat) : List Byte × State :=
  let (l, s1) := hubFetch s ctx (sendVa (getBlock s ctx) n) 64
  (l.map (·.1), s1)

/-- Sends the INVOKE of an entry with a header, if a port and a SEQ are to be had. -/
def sendInvoke (s : State) (ctx n : Nat) (e : List Byte) : State :=
  let f := bodyField e
  let dest := f 0 4 % 2 ^ 18
  let (l, s0) := hubFetch s ctx (sendVa (getBlock s ctx) n + 64) (f 0x18 4)
  match (addrOf s0 dest).bind (fun a => (pickPort s0 a.ports).map (fun p => (a, p))) with
  | none => emit s0 (.dropped (f 6 1) ctx (f 0x10 8))
  | some (a, p) =>
    match takeSeq s0 (f 4 2) with
    | (some q, s1) => sendFrame s1 p (f 6 1) (f 8 2) (f 4 2) (f 0x10 8) q 0 dest (l.map (·.1)) (moduleWay s1 p a)
    | (none, s1) => emit s1 (.dropped (f 6 1) ctx (f 0x10 8))

/-- Whether an entry names a session of its block's world with ROLE 1 and a body of at most 4,032 bytes. -/
def sendAllowed (s : State) (ctx : Nat) (e : List Byte) : Bool :=
  match getSession s (bodyField e 4 2) with
  | some x => decide (x.world = blkWorld (getBlock s ctx) ∧ x.role = 1) && decide (bodyField e 0x18 4 ≤ 4032)
  | none => false

/-- Takes one entry (R348 steps 1 to 3). -/
def takeEntry (s : State) (ctx n : Nat) : State :=
  let (e, s0) := sendHeader s ctx n
  let f := bodyField e
  let s1 := if sendAllowed s0 ctx e then
      let t := sendState (sendInvoke s0 ctx n e) ctx n 1
      { t with hub := { t.hub with sends := t.hub.sends ++
          [{ ctx := ctx, entry := n, session := f 4 2, rid := f 0x10 8, dest := f 0 4 % 2 ^ 18, sentAt := s.now }] } }
    else sendFails s0 ctx n
  hubWrite s1 ctx (blkSendq (getBlock s ctx)) (leBytes (n + 1) 4)

/-- The bytes of the body of an entry, as far as it may be sent. -/
def sendLength (s : State) (ctx n : Nat) : Nat := min 4032 (bodyField (sendHeader s ctx n).1 0x18 4)

/-- The lines that taking an entry reads and writes: the ring's header, the entry's header and the body (R348). -/
def sendLines (s : State) (ctx n : Nat) : Nat := 2 + ceilDiv (sendLength s ctx n) 64

/-- Whether the lines of an entry can be read and written now. -/
def entryFree (s : State) (ctx n : Nat) : Bool :=
  hubReady s true ctx (blkSendq (getBlock s ctx)) 8 && hubReady s true ctx (sendVa (getBlock s ctx) n) 64 &&
    hubReady s false ctx (sendVa (getBlock s ctx) n + 64) (sendLength s ctx n)

/-- The places of the lines that taking an entry writes. -/
def entryWrites (s : State) (ctx n : Nat) : List Loc :=
  [blkSendq (getBlock s ctx), sendVa (getBlock s ctx) n].filterMap (fun va => (hubLoc s ctx va).map lineLoc)

/-- Takes the tokens of an entry's lines, as far accesses of the block's tenant, and those of the writebacks that they force, or lets
them wait (R296, R298, R348). -/
def takeSendTokens (s : State) (ctx n : Nat) : Bool × State :=
  match takeRecalls (entryWrites s ctx n) s with
  | (false, s1) => (false, s1)
  | (true, s1) =>
    match takeTokensOf s1 (sendDie s1 ctx) (blkTenant (getBlock s1 ctx)) (sendIdent ctx) (sendIdent ctx) (sendLines s1 ctx n) with
    | (true, s2) => (true, s2)
    | (false, s2) => (false, (entryWrites s ctx n).foldl keepGrant s2)

/-- Takes entries in order; one whose lines are not free or wait for tokens leaves the doorbell ringing, else it is answered. -/
def takeEntries (ctx : Nat) : List Nat → State → State
  | [], s => { s with hub := { s.hub with bells := s.hub.bells.erase ctx } }
  | k :: rest, s =>
    if !entryFree s ctx (k % 2 ^ 32) then s
    else
      match takeSendTokens s ctx (k % 2 ^ 32) with
      | (true, s1) => takeEntries ctx rest (takeEntry s1 ctx (k % 2 ^ 32))
      | (false, s1) => s1

/-- HEAD of a send ring and the entries from there to TAIL. -/
def sendSpan (s : State) (ctx : Nat) : Nat × Nat :=
  let hdr := hubRead s ctx (blkSendq (getBlock s ctx)) 8
  let head := leNat (hdr.take 4)
  (head, (leNat (hdr.drop 4) + 2 ^ 32 - head) % 2 ^ 32)

/-- SEND_RING_DOORBELL: packet core 2 takes the entries from HEAD to TAIL - 1 in order; a ring that is no page of a read-write lease range
or that holds too many is a queue error. -/
def execSendRingDoorbell (ctx : Nat) (s : State) : Out :=
  let b := getBlock s ctx
  if !s.hub.bells.contains ctx || !hubReady s false ctx (blkSendq b) 8 then .next s
  else
    let (head, n) := sendSpan s ctx
    let s1 := (hubFetch s ctx (blkSendq b) 8).2
    if blkSendq b = 0 then .next (takeEntries ctx [] s1)
    else if !sendRingOk s ctx || decide (256 < n) then .next (contain (takeEntries ctx [] s1) (blkTenant b) 2 ctx 0x48)
    else .next (takeEntries ctx (range' head n) s1)

/-- The outcome of a sent entry written into it, each write performing before the next: the reply's body, RLEN, RSTATUS and STATE 2, or
STATE 3 for one that has failed. -/
def writeOutcome (s : State) (ctx n : Nat) (reply : Option (Nat × List Byte)) : State :=
  match reply with
  | none => sendFails s ctx n
  | some (status, body) =>
    let va := sendVa (getBlock s ctx) n
    let s1 := hubWrite (hubWrite s ctx (va + 0x40) body) ctx (va + 0x1C) (leBytes body.length 4)
    sendState (hubWrite s1 ctx (va + 0x20) (leBytes status 4)) ctx n 2

/-- The bytes of an entry that its outcome is written to. -/
def outcomeBytes (reply : Option (Nat × List Byte)) : Nat := 64 + ((reply.map (fun r => r.2.length)).getD 0)

/-- Writes the outcome of an entry, once its lines can be written and have their tokens (R296, R311, R348). -/
def tryOutcome (s : State) (ctx n : Nat) (reply : Option (Nat × List Byte)) : Bool × State :=
  let va := sendVa (getBlock s ctx) n
  let k := outcomeBytes reply
  if !hubReady s true ctx va k then (false, s)
  else
    match hubRecalls s ctx va k with
    | (false, s1) => (false, s1)
    | (true, s1) =>
      let id := 2 ^ 65 + 256 * ctx + n % 256
      match takeTokensOf s1 (sendDie s1 ctx) (blkTenant (getBlock s1 ctx)) id id (ceilDiv k 64) with
      | (true, s2) => (true, writeOutcome s2 ctx n reply)
      | (false, s2) => (false, ((pieces va k).filterMap (fun p => (hubLoc s ctx (64 * p.1)).map lineLoc)).foldl keepGrant s2)

/-- Gives a sent entry its outcome, now or when its lines are free. -/
def giveOutcome (s : State) (x : SentInvoke) (reply : Option (Nat × List Byte)) : State :=
  match tryOutcome { s with hub := { s.hub with sends := s.hub.sends.erase x } } x.ctx x.entry reply with
  | (true, s1) => s1
  | (false, s1) => { s1 with waiting := s1.waiting ++ [.sent x.ctx x.entry reply] }

/-- SEND_TIMEOUT: no reply within 1 s. -/
def execSendTimeout (session rid : Nat) (s : State) : Out :=
  match s.hub.sends.find? (fun x => decide (x.session = session ∧ x.rid = rid ∧ x.sentAt + 940000000 ≤ s.now)) with
  | none => .next s
  | some x => .next (giveOutcome s x none)

/-- A reply on a ROLE 1 session: R337 with the direction turned round, then the entry's outcome. -/
def replyFrame (f : UFrame) (x : Session) (s : State) : Out :=
  if !x.sq.fresh f.seq ∨ !tagGood s f true then .next (dropFrame s f.origin.port)
  else
    let s1 := setSession s f.session { x with sq := x.sq.mark f.seq }
    let hit := s1.hub.sends.find? (fun y => decide (y.session = f.session ∧ y.rid = f.rid))
    let from_ := (hit.map (·.dest)).getD f.modid
    match headerFault f (fun c => decide (c = 0x81 ∨ c = 0x82 ∨ c = 0x83)) from_, hit with
    | some off, _ => .next (contain s1 (worldTenant s1 x.world) 1 f.ctx off)
    | none, none => .next s1
    | none, some y => .next (giveOutcome s1 y (some (f.status, f.body)))

/-- SENT_INVOKE_REPLY: on another session than a ROLE 1 session of this module its class is none of that session's. -/
def execSentInvokeReply (f : UFrame) (s : State) : Out :=
  let port := f.origin.port
  arriving port f s (fun s =>
    if f.session = 0 then podSession port f (fun _ => false) (fun _ s => .next s) s
    else
      match getSession s f.session with
      | none => .next (dropFrame s port)
      | some x => if x.role = 1 then replyFrame f x s else sessionFrame port f s)

/-! Links (R342, R347). -/

/-- LINK_LOSS. -/
def execLinkLoss (port : Nat) (s : State) : Out :=
  .next { s with edge := { s.edge with links := s.edge.links &&& ~~~(1#8 <<< port) } }

/-- A held reply leaves. -/
def sendHeld (s : State) (h : HeldReply) : State :=
  match h.out with
  | .frame p cls ctx session rid seq status modid body way _ => sendFrame s p cls ctx session rid seq status modid body way
  | o => emit s o

/-- LINK_UP: held replies leave in their order. -/
def execLinkUp (port : Nat) (s : State) : Out :=
  let held := s.edge.held.filter (fun h => h.port = port)
  let s1 := { s with edge := { s.edge with links := s.edge.links ||| (1#8 <<< port), held := s.edge.held.filter (fun h => h.port ≠ port) } }
  .next (held.foldl sendHeld s1)

end Sys2Proof.Machine
end

