-- ==== Sys2Proof/Machine/Frames.lean ====
section
/-! DEFINITION. Frames and leases: allocation, promotion, eviction, scrubbing, ATS, migration, rekeys and the burnisher (R214 to R219,
R267, R318, R319, R351). -/

namespace Sys2Proof.Machine

/-! Frames (R216 to R219). -/

/-- HBM frames of the module (R208). -/
def frameCount : Nat := 393216
def getFrame (s : State) (f : Nat) : Option Frame := (s.frames.find? (fun e => e.1 = f)).map (·.2)
def putFrame (s : State) (f : Nat) (x : Frame) : State := { s with frames := alPut s.frames f x }
def frameStack (f : Nat) : Nat := f / 32768

/-- Whether a tenant holds a frame. -/
def holdsFrame (t : Nat) (x : Frame) : Bool := decide (x.tenant = t ∧ x.st ≠ .scrubbing)
def heldFrames (s : State) (t : Nat) : Nat := (s.frames.filter (fun e => holdsFrame t e.2)).length

def tenantG (s : State) (t : Nat) : Nat := ((s.hub.tenants.find? (fun e => e.1 = t)).map (·.2.g)).getD 0
def tenantU (s : State) (t : Nat) : Nat := ((s.hub.tenants.find? (fun e => e.1 = t)).map (·.2.u)).getD 0

/-- The registrations of the lines of frames: the chunk that holds each, and its place. -/
def frameChunks (s : State) (frames : List Nat) : List (Nat × Loc) :=
  s.dies.flatMap (fun d => (d.2.dir.filter (fun e => frames.contains (e.1 / 32768))).map (fun e => (e.2, { peer := none, pa := e.1 * 64 })))

/-- Recalls every registration of the lines of frames (R214, R215). -/
def recallFrames (s : State) (frames : List Nat) : State :=
  (frameChunks s frames).foldl (fun s e => writebackChunk s e.1 e.2.pa) s

/-- Whether the registrations of frames can be recalled now: no line stands in a held quad (R311), none waits for a rekey unless the rekey
itself recalls it (R319), and no token is waited for (R298). -/
def framesReady (s : State) (sweep : Bool) (frames : List Nat) : Bool :=
  (frameChunks s frames).all (fun e => !lineHeld s e.2 && (sweep || !sealWaits s e.2) && recallAskable s e.2)

/-- Takes the tokens of the writebacks that the recall of frames forces (R296, R298), and goes on when it has them. -/
def recalling (s : State) (sweep : Bool) (frames : List Nat) (go : State → State) : Out :=
  if !framesReady s sweep frames then .next s
  else
    match takeRecalls ((frameChunks s frames).map (·.2)) s with
    | (true, s1) => .next (go (recallFrames s1 frames))
    | (false, s1) => .next s1

/-- What a frame holds, as the drives keep it. -/
def frameContents (s : State) (f : Nat) : Evicted :=
  { world := ((getFrame s f).map (·.world)).getD 0, frame := f, gen := ((getFrame s f).map (·.gen)).getD false,
    bytes := (s.far.filter (fun e => decide (e.1 / 2097152 = f))).map (fun e => (e.1 % 2097152, e.2)),
    vers := (s.lineVer.filter (fun e => decide (e.1 / 32768 = f))).map (fun e => (e.1 % 32768, e.2)),
    bad := (s.bad.filter (fun e => decide (e.1 / 32768 = f))).map (fun e => (e.1 % 32768, e.2)) }

/-- Puts contents into an empty frame. -/
def fillFrame (s : State) (f : Nat) (x : Evicted) : State :=
  { s with far := x.bytes.foldl (fun m e => memWrite m (2097152 * f + e.1) e.2) s.far,
           lineVer := x.vers.foldl (fun m e => alSet 0 m (32768 * f + e.1) e.2) s.lineVer,
           bad := x.bad.foldl (fun m e => alSet false m (32768 * f + e.1) e.2) s.bad }

/-- Takes a warm frame, its registrations recalled, from its page: changed contents go to the slow tier, then it is scrubbed (R217). -/
def evictFrame (s : State) (f : Nat) : State :=
  match getFrame s f with
  | none => s
  | some x =>
    let s1 := match x.page with
      | some (c, vp) =>
        if x.changed then { s with edge := { s.edge with drives := alPut s.edge.drives (pageKey c vp) (frameContents s f) } } else s
      | none => s
    scrubFrame s1 f

/-- Whether a warm frame is taken before another: promoted late first, then least recently leased, the tenant's own among equals. -/
def victimBefore (t : Nat) (a b : Nat × Frame) : Bool :=
  let x := a.2
  let y := b.2
  if x.late ≠ y.late then x.late
  else if x.lastLease ≠ y.lastLease then decide (x.lastLease < y.lastLease)
  else decide (x.tenant = t) && decide (y.tenant ≠ t)

def firstFrame (t : Nat) (l : List (Nat × Frame)) : Option Nat :=
  (l.foldl (fun acc e => match acc with | none => some e | some x => if victimBefore t e x then some e else some x) none).map (·.1)

/-- The warm frame that a tenant takes when it takes no free one (R217 steps 2 and 3); a frame promoted late counts as burst whatever its
tenant holds (R218). -/
def victimFrame (s : State) (t : Nat) (ok : Nat → Bool) : Option Nat :=
  let room := decide (heldFrames s t < tenantG s t + tenantU s t)
  let warm := s.frames.filter (fun e => decide (e.2.st = .warm) && ok e.1)
  match firstFrame t (warm.filter (fun e =>
      (e.2.late || decide (tenantG s e.2.tenant < heldFrames s e.2.tenant)) && (room || decide (e.2.tenant = t)))) with
  | some f => some f
  | none => firstFrame t (warm.filter (fun e => e.2.tenant = t))

/-- Whether a frame is free, and not the one that another is being moved to (R215, R216). -/
def frameFree (s : State) (f : Nat) : Bool := (getFrame s f).isNone && !s.edge.migrating.any (fun e => e.2 = f)

/-- The lowest free frame that serves. -/
def lowestFree (s : State) (lo : Nat) : Nat → Option Nat
  | 0 => none
  | n + 1 => if frameFree s lo then some lo else lowestFree s (lo + 1) n

/-- The stack that the frame of a page of an address space has to lie in, of a stack-homed page: that of its group for a key-value page
(R258), that which the firmware keeps it in for another (R210, R243; log entry 78). -/
def pageStack (s : State) (space vp : Nat) : Option Nat :=
  match spacePool s space with
  | some p =>
    let va := 2097152 * vp
    some (p.stack (if p.inData va then (va - p.dvbase) / p.pageBytes else (va - p.mvbase) / 512))
  | none => (s.edge.stackPages.find? (fun e => e.1 = pageKey space vp)).map (·.2)

/-- Whether a frame lies in the stack a page needs. -/
def stackOk (s : State) (space vp f : Nat) : Bool :=
  match pageStack s space vp with
  | some k => decide (frameStack f = k)
  | none => true

/-- The frame the firmware takes for a page of a block. -/
def frameFor (s : State) (ctx vp : Nat) : Option Nat :=
  let t := blkTenant (getBlock s ctx)
  let space := spaceOf s ctx vp
  let lo := match pageStack s space vp with | some k => 32768 * k | none => 0
  let n := match pageStack s space vp with | some _ => 32768 | none => frameCount
  match (if heldFrames s t < tenantG s t + tenantU s t then lowestFree s lo n else none) with
  | some f => some f
  | none => victimFrame s t (stackOk s space vp)

/-- Whether the firmware may take a frame for a page: any free one while the tenant has room, else the one of R217. -/
def frameAllowed (s : State) (ctx vp f : Nat) : Bool :=
  let t := blkTenant (getBlock s ctx)
  decide (f < frameCount) && stackOk s (spaceOf s ctx vp) vp f &&
    (if heldFrames s t < tenantG s t + tenantU s t ∧ frameFree s f then true
     else decide (frameFor s ctx vp = some f))

/-- A leaf entry of R211. -/
def makeLeaf (w sh : Bool) (home frame pkg : Nat) : BitVec 64 :=
  BitVec.ofNat 64 (1 + (if w then 2 else 0) + (if sh then 4 else 0) + 8 * home + 2 ^ 21 * frame + 2 ^ 46 * pkg)

/-- Whether one of a block's lease ranges allows writing to a page (R212); the pool descriptor's page and a far image's are read-only
whatever range covers them (R68, R258). DESIGN CHOICE (log entry 91): W of a translation comes from the block's ranges. -/
def leasedRw (s : State) (ctx vp : Nat) : Bool :=
  let b := getBlock s ctx
  (range' 0 (min 16 (blkNlease b))).any (fun i =>
    let r := blkLease b i; r.rw && decide (r.vpage ≤ vp ∧ vp < r.vpage + r.pages)) && (farPage s ctx vp).isNone &&
    !(decide (blkPoolva b ≠ 0) && decide (vp = blkPoolva b / 2097152))

/-- The translation of a page of an address space in an HBM frame: stack-homed where it has a stack of its own, read-only in a pool's
regions, which only the commands of queue 4 write (R258). -/
def frameLeaf (s : State) (space vp f : Nat) : BitVec 64 :=
  makeLeaf (decide (space < 16384) && leasedRw s space vp) (pageStack s space vp).isSome 0 f 0

/-- The generation under which a world's new writes are sealed (R318). -/
def worldGen (s : State) (w : Nat) : Bool :=
  ((s.hub.keys.find? (fun e => decide (e.2.world = w ∧ e.2.st ≠ 0))).map (·.2.gen)).getD false

/-- Whether a page of a block has still to be brought in. -/
def pageMissing (s : State) (ctx vp : Nat) : Bool :=
  isLeasePage s ctx vp && !pageResident s ctx (2097152 * vp) && !s.frames.any (fun e => e.2.page = some (spaceOf s ctx vp, vp)) &&
    !s.edge.hostPages.contains (pageKey (spaceOf s ctx vp) vp)

/-- The ranges of a block whose pages something waits for: the ring pages of entries, the lease of its gang, the lease set of the launch
being bound. -/
def wantedRanges (s : State) (ctx : Nat) : List PageRange :=
  (s.hub.reqs.filter (fun r => decide (r.ctx = ctx ∧ r.entry ≠ []))).map (fun r =>
      { vpage := ringVa (getBlock s ctx) r.ix / 2097152, pages := 1, rw := true }) ++
    ((getGang s ctx).map (·.lease)).getD [] ++
    (match (getBind s ctx).bind (fun b => (routeRec s ctx b.recIx).map (fun rc => leaseSet s ctx b.recIx rc)) with | some l => l | none => [])

/-- The ranges of a block in the order in which the ladle brings in their pages: those that something waits for, then the ranges as the
records of its route first name them, then the others (R212, R351; log entry 92). -/
def ladleRanges (s : State) (ctx : Nat) : List PageRange :=
  wantedRanges s ctx ++ (routeRecs s ctx).flatMap (fun e => leaseSet s ctx e.1 e.2) ++
    (range' 0 (min 16 (blkNlease (getBlock s ctx)))).map (blkLease (getBlock s ctx))

/-- The first page of a list of ranges that has to be brought in. -/
def firstMissing (s : State) (ctx : Nat) (rs : List PageRange) : Option Nat :=
  rs.findSome? (fun r =>
    if rangeResident s ctx r then none else (range' r.vpage r.pages).find? (pageMissing s ctx))

/-- The next page that the ladle brings in for a block. -/
def ladleNext (s : State) (ctx : Nat) : Option Nat := firstMissing s ctx (ladleRanges s ctx)

/-- A page comes into a frame, which is promoting (R216). -/
def bringIn (s : State) (ctx vpage frame : Nat) : State :=
  let b := getBlock s ctx
  let x : Frame :=
    { st := .promoting, tenant := blkTenant b, world := blkWorld b, page := some (spaceOf s ctx vpage, vpage), lastLease := s.now, late := false,
      changed := false, gen := worldGen s (blkWorld b) }
  putFrame (fillFrame (countSeals s (blkWorld b) 32768) frame (slowPage s ctx vpage)) frame x

/-- LADLE_PAGE_FILL (R216, R217, R351): the next page of a block's ranges is brought into a frame; a victim is written out and scrubbed
first. What a peer module that holds the same sealed segment gives is what the drives give (log entry 92). -/
def execLadlePageFill (ctx vpage frame : Nat) (s : State) : Out :=
  if ladleNext s ctx = some vpage ∧ frameAllowed s ctx vpage frame then
    recalling s false [frame] (fun s1 => bringIn (evictFrame s1 frame) ctx vpage frame)
  else .next s

/-- Whether the lease that a promotion serves is in force or about to be: a gang of a block that names the page holds it, or such a
block has a request to bind. -/
def leaseInForce (s : State) (space vp : Nat) : Bool :=
  leaseHolds s space vp ||
    (s.hub.bind.map (·.1) ++ s.hub.reqs.map (·.ctx)).any (fun ctx => decide (spaceOf s ctx vp = space) && isLeasePage s ctx vp)

/-- Whether a page is one that the ladle streams ahead for a block with a gang (R351). -/
def streamedPage (s : State) (space vp : Nat) : Bool :=
  s.hub.gangs.any (fun g => decide (spaceOf s g.1 vp = space) && isLeasePage s g.1 vp)

/-- PROMOTION_COMPLETE (R216, R218): the page is translated; a page streamed ahead is warm; after its lease the frame is warm and burst,
or scrubbed at once when the tenant would hold too many. -/
def execPromotionComplete (frame : Nat) (s : State) : Out :=
  match getFrame s frame with
  | none => .next s
  | some x =>
    match x.st, x.page with
    | .promoting, some (space, vp) =>
      let place (st : FrameState) (late : Bool) : State :=
        let s1 := putFrame s frame { x with st := st, late := late }
        flushEntries { s1 with xlat := alPut s1.xlat (pageKey space vp) (frameLeaf s space vp frame) } space
      if leaseInForce s space vp then .next (place .leased false)
      else if tenantG s x.tenant + tenantU s x.tenant < heldFrames s x.tenant then .next (scrubFrame s frame)
      else .next (place .warm (!streamedPage s space vp))
    | _, _ => .next s

/-! What is still under way for a frame. -/

/-- Whether a place lies in one of the frames. -/
def locIn (frames : List Nat) (l : Loc) : Bool := l.peer.isNone && frames.contains (l.pa / 2097152)

/-- Whether a core section still has far accesses to the frames. -/
def accessesTo (frames : List Nat) (a : CoreArch) : Bool :=
  a.order.far.any (fun f => f.parts.any (fun p => p.done.isNone && locIn frames p.loc)) ||
    (a.order.sbuf ++ a.order.released).any (fun x => locIn frames x.loc)

/-- Whether a core section holds engine commands that took the frames at issue. -/
def commandsOn (frames : List Nat) (a : CoreArch) : Bool :=
  (List.finRange 5).any (fun k => (vget a.q k).cmds.any (fun c =>
    c.handles.any (fun h => h.2.home ≠ 2 && frames.contains (h.2.frame / 2097152))))

/-- The core sections of the machine: of the cores and of the images. -/
def allArchs (s : State) : List CoreArch :=
  s.cores.map (·.2.arch) ++ s.hub.gangs.flatMap (fun g => match g.2.image with | some m => m.cores.map (·.2.arch) | none => [])

/-! ATS (R214). -/

/-- The host pages of a range. -/
def hostEntries (s : State) (ctx : Nat) (r : PageRange) : List (Nat × BitVec 64) :=
  (rangeEntries s ctx r).filter (fun e => leafV e.2 && decide (leafHome e.2 = 1))

/-- ATS_INVALIDATE_REQUEST: the handles are revoked at the end of the period; new translations are late from now on. -/
def execAtsInvalidateRequest (ctx : Nat) (r : PageRange) (s : State) : Out :=
  let frames := (hostEntries s ctx r).map (fun e => leafFrame e.2 / 2097152)
  let s1 := revokeLater s ctx r
  .next { s1 with edge := { s1.edge with invalidating := s1.edge.invalidating ++ [{ ctx := ctx, range := r, frames := frames }] } }

/-- INVALIDATE_COMPLETION: when the accesses and commands through the revoked handles are done the D chunks are written back, the
translations go and the completion is sent. -/
def execInvalidateCompletion (ctx : Nat) (r : PageRange) (s : State) : Out :=
  match s.edge.invalidating.find? (fun x => decide (x.ctx = ctx ∧ x.range = r)) with
  | none => .next s
  | some x =>
    if s.edge.revoking.any (fun e => decide (e = (ctx, r))) ∨
        (allArchs s).any (fun a => accessesTo x.frames a || commandsOn x.frames a) then .next s
    else
      recalling s false x.frames (fun s0 =>
        let s1 := { s0 with edge := { s0.edge with invalidating := s0.edge.invalidating.erase x } }
        let es := hostEntries s1 ctx r
        emit { s1 with xlat := s1.xlat.filter (fun e => !es.contains e) } (.invalidated ctx r))

/-- ATS_TRANSLATION_COMPLETION: the page is host memory and gets its translation; a page the host refuses, or whose address does not
fit, ends the tasks whose lease holds it (R208, R214). -/
def execAtsTranslationCompletion (ctx vpage : Nat) (leaf : BitVec 64) (s : State) : Out :=
  let key := pageKey ctx vpage
  if leafV leaf ∧ leafHome leaf = 1 ∧ 0x200000000000 ≤ leafFrame leaf ∧ isLeasePage s ctx vpage ∧ spaceOf s ctx vpage = ctx then
    let l := makeLeaf (leafW leaf && leasedRw s ctx vpage) (leafSh leaf) 1 (leafFrame leaf / 2097152) 0
    .next (flushEntries { s with xlat := alPut s.xlat key l,
                                 edge := { s.edge with hostPages := key :: s.edge.hostPages.filter (fun k => k ≠ key) } } ctx)
  else
    match getGang s ctx with
    | some g => .next (if g.lease.any (fun r => decide (r.vpage ≤ vpage ∧ vpage < r.vpage + r.pages)) then endGangAll s g cLease else s)
    | none => .next s

/-! Migration (R215). -/

/-- A place moved from one frame to another. -/
def moveLoc (f n : Nat) (l : Loc) : Loc := if locIn [f] l then { l with pa := 2097152 * n + l.pa % 2097152 } else l

/-- The handles, far accesses and commands of a core section follow the frame. -/
def moveArch (f n : Nat) (a : CoreArch) : CoreArch :=
  let line (x : StoreLine) : StoreLine := { x with loc := moveLoc f n x.loc }
  let cmd (c : EngCmd) : EngCmd :=
    { c with handles := c.handles.map (fun h => (h.1, if h.2.home = 0 ∧ h.2.frame / 2097152 = f then { h.2 with frame := 2097152 * n } else h.2)) }
  let hnd (h : Handle) : Handle := if h.home = 0 ∧ h.frame / 2097152 = f then { h with frame := 2097152 * n } else h
  { a with regs := { a.regs with h := a.regs.h.map hnd }, hdue := a.hdue.map (fun d => { d with hnd := hnd d.hnd }),
           order := { a.order with far := a.order.far.map (fun x => { x with parts := x.parts.map (fun p => { p with loc := moveLoc f n p.loc }) }),
                                   sbuf := a.order.sbuf.map line, released := a.order.released.map line },
           q := a.q.map (fun u => { u with cmds := u.cmds.map cmd }) }

/-- Whether engine commands of cores hold a frame. -/
def frameBusy (s : State) (f : Nat) : Bool := s.cores.any (fun e => commandsOn [f] e.2.arch)

/-- Contents, translation and table entries go from a frame, its registrations recalled, to another, each line opened and sealed again
under its new address (R321); the old frame is scrubbed. -/
def moveFrame (s : State) (f n : Nat) (x : Frame) : State :=
  let s1 := countSeals s x.world 32768
  let s2 := putFrame (fillFrame s1 n (frameContents s1 f)) n x
  let s3 := { s2 with
    cores := s2.cores.map (fun e => (e.1, { e.2 with arch := moveArch f n e.2.arch, ck := moveArch f n e.2.ck })),
    xlat := s2.xlat.map (fun e =>
      if leafV e.2 ∧ leafHome e.2 = 0 ∧ frameOf (leafFrame e.2) = f then (e.1, makeLeaf (leafW e.2) (leafSh e.2) 0 n 0) else e),
    hub := { s2.hub with
      exports := s2.hub.exports.map (fun e => if e.1 = f then (n, e.2) else e),
      gangs := s2.hub.gangs.map (fun g =>
        (g.1, { g.2 with image := g.2.image.map (fun m => { m with cores := m.cores.map (fun c => (c.1, { c.2 with arch := moveArch f n c.2.arch })) }) })) } }
  scrubFrame s3 f

/-- FRAME_MIGRATION: it begins by revoking the frame's handles and recalling its registrations; it goes on once the engine commands
that hold the frame are complete. -/
def execFrameMigration (frame newFrame : Nat) (s : State) : Out :=
  match getFrame s frame with
  | none => .next s
  | some x =>
    if s.edge.migrating.contains (frame, newFrame) then
      if frameBusy s frame ∨ s.edge.revoking ≠ [] then .next s
      else
        recalling s false [frame] (fun s1 =>
          moveFrame { s1 with edge := { s1.edge with migrating := s1.edge.migrating.erase (frame, newFrame) } } frame newFrame x)
    else if x.st = .leased ∧ frameFree s newFrame ∧ newFrame < frameCount ∧ frameStack newFrame = frameStack frame ∧
        ¬ s.edge.migrating.any (fun e => e.1 = frame) then
      match x.page with
      | some (space, vp) =>
        recalling s false [frame] (fun s1 =>
          let s2 := revokeLater s1 space { vpage := vp, pages := 1, rw := false }
          { s2 with edge := { s2.edge with migrating := s2.edge.migrating ++ [(frame, newFrame)] } })
      | none => .next s
    else .next s

/-! Keys (R318, R319). -/

def getKey (s : State) (k : Nat) : Option KeySlot := (s.hub.keys.find? (fun e => e.1 = k)).map (·.2)
def putKey (s : State) (k : Nat) (x : KeySlot) : State := { s with hub := { s.hub with keys := alPut s.hub.keys k x } }

/-- A buffer near the end of its versions. -/
def nearWrap (b : BufEntry) : Bool := decide (0xFFFFFF00 ≤ b.version)

/-- Step 1 of a rekey: the new root in the other generation, GEN flipped, the buffers to be reset held. -/
def flipKey (s : State) (k : Nat) (x : KeySlot) (root : BitVec 256) : State :=
  let y := if x.gen then { x with root0 := root, uses0 := 0, gen := false, st := 2 } else { x with root1 := root, uses1 := 0, gen := true, st := 2 }
  let s1 := putKey s k y
  { s1 with hub := { s1.hub with buffers := s1.hub.buffers.map (fun e =>
      (e.1, if e.2.world = x.world ∧ nearWrap e.2 then { e.2 with sweep := true } else e.2)) } }

/-- The spans of virtual memory that a buffer has, as the routes of its world's blocks name it. -/
def bufSpans (s : State) (n world : Nat) : List (Nat × Nat × Nat) :=
  (s.hub.blocks.filter (fun e => blkWorld e.2 = world)).flatMap (fun e =>
    match getSeg s (blkSegment e.2) with
    | none => []
    | some g => g.recs.flatMap (fun r => ((recBufs r).filter (fun b => b.1 = n)).map (fun b => (e.1, b.2.2.1, b.2.2.2))))

/-- The buffers under reset that have lines in a frame. -/
def sweptBuffers (s : State) (x : Frame) : List Nat :=
  match x.page with
  | none => []
  | some (ctx, vp) =>
    ((s.hub.buffers.filter (fun e => e.2.sweep)).filter (fun e =>
      (bufSpans s e.1 e.2.world).any (fun b => decide (b.1 = ctx) && overlaps b.2.1 b.2.2 (2097152 * vp) 2097152))).map (·.1)

/-- Whether a running launch names a buffer. -/
def bufRunning (s : State) (n : Nat) : Bool := s.hub.gangs.any (fun g => (recBufs g.2.record).any (fun b => b.1 = n))

/-- Versions of a frame's lines after the sweep: the lines of buffers under reset are sealed with version 0. -/
def sweepVersions (s : State) (f : Nat) (x : Frame) : List (Nat × Nat) :=
  match x.page with
  | none => s.lineVer
  | some (ctx, vp) =>
    let spans := (sweptBuffers s x).flatMap (fun n => (bufSpans s n x.world).filter (fun b => b.1 = ctx))
    s.lineVer.filter (fun e => !(decide (e.1 / 32768 = f) &&
      spans.any (fun b => overlaps b.2.1 b.2.2 (2097152 * vp + e.1 % 32768 * 64) 64)))

/-- The buffers under reset of which no frame has a line left under the old generation stand at version 0, and the launches that name
them go on (R319). -/
def settleBuffers (s : State) (world : Nat) (gen : Bool) : State :=
  let left := (s.frames.filter (fun e => decide (e.2.world = world ∧ e.2.gen ≠ gen))).flatMap (fun e => sweptBuffers s e.2)
  { s with hub := { s.hub with buffers := s.hub.buffers.map (fun e =>
      (e.1, if e.2.world = world ∧ e.2.sweep ∧ ¬ left.contains e.1 then { e.2 with version := 0, sweep := false } else e.2)) } }

/-- Sweeps one frame, its registrations recalled: handles revoked, every line sealed under the new generation, which is recorded for the
frame. -/
def sweepFrame (s : State) (k f : Nat) (x : Frame) (gen : Bool) : State :=
  let s1 := match x.page with
    | some (space, vp) => revokeLater s space { vpage := vp, pages := 1, rw := false }
    | none => s
  let s2 := putFrame { s1 with lineVer := sweepVersions s1 f x } f { x with gen := gen }
  let s3 := match getKey s2 k with
    | some y =>
      putKey s2 k (if gen then { y with uses1 := min (2 ^ 44 - 1) (y.uses1 + 32768) } else { y with uses0 := min (2 ^ 44 - 1) (y.uses0 + 32768) })
    | none => s2
  settleBuffers s3 x.world gen

/-- Step 3: the old root zeroised; a buffer without lines is reset too. -/
def finishRekey (s : State) (k : Nat) (x : KeySlot) : State :=
  let y := if x.gen then { x with root0 := 0, uses0 := 0, st := 1 } else { x with root1 := 0, uses1 := 0, st := 1 }
  settleBuffers (putKey s k y) x.world x.gen

/-- Whether a slot's rekey is asked for. -/
def rekeyAsked (s : State) (x : KeySlot) : Bool :=
  decide (x.st = 1) && (decide (2 ^ 40 ≤ keyUses x) || s.hub.buffers.any (fun e => decide (e.2.world = x.world) && nearWrap e.2))

/-- The next frame of a rekey's sweep: one of the world not yet under the new generation. -/
def nextSweep (s : State) (x : KeySlot) : Option (Nat × Frame) :=
  s.frames.find? (fun e => decide (e.2.world = x.world ∧ e.2.gen ≠ x.gen))

/-- Whether a frame can be swept: no engine command holds it, no running launch names a buffer to be reset in it. -/
def sweepReady (s : State) (e : Nat × Frame) : Bool := !frameBusy s e.1 && !(sweptBuffers s e.2).any (bufRunning s)

/-- REKEY: its first step when it is asked for, then one frame at a time, then its end. -/
def execRekey (slot : Nat) (root : BitVec 256) (s : State) : Out :=
  match getKey s slot with
  | none => .next s
  | some x =>
    if rekeyAsked s x then .next (flipKey s slot x root)
    else if x.st ≠ 2 then .next s
    else
      match nextSweep s x with
      | some e => if sweepReady s e then recalling s true [e.1] (fun s1 => sweepFrame s1 slot e.1 e.2 x.gen) else .next s
      | none =>
        if s.hub.buffers.any (fun e => e.2.sweep && decide (e.2.world = x.world) && bufRunning s e.1) then .next s
        else .next (finishRekey s slot x)

/-- FORCED_KEY_FLIP: USES saturated before a rekey has begun. -/
def execForcedKeyFlip (slot : Nat) (root : BitVec 256) (s : State) : Out :=
  match getKey s slot with
  | some x => .next (if x.st = 1 ∧ 2 ^ 44 - 1 ≤ keyUses x then flipKey s slot x root else s)
  | none => .next s

/-! The burnisher (R267). -/

/-- The key-value environment of a pool. -/
def poolEnv (s : State) (no : Nat) : Option KvEnv := (getPool s no).map (fun p => { no := no, pool := p })

/-- Whether the data and the metadata of a page of a pool are in frames. -/
def pageHere (v : KvEnv) (s : State) (page : Nat) : Bool := isHbm (v.pool.keyLoc s v.no page 0).pa && isHbm (v.pool.metaLoc s v.no page 0).pa

/-- The CRC of a page's valid slots, and whether a line of the page failed. -/
def checkPage (v : KvEnv) (s : State) (page : Nat) : Nat × Bool :=
  let n := min 64 (pageFill v s page)
  let (l, b, _) := readSlotList v ((range' 0 n).map (fun i => (page, i))) (EngRun.start s 1536 0 [])
  let data := (v.pool.keyLoc s v.no page 0).pa
  let bad := b || (range' 0 (v.pool.pageBytes / 64)).any (fun i => isBad s (data + 64 * i)) ||
    (range' 0 8).any (fun i => isBad s ((v.pool.metaLoc s v.no page 0).pa + 64 * i))
  (crcSlots v 0 l, bad)

/-- Sets DAMAGED of a page. A line that has failed is written whole, or the mark would not be read (R360): the fields of it that were lost
have values that the spec leaves open (log entry 93). -/
def markDamaged (v : KvEnv) (s : State) (page : Nat) : State :=
  let a := (v.pool.metaLoc s v.no page 0).pa
  let s1 := (nextStamp s).2
  if isBad s1 a then
    let (bs, s2) := freeBytes s1 12
    writeLine s2 none a (BitVec.allOnes 64)
      (lineOfBytes (bs.take 4 ++ leBytes (freshAttr v + 256) 4 ++ bs.drop 4 ++ List.replicate 48 0#8))
  else writeLine s1 none a (runMask 5 1) (lineOfBytes (List.replicate 5 0#8 ++ leBytes (metaGet v s page 5 1 ||| 1) 1))

/-- BURNISHER_CHECK: a page in use whose CRC or lines fail is DAMAGED and logged; a page that is not in frames is not read. -/
def execBurnisherCheck (pool page : Nat) (s : State) : Out :=
  match poolEnv s pool with
  | none => .next s
  | some v =>
    if v.pool.pages ≤ page ∨ ¬ pageHere v s page ∨ pageRefs v s page = 0 then .next s
    else
      let (crc, bad) := checkPage v s page
      if bad ∨ crc ≠ pageCrc v s page then
        if pageDamaged v s page then .next s else .next (logEntry (markDamaged v s page) 4 pool page)
      else .next s

end Sys2Proof.Machine
end

