-- ==== Sys2Proof/Machine/HostOps.lean ====
section
/-! DEFINITION. The host link: writes to blocks and tables, sessions, segments, assays, TDISP, function resets, host DMA (R14, R17, R40,
R202, R216, R220, R239, R258, R268, R280, R281, R284, R297, R300, R318, R327 to R334, R339, R344, R347, R349, R350). -/

namespace Sys2Proof.Machine

/-! Who may change what (R332, R334, R349). -/

def getTdi (s : State) (fn : Nat) : TdiState := alGet .unlocked s.hub.tdi fn
def setTdi (s : State) (fn : Nat) (x : TdiState) : State := { s with hub := { s.hub with tdi := alPut s.hub.tdi fn x } }

/-- The interface of a tenant is CONFIG_LOCKED or RUN. -/
def isLocked (s : State) (t : Nat) : Bool := decide (t ≠ 0) && (decide (getTdi s t = .locked) || decide (getTdi s t = .run))

/-- A function has its IDE stream (R350). -/
def ideUp (s : State) (fn : Nat) : Bool := s.edge.ide.any (fun e => e.1 = fn)

/-- Whether a function may change a tenant's blocks, key slots, pools, domains, buffers and ranges: the physical function, or over its
IDE stream the tenant's own function once its interface is locked (R332). -/
def mayConfigure (s : State) (fn : Nat) (ide : Bool) (t : Nat) : Bool :=
  answers s && (if isLocked s t then decide (fn = t) && ide && ideUp s fn else decide (fn = 0))

/-- A tenant's own objects through its own function, over IDE once locked (R339). -/
def ownObject (s : State) (fn : Nat) (ide : Bool) (t : Nat) : Bool :=
  answers s && decide (fn = t) && (!isLocked s t || (ide && ideUp s fn))

/-- Whether service software may write a table of the physical function. -/
def isService (s : State) (fn : Nat) : Bool := answers s && decide (fn = 0)

/-- A rejected write: nothing changes, an error on the function; before the functions answer, Configuration Request Retry Status (R356). -/
def reject (s : State) (fn : Nat) : State := emit s (if answers s then .rejected fn else .retry fn)

/-- A write that is made when it is allowed. -/
def hostDo (s : State) (fn : Nat) (ok : Bool) (t : State) : Out := .next (if ok then t else reject s fn)

/-! Blocks (R280, R281). -/

/-- A block with its reserved fields zero (R7). -/
def cleanBlock (b : BitVec 2048) : BitVec 2048 :=
  let ctl := blkSet b 0 4 (blkField b 0 4 % 512)
  let bw := blkSet ctl 7 1 (blkField ctl 7 1 % 16)
  let hint := blkField bw 0x38 8
  let h := blkSet bw 0x38 8 (hint % 2 ^ 51 + hint / 2 ^ 63 * 2 ^ 63)
  let r1 := blkSet (blkSet h 0x46 2 0) 0x64 4 0
  let r2 := blkSet (blkSet r1 0x70 8 0) 0x78 8 0
  (range' 0 16).foldl (fun b i => blkSet b (0x80 + 8 * i) 8 (blkField b (0x80 + 8 * i) 8 % 2 ^ 48)) r2

/-- The block a write of `len` bytes would leave. -/
def writtenBlock (s : State) (ctx off len val : Nat) : BitVec 2048 := cleanBlock (blkSet (getBlock s ctx) off len val)

/-- The pod channels of a block are there: its group exists, has as many channels, and this module is a member (R40). -/
def podDeclared (s : State) (b : BitVec 2048) : Bool :=
  decide (blkPodCh b = 0) ||
    match getGroup s (blkPodGrp b) with
    | some g => decide (blkPodCh b ≤ g.channels) && g.members.contains (modIdent s)
    | none => false

/-- Whether two blocks of one world, or of two, agree about it (R316): a world has one tenant and one key slot, and no other world has
that slot. -/
def sameWorldOk (a b : BitVec 2048) : Bool :=
  if blkWorld a = blkWorld b then decide (blkTenant a = blkTenant b ∧ blkKeySlot a = blkKeySlot b) else decide (blkKeySlot a ≠ blkKeySlot b)

/-- Whether a block agrees with a key slot in use about its world. -/
def slotAgrees (b : BitVec 2048) (k world tenant : Nat) : Bool :=
  if blkWorld b = world then decide (blkKeySlot b = k ∧ blkTenant b = tenant) else decide (blkKeySlot b ≠ k)

/-- Whether the world, tenant and key slot of a block that holds content keep R316. -/
def worldOk (s : State) (ctx : Nat) (b : BitVec 2048) : Bool :=
  decide (blkState b = stFree) ||
    (decide (blkWorld b < 4096 ∧ blkKeySlot b < 4096) &&
      s.hub.blocks.all (fun e => decide (e.1 = ctx ∨ blkState e.2 = stFree) || sameWorldOk b e.2) &&
      s.hub.keys.all (fun e => decide (e.2.st = 0) || slotAgrees b e.1 e.2.world e.2.tenant))

/-- Whether a host write to a block is accepted. -/
def blockWriteOk (s : State) (fn : Nat) (ide : Bool) (ctx off len : Nat) (b : BitVec 2048) : Bool :=
  let old := getBlock s ctx
  decide (0 < len ∧ off + len ≤ 256) && mayConfigure s fn ide (if blkState old = stFree then blkTenant b else blkTenant old) &&
    mayConfigure s fn ide (blkTenant b) &&
    !decide (blkState old = 3 ∨ blkState old = 4 ∨ blkState old = 5 ∨ blkState old = 7) && decide (blkState b < 8) && podDeclared s b &&
    worldOk s ctx b

/-- A block that the host has made FREE holds nothing: its requests, binding and staged images go. -/
def freedBlock (s : State) (ctx : Nat) : State :=
  if blkState (getBlock s ctx) = stFree then
    let s1 := dropStaged (dropBinding s ctx) ctx
    { s1 with hub := { s1.hub with reqs := s1.hub.reqs.filter (fun r => r.ctx ≠ ctx) } }
  else s

/-- The address space of a block ends: its frames are scrubbed, its translations and what the drives hold of it go (R219). -/
def dropSpace (s : State) (ctx : Nat) : State :=
  let mine (k : Nat) : Bool := decide (keySpace k = ctx)
  let s1 := (s.frames.filter (fun e => match e.2.page with | some p => decide (p.1 = ctx) | none => false)).foldl (fun s e => scrubFrame s e.1) s
  dropStaged { s1 with xlat := s1.xlat.filter (fun e => !mine e.1),
                       edge := { s1.edge with drives := s1.edge.drives.filter (fun e => !mine e.1),
                                              hostPages := s1.edge.hostPages.filter (fun k => !mine k),
                                              stackPages := s1.edge.stackPages.filter (fun e => !mine e.1) } } ctx

/-- A block written: one that goes to another tenant or world, or was FREE, takes nothing with it. -/
def putBlock (s : State) (ctx : Nat) (b : BitVec 2048) : State :=
  let old := getBlock s ctx
  let s1 := if blkState old ≠ stFree ∧ blkTenant old = blkTenant b ∧ blkWorld old = blkWorld b then s else dropSpace s ctx
  freedBlock (setBlock s1 ctx b) ctx

/-- MICRO_CONTEXT_WRITE (R281). -/
def execMicroContextWrite (fn : Nat) (ide : Bool) (ctx off len val : Nat) (s : State) : Out :=
  let b := writtenBlock s ctx off len val
  hostDo s fn (blockWriteOk s fn ide ctx off len b) (putBlock s ctx b)

/-! The pod-group table (R40). -/

/-- Strictly rising identities of one pod. -/
def membersOk (l : List Nat) : Bool :=
  decide (0 < l.length ∧ l.length ≤ 1024) && l.all (fun m => decide (m < 2 ^ 18 ∧ m / 1024 = nthD l 0 0 / 1024)) &&
    (l.zip (l.drop 1)).all (fun e => decide (e.1 < e.2))

/-- Whether a gang of the module, entered or placed, holds channels of a group. -/
def groupHeld (s : State) (n : Nat) : Bool :=
  (s.hub.gangs.map (·.1) ++ (s.hub.bind.filter (fun e => !(stageQuads e.2.stage).isEmpty)).map (·.1)).any (fun c =>
    let b := getBlock s c; decide (0 < blkPodCh b ∧ blkPodGrp b = n))

/-- POD_GROUP_WRITE: a list without members removes the entry. -/
def execPodGroupWrite (group : Nat) (members : List Nat) (channels : Nat) (s : State) : Out :=
  let g : PodGroup := { members := members, channels := channels, mine := [], theirs := [], released := [], parts := [] }
  let shape := members.isEmpty || (membersOk members && decide (1 ≤ channels ∧ channels ≤ 16))
  let ok := answers s && decide (group < 256) && shape && !groupHeld s group
  hostDo s 0 ok (if members.isEmpty then { s with hub := { s.hub with groups := alDel s.hub.groups group } } else setGroup s group g)

/-! Sessions (R339). -/

/-- SESSION_INSTALL: ROLE 0 or 1 installs or rekeys, another value removes; both SEQ states become empty. -/
def execSessionInstall (fn : Nat) (ide : Bool) (session world role : Nat) (key : BitVec 256) (s : State) : Out :=
  let mine (w : Nat) : Bool := ownObject s fn ide (worldTenant s w) && (tenantWorlds s fn).contains w
  let held := match getSession s session with | some x => mine x.world | none => true
  let ok := decide (0 < session ∧ session < 65536) && held && (decide (1 < role) || mine world) && answers s
  hostDo s fn ok
    (if 1 < role then { s with hub := { s.hub with sessions := alDel s.hub.sessions session } }
     else setSession s session { world := world, role := role, key := key, sq := SeqState.reset })

/-! Segments (R202, R213, R239, R284, R327, R328). -/

/-- The temporary regions of a record (R202): aligned, not empty, within the stash, apart, at most four for a core-in-quad. -/
def tempsOk (l : List Temp) : Bool :=
  l.all (fun t => decide (t.base % 64 = 0 ∧ t.len % 64 = 0 ∧ 0 < t.len ∧ t.base + t.len ≤ stashBytes)) &&
    (List.range l.length).all (fun i => (List.range i).all (fun j =>
      match l[i]?, l[j]? with | some a, some b => !overlaps a.base a.len b.base b.len | _, _ => true)) &&
    (range' 0 4).all (fun k => decide ((l.filter (fun t => t.owner = k)).length ≤ 4))

/-- A window of a record keeps the limits of R165. -/
def windowOk (w : Window) : Bool :=
  decide (w.base % 64 = 0 ∧ w.vbase % 64 = 0 ∧ w.rowBytes % 64 = 0 ∧ 0 < w.rowBytes ∧ 0 < w.rows ∧ w.rowStride % 64 = 0 ∧
    (w.rows = 1 ∨ w.rowBytes ≤ w.rowStride) ∧ w.base + windowBytes w ≤ stashBytes)

/-- Two windows keep apart in the stash and in their tiles (R202). -/
def windowsApart (a b : Window) : Bool :=
  !overlaps a.base (windowBytes a) b.base (windowBytes b) &&
    (range' 0 a.rows).all (fun i => !windowMeets b (a.vbase + i * a.rowStride) a.rowBytes)

/-- The windows of a record. -/
def windowsOk (l : List (Nat × Window)) (temps : List Temp) : Bool :=
  l.all (fun e => decide (e.1 < 64) && windowOk e.2 && temps.all (fun t => !overlaps t.base t.len e.2.base (windowBytes e.2))) &&
    (List.range l.length).all (fun i => (List.range i).all (fun j =>
      match l[i]?, l[j]? with | some a, some b => decide (a.1 ≠ b.1) && windowsApart a.2 b.2 | _, _ => true))

/-- The windows of a record as they stand in it. -/
def rawWins (r : BitVec 8192) : List (Nat × Window) :=
  (range' 0 (min 8 (natField (recCounts r) 8 4))).map (fun i =>
    let f (k : Nat) : Nat := recField r (0xA0 + 40 * i + 8 * k) 8
    (natField (f 4) 0 6,
      { base := f 1, vbase := f 0, rowBytes := natField (f 2) 0 24, rows := natField (f 2) 24 24, rowStride := f 3, ro := (f 4).testBit 6,
        ctx := 0, byCp := true, versions := [] }))

/-- The limits of a launch record (R284, R239), of its images (R68) and of its handler (R213). A NEXT beyond the route is no such limit
(R285). -/
def recordOk (r : BitVec 8192) (code : List (Nat × BitVec 256)) (near : List Byte) : Bool :=
  let c := recCounts r
  decide (natField c 0 6 ≤ 32 ∧ natField c 8 4 ≤ 8 ∧ natField c 16 5 ≤ 16) &&
    tempsOk (recTemps r) && windowsOk (rawWins r) (recTemps r) &&
    (recBufs r).all (fun b => decide (b.2.1 ≠ 0)) && decide (near.length ≤ recNearLen r) && decide (recFarva r % 2097152 = 0) &&
    code.all (fun e => decide (e.1 < 8192) && (decide (recUiv0 r ≠ 0xFFFF) || decide (e.1 < 8168)))

/-- Every record of a submitted route keeps the rules. -/
def routeOk (x : Submission) : Bool :=
  decide (x.code.length = x.recs.length ∧ x.near.length = x.recs.length ∧ x.far.length = x.recs.length) &&
    (List.range x.recs.length).all (fun i =>
      recordOk (nthD x.recs i 0) (nthD x.code i []) (nthD x.near i []))

/-- Launches of different worlds never name the same buffer (R239): a route names only buffers that no other world has. -/
def buffersOwn (s : State) (x : Submission) : Bool := x.recs.all (buffersFree s x.world)

/-- The segment already stored with the same measurement, in the domain of the submission (R328). -/
def sameSegment (s : State) (x : Submission) (m : BitVec 256) : Option (Nat × Segment) :=
  s.hub.segs.find? (fun e => decide (e.2.measure = m ∧ e.2.shared = x.shared) && (x.shared || e.2.worlds.contains x.world))

/-- Stores a segment, or adds a reference to the one that is there. -/
def storeSegment (s : State) (x : Submission) : State :=
  let m := Config.shake256 x.content
  match sameSegment s x m with
  | some (n, g) =>
    emit { s with hub := { s.hub with segs := alPut s.hub.segs n { g with worlds := g.worlds ++ [x.world] } } } (.sealed n false)
  | none =>
    let g : Segment :=
      { ident := x.ident, content := x.content, measure := m, shared := x.shared, worlds := [x.world], recs := x.recs, code := x.code, near := x.near,
        far := x.far, measures := x.code.map codeMeasure }
    emit { s with hub := { s.hub with segs := alPut s.hub.segs x.ident g } } (.sealed x.ident true)

/-- The public key of its model owner that a world has registered (R327). -/
def modelKey (s : State) (world : Nat) : Option (BitVec 256) := (s.hub.modelKeys.find? (fun e => e.1 = world)).map (·.2)

/-- Whether a submission's signature verifies under the key that its world has registered. -/
def signedRight (s : State) (x : Submission) : Bool := x.signer.isSome && decide (x.signer = modelKey s x.world)

/-- Releases a reference of a world to a segment; with the last one the segment goes (R328). How a world's use
of it ends is the host's word (log entry 90). -/
def releaseSegment (s : State) (world n : Nat) : State :=
  match getSeg s n with
  | none => s
  | some g =>
    let l := g.worlds.erase world
    if l.isEmpty then
      { s with hub := { s.hub with segs := alDel s.hub.segs n, staged := s.hub.staged.filter (fun x => x.seg ≠ n) } }
    else { s with hub := { s.hub with segs := alPut s.hub.segs n { g with worlds := l } } }

/-- SEGMENT_SUBMISSION: if any check fails nothing is stored. -/
def execSegmentSubmission (fn : Nat) (sub : Submission) (s : State) : Out :=
  let fresh := (getSeg s sub.ident).isNone || (sameSegment s sub (Config.shake256 sub.content)).isSome
  let ok := answers s && (tenantWorlds s fn).contains sub.world && signedRight s sub && routeOk sub && buffersOwn s sub && fresh
  hostDo s fn ok (storeSegment s sub)

/-! Assays (R329, R330). -/

/-- The TDI state's code in an assay. -/
def tdiCode : TdiState → Nat
  | .unlocked => 0
  | .locked => 1
  | .run => 2
  | .error => 3

/-- The body of an assay. -/
def assayBody (s : State) (fn world segment : Nat) (nonce : BitVec 256) : List Byte :=
  let hkey := ((s.hub.keys.find? (fun e => decide (e.2.world = world ∧ e.2.st ≠ 0))).map (·.2.hkey)).getD 0
  let measure := ((getSeg s segment).map (·.measure)).getD 0
  leBytes 1 4 ++ leBytes world 2 ++ leBytes (tdiCode (getTdi s fn)) 1 ++ [0#8] ++ leBytes s.edge.boot.count 8 ++
    leBytes (Config.firmwareMeasurement (!s.edge.boot.imageB)).toNat 32 ++ leBytes nonce.toNat 32 ++
    leBytes (if (getSeg s segment).isSome then segment else 0) 8 ++ leBytes 0 8 ++ leBytes measure.toNat 32 ++
    leBytes (Config.kmac256 hkey (asciiBytes "RHV-HKCHK") []).toNat 32 ++ leBytes 0 96

/-- The boot certificate of the session key in use (R329): the session public key, the boot count and the firmware measurement, signed
with the long-term key. -/
def bootCertificate (b : Boot) : List Byte :=
  let body := Config.sessionPublic b.longIndex ++ leBytes b.count 8 ++ leBytes (Config.firmwareMeasurement (!b.imageB)).toNat 32
  body ++ Config.longTermSign (b.longIndex - 1) body

/-- A further session key when the signatures of the last are spent; none when the long-term index is exhausted. -/
def renewKey (s : State) : State :=
  let b := s.edge.boot
  if b.sigsLeft = 0 ∧ b.longIndex < 2 ^ 20 then
    { s with edge := { s.edge with boot := { b with sigsLeft := 65536, longIndex := b.longIndex + 1 } } }
  else s

/-- ASSAY_REQUEST: refused before the session key is certified and once the long-term index is exhausted. -/
def execAssayRequest (fn world segment : Nat) (nonce : BitVec 256) (s : State) : Out :=
  let s1 := renewKey s
  let b := s1.edge.boot
  if b.stage = 3 ∧ 0 < b.sigsLeft ∧ b.longIndex < 2 ^ 20 ∧ (tenantWorlds s fn).contains world then
    let body := assayBody s1 fn world segment nonce
    let sig := leBytes (Config.xmssSign b.longIndex (65536 - b.sigsLeft) body).toNat 2692
    .next (emit { s1 with edge := { s1.edge with boot := { b with sigsLeft := b.sigsLeft - 1 } } } (.assay fn (body ++ sig) (bootCertificate b)))
  else .next (reject s fn)

/-! TDISP (R332). -/

/-- A TDISP request of an interface: allowed in some states, else INVALID_INTERFACE_STATE. -/
def tdispRequest (s : State) (fn : Nat) (allowed : TdiState → Bool) (to_ : TdiState) : State :=
  if answers s && decide (fn ≠ 0) && allowed (getTdi s fn) then emit (setTdi s fn to_) (.tdisp fn true) else emit s (.tdisp fn false)

/-- LOCK_INTERFACE. -/
def execLockInterface (fn : Nat) (s : State) : Out := .next (tdispRequest s fn (fun x => decide (x = .unlocked)) .locked)
/-- START_INTERFACE. -/
def execStartInterface (fn : Nat) (s : State) : Out := .next (tdispRequest s fn (fun x => decide (x = .locked)) .run)
/-- STOP_INTERFACE. -/
def execStopInterface (fn : Nat) (s : State) : Out := .next (tdispRequest s fn (fun x => decide (x ≠ .unlocked)) .unlocked)

/-- Frames of a tenant are to be scrubbed: at once when none of its gangs is left, else at the completion of the last. -/
def markScrub (s : State) (t : Nat) : State :=
  scrubMarked { s with frames := s.frames.map (fun e => if e.2.tenant = t then (e.1, { e.2 with st := .scrubbing }) else e) }

/-- An interface goes to ERROR: gangs end under containment, key slots are sealed off, frames scrubbed (R332). -/
def interfaceError (s : State) (fn : Nat) : State :=
  let s1 := contain (setTdi s fn .error) fn 3 0 0
  let s2 := { s1 with hub := { s1.hub with keys := s1.hub.keys.map (fun e => if e.2.tenant = fn ∧ e.2.st ≠ 0 then (e.1, { e.2 with st := 3 }) else e) } }
  markScrub s2 fn

/-- FORCE_INTERFACE_ERROR. -/
def execForceInterfaceError (fn : Nat) (s : State) : Out :=
  if answers s ∧ fn ≠ 0 ∧ getTdi s fn ≠ .error then .next (interfaceError s fn) else .next (emit s (.tdisp fn false))

/-- FLR_VIRTUAL_FUNCTION (R350): gangs end with 0x35, blocks are HALTED with what is in their rings, a locked interface goes to ERROR. -/
def flrVirtual (s : State) (fn : Nat) : State :=
  let bs := tenantBlocks s fn
  let s1 := bs.foldl (fun s c => match getGang s c with | some g => endGangAll s g cContain | none => s) s
  let s2 := bs.foldl (fun s c => setState (dropBinding s c) c stHalted) s1
  if isLocked s2 fn then interfaceError s2 fn else s2

/-! Other registers (R349). -/

/-- Sum of a field over a table but for one key. -/
def sumBut {α : Type} (l : List (Nat × α)) (k : Nat) (f : α → Nat) : Nat := ((l.filter (fun e => e.1 ≠ k)).map (fun e => f e.2)).foldl (· + ·) 0

/-- A pool that R258 allows. -/
def poolOk (p : Pool) : Bool :=
  decide (p.fmt ≤ 2 ∧ p.dsel ≤ 2 ∧ ¬ (p.dsel = 2 ∧ p.fmt = 2) ∧ 1 ≤ p.groups ∧ p.groups ≤ 256 ∧ p.dvbase % 2097152 = 0 ∧ p.mvbase % 2097152 = 0 ∧
    p.gstack.length = p.groups) && p.gstack.all (fun k => decide (k < 12))

/-- Whether a write is accepted. -/
def hostWriteOk (s : State) (fn : Nat) (ide : Bool) (w : HostWrite) : Bool :=
  let owner (world : Nat) : Bool := mayConfigure s fn ide (worldTenant s world)
  match w with
  | .identity pkg pod => isService s fn && decide (pkg < 1024 ∧ pod < 256)
  | .guarantee t g _ => isService s fn && decide (t < 256 ∧ g + sumBut s.hub.tenants t (·.g) ≤ frameCount)
  | .grant d v => isService s fn && decide (d < 8 ∧ v ≤ 262144)
  | .share d t v => isService s fn && decide (d < 8 ∧ t < 256 ∧ v + sumBut (getDie s d).buckets t (·.share) ≤ 65536)
  | .address id v4 v6 _ p => isService s fn && decide (id < 262144 ∧ p < 256) && (v4.isSome || v6.isSome)
  | .portMac p _ => isService s fn && decide (p < 8)
  | .podKey _ => isService s fn
  | .buffer n world _ =>
    owner world && decide (n < 1048576 ∧ world < 4096) &&
      (match s.hub.buffers.find? (fun e => e.1 = n) with | some (_, b) => b.writers.isEmpty && b.readers.isEmpty && owner b.world | none => true)
  | .keySlot k world t _ _ =>
    mayConfigure s fn ide t && decide (k < 4096 ∧ world < 4096) && ((getKey s k).map (fun x => decide (x.st = 0))).getD true &&
      !s.hub.keys.any (fun e => decide (e.2.world = world ∧ e.2.st ≠ 0)) &&
      s.hub.blocks.all (fun e => decide (blkState e.2 = stFree) || slotAgrees e.2 k world t)
  | .pool n world fmt dsel groups dv mv gs =>
    owner world && poolOk { world := world, fmt := fmt, dsel := dsel, groups := groups, dvbase := dv, mvbase := mv, gstack := gs } &&
      (getPool s n).isNone && decide (n < 0xFFFFFFFF ∧ world < 4096)
  | .domain n world ns _ pool =>
    owner world && decide (n < 4096 ∧ 1 ≤ ns ∧ ns ≤ 4096 ∧ world < 4096) && !s.hub.domains.any (fun e => e.1 = n) &&
      decide ((getPool s pool).map (·.world) = some world)
  | .unhalt ctx _ => decide (blkState (getBlock s ctx) = stHalted) && mayConfigure s fn ide (blkTenant (getBlock s ctx))
  | .exported world f => mayConfigure s fn ide (((getFrame s f).map (·.tenant)).getD 0) && decide (world < 4096 ∧ f < frameCount)
  | .peerPage ctx vp pkg f _ =>
    mayConfigure s fn ide (blkTenant (getBlock s ctx)) && isLeasePage s ctx vp && decide (pkg < 1024 ∧ f < frameCount ∧ spaceOf s ctx vp = ctx) &&
      !pageResident s ctx (2097152 * vp)
  | .stackHomed ctx vp k =>
    mayConfigure s fn ide (blkTenant (getBlock s ctx)) && isLeasePage s ctx vp && decide (k < 12 ∧ spaceOf s ctx vp = ctx) && !pageResident s ctx (2097152 * vp) &&
      !s.frames.any (fun f => f.2.page = some (ctx, vp))
  | .modelKey world _ => ownObject s fn ide (worldTenant s world) && (tenantWorlds s fn).contains world
  | .release world n =>
    ownObject s fn ide (worldTenant s world) && (tenantWorlds s fn).contains world &&
      ((getSeg s n).map (fun g => g.worlds.contains world)).getD false
  | .mailbox off _ => answers s && decide (fn < 256 ∧ off < 4096)
  | .ideStream _ => answers s && decide (0 < fn ∧ fn < 256)
  | .ideFailure => answers s && ideUp s fn

/-- A block comes back from HALTED, its ring empty: what was still in it is gone without a reply (log entry 94). -/
def unhaltBlock (s0 : State) (ctx : Nat) (free : Bool) : State :=
  let s := dropQueued s0 ctx
  let b := blkSet (getBlock s ctx) 0x10 4 (blkQtail (getBlock s ctx))
  freedBlock (setBlock s ctx (setBlkState b (if free then stFree else stIdle))) ctx

/-- An IDE stream taken down or broken: a locked interface goes to ERROR (R333). -/
def ideLost (s : State) (fn : Nat) : State :=
  let s1 := { s with edge := { s.edge with ide := alDel s.edge.ide fn } }
  if isLocked s fn then interfaceError s1 fn else s1

/-- What an accepted write of a function does. DESIGN CHOICE (log entry 95): a guarantee or allowance below what the tenant holds takes no
frame from it. -/
def applyHostWrite (s : State) (fn : Nat) (w : HostWrite) : State :=
  match w with
  | .identity pkg pod => { s with edge := { s.edge with pkgid := pkg, podid := pod } }
  | .guarantee t g u => { s with hub := { s.hub with tenants := alPut s.hub.tenants t { g := g, u := u } } }
  | .grant d v => modDie s d (fun x => { x with grant := v })
  | .share d t v => modDie s d (fun x => setBucket x t { getBucket x t with share := v })
  | .address id v4 v6 mac p =>
    { s with hub := { s.hub with addrTable := alPut s.hub.addrTable id { v4 := v4, v6 := v6, mac := mac, ports := p } } }
  | .portMac p mac => { s with edge := { s.edge with macs := alPut s.edge.macs p mac } }
  | .podKey key => { s with edge := { s.edge with podKey := some key }, hub := { s.hub with peers := [] } }
  | .buffer n world whole =>
    let b : BufEntry := { version := 0, world := world, whole := whole, writers := [], readers := [], last := 0, sweep := false }
    { s with hub := { s.hub with buffers := alPut s.hub.buffers n b } }
  | .keySlot k world t root hkey =>
    putKey s k { root0 := root, root1 := 0, gen := false, uses0 := 0, uses1 := 0, hkey := hkey, st := 1, world := world, tenant := t }
  | .pool n world fmt dsel groups dv mv gs =>
    let p : Pool := { world := world, fmt := fmt, dsel := dsel, groups := groups, dvbase := dv, mvbase := mv, gstack := gs }
    { s with hub := { s.hub with pools := alPut s.hub.pools n p },
             edge := { s.edge with drives := s.edge.drives.filter (fun e => keySpace e.1 ≠ 16384 + n) } }
  | .domain n world ns quota pool =>
    { s with hub := { s.hub with domains := alPut s.hub.domains n { world := world, ns := ns, quota := quota, pool := pool } } }
  | .unhalt ctx free => unhaltBlock s ctx free
  | .exported world f => { s with hub := { s.hub with exports := alPut s.hub.exports f world } }
  | .peerPage ctx vp pkg f rw =>
    flushEntries { s with xlat := alPut s.xlat (pageKey ctx vp) (makeLeaf (rw && leasedRw s ctx vp) false 2 f pkg) } ctx
  | .stackHomed ctx vp k => { s with edge := { s.edge with stackPages := alPut s.edge.stackPages (pageKey ctx vp) k } }
  | .modelKey world key => { s with hub := { s.hub with modelKeys := alPut s.hub.modelKeys world key } }
  | .release world n => releaseSegment s world n
  | .mailbox off byte => { s with edge := { s.edge with mail := memWrite s.edge.mail (4096 * fn + off) byte } }
  | .ideStream key => if key = 0 then ideLost s fn else { s with edge := { s.edge with ide := alPut s.edge.ide fn key } }
  | .ideFailure => ideLost s fn

/-- HOST_REGISTER_WRITE. -/
def execHostRegisterWrite (fn : Nat) (ide : Bool) (w : HostWrite) (s : State) : Out :=
  hostDo s fn (hostWriteOk s fn ide w) (applyHostWrite s fn w)

/-! Reads (R318, R349): a read changes nothing, so no event of the module is one. -/

/-- What a function can be asked for. -/
inductive HostReg where
  | block (ctx off len : Nat)
  | keySlot (slot : Nat)
  | guarantee (tenant : Nat)
  | grant (die : Nat)
  | address (ident : Nat)
  | group (n : Nat)
  | enabledQuads (die : Nat)
  | mailbox (off : Nat)
  deriving DecidableEq, Repr

/-- The enabled quads of a die (R14). -/
def enabledQuads (s : State) (die : Nat) : Nat := ((range' (48 * die) 48).filter (quadUp s)).length

/-- What the host sees of a key slot (R318): STATE, GEN and the counters. -/
def KeySlot.hostView (x : KeySlot) : List Nat := [x.st, if x.gen then 1 else 0, x.uses0, x.uses1]

/-- What a read through a function gives; none where the function has no such register (R349). -/
def hostRead (s : State) (fn : Nat) (r : HostReg) : Option (List Nat) :=
  if !answers s then none
  else
    match r with
    | .mailbox off => if fn < 256 ∧ off < 4096 then some [(memRead s.edge.mail (4096 * fn + off)).toNat] else none
    | r =>
      if fn ≠ 0 then none
      else
        match r with
        | .block ctx off len => if ctx < 16384 ∧ off + len ≤ 256 then some [blkField (getBlock s ctx) off len] else none
        | .keySlot k => if k < 4096 then some (((getKey s k).map (·.hostView)).getD [0, 0, 0, 0]) else none
        | .guarantee t => if t < 256 then some [tenantG s t, tenantU s t] else none
        | .grant d => if d < 8 then some [(getDie s d).grant] else none
        | .address id => (addrOf s id).map (fun a => [((a.v4.map (·.toNat)).getD 0), ((a.v6.map (·.toNat)).getD 0), a.mac.toNat, a.ports])
        | .group n => (getGroup s n).map (fun g => g.channels :: g.members)
        | .enabledQuads d => if d < 8 then some [enabledQuads s d] else none
        | .mailbox _ => none

/-! Host DMA (R220). -/

/-- Reads of lines at their homes, one after another; a failed line arrives poisoned and is logged (R323). -/
def dmaRead (s : State) : List (Nat × Nat × Nat) → List (Byte × Bool) × State
  | [] => ([], s)
  | (k, off, n) :: rest =>
    let (line, s0) := hubLine s { peer := none, pa := 64 * k }
    let (l, s1) := dmaRead (nextStamp s0).2 rest
    ((line.drop off).take n ++ l, s1)

/-- Writes of lines at their homes, one after another. -/
def dmaWrite (s : State) : List (Nat × Nat × Nat) → List Byte → State
  | [], _ => s
  | (k, off, n) :: rest, bs =>
    dmaWrite (writeLine (nextStamp s).2 none (64 * k) (runMask off n) (lineOfBytes (List.replicate off 0#8 ++ bs.take n))) rest (bs.drop n)

/-- The places of the lines of a DMA request. -/
def dmaLines (ps : List (Nat × Nat × Nat)) : List Loc := ps.map (fun p => { peer := none, pa := 64 * p.1 })

/-- A DMA request performs, unless one of its lines stands in a held quad (R311), waits for a rekey (R319), or the writeback it forces for
a token (R298). -/
def tryDma (write : Bool) (pa : Nat) (bytes : List Byte) (s : State) : Bool × State :=
  let ps := pieces pa bytes.length
  if (dmaLines ps).any (fun l => lineHeld s l || (write && (recallHeld s l || sealWaits s l))) then (false, s)
  else if write then
    match takeRecalls (dmaLines ps) s with
    | (true, s1) => (true, dmaWrite s1 ps bytes)
    | (false, s1) => (false, s1)
  else
    let (l, s1) := dmaRead s ps
    (true, emit s1 (.dmaData pa l))

/-- HOST_DMA: an other-party access at each line's home; one that meets the reserved range is rejected. -/
def execHostDma (write : Bool) (pa : Nat) (bytes : List Byte) (s : State) : Out :=
  if (pieces pa bytes.length).any (fun p => isHole (64 * p.1)) then .next (reject s 0)
  else
    match tryDma write pa bytes s with
    | (true, s1) => .next s1
    | (false, s1) => .next { s1 with waiting := s1.waiting ++ [.dma write pa bytes] }

/-! Accesses that wait (R298, R311, R319). -/

/-- An access that waits is tried. -/
def tryDelayed (s : State) : Delayed → Bool × State
  | .pod cls r => tryPod cls r s
  | .dma write pa bytes => tryDma write pa bytes s
  | .sent ctx n reply => tryOutcome s ctx n reply

/-- The accesses that wait are tried again, in their order, and the ring entries that have not been written. -/
def retryWaiting (s : State) : State :=
  let s1 := s.waiting.foldl (fun s d =>
    match tryDelayed s d with
    | (true, t) => t
    | (false, t) => { t with waiting := t.waiting ++ [d] }) { s with waiting := [] }
  (((s1.hub.reqs.filter (fun r => decide (r.entry ≠ []))).map (·.ctx)).eraseDups).foldl flushEntries s1

end Sys2Proof.Machine
end

