-- ==== Sys2Proof/Machine/Boot.lean ====
section
/-! DEFINITION. Resets, boot and the connector's signals (R14, R292, R329, R333, R354 to R356). -/

namespace Sys2Proof.Machine

/-- The session key is certified once perst_n has risen (R356 step 7); it spends one long-term signature (R329). -/
def certify (s : State) : State :=
  let b := s.edge.boot
  if b.stage = 2 ∧ s.edge.pins.perstN ∧ b.longIndex < 2 ^ 20 then
    { s with edge := { s.edge with boot := { b with stage := 3, longIndex := b.longIndex + 1, sigsLeft := 65536 } } }
  else s

/-- Steps 4 to 7 of R356, once step 3 is done and perst_n is high: the PCIe link trains, the Ethernet ports come up, the functions answer,
the session key is certified. -/
def comeUp (s : State) : State :=
  if s.edge.boot.stage = 1 ∧ s.edge.pins.perstN then
    certify { s with edge := { s.edge with links := BitVec.allOnes 8, boot := { s.edge.boot with stage := 2 } } }
  else s

/-- BOOT (R356): image A or B, MAIN enabled, the dies that fail to train withdrawn; with perst_n high the ports come up and the functions
answer. With neither image the module stays in reset and holds alert_n low. -/
def execBoot (r : BootReport) (s : State) : Out :=
  let b := s.edge.boot
  if b.stage ≠ 0 ∨ b.dead then .next s
  else if !r.imageA && !r.imageB then
    .next { s with edge := { s.edge with boot := { b with dead := true }, pins := { s.edge.pins with alertN := false } } }
  else
    let s1 := r.deadDies.foldl (fun s d => modDie s d (fun x => { x with down := true })) s
    let e := s1.edge
    .next (comeUp { s1 with edge := { e with boot := { b with stage := 1, count := b.count + 1, imageB := !r.imageA },
                                             pins := { e.pins with pwrgd := true, thermN := true } } })

/-- PERST_N_RISING (R356 steps 4 to 7). -/
def execPerstNRising (s : State) : Out := .next (comeUp { s with edge := { s.edge with pins := { s.edge.pins with perstN := true } } })

/-- `prsnt_n` is tied low: the module is present (R354). -/
def prsntN : Bool := false

/-- A supply rail (R353): nominal, lowest and highest voltage in millivolts, and the largest current in milliamperes. -/
structure Rail where
  nominal : Nat
  low : Nat
  high : Nat
  current : Nat
  deriving DecidableEq, Repr

def mainRail : Rail := { nominal := 48000, low := 40000, high := 60000, current := 60000 }
def auxRail : Rail := { nominal := 3300, low := 3135, high := 3465, current := 3000 }

/-- A core that has lost its world: the load epoch goes on (R325). -/
def emptyCore (x : Core) : Core := { Core.reset with epoch := x.epoch }

/-- A quad that has lost its world: power-gated and cold (R292), its physical site kept (R14). -/
def emptyQuad (q : Nat) (x : Quad) : Quad := { Quad.reset q with withdrawn := x.withdrawn, site := x.site }

/-- A die whose L2 and directory are empty and whose waiting lines are gone; the host's settings stay. -/
def emptyDie (d : Die) : Die := { d with waitq := [], granted := [], l2 := [], dir := [] }

/-- The hub without worlds: no block, gang, key or session; the tables of service software stay, and the sealed segments, which the drives
keep (R351, R355). -/
def emptyHub (h : Hub) : Hub :=
  { Hub.reset with groups := h.groups.map (fun e => (e.1, { e.2 with parts := [] })), tenants := h.tenants, addrTable := h.addrTable, segs := h.segs,
                   nextXfer := h.nextXfer, placeAt := h.placeAt, nextLaunch := h.nextLaunch }

/-- Every world ends: gangs without a reply, a quad that waits for its spare site taking it (R14), frames scrubbed, key slots and sessions
zeroised, that of the pod among them; the boot count steps and boot runs again from its third step, the dies that are withdrawn failing
to train again; the drives keep what they hold (R355). -/
def endWorlds (s0 : State) : State :=
  let s := (s0.hub.gangs.map (·.2)).foldl remapAll s0
  let b := s.edge.boot
  comeUp { s with
    todo := [], served := false, waiting := [], issue := none,
    cores := s.cores.map (fun e => (e.1, emptyCore e.2)), quads := s.quads.map (fun e => (e.1, emptyQuad e.1 e.2)),
    dies := s.dies.map (fun e => (e.1, emptyDie e.2)), stash := [], tags := [], sbad := [], chunks := [],
    far := s.far.filter (fun e => !isHbm e.1), lineVer := [], bad := [], frames := [], xlat := [], hub := emptyHub s.hub,
    edge := { s.edge with links := 0, held := [], podKey := none, ide := [], hostPages := [], stackPages := [], invalidating := [], revoking := [], migrating := [],
                          boot := { b with stage := min 1 b.stage, count := b.count + 1, sigsLeft := 0 } } }

/-- PERST: perst_n falls. -/
def execPerst (s : State) : Out := .next (endWorlds { s with edge := { s.edge with pins := { s.edge.pins with perstN := false } } })

/-- FLR_VIRTUAL_FUNCTION (R350); that of the physical function resets the host link (R355). -/
def execFlrVirtualFunction (fn : Nat) (s : State) : Out :=
  if !answers s then .next s else if fn = 0 then .next (endWorlds s) else .next (flrVirtual s fn)

/-- What power loss leaves: the boot flash, the drives with their segments, and the long-term index (R351, R355); the host's memory and the
level of perst_n, an input, are not the module's. -/
def powerLoss (s : State) : State :=
  let r := State.reset
  { r with far := s.far.filter (fun e => !isHbm e.1), hub := { r.hub with segs := s.hub.segs },
           edge := { r.edge with drives := s.edge.drives, boot := { Boot.reset with longIndex := s.edge.boot.longIndex },
                                 pins := { Pins.reset with perstN := s.edge.pins.perstN } } }

/-- MODULE_RESET: MAIN or AUX lost, or mrst_n low for 10 ms and high again (R354, R355). -/
def execModuleReset (s : State) : Out := .next (powerLoss s)

/-- THERMAL_TRIP (R354): therm_n low, MAIN shed: what power loss leaves. -/
def execThermalTrip (s : State) : Out :=
  let r := powerLoss s
  .next { r with edge := { r.edge with pins := { r.edge.pins with thermN := false } } }

/-- UCIE_LINK_FAILURE (R14, R333): reported, and the die withdrawn. -/
def execUcieLinkFailure (die : Nat) (s : State) : Out := .next (modDie (logEntry s 5 die 0) die (fun d => { d with down := true }))

/-- TELEMETRY_ALERT_READ (R14, R354): what telemetry holds is read over the management bus, one unread alert is taken, and with none left
alert_n is released. -/
def execTelemetryAlertRead (s : State) : Out :=
  let n := s.edge.alerts - 1
  let s := emit s (.telemetry ((range' 0 8).map (enabledQuads s)) s.edge.alerts s.edge.logs s.edge.portErrors)
  .next { s with edge := { s.edge with alerts := n, pins := { s.edge.pins with alertN := decide (n = 0) && !s.edge.boot.dead } } }

end Sys2Proof.Machine
end

