-- ==== Sys2Proof/Machine/Move.lean ====
section
/-! DEFINITION. The plain move and the masked vector write (R48, R51, R70, R71, R87). -/

namespace Sys2Proof.Machine

/-- `src -> dst`: the register or operand port takes the source's value, converted, with its taint and poison (R70, R71, R87). -/
def execMov (g : Guard) (src : Src) (dst : Dst) (s : State) : Out :=
  .next (runMove (.mov g src dst) g src s (fun x s => noteWritten (modArch s (fun a => writeDst a dst x)) dst))

/-- Lane `i` of `new` where bit `i` of the mask is set, else of `old`. -/
def maskLanes (mask : Word) (new old : Vec) : Vec :=
  ofLanes (fun i => if mask.getLsbD i then laneOf new i else laneOf old i)

/-- The number of a vector register from its destination code (R72). -/
def vecRegOf (dst : BitVec 10) : Fin 32 := Fin.ofNat 32 dst.toNat

/-- A masked vector write under `vu.k` as it stood before the bundle (R51). -/
def execMaskedVectorWrite (src : Src) (dst : BitVec 10) (s : State) : Out :=
  .next (runMove (.maskedVectorWrite src dst) .mask src s (fun x s =>
    let new := x.broadcast
    let k := getOpS (startArch s) .vuK
    let i := vecRegOf dst
    let old := vget (arch s).regs.v i
    noteWritten (modRegs s (fun r =>
      { r with v := vset r.v i { v := maskLanes k.v new.v old.v, t := old.t ||| new.t ||| k.t, p := old.p || new.p || k.p,
                                 dead := false } })) (.v i)))

end Sys2Proof.Machine
end

