-- ==== Sys2Proof/Machine/Scalar.lean ====
section
/-! DEFINITION. The scalar units `sa` and `sb` (R73, R85, R88 to R90). -/

namespace Sys2Proof.Machine

/-- The operand port and the result port of a scalar unit (R73). -/
def scalarOperand (sb : Bool) : OpPort := if sb then .sbO else .saO
def scalarResult (sb : Bool) : PortId := if sb then .sbR else .saR

/-- A scalar operation on `o` and `t` (R85, R88). -/
def scalarOp2 (i : Instr) (g : Guard) (src : Src) (sb : Bool) (lat : Nat) (f : Word → Word → Word) (s : State) : State :=
  runMove i g src s (fun x s =>
    let o := getOpS (arch s) (scalarOperand sb)
    let t := x.scalar
    deliverS s (scalarResult sb) lat { v := f o.v t.v, t := o.t ||| t.t, p := o.p || t.p })

/-- A scalar operation on `t` alone: neither the value nor the taint of the operand port reaches the result (R88). -/
def scalarOp1 (i : Instr) (g : Guard) (src : Src) (sb : Bool) (f : Word → Nat) (s : State) : State :=
  runMove i g src s (fun x s =>
    let t := x.scalar
    deliverS s (scalarResult sb) 1 { v := BitVec.ofNat 64 (f t.v), t := t.t, p := t.p })

/-- An operation whose width, read from `t`, must be 1 to 64; the check is made when `t` is not poisoned, and a poisoned `t` out
of range gives an unpredictable, poisoned value (R90). -/
def scalarWidthOp (i : Instr) (g : Guard) (src : Src) (sb : Bool) (width : Word → Nat) (f : Word → Word → Word) (s : State) :
    State :=
  runMove i g src s (fun x s =>
    let o := getOpS (arch s) (scalarOperand sb)
    let t := x.scalar
    if 1 ≤ width t.v ∧ width t.v ≤ 64 then
      deliverS s (scalarResult sb) 1 { v := f o.v t.v, t := o.t ||| t.t, p := o.p || t.p }
    else if t.p then
      deliverS (takeFree s).2 (scalarResult sb) 1 { v := Config.freeWord s.freeCtr, t := o.t ||| t.t, p := true }
    else raise s i cOperand)

/-- The shift count of `shl`, `shr` and `sar`: t[5:0]. -/
def shiftCount (t : Word) : Nat := t.toNat % 64

/-- The bits [127:64] of an exact product. -/
def highWord (z : Int) : Word := BitVec.ofInt 64 (z / 18446744073709551616)

/-- The width of `sext` and `zext`, t[6:0], and of `bfx`, t[12:6] (R88, R89). -/
def extWidth (t : Word) : Nat := natField t.toNat 0 7
def bfxWidth (t : Word) : Nat := natField t.toNat 6 7

/-- `bfx` (R89). -/
def bfxWord (o t : Word) : Word :=
  let w := bfxWidth t
  let f := natField o.toNat (natField t.toNat 0 6) w
  if t.getLsbD 13 then BitVec.ofInt 64 (signExtNat f w) else BitVec.ofNat 64 f

/-- `add`: o + t (R88), latency 1 (R73). -/
def execSaAdd (g : Guard) (src : Src) (sb : Bool) (s : State) : Out :=
  .next (scalarOp2 (.saAdd g src sb) g src sb 1 (fun o t => o + t) s)

/-- `sub`: o - t (R88), latency 1 (R73). -/
def execSaSub (g : Guard) (src : Src) (sb : Bool) (s : State) : Out :=
  .next (scalarOp2 (.saSub g src sb) g src sb 1 (fun o t => o - t) s)

/-- `and`: o AND t (R88), latency 1 (R73). -/
def execSaAnd (g : Guard) (src : Src) (sb : Bool) (s : State) : Out :=
  .next (scalarOp2 (.saAnd g src sb) g src sb 1 (fun o t => o &&& t) s)

/-- `or`: o OR t (R88), latency 1 (R73). -/
def execSaOr (g : Guard) (src : Src) (sb : Bool) (s : State) : Out :=
  .next (scalarOp2 (.saOr g src sb) g src sb 1 (fun o t => o ||| t) s)

/-- `xor`: o XOR t (R88), latency 1 (R73). -/
def execSaXor (g : Guard) (src : Src) (sb : Bool) (s : State) : Out :=
  .next (scalarOp2 (.saXor g src sb) g src sb 1 (fun o t => o ^^^ t) s)

/-- `andn`: o AND NOT t (R88), latency 1 (R73). -/
def execSaAndn (g : Guard) (src : Src) (sb : Bool) (s : State) : Out :=
  .next (scalarOp2 (.saAndn g src sb) g src sb 1 (fun o t => o &&& ~~~t) s)

/-- `shl`: o x 2^t[5:0] (R88), latency 1 (R73). -/
def execSaShl (g : Guard) (src : Src) (sb : Bool) (s : State) : Out :=
  .next (scalarOp2 (.saShl g src sb) g src sb 1 (fun o t => o <<< shiftCount t) s)

/-- `shr`: floor(uns(o) / 2^t[5:0]) (R88), latency 1 (R73). -/
def execSaShr (g : Guard) (src : Src) (sb : Bool) (s : State) : Out :=
  .next (scalarOp2 (.saShr g src sb) g src sb 1 (fun o t => o >>> shiftCount t) s)

/-- `sar`: floor(sgn(o) / 2^t[5:0]) (R88), latency 1 (R73). -/
def execSaSar (g : Guard) (src : Src) (sb : Bool) (s : State) : Out :=
  .next (scalarOp2 (.saSar g src sb) g src sb 1 (fun o t => o.sshiftRight (shiftCount t)) s)

/-- `min`: the smaller of sgn(o), sgn(t) (R88), latency 1 (R73). -/
def execSaMin (g : Guard) (src : Src) (sb : Bool) (s : State) : Out :=
  .next (scalarOp2 (.saMin g src sb) g src sb 1 (fun o t => if t.slt o then t else o) s)

/-- `max`: the larger of sgn(o), sgn(t) (R88), latency 1 (R73). -/
def execSaMax (g : Guard) (src : Src) (sb : Bool) (s : State) : Out :=
  .next (scalarOp2 (.saMax g src sb) g src sb 1 (fun o t => if o.slt t then t else o) s)

/-- `minu`: the smaller of uns(o), uns(t) (R88), latency 1 (R73). -/
def execSaMinu (g : Guard) (src : Src) (sb : Bool) (s : State) : Out :=
  .next (scalarOp2 (.saMinu g src sb) g src sb 1 (fun o t => if t.ult o then t else o) s)

/-- `maxu`: the larger of uns(o), uns(t) (R88), latency 1 (R73). -/
def execSaMaxu (g : Guard) (src : Src) (sb : Bool) (s : State) : Out :=
  .next (scalarOp2 (.saMaxu g src sb) g src sb 1 (fun o t => if o.ult t then t else o) s)

/-- `mul`: o x t, low 64 bits (R88), latency 3 (R73). -/
def execSaMul (g : Guard) (src : Src) (sb : Bool) (s : State) : Out :=
  .next (scalarOp2 (.saMul g src sb) g src sb 3 (fun o t => o * t) s)

/-- `mulh`: floor(sgn(o) x sgn(t) / 2^64) (R88), latency 3 (R73). -/
def execSaMulh (g : Guard) (src : Src) (sb : Bool) (s : State) : Out :=
  .next (scalarOp2 (.saMulh g src sb) g src sb 3 (fun o t => highWord (o.toInt * t.toInt)) s)

/-- `mulhu`: floor(uns(o) x uns(t) / 2^64) (R88), latency 3 (R73). -/
def execSaMulhu (g : Guard) (src : Src) (sb : Bool) (s : State) : Out :=
  .next (scalarOp2 (.saMulhu g src sb) g src sb 3 (fun o t => highWord ((o.toNat : Int) * (t.toNat : Int))) s)

/-- `clz`: leading zero bits of t (R88). -/
def execSaClz (g : Guard) (src : Src) (sb : Bool) (s : State) : Out :=
  .next (scalarOp1 (.saClz g src sb) g src sb (fun t => clzNat t.toNat 64) s)

/-- `ctz`: trailing zero bits of t (R88). -/
def execSaCtz (g : Guard) (src : Src) (sb : Bool) (s : State) : Out :=
  .next (scalarOp1 (.saCtz g src sb) g src sb (fun t => ctzFrom t.toNat 0 64) s)

/-- `popc`: set bits of t (R88). -/
def execSaPopc (g : Guard) (src : Src) (sb : Bool) (s : State) : Out :=
  .next (scalarOp1 (.saPopc g src sb) g src sb (fun t => popNat t.toNat 64) s)

/-- `sext`: sign_extend(o, t[6:0]) (R88, R90). -/
def execSaSext (g : Guard) (src : Src) (sb : Bool) (s : State) : Out :=
  .next (scalarWidthOp (.saSext g src sb) g src sb extWidth (fun o t => BitVec.ofInt 64 (signExtNat o.toNat (extWidth t))) s)

/-- `zext`: zero_extend(o, t[6:0]) (R88, R90). -/
def execSaZext (g : Guard) (src : Src) (sb : Bool) (s : State) : Out :=
  .next (scalarWidthOp (.saZext g src sb) g src sb extWidth (fun o t => BitVec.ofNat 64 (o.toNat % 2 ^ extWidth t)) s)

/-- `bfx`: a field of o (R89) (R88, R90). -/
def execSaBfx (g : Guard) (src : Src) (sb : Bool) (s : State) : Out :=
  .next (scalarWidthOp (.saBfx g src sb) g src sb bfxWidth (bfxWord) s)

end Sys2Proof.Machine
end

