-- ==== Sys2Proof/Machine/Seq.lean ====
section
/-! DEFINITION. The sequencer: branches, jumps, calls, loops, exit, user traps, events, control registers and yield (R75, R82 to
R84, R94 to R107, R305, R306). -/

namespace Sys2Proof.Machine

/-! Loops (R97 to R99). -/

/-- The procedure of R98 from a loop on: `inner` are the exhausted entries so far, the outermost of them first. -/
def loopsFrom (x : Nat) : Nat → List LoopEntry → List LoopEntry → List LoopEntry × Option Nat
  | 0, _, rest => (rest, none)
  | _ + 1, _, [] => ([], none)
  | n + 1, inner, l :: rest =>
    if l.stop.toNat = x then
      if l.index.toNat + 1 < l.count.toNat then
        let kept := (inner.reverse.map (fun e => { e with index := 0 })) ++ { l with index := l.index + 1 } :: rest
        (kept, kept.head?.map (·.start.toNat))
      else loopsFrom x n (l :: inner) rest
    else (l :: rest, none)

/-- The loops that R98 may act on: all outside a handler, inside one those it opened (R305). -/
def ownLoops (q : Sequencer) : Nat :=
  match q.handler with
  | none => q.loops.length
  | some (n, _) => q.loops.length - n

/-- R98: the loop stack and the next address after the bundle at `x`. -/
def nextAfter (q : Sequencer) (x : Nat) : List LoopEntry × Nat :=
  match loopsFrom x (ownLoops q) [] q.loops with
  | (l, some y) => (l, y)
  | (l, none) => (l, x + 1)

/-- The innermost loop exhausted at once, for `seq.lbrk` (R99). -/
def exhaustInner (l : List LoopEntry) : List LoopEntry :=
  match l with
  | [] => []
  | e :: rest => { e with index := e.count - 1 } :: rest

/-- The innermost open loop of R97, R99 and R100. -/
def innerLoop (q : Sequencer) : Option LoopEntry := if 0 < ownLoops q then q.loops.head? else none

/-- Whether the bundle that issues stands at the END of the innermost open loop, where R100 forbids a transfer. -/
def atLoopEnd (s : State) : Bool :=
  match innerLoop (startArch s).seq with
  | some l => decide (l.stop = (startArch s).seq.pc)
  | none => false

/-- Chooses the next bundle. -/
def chooseXfer (s : State) (x : Xfer) : State := modSeq s (fun q => { q with next := some x })

/-! Branches and jumps. -/

/-- A conditional branch through a steer register: its poison, R100, the path taint, and the transfer when taken (R94). -/
def branchOp (i : Instr) (g : Guard) (src : Src) (onSet : Bool) (s : State) : State :=
  runMovePre i g src (some cOperand) s (fun _ s =>
    match src with
    | .s k =>
      let r := readS (startArch s) k
      if steerPoison r then raise s i cPoison
      else if atLoopEnd s then raise s i cOperand
      else
        let s1 := joinPath s (steerTaint r)
        if r.cond = onSet then chooseXfer s1 (.branch r.target r.prep) else s1
    | _ => raise s i cOperand)

/-- `seq.br`: taken when COND is 1 (R94). -/
def execSeqBr (g : Guard) (src : Src) (s : State) : Out := .next (branchOp (.seqBr g src) g src true s)

/-- `seq.brn`: taken when COND is 0 (R94). -/
def execSeqBrn (g : Guard) (src : Src) (s : State) : Out := .next (branchOp (.seqBrn g src) g src false s)

/-- `seq.jmp` (R96). -/
def execSeqJmp (g : Guard) (src : Src) (s : State) : Out :=
  .next (runMovePre (.seqJmp g src) g src (if atLoopEnd s then some cOperand else none) s (fun x s =>
    let t := x.scalar
    if t.p then raise s (.seqJmp g src) cPoison
    else if 8192 ≤ t.v.toNat ∨ atLoopEnd s then raise s (.seqJmp g src) cOperand
    else chooseXfer (joinPath s t.t) (.jump (t.v.setWidth 13))))

/-- `seq.call`: the return address with the issue cycle is pushed (R95, R96). -/
def execSeqCall (g : Guard) (src : Src) (s : State) : Out :=
  .next (runMovePre (.seqCall g src) g src
    (if (startArch s).seq.pc = 8191 then some cIllegalBundle else if atLoopEnd s then some cOperand else none) s (fun x s =>
    let t := x.scalar
    let q := (startArch s).seq
    if q.pc = 8191 then raise s (.seqCall g src) cIllegalBundle
    else if t.p then raise s (.seqCall g src) cPoison
    else if 8192 ≤ t.v.toNat ∨ atLoopEnd s then raise s (.seqCall g src) cOperand
    else if 8 ≤ q.calls.length then raise s (.seqCall g src) cCallDepth
    else
      let s1 := modSeq (joinPath s t.t) (fun q =>
        { q with calls := { ret := q.pc + 1, at_ := .inCycle (startArch s).csr.cyc } :: q.calls })
      chooseXfer s1 (.jump (t.v.setWidth 13))))

/-- `seq.ret` (R96). -/
def execSeqRet (g : Guard) (src : Src) (s : State) : Out :=
  .next (runMovePre (.seqRet g src) g src (if atLoopEnd s then some cOperand else none) s (fun _ s =>
    if atLoopEnd s then raise s (.seqRet g src) cOperand
    else
      match (startArch s).seq.calls with
      | [] => raise s (.seqRet g src) cCallDepth
      | e :: rest => chooseXfer (modSeq s (fun q => { q with calls := rest })) (.ret e.ret e.at_)))

/-- The faults of `seq.loop` that do not hang on its trigger value: the poison of `seq.lo`, its upper half, R100. -/
def loopEarly (s : State) : Option Nat :=
  let n := getOpS (arch s) .seqLo
  if n.p then some cPoison else if 4294967296 ≤ n.v.toNat ∨ atLoopEnd s then some cOperand else none

/-- `seq.loop`: the checks of R97 in their order, then the loop is opened, or for a count of 0 the next bundle chosen as after
bundle E. -/
def execSeqLoop (g : Guard) (src : Src) (s : State) : Out :=
  .next (runMovePre (.seqLoop g src) g src (loopEarly s) s (fun x s =>
    let t := x.scalar
    let n := getOpS (arch s) .seqLo
    let q := (startArch s).seq
    let e := t.v.toNat
    let above : Bool := match innerLoop q with | some l => decide (l.stop.toNat < e) | none => false
    if t.p || n.p then raise s (.seqLoop g src) cPoison
    else if 4294967296 ≤ n.v.toNat ∨ 8192 ≤ e ∨ atLoopEnd s ∨ e < q.pc.toNat + 1 ∨ above then
      raise s (.seqLoop g src) cOperand
    else if 6 ≤ q.loops.length then raise s (.seqLoop g src) cLoopDepth
    else
      let s1 := joinPath s (n.t ||| t.t)
      if n.v = 0 then
        let (l, y) := nextAfter q e
        if 8192 ≤ y then raise s (.seqLoop g src) cIllegalBundle
        else chooseXfer (modSeq s1 (fun q => { q with loops := l })) (.looped y)
      else
        let entry : LoopEntry := { start := q.pc + 1, stop := t.v.setWidth 13, count := n.v.setWidth 32, index := 0 }
        chooseXfer (modSeq s1 (fun q => { q with loops := entry :: q.loops })) (.opened (q.pc + 1))))

/-- `seq.lbrk`: when COND is 1 the innermost loop is exhausted and the next bundle chosen as after its END (R99). -/
def execSeqLbrk (g : Guard) (src : Src) (s : State) : Out :=
  .next (runMovePre (.seqLbrk g src) g src (some cOperand) s (fun _ s =>
    match src with
    | .s k =>
      let r := readS (startArch s) k
      let q := (startArch s).seq
      if steerPoison r then raise s (.seqLbrk g src) cPoison
      else
        match innerLoop q with
        | none => raise s (.seqLbrk g src) cOperand
        | some e =>
          let s1 := joinPath s (steerTaint r)
          if r.cond then
            let (l, y) := nextAfter { q with loops := exhaustInner q.loops } e.stop.toNat
            chooseXfer (modSeq s1 (fun q => { q with loops := l })) (.looped y)
          else s1
    | _ => raise s (.seqLbrk g src) cOperand))

/-! Exit, user traps, events, return. -/

/-- `seq.exit`: a commit event; the task completes after the bundle's empty cycles (R101, R225). -/
def execSeqExit (g : Guard) (src : Src) (s : State) : Out :=
  .next (runMove (.seqExit g src) g src s (fun x s =>
    let t := x.scalar
    if t.p then raise s (.seqExit g src) cPoison
    else modSeq (commitEvent s) (fun q => { q with exiting := some (t.v.setWidth 16) })))

/-- `seq.trap`: the trap is taken at the bundle's boundary (R102); inside a handler it ends the task (R305). -/
def execSeqTrap (g : Guard) (src : Src) (s : State) : Out :=
  .next (runMove (.seqTrap g src) g src s (fun x s =>
    let t := x.scalar
    if t.p then raise s (.seqTrap g src) cPoison
    else if inHandler (startArch s) then raise s (.seqTrap g src) cDoubleTrap
    else modSeq s (fun q => { q with trapping := some (t.v.setWidth 8) })))

/-- `seq.wfe`: a wait for an event of the mask (R104). -/
def execSeqWfe (g : Guard) (src : Src) (s : State) : Out :=
  .next (runMove (.seqWfe g src) g src s (fun x s =>
    let t := x.scalar
    if t.p then raise s (.seqWfe g src) cPoison
    else if (t.v.setWidth 16 : BitVec 16) = 0 then raise s (.seqWfe g src) cOperand
    else setWait s (.wfe (t.v.setWidth 16))))

/-- `seq.sev`: EVENTS latch in the named cores of the quad in the second period after this one (R103). -/
def execSeqSev (g : Guard) (src : Src) (s : State) : Out :=
  .next (runMove (.seqSev g src) g src s (fun x s =>
    let t := x.scalar
    if t.p then raise s (.seqSev g src) cPoison
    else
      let q := quadOf s.cur
      let cores := (range' 0 4).filter (fun c => t.v.getLsbD (16 + c))
      let due := cores.map (fun c => { at_ := s.now + 2, core := 4 * q + c, events := t.v.setWidth 16 : SevLatch })
      openWindow (modQuad s q (fun x => { x with latches := x.latches ++ due })) s.cur 5))

/-- Whether `seq.reti` may return: in a handler, with the depths recorded at entry, not at the END of a loop (R100, R105). -/
def retiOk (s : State) : Bool :=
  match (startArch s).seq.handler with
  | none => false
  | some (l, c) =>
    decide ((startArch s).seq.loops.length = l ∧ (startArch s).seq.calls.length = c) && !atLoopEnd s

/-- `seq.reti`: return from the user-level handler (R105, R306). -/
def execSeqReti (g : Guard) (src : Src) (s : State) : Out :=
  .next (runMovePre (.seqReti g src) g src (if retiOk s then none else some cOperand) s (fun _ s =>
    if retiOk s then chooseXfer s (.reti (startArch s).csr.uepc) else raise s (.seqReti g src) cOperand))

/-! Control registers (R82, R83). -/

/-- The value of a control register as it stands at the start of the issue cycle; none for an unassigned number. -/
def csrRead (s : State) (n : Nat) : Option Word :=
  let a := startArch s
  let w (x : Nat) : Option Word := some (BitVec.ofNat 64 x)
  match n with
  | 0x000 => w a.csr.cyc
  | 0x001 => w a.csr.frzMem
  | 0x002 => w a.csr.frzPwr
  | 0x003 => w a.csr.frzBr
  | 0x004 => w a.csr.frzWait
  | 0x010 => w s.cur
  | 0x011 => w (quadOf s.cur)
  | 0x012 => w (dieOf s.cur)
  | 0x013 => w s.edge.pkgid
  | 0x014 => w s.edge.podid
  | 0x020 => w a.csr.uiv.toNat
  | 0x021 => some a.csr.ucause
  | 0x022 => w a.csr.uepc.toNat
  | 0x023 => some a.csr.uinfo
  | 0x024 => some (boolWord a.csr.uie)
  | 0x030 => some (boolWord a.csr.sbchk)
  | 0x031 => w a.csr.acchw.toNat
  | 0x032 => w a.order.tcol.val
  | 0x040 => w a.csr.ctx.toNat
  | 0x041 => w a.csr.world
  | 0x042 => w a.csr.prio.toNat
  | 0x050 => some (ckstatWord (startJournal s) a.order.sbuf.length)
  | _ => none

/-- `seq.csrr` (R83, R106): empty taint, no poison. -/
def execSeqCsrr (g : Guard) (src : Src) (s : State) : Out :=
  .next (runMove (.seqCsrr g src) g src s (fun x s =>
    match csrRead s (natField x.scalar.v.toNat 0 12) with
    | none => raise s (.seqCsrr g src) cOperand
    | some w => deliverS s .seqR 2 (cleanW w)))

/-- Writes a control register; none when the number is unassigned or read-only or the value out of range (R83). -/
def csrWrite (c : Csrs) (n : Nat) (w : Word) : Option Csrs :=
  match n with
  | 0x020 => if w.toNat < 8192 then some { c with uiv := w.setWidth 13 } else none
  | 0x022 => if w.toNat < 8192 then some { c with uepc := w.setWidth 13 } else none
  | 0x024 => some { c with uie := w.getLsbD 0 }
  | 0x030 => some { c with sbchk := w.getLsbD 0 }
  | 0x031 => if w.toNat ≤ 12288 then some { c with acchw := w.setWidth 14 } else none
  | _ => none

/-- The faults of `seq.csrw` that do not hang on its trigger value: the poison of `seq.csel`, a register that cannot be written. -/
def csrwEarly (s : State) : Option Nat :=
  let n := getOpS (arch s) .seqCsel
  if n.p then some cPoison else if (csrWrite (arch s).csr (natField n.v.toNat 0 12) 0).isNone then some cOperand else none

/-- `seq.csrw`: the control register named in `seq.csel` takes the trigger value (R83, R106). -/
def execSeqCsrw (g : Guard) (src : Src) (s : State) : Out :=
  .next (runMovePre (.seqCsrw g src) g src (csrwEarly s) s (fun x s =>
    let t := x.scalar
    let n := getOpS (arch s) .seqCsel
    if t.p || n.p then raise s (.seqCsrw g src) cPoison
    else
      match csrWrite (arch s).csr (natField n.v.toNat 0 12) t.v with
      | none => raise s (.seqCsrw g src) cOperand
      | some c => modCsr s (fun _ => c)))

/-- `seq.yield`: the member's yield flag (R107). -/
def execSeqYield (g : Guard) (src : Src) (s : State) : Out :=
  .next (runMove (.seqYield g src) g src s (fun _ s => modSeq s (fun q => { q with yielded := true })))

end Sys2Proof.Machine
end

