-- ==== Sys2Proof/Machine/SteerOps.lean ====
section
/-! DEFINITION. The steer compares and `prep` (R74, R91 to R93). -/

namespace Sys2Proof.Machine

/-- A steer compare: COND written with the taint and poison of both operands, TARGET untouched (R92). -/
def steerCompare (i : Instr) (g : Guard) (src : Src) (k : Fin 12) (f : Word → Word → Bool) (s : State) : State :=
  runMove i g src s (fun x s =>
    let o := getOpS (arch s) .cmpO
    let t := x.scalar
    modArch s (fun a => writeS a k { readS a k with cond := f o.v t.v, ct := o.t ||| t.t, cp := o.p || t.p }))

/-- `sK.eq`: COND becomes 1 when o = t (R92). -/
def execSkEq (g : Guard) (src : Src) (k : Fin 12) (s : State) : Out :=
  .next (steerCompare (.skEq g src k) g src k condEq s)

/-- `sK.ne`: COND becomes 1 when o is not t (R92). -/
def execSkNe (g : Guard) (src : Src) (k : Fin 12) (s : State) : Out :=
  .next (steerCompare (.skNe g src k) g src k condNe s)

/-- `sK.lt`: COND becomes 1 when sgn(o) < sgn(t) (R92). -/
def execSkLt (g : Guard) (src : Src) (k : Fin 12) (s : State) : Out :=
  .next (steerCompare (.skLt g src k) g src k condLt s)

/-- `sK.ge`: COND becomes 1 when sgn(o) >= sgn(t) (R92). -/
def execSkGe (g : Guard) (src : Src) (k : Fin 12) (s : State) : Out :=
  .next (steerCompare (.skGe g src k) g src k condGe s)

/-- `sK.ltu`: COND becomes 1 when uns(o) < uns(t) (R92). -/
def execSkLtu (g : Guard) (src : Src) (k : Fin 12) (s : State) : Out :=
  .next (steerCompare (.skLtu g src k) g src k condLtu s)

/-- `sK.geu`: COND becomes 1 when uns(o) >= uns(t) (R92). -/
def execSkGeu (g : Guard) (src : Src) (k : Fin 12) (s : State) : Out :=
  .next (steerCompare (.skGeu g src k) g src k condGeu s)

/-- `sK.tst`: COND becomes 1 when (o AND t) is not 0 (R92). -/
def execSkTst (g : Guard) (src : Src) (k : Fin 12) (s : State) : Out :=
  .next (steerCompare (.skTst g src k) g src k condTst s)

/-- `sK.tstn`: COND becomes 1 when (o AND t) = 0 (R92). -/
def execSkTstn (g : Guard) (src : Src) (k : Fin 12) (s : State) : Out :=
  .next (steerCompare (.skTstn g src k) g src k condTstn s)

/-- `sK.prep`: TARGET takes t[12:0] with t's taint and poison, the issue cycle is the preparation cycle (R93). -/
def execSkPrep (g : Guard) (src : Src) (k : Fin 12) (s : State) : Out :=
  .next (runMove (.skPrep g src k) g src s (fun x s =>
    let t := x.scalar
    if t.p then raise s (.skPrep g src k) cPoison
    else if 8192 ≤ t.v.toNat then raise s (.skPrep g src k) cOperand
    else modArch s (fun a =>
      writeS a k { readS a k with target := t.v.setWidth 13, tt := t.t, tp := t.p, prep := .inCycle a.csr.cyc })))

end Sys2Proof.Machine
end

