-- ==== Sys2Proof/Machine/Dispatch.lean ====
section
/-! DEFINITION. The meaning of every instruction: one arm per row of the opcode table. -/

namespace Sys2Proof.Machine

def exec (i : Instr) (s : State) : Host.Outcome State Fault Refusal :=
  match i with
  | .mov g src dst => Sys2Proof.Machine.execMov g src dst s
  | .maskedVectorWrite src dst => Sys2Proof.Machine.execMaskedVectorWrite src dst s
  | .saAdd g src sb => Sys2Proof.Machine.execSaAdd g src sb s
  | .saSub g src sb => Sys2Proof.Machine.execSaSub g src sb s
  | .saAnd g src sb => Sys2Proof.Machine.execSaAnd g src sb s
  | .saOr g src sb => Sys2Proof.Machine.execSaOr g src sb s
  | .saXor g src sb => Sys2Proof.Machine.execSaXor g src sb s
  | .saAndn g src sb => Sys2Proof.Machine.execSaAndn g src sb s
  | .saShl g src sb => Sys2Proof.Machine.execSaShl g src sb s
  | .saShr g src sb => Sys2Proof.Machine.execSaShr g src sb s
  | .saSar g src sb => Sys2Proof.Machine.execSaSar g src sb s
  | .saMin g src sb => Sys2Proof.Machine.execSaMin g src sb s
  | .saMax g src sb => Sys2Proof.Machine.execSaMax g src sb s
  | .saMinu g src sb => Sys2Proof.Machine.execSaMinu g src sb s
  | .saMaxu g src sb => Sys2Proof.Machine.execSaMaxu g src sb s
  | .saMul g src sb => Sys2Proof.Machine.execSaMul g src sb s
  | .saMulh g src sb => Sys2Proof.Machine.execSaMulh g src sb s
  | .saMulhu g src sb => Sys2Proof.Machine.execSaMulhu g src sb s
  | .saClz g src sb => Sys2Proof.Machine.execSaClz g src sb s
  | .saCtz g src sb => Sys2Proof.Machine.execSaCtz g src sb s
  | .saPopc g src sb => Sys2Proof.Machine.execSaPopc g src sb s
  | .saSext g src sb => Sys2Proof.Machine.execSaSext g src sb s
  | .saZext g src sb => Sys2Proof.Machine.execSaZext g src sb s
  | .saBfx g src sb => Sys2Proof.Machine.execSaBfx g src sb s
  | .skEq g src k => Sys2Proof.Machine.execSkEq g src k s
  | .skNe g src k => Sys2Proof.Machine.execSkNe g src k s
  | .skLt g src k => Sys2Proof.Machine.execSkLt g src k s
  | .skGe g src k => Sys2Proof.Machine.execSkGe g src k s
  | .skLtu g src k => Sys2Proof.Machine.execSkLtu g src k s
  | .skGeu g src k => Sys2Proof.Machine.execSkGeu g src k s
  | .skTst g src k => Sys2Proof.Machine.execSkTst g src k s
  | .skTstn g src k => Sys2Proof.Machine.execSkTstn g src k s
  | .skPrep g src k => Sys2Proof.Machine.execSkPrep g src k s
  | .seqBr g src => Sys2Proof.Machine.execSeqBr g src s
  | .seqBrn g src => Sys2Proof.Machine.execSeqBrn g src s
  | .seqJmp g src => Sys2Proof.Machine.execSeqJmp g src s
  | .seqCall g src => Sys2Proof.Machine.execSeqCall g src s
  | .seqRet g src => Sys2Proof.Machine.execSeqRet g src s
  | .seqLoop g src => Sys2Proof.Machine.execSeqLoop g src s
  | .seqLbrk g src => Sys2Proof.Machine.execSeqLbrk g src s
  | .seqExit g src => Sys2Proof.Machine.execSeqExit g src s
  | .seqTrap g src => Sys2Proof.Machine.execSeqTrap g src s
  | .seqWfe g src => Sys2Proof.Machine.execSeqWfe g src s
  | .seqSev g src => Sys2Proof.Machine.execSeqSev g src s
  | .seqReti g src => Sys2Proof.Machine.execSeqReti g src s
  | .seqCsrr g src => Sys2Proof.Machine.execSeqCsrr g src s
  | .seqCsrw g src => Sys2Proof.Machine.execSeqCsrw g src s
  | .seqYield g src => Sys2Proof.Machine.execSeqYield g src s
  | .checkpoint c => Sys2Proof.Machine.execCheckpoint c s
  | .vuAddF g src => Sys2Proof.Machine.execVuAddF g src s
  | .vuSubF g src => Sys2Proof.Machine.execVuSubF g src s
  | .vuMulF g src => Sys2Proof.Machine.execVuMulF g src s
  | .vuFmaF g src => Sys2Proof.Machine.execVuFmaF g src s
  | .vuFmsF g src => Sys2Proof.Machine.execVuFmsF g src s
  | .vuMaxF g src => Sys2Proof.Machine.execVuMaxF g src s
  | .vuMinF g src => Sys2Proof.Machine.execVuMinF g src s
  | .vuAbsF g src => Sys2Proof.Machine.execVuAbsF g src s
  | .vuCmpeqF g src => Sys2Proof.Machine.execVuCmpeqF g src s
  | .vuCmpltF g src => Sys2Proof.Machine.execVuCmpltF g src s
  | .vuCmpleF g src => Sys2Proof.Machine.execVuCmpleF g src s
  | .vuAddI g src => Sys2Proof.Machine.execVuAddI g src s
  | .vuSubI g src => Sys2Proof.Machine.execVuSubI g src s
  | .vuMulI g src => Sys2Proof.Machine.execVuMulI g src s
  | .vuMaxI g src => Sys2Proof.Machine.execVuMaxI g src s
  | .vuMinI g src => Sys2Proof.Machine.execVuMinI g src s
  | .vuMaxuI g src => Sys2Proof.Machine.execVuMaxuI g src s
  | .vuMinuI g src => Sys2Proof.Machine.execVuMinuI g src s
  | .vuAnd g src => Sys2Proof.Machine.execVuAnd g src s
  | .vuOr g src => Sys2Proof.Machine.execVuOr g src s
  | .vuXor g src => Sys2Proof.Machine.execVuXor g src s
  | .vuShl g src => Sys2Proof.Machine.execVuShl g src s
  | .vuShr g src => Sys2Proof.Machine.execVuShr g src s
  | .vuSar g src => Sys2Proof.Machine.execVuSar g src s
  | .vuCmpeqI g src => Sys2Proof.Machine.execVuCmpeqI g src s
  | .vuCmpltI g src => Sys2Proof.Machine.execVuCmpltI g src s
  | .vuCmpltuI g src => Sys2Proof.Machine.execVuCmpltuI g src s
  | .vuDot4 g src => Sys2Proof.Machine.execVuDot4 g src s
  | .vuExp2 g src => Sys2Proof.Machine.execVuExp2 g src s
  | .vuRcp g src => Sys2Proof.Machine.execVuRcp g src s
  | .vuRsqrt g src => Sys2Proof.Machine.execVuRsqrt g src s
  | .vuRedaddF g src => Sys2Proof.Machine.execVuRedaddF g src s
  | .vuRedmaxF g src => Sys2Proof.Machine.execVuRedmaxF g src s
  | .vuRedaddI g src => Sys2Proof.Machine.execVuRedaddI g src s
  | .vuRedmaxI g src => Sys2Proof.Machine.execVuRedmaxI g src s
  | .vuRedminI g src => Sys2Proof.Machine.execVuRedminI g src s
  | .vuScanI g src => Sys2Proof.Machine.execVuScanI g src s
  | .vuPerm g src => Sys2Proof.Machine.execVuPerm g src s
  | .vuRot g src => Sys2Proof.Machine.execVuRot g src s
  | .vuBcast g src => Sys2Proof.Machine.execVuBcast g src s
  | .vuSel g src => Sys2Proof.Machine.execVuSel g src s
  | .vuCompress g src => Sys2Proof.Machine.execVuCompress g src s
  | .vuExpand g src => Sys2Proof.Machine.execVuExpand g src s
  | .vuIota g src => Sys2Proof.Machine.execVuIota g src s
  | .vuCvtFI g src => Sys2Proof.Machine.execVuCvtFI g src s
  | .vuCvtIF g src => Sys2Proof.Machine.execVuCvtIF g src s
  | .vuCvtIFZ g src => Sys2Proof.Machine.execVuCvtIFZ g src s
  | .vuInsE40 g src => Sys2Proof.Machine.execVuInsE40 g src s
  | .vuInsE41 g src => Sys2Proof.Machine.execVuInsE41 g src s
  | .vuInsE42 g src => Sys2Proof.Machine.execVuInsE42 g src s
  | .vuInsE43 g src => Sys2Proof.Machine.execVuInsE43 g src s
  | .vuInsQ80 g src => Sys2Proof.Machine.execVuInsQ80 g src s
  | .vuInsQ81 g src => Sys2Proof.Machine.execVuInsQ81 g src s
  | .vuInsQ82 g src => Sys2Proof.Machine.execVuInsQ82 g src s
  | .vuInsQ83 g src => Sys2Proof.Machine.execVuInsQ83 g src s
  | .vuInsQ4x0 g src => Sys2Proof.Machine.execVuInsQ4x0 g src s
  | .vuInsQ4x1 g src => Sys2Proof.Machine.execVuInsQ4x1 g src s
  | .vuInsQ4x2 g src => Sys2Proof.Machine.execVuInsQ4x2 g src s
  | .vuInsQ4x3 g src => Sys2Proof.Machine.execVuInsQ4x3 g src s
  | .vuInsH0 g src => Sys2Proof.Machine.execVuInsH0 g src s
  | .vuInsH1 g src => Sys2Proof.Machine.execVuInsH1 g src s
  | .vuExtE40 g src => Sys2Proof.Machine.execVuExtE40 g src s
  | .vuExtE41 g src => Sys2Proof.Machine.execVuExtE41 g src s
  | .vuExtE42 g src => Sys2Proof.Machine.execVuExtE42 g src s
  | .vuExtE43 g src => Sys2Proof.Machine.execVuExtE43 g src s
  | .vuExtQ80 g src => Sys2Proof.Machine.execVuExtQ80 g src s
  | .vuExtQ81 g src => Sys2Proof.Machine.execVuExtQ81 g src s
  | .vuExtQ82 g src => Sys2Proof.Machine.execVuExtQ82 g src s
  | .vuExtQ83 g src => Sys2Proof.Machine.execVuExtQ83 g src s
  | .vuExtQ4x0 g src => Sys2Proof.Machine.execVuExtQ4x0 g src s
  | .vuExtQ4x1 g src => Sys2Proof.Machine.execVuExtQ4x1 g src s
  | .vuExtQ4x2 g src => Sys2Proof.Machine.execVuExtQ4x2 g src s
  | .vuExtQ4x3 g src => Sys2Proof.Machine.execVuExtQ4x3 g src s
  | .vuExtQ4x4 g src => Sys2Proof.Machine.execVuExtQ4x4 g src s
  | .vuExtQ4x5 g src => Sys2Proof.Machine.execVuExtQ4x5 g src s
  | .vuExtQ4x6 g src => Sys2Proof.Machine.execVuExtQ4x6 g src s
  | .vuExtQ4x7 g src => Sys2Proof.Machine.execVuExtQ4x7 g src s
  | .vuExtH0 g src => Sys2Proof.Machine.execVuExtH0 g src s
  | .vuExtH1 g src => Sys2Proof.Machine.execVuExtH1 g src s
  | .vuSpush g src => Sys2Proof.Machine.execVuSpush g src s
  | .vuSpop g src => Sys2Proof.Machine.execVuSpop g src s
  | .anvLdw g src => Sys2Proof.Machine.execAnvLdw g src s
  | .anvSwap g src => Sys2Proof.Machine.execAnvSwap g src s
  | .anvRun g src => Sys2Proof.Machine.execAnvRun g src s
  | .anvRunz g src => Sys2Proof.Machine.execAnvRunz g src s
  | .anvRunv g src => Sys2Proof.Machine.execAnvRunv g src s
  | .anvMpb g src => Sys2Proof.Machine.execAnvMpb g src s
  | .anvRd g src => Sys2Proof.Machine.execAnvRd g src s
  | .anvWr g src => Sys2Proof.Machine.execAnvWr g src s
  | .anvClr g src => Sys2Proof.Machine.execAnvClr g src s
  | .anvProg g src => Sys2Proof.Machine.execAnvProg g src s
  | .anvilOperationStart c => Sys2Proof.Machine.execAnvilOperationStart c s
  | .engCopy g src => Sys2Proof.Machine.execEngCopy g src s
  | .engCopyMc g src => Sys2Proof.Machine.execEngCopyMc g src s
  | .engSmap g src => Sys2Proof.Machine.execEngSmap g src s
  | .engSinv g src => Sys2Proof.Machine.execEngSinv g src s
  | .engSwb g src => Sys2Proof.Machine.execEngSwb g src s
  | .engGather g src => Sys2Proof.Machine.execEngGather g src s
  | .engScatter g src => Sys2Proof.Machine.execEngScatter g src s
  | .engTopk g src => Sys2Proof.Machine.execEngTopk g src s
  | .engSgemv g src => Sys2Proof.Machine.execEngSgemv g src s
  | .engSattn g src => Sys2Proof.Machine.execEngSattn g src s
  | .engSred g src => Sys2Proof.Machine.execEngSred g src s
  | .engCallred g src => Sys2Proof.Machine.execEngCallred g src s
  | .engCbcast g src => Sys2Proof.Machine.execEngCbcast g src s
  | .engCreduce g src => Sys2Proof.Machine.execEngCreduce g src s
  | .engKvapp g src => Sys2Proof.Machine.execEngKvapp g src s
  | .engKvcomp g src => Sys2Proof.Machine.execEngKvcomp g src s
  | .engPxlook g src => Sys2Proof.Machine.execEngPxlook g src s
  | .engPxins g src => Sys2Proof.Machine.execEngPxins g src s
  | .engPxrel g src => Sys2Proof.Machine.execEngPxrel g src s
  | .engQfence g src => Sys2Proof.Machine.execEngQfence g src s
  | .engQwait g src => Sys2Proof.Machine.execEngQwait g src s
  | .engQpoll g src => Sys2Proof.Machine.execEngQpoll g src s
  | .engineCommandStart c q => Sys2Proof.Machine.execEngineCommandStart c q s
  | .engineCommandCompletion c q => Sys2Proof.Machine.execEngineCommandCompletion c q s
  | .engineCompletionEvent c => Sys2Proof.Machine.execEngineCompletionEvent c s
  | .xlHk g src k => Sys2Proof.Machine.execXlHk g src k s
  | .xlDrop g src => Sys2Proof.Machine.execXlDrop g src s
  | .tntClr g src => Sys2Proof.Machine.execTntClr g src s
  | .tntJoin g src => Sys2Proof.Machine.execTntJoin g src s
  | .tntPclr g src => Sys2Proof.Machine.execTntPclr g src s
  | .tntNext g src => Sys2Proof.Machine.execTntNext g src s
  | .tntOf g src => Sys2Proof.Machine.execTntOf g src s
  | .barArrive g src => Sys2Proof.Machine.execBarArrive g src s
  | .barWait g src => Sys2Proof.Machine.execBarWait g src s
  | .barSync g src => Sys2Proof.Machine.execBarSync g src s
  | .barDrain g src => Sys2Proof.Machine.execBarDrain g src s
  | .ldnB g a u o => Sys2Proof.Machine.execLdnB g a u o s
  | .ldnH g a u o => Sys2Proof.Machine.execLdnH g a u o s
  | .ldnW g a u o => Sys2Proof.Machine.execLdnW g a u o s
  | .ldnD g a u o => Sys2Proof.Machine.execLdnD g a u o s
  | .ldnV g a u o => Sys2Proof.Machine.execLdnV g a u o s
  | .ldnT g a u o => Sys2Proof.Machine.execLdnT g a u o s
  | .stnB g a u o => Sys2Proof.Machine.execStnB g a u o s
  | .stnH g a u o => Sys2Proof.Machine.execStnH g a u o s
  | .stnW g a u o => Sys2Proof.Machine.execStnW g a u o s
  | .stnD g a u o => Sys2Proof.Machine.execStnD g a u o s
  | .stnV g a u o => Sys2Proof.Machine.execStnV g a u o s
  | .stnT g a u o => Sys2Proof.Machine.execStnT g a u o s
  | .ldfW g a k u l => Sys2Proof.Machine.execLdfW g a k u l s
  | .ldfD g a k u l => Sys2Proof.Machine.execLdfD g a k u l s
  | .ldfV g a k u l => Sys2Proof.Machine.execLdfV g a k u l s
  | .stfW g a k u l => Sys2Proof.Machine.execStfW g a k u l s
  | .stfD g a k u l => Sys2Proof.Machine.execStfD g a k u l s
  | .stfV g a k u l => Sys2Proof.Machine.execStfV g a k u l s
  | .atomAdd g a k c => Sys2Proof.Machine.execAtomAdd g a k c s
  | .atomAnd g a k c => Sys2Proof.Machine.execAtomAnd g a k c s
  | .atomOr g a k c => Sys2Proof.Machine.execAtomOr g a k c s
  | .atomXor g a k c => Sys2Proof.Machine.execAtomXor g a k c s
  | .atomMin g a k c => Sys2Proof.Machine.execAtomMin g a k c s
  | .atomMax g a k c => Sys2Proof.Machine.execAtomMax g a k c s
  | .atomMinu g a k c => Sys2Proof.Machine.execAtomMinu g a k c s
  | .atomMaxu g a k c => Sys2Proof.Machine.execAtomMaxu g a k c s
  | .atomXchg g a k c => Sys2Proof.Machine.execAtomXchg g a k c s
  | .atomCas g a k c => Sys2Proof.Machine.execAtomCas g a k c s
  | .aupd g a => Sys2Proof.Machine.execAupd g a s
  | .aadd g a n => Sys2Proof.Machine.execAadd g a n s
  | .pf g a k u l => Sys2Proof.Machine.execPf g a k u l s
  | .ldnGv g a u o => Sys2Proof.Machine.execLdnGv g a u o s
  | .stnSv g a u o => Sys2Proof.Machine.execStnSv g a u o s
  | .resultDelivery c => Sys2Proof.Machine.execResultDelivery c s
  | .farLoadPerform c ident => Sys2Proof.Machine.execFarLoadPerform c ident s
  | .farStorePerform c ident => Sys2Proof.Machine.execFarStorePerform c ident s
  | .forcedCommit c => Sys2Proof.Machine.execForcedCommit c s
  | .tcolAdvance c => Sys2Proof.Machine.execTcolAdvance c s
  | .barrierRelease x => Sys2Proof.Machine.execBarrierRelease x s
  | .freezeWatchdogExpiry c => Sys2Proof.Machine.execFreezeWatchdogExpiry c s
  | .waitWatchdogExpiry c => Sys2Proof.Machine.execWaitWatchdogExpiry c s
  | .preemptionStop c => Sys2Proof.Machine.execPreemptionStop c s
  | .preemptionTimeout c => Sys2Proof.Machine.execPreemptionTimeout c s
  | .gangResume r => Sys2Proof.Machine.execGangResume r s
  | .gangCompletion ctx => Sys2Proof.Machine.execGangCompletion ctx s
  | .placement ctx => Sys2Proof.Machine.execPlacement ctx s
  | .launchStart r => Sys2Proof.Machine.execLaunchStart r s
  | .reply ctx => Sys2Proof.Machine.execReply ctx s
  | .replyHoldExpiry port => Sys2Proof.Machine.execReplyHoldExpiry port s
  | .podTransferResend xfer => Sys2Proof.Machine.execPodTransferResend xfer s
  | .sendRingDoorbell ctx => Sys2Proof.Machine.execSendRingDoorbell ctx s
  | .sendTimeout session rid => Sys2Proof.Machine.execSendTimeout session rid s
  | .invalidateCompletion ctx r => Sys2Proof.Machine.execInvalidateCompletion ctx r s
  | .promotionComplete frame => Sys2Proof.Machine.execPromotionComplete frame s
  | .forcedKeyFlip slot root => Sys2Proof.Machine.execForcedKeyFlip slot root s
  | .droopRecovery die => Sys2Proof.Machine.execDroopRecovery die s
  | .bucketWindowStart die => Sys2Proof.Machine.execBucketWindowStart die s
  | .requestAgeing ctx => Sys2Proof.Machine.execRequestAgeing ctx s
  | .quadPowerGate quad => Sys2Proof.Machine.execQuadPowerGate quad s
  | .invoke port f => Sys2Proof.Machine.execInvoke port f s
  | .managementFrame port bytes => Sys2Proof.Machine.execManagementFrame port bytes s
  | .pload r => Sys2Proof.Machine.execPload r s
  | .pstore r => Sys2Proof.Machine.execPstore r s
  | .patom r => Sys2Proof.Machine.execPatom r s
  | .preply r => Sys2Proof.Machine.execPreply r s
  | .pcoll r => Sys2Proof.Machine.execPcoll r s
  | .sentInvokeReply f => Sys2Proof.Machine.execSentInvokeReply f s
  | .microContextWrite fn ide ctx off len val => Sys2Proof.Machine.execMicroContextWrite fn ide ctx off len val s
  | .podGroupWrite group members channels => Sys2Proof.Machine.execPodGroupWrite group members channels s
  | .sessionInstall fn ide session world role key => Sys2Proof.Machine.execSessionInstall fn ide session world role key s
  | .segmentSubmission fn sub => Sys2Proof.Machine.execSegmentSubmission fn sub s
  | .assayRequest fn world segment nonce => Sys2Proof.Machine.execAssayRequest fn world segment nonce s
  | .lockInterface fn => Sys2Proof.Machine.execLockInterface fn s
  | .forceInterfaceError fn => Sys2Proof.Machine.execForceInterfaceError fn s
  | .hostRegisterWrite fn ide w => Sys2Proof.Machine.execHostRegisterWrite fn ide w s
  | .atsInvalidateRequest ctx r => Sys2Proof.Machine.execAtsInvalidateRequest ctx r s
  | .frameMigration frame newFrame => Sys2Proof.Machine.execFrameMigration frame newFrame s
  | .ladlePageFill ctx vpage frame => Sys2Proof.Machine.execLadlePageFill ctx vpage frame s
  | .rekey slot root => Sys2Proof.Machine.execRekey slot root s
  | .burnisherCheck pool page => Sys2Proof.Machine.execBurnisherCheck pool page s
  | .governorReading watts => Sys2Proof.Machine.execGovernorReading watts s
  | .droopDetection die => Sys2Proof.Machine.execDroopDetection die s
  | .detectedError c e => Sys2Proof.Machine.execDetectedError c e s
  | .flrVirtualFunction fn => Sys2Proof.Machine.execFlrVirtualFunction fn s
  | .perst => Sys2Proof.Machine.execPerst s
  | .moduleReset => Sys2Proof.Machine.execModuleReset s
  | .boot r => Sys2Proof.Machine.execBoot r s
  | .thermalTrip => Sys2Proof.Machine.execThermalTrip s
  | .linkLoss port => Sys2Proof.Machine.execLinkLoss port s
  | .linkUp port => Sys2Proof.Machine.execLinkUp port s
  | .ucieLinkFailure die => Sys2Proof.Machine.execUcieLinkFailure die s
  | .hostDma write pa bytes => Sys2Proof.Machine.execHostDma write pa bytes s
  | .atsTranslationCompletion ctx vpage leaf => Sys2Proof.Machine.execAtsTranslationCompletion ctx vpage leaf s
  | .perstNRising => Sys2Proof.Machine.execPerstNRising s
  | .telemetryAlertRead => Sys2Proof.Machine.execTelemetryAlertRead s
  | .startInterface fn => Sys2Proof.Machine.execStartInterface fn s
  | .stopInterface fn => Sys2Proof.Machine.execStopInterface fn s

end Sys2Proof.Machine
end

