-- ==== Sys2Proof/Machine/Bundle.lean ====
section
/-! DEFINITION. One bundle: fetch, decoding checks, conflicts, the four phases, the order of faults, the choice of the next
bundle and the boundary after it (R34, R35, R45 to R47, R55 to R57, R61, R95, R98, R99, R120, R303, R305, R308). -/

namespace Sys2Proof.Machine

/-- Goes on after a step that answers a next state. -/
def andThen (o : Out) (f : State → Out) : Out :=
  match o with
  | .next s => f s
  | .fault r => .fault r
  | .refused r => .refused r

/-- The filler bundle of R325: header 0x03FF, the other bits zero. -/
def fillerBundle : BitVec 256 := 0x3FF

/-- Whether the loaded schedule covers an address (R47, R325). -/
def isCovered (x : Core) (pc : Nat) : Bool := x.covered.any (fun r => decide (r.1 ≤ pc ∧ pc < r.1 + r.2))

/-- The bundle a core fetches from an address (R47). -/
def fetchBundle (x : Core) (pc : Nat) : BitVec 256 := if isCovered x pc then alGet 0 x.imem pc else fillerBundle

/-! Decoding checks (R55 `check_decode`). -/

/-- The decoding faults of a slot. -/
def slotFaults (k : Nat) (d : SlotDec) : List SlotFault :=
  match d with
  | .empty => []
  | .bad cause port hreg => [{ rank := rankOfCause cause, slot := k, cause := cause, uinfo := faultInfo hreg k port 0 }]
  | .op i =>
    match encodingFault i with
    | some cause =>
      [{ rank := rankOfCause cause, slot := k, cause := cause, uinfo := faultInfo (hregDetail i) k (portDetail i) 0 }]
    | none => []

/-- The decoded slots of a bundle. -/
def bundleSlots (b : BitVec 256) : List (Nat × SlotDec) := (range' 0 8).map (fun k => (k, decodeSlot k (bundleSlot b k)))

/-- The decoding faults of a bundle. -/
def decodeFaults (b : BitVec 256) : List SlotFault :=
  (if headerOk b then [] else [{ rank := 1, slot := 0, cause := cIllegalBundle, uinfo := 0 }]) ++
    (bundleSlots b).flatMap (fun e => slotFaults e.1 e.2)

/-- The guard of an instruction's word. -/
def guardOf (i : Instr) : Nat := guardField (encFields i)

/-- Whether a guard holds: its steer register's condition at the start of the bundle (R49, R55). -/
def guardLive (a : CoreArch) (g : Nat) : Bool :=
  match decodeGuard g with
  | .steer k => (readS a k).cond
  | _ => true

/-- Whether a slot is live (R55). -/
def isLiveSlot (a : CoreArch) (i : Instr) : Bool := guardLive a (guardOf i)

/-- The fields of the slots of a bundle that are not empty, legal or not. -/
def bundleFields (b : BitVec 256) : List (Nat × SlotEnc) :=
  ((range' 0 8).map (fun k => (k, slotFields k (bundleSlot b k)))).filter (fun e => decide (guardField e.2 ≠ 15))

/-- The live, well-formed slots of a bundle. -/
def liveSlots (a : CoreArch) (b : BitVec 256) : List (Nat × Instr) :=
  (bundleSlots b).filterMap (fun e =>
    match e.2 with
    | .op i => if wellFormed i && isLiveSlot a i then some (e.1, i) else none
    | _ => none)

/-- The poison of the steer registers that guards name, live or not (R49). -/
def guardFaults (a : CoreArch) (b : BitVec 256) : List SlotFault :=
  (bundleFields b).flatMap (fun e =>
    match decodeGuard (guardField e.2) with
    | .steer k =>
      if steerPoison (readS a k) then
        [{ rank := 4, slot := e.1, cause := cPoison, uinfo := faultInfo (hregField e.2) e.1 (portField e.2) 0 }]
      else []
    | _ => [])

/-! Conflicts (R56). -/

/-- The unit of a trigger port, by destination code. -/
def unitOfCode (d : Nat) : Option Nat :=
  if d < 0x81 then none
  else if d < 0x97 then some 1
  else if d < 0xA1 then none
  else if d < 0xB7 then some 2
  else if d < 0x100 then none
  else if d < 0x160 then some (100 + (d - 0x100) / 8)
  else if d < 0x16C then some (100 + (d - 0x160))
  else if d < 0x17D then (if d = 0x171 ∨ d = 0x179 then none else some 3)
  else if d < 0x188 then none
  else if d < 0x1D9 then some 4
  else if d < 0x210 then none
  else if d < 0x21A then some 5
  else if d < 0x250 then none
  else if d < 0x266 then some 6
  else if d < 0x280 then none
  else if d < 0x291 then some 7
  else if d < 0x2A1 then none
  else if d < 0x2A6 then some 8
  else if d < 0x2B0 then none
  else if d < 0x2B4 then some 9
  else none

/-- The address register an address slot updates (R56). -/
def updatesA (i : SlotEnc) : Option Nat :=
  match i with
  | .addr _ aop a _ imm => if aop = 19 ∨ aop = 20 ∨ (aop ≠ 18 ∧ imm.testBit 6) then some a else none
  | _ => none

/-- Whether the fields of two live slots conflict (R56). -/
def fieldsConflict (i j : SlotEnc) : Bool :=
  match i, j with
  | .move _ _ d, .move _ _ e => decide (d = e) || ((unitOfCode d).isSome && decide (unitOfCode d = unitOfCode e))
  | .move _ _ d, .addr _ _ _ _ _ =>
    match updatesA j with
    | some a => decide (d = 0x50 + a ∨ d = 0x60 + a)
    | none => false
  | .addr _ _ _ _ _, .addr _ _ _ _ _ => (updatesA i).isSome && decide (updatesA i = updatesA j)
  | _, _ => false

/-- Whether two live instructions conflict (R56). -/
def slotsConflict (i j : Instr) : Bool := fieldsConflict (encFields i) (encFields j)

/-- The conflict faults among live slots, each at the lower slot of a pair. -/
def fieldConflicts : List (Nat × SlotEnc) → List SlotFault
  | [] => []
  | (k, i) :: rest =>
    (if rest.any (fun e => fieldsConflict i e.2) then
      [{ rank := 3, slot := k, cause := cConflict, uinfo := faultInfo (hregField i) k (portField i) 0 }]
     else []) ++ fieldConflicts rest

/-- The live slots of a bundle, well formed or not (R55, R56). -/
def liveFields (a : CoreArch) (b : BitVec 256) : List (Nat × SlotEnc) :=
  (bundleFields b).filter (fun e => guardLive a (guardField e.2))

/-- The conflict faults of a bundle. -/
def conflictFaults (a : CoreArch) (b : BitVec 256) : List SlotFault := fieldConflicts (liveFields a b)

/-! The next bundle (R47, R98, R99). -/

/-- COND of the steer register that a source code names; none where it names another source (R80). -/
def condOfCode (a : CoreArch) (src : Nat) : Option Bool :=
  match decodeSrc src with
  | some (.s k) => some (readS a k).cond
  | _ => none

/-- Whether a live slot, well formed or not, chooses the next bundle, for R47: `jmp`, `ret`, `exit`, `trap` or `reti`, or a taken `br` or
`brn`. -/
def slotTransfers (a : CoreArch) (e : SlotEnc) : Bool :=
  match e with
  | .move _ src d =>
    decide (d = 0x16E ∨ d = 0x170 ∨ d = 0x174 ∨ d = 0x175 ∨ d = 0x178) ||
      (decide (d = 0x16C) && decide (condOfCode a src = some true)) || (decide (d = 0x16D) && decide (condOfCode a src = some false))
  | _ => false

/-- The bundle that a live `seq.lbrk` chooses: none where its COND is 0 or no loop is its own to break (R99, R305). -/
def breaksTo (a : CoreArch) (e : SlotEnc) : Option Nat :=
  match e with
  | .move _ src d =>
    if d = 0x173 ∧ condOfCode a src = some true then
      (innerLoop a.seq).map (fun l => (nextAfter { a.seq with loops := exhaustInner a.seq.loops } l.stop.toNat).2)
    else none
  | _ => none

/-- Whether a slot is a `seq.call`. -/
def isCall (e : SlotEnc) : Bool :=
  match e with
  | .move _ _ d => decide (d = 0x16F)
  | _ => false

/-- Whether the next bundle would be 8,192, decided from the live slots and the state at the start (R47): no slot transfers, and a taken
`seq.lbrk` ends the last loops of END 8,191, or no loop continues after the bundle at 8,191. A `seq.call` at 8,191 is illegal as such
(R96). -/
def fallsOff (a : CoreArch) (live : List SlotEnc) : Bool :=
  (decide (a.seq.pc = 8191) && live.any isCall) ||
    (!live.any (slotTransfers a) &&
      match live.filterMap (breaksTo a) with
      | y :: _ => decide (8192 ≤ y)
      | [] => decide (a.seq.pc = 8191) && decide (8192 ≤ (nextAfter a.seq 8191).2))

/-! The safe-point condition (R34, R61). -/

/-- The latency of a short operation (R34, R73 to R81). -/
def shortLatency (i : Instr) : Nat :=
  match encFields i with
  | .move _ _ d =>
    if d < 0x81 then 0
    else if d < 0x97 then (if 0x8E ≤ d ∧ d ≤ 0x90 then 3 else 1)
    else if d < 0xA1 then 0
    else if d < 0xB7 then (if 0xAE ≤ d ∧ d ≤ 0xB0 then 3 else 1)
    else if d < 0x100 then 0
    else if d < 0x160 then 1
    else if d = 0x17A then 2
    else if d < 0x188 then 0
    else if d = 0x18A ∨ d = 0x195 then 3
    else if d = 0x18B ∨ d = 0x18C ∨ d = 0x1A3 then 4
    else if d < 0x1A4 then 2
    else if d < 0x1A7 then 6
    else if d < 0x1AD then 5
    else if d < 0x1B0 then 3
    else if d = 0x1B0 then 2
    else if d < 0x1B3 then 3
    else if d < 0x1D7 then 2
    else if d < 0x1D9 then 8
    else if d < 0x280 then 0
    else if d < 0x290 then 12
    else if d < 0x2A1 then 0
    else if d < 0x2A6 then 1
    else 0
  | .addr _ aop _ _ imm =>
    if aop = 4 then 8
    else if aop < 6 then 6
    else if aop = 18 then (if imm % 8 = 2 then 12 else 0)
    else if aop = 22 then 12
    else 0
  | .none => 0

/-- Triggers that are waits (R31). -/
def isWait (i : Instr) : Bool :=
  match i with
  | .barArrive _ _ | .barWait _ _ | .barSync _ _ | .barDrain _ _ | .seqWfe _ _ | .engQwait _ _ => true
  | _ => false

def isYield (i : Instr) : Bool :=
  match i with
  | .seqYield _ _ => true
  | _ => false

def isTrap (i : Instr) : Bool :=
  match i with
  | .seqTrap _ _ => true
  | _ => false

/-- The bundle's boundary is a safe point (R34, R107). -/
def boundarySafe (b : BitVec 256) (live : List (Nat × Instr)) : Bool :=
  bundleSp b || live.any (fun e => isWait e.2 || isYield e.2)

/-- The safe-point fault (R32, R34, R102, R107, R308). -/
def safeFaults (a : CoreArch) (b : BitVec 256) (live : List (Nat × Instr)) : List SlotFault :=
  if (boundarySafe b live || bundleCk b || live.any (fun e => isTrap e.2)) &&
      !(shortDone a (a.csr.cyc + bundleStall b) && live.all (fun e => decide (shortLatency e.2 ≤ bundleStall b))) then
    [{ rank := 7, slot := 0, cause := cSafePoint, uinfo := 0 }]
  else []

/-! The phases (R55, R120). -/

/-- The order in which the slots of a bundle act: moves, triggers, then loads, other address operations, atomics, stores. -/
def phaseOf (i : Instr) : Nat :=
  match encFields i with
  | .move _ _ d => if (unitOfCode d).isSome then 1 else 0
  | .addr _ aop _ _ _ =>
    if aop < 6 ∨ aop = 12 ∨ aop = 13 ∨ aop = 14 ∨ aop = 22 then 2
    else if aop = 19 ∨ aop = 20 ∨ aop = 21 then 3
    else if aop = 18 then 4
    else 5
  | .none => 6

def inOrder (live : List (Nat × Instr)) : List (Nat × Instr) :=
  (range' 0 6).flatMap (fun p => live.filter (fun e => phaseOf e.2 = p))

/-- Runs the live slots one after another. -/
def runSlots : List (Nat × Instr) → State → Out
  | [], s => .next s
  | (k, i) :: rest, s =>
    andThen (exec i { s with issue := s.issue.map (fun x => { x with slot := k }) }) (fun s' => runSlots rest s')

/-- The fault that decides (R57): lowest rank, then lowest slot. -/
def bestFault : List SlotFault → Option SlotFault
  | [] => none
  | f :: rest =>
    match bestFault rest with
    | none => some f
    | some g => if g.rank < f.rank ∨ (g.rank = f.rank ∧ g.slot < f.slot) then some g else some f

/-- The cost of a next bundle chosen by R98 (R95, last row): `y` the bundle chosen, `x` the bundle that issued. -/
def loopCost (a : CoreArch) (loops : List LoopEntry) (x y tnext : Nat) : Nat :=
  if y = x + 1 then 0
  else
    match loops with
    | l :: _ =>
      if l.start.toNat = y then (if l.stop.toNat - l.start.toNat + 1 ≤ 32 then 0 else 3)
      else jumpCost a (BitVec.ofNat 13 y) tnext
    | [] => jumpCost a (BitVec.ofNat 13 y) tnext

/-- Sets the next bundle and its cost (R61, R95): the transfer chosen in phase 4, or R98. None when the next bundle would be
8,192. DESIGN CHOICE (log 67): a `prep` of the same bundle counts for the cost of a `jmp`, `call` or `reti`; the address after
a user trap in the bundle at 8,191 wraps to 0. -/
def chooseNext (a : CoreArch) (stall : Nat) : Option CoreArch :=
  let tnext := a.csr.cyc + stall + 1
  let q := a.seq
  let goTo (a : CoreArch) (t : BAddr) (cost : Nat) : CoreArch :=
    { a with seq := { a.seq with pc := t, last := q.pc, next := none, fetchWait := cost } }
  match q.next with
  | some (.branch t p) => some (goTo a t (prepCost tnext p))
  | some (.jump t) => some (goTo a t (jumpCost a t tnext))
  | some (.reti t) => some (goTo (leaveHandler a) t (jumpCost a t tnext))
  | some (.ret t p) => some (goTo a t (prepCost tnext p))
  | some (.opened t) => some (goTo a t 0)
  | some (.looped y) => if y < 8192 then some (goTo a (BitVec.ofNat 13 y) (loopCost a q.loops q.pc.toNat y tnext)) else none
  | none =>
    let (l, y) := nextAfter q q.pc.toNat
    let a1 := { a with seq := { q with loops := l } }
    if q.exiting.isSome || q.trapping.isSome then some (goTo a1 (BitVec.ofNat 13 y) 0)
    else if y < 8192 then some (goTo a1 (BitVec.ofNat 13 y) (loopCost a1 l q.pc.toNat y tnext)) else none

/-- Completes the running core's task with an exit code: far loads and results in flight are lost, writes and atomics perform (R101). -/
def completeTask (s : State) (code : BitVec 16) : State :=
  let s1 := modCore s s.cur (fun x =>
    { x with status := .completed code, mark := none, freezeDog := 0, waitDog := 0,
             arch := { dropLoads x.arch with anv := { x.arch.anv with queue := [] }, seq := { x.arch.seq with exiting := none } } })
  match (getCore s1 s1.cur).gang with
  | some ctx => dateGang s1 ctx
  | none => s1

/-- The boundary after a bundle and its empty cycles, or at the end of a wait, of a core that goes on, in the order of R303 and R35:
checkpoint, exit, user trap, pending pre-emption, pending engine completion. A rerun that comes to an exit before its end point does
not agree with the run before it (R311). -/
def goOn (s : State) : Out :=
  let q := (arch s).seq
  andThen (if q.atCk then exec (.checkpoint s.cur) s else .next s) (fun s =>
    match q.exiting with
    | some code => .next (if (curCore s).rerun.isSome then retireCore s s.cur else completeTask s code)
    | none =>
      match q.trapping with
      | some n =>
        .next (setArch s (enterHandler (arch s) cUserTrap 0 n.toNat q.pc ((arch s).csr.cyc + 1)))
      | none =>
        if q.atSafe then
          if (curCore s).mark.isSome then exec (.preemptionStop s.cur) s
          else if (arch s).csr.uie && !inHandler (arch s) && !(arch s).order.engEvents.isEmpty then
            exec (.engineCompletionEvent s.cur) s
          else .next s
        else .next s)

/-- A boundary: a rerun that has reached its end point ends there (R311). -/
def atBoundary (s : State) : Out :=
  match endRerun s s.cur with
  | (true, s1) => goOn s1
  | (false, s1) => .next s1

/-! The records of a rerun's writes (R311; log entry 56). -/

/-- A value with its taint and poison. -/
def valBytes : Val → List Byte
  | .sc x => leBytes x.v.toNat 8 ++ leBytes x.t.toNat 2 ++ [if x.p then 1 else 0]
  | .vec x => leBytes x.v.toNat 256 ++ leBytes x.t.toNat 2 ++ [if x.p then 1 else 0]

/-- The record of a live slot's write to a register or an operand port: its destination code and the value; of an address slot that
updates its register, the register as the slot leaves it. -/
def slotRecord (s : State) (i : Instr) : Option (List Byte) :=
  match encFields i with
  | .move g src d =>
    match guardRes (startArch s) (decodeGuard g), decodeSrc src with
    | .on t, some x =>
      match readSrc s x with
      | .val v => some (leBytes d 2 ++ valBytes (v.join t))
      | .earlyScalar => some (leBytes d 2 ++ valBytes (freeVal false s.freeCtr))
      | .earlyVector => some (leBytes d 2 ++ valBytes (freeVal true s.freeCtr))
    | _, _ => none
  | .addr _ _ _ _ _ =>
    (updatesA (encFields i)).map (fun a => leBytes (0x50 + a) 2 ++ valBytes (.sc (vget (arch s).regs.a (Fin.ofNat 16 a)).val))
  | .none => none

/-- The records of a bundle's slots, when its core reruns. -/
def signSlots (s : State) (live : List (Nat × Instr)) : State :=
  if (curCore s).rerun.isNone then s
  else live.foldl (fun s e =>
    match slotRecord s e.2 with
    | some bs => signWrite s s.cur (8 * (arch s).csr.cyc + e.1) bs
    | none => s) s

/-- The end of a bundle without faults: stores released, the colour advanced, the next bundle chosen, the wait tested, the
boundary (R31, R61, R226, R229). -/
def endBundle (s : State) (b : BitVec 256) (safe : Bool) : Option Out :=
  let (commit, advance) := match s.issue with | some i => (i.commit, i.advance) | none => (false, false)
  let s1 := { s with issue := none }
  let s2 := if commit || bundleCk b then releaseStores s1 s1.cur else s1
  match chooseNext (arch s2) (bundleStall b) with
  | none => none
  | some a =>
    let s3 := setArch s2 { a with seq := { a.seq with stall := bundleStall b, entered := true, atSafe := safe, atCk := bundleCk b } }
    let s4 := if advance ∧ (arch s3).order.farCount < 64 then
        modOrder s3 (fun o => { o with tcol := o.tcol + 1, farCount := 0 }) else s3
    some (andThen (if 64 ≤ (arch s4).order.farCount then exec (.tcolAdvance s4.cur) s4 else .next s4) (fun s =>
      let s := tryEndWait s
      if (arch s).seq.wait.isNone && decide ((arch s).seq.stall = 0) then atBoundary s else .next s))

/-- What issuing a bundle comes to. -/
inductive IssueRes where
  /-- The bundle is held: a queue it needs is full, or the fills of these chunks have to come first (R29); `drain` when the queue is
  the anvil's. -/
  | held (need : List Nat) (drain : Bool)
  /-- The state after the bundle. -/
  | done (o : Out)

/-- The issue context of a bundle. -/
def issueOf (a : CoreArch) (jn : Journal) (b : BitVec 256) : Issue :=
  { start := a, startJn := jn, slot := 0, l0 := BitVec.ofNat 16 (bundleLit b 0), l1 := BitVec.ofNat 16 (bundleLit b 1),
    l2 := BitVec.ofNat 16 (bundleLit b 2), stall := bundleStall b, faults := [], written := [],
    commit := false, advance := false, hold := false, drain := false, need := [] }

/-- The hold of a bundle that has run its slots. -/
def heldBy (s : State) : Option IssueRes :=
  match s.issue with
  | some x => if x.hold then some (.held x.need x.drain) else none
  | none => none

/-! Poisoned values of slots that are not well formed (R57). -/

/-- The operation that the fields of an ill-formed slot name, with the field at fault as a well-formed slot would have it: the guard of a
masked write away, HREG of a near access and of an atomic at quad scope 0, a latency class 0, the scope of an atomic 2, an atomic
function without a meaning 0 (log 88). -/
def mendedFields : SlotEnc → SlotDec
  | .move g src d => decodeMoveFields (if g = 14 then 0 else g) src d
  | .addr g aop a h imm =>
    let r := decodeAddrFields (if g = 14 then 0 else g) aop (Fin.ofNat 16 a)
    if aop < 12 ∨ aop = 22 ∨ aop = 23 then r 0 imm
    else if aop = 18 then r 0 ((if imm / 8 < 10 then imm / 8 else 0) * 8 + 2)
    else if aop < 18 ∨ aop = 21 then r (Fin.ofNat 16 h) (if imm / 16 % 4 = 3 then imm / 64 * 64 else imm)
    else r (Fin.ofNat 16 h) imm
  | .none => .empty

/-- The poison-use faults of the live slots that raise the illegal-operand fault by their encoding: a poisoned value that the operation
uses decides ahead of it (R57). -/
def illFormedPoison (s : State) (b : BitVec 256) : List SlotFault :=
  (liveFields (arch s) b).flatMap (fun e =>
    if (slotFaults e.1 (decodeSlot e.1 (bundleSlot b e.1))).any (fun f => f.cause = cOperand) then
      match mendedFields e.2 with
      | .op i =>
        match exec i { s with issue := some { issueOf (arch s) (curCore s).jn b with slot := e.1 } } with
        | .next t =>
          if ((t.issue.map (·.faults)).getD []).any (fun f => f.cause = cPoison) then
            [{ rank := 4, slot := e.1, cause := cPoison, uinfo := faultInfo (hregField e.2) e.1 (portField e.2) 0 }]
          else []
        | _ => []
      | _ => []
    else [])

/-- Takes the deciding fault of a bundle on the state before it. -/
def takeBundleFault (s : State) (f : SlotFault) : State := takeFault s f.cause f.uinfo

/-- Issues the bundle at the running core's address, in the cycle that has begun (R55 to R57). -/
def issueBundle (s : State) : IssueRes :=
  let a := arch s
  let b := fetchBundle (curCore s) a.seq.pc.toNat
  let live := liveSlots a b
  let f0 := decodeFaults b ++ conflictFaults a b ++ guardFaults a b ++ safeFaults a b live ++
    (if fallsOff a ((liveFields a b).map (·.2)) then [{ rank := 1, slot := 0, cause := cIllegalBundle, uinfo := 0 }] else [])
  match bestFault f0 with
  | some f =>
    if f.rank ≤ 3 then .done (.next (takeBundleFault s f))
    else
      match runSlots (inOrder live) { s with issue := some (issueOf a (curCore s).jn b) } with
      | .next s2 =>
        match heldBy s2 with
        | some r => r
        | none =>
          match bestFault (f0 ++ illFormedPoison s b ++ (s2.issue.map (·.faults)).getD []) with
          | some f => .done (.next (takeBundleFault s f))
          | none => .done (.next s)
      | o => .done o
  | none =>
    match runSlots (inOrder live) { s with issue := some (issueOf a (curCore s).jn b) } with
    | .next s2 =>
      match heldBy s2 with
      | some r => r
      | none =>
        match bestFault ((s2.issue.map (·.faults)).getD []) with
        | some f => .done (.next (takeBundleFault s f))
        | none =>
          match endBundle (signSlots s2 live) b (boundarySafe b live) with
          | some o => .done o
          | none => .done (.next (takeBundleFault s { rank := 1, slot := 0, cause := cIllegalBundle, uinfo := 0 }))
    | o => .done o

end Sys2Proof.Machine
end

