-- ==== Sys2Proof/Machine/Period.lean ====
section
/-! DEFINITION. One clock period of a core and the start of a module period (R28 to R33, R35 to R37, R103, R142, R225, R294,
R295, R297). -/

namespace Sys2Proof.Machine

/-- Runs a list of steps one after another. -/
def foldOut {α : Type} (f : α → State → Out) : List α → State → Out
  | [], s => .next s
  | x :: rest, s => andThen (f x s) (foldOut f rest)

/-- Whether a gang of duty `x` sixteenths loses the period (R294). -/
def withheld (duty now : Nat) : Bool := let i := now % 16; decide ((i + 1) * duty / 16 = i * duty / 16)

/-- Reads of the most-read vector-register bank of a bundle (R124); a move whose guard is false counts. -/
def bankReads (b : BitVec 256) : Nat :=
  let srcs := (range' 0 6).filterMap (fun k =>
    let w := bundleSlot b k
    let src := w / 2 ^ 10 % 2 ^ 10
    if w / 2 ^ 20 ≠ 15 ∧ 0x20 ≤ src ∧ src < 0x40 then some (src % 8) else none)
  ((range' 0 8).map (fun n => srcs.count n)).foldl max 0

/-- Whether the droop limit holds the next bundle in this period (R295). -/
def droopHolds (s : State) : Bool :=
  let x := curCore s
  let m := bankReads (fetchBundle x x.arch.seq.pc.toNat)
  let l := (getDie s (dieOf s.cur)).limit
  decide (l < m) && decide (x.droopHeld < ceilDiv m l - 1)

/-- A handle's page has a translation now (R212). -/
def transReady (s : State) (d : HDue) : Bool :=
  d.hnd.made || pageReady s (((curCore s).gang).getD 0) d.va

/-- Whether a result due in the next cycle is not yet there (R29): a far access, a near access, a translation, an anvil read; or a
write of the core waits for a rekey (R319). -/
def lateReply (s : State) : Bool :=
  let a := arch s
  let n := a.csr.cyc + 1
  a.order.far.any (fun f => decide (f.kind ≠ .prefetch ∧ f.due ≤ n) && f.parts.any (fun p => p.done.isNone)) ||
    a.order.nearq.any (fun o => decide (o.due ≤ n)) ||
    a.order.released.any (fun x => sealWaits s x.loc) ||
    a.hdue.any (fun d => decide (d.at_ ≤ n) && !transReady s d) || anvilLate a

/-- Ticks the watchdogs of the running core (R33): `freeze` when the period is frozen for a cause other than a wait. They stand in rerun
A (R312). DESIGN CHOICE (log entry 81): when both reach their limits in one period the wait watchdog's cause is taken. -/
def tickDogs (s : State) (freeze : Bool) : Out :=
  if ((curCore s).rerun.map (fun r => r.first.isNone)).getD false then .next s
  else
    let waiting := (arch s).seq.wait.isSome
    let s1 := modCore s s.cur (fun x =>
      { x with freezeDog := if freeze then x.freezeDog + 1 else 0, waitDog := if waiting then x.waitDog + 1 else 0 })
    let x := curCore s1
    if 2 ^ 26 ≤ x.waitDog then exec (.waitWatchdogExpiry s1.cur) s1
    else if 2 ^ 20 ≤ x.freezeDog then exec (.freezeWatchdogExpiry s1.cur) s1
    else .next s1

/-- The watchdogs after a core cycle: the freeze watchdog is 0, and a wait is counted from the next period on (R33). -/
def restDogs (s : State) : Out := .next (modCore s s.cur (fun x => { x with freezeDog := 0, waitDog := 0 }))

/-- Whether the running core's next core cycle issues a bundle. -/
def atIssue (q : Sequencer) : Bool := decide (q.stall = 0) && q.wait.isNone

/-- The end of a core cycle: the forced commit and the limit of a pre-emption (R37, R225). -/
def endCycle (s : State) : Out :=
  let x := curCore s
  if x.status ≠ .bound then .next s
  else
    andThen (if 65536 ≤ x.arch.order.sinceCommit then exec (.forcedCommit s.cur) s else .next s) (fun s =>
      match (curCore s).mark with
      | some m => if 2 ^ 20 ≤ m.periods then exec (.preemptionTimeout s.cur) s else .next s
      | none => .next s)

/-- The start of a core cycle: `cyc` advances, but not before the entry bundle (R27, R28), the anvil moves on, results due are
delivered (R30). A pending pre-emption's limit stands while the core reruns (R311). -/
def beginCycle (s : State) : Out :=
  let s1 := modCore s s.cur (fun x =>
    { x with
      arch := { x.arch with csr := { x.arch.csr with cyc := if x.arch.seq.entered then x.arch.csr.cyc + 1 else x.arch.csr.cyc },
                            order := { x.arch.order with sinceCommit := x.arch.order.sinceCommit + 1 } },
      mark := if x.rerun.isSome then x.mark else x.mark.map (fun m => { m with periods := m.periods + 1 }), droopHeld := 0 })
  andThen (exec (.anvilOperationStart s1.cur) s1) (fun s => exec (.resultDelivery s.cur) s)

/-- Starts the fills that a held bundle awaits. -/
def startNeeded (s : State) (need : List Nat) : State :=
  need.foldl (fun s key =>
    match regionOf s (quadOf s.cur) (key % 65536 * 64) with
    | .mapped _ w =>
      if xferPending s 1 key then s else (startFill s s.cur (2 ^ 64 + key) none w key).2.2
    | _ => s) s

/-- A period frozen before a bundle that finds a queue full or awaits fills: the core stands as before the cycle; before its full
anvil queue the anvil runs on (R29, R147). -/
def heldPeriod (s : State) (need : List Nat) (drain : Bool) : Out :=
  let s1 := modCsr (startNeeded s need) (fun c => { c with frzMem := c.frzMem + 1 })
  tickDogs (if drain then drainAnvil s1.cur s1 else s1) true

/-- A period in which the core's clock is enabled: a core cycle, unless the bundle finds a queue full (R29, R30). -/
def coreCycle (s : State) : Out :=
  andThen (beginCycle s) (fun s1 =>
    if 0 < (arch s1).seq.stall then
      let s2 := modSeq s1 (fun q => { q with stall := q.stall - 1 })
      andThen (if (arch s2).seq.stall = 0 then atBoundary s2 else .next s2) (fun s => andThen (endCycle s) restDogs)
    else
      match issueBundle s1 with
      | .held need drain => heldPeriod s need drain
      | .done o => andThen o (fun s => andThen (endCycle s) restDogs))

/-- Whether the bundle that a fetch shortfall delays would be held in this period: `queue_full` comes before `fetch_shortfall` in
R30. -/
def heldAhead (s : State) : Option (List Nat × Bool) :=
  match beginCycle (modSeq s (fun q => { q with fetchWait := 0 })) with
  | .next s1 =>
    match issueBundle s1 with
    | .held need drain => some (need, drain)
    | .done _ => none
  | _ => none

/-- Whether a core stands for the rollback of another core of its quad (R311). -/
def heldOut (s : State) (c : Nat) : Bool :=
  match quadHold s (quadOf c) with
  | some h => decide (h ≠ c)
  | none => false

/-- What kind of period it is for a bound core, in the order of R30. The other cores of a quad held for a rollback stand as for a late
reply (R311). -/
def classify (s : State) : Out :=
  let q := (arch s).seq
  if withheld (((gangOf s s.cur).map (·.duty)).getD 16) s.now then
    tickDogs (modCsr s (fun c => { c with frzPwr := c.frzPwr + 1 })) true
  else if atIssue q && droopHolds s then
    tickDogs (modCore (modCsr s (fun c => { c with frzPwr := c.frzPwr + 1 })) s.cur (fun x => { x with droopHeld := x.droopHeld + 1 }))
      true
  else if heldOut s s.cur || lateReply s then tickDogs (modCsr s (fun c => { c with frzMem := c.frzMem + 1 })) true
  else if atIssue q && decide (0 < q.fetchWait) then
    match heldAhead s with
    | some (need, drain) => heldPeriod s need drain
    | none =>
      tickDogs (modSeq (modCsr s (fun c => { c with frzBr := c.frzBr + 1 })) (fun q => { q with fetchWait := q.fetchWait - 1 })) true
  else if q.wait.isSome then tickDogs (modCsr s (fun c => { c with frzWait := c.frzWait + 1 })) false
  else coreCycle s

/-- Goes on while the running core is bound. -/
def whileBound (o : Out) (f : State → Out) : Out := andThen o (fun s => if (curCore s).status = .bound then f s else .next s)

/-- A period inside a wait whose condition does not hold: a pending pre-emption stops the member at once (R36), but not one whose
watchdog expires in the period (R303). -/
def waitingPeriod (s : State) : Out :=
  if (curCore s).mark.isSome && (curCore s).rerun.isNone then
    match classify s with
    | .next s1 => if (curCore s1).status = .bound then exec (.preemptionStop s.cur) s else .next s1
    | o => o
  else classify s

/-- A period of a bound core: a wait ends first, when its condition holds (R31, R33), and the boundary after it comes. -/
def boundPeriod (s : State) : Out :=
  if (arch s).seq.wait.isSome then
    let s1 := tryEndWait s
    if (arch s1).seq.wait.isSome then waitingPeriod s1
    else
      let s2 := modCore s1 s1.cur (fun x => { x with waitDog := 0 })
      whileBound (if (arch s2).seq.stall = 0 then atBoundary s2 else .next s2) classify
  else classify s

/-- A period of a core that reruns (R311): a restore; or a period of the run, which counts in rerun A, ends the rollback when a bundle
would open a window, and replays the far loads it issues. -/
def rerunPeriod (s : State) (r : Rerun) : Out :=
  let c := s.cur
  if 0 < r.left then .next (restorePeriod s c r)
  else
    let s0 := if r.first.isNone then modCore s c (fun x => { x with rerun := some { r with spent := r.spent + 1 } }) else s
    andThen (boundPeriod s0) (fun t =>
      .next (if (getCore t c).rerun.isSome && (getCore t c).jn.windowOpen then retireCore s0 c else replayLoads t c))

/-- A period of a core whose rerun stands inside a wait at its end point: the rerun ends there (R311; log entry 56). -/
def rerunWait (s : State) : Out :=
  match endRerun s s.cur with
  | (true, s1) => boundPeriod s1
  | (false, s1) =>
    match (curCore s1).rerun with
    | some r => .next (restorePeriod s1 s1.cur r)
    | none => .next s1

/-- One period of a core (R30): the near accesses that wait are served at its turn (R201), then the period of its task. -/
def corePeriod (c : Nat) (s : State) : Out :=
  let s0 := { s with cur := c, issue := none }
  let s1 := if heldOut s0 c then s0 else serveNear c (getCore s0 c).arch.order.nearq.length s0
  if (curCore s1).status = .bound then
    match (curCore s1).rerun with
    | none => boundPeriod s1
    | some r => if (arch s1).seq.wait.isSome && rerunDone (curCore s1) then rerunWait s1 else rerunPeriod s1 r
  else .next s1

/-- The `seq.sev` events that latch in a period (R103). -/
def latchEvents (s : State) : State :=
  s.quads.foldl (fun s e =>
    let due := e.2.latches.filter (fun l => decide (l.at_ ≤ s.now))
    let s1 := due.foldl (fun s l =>
      if hasCompleted s l.core then s
      else modCore s l.core (fun x =>
        { x with arch := { x.arch with order := { x.arch.order with events := x.arch.order.events ||| l.events } },
                 jn := { x.jn with latched := x.jn.latched ||| l.events } })) s
    if due.isEmpty then s1
    else modQuad s1 e.1 (fun q => { q with latches := q.latches.filter (fun l => decide (s.now < l.at_)) })) s

/-- The results of a pop, delivered at their due cycle (R141). -/
def popResults (s : State) (p : Pop) (es : List (Lane × Bool)) : State :=
  let v := ofLanes (fun i => (nthD es i (0#32, false)).1)
  let r : VVal := { v := v, t := p.t, p := es.any (·.2) }
  let m : VVal := { v := wordToVec (BitVec.ofNat 64 (2 ^ es.length - 1)), t := p.t, p := false }
  modCore s p.core (fun x =>
    { x with arch := { x.arch with due := x.arch.due ++
        [{ port := .vuR, at_ := p.due, ord := p.ord, val := r, short := true },
         { port := .vuMr, at_ := p.due, ord := p.ord, val := m, short := true }] } })

/-- One pop of a quad (R141, R142). -/
def applyPop (q : Nat) (s : State) (p : Pop) : State :=
  let l := nthD (getQuad s q).streams p.stream []
  let n := min p.most l.length
  let s1 := modQuad s q (fun x => { x with streams := setNth x.streams p.stream (l.drop n) })
  if isLive (getCore s p.core) then popResults s1 p (l.take n) else s1

/-- The pops of the period that ends, after every push of it, in core order (R142). -/
def applyPops (s : State) : State :=
  s.quads.foldl (fun s e =>
    if e.2.pops.isEmpty then s else e.2.pops.foldl (applyPop e.1) (modQuad s e.1 (fun q => { q with pops := [] }))) s

/-- Gangs at the start of a period: elapsed periods, and a new duty at the start of a window (R288, R294). -/
def tickGangs (s : State) : State :=
  { s with hub := { s.hub with gangs := s.hub.gangs.map (fun e =>
      (e.1, { e.2 with elapsed := if e.2.st = .running ∨ e.2.st = .stopping then e.2.elapsed + 1 else e.2.elapsed,
                       duty := if s.now % 16 = 0 then e.2.nextDuty else e.2.duty })) } }

/-- Dies at the start of a period: the limit set by a detection holds, and the period that ends is counted if it had none (R295). -/
def tickDies (s : State) : State :=
  { s with dies := s.dies.map (fun e =>
      let quiet := if e.2.droop ∨ e.2.nextLimit = 6 then 0 else e.2.quiet + 1
      (e.1, { e.2 with limit := e.2.nextLimit, droop := false, quiet := quiet })) }

/-- The anvils' reads, once every core has had its banks (R201). -/
def serveAnvils (s : State) : State :=
  s.cores.foldl (fun s e =>
    if e.2.arch.anv.queue.isEmpty || decide (e.2.status ≠ .bound) || heldOut s e.1 then s else serveAnvil e.1 s) s

/-- The banks of a new period have served nothing (R201). -/
def freeBanks (s : State) : State :=
  { s with quads := s.quads.map (fun e => if e.2.served.isEmpty then e else (e.1, { e.2 with served := [] })) }

/-- Whether a core has something to do in a period: a task, or near accesses of a task that has completed. -/
def hasPeriod (x : Core) : Bool := decide (x.status = .bound) || !x.arch.order.nearq.isEmpty

/-- The start of a module period: what the period before leaves, the accesses of the hub that wait, the dies' windows and limits, the
events that latch, the command processor's staging (R299), and the cores that run. -/
def newPeriod (s : State) : Out :=
  let s1 := retryWaiting (applyRevocations (applyPops { s with served := false }))
  let s2 := tickDies (tickGangs (freeBanks { releaseHolds s1 with now := s1.now + 1 }))
  andThen (foldOut (fun d s => exec (.droopRecovery d) s) ((s2.dies.filter (fun e => decide (1024 ≤ e.2.quiet))).map (·.1)) s2)
    (fun s => andThen (if s.now % 1024 = 0 then foldOut (fun d s => exec (.bucketWindowStart d) s) (s.dies.map (·.1)) s else .next s)
      (fun s =>
        let s := stageAhead (latchEvents s)
        .next { s with todo := (s.cores.filter (fun e => hasPeriod e.2)).map (·.1) }))

/-- The next thing the clock does: the next core of the period, then the anvils' reads, after which the engines move (R201), then a
new period. -/
def clockStep (s : State) : Out :=
  match s.todo with
  | c :: rest => corePeriod c { s with todo := rest }
  | [] => if s.served then newPeriod s else .next { serveAnvils s with served := true }

end Sys2Proof.Machine
end

