-- ==== Sys2Proof/Machine/Agenda.lean ====
section
/-! DEFINITION. Which event of the module moves next when the agenda names none: the first that is enabled, in a fixed order. -/

namespace Sys2Proof.Machine

/-- The first of a list that is there. -/
def oneOf {α : Type} : List (Option α) → Option α
  | [] => none
  | some x :: _ => some x
  | none :: rest => oneOf rest

/-- The first answer of a function over a list. -/
def firstOf {α β : Type} (f : α → Option β) : List α → Option β
  | [] => none
  | x :: rest => match f x with | some y => some y | none => firstOf f rest

/-! Events of a core. -/

/-- A part of a far load, prefetch or atomic that can perform. -/
def farLoadNext (s : State) (c : Nat) (o : Order) : Option Instr :=
  firstOf (fun f => firstOf (fun p =>
    if partReady s c f p && tokenAskable s c p.ident && (!(isAtom f || p.loc.peer.isSome) || recallAskable s p.loc) then some (.farLoadPerform c p.ident) else none) f.parts) o.far

/-- A released store that can perform. -/
def farStoreNext (s : State) (c : Nat) (o : Order) : Option Instr :=
  firstOf (fun x => if storeReady s c x && tokenAskable s c x.ident && recallAskable s x.loc then some (.farStorePerform c x.ident) else none) o.released

/-- Whether the head of a queue can complete, or its fence pass. -/
def completionReady (s : State) (c : Nat) (q : Fin 5) (cmd : EngCmd) : Bool :=
  match cmd.op, cmd.done with
  | .fence n m, _ => fenceReady (getCore s c).arch n m
  | _, some _ => cmd.waitFor.isEmpty
  | _, none =>
    isColl cmd.op && cmd.started && s.todo.isEmpty && s.served && tokensHere s c q cmd && cmd.waitFor.isEmpty && decide ((getCore s c).status ≠ .stopped) && (collOutcome s c cmd).isSome

/-- A command that can start or complete. -/
def engineNext (s : State) (c : Nat) (a : CoreArch) : Option Instr :=
  firstOf (fun (q : Fin 5) =>
    match (vget a.q q).cmds with
    | [] => none
    | cmd :: _ =>
      if startReady s c q cmd && tokensHere s c q cmd then some (.engineCommandStart c { queue := q.val, errs := 0 })
      else if completionReady s c q cmd then some (.engineCommandCompletion c q.val) else none) (List.finRange 5)

def coreNext (s : State) (e : Nat × Core) : Option Instr :=
  oneOf [farLoadNext s e.1 e.2.arch.order, farStoreNext s e.1 e.2.arch.order, engineNext s e.1 e.2.arch]

/-! Events of gangs, bindings and replies. -/

def releaseNext (s : State) : Option Instr :=
  firstOf (fun x => if releaseDue s x then some (.barrierRelease x.ident) else none) s.hub.chans

/-- A gang that can be saved, resumed or completed. -/
def gangNext (s : State) (e : Nat × Gang) : Option Instr :=
  let g := e.2
  if savable s g && flushAskable s g then ((gangCores g).find? (fun c => decide ((getCore s c).status = .stopped))).map .preemptionStop
  else if gangDone s g && (g.image.isSome || flushAskable s g) then some (.gangCompletion g.ctx)
  else
    match g.st with
    | .resuming t | .restored _ t => if t ≤ s.now then some (.gangResume { ctx := g.ctx, intact := true }) else none
    | _ => none

/-- A binding whose next step is due. -/
def launchNext (s : State) (e : Nat × Binding) : Option Instr :=
  let b := e.2
  let due := match b.stage with
    | .waiting => false
    | .deferred => false
    | .reserved quads => (getGang s e.1).isSome && decide (b.visible ≤ s.now) && quads.all (quadFree s e.1) && channelsFree s e.1 quads []
    | .broadcast _ at_ _ _ _ => decide (at_ ≤ s.now) && (routeRec s e.1 b.recIx).isSome
    | .stopping quads v => victimsSaved s v && quads.all (fun q => (getQuad s q).busy.isNone) && (routeRec s e.1 b.recIx).isSome
    | .waking _ at_ _ => decide (at_ ≤ s.now) && (routeRec s e.1 b.recIx).isSome
    | .unsealing _ at_ _ | .imaging _ at_ _ => decide (at_ ≤ s.now) && (routeRec s e.1 b.recIx).isSome
    | .starting quads at_ =>
      decide (at_ ≤ s.now) && (match routeRec s e.1 b.recIx with | some rc => entryReady s e.1 b rc quads | none => false)
  if due || quadsGone s b then some (.launchStart { ctx := e.1, intact := true }) else none

def placementNext (s : State) : Option Instr :=
  if s.hub.placeAt ≤ s.now then (nextToPlace s).map (fun e => .placement e.1) else none

def replyNext (s : State) : Option Instr :=
  oneOf [((firstReplies [] s.hub.replies).find? (fun r => decide (r.since + 96 ≤ s.now))).map (fun r => .reply r.req.ctx),
    (s.edge.held.find? (fun h => decide (h.since + 940000 ≤ s.now))).map (fun h => .replyHoldExpiry h.port)]

/-! Events of the edge and of the firmware. -/

/-- Whether a send ring's doorbell can be taken: its header can be read, and an entry of it taken if it has one (R348). -/
def bellReady (s : State) (ctx : Nat) : Bool :=
  let (head, n) := sendSpan s ctx
  !sendWaits s ctx && hubReady s false ctx (blkSendq (getBlock s ctx)) 8 &&
    (decide (blkSendq (getBlock s ctx) = 0 ∨ n = 0 ∨ 256 < n) || !sendRingOk s ctx || entryFree s ctx head)

def podNext (s : State) : Option Instr :=
  oneOf [(s.hub.xfers.find? (fun x => decide (x.sentAt + 15040 ≤ s.now))).map (fun x => .podTransferResend x.num),
    (s.hub.bells.find? (bellReady s)).map .sendRingDoorbell,
    (s.hub.sends.find? (fun x => decide (x.sentAt + 940000000 ≤ s.now))).map (fun x => .sendTimeout x.session x.rid)]

/-- The page that the ladle brings in next for a block: if something waits for it, if need be into a frame that another page leaves. -/
def fillNext (s : State) (ctx : Nat) : Option Instr :=
  (ladleNext s ctx).bind (fun vp => (frameFor s ctx vp).bind (fun f =>
    if (frameFree s f || (firstMissing s ctx (wantedRanges s ctx)).isSome) && framesReady s false [f] then some (.ladlePageFill ctx vp f)
    else none))

/-- The blocks for which the ladle works: those with a launch to bind, a ring entry to be written or a gang (R212, R351). -/
def ladleBlocks (s : State) : List Nat :=
  (s.hub.bind.map (·.1) ++ (s.hub.reqs.filter (fun r => decide (r.entry ≠ []))).map (·.ctx) ++ s.hub.gangs.map (·.1)).eraseDups

def frameNext (s : State) : Option Instr :=
  oneOf [(s.frames.find? (fun e => decide (e.2.st = .promoting))).map (fun e => .promotionComplete e.1),
    firstOf (fillNext s) (ladleBlocks s),
    firstOf (fun x =>
      if s.edge.revoking.isEmpty && !(allArchs s).any (fun a => accessesTo x.frames a || commandsOn x.frames a) &&
          framesReady s false x.frames then some (.invalidateCompletion x.ctx x.range) else none) s.edge.invalidating,
    firstOf (fun e =>
      if s.edge.revoking.isEmpty && !frameBusy s e.1 && (getFrame s e.1).isSome && framesReady s false [e.1] then
        some (.frameMigration e.1 e.2) else none) s.edge.migrating]

/-- A key slot whose rekey can go on. -/
def keyNext (s : State) (e : Nat × KeySlot) : Option Instr :=
  let x := e.2
  let go := .rekey e.1 (Config.deviceKey s.clock)
  if decide (x.st = 1) && decide (2 ^ 44 - 1 ≤ keyUses x) then some (.forcedKeyFlip e.1 (Config.deviceKey s.clock))
  else if rekeyAsked s x then some go
  else if x.st ≠ 2 then none
  else
    match nextSweep s x with
    | some f => if sweepReady s f && framesReady s true [f.1] then some go else none
    | none => if s.hub.buffers.any (fun b => b.2.sweep && decide (b.2.world = x.world) && bufRunning s b.1) then none else some go

def blockNext (s : State) (e : Nat × BitVec 2048) : Option Instr :=
  if blkAged e.2 then none
  else
    match headSince s e.1 with
    | some t => if t + 9400000 ≤ s.now then some (.requestAgeing e.1) else none
    | none => none

def quadNext (s : State) (e : Nat × Quad) : Option Instr :=
  if decide (e.2.power ≠ .gated ∧ e.2.idleSince + 94000 ≤ s.now) && e.2.busy.isNone && !heldForStopped s e.1 && !reservedFor s 16384 e.1 then
    some (.quadPowerGate e.1) else none

/-- The first enabled event of the module, if any. -/
def pickEvent (s : State) : Option Instr :=
  oneOf [firstOf (coreNext s) s.cores, releaseNext s, firstOf (gangNext s) s.hub.gangs, firstOf (launchNext s) s.hub.bind, placementNext s,
    replyNext s, podNext s, frameNext s, firstOf (keyNext s) s.hub.keys, firstOf (blockNext s) s.hub.blocks, firstOf (quadNext s) s.quads]

/-- Places an instruction's 24-bit word where core 0 issues its next bundle: the core bound, the word alone in slot 0, or in
slot 6 for an address operation, of the bundle at its address, nothing else due before it. -/
def placeWord (s : State) (w : Nat) : State :=
  let k := match decodeWord (w % 2 ^ 24) with | some i => if isAddr i then 6 else 0 | none => 0
  let x := getCore s 0
  let pc := x.arch.seq.pc.toNat
  setCore { s with agenda := [], todo := [0], cur := 0, issue := none } 0
    { x with status := .bound, imem := alPut x.imem pc (loneBundle k w), covered := (pc, 1) :: x.covered }

end Sys2Proof.Machine
end

