-- ==== Sys2Proof/Machine/Step.lean ====
section
/-! DEFINITION. One step of the module: the next entry of the agenda, else the first enabled event, else the clock. -/

namespace Sys2Proof.Machine

/-- One step. -/
def step (s : State) : Host.Outcome State Fault Refusal :=
  match s.agenda with
  | .ev i :: rest => exec i { s with agenda := rest }
  | .tick :: rest => clockStep { s with agenda := rest }
  | [] =>
    match pickEvent s with
    | some i => exec i s
    | none => clockStep s

/-- The state with an instruction's word stored where the next step fetches its instruction (log entry 9). -/
def State.withFetchWord (s : State) (nbits w : Nat) : State := if nbits = 24 then placeWord s w else s

end Sys2Proof.Machine
end

