-- ==== Sys2Proof/Safety.lean ====
section
/-! DEFINITION. What counts as a safe run: the terms in which claims speak of the module. -/

namespace Sys2Proof.Machine

/-- The memories keep their canonical form: keys strictly rising, no entry equal to what an unlisted key reads as. -/
def memoriesOk (s : State) : Bool := memWf s.stash && memWf s.far

/-- The versions of lines and the marks of failed lines keep their canonical form. -/
def linesOk (s : State) : Bool := alWf 0 s.lineVer && alWf false s.bad

/-- A step answers a next state: it neither faults nor is refused. -/
def goesOn (s : State) : Prop := ∃ t, step s = .next t

end Sys2Proof.Machine
end

