-- ==== Sys2Proof/Certificates/Slice0/Obligations.lean ====
section
/-! DEFINITION. The statements for the provers, and the words they are made of: a live slot, what an instruction leaves
unchanged, a result in flight. -/

namespace Sys2Proof.Claims

open Sys2Proof.Machine

/-! Words. -/

/-- The guard lets the slot act and joins `e` to what it writes (R49). -/
def guardOn (a : CoreArch) : Guard → TSet → Prop
  | .steer k, e => (readS a k).cond = true ∧ steerPoison (readS a k) = false ∧ e = steerTaint (readS a k)
  | _, e => e = 0

/-- `i` is a well-formed, live move slot, and its source, which is neither dead nor empty, yields `x` (R49, R55, R59, R80). -/
def Moves (i : Instr) (g : Guard) (src : Src) (s : State) (x : Val) : Prop :=
  wellFormed i = true ∧ ∃ e y, guardOn (startArch s) g e ∧ readSrc s src = .val y ∧ x = y.join e

/-- `i` is a well-formed, live address slot; a_j, and m_j where the slot updates, are live and give `x` (R49, R52, R59). -/
def Addresses (i : Instr) (g : Guard) (j : Fin 16) (u : Bool) (s : State) (x : AddrIn) : Prop :=
  wellFormed i = true ∧ (vget (startArch s).regs.a j).dead = false ∧ (u = true → (vget (startArch s).regs.m j).dead = false) ∧
    x.a = (vget (startArch s).regs.a j).val ∧ x.m = (vget (startArch s).regs.m j).val ∧ x.mFree = false ∧
    guardOn (startArch s) g x.guard

/-- A slot that updates its address register finds a modifier of a legal format (R109). -/
def modifierOk (u : Bool) (x : AddrIn) : Prop := u = true → (addrUpdate x.a.v x.m.v).isSome = true

/-- The running core stands as `x`; every other core, every byte of every stash and of far memory, and all other state but the
cores is as in `s`. -/
def onlyCore (s : State) (x : Core) (t : State) : Prop :=
  getCore t s.cur = x ∧ (∀ c, c ≠ s.cur → getCore t c = getCore s c) ∧ (∀ k, memRead t.stash k = memRead s.stash k) ∧
    (∀ p, memRead t.far p = memRead s.far p) ∧ { t with cores := s.cores } = s

/-- Only the architectural part of the running core has changed, to `a`. -/
def onlyArch (s : State) (a : CoreArch) (t : State) : Prop := onlyCore s { getCore s s.cur with arch := a } t

/-- Only one more result is in flight in the running core: its registers, ports, control registers and memory are as before. -/
def delivers (s : State) (d : Due) (t : State) : Prop := onlyArch s { arch s with due := (arch s).due ++ [d] } t

/-- A short result of the running slot (R34, R58). -/
def shortDue (s : State) (port : PortId) (lat : Nat) (v : VVal) : Due :=
  { port := port, at_ := (arch s).csr.cyc + lat, ord := orderNo s (arch s), val := v, short := true }

/-- A result that is not of a short operation. -/
def longDue (s : State) (port : PortId) (lat : Nat) (v : VVal) : Due := { shortDue s port lat v with short := false }

end Sys2Proof.Claims

open Sys2Proof Sys2Proof.Machine Sys2Proof.Claims

/-! Scalar units. -/

namespace Sys2Proof.Claims

/-- The two-operand operations of R88: trigger, latency of R73, value on o and t. -/
def scalarTwo : List ((Guard → Src → Bool → Instr) × Nat × (Word → Word → Word)) :=
  [(.saAdd, 1, fun o t => BitVec.ofNat 64 (o.toNat + t.toNat)),
   (.saSub, 1, fun o t => BitVec.ofInt 64 ((o.toNat : Int) - t.toNat)),
   (.saAnd, 1, fun o t => o &&& t),
   (.saOr, 1, fun o t => o ||| t),
   (.saXor, 1, fun o t => o ^^^ t),
   (.saAndn, 1, fun o t => o &&& ~~~t),
   (.saShl, 1, fun o t => BitVec.ofNat 64 (o.toNat * 2 ^ (t.toNat % 64))),
   (.saShr, 1, fun o t => BitVec.ofNat 64 (o.toNat / 2 ^ (t.toNat % 64))),
   (.saSar, 1, fun o t => BitVec.ofInt 64 (o.toInt / 2 ^ (t.toNat % 64))),
   (.saMin, 1, fun o t => BitVec.ofInt 64 (min o.toInt t.toInt)),
   (.saMax, 1, fun o t => BitVec.ofInt 64 (max o.toInt t.toInt)),
   (.saMinu, 1, fun o t => BitVec.ofNat 64 (min o.toNat t.toNat)),
   (.saMaxu, 1, fun o t => BitVec.ofNat 64 (max o.toNat t.toNat)),
   (.saMul, 3, fun o t => BitVec.ofNat 64 (o.toNat * t.toNat)),
   (.saMulh, 3, fun o t => BitVec.ofInt 64 (o.toInt * t.toInt / 2 ^ 64)),
   (.saMulhu, 3, fun o t => BitVec.ofNat 64 (o.toNat * t.toNat / 2 ^ 64))]

/-- The one-operand operations of R88: value on t. -/
def scalarOne : List ((Guard → Src → Bool → Instr) × (Word → Nat)) :=
  [(.saClz, fun t => ((List.range 64).takeWhile (fun i => !t.getLsbD (63 - i))).length),
   (.saCtz, fun t => ((List.range 64).takeWhile (fun i => !t.getLsbD i)).length),
   (.saPopc, fun t => (List.range 64).countP (fun i => t.getLsbD i))]

/-- The operations of R88 with a width: the width read from t, the value on o and t. -/
def scalarWide : List ((Guard → Src → Bool → Instr) × (Word → Nat) × (Word → Word → Word)) :=
  [(.saSext, fun t => t.toNat % 128, fun o t => BitVec.ofInt 64 (signExtNat o.toNat (t.toNat % 128))),
   (.saZext, fun t => t.toNat % 128, fun o t => BitVec.ofNat 64 (o.toNat % 2 ^ (t.toNat % 128))),
   (.saBfx, fun t => t.toNat / 64 % 128, fun o t =>
     let f := o.toNat / 2 ^ (t.toNat % 64) % 2 ^ (t.toNat / 64 % 128)
     if t.getLsbD 13 then BitVec.ofInt 64 (signExtNat f (t.toNat / 64 % 128)) else BitVec.ofNat 64 f)]

/-- The result of a scalar unit: the value in lanes 1:0, with taint and poison. -/
def scalarDue (s : State) (sb : Bool) (lat : Nat) (v : Word) (t : TSet) (p : Bool) : Due :=
  shortDue s (if sb then .sbR else .saR) lat { v := v.setWidth 2048, t := t, p := p }

/-- The operand port of a scalar unit. -/
def scalarO (s : State) (sb : Bool) : SVal := getOpS (arch s) (if sb then .sbO else .saO)

end Sys2Proof.Claims

/-- The two-operand operations of `sa` and `sb` (R73, R85, R88): the value, the union of the taints, the OR of the poisons, due at
the latency of R73; nothing else changes but the last-read mark. -/
def Obligations.ScalarTwoOperand : Prop :=
  ∀ r ∈ scalarTwo, ∀ g src sb s x, Moves (r.1 g src sb) g src s x →
    ∃ t, exec (r.1 g src sb) s = .next t ∧
      delivers (markGuard s g src)
        (scalarDue s sb r.2.1 (r.2.2 (scalarO s sb).v x.scalar.v) ((scalarO s sb).t ||| x.scalar.t) ((scalarO s sb).p || x.scalar.p)) t

/-- `clz`, `ctz` and `popc` (R88): neither the value nor the taint of the operand port reaches the result. -/
def Obligations.ScalarOneOperand : Prop :=
  ∀ r ∈ scalarOne, ∀ g src sb s x, Moves (r.1 g src sb) g src s x →
    ∃ t, exec (r.1 g src sb) s = .next t ∧
      delivers (markGuard s g src) (scalarDue s sb 1 (BitVec.ofNat 64 (r.2 x.scalar.v)) x.scalar.t x.scalar.p) t

/-- `sext`, `zext` and `bfx` (R88 to R90): the value for a width of 1 to 64; a width outside it in an unpoisoned t raises the
illegal-operand fault, in a poisoned t the value delivered is unpredictable and poisoned. -/
def Obligations.ScalarWidths : Prop :=
  ∀ r ∈ scalarWide, ∀ g src sb s x, Moves (r.1 g src sb) g src s x →
    (1 ≤ r.2.1 x.scalar.v → r.2.1 x.scalar.v ≤ 64 →
      ∃ t, exec (r.1 g src sb) s = .next t ∧
        delivers (markGuard s g src)
          (scalarDue s sb 1 (r.2.2 (scalarO s sb).v x.scalar.v) ((scalarO s sb).t ||| x.scalar.t) ((scalarO s sb).p || x.scalar.p)) t) ∧
    (¬ (1 ≤ r.2.1 x.scalar.v ∧ r.2.1 x.scalar.v ≤ 64) →
      (x.scalar.p = false → exec (r.1 g src sb) s = .next (raise (markGuard s g src) (r.1 g src sb) cOperand)) ∧
      (x.scalar.p = true → ∃ t v, exec (r.1 g src sb) s = .next t ∧ getCore t s.cur =
        { getCore (markGuard s g src) s.cur with
          arch := { arch (markGuard s g src) with
            due := (arch s).due ++ [scalarDue s sb 1 v ((scalarO s sb).t ||| x.scalar.t) true] } }))

/-! Moves. -/

namespace Sys2Proof.Claims

/-- What a register or operand port holds, and whether it is dead; a scalar stands in lanes 1:0. -/
def dstHolds (a : CoreArch) : Dst → VVal × Bool
  | .g i => ((readG a i).val.toVec, (readG a i).dead)
  | .v i => ((vget a.regs.v i).val, (vget a.regs.v i).dead)
  | .p i => ((vget a.regs.p i).val.toVec, (vget a.regs.p i).dead)
  | .a i => ((vget a.regs.a i).val.toVec, (vget a.regs.a i).dead)
  | .m i => ((vget a.regs.m i).val.toVec, (vget a.regs.m i).dead)
  | .op o => (getOp a o, false)

/-- The value a destination takes (R71, R108, R177): a vector register, `vu.a` and `vu.b` a vector, a scalar's low 32 bits in every
lane; `la.d`, `la.c`, `lb.d`, `lb.c` and `tnt.o` a vector, a scalar in lanes 1:0; every other the scalar, of a vector lanes 1:0. -/
def converted (d : Dst) (x : Val) : VVal :=
  match d with
  | .v _ | .op .vuA | .op .vuB => x.broadcast
  | .op .laD | .op .laC | .op .lbD | .op .lbC | .op .tntO => x.lanes
  | _ => x.scalar.toVec

/-- The bank out of reach (R87, R304): inside a handler the task's own g24 to g31, s10 and s11, outside one the shadow bank. -/
def hiddenBank (a : CoreArch) : List SReg × List Steer :=
  if inHandler a then
    ((List.range 8).map (fun i => vget a.regs.g (Fin.ofNat 32 (24 + i))), (List.range 2).map (fun i => vget a.regs.s (Fin.ofNat 12 (10 + i))))
  else (a.seq.shadow.g.toList, a.seq.shadow.s.toList)

/-- Everything of a core but the registers in reach (`dstHolds`, `readS`) and the operand ports is as it was: the handles, the hidden
bank, and all beside the register files. -/
def keepsRest (a b : CoreArch) : Prop :=
  b.regs.h = a.regs.h ∧ hiddenBank b = hiddenBank a ∧
    { b with regs := a.regs, ops := a.ops, seq := { b.seq with shadow := a.seq.shadow } } = a

/-- Every steer register reads as before. -/
def keepsSteers (a b : CoreArch) : Prop := ∀ k, readS b k = readS a k

/-- The scalar that a source without taint of its own stands for (R54, R80): a signed immediate of 9 bits, the literals. -/
def literalValue (s : State) : Src → Option Int
  | .imm n => some n.toInt
  | .l0 => some (literals s).1.toInt
  | .l1 => some (literals s).2.1.toInt
  | .l2 => some (literals s).2.2.toInt
  | .l01 => some ((literals s).2.1 ++ (literals s).1).toInt
  | .l12 => some ((literals s).2.2 ++ (literals s).2.1).toInt
  | .l012 => some ((literals s).2.2 ++ (literals s).2.1 ++ (literals s).1).toInt
  | _ => none

end Sys2Proof.Claims

/-- The plain move (R70, R71, R87): the destination holds the source's value, converted, with its taint and poison, and is live;
every other register (steer registers, handles and the hidden bank too) and operand port, every other core, and memory are as before. -/
def Obligations.PlainMove : Prop :=
  ∀ g src dst s x, Moves (.mov g src dst) g src s x →
    ∃ t, exec (.mov g src dst) s = .next t ∧ dstHolds (arch t) dst = (converted dst x, false) ∧
      (∀ d, d ≠ dst → dstHolds (arch t) d = dstHolds (arch (markGuard s g src)) d) ∧
      keepsSteers (arch (markGuard s g src)) (arch t) ∧ keepsRest (arch (markGuard s g src)) (arch t) ∧
      (∀ c, c ≠ s.cur → getCore t c = getCore s c) ∧
      (∀ k, memRead t.stash k = memRead s.stash k) ∧ (∀ p, memRead t.far p = memRead s.far p) ∧
      { t with cores := s.cores, issue := s.issue } = s

/-- The masked vector write (R51): lane i of the register takes the moved value's lane where bit i of `vu.k`, as it stood before the
bundle, is set, and keeps its own elsewhere; taint and poison are joined; every other register, steer registers, handles and the
hidden bank too, and all else is as before. The model's choice (log entry 12): the register is live after it, and the lanes of a dead
one are kept. -/
def Obligations.MaskedMove : Prop :=
  ∀ (src : Src) (i : Fin 32) (s : State) (x : Val),
    Moves (.maskedVectorWrite src (BitVec.ofNat 10 (0x20 + i.val))) .mask src s x →
    ∃ t, exec (.maskedVectorWrite src (BitVec.ofNat 10 (0x20 + i.val))) s = .next t ∧
      (∀ j, j < 64 → laneOf (vget (arch t).regs.v i).v j =
        if (getOpS (startArch s) .vuK).v.getLsbD j then laneOf x.broadcast.v j else laneOf (vget (arch s).regs.v i).v j) ∧
      (vget (arch t).regs.v i).t = (vget (arch s).regs.v i).t ||| x.broadcast.t ||| (getOpS (startArch s) .vuK).t ∧
      (vget (arch t).regs.v i).p = ((vget (arch s).regs.v i).p || x.broadcast.p || (getOpS (startArch s) .vuK).p) ∧
      (vget (arch t).regs.v i).dead = false ∧
      (∀ d, d ≠ .v i → dstHolds (arch t) d = dstHolds (arch s) d) ∧ keepsSteers (arch s) (arch t) ∧ keepsRest (arch s) (arch t) ∧
      (∀ c, c ≠ s.cur → getCore t c = getCore s c) ∧ { t with cores := s.cores, issue := s.issue } = s

/-- Immediates and literals (R54, R80): a move of one into a scalar register writes its signed value, without taint or poison. Steer
registers, loop indices and handles as sources (R80, R87, R91): TARGET in bits 12:0 and COND in bit 13 with the union of the two taints;
INDEX of the loop at a depth, 0 where no loop is open there; a handle's virtual page base. -/
def Obligations.Sources : Prop :=
  (∀ s src z (d : Fin 8), literalValue s src = some z →
    ∃ t, exec (.mov .always src (.p d)) s = .next t ∧
      vget (arch t).regs.p d = { v := BitVec.ofInt 64 z, t := 0, p := false, dead := false }) ∧
  (∀ s (d : Fin 8),
    (∀ k, ∃ t, exec (.mov .always (.s k) (.p d)) s = .next t ∧ vget (arch t).regs.p d =
      { v := BitVec.ofNat 64 ((readS (startArch s) k).target.toNat + if (readS (startArch s) k).cond then 8192 else 0),
        t := (readS (startArch s) k).ct ||| (readS (startArch s) k).tt,
        p := (readS (startArch s) k).cp || (readS (startArch s) k).tp, dead := false }) ∧
    (∀ n, ∃ t, exec (.mov .always (.loopIx n) (.p d)) s = .next t ∧ vget (arch t).regs.p d =
      { v := BitVec.ofNat 64 (match (startArch s).seq.loops[n.val]? with | some l => l.index.toNat | none => 0),
        t := 0, p := false, dead := false }) ∧
    (∀ k, ∃ t, exec (.mov .always (.h k) (.p d)) s = .next t ∧ vget (arch t).regs.p d =
      { v := BitVec.ofNat 64 (vget (startArch s).regs.h k).base.toNat, t := 0, p := false, dead := false }))

/-- The last-read mark (R50): the register or port that the slot reads is dead, or empty, after it, its value untouched; a register
that a move of the bundle has already written stays live. -/
def Obligations.LastReadMark : Prop :=
  ∀ s : State,
    (∀ i, writtenIn s (.g i) = false → readG (arch (markGuard s .last (.g i))) i = { readG (arch s) i with dead := true }) ∧
    (∀ i, writtenIn s (.v i) = false → vget (arch (markGuard s .last (.v i))).regs.v i = { vget (arch s).regs.v i with dead := true }) ∧
    (∀ i, writtenIn s (.p i) = false → vget (arch (markGuard s .last (.p i))).regs.p i = { vget (arch s).regs.p i with dead := true }) ∧
    (∀ i, writtenIn s (.a i) = false → vget (arch (markGuard s .last (.a i))).regs.a i = { vget (arch s).regs.a i with dead := true }) ∧
    (∀ i, writtenIn s (.m i) = false → vget (arch (markGuard s .last (.m i))).regs.m i = { vget (arch s).regs.m i with dead := true }) ∧
    (∀ r, getRes (arch (markGuard s .last (.res r))) r = { getRes (arch s) r with empty := true }) ∧
    (∀ i, writtenIn s (.g i) = true → markGuard s .last (.g i) = s) ∧
    (∀ g src, g ≠ .last → markGuard s g src = s)

/-- An early read (R8, R59, R60): with `sbchk` set it raises the scoreboard fault with the source's code, otherwise the move runs
with an unpredictable value whose taint set is saturated (the value is free: log entry 5). -/
def Obligations.EarlyRead : Prop :=
  ∀ (src : Src) (i : Fin 8) (s : State), (readSrc s src = .earlyScalar ∨ readSrc s src = .earlyVector) →
    ((startArch s).csr.sbchk = true →
      exec (.mov .always src (.p i)) s = .next (raiseWith s (.mov .always src (.p i)) cScoreboard (srcCode src) 0)) ∧
    ((startArch s).csr.sbchk = false →
      ∃ t, exec (.mov .always src (.p i)) s = .next t ∧ (vget (arch t).regs.p i).t = 0xFFFF#16 ∧
        (vget (arch t).regs.p i).dead = false)

/-! Guards, over every instruction (R49, R55). -/

namespace Sys2Proof.Claims

/-- The guard of a slot operation, by its encoding. -/
def guardCodeOf (i : Instr) : Option Nat :=
  match encFields i with
  | .move g _ _ => some g
  | .addr g _ _ _ _ => some g
  | .none => none

end Sys2Proof.Claims

/-- A well-formed slot operation whose guard names a steer register: with a poisoned register it raises the poison fault, whatever COND
is, with COND 0 and no poison it does nothing, whichever operation it is (R49, R55). -/
def Obligations.Guards : Prop :=
  ∀ (i : Instr) (k : Fin 12) (s : State), wellFormed i = true → guardCodeOf i = some (k.val + 1) →
    (steerPoison (readS (startArch s) k) = true → exec i s = .next (raise s i cPoison)) ∧
    ((readS (startArch s) k).cond = false → steerPoison (readS (startArch s) k) = false → exec i s = .next s)

/-- A word of a slot that decodes to an instruction that is not well formed raises the illegal-operand fault, whichever instruction
it is (R49, R51, R53). -/
def Obligations.IllFormedFaults : Prop :=
  ∀ (k w : Nat) (i : Instr) (s : State), decodeSlot k w = .op i → wellFormed i = false → exec i s = .next (raise s i cOperand)

/-! Steer registers. -/

namespace Sys2Proof.Claims

/-- The conditions of R92. -/
def steerConds : List ((Guard → Src → Fin 12 → Instr) × (Word → Word → Bool)) :=
  [(.skEq, fun o t => decide (o = t)), (.skNe, fun o t => decide (o ≠ t)),
   (.skLt, fun o t => decide (o.toInt < t.toInt)), (.skGe, fun o t => decide (t.toInt ≤ o.toInt)),
   (.skLtu, fun o t => decide (o.toNat < t.toNat)), (.skGeu, fun o t => decide (t.toNat ≤ o.toNat)),
   (.skTst, fun o t => decide (o &&& t ≠ 0)), (.skTstn, fun o t => decide (o &&& t = 0))]

end Sys2Proof.Claims

/-- The steer compares (R92): COND of the named register takes the condition on `cmp.o` and t with the union of their taints and the OR
of their poisons; its TARGET and preparation, every other steer register and all other state stay. `prep` (R93): TARGET takes an address
below 8,192 with t's taint and no poison, and the issue cycle becomes the preparation cycle; COND stays. A poisoned t raises the poison
fault, an address of 8,192 or more the illegal-operand fault. Compares of different steer registers in one bundle do not conflict; a compare and
a `prep` of one do. -/
def Obligations.SteerRegisters : Prop :=
  (∀ r ∈ steerConds, ∀ g src k s x, Moves (r.1 g src k) g src s x →
    ∃ t, exec (r.1 g src k) s = .next t ∧
      readS (arch t) k =
        { readS (arch s) k with
          cond := r.2 (getOpS (arch s) .cmpO).v x.scalar.v, ct := (getOpS (arch s) .cmpO).t ||| x.scalar.t,
          cp := (getOpS (arch s) .cmpO).p || x.scalar.p } ∧
      (∀ j, j ≠ k → readS (arch t) j = readS (arch s) j) ∧
      (∀ d, dstHolds (arch t) d = dstHolds (arch (markGuard s g src)) d) ∧
      keepsRest (arch (markGuard s g src)) (arch t) ∧ (∀ c, c ≠ s.cur → getCore t c = getCore s c) ∧ { t with cores := s.cores } = s) ∧
  (∀ g src k s x, Moves (.skPrep g src k) g src s x →
    (x.scalar.p = true → exec (.skPrep g src k) s = .next (raise (markGuard s g src) (.skPrep g src k) cPoison)) ∧
    (x.scalar.p = false → 8192 ≤ x.scalar.v.toNat →
      exec (.skPrep g src k) s = .next (raise (markGuard s g src) (.skPrep g src k) cOperand)) ∧
    (x.scalar.p = false → x.scalar.v.toNat < 8192 →
      ∃ t, exec (.skPrep g src k) s = .next t ∧
        readS (arch t) k =
          { readS (arch s) k with target := BitVec.ofNat 13 x.scalar.v.toNat, tt := x.scalar.t, tp := false,
                                  prep := .inCycle (arch s).csr.cyc } ∧
        (∀ j, j ≠ k → readS (arch t) j = readS (arch s) j) ∧
        (∀ d, dstHolds (arch t) d = dstHolds (arch (markGuard s g src)) d) ∧
        keepsRest (arch (markGuard s g src)) (arch t) ∧ (∀ c, c ≠ s.cur → getCore t c = getCore s c) ∧ { t with cores := s.cores } = s)) ∧
  (∀ n r, steerConds[n]? = some r → ∀ g src k, ∃ gc sc, encFields (r.1 g src k) = .move gc sc (0x100 + 8 * k.val + n)) ∧
  (∀ r ∈ steerConds, ∀ q ∈ steerConds, ∀ g src h tgt j k, (j ≠ k → slotsConflict (r.1 g src j) (q.1 h tgt k) = false) ∧
    slotsConflict (r.1 g src k) (.skPrep h tgt k) = true)

/-! The sequencer. -/

namespace Sys2Proof.Claims

/-- The running core's sequencer becomes `q` and its path taint gains `e`; nothing else changes. -/
def sequenced (s : State) (e : TSet) (q : Sequencer) : State :=
  setArch s { arch s with seq := q, order := { (arch s).order with path := (arch s).order.path ||| e } }

end Sys2Proof.Claims

/-- `seq.br` and `seq.brn` through a steer register (R94, R100): its taint joins the path taint, and where COND is 1, or 0 for `brn`,
its TARGET is chosen as the next bundle; at the END of the innermost loop, and through any other source, the illegal-operand fault
is raised, through a poisoned register the poison fault. -/
def Obligations.Branches : Prop :=
  ∀ (onSet : Bool) (g : Guard) (src : Src) (s : State) (x : Val),
    let i : Instr := if onSet then .seqBr g src else .seqBrn g src
    Moves i g src s x →
    (∀ k, src = .s k → steerPoison (readS (startArch s) k) = true → exec i s = .next (raise s i cPoison)) ∧
    (∀ k, src = .s k → steerPoison (readS (startArch s) k) = false → atLoopEnd s = true → exec i s = .next (raise s i cOperand)) ∧
    (∀ k, src = .s k → steerPoison (readS (startArch s) k) = false → atLoopEnd s = false →
      exec i s = .next (sequenced s (steerTaint (readS (startArch s) k))
        (if (readS (startArch s) k).cond = onSet then
          { (arch s).seq with next := some (.branch (readS (startArch s) k).target (readS (startArch s) k).prep) }
        else (arch s).seq))) ∧
    ((∀ k, src ≠ .s k) → exec i s = .next (raise (markGuard s g src) i cOperand))

/-- `seq.jmp`, `seq.call` and `seq.ret` (R96, R100): the next bundle is t, t with the address after the bundle pushed, or the address
popped; t's taint joins the path taint. A poisoned t, an address of 8,192 or more, the END of the innermost loop, a call from the
last bundle, a ninth call and a return without a call raise the faults of R96, R47 and R100. -/
def Obligations.JumpsAndCalls : Prop :=
  ∀ (g : Guard) (src : Src) (s : State) (x : Val),
    let s1 := markGuard s g src
    let t := x.scalar
    let jump (q : Sequencer) : Sequencer := { q with next := some (.jump (BitVec.ofNat 13 t.v.toNat)) }
    (Moves (.seqJmp g src) g src s x →
      (t.p = true → exec (.seqJmp g src) s = .next (raise s1 (.seqJmp g src) cPoison)) ∧
      (t.p = false → 8192 ≤ t.v.toNat ∨ atLoopEnd s1 = true → exec (.seqJmp g src) s = .next (raise s1 (.seqJmp g src) cOperand)) ∧
      (t.p = false → t.v.toNat < 8192 → atLoopEnd s1 = false →
        exec (.seqJmp g src) s = .next (sequenced s1 t.t (jump (arch s1).seq)))) ∧
    (Moves (.seqCall g src) g src s x →
      ((startArch s1).seq.pc = 8191 → exec (.seqCall g src) s = .next (raise s1 (.seqCall g src) cIllegalBundle)) ∧
      ((startArch s1).seq.pc ≠ 8191 → t.p = true → exec (.seqCall g src) s = .next (raise s1 (.seqCall g src) cPoison)) ∧
      ((startArch s1).seq.pc ≠ 8191 → t.p = false → 8192 ≤ t.v.toNat ∨ atLoopEnd s1 = true →
        exec (.seqCall g src) s = .next (raise s1 (.seqCall g src) cOperand)) ∧
      ((startArch s1).seq.pc ≠ 8191 → t.p = false → t.v.toNat < 8192 → atLoopEnd s1 = false →
        (8 ≤ (startArch s1).seq.calls.length → exec (.seqCall g src) s = .next (raise s1 (.seqCall g src) cCallDepth)) ∧
        ((startArch s1).seq.calls.length < 8 → exec (.seqCall g src) s = .next (sequenced s1 t.t
          (jump { (arch s1).seq with calls :=
            { ret := (arch s1).seq.pc + 1, at_ := .inCycle (startArch s1).csr.cyc } :: (arch s1).seq.calls }))))) ∧
    (Moves (.seqRet g src) g src s x →
      (atLoopEnd s1 = true → exec (.seqRet g src) s = .next (raise s1 (.seqRet g src) cOperand)) ∧
      (atLoopEnd s1 = false → (startArch s1).seq.calls = [] →
        exec (.seqRet g src) s = .next (raise s1 (.seqRet g src) cCallDepth)) ∧
      (∀ e rest, atLoopEnd s1 = false → (startArch s1).seq.calls = e :: rest →
        exec (.seqRet g src) s = .next (sequenced s1 0 { (arch s1).seq with calls := rest, next := some (.ret e.ret e.at_) })))

/-- `seq.loop` (R97, R100): a loop of N iterations up to bundle E, opened by an unpoisoned count below 2^32 and an END above the bundle,
below 8,192 and not above the innermost loop's END, is pushed with INDEX 0 and runs from the next bundle; with N 0 the next bundle is
the one R98 chooses after bundle E. A seventh loop raises the loop-depth fault. The model's choice (log entry 67): a loop of no
iteration after which the next bundle would lie at 8,192 raises the illegal-bundle fault. -/
def Obligations.LoopOpens : Prop :=
  ∀ (g : Guard) (src : Src) (s : State) (x : Val), Moves (.seqLoop g src) g src s x →
    let s1 := markGuard s g src
    let e := x.scalar.v.toNat
    let n := getOpS (arch s) .seqLo
    let q := (startArch s1).seq
    x.scalar.p = false → n.p = false → n.v.toNat < 2 ^ 32 → e < 8192 → q.pc.toNat < e → atLoopEnd s1 = false →
    (∀ l, innerLoop q = some l → e ≤ l.stop.toNat) →
    (6 ≤ q.loops.length → exec (.seqLoop g src) s = .next (raise s1 (.seqLoop g src) cLoopDepth)) ∧
    (q.loops.length < 6 → n.v ≠ 0 → exec (.seqLoop g src) s = .next (sequenced s1 (n.t ||| x.scalar.t)
      { (arch s1).seq with
        loops := { start := q.pc + 1, stop := BitVec.ofNat 13 e, count := BitVec.ofNat 32 n.v.toNat, index := 0 } :: (arch s1).seq.loops,
        next := some (.opened (q.pc + 1)) })) ∧
    (q.loops.length < 6 → n.v = 0 → (nextAfter q e).2 < 8192 → exec (.seqLoop g src) s = .next (sequenced s1 (n.t ||| x.scalar.t)
      { (arch s1).seq with loops := (nextAfter q e).1, next := some (.looped (nextAfter q e).2) })) ∧
    (q.loops.length < 6 → n.v = 0 → 8192 ≤ (nextAfter q e).2 →
      exec (.seqLoop g src) s = .next (raise s1 (.seqLoop g src) cIllegalBundle))

namespace Sys2Proof.Claims

/-- How many loops of the stack R98 may act on: all of them, in a handler those opened in it (R305). -/
def openLoops (q : Sequencer) : Nat := q.loops.length - (match q.handler with | some (depth, _) => depth | none => 0)

/-- A loop that ends at bundle `x` with its last iteration. -/
def spentAt (x : Nat) (e : LoopEntry) : Prop := e.stop.toNat = x ∧ e.count.toNat ≤ e.index.toNat + 1

end Sys2Proof.Claims

/-- After bundle x (R98, R305), with `ins` the innermost loops that all end at x with their last iteration, and l the loop around them:
where l ends at x too and has iterations left, its INDEX steps by one, the loops inside it stay open from INDEX 0, and the first bundle
of the innermost of them all is next; where l ends elsewhere, or there is no further loop to act on (an empty stack, or in a handler the
depth at its entry), the loops in `ins` close and the next bundle follows. `seq.lbrk` through an unpoisoned steer register inside a loop
(R99): its taint joins the path taint; with COND 1 the innermost loop's last iteration is taken as done and the next bundle is the one
R98 chooses after its END. Outside a loop the illegal-operand fault is raised. -/
def Obligations.LoopRuns : Prop :=
  (∀ (q : Sequencer) (ins : List LoopEntry) (l : LoopEntry) (rest : List LoopEntry) (x : Nat),
    q.loops = ins ++ l :: rest → ins.length < openLoops q → (∀ e ∈ ins, spentAt x e) →
    (l.stop.toNat = x → l.index.toNat + 1 < l.count.toNat →
      (nextAfter q x).1 = ins.map (fun e => { e with index := 0 }) ++ { l with index := l.index + 1 } :: rest ∧
      some (nextAfter q x).2 = (ins ++ [l]).head?.map (·.start.toNat)) ∧
    (l.stop.toNat ≠ x → nextAfter q x = (l :: rest, x + 1))) ∧
  (∀ (q : Sequencer) (ins rest : List LoopEntry) (x : Nat),
    q.loops = ins ++ rest → ins.length = openLoops q → (∀ e ∈ ins, spentAt x e) → nextAfter q x = (rest, x + 1)) ∧
  (∀ (g : Guard) (k : Fin 12) (s : State) (x : Val), Moves (.seqLbrk g (.s k)) g (.s k) s x →
    let r := readS (startArch s) k
    let q := (startArch s).seq
    (steerPoison r = true → exec (.seqLbrk g (.s k)) s = .next (raise s (.seqLbrk g (.s k)) cPoison)) ∧
    (steerPoison r = false → innerLoop q = none → exec (.seqLbrk g (.s k)) s = .next (raise s (.seqLbrk g (.s k)) cOperand)) ∧
    (∀ l, steerPoison r = false → innerLoop q = some l → r.cond = false →
      exec (.seqLbrk g (.s k)) s = .next (sequenced s (steerTaint r) (arch s).seq)) ∧
    (∀ l, steerPoison r = false → innerLoop q = some l → r.cond = true →
      let after := nextAfter { q with loops := { l with index := l.count - 1 } :: q.loops.tail } l.stop.toNat
      exec (.seqLbrk g (.s k)) s = .next (sequenced s (steerTaint r)
        { (arch s).seq with loops := after.1, next := some (.looped after.2) })))

/-- `seq.exit`, `seq.trap`, `seq.wfe`, `seq.sev` and `seq.yield` (R101 to R104, R107, R225): the exit is pending and a commit event is
made; the trap is pending; the core waits for an event of the mask; the events latch two periods later in the named cores of the
quad; the member's yield flag is set. A poisoned t raises the poison fault in each but `seq.yield`, an empty mask of `seq.wfe` the
illegal-operand fault, `seq.trap` in a handler the double trap; that the double trap is decided with the faults of its bundle is the
model's choice (log entry 13). -/
def Obligations.TaskControl : Prop :=
  ∀ (g : Guard) (src : Src) (s : State) (x : Val),
    let s1 := markGuard s g src
    let t := x.scalar
    (∀ f ∈ ([.seqExit, .seqTrap, .seqWfe, .seqSev] : List (Guard → Src → Instr)), Moves (f g src) g src s x → t.p = true →
      exec (f g src) s = .next (raise s1 (f g src) cPoison)) ∧
    (Moves (.seqExit g src) g src s x → t.p = false →
      exec (.seqExit g src) s = .next (modSeq (commitEvent s1) (fun q => { q with exiting := some (BitVec.ofNat 16 t.v.toNat) }))) ∧
    (Moves (.seqTrap g src) g src s x → t.p = false →
      ((startArch s1).seq.handler.isSome = true → exec (.seqTrap g src) s = .next (raise s1 (.seqTrap g src) cDoubleTrap)) ∧
      ((startArch s1).seq.handler.isSome = false →
        exec (.seqTrap g src) s = .next (modSeq s1 (fun q => { q with trapping := some (BitVec.ofNat 8 t.v.toNat) })))) ∧
    (Moves (.seqWfe g src) g src s x → t.p = false →
      (t.v.toNat % 65536 = 0 → exec (.seqWfe g src) s = .next (raise s1 (.seqWfe g src) cOperand)) ∧
      (t.v.toNat % 65536 ≠ 0 → (arch s).seq.wait = none →
        exec (.seqWfe g src) s = .next (modSeq s1 (fun q => { q with wait := some (.wfe (BitVec.ofNat 16 t.v.toNat)) })))) ∧
    (Moves (.seqSev g src) g src s x → t.p = false → ∃ u, exec (.seqSev g src) s = .next u ∧
      (getQuad u (s.cur / 4)).latches = (getQuad s (s.cur / 4)).latches ++
        ((List.range 4).filter (fun c => t.v.getLsbD (16 + c))).map
          (fun c => { at_ := s.now + 2, core := 4 * (s.cur / 4) + c, events := BitVec.ofNat 16 t.v.toNat }) ∧
      { getQuad u (s.cur / 4) with latches := [] } = { getQuad s (s.cur / 4) with latches := [] } ∧
      (∀ q, q ≠ s.cur / 4 → getQuad u q = getQuad s q) ∧ arch u = arch s1 ∧ (∀ c, c ≠ s.cur → getCore u c = getCore s c) ∧
      u.stash = s.stash ∧ u.far = s.far) ∧
    (Moves (.seqYield g src) g src s x → exec (.seqYield g src) s = .next (modSeq s1 (fun q => { q with yielded := true })))

/-- `seq.reti` (R105, R306): in a handler, with the loop and call depths as at its entry and not at the END of a loop, the return to
`uepc` is chosen; otherwise the illegal-operand fault is raised. The return leaves the handler: its flag is cleared, the shadow bank
is inactive and empty, every register reads the task's own again, and the next bundle is the one at `uepc`, at the cost of a jump. -/
def Obligations.HandlerReturn : Prop :=
  (∀ (g : Guard) (src : Src) (s : State) (x : Val), Moves (.seqReti g src) g src s x →
    let s1 := markGuard s g src
    let a := startArch s1
    (a.seq.handler = none → exec (.seqReti g src) s = .next (raise s1 (.seqReti g src) cOperand)) ∧
    (∀ l c, a.seq.handler = some (l, c) → a.seq.loops.length = l → a.seq.calls.length = c → atLoopEnd s1 = false →
      exec (.seqReti g src) s = .next (modSeq s1 (fun q => { q with next := some (.reti a.csr.uepc) }))) ∧
    (∀ l c, a.seq.handler = some (l, c) → (a.seq.loops.length ≠ l ∨ a.seq.calls.length ≠ c ∨ atLoopEnd s1 = true) →
      exec (.seqReti g src) s = .next (raise s1 (.seqReti g src) cOperand))) ∧
  (∀ (a : CoreArch) (stall : Nat) (u : BAddr), a.seq.next = some (.reti u) →
    ∃ b, chooseNext a stall = some b ∧ b.seq.handler = none ∧ b.seq.shadow = Shadow.reset ∧ b.seq.pc = u ∧ b.seq.next = none ∧
      b.regs = a.regs ∧ b.csr = a.csr ∧ b.seq.fetchWait = jumpCost a u (a.csr.cyc + stall + 1) ∧
      (∀ k, readG b k = vget a.regs.g k) ∧ (∀ k, readS b k = vget a.regs.s k))

/-- `seq.csrr` (R82, R83): the register named by t's low 12 bits, as it stood at the start of the cycle, with empty taint and no
poison, due after two cycles; an unassigned number raises the illegal-operand fault. The assigned numbers are those of R82; the identity
registers are those of R16, and `ckstat` has the fields of R314. -/
def Obligations.ControlReads : Prop :=
  (∀ (g : Guard) (src : Src) (s : State) (x : Val), Moves (.seqCsrr g src) g src s x →
    (csrRead (markGuard s g src) (x.scalar.v.toNat % 4096) = none →
      exec (.seqCsrr g src) s = .next (raise (markGuard s g src) (.seqCsrr g src) cOperand)) ∧
    (∀ w, csrRead (markGuard s g src) (x.scalar.v.toNat % 4096) = some w → ∃ t, exec (.seqCsrr g src) s = .next t ∧
      delivers (markGuard s g src) (shortDue s .seqR 2 { v := w.setWidth 2048, t := 0, p := false }) t)) ∧
  (∀ (s : State) (n : Nat), (csrRead s n).isSome = true ↔
    n ∈ [0x000, 0x001, 0x002, 0x003, 0x004, 0x010, 0x011, 0x012, 0x013, 0x014, 0x020, 0x021, 0x022, 0x023, 0x024, 0x030, 0x031, 0x032,
         0x040, 0x041, 0x042, 0x050]) ∧
  (∀ s : State, csrRead s 0x010 = some (BitVec.ofNat 64 s.cur) ∧ csrRead s 0x011 = some (BitVec.ofNat 64 (s.cur / 4)) ∧
    csrRead s 0x012 = some (BitVec.ofNat 64 (s.cur / 192)) ∧ csrRead s 0x013 = some (BitVec.ofNat 64 s.edge.pkgid) ∧
    csrRead s 0x014 = some (BitVec.ofNat 64 s.edge.podid)) ∧
  (∀ (s : State), let j := startJournal s
    let n := (startArch s).order.sbuf.length
    j.bytes ≤ 131072 → n ≤ 512 → j.why < 8 → ∃ w, csrRead s 0x050 = some w ∧ w.getLsbD 0 = j.windowOpen ∧
      w.toNat / 2 % 8 = (if j.windowOpen then j.why else 0) ∧ w.toNat / 2 ^ 4 % 2 ^ 13 = j.ckaddr.toNat ∧ w.toNat / 2 ^ 17 % 2 ^ 12 = (j.bytes + 63) / 64 ∧
      w.toNat / 2 ^ 29 % 2 ^ 10 = n ∧ w.toNat / 2 ^ 39 = min 255 j.rolls)

/-- `seq.csrw` (R83): `uiv` and `uepc` take an address below 8,192, `uie` and `sbchk` bit 0, `acchw` a row count of at most 12,288, and
no other control register changes; any other number, and a value out of range, raises the illegal-operand fault, a poisoned t or
`seq.csel` the poison fault. -/
def Obligations.ControlWrites : Prop :=
  ∀ (g : Guard) (src : Src) (s : State) (x : Val), Moves (.seqCsrw g src) g src s x →
    let s1 := markGuard s g src
    let t := x.scalar
    let n := (getOpS (arch s) .seqCsel).v.toNat % 4096
    let c := (arch s).csr
    let bad (k : Nat) : Prop := exec (.seqCsrw g src) s = .next (raise s1 (.seqCsrw g src) k)
    let sets (d : Csrs) : Prop := exec (.seqCsrw g src) s = .next (setArch s1 { arch s1 with csr := d })
    (t.p = true ∨ (getOpS (arch s) .seqCsel).p = true → bad cPoison) ∧
    (t.p = false → (getOpS (arch s) .seqCsel).p = false →
      (n = 0x020 → t.v.toNat < 8192 → sets { c with uiv := BitVec.ofNat 13 t.v.toNat }) ∧
      (n = 0x022 → t.v.toNat < 8192 → sets { c with uepc := BitVec.ofNat 13 t.v.toNat }) ∧
      (n = 0x024 → sets { c with uie := t.v.getLsbD 0 }) ∧
      (n = 0x030 → sets { c with sbchk := t.v.getLsbD 0 }) ∧
      (n = 0x031 → t.v.toNat ≤ 12288 → sets { c with acchw := BitVec.ofNat 14 t.v.toNat }) ∧
      ((n = 0x020 ∨ n = 0x022) → 8192 ≤ t.v.toNat → bad cOperand) ∧
      (n = 0x031 → 12288 < t.v.toNat → bad cOperand) ∧
      (n ∉ [0x020, 0x022, 0x024, 0x030, 0x031] → bad cOperand))

/-! The vector unit. -/

namespace Sys2Proof.Claims

/-- The union of the taints and the OR of the poisons of the values an operation reads (R123). -/
def taintOf (l : List VVal) : TSet := l.foldr (fun x e => x.t ||| e) 0
def poisonOf (l : List VVal) : Bool := l.any (fun x => x.p)

/-- The slot delivers to `vu.r` at a latency a vector whose lane j is `f j`, with the taint and poison of the values read, and does
nothing else but the last-read mark. -/
def vecResult (i : Instr) (g : Guard) (src : Src) (s : State) (lat : Nat) (reads : List VVal) (f : Nat → Lane) : Prop :=
  ∃ t v, exec i s = .next t ∧ (∀ j, j < 64 → laneOf v j = f j) ∧
    delivers (markGuard s g src) (shortDue s .vuR lat { v := v, t := taintOf reads, p := poisonOf reads }) t

/-- The slot delivers a 64-bit word to a port, as `vecResult`. -/
def wordResult (i : Instr) (g : Guard) (src : Src) (s : State) (port : PortId) (lat : Nat) (reads : List VVal) (w : Word) : Prop :=
  ∃ t, exec i s = .next t ∧
    delivers (markGuard s g src) (shortDue s port lat { v := w.setWidth 2048, t := taintOf reads, p := poisonOf reads }) t

def vuA (s : State) : VVal := getOp (arch s) .vuA
def vuB (s : State) : VVal := getOp (arch s) .vuB
def vuK (s : State) : VVal := getOp (arch s) .vuK

/-- Bits [lo+n-1:lo] of a lane replaced by the low `n` bits of `c`. -/
def insertAt (a : Lane) (lo n c : Nat) : Lane :=
  BitVec.ofNat 32 (a.toNat / 2 ^ (lo + n) * 2 ^ (lo + n) + c % 2 ^ n * 2 ^ lo + a.toNat % 2 ^ lo)

/-- Bits [lo+n-1:lo] of a lane. -/
def fieldAt (t : Lane) (lo n : Nat) : Nat := t.toNat / 2 ^ lo % 2 ^ n

/-- Operations on a_i and t_i: latency, lane result (R126, R128). -/
def lanesInt : List ((Guard → Src → Instr) × Nat × (Lane → Lane → Lane)) :=
  [(.vuAddI, 2, fun a t => BitVec.ofNat 32 (a.toNat + t.toNat)),
   (.vuSubI, 2, fun a t => BitVec.ofInt 32 ((a.toNat : Int) - t.toNat)),
   (.vuMulI, 3, fun a t => BitVec.ofNat 32 (a.toNat * t.toNat)),
   (.vuMaxI, 2, fun a t => BitVec.ofInt 32 (max a.toInt t.toInt)),
   (.vuMinI, 2, fun a t => BitVec.ofInt 32 (min a.toInt t.toInt)),
   (.vuMaxuI, 2, fun a t => BitVec.ofNat 32 (max a.toNat t.toNat)),
   (.vuMinuI, 2, fun a t => BitVec.ofNat 32 (min a.toNat t.toNat)),
   (.vuAnd, 2, fun a t => a &&& t), (.vuOr, 2, fun a t => a ||| t), (.vuXor, 2, fun a t => a ^^^ t),
   (.vuShl, 2, fun a t => BitVec.ofNat 32 (a.toNat * 2 ^ (t.toNat % 32))),
   (.vuShr, 2, fun a t => BitVec.ofNat 32 (a.toNat / 2 ^ (t.toNat % 32))),
   (.vuSar, 2, fun a t => BitVec.ofInt 32 (a.toInt / 2 ^ (t.toNat % 32)))]

def lanesFloat : List ((Guard → Src → Instr) × Nat × (Lane → Lane → Lane)) :=
  [(.vuAddF, 2, addF), (.vuSubF, 2, subF), (.vuMulF, 3, mulF), (.vuMaxF, 2, maxF), (.vuMinF, 2, minF)]

def lanesFused : List ((Guard → Src → Instr) × (Lane → Lane → Lane → Lane)) := [(.vuFmaF, fmaF), (.vuFmsF, fmsF)]

/-- Operations on t_i alone (R126, R131). -/
def lanesOne : List ((Guard → Src → Instr) × Nat × (Lane → Lane)) :=
  [(.vuAbsF, 2, absF), (.vuExp2, 6, exp2F), (.vuRcp, 6, rcpF), (.vuRsqrt, 6, rsqrtF)]

/-- The compares: the bit of lane i on a_i and t_i (R127, R129). -/
def laneCompares : List ((Guard → Src → Instr) × (Lane → Lane → Bool)) :=
  [(.vuCmpeqF, eqF), (.vuCmpltF, ltF), (.vuCmpleF, leF), (.vuCmpeqI, fun a t => decide (a = t)),
   (.vuCmpltI, fun a t => decide (a.toInt < t.toInt)), (.vuCmpltuI, fun a t => decide (a.toNat < t.toNat))]

/-- The insertions of R137 that read a and t: position, width, narrowing. -/
def insertions : List ((Guard → Src → Instr) × Nat × Nat × (Lane → Nat)) :=
  [(.vuInsE40, 0, 8, toE4m3), (.vuInsE41, 8, 8, toE4m3), (.vuInsE42, 16, 8, toE4m3), (.vuInsE43, 24, 8, toE4m3),
   (.vuInsQ80, 0, 8, fun t => toIntF t 8 false), (.vuInsQ81, 8, 8, fun t => toIntF t 8 false),
   (.vuInsQ82, 16, 8, fun t => toIntF t 8 false), (.vuInsQ83, 24, 8, fun t => toIntF t 8 false),
   (.vuInsH0, 0, 16, toBf16), (.vuInsH1, 16, 16, toBf16)]

/-- The pair insertions: position. -/
def pairInsertions : List ((Guard → Src → Instr) × Nat) :=
  [(.vuInsQ4x0, 0), (.vuInsQ4x1, 8), (.vuInsQ4x2, 16), (.vuInsQ4x3, 24)]

/-- The conversions and extractions of R136 and R137, on t_i. -/
def conversions : List ((Guard → Src → Instr) × (Lane → Lane)) :=
  [(.vuCvtFI, cvtFI), (.vuCvtIF, fun t => BitVec.ofNat 32 (toIntF t 32 false)), (.vuCvtIFZ, fun t => BitVec.ofNat 32 (toIntF t 32 true)),
   (.vuExtE40, fun t => ofE4m3 (fieldAt t 0 8)), (.vuExtE41, fun t => ofE4m3 (fieldAt t 8 8)),
   (.vuExtE42, fun t => ofE4m3 (fieldAt t 16 8)), (.vuExtE43, fun t => ofE4m3 (fieldAt t 24 8)),
   (.vuExtQ80, fun t => ofInt (signExtNat (fieldAt t 0 8) 8)), (.vuExtQ81, fun t => ofInt (signExtNat (fieldAt t 8 8) 8)),
   (.vuExtQ82, fun t => ofInt (signExtNat (fieldAt t 16 8) 8)), (.vuExtQ83, fun t => ofInt (signExtNat (fieldAt t 24 8) 8)),
   (.vuExtQ4x0, fun t => ofInt (decodeQ4x (fieldAt t 0 8)).1), (.vuExtQ4x1, fun t => ofInt (decodeQ4x (fieldAt t 0 8)).2),
   (.vuExtQ4x2, fun t => ofInt (decodeQ4x (fieldAt t 8 8)).1), (.vuExtQ4x3, fun t => ofInt (decodeQ4x (fieldAt t 8 8)).2),
   (.vuExtQ4x4, fun t => ofInt (decodeQ4x (fieldAt t 16 8)).1), (.vuExtQ4x5, fun t => ofInt (decodeQ4x (fieldAt t 16 8)).2),
   (.vuExtQ4x6, fun t => ofInt (decodeQ4x (fieldAt t 24 8)).1), (.vuExtQ4x7, fun t => ofInt (decodeQ4x (fieldAt t 24 8)).2),
   (.vuExtH0, fun t => ofBf16 (fieldAt t 0 16)), (.vuExtH1, fun t => ofBf16 (fieldAt t 16 16))]

/-- The pairwise tree of R132 over 2^n values from number `i`. -/
def treeOf {α : Type} (op : α → α → α) (x : Nat → α) : Nat → Nat → α
  | 0, i => x i
  | n + 1, i => op (treeOf op x n i) (treeOf op x n (i + 2 ^ n))

/-- The lanes whose bit of a mask is set, in lane order. -/
def maskLanesOf (k : VVal) : List Nat := (List.range 64).filter (fun i => (vecToWord k.v).getLsbD i)

end Sys2Proof.Claims

/-- The integer operations of `vu` (R128, R130), lane by lane modulo 2^32: sums, products, signed and unsigned choices, bitwise
operations, shifts by t_i[4:0], and `dot4`. -/
def Obligations.VectorIntegers : Prop :=
  (∀ r ∈ lanesInt, ∀ g src s x, Moves (r.1 g src) g src s x →
    vecResult (r.1 g src) g src s r.2.1 [vuA s, x.broadcast] (fun j => r.2.2 (laneOf (vuA s).v j) (laneOf x.broadcast.v j))) ∧
  (∀ g src s x, Moves (.vuDot4 g src) g src s x →
    vecResult (.vuDot4 g src) g src s 4 [vuA s, vuB s, x.broadcast] (fun j =>
      BitVec.ofInt 32 ((laneOf x.broadcast.v j).toInt + ((List.range 4).map (fun b =>
        signExtNat (fieldAt (laneOf (vuA s).v j) (8 * b) 8) 8 * signExtNat (fieldAt (laneOf (vuB s).v j) (8 * b) 8) 8)).sum)))

/-- The floating-point operations of `vu` (R126, R131), lane by lane, at the latencies of R76, with the taint and poison of the
operands that R126 lists. -/
def Obligations.VectorFloats : Prop :=
  (∀ r ∈ lanesFloat, ∀ g src s x, Moves (r.1 g src) g src s x →
    vecResult (r.1 g src) g src s r.2.1 [vuA s, x.broadcast] (fun j => r.2.2 (laneOf (vuA s).v j) (laneOf x.broadcast.v j))) ∧
  (∀ r ∈ lanesFused, ∀ g src s x, Moves (r.1 g src) g src s x →
    vecResult (r.1 g src) g src s 4 [vuA s, vuB s, x.broadcast]
      (fun j => r.2 (laneOf (vuA s).v j) (laneOf (vuB s).v j) (laneOf x.broadcast.v j))) ∧
  (∀ r ∈ lanesOne, ∀ g src s x, Moves (r.1 g src) g src s x →
    vecResult (r.1 g src) g src s r.2.1 [x.broadcast] (fun j => r.2.2 (laneOf x.broadcast.v j)))

/-- The compares of `vu` (R127, R129): `vu.mr` receives at 2 cycles a mask whose bit i is the compare of a_i and t_i. -/
def Obligations.VectorCompares : Prop :=
  ∀ r ∈ laneCompares, ∀ g src s x, Moves (r.1 g src) g src s x →
    ∃ w : Word, (∀ j, j < 64 → w.getLsbD j = r.2 (laneOf (vuA s).v j) (laneOf x.broadcast.v j)) ∧
      wordResult (r.1 g src) g src s .vuMr 2 [vuA s, x.broadcast] w

/-- The reductions and the scan of `vu` (R132, R133): the fixed tree for `redadd.f` and `redmax.f`, the exact sum, the signed maximum and
minimum for the integers, and the running sums from lane 0 of `vu.a`. -/
def Obligations.VectorReductions : Prop :=
  ∀ g src s x,
    let t := x.broadcast
    let ints := (List.range 64).map (fun j => (laneOf t.v j).toInt)
    (Moves (.vuRedaddF g src) g src s x →
      wordResult (.vuRedaddF g src) g src s .vuSr 5 [t] (BitVec.ofNat 64 (treeOf addF (laneOf t.v) 6 0).toNat)) ∧
    (Moves (.vuRedmaxF g src) g src s x →
      wordResult (.vuRedmaxF g src) g src s .vuSr 5 [t] (BitVec.ofNat 64 (treeOf maxF (laneOf t.v) 6 0).toNat)) ∧
    (Moves (.vuRedaddI g src) g src s x → wordResult (.vuRedaddI g src) g src s .vuSr 5 [t] (BitVec.ofInt 64 ints.sum)) ∧
    (Moves (.vuRedmaxI g src) g src s x →
      wordResult (.vuRedmaxI g src) g src s .vuSr 5 [t] (BitVec.ofInt 64 (ints.foldl max (laneOf t.v 0).toInt))) ∧
    (Moves (.vuRedminI g src) g src s x →
      wordResult (.vuRedminI g src) g src s .vuSr 5 [t] (BitVec.ofInt 64 (ints.foldl min (laneOf t.v 0).toInt))) ∧
    (Moves (.vuScanI g src) g src s x →
      vecResult (.vuScanI g src) g src s 5 [vuA s, t] (fun i => BitVec.ofNat 32 ((laneOf (vuA s).v 0).toNat +
        ((List.range (i + 1)).map (fun j => (laneOf t.v j).toNat)).sum)))

/-- The permutes and selections of `vu` (R134, R135). -/
def Obligations.VectorPermutes : Prop :=
  ∀ g src s x,
    let t := x.broadcast
    let a := vuA s
    let k := vuK s
    (Moves (.vuPerm g src) g src s x → vecResult (.vuPerm g src) g src s 3 [a, t]
      (fun i => if (laneOf t.v i).toNat < 64 then laneOf a.v (laneOf t.v i).toNat else 0)) ∧
    (Moves (.vuRot g src) g src s x → vecResult (.vuRot g src) g src s 3 [a, t]
      (fun i => laneOf a.v ((i + (laneOf t.v 0).toNat % 64) % 64))) ∧
    (Moves (.vuBcast g src) g src s x → vecResult (.vuBcast g src) g src s 3 [a, t] (fun _ => laneOf a.v ((laneOf t.v 0).toNat % 64))) ∧
    (Moves (.vuSel g src) g src s x → vecResult (.vuSel g src) g src s 2 [a, k, t]
      (fun i => if (vecToWord k.v).getLsbD i then laneOf t.v i else laneOf a.v i)) ∧
    (Moves (.vuIota g src) g src s x → vecResult (.vuIota g src) g src s 2 [t]
      (fun i => BitVec.ofNat 32 ((laneOf t.v 0).toNat + i))) ∧
    (Moves (.vuExpand g src) g src s x → vecResult (.vuExpand g src) g src s 3 [a, k, t]
      (fun i => if (vecToWord k.v).getLsbD i then laneOf t.v ((List.range i).countP (fun j => (vecToWord k.v).getLsbD j))
        else laneOf a.v i)) ∧
    (Moves (.vuCompress g src) g src s x → ∃ u v, exec (.vuCompress g src) s = .next u ∧
      (∀ j, j < 64 → laneOf v j = match (maskLanesOf k)[j]? with | some i => laneOf t.v i | none => 0) ∧
      onlyArch (markGuard s g src)
        { arch (markGuard s g src) with due := (arch s).due ++
            [shortDue s .vuR 3 { v := v, t := taintOf [k, t], p := poisonOf [k, t] },
             shortDue s .vuSr 3 { v := BitVec.ofNat 2048 (maskLanesOf k).length, t := k.t, p := k.p }] } u)

/-- The conversions, insertions and extractions of `vu` (R136 to R138): an insertion replaces one field of a_i and keeps its other bits,
an extraction widens one field of t_i. -/
def Obligations.VectorConversions : Prop :=
  (∀ r ∈ conversions, ∀ g src s x, Moves (r.1 g src) g src s x →
    vecResult (r.1 g src) g src s 2 [x.broadcast] (fun j => r.2 (laneOf x.broadcast.v j))) ∧
  (∀ r ∈ insertions, ∀ g src s x, Moves (r.1 g src) g src s x →
    vecResult (r.1 g src) g src s 2 [vuA s, x.broadcast]
      (fun j => insertAt (laneOf (vuA s).v j) r.2.1 r.2.2.1 (r.2.2.2 (laneOf x.broadcast.v j)))) ∧
  (∀ r ∈ pairInsertions, ∀ g src s x, Moves (r.1 g src) g src s x →
    vecResult (r.1 g src) g src s 2 [vuA s, vuB s, x.broadcast]
      (fun j => insertAt (laneOf (vuA s).v j) r.2 8 (encodeQ4x (laneOf (vuB s).v j) (laneOf x.broadcast.v j))))

namespace Sys2Proof.Claims

/-- The value of a finite non-negative FP32 code, as m × 2^(e - 149) with natural m and e. -/
def codeValue (c : Nat) : Nat := if c / 2 ^ 23 = 0 then c % 2 ^ 23 else (2 ^ 23 + c % 2 ^ 23) * 2 ^ (c / 2 ^ 23 - 1)

/-- The distance of two naturals. -/
def gap (x y : Nat) : Nat := max x y - min x y

end Sys2Proof.Claims

/-- Rounding to nearest even (R125, R186): a magnitude of m × 2^-k units of 2^-149 rounds to a code at least as near as every other
finite code, an even one where two are equally near, and to the infinity's code exactly where it lies half a step above the greatest
finite value or more. -/
def Obligations.RoundsToNearest : Prop :=
  ∀ m k : Nat, 0 < m →
    let c := min (magCode m (-149 - (k : Int)) 23 (-149)) 0x7F800000
    (c < 0x7F800000 → ∀ d, d < 0x7F800000 → gap (codeValue c * 2 ^ k) m ≤ gap (codeValue d * 2 ^ k) m ∧
      (gap (codeValue c * 2 ^ k) m = gap (codeValue d * 2 ^ k) m → d ≠ c → c % 2 = 0)) ∧
    (c = 0x7F800000 ↔ (2 ^ 25 - 1) * 2 ^ (252 + k) ≤ m)

/-- `spush` and `spop` (R140 to R142): the lanes of the mask that find room join the queue named by lane 0 of `vu.b` in lane order with
t's poison, and `vu.sr` receives their number at 8 cycles with the taint of `vu.k`; a pop of at most 64 entries is entered for the end
of the period. A poisoned `vu.b` or `vu.k` of a push and a poisoned t of a pop raise the poison fault, a pop of more than 64 entries
the illegal-operand fault. At the end of the period the pops of a quad are applied in their order, each to what the ones before it left:
the entries leave the head of the queue, and a core that still runs receives them, due eight cycles after the pop issued, in `vu.r` from
lane 0 on, the other lanes 0, poisoned where one of them is, and in `vu.mr` a mask bit for each, both with the taint of t. -/
def Obligations.StreamQueues : Prop :=
  (∀ (s : State) (q : Nat) (p : Pop),
    let held := nthD (getQuad s q).streams p.stream []
    let es := held.take p.most
    ∃ v, (∀ j, j < 64 → laneOf v j = match es[j]? with | some e => e.1 | none => 0) ∧
      let u := applyPop q s p
      getQuad u q = { getQuad s q with streams := setNth (getQuad s q).streams p.stream (held.drop es.length) } ∧
      (∀ d, d ≠ q → getQuad u d = getQuad s d) ∧ (∀ c, c ≠ p.core → getCore u c = getCore s c) ∧ u.stash = s.stash ∧ u.far = s.far ∧
      (isLive (getCore s p.core) = false → u.cores = s.cores) ∧
      (isLive (getCore s p.core) = true → (getCore u p.core).arch = { (getCore s p.core).arch with due := (getCore s p.core).arch.due ++
        [{ port := .vuR, at_ := p.due, ord := p.ord, val := { v := v, t := p.t, p := es.any (·.2) }, short := true },
         { port := .vuMr, at_ := p.due, ord := p.ord,
           val := { v := wordToVec (BitVec.ofNat 64 (2 ^ es.length - 1)), t := p.t, p := false }, short := true }] })) ∧
  (∀ (s : State) (q : Nat) (x : Quad), s.quads = [(q, x)] → x.pops ≠ [] →
    applyPops s = x.pops.foldl (applyPop q) (modQuad s q (fun y => { y with pops := [] }))) ∧
  ∀ g src s x,
    let t := x.broadcast
    let s1 := markGuard s g src
    let q := s.cur / 4
    let n := (laneOf (vuB s).v 0).toNat % 4
    let held := nthD (getQuad s q).streams n []
    let new := ((maskLanesOf (vuK s)).map (laneOf t.v)).take (1024 - held.length)
    let d := (laneOf t.v 0).toNat
    (Moves (.vuSpush g src) g src s x →
      ((vuB s).p = true ∨ (vuK s).p = true → exec (.vuSpush g src) s = .next (raise s1 (.vuSpush g src) cPoison)) ∧
      ((vuB s).p = false → (vuK s).p = false → ∃ u, exec (.vuSpush g src) s = .next u ∧
        getQuad u q = { getQuad s q with streams := setNth (getQuad s q).streams n (held ++ new.map (fun l => (l, t.p))) } ∧
        arch u = { arch s1 with due := (arch s).due ++ [shortDue s .vuSr 8 { v := BitVec.ofNat 2048 new.length, t := (vuK s).t, p := false }] } ∧
        (∀ c, c ≠ s.cur → getCore u c = getCore s c) ∧ (∀ d, d ≠ q → getQuad u d = getQuad s d) ∧
        (∀ k, memRead u.stash k = memRead s.stash k) ∧ u.far = s.far)) ∧
    (Moves (.vuSpop g src) g src s x →
      (t.p = true → exec (.vuSpop g src) s = .next (raise s1 (.vuSpop g src) cPoison)) ∧
      (t.p = false → 64 < d / 4 % 128 → exec (.vuSpop g src) s = .next (raise s1 (.vuSpop g src) cOperand)) ∧
      (t.p = false → d / 4 % 128 ≤ 64 → ∃ u, exec (.vuSpop g src) s = .next u ∧
        getQuad u q = { getQuad s q with pops := (getQuad s q).pops ++
          [{ core := s.cur, stream := d % 4, most := d / 4 % 128, due := (arch s).csr.cyc + 8, ord := orderNo s (arch s), t := t.t }] } ∧
        arch u = arch s1 ∧ (∀ c, c ≠ s.cur → getCore u c = getCore s c) ∧ (∀ d, d ≠ q → getQuad u d = getQuad s d) ∧
        (∀ k, memRead u.stash k = memRead s.stash k) ∧ u.far = s.far))

/-! Memory access. -/

namespace Sys2Proof.Claims

/-- The effective address of a near access (R110). -/
def effective (x : AddrIn) (o : BitVec 6) (size : Nat) : Nat := (((x.a.v.toNat : Int) + o.toInt * size) % 2 ^ 64).toNat

/-- The quad of the running core. -/
def myQuad (s : State) : Nat := s.cur / 4

/-- The key of a byte of the running core's stash. -/
def stashByte (s : State) (a : Nat) : Nat := stashKey (myQuad s) a

/-- Every chunk of a range of stash addresses is temporary in quad `q`, and the range lies in the stash. -/
def tempIn (s : State) (q a n : Nat) : Prop :=
  a + n ≤ 4161536 ∧ ∀ k, a / 64 ≤ k → k ≤ (a + n - 1) / 64 → regionOf s q (64 * k) = .temp

/-- The same in the running core's quad. -/
def inTemp (s : State) (a n : Nat) : Prop := tempIn s (myQuad s) a n

/-- Every byte of a range of stash addresses of the running core's quad exists and lies in a region of the gang (R202, R206). -/
def assigned (s : State) (a n : Nat) : Prop :=
  a + n ≤ 4161536 ∧ ∀ k, a / 64 ≤ k → k ≤ (a + n - 1) / 64 → regionOf s (myQuad s) (64 * k) ≠ .unassigned

/-- Chunk `k` of the running core's quad, by its key, and its place in the stash. -/
def chunkAt (s : State) (k : Nat) : Nat := myQuad s * 65536 + k

/-- Chunk `k` of the running core's quad can be read as it stands by an access of effective taint `e` (R204, R230): it is temporary; or it
is mapped, no fill of it is under way, and it is D, or C and as new as the stamp register of every colour of `e`. -/
def readReady (s : State) (e : TSet) (k : Nat) : Prop :=
  regionOf s (myQuad s) (64 * k) = .temp ∨
    ∃ n w ch, regionOf s (myQuad s) (64 * k) = .mapped n w ∧ xferPending s 1 (chunkAt s k) = false ∧ getChunk s (chunkAt s k) = some ch ∧
      (ch.dirty = true ∨ ∀ i : Fin 16, e.getLsbD i.val = true → vget (arch s).order.st i ≤ ch.stamp)

/-- A range of stash addresses whose chunks are all so. -/
def readable (s : State) (e : TSet) (a n : Nat) : Prop :=
  a + n ≤ 4161536 ∧ ∀ k, a / 64 ≤ k → k ≤ (a + n - 1) / 64 → readReady s e k

/-- A quad may not write chunk `k` (R206): its window is read-only, its page read-only or stack-homed, or its gang leases the page
read-only. -/
def readOnlyChunk (s : State) (k : Nat) : Prop :=
  ∃ n w, regionOf s (myQuad s) (64 * k) = .mapped n w ∧
    let va := windowVa w (64 * k)
    let e := leafOf s w.ctx va
    (w.ro = true ∨ (leafV e = true ∧ (leafW e = false ∨ leafSh e = true)) ∨
      ∃ g, getGang s w.ctx = some g ∧ ∀ r ∈ g.lease, r.rw = true → ¬ (r.vpage ≤ va / 2097152 ∧ va / 2097152 < r.vpage + r.pages))

/-- No far access of the running bundle is under way. -/
def noFarBeside (s : State) : Prop := ∀ f ∈ (arch s).order.far, f.ord / 8 ≠ orderNo s (arch s) / 8

/-- Chunk `k` of the running core's quad can be written as it stands (R204, R206): it is temporary; or it is mapped, not protected, no fill
of it is under way, and it is D. -/
def writeReady (s : State) (k : Nat) : Prop :=
  regionOf s (myQuad s) (64 * k) = .temp ∨
    ∃ n w ch, regionOf s (myQuad s) (64 * k) = .mapped n w ∧ ¬ readOnlyChunk s k ∧ noFarBeside s ∧
      xferPending s 1 (chunkAt s k) = false ∧ getChunk s (chunkAt s k) = some ch ∧ ch.dirty = true

/-- Chunk `k` of the running core's quad is mapped to a line of this module that no held quad keeps, the chunk is not D and no fill of it
is under way, and the bucket has a token for the access that comes next. -/
def lineAt (s : State) (k : Nat) (l : Loc) : Prop :=
  (∃ n w, regionOf s (myQuad s) (64 * k) = .mapped n w ∧ chunkLoc s w (64 * k) = some l) ∧ l.peer = none ∧
    xferPending s 1 (chunkAt s k) = false ∧ (∀ ch, getChunk s (chunkAt s k) = some ch → ch.dirty = false) ∧
    (takeToken { s with uid := s.uid + 1 } s.cur s.uid).1 = true

/-- The address registers after the slot: a_j updated by R109 where U is set, every other as before. -/
def stepped (s : State) (u : Bool) (j : Fin 16) (x : AddrIn) (t : State) : Prop :=
  (∀ k, k ≠ j → vget (arch t).regs.a k = vget (arch s).regs.a k) ∧
    (u = false → vget (arch t).regs.a j = vget (arch s).regs.a j) ∧
    (u = true → ∀ w, addrUpdate x.a.v x.m.v = some w → (vget (arch t).regs.a j).val = { v := w, t := x.a.t ||| x.m.t, p := x.a.p || x.m.p })

/-- An anvil without the images of the stash that its operations keep (R152). -/
def anvilOf (a : Anvil) : Anvil := { a with queue := a.queue.map (fun o => { o with pre := [] }) }

/-- Every register but the address registers, every port, the control registers, the anvil but for such images, and the engine queues of
the running core are as before. -/
def sparesRegs (s t : State) : Prop :=
  (arch t).ops = (arch s).ops ∧ (arch t).res = (arch s).res ∧ (arch t).csr = (arch s).csr ∧ (arch t).seq = (arch s).seq ∧
    { (arch t).regs with a := (arch s).regs.a } = (arch s).regs ∧ (arch t).hdue = (arch s).hdue ∧
    anvilOf (arch t).anv = anvilOf (arch s).anv ∧ (arch t).q = (arch s).q ∧ (arch t).fences = (arch s).fences

/-- The same, and every other core is as before. -/
def sparesCores (s t : State) : Prop := (∀ c, c ≠ s.cur → getCore t c = getCore s c) ∧ sparesRegs s t

/-- A core without those images. -/
def withoutImages (x : Core) : Core := { x with arch := { x.arch with anv := anvilOf x.arch.anv } }

/-- `sparesRegs`, and every other core is as before but for such images: the anvils of the quad keep what a near store replaces. -/
def sparesStores (s t : State) : Prop :=
  (∀ c, c ≠ s.cur → withoutImages (getCore t c) = withoutImages (getCore s c)) ∧ sparesRegs s t

/-- No bank of the running core's quad has served another row in this period than the rows that these spans touch (R201). -/
def banksIdle (s : State) (spans : List (Nat × Nat)) : Prop := banksFree s (myQuad s) (spanRows spans) = true

/-- Every quad is as before, but for the rows that its banks have served. -/
def sparesQuads (s t : State) : Prop := ∀ q, { getQuad t q with served := [] } = { getQuad s q with served := [] }

/-- The faults of a gather or scatter on the addresses of its lanes (R119). -/
def laneFaults (s : State) (i : Instr) (at_ : Nat → Nat) : Prop :=
  (∀ n, n < 64 → at_ n % 4 ≠ 0 → (∀ k, k < n → at_ k % 4 = 0) → exec i s = .next (raiseWith s i cAlign (portDetail i) n)) ∧
  (∀ n, n < 64 → (∀ k, k < 64 → at_ k % 4 = 0) → ¬ assigned s (at_ n) 4 → (∀ k, k < n → assigned s (at_ k) 4) →
    exec i s = .next (raiseWith s i cNearBound (portDetail i) n))

/-- The near loads: size, alignment, latency (R81, R110). -/
def nearLoads : List ((Guard → Fin 16 → Bool → BitVec 6 → Instr) × Nat × Nat × Nat) :=
  [(.ldnB, 1, 1, 6), (.ldnH, 2, 2, 6), (.ldnW, 4, 4, 6), (.ldnD, 8, 8, 6), (.ldnV, 256, 32, 8)]

/-- The near stores without a tag: size, alignment. -/
def nearStores : List ((Guard → Fin 16 → Bool → BitVec 6 → Instr) × Nat × Nat) :=
  [(.stnB, 1, 1), (.stnH, 2, 2), (.stnW, 4, 4), (.stnD, 8, 8), (.stnV, 256, 32)]

/-- The byte a near store of `size` bytes puts at offset `i`, if it stores that byte: a vector only the lanes of the mask (R112). -/
def storedByte (s : State) (g : Guard) (size i : Nat) : Option Byte :=
  if i < size ∧ (size = 256 → (storeMask s g).getLsbD (i / 4) = true) then some ((addrData s).v.extractLsb' (8 * i) 8) else none

/-- The far loads and stores: size, alignment (R114). -/
def farLoads : List ((Guard → Fin 16 → Fin 16 → Bool → BitVec 2 → Instr) × Nat × Nat) :=
  [(.ldfW, 4, 4), (.ldfD, 8, 8), (.ldfV, 256, 64)]
def farStores : List ((Guard → Fin 16 → Fin 16 → Bool → BitVec 2 → Instr) × Nat × Nat) :=
  [(.stfW, 4, 4), (.stfD, 8, 8), (.stfV, 256, 64)]

/-- The conditions under which a far access through a handle executes (R79, R114). -/
def farOk (s : State) (k : Fin 16) (x : AddrIn) (size align : Nat) (writes : Bool) : Prop :=
  let h := vget (startArch s).regs.h k
  x.a.p = false ∧ x.a.v.toNat % align = 0 ∧ x.a.v.toNat + size ≤ 2 ^ 21 ∧ h.made = true ∧ h.valid = true ∧ h.revoked = false ∧
    (writes = true → h.wr = true) ∧ (fetchHandle s k).early = false

/-- The place of a far access (R114). -/
def farPlace (s : State) (k : Fin 16) (x : AddrIn) : Loc := handleLoc (vget (startArch s).regs.h k) x.a.v.toNat

/-- A line of the store buffer or of the released stores holds byte `b` for physical address `pa` of a place's module. -/
def buffered (o : Order) (l : Loc) (pa : Nat) (b : Byte) : Prop :=
  ∃ x ∈ o.sbuf ++ o.released, x.loc = { l with pa := pa / 64 * 64 } ∧ x.mask.getLsbD (pa % 64) = true ∧
    x.data.extractLsb' (8 * (pa % 64)) 8 = b

/-- The atomics: function number, new value (R117). -/
def atomics : List ((Guard → Fin 16 → Fin 16 → BitVec 3 → Instr) × Nat × (Word → Word → Word → Word)) :=
  [(.atomAdd, 0, fun old d _ => BitVec.ofNat 64 (old.toNat + d.toNat)), (.atomAnd, 1, fun old d _ => old &&& d),
   (.atomOr, 2, fun old d _ => old ||| d), (.atomXor, 3, fun old d _ => old ^^^ d),
   (.atomMin, 4, fun old d _ => BitVec.ofInt 64 (min old.toInt d.toInt)), (.atomMax, 5, fun old d _ => BitVec.ofInt 64 (max old.toInt d.toInt)),
   (.atomMinu, 6, fun old d _ => BitVec.ofNat 64 (min old.toNat d.toNat)),
   (.atomMaxu, 7, fun old d _ => BitVec.ofNat 64 (max old.toNat d.toNat)),
   (.atomXchg, 8, fun _ d _ => d), (.atomCas, 9, fun old d c => if old = c then d else old)]

end Sys2Proof.Claims

/-- The post-update (R109): linear, circular in a window, and reverse-carry; a modifier with bits above 48 set, or with both a window and
a width, is malformed. `aupd` completes by making it, and `aadd` by adding its signed constant; neither faults on a poisoned a_j
(R118), and `aupd` on a malformed modifier alone. A write of an address register changes its value, taint and poison, and nothing else. -/
def Obligations.AddressArithmetic : Prop :=
  (∀ a m : Word, let len : Nat := m.toNat / 2 ^ 22 % 2 ^ 22
    let w : Nat := m.toNat / 2 ^ 44 % 32
    let inc := signExtNat m.toNat 22
    (2 ^ 49 ≤ m.toNat → addrUpdate a m = none) ∧ (w ≠ 0 → len ≠ 0 → addrUpdate a m = none) ∧
    (m.toNat < 2 ^ 49 → w = 0 → len = 0 → addrUpdate a m = some (BitVec.ofInt 64 (a.toNat + inc))) ∧
    (m.toNat < 2 ^ 49 → w = 0 → len ≠ 0 → ∃ n : Nat, len ≤ 2 ^ n ∧ (∀ k, len ≤ 2 ^ k → n ≤ k) ∧ addrUpdate a m =
      some (BitVec.ofInt 64 (((a.toNat / 2 ^ n * 2 ^ n : Nat) : Int) + (((a.toNat % 2 ^ n : Nat) : Int) + inc) % (len : Int)))) ∧
    (m.toNat < 2 ^ 49 → w ≠ 0 → len = 0 → ∃ b, addrUpdate a m = some b ∧ b.toNat / 2 ^ w = a.toNat / 2 ^ w ∧
      bitReverse (b.toNat % 2 ^ w) w = (bitReverse (a.toNat % 2 ^ w) w + bitReverse (inc % (2 ^ w : Nat)).toNat w) % 2 ^ w)) ∧
  (∀ g j s x, Addresses (.aupd g j) g j true s x →
    (∀ w, addrUpdate x.a.v x.m.v = some w → exec (.aupd g j) s = .next (writeA s j { v := w, t := x.a.t ||| x.m.t, p := x.a.p || x.m.p })) ∧
    (addrUpdate x.a.v x.m.v = none → exec (.aupd g j) s = .next (raise s (.aupd g j) cModifier))) ∧
  (∀ g j n s x, Addresses (.aadd g j n) g j false s x →
    exec (.aadd g j n) s = .next (writeA s j { v := BitVec.ofInt 64 (x.a.v.toNat + n.toInt), t := x.a.t, p := x.a.p })) ∧
  (∀ (s : State) (j : Fin 16) (x : SVal),
    let r : SReg := { v := x.v, t := x.t, p := x.p, dead := (vget (arch s).regs.a j).dead }
    onlyArch s { arch s with regs := { (arch s).regs with a := vset (arch s).regs.a j r } } (writeA s j x))

/-- The near loads from chunks that can be read as they stand and whose banks are free (R81, R110, R111, R201, R204, R230): the bytes at
the effective address, little-endian and zero-extended, with a_j's taint and the poison of the bytes, due at the latency of R81; a_j
steps; no memory changes. A load of at most eight bytes whose chunk is I, or C and older than the stamp of a colour of its effective taint,
fills the chunk first (R204, R229, R230, R234): the chunk holds its line's bytes, as the home or the chunk that has the line in state D
gives them, and is C with a new stamp, which the stamp register of the colour follows; the result takes the colour too and is poisoned
when the line is. A load behind others that wait, or whose fill is under way, waits (R205, R221). The faults of a near load (R110, R121,
R206): a poisoned a_j, then a malformed modifier, then a misaligned address, then a range that leaves the stash or the gang's regions;
each without any effect of the load. That a new stamp is larger than every one before it is the model's choice (log entry 3), and the
banks that a fill takes are none (log entry 97). -/
def Obligations.NearReads : Prop :=
  (∀ r ∈ nearLoads, ∀ g j u o s x, Addresses (r.1 g j u o) g j u s x → modifierOk u x → x.a.p = false →
    effective x o r.2.1 % r.2.2.1 = 0 → readable s (accessTaint s x) (effective x o r.2.1) r.2.1 → (arch s).order.nearq = [] →
    banksIdle s [(effective x o r.2.1, r.2.1)] →
    ∃ t, exec (r.1 g j u o) s = .next t ∧
      (arch t).due = (arch s).due ++ [shortDue s (addrResult s) r.2.2.2
        { v := BitVec.ofNat 2048 (leNat (memReadN s.stash (stashByte s (effective x o r.2.1)) r.2.1)), t := x.a.t,
          p := stashBad s (myQuad s) (effective x o r.2.1) r.2.1 }] ∧
      stepped s u j x t ∧ sparesCores s t ∧ t.stash = s.stash ∧ t.far = s.far ∧ sparesQuads s t ∧ t.hub = s.hub ∧ t.edge = s.edge) ∧
  (∀ r ∈ nearLoads, r.2.1 ≤ 8 → ∀ g j u o s x l, Addresses (r.1 g j u o) g j u s x → modifierOk u x → x.a.p = false →
    let ea := effective x o r.2.1
    let k := ea / 64
    let line := readLine s (gangOf s s.cur) l.pa
    let colour := (startArch s).order.tcol
    ea % r.2.2.1 = 0 → ea + r.2.1 ≤ 4161536 → lineAt s k l → lineHeld s l = false → ¬ readReady s (accessTaint s x) k →
    (arch s).order.nearq = [] → memWf s.stash = true → banksIdle s [(ea, r.2.1)] →
    ∃ t n, exec (r.1 g j u o) s = .next t ∧ s.clock < n ∧
      (arch t).due = (arch s).due ++ [shortDue s (addrResult s) r.2.2.2
        { v := BitVec.ofNat 2048 (leNat ((line.1.drop (ea % 64)).take r.2.1)), t := x.a.t ||| (1#16 <<< colour.val), p := line.2 }] ∧
      getChunk t (chunkAt s k) = some { dirty := false, stamp := n, mask := 0 } ∧
      (∀ key, key ≠ chunkAt s k → getChunk t key = getChunk s key) ∧
      (∀ i, i < 64 → line.1[i]? = some (memRead t.stash (stashByte s (64 * k) + i))) ∧
      (∀ y, (y < stashByte s (64 * k) ∨ stashByte s (64 * k) + 64 ≤ y) → memRead t.stash y = memRead s.stash y) ∧
      (arch t).order.st = vset (arch s).order.st colour (max (vget (arch s).order.st colour) n) ∧
      stepped s u j x t ∧ sparesCores s t ∧ t.far = s.far ∧ t.hub = s.hub) ∧
  (∀ r ∈ nearLoads, ∀ g j u o s x, Addresses (r.1 g j u o) g j u s x → modifierOk u x → x.a.p = false →
    let ea := effective x o r.2.1
    ea % r.2.2.1 = 0 → assigned s ea r.2.1 →
    ((arch s).order.nearq ≠ [] ∨
      (r.2.1 ≤ 8 ∧ xferPending s 1 (chunkAt s (ea / 64)) = true ∧ ∃ n w, regionOf s (myQuad s) (64 * (ea / 64)) = .mapped n w)) →
    ∃ t op, exec (r.1 g j u o) s = .next t ∧ (arch t).order.nearq = (arch s).order.nearq ++ [op] ∧ op.spans = [(ea, r.2.1)] ∧
      op.writes = [] ∧ op.kind = .load ∧ op.port = addrResult s ∧ op.due = (arch s).csr.cyc + r.2.2.2 ∧ op.taint = x.a.t ∧
      (arch t).due = (arch s).due ∧ stepped s u j x t ∧ sparesCores s t ∧ t.stash = s.stash ∧ t.far = s.far) ∧
  (∀ r ∈ nearLoads, ∀ g j u o s x, Addresses (r.1 g j u o) g j u s x →
    let i := r.1 g j u o
    (x.a.p = true → exec i s = .next (raise s i cPoison)) ∧
    (x.a.p = false → ¬ modifierOk u x → exec i s = .next (raise s i cModifier)) ∧
    (x.a.p = false → modifierOk u x → effective x o r.2.1 % r.2.2.1 ≠ 0 → exec i s = .next (raise s i cAlign)) ∧
    (x.a.p = false → modifierOk u x → effective x o r.2.1 % r.2.2.1 = 0 → ¬ assigned s (effective x o r.2.1) r.2.1 →
      exec i s = .next (raise s i cNearBound)))

/-- The near stores to chunks that can be written as they stand and whose banks are free (R110, R112, R201, R203): the stored bytes read
as the data's bytes and are marked in the masks of their D chunks, every other byte of every stash and all of far memory read as before;
a_j steps; no register else changes and no result is put in flight. A store of at most eight bytes to a chunk that is not D registers the
line first (R204): the chunk holds the stored bytes and the line's others, only the stored ones are marked, the chunk is D with a new
stamp and the home's directory names it. A store behind others that wait, waits (R221). The faults of a near store (R110, R121, R206): a
poisoned a_j or data, a malformed modifier, a misaligned address, a range that leaves the stash or the gang's regions, a byte to store in
a protected chunk, in that order. That a new stamp is larger than every one before it is the model's choice (log entry 3). -/
def Obligations.NearStores : Prop :=
  (∀ r ∈ nearStores, ∀ g j u o s x, Addresses (r.1 g j u o) g j u s x → modifierOk u x → x.a.p = false → (addrData s).p = false →
    effective x o r.2.1 % r.2.2 = 0 → assigned s (effective x o r.2.1) r.2.1 →
    (∀ i b, storedByte s g r.2.1 i = some b → writeReady s ((effective x o r.2.1 + i) / 64)) →
    (arch s).order.nearq = [] → memWf s.stash = true →
    banksIdle s ((storeRuns (effective x o r.2.1) r.2.1 (addrData s).v (storeMask s g)).map (fun w => (w.1, w.2.length))) →
    ∃ t, exec (r.1 g j u o) s = .next t ∧
      (∀ i b, storedByte s g r.2.1 i = some b → memRead t.stash (stashByte s (effective x o r.2.1 + i)) = b) ∧
      (∀ k, (∀ i b, storedByte s g r.2.1 i = some b → k ≠ stashByte s (effective x o r.2.1 + i)) →
        memRead t.stash k = memRead s.stash k) ∧
      (∀ key ch, getChunk s key = some ch → ∃ m, getChunk t key = some { ch with mask := m } ∧ ∀ b, b < 64 →
        (m.getLsbD b = true ↔ ch.mask.getLsbD b = true ∨ (ch.dirty = true ∧ key / 65536 = myQuad s ∧
          ∃ i v, storedByte s g r.2.1 i = some v ∧ effective x o r.2.1 + i = 64 * (key % 65536) + b))) ∧
      (∀ p, memRead t.far p = memRead s.far p) ∧ stepped s u j x t ∧ sparesStores s t ∧ (arch t).due = (arch s).due) ∧
  (∀ r ∈ nearStores, r.2.1 ≤ 8 → ∀ g j u o s x l, Addresses (r.1 g j u o) g j u s x → modifierOk u x → x.a.p = false →
    (addrData s).p = false →
    let ea := effective x o r.2.1
    let k := ea / 64
    let line := readLine s (chunkGang s (chunkAt s k)) l.pa
    ea % r.2.2 = 0 → ea + r.2.1 ≤ 4161536 → lineAt s k l → registered s l.pa = none → evictedLine s l.pa = none →
    ¬ readOnlyChunk s k → noFarBeside s → (arch s).order.nearq = [] → memWf s.stash = true → banksIdle s [(ea, r.2.1)] →
    ∃ t ch, exec (r.1 g j u o) s = .next t ∧ getChunk t (chunkAt s k) = some ch ∧ ch.dirty = true ∧ s.clock < ch.stamp ∧
      registered t l.pa = some (chunkAt s k) ∧ (∀ key, key ≠ chunkAt s k → getChunk t key = getChunk s key) ∧
      (∀ i, i < 64 → let mine := ea % 64 ≤ i ∧ i < ea % 64 + r.2.1
        (ch.mask.getLsbD i = true ↔ mine) ∧
        (mine → memRead t.stash (stashByte s (64 * k) + i) = (addrData s).v.extractLsb' (8 * (i - ea % 64)) 8) ∧
        (¬ mine → line.1[i]? = some (memRead t.stash (stashByte s (64 * k) + i)))) ∧
      (∀ y, (y < stashByte s (64 * k) ∨ stashByte s (64 * k) + 64 ≤ y) → memRead t.stash y = memRead s.stash y) ∧
      t.far = s.far ∧ stepped s u j x t ∧ sparesStores s t ∧ (arch t).due = (arch s).due) ∧
  (∀ r ∈ nearStores, ∀ g j u o s x, Addresses (r.1 g j u o) g j u s x →
    let i := r.1 g j u o
    let ea := effective x o r.2.1
    let stops := ∃ n b, storedByte s g r.2.1 n = some b ∧ readOnlyChunk s ((ea + n) / 64)
    (x.a.p = true ∨ (addrData s).p = true → exec i s = .next (raise s i cPoison)) ∧
    (x.a.p = false → (addrData s).p = false →
      (¬ modifierOk u x → exec i s = .next (raise s i cModifier)) ∧
      (modifierOk u x → ea % r.2.2 ≠ 0 → exec i s = .next (raise s i cAlign)) ∧
      (modifierOk u x → ea % r.2.2 = 0 → ¬ assigned s ea r.2.1 → exec i s = .next (raise s i cNearBound)) ∧
      (modifierOk u x → ea % r.2.2 = 0 → assigned s ea r.2.1 → stops → exec i s = .next (raise s i cWriteProtect)) ∧
      (modifierOk u x → ea % r.2.2 = 0 → assigned s ea r.2.1 → ¬ stops → (arch s).order.nearq ≠ [] →
        ∃ t op, exec i s = .next t ∧ (arch t).order.nearq = (arch s).order.nearq ++ [op] ∧ op.spans = [] ∧
          op.writes = storeRuns ea r.2.1 (addrData s).v (storeMask s g) ∧ (arch t).due = (arch s).due ∧ stepped s u j x t ∧
          sparesCores s t ∧ t.stash = s.stash ∧ t.far = s.far)))

/-- The tagged store and load (R113): `stn.t` stores 8 bytes and a tag with the core, the data's taint and poison, poisoned data too; a
valid tag of the same core gives `ldn.t` its taint joined to a_j's and its poison, any other word loads as with `ldn.d`; each where the
bank is free (R201). Their faults (R110, R113, R121): a poisoned a_j, a malformed modifier, a misaligned address, a range that leaves the
stash or the gang's regions, a mapped chunk, in that order. -/
def Obligations.TaggedWords : Prop :=
  (∀ g j u o s x, Addresses (.stnT g j u o) g j u s x → modifierOk u x → x.a.p = false → effective x o 8 % 8 = 0 →
    inTemp s (effective x o 8) 8 → (arch s).order.nearq = [] → memWf s.stash = true → banksIdle s [(effective x o 8, 8)] →
    ∃ t, exec (.stnT g j u o) s = .next t ∧
      (∀ i, i < 8 → memRead t.stash (stashByte s (effective x o 8 + i)) = (addrData s).v.extractLsb' (8 * i) 8) ∧
      (∀ k, (k < stashByte s (effective x o 8) ∨ stashByte s (effective x o 8) + 8 ≤ k) → memRead t.stash k = memRead s.stash k) ∧
      t.tags.find? (fun e => e.1 = stashByte s (effective x o 8)) =
        some (stashByte s (effective x o 8), { core := s.cur, t := (addrData s).t, p := (addrData s).p }) ∧
      stepped s u j x t ∧ sparesStores s t ∧ t.far = s.far) ∧
  (∀ g j u o s x, Addresses (.ldnT g j u o) g j u s x → modifierOk u x → x.a.p = false → effective x o 8 % 8 = 0 →
    inTemp s (effective x o 8) 8 → (arch s).order.nearq = [] → banksIdle s [(effective x o 8, 8)] →
    let plain : VVal :=
      { v := BitVec.ofNat 2048 (leNat (memReadN s.stash (stashByte s (effective x o 8)) 8)), t := x.a.t,
        p := stashBad s (myQuad s) (effective x o 8) 8 }
    ∃ t, exec (.ldnT g j u o) s = .next t ∧ stepped s u j x t ∧ sparesCores s t ∧ t.stash = s.stash ∧ t.far = s.far ∧
      (arch t).due = (arch s).due ++ [shortDue s (addrResult s) 6
        (match s.tags.find? (fun e => e.1 = stashByte s (effective x o 8)) with
          | some (_, tag) => if tag.core = s.cur then { plain with t := x.a.t ||| tag.t, p := tag.p } else plain
          | none => plain)]) ∧
  (∀ f ∈ ([.stnT, .ldnT] : List (Guard → Fin 16 → Bool → BitVec 6 → Instr)), ∀ g j u o s x, Addresses (f g j u o) g j u s x →
    let i := f g j u o
    let ea := effective x o 8
    (x.a.p = true → exec i s = .next (raise s i cPoison)) ∧
    (x.a.p = false → ¬ modifierOk u x → exec i s = .next (raise s i cModifier)) ∧
    (x.a.p = false → modifierOk u x → ea % 8 ≠ 0 → exec i s = .next (raise s i cAlign)) ∧
    (x.a.p = false → modifierOk u x → ea % 8 = 0 → ¬ assigned s ea 8 → exec i s = .next (raise s i cNearBound)) ∧
    (x.a.p = false → modifierOk u x → ea % 8 = 0 → spanAssigned s (myQuad s) ea 8 = true →
      (∃ n w, regionOf s (myQuad s) ea = .mapped n w) → exec i s = .next (raise s i cMapping)))

/-- The gather and the scatter over chunks that can be read or written as they stand and whose banks are free (R119, R201, R204): lane i is
the word at ea + 4 × index_i, without a modulus; the gather delivers the 64 words at 12 cycles, the scatter writes the lanes of the mask in
lane order, so that of lanes that name one word the highest remains. A poisoned a_j, index or data, then a malformed modifier, faults
(R121); then a lane that fails alignment, then one beyond the stash or the gang's regions, then one of a scatter in a protected chunk
(R206), the lowest one named in `uinfo`. -/
def Obligations.GatherScatter : Prop :=
  (∀ g j u o s x, Addresses (.ldnGv g j u o) g j u s x →
    (x.a.p = true ∨ (addrSecond s).p = true → exec (.ldnGv g j u o) s = .next (raise s (.ldnGv g j u o) cPoison)) ∧
    (x.a.p = false → (addrSecond s).p = false → ¬ modifierOk u x →
      exec (.ldnGv g j u o) s = .next (raise s (.ldnGv g j u o) cModifier))) ∧
  (∀ g j u o s x, Addresses (.stnSv g j u o) g j u s x →
    (x.a.p = true ∨ (addrSecond s).p = true ∨ (addrData s).p = true →
      exec (.stnSv g j u o) s = .next (raise s (.stnSv g j u o) cPoison)) ∧
    (x.a.p = false → (addrSecond s).p = false → (addrData s).p = false → ¬ modifierOk u x →
      exec (.stnSv g j u o) s = .next (raise s (.stnSv g j u o) cModifier))) ∧
  (∀ g j u o s x, Addresses (.ldnGv g j u o) g j u s x → modifierOk u x → x.a.p = false → (addrSecond s).p = false →
    let at_ (i : Nat) : Nat := effective x o 4 + 4 * (laneOf (addrSecond s).v i).toNat
    ((∀ i, i < 64 → at_ i % 4 = 0 ∧ readable s (accessTaint s x ||| (addrSecond s).t) (at_ i) 4) → (arch s).order.nearq = [] →
      banksIdle s ((List.range 64).map (fun i => (at_ i, 4))) →
      ∃ t v p, exec (.ldnGv g j u o) s = .next t ∧
        (∀ i, i < 64 → laneOf v i = BitVec.ofNat 32 (leNat (memReadN s.stash (stashByte s (at_ i)) 4))) ∧
        (arch t).due = (arch s).due ++ [shortDue s (addrResult s) 12 { v := v, t := x.a.t ||| (addrSecond s).t, p := p }] ∧
        stepped s u j x t ∧ sparesCores s t ∧ t.stash = s.stash ∧ t.far = s.far) ∧
    laneFaults s (.ldnGv g j u o) at_) ∧
  (∀ g j u o s x, Addresses (.stnSv g j u o) g j u s x → modifierOk u x → x.a.p = false → (addrSecond s).p = false →
    (addrData s).p = false →
    let at_ (i : Nat) : Nat := effective x o 4 + 4 * (laneOf (addrSecond s).v i).toNat
    ((∀ i, i < 64 → at_ i % 4 = 0 ∧ assigned s (at_ i) 4 ∧ ((storeMask s g).getLsbD i = true → writeReady s (at_ i / 64))) →
      (arch s).order.nearq = [] → memWf s.stash = true →
      banksIdle s (((List.range 64).filter (fun i => (storeMask s g).getLsbD i)).map (fun i => (at_ i, 4))) →
      ∃ t, exec (.stnSv g j u o) s = .next t ∧
        (∀ i b, i < 64 → b < 4 → (storeMask s g).getLsbD i = true →
          (∀ k, i < k → k < 64 → (storeMask s g).getLsbD k = true → at_ k ≠ at_ i) →
          memRead t.stash (stashByte s (at_ i + b)) = (addrData s).v.extractLsb' (32 * i + 8 * b) 8) ∧
        (∀ k, (∀ i b, i < 64 → b < 4 → (storeMask s g).getLsbD i = true → k ≠ stashByte s (at_ i + b)) →
          memRead t.stash k = memRead s.stash k) ∧
        stepped s u j x t ∧ sparesStores s t ∧ t.far = s.far ∧ (arch t).due = (arch s).due) ∧
    laneFaults s (.stnSv g j u o) at_ ∧
    (∀ n, n < 64 → (∀ k, k < 64 → at_ k % 4 = 0 ∧ assigned s (at_ k) 4) → (storeMask s g).getLsbD n = true → readOnlyChunk s (at_ n / 64) →
      (∀ k, k < n → (storeMask s g).getLsbD k = true → ¬ readOnlyChunk s (at_ k / 64)) →
      exec (.stnSv g j u o) s = .next (raiseWith s (.stnSv g j u o) cWriteProtect (portDetail (.stnSv g j u o)) n)))

/-- The far loads and `pf` (R114 to R116): the access through the handle joins the core's far accesses, due after the latency of its
class, with a_j's taint and the current colour; a_j steps; no memory changes. The core's own buffered bytes over a load's (R115) are
laid over what it reads when it arrives, which ResultDelivery states. `pf` through a handle that cannot be used, beyond the
frame, with a poisoned a_j or to a peer only steps a_j; that an offset is out of bound from 2^21 on is the model's choice (log entry
67). -/
def Obligations.FarLoads : Prop :=
  (∀ r ∈ farLoads, ∀ g j k u l s x, Addresses (r.1 g j k u l) g j u s x → modifierOk u x → farOk s k x r.2.1 r.2.2 false →
    ∃ t op, exec (r.1 g j k u l) s = .next t ∧ (arch t).order.far = (arch s).order.far ++ [op] ∧
      op.kind = .load ∧ op.port = addrResult s ∧ op.size = r.2.1 ∧
      op.due = (arch s).csr.cyc + (if l = 0 then 128 else if l = 1 then 512 else 3072) ∧
      op.taint = x.a.t ||| (1#16 <<< (startArch s).order.tcol.val) ∧ op.colour = (startArch s).order.tcol ∧
      (∀ i b, (i, b) ∈ op.overlay ↔ i < r.2.1 ∧ ∃ y ∈ (startArch s).order.sbuf, y.loc.peer = (farPlace s k x).peer ∧ ∃ m, m < 64 ∧
        y.mask.getLsbD m = true ∧ y.loc.pa + m = (farPlace s k x).pa + i ∧ b = y.data.extractLsb' (8 * m) 8) ∧
      op.parts.head?.map (·.loc) = some (farPlace s k x) ∧ (op.parts.map (·.len)).sum = r.2.1 ∧ op.parts.all (fun p => p.done.isNone) = true ∧
      (arch t).due = (arch s).due ∧ stepped s u j x t ∧ sparesCores s t ∧ t.stash = s.stash ∧ t.far = s.far) ∧
  (∀ g j k u l s x, Addresses (.pf g j k u l) g j u s x → modifierOk u x → (fetchHandle s k).early = false →
    let h := vget (startArch s).regs.h k
    ((h.made = false ∨ h.valid = false ∨ h.revoked = true ∨ 2 ^ 21 ≤ x.a.v.toNat ∨ x.a.p = true ∨ h.home = 2) →
      ∃ t, exec (.pf g j k u l) s = .next t ∧ stepped s u j x t ∧ sparesCores s t ∧ (arch t).order = (arch s).order ∧
        t.stash = s.stash ∧ t.far = s.far) ∧
    (h.made = true → h.valid = true → h.revoked = false → x.a.v.toNat < 2 ^ 21 → x.a.p = false → h.home ≠ 2 →
      ∃ t op, exec (.pf g j k u l) s = .next t ∧ (arch t).order.far = (arch s).order.far ++ [op] ∧ op.kind = .prefetch ∧
        op.parts.map (·.loc) = [{ farPlace s k x with pa := (farPlace s k x).pa / 64 * 64 }] ∧
        stepped s u j x t ∧ sparesCores s t ∧ t.stash = s.stash ∧ t.far = s.far))

/-- The far stores (R114, R115, R225): every byte the store makes stands in the store buffer, or among the released stores, at its
place; no memory changes yet; a_j steps. -/
def Obligations.FarStores : Prop :=
  ∀ r ∈ farStores, ∀ g j k u l s x, Addresses (r.1 g j k u l) g j u s x → modifierOk u x → farOk s k x r.2.1 r.2.2 true →
    (addrData s).p = false →
    ∃ t, exec (r.1 g j k u l) s = .next t ∧
      (∀ i b, storedByte s g r.2.1 i = some b → buffered (arch t).order (farPlace s k x) ((farPlace s k x).pa + i) b) ∧
      stepped s u j x t ∧ sparesCores s t ∧ (arch t).due = (arch s).due ∧ t.stash = s.stash ∧ t.far = s.far

/-- The faults of a far load and a far store (R114, R121): a poisoned a_j or data to store, a malformed modifier, alignment, handle bound,
handle validity, revocation, write protection, in that order; HREV is raised through a revoked handle. -/
def Obligations.FarFaults : Prop :=
  ∀ (store : Bool), ∀ r ∈ (if store then farStores else farLoads), ∀ g j k u l s x, Addresses (r.1 g j k u l) g j u s x →
    let i := r.1 g j k u l
    let h := vget (startArch s).regs.h k
    let off := x.a.v.toNat
    (x.a.p = true ∨ (store = true ∧ (addrData s).p = true) → exec i s = .next (raise s i cPoison)) ∧
    (x.a.p = false → (store = true → (addrData s).p = false) → (fetchHandle s k).early = false →
    (¬ modifierOk u x → exec i s = .next (raise s i cModifier)) ∧
    (modifierOk u x →
    (off % r.2.2 ≠ 0 → exec i s = .next (raise s i cAlign)) ∧
    (off % r.2.2 = 0 → 2 ^ 21 < off + r.2.1 → exec i s = .next (raise s i cHandleBound)) ∧
    (off % r.2.2 = 0 → off + r.2.1 ≤ 2 ^ 21 → (h.made = false ∨ h.valid = false) → exec i s = .next (raise s i cHandleInvalid)) ∧
    (off % r.2.2 = 0 → off + r.2.1 ≤ 2 ^ 21 → h.made = true → h.valid = true → h.revoked = true → exec i s = .next (raise s i cHrev)) ∧
    (store = true → off % r.2.2 = 0 → off + r.2.1 ≤ 2 ^ 21 → h.made = true → h.valid = true → h.revoked = false → h.wr = false →
      exec i s = .next (raise s i cWriteProtect))))

/-- The atomics (R117). At quad scope on a word whose chunk can be written as it stands and whose bank is free: the old value is delivered
at 12 cycles with a_j's taint, the word holds the new value, every other byte is as before, and a `cas` that does not match leaves the word
as it was. Through a handle, to a line homed within the scope: the atomic joins the core's far accesses, due after the latency of its
scope, after every buffered store, and is a commit event. The faults (R121): a poisoned a_j, data or comparand of a `cas`; at quad scope
alignment, a word outside the stash or the gang's regions, a protected chunk (R206); through a handle alignment, the handle's bound,
validity, revocation and write protection, and then the scope. -/
def Obligations.Atomics : Prop :=
  (∀ r ∈ atomics, ∀ g j k c s x, Addresses (r.1 g j k c) g j false s x →
    let i := r.1 g j k c
    let off := x.a.v.toNat
    let h := vget (startArch s).regs.h k
    let bad := x.a.p = true ∨ (addrData s).p = true ∨ (r.2.1 = 9 ∧ (addrSecond s).p = true)
    (bad → exec i s = .next (raise s i cPoison)) ∧
    (¬ bad → c = 2 → off % 8 ≠ 0 → exec i s = .next (raise s i cAlign)) ∧
    (¬ bad → c = 2 → off % 8 = 0 → ¬ assigned s off 8 → exec i s = .next (raise s i cNearBound)) ∧
    (¬ bad → c = 2 → off % 8 = 0 → assigned s off 8 → readOnlyChunk s (off / 64) → exec i s = .next (raise s i cWriteProtect)) ∧
    (¬ bad → c ≠ 2 → (fetchHandle s k).early = false →
      (off % 8 ≠ 0 → exec i s = .next (raise s i cAlign)) ∧
      (off % 8 = 0 → 2 ^ 21 < off + 8 → exec i s = .next (raise s i cHandleBound)) ∧
      (off % 8 = 0 → off + 8 ≤ 2 ^ 21 → (h.made = false ∨ h.valid = false) → exec i s = .next (raise s i cHandleInvalid)) ∧
      (off % 8 = 0 → off + 8 ≤ 2 ^ 21 → h.made = true → h.valid = true → h.revoked = true → exec i s = .next (raise s i cHrev)) ∧
      (off % 8 = 0 → off + 8 ≤ 2 ^ 21 → h.made = true → h.valid = true → h.revoked = false → h.wr = false →
        exec i s = .next (raise s i cWriteProtect)))) ∧
  ∀ r ∈ atomics, ∀ g j k c s x, Addresses (r.1 g j k c) g j false s x → x.a.p = false → (addrData s).p = false →
    (r.2.1 = 9 → (addrSecond s).p = false) →
    let d := vecToWord (addrData s).v
    let cw := vecToWord (addrSecond s).v
    (c = 2 → x.a.v.toNat % 8 = 0 → assigned s x.a.v.toNat 8 → writeReady s (x.a.v.toNat / 64) → (arch s).order.nearq = [] →
      memWf s.stash = true →
      banksIdle s [(x.a.v.toNat, 8)] →
      let old : Word := BitVec.ofNat 64 (leNat (memReadN s.stash (stashByte s x.a.v.toNat) 8))
      ∃ t, exec (r.1 g j k c) s = .next t ∧
        (arch t).due = (arch s).due ++ [shortDue s (addrResult s) 12
          { v := old.setWidth 2048, t := x.a.t, p := stashBad s (myQuad s) x.a.v.toNat 8 }] ∧
        memReadN t.stash (stashByte s x.a.v.toNat) 8 = leBytes (r.2.2 old d cw).toNat 8 ∧
        (∀ n, (n < stashByte s x.a.v.toNat ∨ stashByte s x.a.v.toNat + 8 ≤ n) → memRead t.stash n = memRead s.stash n) ∧
        sparesCores s t ∧ (arch t).regs = (arch s).regs ∧ t.far = s.far) ∧
    (c ≠ 2 → farOk s k x 8 8 true → atomInScope s.cur c.toNat (farPlace s k x) = true →
      ∃ t op, exec (r.1 g j k c) s = .next t ∧ (arch t).order.far = (arch s).order.far ++ [op] ∧
        op.kind = .atom r.2.1 d cw c.toNat ∧ op.port = addrResult s ∧ op.parts.map (·.loc) = [farPlace s k x] ∧
        op.due = (arch s).csr.cyc + (if c = 3 then 160 else if c = 4 then 256 else 3072) ∧
        op.after = ((arch s).order.sbuf ++ (arch s).order.released).map (·.ident) ∧
        (∀ y, s.issue = some y → t.issue = some { y with commit := true }) ∧
        (s.issue = none → (arch t).order.sbuf = [] ∧ (arch t).order.released = (arch s).order.released ++ (arch s).order.sbuf) ∧
        sparesCores s t ∧ (arch t).regs = (arch s).regs ∧ t.stash = s.stash ∧ t.far = s.far) ∧
    (c ≠ 2 → farOk s k x 8 8 true → atomInScope s.cur c.toNat (farPlace s k x) = false →
      exec (r.1 g j k c) s = .next (raise s (r.1 g j k c) cAtomicScope))
/-! The anvil. -/

namespace Sys2Proof.Claims

/-- The triggers of the anvil, what they queue, and the value they take (R71, R154, R155). -/
def anvilTriggers : List ((Guard → Src → Instr) × AnvKind × (Val → VVal)) :=
  [(.anvLdw, .ldw, Val.lanes), (.anvSwap, .swap, Val.lanes), (.anvRun, .run, Val.lanes), (.anvRunz, .runz, Val.lanes),
   (.anvRunv, .runv, Val.lanes), (.anvMpb, .mpb, Val.lanes), (.anvRd, .rd, Val.lanes), (.anvWr, .wr, Val.broadcast),
   (.anvClr, .clr, Val.lanes)]

/-- Only the anvil queue of the running core has changed, to `l`. -/
def queuesAnvil (s : State) (l : List AnvOp) (t : State) : Prop :=
  onlyArch s { arch s with anv := { (arch s).anv with queue := l } } t

/-- Row `r` of a core's accumulator store (R144, R155). -/
def accOf (s : State) (c r : Nat) : VVal := accRow (getCore s c).arch.anv r

/-- The cycle of a core's anvil: the core's, and what the anvil has run ahead before a full queue (log entry 70). -/
def anvilCycle (a : CoreArch) : Nat := a.csr.cyc + a.anv.slip

/-- The head of a core's anvil queue is `o`, started in cycle `st`, with `rest` behind it. -/
def headOp (s : State) (c : Nat) (o : AnvOp) (rest : List AnvOp) (st : Nat) : Prop :=
  (getCore s c).arch.anv.queue = o :: rest ∧ o.start = some st

/-- The cycle in which an operation started in cycle `st` is done. -/
def doneAt (s : State) (c : Nat) (o : AnvOp) (st : Nat) : Nat := st + anvLatency o (getCore s c).arch.anv.active.wfmt.toNat

/-- The same, its work done by the anvil's cycle. -/
def lastOp (s : State) (c : Nat) (o : AnvOp) (rest : List AnvOp) (st : Nat) : Prop :=
  headOp s c o rest st ∧ doneAt s c o st ≤ anvilCycle (getCore s c).arch

/-- The cycle in which a run writes its next row (R151). -/
def rowAt (s : State) (c : Nat) (o : AnvOp) (st : Nat) : Nat :=
  st + 16 + (o.rows + 1) * (if o.xfmt = 2 ∨ (getCore s c).arch.anv.active.wfmt = 3 then 4 else 1)

/-- The operation of a core has ended: its value is on the way to `anv.r`, due at its latency, and the next one has started when it was
done. -/
def endsWith (s t : State) (c : Nat) (o : AnvOp) (rest : List AnvOp) (st : Nat) (x : VVal) : Prop :=
  (getCore t c).arch.anv.queue =
      (match rest with | [] => [] | p :: ps => { p with start := some (doneAt s c o st) } :: ps) ∧
    (getCore t c).arch.due = (getCore s c).arch.due ++
      [{ port := .anvR, at_ := doneAt s c o st - (getCore s c).arch.anv.slip, ord := o.ord, val := x, short := false }]

/-- The bytes of a span of core `c`'s stash, and whether one is poisoned. -/
def spanOf (s : State) (c : Nat) (p : Nat × Nat) : List Byte := memReadN s.stash (stashKey (c / 4) p.1) p.2
def spanBad (s : State) (c : Nat) (p : Nat × Nat) : Bool := stashBad s (c / 4) p.1 p.2

/-- The weight buffer that `ldw` loads (R146, R149): the tile, the scales of the narrow formats, the poison of either. -/
def tileLoaded (s : State) (c : Nat) (o : AnvOp) : WeightBuf :=
  let tile := (o.waddr, if o.ldfmt = 3 then 8192 else 4096)
  let scales := (o.wsaddr, if o.ldfmt = 3 then 0 else if o.ldfmt = 2 then 512 else 256)
  { tile := bvOfBytes 65536 (spanOf s c tile), scales := bvOfBytes 4096 (spanOf s c scales), wfmt := BitVec.ofNat 2 o.ldfmt,
    waddr := BitVec.ofNat 22 o.waddr, wsaddr := BitVec.ofNat 22 o.wsaddr, poison := spanBad s c tile || spanBad s c scales, loaded := true }

/-- The mask block that `mpb` latches, and its CODE (R153): off with CODE 1 where a byte is poisoned, off with CODE 2 for mode 3 and for
a tree without a node or of more than 64. -/
def maskLoaded (s : State) (c : Nat) (o : AnvOp) : MaskBlock × Nat :=
  let block := (o.mpaddr, 576)
  let word (i : Nat) : Nat := leNat (((spanOf s c block).drop i).take 4)
  if spanBad s c block then (MaskBlock.off, 1)
  else if word 0 % 4 = 3 ∨ (word 0 % 4 = 2 ∧ (word 4 = 0 ∨ 64 < word 4)) then (MaskBlock.off, 2)
  else ({ mode := word 0 % 4, nodes := word 4, pfx := word 8, qorg := word 12, korg := word 16,
          bits := bvOfBytes 4096 ((spanOf s c block).drop 64) }, 0)

end Sys2Proof.Claims

/-- The anvil's triggers (R147, R154, R155): the first failing check is raised, a full queue holds the bundle, otherwise the operation
joins the queue with the values of its ports and of t; on an empty queue it starts in the issue cycle, `ldw` and `mpb` with their read.
`anv.prog` delivers at 2 cycles the progress as the cycle began. The model's choice (log entry 70): while a full queue holds its bundle
the anvil runs on ahead of its core, and its cycle is the core's with what it has run ahead. -/
def Obligations.AnvilTriggers : Prop :=
  (∀ r ∈ anvilTriggers, ∀ g src s x, Moves (r.1 g src) g src s x →
    let i := r.1 g src
    let s1 := markGuard s g src
    let o := anvOpOf s1 r.2.1 (r.2.2 x)
    let q := (arch s).anv.queue
    (∀ c, anvFault s1 o = some c → exec i s = .next (raise s1 i c)) ∧
    (anvFault s1 o = none → 8 ≤ q.length → exec i s = .next (holdAnvil s1)) ∧
    (anvFault s1 o = none → q.length < 8 → q ≠ [] → ∃ t, exec i s = .next t ∧ queuesAnvil s1 (q ++ [o]) t) ∧
    (anvFault s1 o = none → q = [] → r.2.1 ≠ .ldw → r.2.1 ≠ .mpb →
      ∃ t, exec i s = .next t ∧ queuesAnvil s1 [{ o with start := some (anvilCycle (arch s)) }] t) ∧
    (anvFault s1 o = none → q = [] → (r.2.1 = .ldw ∨ r.2.1 = .mpb) → (∀ p ∈ dataSpans o, inTemp s p.1 p.2) → (arch s).order.nearq = [] →
      ∃ t u, exec i s = .next t ∧ (arch t).anv.queue = [u] ∧ u.kind = o.kind ∧ u.start = some (anvilCycle (arch s)) ∧ u.read = true ∧
        (arch t).regs = (arch s1).regs ∧ (arch t).ops = (arch s).ops ∧ (arch t).due = (arch s).due ∧ t.stash = s.stash ∧ t.far = s.far)) ∧
  (∀ g src s x, Moves (.anvProg g src) g src s x → ∃ t, exec (.anvProg g src) s = .next t ∧
    delivers (markGuard s g src) (longDue s .anvR 2 { v := (progressWord (startArch (markGuard s g src))).setWidth 2048, t := 0, p := false }) t)

/-- The anvil's queue (R147, R149, R150, R153, R154), as the event of its core finds it. An operation that has its turn starts in the
present cycle. `ldw` and `mpb` read once started, from temporary chunks at once. An operation whose time has not come stays, a run while
its next row is not due. One that is done leaves the queue, the next starts in the cycle it was done, and the anvil goes on: `swap`
exchanges the buffers, `rd` and `runv` deliver a row, `wr` writes one, `clr` makes its rows +0, the others' effects are done; each
delivers once, `rd` and `runv` the row, the others their status, with CODE 1 for `run` and `runz` where the active buffer is poisoned.
The model's choices: `clr` writes at its end (log entry 71); the anvil's cycle may be ahead of its core's (log entry 70). -/
def Obligations.AnvilOperations : Prop :=
  ∀ (s : State) (c : Nat) (o : AnvOp) (rest : List AnvOp) (st : Nat),
    let v := (getCore s c).arch.anv
    let now := anvilCycle (getCore s c).arch
    let run (t : State) : Prop := exec (.anvilOperationStart c) s = .next t
    -- what is left of the step once an operation has ended in `t`
    let ends (t : State) (x : VVal) : Prop := run (anvilRun c 8 t) ∧ endsWith s t c o rest st x
    (v.queue = [] → run s ∧ ∀ n, anvilRun c n s = s) ∧
    (v.queue = o :: rest → o.start = none → o.kind ≠ .ldw → o.kind ≠ .mpb →
      run (modAnvOf s c (fun v => { v with queue := { o with start := some now } :: rest }))) ∧
    (headOp s c o rest st → (o.kind = .ldw ∨ o.kind = .mpb) → o.read = false → o.taken = [] → o.pre = [] →
      (getCore s c).arch.order.nearq = [] → (∀ p ∈ dataSpans o, tempIn s (c / 4) p.1 p.2) → now < doneAt s c o st →
      ∃ t u, run t ∧ (getCore t c).arch.anv.queue = u :: rest ∧ u.kind = o.kind ∧ u.start = some st ∧ u.read = true ∧
        (o.kind = .ldw → (getCore t c).arch.anv = { v with shadow := tileLoaded s c o, queue := u :: rest } ∧
          u.code = if (tileLoaded s c o).poison then 1 else 0) ∧
        (o.kind = .mpb → (getCore t c).arch.anv = { v with mask := (maskLoaded s c o).1, queue := u :: rest } ∧
          u.code = (maskLoaded s c o).2) ∧ t.stash = s.stash ∧ t.far = s.far) ∧
    (headOp s c o rest st → now < doneAt s c o st → isRun o.kind = false → (o.kind ≠ .ldw ∧ o.kind ≠ .mpb ∨ o.read = true) → run s) ∧
    (headOp s c o rest st → isRun o.kind = true → (o.rows < o.count ∧ now < rowAt s c o st ∨ o.count ≤ o.rows ∧ now < doneAt s c o st) →
      run s) ∧
    (lastOp s c o rest st → o.kind = .swap → ∃ t, ends t (anvStatus o) ∧
      (getCore t c).arch.anv.active = v.shadow ∧ (getCore t c).arch.anv.shadow = v.active ∧ (∀ r, accOf t c r = accOf s c r)) ∧
    (lastOp s c o rest st → o.kind = .rd → ∃ t, (∀ r, accOf t c r = accOf s c r) ∧
      ends t { accOf s c (o.trig.v.toNat % 16384) with t := (accOf s c (o.trig.v.toNat % 16384)).t ||| o.taint }) ∧
    (lastOp s c o rest st → o.kind = .wr → ∃ t, ends t (anvStatus o) ∧
      (∀ r, accOf t c r = if r = o.acc then { v := o.trig.v, t := o.taint, p := false } else accOf s c r)) ∧
    (lastOp s c o rest st → o.kind = .clr → ∃ t, ends t (anvStatus o) ∧
      (∀ r, accOf t c r = if o.acc ≤ r ∧ r < o.acc + o.n then VVal.zero else accOf s c r)) ∧
    (lastOp s c o rest st → (o.kind = .ldw ∨ o.kind = .mpb) → o.read = true → ∃ t, ends t (anvStatus o) ∧
      (getCore t c).arch.anv.shadow = v.shadow ∧ (getCore t c).arch.anv.mask = v.mask ∧ (∀ r, accOf t c r = accOf s c r)) ∧
    (lastOp s c o rest st → isRun o.kind = true → o.count ≤ o.rows → ∃ t, (∀ r, accOf t c r = accOf s c r) ∧
      ends t (if o.kind = .runv then accOf s c o.acc else anvStatus { o with code := if v.active.poison then 1 else o.code }))

/-- A row of a run (R151, R188 to R190): from temporary chunks as they stand, lane j of row ACC + r becomes the value of a masked element,
or the rounded sum of the row's exact products with column j of the active buffer over what the row held, +0 for `runz`; the row's
taint and poison are those of its sources. No other row changes, and no memory. Row r is read and written in the cycle
START + 16 + (r + 1) × q of the anvil, not before, and its operation then stands at row r + 1. The model's choice (log entry 18): a row
takes its data as they stand when it is written. -/
def Obligations.AnvilRows : Prop :=
  (∀ (s : State) (c : Nat) (o : AnvOp) (rest : List AnvOp) (st : Nat), headOp s c o rest st → isRun o.kind = true → o.rows < o.count →
    (∀ p ∈ rowSpans o (depthOf (getCore s c).arch.anv.active.wfmt.toNat) o.rows, tempIn s (c / 4) p.1 p.2) →
    (getCore s c).arch.order.nearq = [] →
    let now := anvilCycle (getCore s c).arch
    let row := runRow c { o with ready := true } o.rows s
    let after := setHead row.1 c { o with rows := o.rows + 1, code := row.2, got := [], ready := false }
    (now < rowAt s c o st → ∀ n, anvilRows c n s = s) ∧
    (rowAt s c o st ≤ now → ∀ n, anvilRows c (n + 1) s = anvilRows c n after) ∧
    (rowAt s c o st ≤ now → o.rows + 1 < o.count → now < rowAt s c { o with rows := o.rows + 1 } st →
      exec (.anvilOperationStart c) s = .next after)) ∧
  ∀ (s : State) (c : Nat) (o : AnvOp) (r : Nat), isRun o.kind = true → o.pre = [] → o.taken = [] →
    let v := (getCore s c).arch.anv
    let d := depthOf v.active.wfmt.toNat
    let q := c / 4
    let bytes (p : Nat × Nat) : List Byte := memReadN s.stash (stashKey q p.1) p.2
    let bad (p : Nat × Nat) : Bool := stashBad s q p.1 p.2
    let acts := (o.xaddr + r * o.xstride, (if o.xfmt = 2 then 2 else 1) * d)
    let scales := (o.saddr + 2 * (d / 32) * r, 2 * (d / 32))
    let sx := if o.xfmt = 2 then List.replicate (d / 32) (some dyOne) else bf16s (bytes scales)
    let old := accRow v (o.acc + r)
    let t := (runRow c o r s).1
    (∀ j, j < 64 → laneOf (accOf t c (o.acc + r)).v j =
      if o.masks = true ∧ masked v.mask r j = true then 0xFF7FFFFF#32
      else accRound (if o.kind = .runz then some Dy.zero else opBase (laneOf old.v j))
        (passSum (decide (o.xfmt = 2) || decide (v.active.wfmt = 3)) (actElems o.xfmt (bytes acts)) (colElems v.active j) sx (colScales v.active j))) ∧
    ((accOf t c (o.acc + r)).p = (v.active.poison || bad acts || (!decide (o.xfmt = 2) && bad scales) || (o.kind != .runz && old.p))) ∧
    (o.got = [] → (accOf t c (o.acc + r)).t = o.e ||| (if o.kind = .runz then 0 else old.t)) ∧
    (∀ k, k ≠ o.acc + r → accOf t c k = accOf s c k) ∧ t.stash = s.stash ∧ t.far = s.far ∧
    (getCore t c).arch.anv.active = v.active ∧ (getCore t c).arch.regs = (getCore s c).arch.regs

/-! The engines. -/

namespace Sys2Proof.Claims

/-- The triggers of engine commands (R78). -/
def commandTriggers : List ((Guard → Src → Instr) × EngOp) :=
  [(.engCopy, .copy), (.engCopyMc, .copyMc), (.engSmap, .smap), (.engSinv, .sinv), (.engSwb, .swb), (.engGather, .gather),
   (.engScatter, .scatter), (.engTopk, .topk), (.engSgemv, .sgemv), (.engSattn, .sattn), (.engSred, .sred), (.engCallred, .callred),
   (.engCbcast, .cbcast), (.engCreduce, .creduce), (.engKvapp, .kvapp), (.engKvcomp, .kvcomp), (.engPxlook, .pxlook),
   (.engPxins, .pxins), (.engPxrel, .pxrel)]

/-- Whether t or an operand port that a command reads is poisoned (R158). -/
def commandPoisoned (s : State) (op : EngOp) (t : SVal) : Bool :=
  t.p || (engPorts op t.v).any (fun o => (getOpS (arch s) o).p)

/-- The commands in queue `q` of the running core. -/
def queueOfCore (s : State) (q : Fin 5) : EngQueue := vget (arch s).q q

end Sys2Proof.Claims

/-- The triggers of engine commands (R158, R160): poison, then the first failing check of the command is raised; a read at issue that has
to wait and a full queue hold the bundle; otherwise the command joins its queue with the next sequence number, `eng.r` receives
the ticket two cycles later, a commit event is made, and a collective arrives on its channel. -/
def Obligations.EngineTriggers : Prop :=
  (∀ r ∈ commandTriggers, ∀ g src s x, Moves (r.1 g src) g src s x →
    let i := r.1 g src
    let s1 := markGuard s g src
    let cmd := makeCmd s1 r.2 x.scalar
    (commandPoisoned s r.2 x.scalar = true → exec i s = .next (raise s1 i cPoison)) ∧
    (commandPoisoned s r.2 x.scalar = false →
      (∀ k, issueOfOp s1 cmd = .bad k → exec i s = .next (raiseChk s1 i (rankChk (cmdEarly s1 cmd) k))) ∧
      (∀ l, issueOfOp s1 cmd = .await l → exec i s = .next (holdFor s1 l)) ∧
      (∀ c u, issueOfOp s1 cmd = .ok c u → 32 ≤ (queueOfCore s (queueOf r.2)).cmds.length → exec i s = .next (holdIssue s1)) ∧
      (∀ c u, issueOfOp s1 cmd = .ok c u → (queueOfCore s (queueOf r.2)).cmds.length < 32 →
        exec i s = .next (if isColl r.2 then arriveAt (enqueue u c) (collChan (enqueue u c) (enqueue u c).cur c) false else enqueue u c)))) ∧
  (∀ (u : State) (c : EngCmd),
    let q := queueOf c.op
    let t := enqueue u c
    queueOfCore t q = { queueOfCore u q with cmds := (queueOfCore u q).cmds ++ [{ c with seq := (queueOfCore u q).issued }],
                                             issued := (queueOfCore u q).issued + 1 } ∧
    (∀ k, k ≠ q → queueOfCore t k = queueOfCore u k) ∧
    (arch t).due = (arch u).due ++
      [longDue u .engR 2 { v := wordToVec (BitVec.ofNat 64 (q.val + 8 * (queueOfCore u q).issued)), t := 0, p := false }] ∧
    (arch t).regs = (arch u).regs ∧ (arch t).ops = (arch u).ops ∧ (arch t).csr = (arch u).csr ∧ (getCore t u.cur).jn.windowOpen = true ∧
    (∀ x, u.issue = some x → t.issue = some { x with commit := true }) ∧
    (u.issue = none → (arch t).order.sbuf = [] ∧ (arch t).order.released = (arch u).order.released ++ (arch u).order.sbuf) ∧
    t.stash = u.stash ∧ t.far = u.far ∧ (∀ k, k ≠ u.cur → getCore t k = getCore u k))

namespace Sys2Proof.Claims

/-- Of the running core only results in flight, the engine queues, the fence count and the store buffer may change; every other core,
every quad, the hub, the edge and memory are as before. -/
def sparesQueuer (s u : State) : Prop :=
  { arch u with due := (arch s).due, q := (arch s).q, fences := (arch s).fences, order := (arch s).order } = arch s ∧
    { (arch u).order with sbuf := [], released := [], sinceCommit := 0 } = { (arch s).order with sbuf := [], released := [], sinceCommit := 0 } ∧
    (∀ c, c ≠ s.cur → getCore u c = getCore s c) ∧ u.quads = s.quads ∧ u.hub = s.hub ∧ u.edge = s.edge ∧ u.stash = s.stash ∧ u.far = s.far

/-- Every channel but `c`, every other core, every quad and memory are as before. -/
def sparesChannels (s : State) (c : ChanId) (u : State) : Prop :=
  (∀ d, d ≠ c → getChan u d = getChan s d) ∧ (∀ k, k ≠ s.cur → getCore u k = getCore s k) ∧ u.quads = s.quads ∧
    u.stash = s.stash ∧ u.far = s.far

end Sys2Proof.Claims

/-- `eng.qfence`, `eng.qwait` and `eng.qpoll` (R170, R171, R173): an entry in each named queue and the fence's ticket; a wait for an issued
command or fence; the named queues' emptiness (a queue that holds only a fence is not empty: the model's choice, log entry 80) and the
completed count of the lowest of them. A poisoned t, an empty mask, a queue
number above 4 that is not 7, and a number not yet issued raise their faults; a full queue holds a fence. -/
def Obligations.QueueControl : Prop :=
  ∀ (g : Guard) (src : Src) (s : State) (x : Val),
    let s1 := markGuard s g src
    let t := x.scalar
    let m : BitVec 5 := t.v.setWidth 5
    let q := t.v.toNat % 8
    let n := t.v.toNat / 8
    (Moves (.engQfence g src) g src s x →
      (t.p = true → exec (.engQfence g src) s = .next (raise s1 (.engQfence g src) cPoison)) ∧
      (t.p = false → m = 0 → exec (.engQfence g src) s = .next (raise s1 (.engQfence g src) cOperand)) ∧
      (t.p = false → m ≠ 0 → (∃ k : Fin 5, m.getLsbD k.val = true ∧ 32 ≤ (queueOfCore s k).cmds.length) →
        exec (.engQfence g src) s = .next (holdIssue s1)) ∧
      (t.p = false → m ≠ 0 → (∀ k : Fin 5, m.getLsbD k.val = true → (queueOfCore s k).cmds.length < 32) →
        ∃ u e, exec (.engQfence g src) s = .next u ∧ e.op = .fence (arch s).fences m ∧ (arch u).fences = (arch s).fences + 1 ∧
          (∀ k, queueOfCore u k = if m.getLsbD k.val then { queueOfCore s k with cmds := (queueOfCore s k).cmds ++ [e] } else queueOfCore s k) ∧
          (arch u).due = (arch s).due ++
            [longDue s .engR 2 { v := wordToVec (BitVec.ofNat 64 (7 + 8 * (arch s).fences)), t := 0, p := false }] ∧
          (arch u).regs = (arch s1).regs ∧ sparesQueuer s1 u)) ∧
    (Moves (.engQwait g src) g src s x →
      (t.p = true → exec (.engQwait g src) s = .next (raise s1 (.engQwait g src) cPoison)) ∧
      (t.p = false → (q = 5 ∨ q = 6) → exec (.engQwait g src) s = .next (raise s1 (.engQwait g src) cOperand)) ∧
      (t.p = false → q = 7 → (startArch s1).fences ≤ n → exec (.engQwait g src) s = .next (raise s1 (.engQwait g src) cOperand)) ∧
      (t.p = false → q = 7 → n < (startArch s1).fences →
        exec (.engQwait g src) s = .next (setWait (openWindow (commitEvent s1) s.cur 1) (.fence n))) ∧
      (∀ k : Fin 5, t.p = false → q = k.val →
        ((vget (startArch s1).q k).issued ≤ n → exec (.engQwait g src) s = .next (raise s1 (.engQwait g src) cOperand)) ∧
        (n < (vget (startArch s1).q k).issued →
          exec (.engQwait g src) s = .next (setWait (openWindow (commitEvent s1) s.cur 1) (.command k n))))) ∧
    (Moves (.engQpoll g src) g src s x →
      (t.p = true → exec (.engQpoll g src) s = .next (raise s1 (.engQpoll g src) cPoison)) ∧
      (t.p = false → m = 0 → exec (.engQpoll g src) s = .next (raise s1 (.engQpoll g src) cOperand)) ∧
      (t.p = false → m ≠ 0 → ∃ (u : State) (w : Word) (low : Fin 5), exec (.engQpoll g src) s = .next u ∧
        m.getLsbD low.val = true ∧ (∀ k, k < low.val → m.getLsbD k = false) ∧
        (∀ k : Fin 5, w.getLsbD k.val = (m.getLsbD k.val && (vget (startArch s1).q k).cmds.isEmpty)) ∧ w.toNat / 32 % 2048 = 0 ∧
        w.toNat / 65536 = (vget (startArch s1).q low).completed % 2 ^ 48 ∧
        (arch u).due = (arch s).due ++ [longDue s .engR 2 { v := wordToVec w, t := 0, p := false }] ∧
        (arch u).q = (arch s).q ∧ (arch u).fences = (arch s).fences ∧ (arch u).regs = (arch s1).regs ∧ sparesQueuer s1 u))
/-! Handles, taint, barriers. -/

/-- `xl.hK` and `xl.drop` (R175, R176): a poisoned t, an address of 2^48 or more and a page outside the lease set raise their faults in
that order; otherwise the translation of t's page as it stands is due 12 cycles later with t's taint, writable only where the page and
its range are (a page without a translation, or on the move, gives a handle not yet made, which is delivered once it is there); nothing
else changes. A drop makes h_K invalid, and a translation into it still due will not reach it; nothing else changes. -/
def Obligations.Translations : Prop :=
  (∀ (g : Guard) (src : Src) (k : Fin 16) (s : State) (x : Val), Moves (.xlHk g src k) g src s x →
    let i : Instr := .xlHk g src k
    let s1 := markGuard s g src
    let t := x.scalar
    let va := t.v.toNat
    (t.p = true → exec i s = .next (raise s1 i cPoison)) ∧
    (t.p = false → 2 ^ 48 ≤ va → exec i s = .next (raise s1 i cOperand)) ∧
    (t.p = false → va < 2 ^ 48 → leaseRange s s.cur va = none → exec i s = .next (raise s1 i cLease)) ∧
    (∀ r, t.p = false → va < 2 ^ 48 → leaseRange s s.cur va = some r →
      let ctx := ((getCore s s.cur).gang).getD 0
      let e := leafOf s ctx va
      let h : Handle :=
        { made := pageReady s ctx va, base := BitVec.ofNat 48 (va / 2 ^ 21 * 2 ^ 21), frame := leafFrame e,
          home := BitVec.ofNat 2 (leafHome e), pkg := BitVec.ofNat 10 (leafPkg e), wr := leafW e && r.rw, pageRo := !leafW e,
          sh := leafSh e, valid := true, revoked := false, t := t.t }
      ∃ u, exec i s = .next u ∧ onlyArch s1 { arch s1 with hdue := (arch s).hdue ++
        [{ k := k, va := va, at_ := (arch s).csr.cyc + 12, ord := orderNo s (arch s), hnd := h, live := true }] } u)) ∧
  (∀ (g : Guard) (src : Src) (s : State) (x : Val), Moves (.xlDrop g src) g src s x →
    let i : Instr := .xlDrop g src
    let s1 := markGuard s g src
    let t := x.scalar
    let k : Fin 16 := Fin.ofNat 16 (t.v.toNat % 16)
    (t.p = true → exec i s = .next (raise s1 i cPoison)) ∧
    (t.p = false → ∃ u, exec i s = .next u ∧ onlyArch s1
      { arch s1 with
        regs := { (arch s1).regs with h := vset (arch s).regs.h k { vget (arch s).regs.h k with valid := false } },
        hdue := (arch s).hdue.map (fun d => if d.k = k then { d with live := false } else d) } u))

/-- The taint unit (R177): `clr` t without taint, `join` the value in `tnt.o` with both taints and poisons, `of` the taint and poison of t
as a value, `pclr` the path taint without the colours of t, `next` the new colour, each one cycle later; a poisoned t of `pclr` raises
the poison fault. -/
def Obligations.TaintOperations : Prop :=
  ∀ (g : Guard) (src : Src) (s : State) (x : Val),
    let s1 := markGuard s g src
    let t := x.lanes
    let o := getOp (arch s) .tntO
    let result (v : VVal) : Due := shortDue s .tntR 1 v
    (Moves (.tntClr g src) g src s x → ∃ u, exec (.tntClr g src) s = .next u ∧ delivers s1 (result { v := t.v, t := 0, p := t.p }) u) ∧
    (Moves (.tntJoin g src) g src s x → ∃ u, exec (.tntJoin g src) s = .next u ∧
      delivers s1 (result { v := o.v, t := o.t ||| t.t, p := o.p || t.p }) u) ∧
    (Moves (.tntOf g src) g src s x → ∃ u, exec (.tntOf g src) s = .next u ∧
      delivers s1 (result { v := BitVec.ofNat 2048 (t.t.toNat + (if t.p then 65536 else 0)), t := 0, p := false }) u) ∧
    (Moves (.tntPclr g src) g src s x →
      (t.p = true → exec (.tntPclr g src) s = .next (raise s1 (.tntPclr g src) cPoison)) ∧
      (t.p = false → ∃ u, exec (.tntPclr g src) s = .next u ∧
        let new : TSet := (arch s).order.path &&& ~~~(t.v.setWidth 16)
        onlyArch s1 { arch s1 with order := { (arch s).order with path := new },
                                   due := (arch s).due ++ [result { v := new.setWidth 2048, t := 0, p := false }] } u)) ∧
    (Moves (.tntNext g src) g src s x → ∃ u, exec (.tntNext g src) s = .next u ∧
      (arch u).due = (arch s).due ++ [result { v := BitVec.ofNat 2048 ((startArch s1).order.tcol + 1).val, t := 0, p := false }] ∧
      (s.issue = none → (arch u).order = { (arch s).order with tcol := (arch s).order.tcol + 1, farCount := 0 }) ∧
      (∀ y, s.issue = some y → (arch u).order = (arch s).order ∧ ∃ z, s1.issue = some z ∧ u.issue = some { z with advance := true }) ∧
      (arch u).regs = (arch s1).regs ∧ u.stash = s.stash ∧ u.far = s.far)

/-- The barrier triggers (R41 to R43, R179): a descriptor that names no channel the gang holds raises the illegal-operand fault; an arrival
whose counter is free is counted for the member's next phase, `bar.sync` then waits for the release of that phase; one whose counter
is not free waits, blocked; `bar.wait` waits for the phase of the latest arrival, or without one delivers all ones; `bar.drain` is a
commit event and a wait for the core's far accesses. The release events add to the released count. -/
def Obligations.BarrierTriggers : Prop :=
  (∀ (sync : Bool) (g : Guard) (src : Src) (s : State) (x : Val),
    let i : Instr := if sync then .barSync g src else .barArrive g src
    Moves i g src s x →
    let s1 := markGuard s g src
    let c := descChan s x.scalar.v
    let n := arrivals (getChan s c) s.cur
    let s2 := openWindow (noteObserved s1 c s.cur) s.cur 5
    (barOk s s.cur x.scalar = false → exec i s = .next (raise s1 i cOperand)) ∧
    (barOk s s.cur x.scalar = true → (arch s).seq.wait = none → ∃ u, exec i s = .next u ∧
      (counterFree s2 (getChan s2 c) n = true → arrivals (getChan u c) s.cur = n + 1 ∧
        (arch u).seq.wait = (if sync then some (.release c n) else none)) ∧
      (counterFree s2 (getChan s2 c) n = false → arrivals (getChan u c) s.cur = n ∧ (arch u).seq.wait = some (.blocked c n sync)) ∧
      { arch u with seq := (arch s1).seq } = arch s1 ∧ { (arch u).seq with wait := none } = { (arch s1).seq with wait := none } ∧
      sparesChannels s c u)) ∧
  (∀ (g : Guard) (src : Src) (s : State) (x : Val), Moves (.barWait g src) g src s x →
    let s1 := markGuard s g src
    let c := descChan s x.scalar.v
    let n := arrivals (getChan s c) s.cur
    (barOk s s.cur x.scalar = false → exec (.barWait g src) s = .next (raise s1 (.barWait g src) cOperand)) ∧
    (barOk s s.cur x.scalar = true → n = 0 → ∃ u, exec (.barWait g src) s = .next u ∧ sparesChannels s c u ∧
      arch u = { arch s1 with due := (arch s).due ++ [longDue s .barR 1 { v := wordToVec (BitVec.allOnes 64), t := 0, p := false }] }) ∧
    (barOk s s.cur x.scalar = true → 0 < n → (arch s).seq.wait = none → ∃ u, exec (.barWait g src) s = .next u ∧
      arch u = { arch s1 with seq := { (arch s1).seq with wait := some (.release c (n - 1)) } } ∧ arrivals (getChan u c) s.cur = n ∧
      sparesChannels s c u)) ∧
  (∀ (g : Guard) (src : Src) (s : State) (x : Val), Moves (.barDrain g src) g src s x → (arch s).seq.wait = none →
    let s1 := markGuard s g src
    ∃ u, exec (.barDrain g src) s = .next u ∧ (getCore u s.cur).jn.windowOpen = true ∧
      { arch u with order := (arch s1).order } = { arch s1 with seq := { (arch s1).seq with wait := some .drain } } ∧
      (∀ k, k ≠ s.cur → getCore u k = getCore s k) ∧ u.stash = s.stash ∧ u.far = s.far ∧ u.hub = s.hub ∧
      (s.issue = none → (arch u).order.sbuf = [] ∧ (arch u).order.released = (arch s).order.released ++ (arch s).order.sbuf) ∧
      (∀ y, s.issue = some y → ∃ z, u.issue = some z ∧ z.commit = true)) ∧
  (∀ (s : State) (c : Chan), s.hub.chans.find? (fun d => d.ident = c.ident) = some c → releaseDue s c = true →
    ∃ u, exec (.barrierRelease c.ident) s = .next u ∧ (getChan u c.ident).released = c.released + 1 ∧
      (∀ d, d ≠ c.ident → getChan u d = getChan s d) ∧ u.cores = s.cores)

/-! Faults. -/

/-- Taking a fault (R57, R301 to R305, R307): of the faults of a bundle the lowest rank decides, then the lowest slot; within a bundle a
fault is recorded without any effect on registers or memory. HREV outside a handler enters it: `uepc` the bundle's address, `ucause`
0x21, `uinfo` the fault's details, the shadow bank a copy of g24 to g31, s10 and s11, the depths recorded, the next bundle `uiv`; every
register, every other core and memory stay. HREV in a handler ends the task as a double trap, every other cause with itself, causes
0x01 to 0x11 with the fault's details; a report goes to the dispatcher with the cause, the details and, for a cause below 0x35, the
bundle's address. With the task ends its gang: every other member that runs or is stopped ends with cause 0x37, and cores outside the
gang and memory stay. -/
def Obligations.FaultEntry : Prop :=
  (∀ (l : List SlotFault) (f : SlotFault), bestFault l = some f →
    f ∈ l ∧ ∀ g ∈ l, f.rank < g.rank ∨ (f.rank = g.rank ∧ f.slot ≤ g.slot)) ∧
  (∀ (s : State) (i : Instr) (cause : Nat) (y : Issue), s.issue = some y →
    ∃ f, raise s i cause = { s with issue := some { y with faults := y.faults ++ [f] } } ∧ f.cause = cause ∧ f.slot = y.slot ∧
      f.rank = rankOfCause cause) ∧
  (∀ (s : State) (info : Nat), (arch s).seq.handler = none →
    let t := takeFault s 0x21 info
    let a := arch s
    (arch t).csr = { a.csr with uepc := a.seq.pc, ucause := 0x21, uinfo := BitVec.ofNat 64 info } ∧
    (arch t).seq.handler = some (a.seq.loops.length, a.seq.calls.length) ∧ (arch t).seq.pc = a.csr.uiv ∧
    (arch t).seq.loops = a.seq.loops ∧ (arch t).seq.calls = a.seq.calls ∧
    (∀ k : Fin 8, vget (arch t).seq.shadow.g k = vget a.regs.g (Fin.ofNat 32 (24 + k.val))) ∧
    (∀ k : Fin 2, vget (arch t).seq.shadow.s k = vget a.regs.s (Fin.ofNat 12 (10 + k.val))) ∧
    (arch t).regs = a.regs ∧ (arch t).ops = a.ops ∧ (arch t).res = a.res ∧ (arch t).due = a.due ∧ (arch t).order = a.order ∧
    (∀ c, c ≠ s.cur → getCore t c = getCore s c) ∧ t.stash = s.stash ∧ t.far = s.far ∧ t.hub = s.hub) ∧
  (∀ (s : State) (info : Nat), (arch s).seq.handler ≠ none → takeFault s 0x21 info = endTask s s.cur 0x34) ∧
  (∀ (s : State) (cause info : Nat), cause ≠ 0x21 →
    takeFault s cause info = endTask s s.cur cause (if 1 ≤ cause ∧ cause ≤ 0x11 then some info else none)) ∧
  (∀ (s : State) (c cause : Nat) (info : Option Nat),
    let t := endTask s c cause info
    (getCore t c).status = .ended cause ∧ t.stash = s.stash ∧ t.far = s.far ∧
    (∃ r, (getCore t c).report = some r ∧ r.cause = cause ∧ r.info = info ∧
      (cause < 0x35 → r.epc = (getCore s c).arch.seq.pc)) ∧
    (∀ g, gangOf s c = some g →
      (∀ d ∈ gangCores g, d ≠ c → isLive (getCore s d) = true → (getCore s d).gang = some g.ctx → (getCore t d).status = .ended 0x37) ∧
      (∀ d, d ∉ gangCores g → d ≠ c → getCore t d = getCore s d) ∧
      (g.cause = none → ∃ h, getGang t g.ctx = some h ∧ h.st = .finishing ∧ h.cause = some (cause, rankOf g c))) ∧
    (gangOf s c = none → ∀ d, d ≠ c → getCore t d = getCore s d))
/-! The events of cores and engines. -/

namespace Sys2Proof.Claims

/-- What the events of a core leave alone: the stash, far memory and every other core. -/
def sparesOthers (s : State) (c : Nat) (t : State) : Prop :=
  (∀ k, k ≠ c → getCore t k = getCore s k) ∧ t.stash = s.stash ∧ t.far = s.far

/-- The running state of core `c`. -/
def coreArch (s : State) (c : Nat) : CoreArch := (getCore s c).arch

/-- A near address of an engine operand. -/
def nearEa (w : Word) (a : Nat) : Prop := engAddr w = some (.near a)

/-- A far load or atomic that is due by cycle `n` and whose every part has performed (R30, R224). -/
def hasArrived (n : Nat) (f : FarOp) : Bool :=
  decide (f.kind ≠ .prefetch) && decide (f.due ≤ n) && f.parts.all (fun p => p.done.isSome)

/-- What it delivers (R115): the bytes that its parts found, in order, under the bytes of the core's own stores that it was issued over,
little-endian and zero-extended, with its taint, poisoned where a line was. -/
def farResult (f : FarOp) : Due :=
  let found := f.parts.flatMap (fun p => match p.done with | some (_, bytes, _) => bytes | none => [])
  { port := f.port, at_ := f.due, ord := f.ord, short := false,
    val := { v := BitVec.ofNat 2048 (leNat (f.overlay.foldl (fun l e => setNth l e.1 e.2) found)), t := f.taint,
             p := f.poison || f.parts.any (fun p => match p.done with | some (_, _, bad) => bad | none => false) } }

end Sys2Proof.Claims

/-- The delivery of results (R30, R58, R115): the results that are due, and the far loads and atomics that are due and have performed
whole, leave those in flight, and every port they name holds the one that was due last, of several due at once that of the later
bundle and slot; every other port stays, as do those still in flight, a far load that is due but has not performed among them. A
translation that is due fills its handle unless it was dropped, and its status reaches `xl.r`. -/
def Obligations.ResultDelivery : Prop :=
  (∀ (s : State) (c : Nat), (coreArch s c).hdue = [] →
    let n := (coreArch s c).csr.cyc
    let far := (coreArch s c).order.far
    let ready := (coreArch s c).due.filter (fun d => decide (d.at_ ≤ n)) ++ (far.filter (hasArrived n)).map farResult
    ∃ t, exec (.resultDelivery c) s = .next t ∧ sparesOthers s c t ∧
      (coreArch t c).due = (coreArch s c).due.filter (fun d => decide (n < d.at_)) ∧
      (coreArch t c).order = { (coreArch s c).order with far := far.filter (fun f => !hasArrived n f) } ∧
      (∀ r, (∀ d ∈ ready, d.port ≠ r) → getRes (coreArch t c) r = getRes (coreArch s c) r) ∧
      (∀ r, (∃ d ∈ ready, d.port = r) → ∃ d ∈ ready, d.port = r ∧ getRes (coreArch t c) r = { val := d.val, empty := false } ∧
        ∀ e ∈ ready, e.port = r → e.at_ < d.at_ ∨ (e.at_ = d.at_ ∧ e.ord ≤ d.ord)) ∧
      (coreArch t c).regs = (coreArch s c).regs ∧ (coreArch t c).ops = (coreArch s c).ops ∧ (coreArch t c).csr = (coreArch s c).csr) ∧
  (∀ (s : State) (c : Nat) (d : HDue), (coreArch s c).hdue = [d] → (coreArch s c).due = [] →
    (∀ f ∈ (coreArch s c).order.far, hasArrived (coreArch s c).csr.cyc f = false) →
    d.at_ ≤ (coreArch s c).csr.cyc → d.hnd.made = true →
    ∃ t, exec (.resultDelivery c) s = .next t ∧ sparesOthers s c t ∧ (coreArch t c).hdue = [] ∧
      vget (coreArch t c).regs.h d.k = (if d.live then d.hnd else vget (coreArch s c).regs.h d.k) ∧
      (∀ k, k ≠ d.k → vget (coreArch t c).regs.h k = vget (coreArch s c).regs.h k) ∧
      getRes (coreArch t c) .xlR =
        { val := { v := wordToVec (BitVec.ofNat 64 (1 + (if d.hnd.wr then 2 else 0) + 4 * d.hnd.home.toNat)), t := 0, p := false },
          empty := false })

namespace Sys2Proof.Claims

/-- A transfer of a line leaves for its peer (R344): it waits for its answer under the next number, and nothing is read or written here. -/
def leavesFor (s t : State) (c ident kind cls fn : Nat) (l : Loc) (mask : BitVec 64) (data : List Byte) : Prop :=
  t.cores = s.cores ∧ t.stash = s.stash ∧ t.far = s.far ∧ ∃ x : PodXfer, t.hub.xfers = s.hub.xfers ++ [x] ∧ x.num = s.hub.nextXfer ∧
    x.core = c ∧ x.ident = ident ∧ x.kind = kind ∧ x.cls = cls ∧ x.fn = fn ∧ some x.peer = l.peer ∧ x.pa = l.pa ∧ x.mask = mask ∧
    x.data = data ∧ x.sentAt = s.now ∧ x.resends = 0 ∧ s.clock < x.stamp

/-- A write of some bytes of a line by a gang can merge them: the line has not failed and opens (R323, R360). -/
def mergesAt (s : State) (g : Option Gang) (pa : Nat) : Prop :=
  isBad s pa = false ∧ (isHbm pa = true → lineOpens s g pa = true)

/-- The line at `pa` is held by chunk `key` in state D, which belongs to the gang of core `c`, and its bytes can be written back. -/
def heldByChunk (s : State) (c pa key : Nat) (ch : Chunk) : Prop :=
  pa % 64 = 0 ∧ registered s pa = some key ∧ getChunk s key = some ch ∧ ch.dirty = true ∧ chunkGang s key = gangOf s c ∧
    mergesAt s (gangOf s c) pa ∧ writeVersion s (gangOf s c) pa < 2 ^ 32 ∧ memWf s.far = true ∧ linesOk s = true

/-- Byte `i` of a line as a chunk that holds it has it: the marked bytes the chunk's, the others the home's (R203, R204). -/
def heldByte (s : State) (pa key : Nat) (ch : Chunk) (i : Nat) : Byte :=
  if ch.mask.getLsbD i then memRead s.stash (chunkBase key + i) else memRead s.far (pa + i)

/-- The chunk has given the line up: it is clean, and the line's home names no chunk. -/
def gaveUp (t : State) (pa key : Nat) : Prop :=
  registered t pa = none ∧ ∃ n, getChunk t key = some { dirty := false, stamp := n, mask := 0 }

end Sys2Proof.Claims

/-- Far accesses at their homes (R204, R220, R224, R226, R228, R344, R360). A live core's load whose turn has come, with a token, takes
the bytes of its line and a new stamp; memory stays. A line that a chunk holds is forwarded from its stash. Those of another line are
memory's, but for a line in a slot of a key-value page at or above its fill count, whose bytes are free values (log entry 5). A
prefetch leaves nothing behind. A released store then writes its bytes, in place of a failed line all of them, and leaves the list; a
store of some bytes of a line that has failed, or that does not open, changes no byte, and the line has failed. An atomic takes the old
value and leaves the new one, as one step. A line that a chunk holds in state D is first written back to its home, the chunk's marked
bytes over memory's, and the chunk is clean; a `cas` that does not match recalls nothing. A line of a peer module: a chunk of this
module that holds it first gives its bytes back by a PSTORE; otherwise the load leaves as a PLOAD, the store as a PSTORE, the atomic as
a PATOM, and the access waits for the answer. The model's choices: every access has a stamp later than all before it (log entry 3); an
access performs when its event is taken (log entry 61); lines of peers, and the chunks that hold them (log entry 68). -/
def Obligations.FarPerforms : Prop :=
  (∀ (s u : State) (c : Nat) (op : FarOp) (p : FarPart), (coreArch s c).order.far = [op] → op.parts = [p] →
    isLive (getCore s c) = true → partReady s c op p = true → p.loc.peer = none → isHole p.loc.pa = false → takeToken s c p.ident = (true, u) →
    p.loc.pa % 64 + p.len ≤ 64 →
    let line := p.loc.pa / 64 * 64
    let from_ := match registered s line with | some key => memReadN s.stash (chunkBase key) 64 | none => homeBytes s line
    let bytes := (from_.drop (p.loc.pa % 64)).take p.len
    (registered s line = none → slotOpen s line = false → bytes = memReadN s.far p.loc.pa p.len) ∧
    (op.kind = .load → ∃ t n, exec (.farLoadPerform c p.ident) s = .next t ∧ t.stash = s.stash ∧ t.far = s.far ∧ s.clock < t.clock ∧
      t.clock = n ∧
      (coreArch t c).order.far = [{ op with parts := [{ p with done := some (n, bytes, (readLine s (gangOf s c) line).2) }] }] ∧
      (coreArch t c).regs = (coreArch s c).regs ∧ vget (coreArch t c).order.st op.colour = max (vget (coreArch s c).order.st op.colour) n) ∧
    (op.kind = .prefetch → ∃ t, exec (.farLoadPerform c p.ident) s = .next t ∧ t.stash = s.stash ∧ t.far = s.far ∧
      coreArch t c = { coreArch s c with order := { (coreArch s c).order with far := [] } })) ∧
  (∀ (s u : State) (c : Nat) (x : StoreLine), (coreArch s c).order.released = [x] → storeReady s c x = true → x.loc.peer = none →
    isHole x.loc.pa = false → takeToken s c x.ident = (true, u) → registered s x.loc.pa = none → memWf s.far = true →
    linesOk s = true →
    (x.mask = BitVec.allOnes 64 ∨ mergesAt s (gangOf s c) x.loc.pa →
      ∃ t, exec (.farStorePerform c x.ident) s = .next t ∧ (coreArch t c).order.released = [] ∧ t.stash = s.stash ∧
        (∀ i, i < 64 → memRead t.far (x.loc.pa + i) =
          if x.mask.getLsbD i then x.data.extractLsb' (8 * i) 8 else memRead s.far (x.loc.pa + i)) ∧
        (∀ a, (a < x.loc.pa ∨ x.loc.pa + 64 ≤ a) → memRead t.far a = memRead s.far a) ∧
        isBad t x.loc.pa = false ∧ (coreArch t c).regs = (coreArch s c).regs) ∧
    (x.mask ≠ BitVec.allOnes 64 → ¬ mergesAt s (gangOf s c) x.loc.pa →
      ∃ t, exec (.farStorePerform c x.ident) s = .next t ∧ (coreArch t c).order.released = [] ∧ t.stash = s.stash ∧ t.far = s.far ∧
        isBad t x.loc.pa = true ∧ (coreArch t c).regs = (coreArch s c).regs)) ∧
  (∀ (s u : State) (c : Nat) (x : StoreLine) (key : Nat) (ch : Chunk), (coreArch s c).order.released = [x] → storeReady s c x = true →
    x.loc.peer = none → isHole x.loc.pa = false → heldByChunk s c x.loc.pa key ch → takeWithRecalls s c x.ident [x.loc] = (true, u) →
    ∃ t, exec (.farStorePerform c x.ident) s = .next t ∧ (coreArch t c).order.released = [] ∧ t.stash = s.stash ∧
      gaveUp t x.loc.pa key ∧
      (∀ i, i < 64 → memRead t.far (x.loc.pa + i) =
        if x.mask.getLsbD i then x.data.extractLsb' (8 * i) 8 else heldByte s x.loc.pa key ch i) ∧
      (∀ a, (a < x.loc.pa ∨ x.loc.pa + 64 ≤ a) → memRead t.far a = memRead s.far a) ∧ (coreArch t c).regs = (coreArch s c).regs) ∧
  (∀ r ∈ atomics, ∀ (s u : State) (c : Nat) (op : FarOp) (p : FarPart) (d e : Word) (n : Nat), (coreArch s c).order.far = [op] → op.parts = [p] →
    op.kind = .atom r.2.1 d e n → isLive (getCore s c) = true → partReady s c op p = true → p.loc.peer = none → isHole p.loc.pa = false →
    p.loc.pa % 8 = 0 →
    let line := p.loc.pa / 64 * 64
    let performs (old : Word) (bad : Bool) (t : State) : Prop := exec (.farLoadPerform c p.ident) s = .next t ∧
      (∃ k, s.clock < k ∧
        (coreArch t c).order.far = [{ op with parts := [{ p with done := some (k, leBytes old.toNat 8, bad) }] }]) ∧ t.stash = s.stash
    (takeToken s c p.ident = (true, u) → registered s line = none → mergesAt s (gangOf s c) line → slotOpen s line = false →
      memWf s.far = true →
      let old : Word := BitVec.ofNat 64 (leNat (memReadN s.far p.loc.pa 8))
      ∃ t, performs old false t ∧ memReadN t.far p.loc.pa 8 = leBytes (r.2.2 old d e).toNat 8 ∧
        (∀ a, (a < p.loc.pa ∨ p.loc.pa + 8 ≤ a) → memRead t.far a = memRead s.far a)) ∧
    (∀ key ch, heldByChunk s c line key ch →
      let old : Word := BitVec.ofNat 64 (leNat (memReadN s.stash (chunkBase key + p.loc.pa % 64) 8))
      (r.2.1 ≠ 9 ∨ old = e → takeWithRecalls s c p.ident [p.loc] = (true, u) →
        ∃ t, performs old (chunkBad s key) t ∧ gaveUp t line key ∧ memReadN t.far p.loc.pa 8 = leBytes (r.2.2 old d e).toNat 8 ∧
          (∀ i, i < 64 → (i < p.loc.pa % 64 ∨ p.loc.pa % 64 + 8 ≤ i) → memRead t.far (line + i) = heldByte s line key ch i) ∧
          (∀ a, (a < line ∨ line + 64 ≤ a) → memRead t.far a = memRead s.far a)) ∧
      (r.2.1 = 9 → old ≠ e → takeToken s c p.ident = (true, u) →
        ∃ t, performs old (chunkBad s key) t ∧ t.far = s.far ∧ t.chunks = s.chunks))) ∧
  (∀ (s u : State) (c : Nat) (op : FarOp) (p : FarPart), (coreArch s c).order.far = [op] → op.parts = [p] → partReady s c op p = true →
    p.loc.peer.isSome = true → holderOf s p.loc = none → takeToken s c p.ident = (true, u) →
    (op.kind = .load → ∃ t, exec (.farLoadPerform c p.ident) s = .next t ∧ leavesFor s t c p.ident 0 0x40 0 (lineLoc p.loc) 0 []) ∧
    (∀ fn d e n, op.kind = .atom fn d e n → ∃ t, exec (.farLoadPerform c p.ident) s = .next t ∧
      leavesFor s t c p.ident 0 0x42 fn p.loc 0 (leBytes d.toNat 8 ++ leBytes e.toNat 8 ++ List.replicate 48 0#8))) ∧
  (∀ (s u : State) (c : Nat) (x : StoreLine), (coreArch s c).order.released = [x] → storeReady s c x = true → x.loc.peer.isSome = true →
    holderOf s x.loc = none → takeToken s c x.ident = (true, u) →
    ∃ t, exec (.farStorePerform c x.ident) s = .next t ∧ leavesFor s t c x.ident 3 0x41 0 x.loc x.mask (leBytes x.data.toNat 64)) ∧
  (∀ (s u : State) (c : Nat) (l : Loc) (key : Nat) (ch : Chunk), l.peer.isSome = true → holderOf s l = some key →
    getChunk s key = some ch → ch.dirty = true → ch.mask ≠ 0 → recallToken s l = (true, u) →
    let gives (i : Instr) : Prop := ∃ t, exec i s = .next t ∧ leavesFor s t c key 5 0x41 0 (lineLoc l) ch.mask (chunkBytes s key) ∧
      holderOf t l ≠ some key ∧ ∃ n, getChunk t key = some { dirty := false, stamp := n, mask := 0 }
    (∀ op p, (coreArch s c).order.far = [op] → op.parts = [p] → p.loc = l → partReady s c op p = true → gives (.farLoadPerform c p.ident)) ∧
    (∀ x, (coreArch s c).order.released = [x] → x.loc = l → storeReady s c x = true → gives (.farStorePerform c x.ident)))

/-- Commits, colours, checkpoints and watchdogs of a core (R33, R37, R225, R226, R229, R308, R310 to R313). After 65,536 core cycles without
a commit the stores are released; after 64 far accesses the colour advances; a checkpoint copies the core section and empties the
journal; the watchdogs and the limit of a pre-emption end the task with their causes. A detected error in the no-rollback window ends
it with cause 0x36; outside it the core goes back to its checkpoint, its registers, control registers and sequencer as then, its engine
queues and released stores as they are now, its unreleased stores gone, for the first of two reruns up to the present cycle, and the
quad is held; the periods since the checkpoint are added to `frz.mem` as a rerun begins. A second rerun that reaches the end point in
the first one's cycle with the same signature and without an error lets its state stand: one rollback more is counted, and the quad is
released. An error in stored data marks their line failed, one on the fabric poisons the data of the access, and neither rolls back. The
model's choices: the hold delays the quad and ends at the end of the period (log entry 55); the report says whether the error shows again
and on which hop it lay (log entries 56 and 96). -/
def Obligations.CoreEvents : Prop :=
  ∀ (s : State) (c : Nat),
    let x := getCore s c
    let o := x.arch.order
    (65536 ≤ o.sinceCommit → ∃ t, exec (.forcedCommit c) s = .next t ∧ (coreArch t c).order.sbuf = [] ∧
      (coreArch t c).order.released = o.released ++ o.sbuf ∧ (coreArch t c).order.sinceCommit = 0 ∧ (getCore t c).jn.windowOpen = true ∧
      (coreArch t c).regs = x.arch.regs ∧ sparesOthers s c t) ∧
    (64 ≤ o.farCount → ∃ t, exec (.tcolAdvance c) s = .next t ∧ (coreArch t c).order = { o with tcol := o.tcol + 1, farCount := 0 } ∧
      (coreArch t c).regs = x.arch.regs ∧ sparesOthers s c t) ∧
    (x.arch.seq.atCk = true → x.arch.seq.stall = 0 → x.arch.seq.wait = none → ∃ t, exec (.checkpoint c) s = .next t ∧
      (getCore t c).ck = (getCore t c).arch ∧ (getCore t c).jn.recs = [] ∧ (getCore t c).jn.bytes = 0 ∧ (getCore t c).jn.windowOpen = false ∧
      (getCore t c).jn.ckaddr = x.arch.seq.last ∧ (coreArch t c).regs = x.arch.regs ∧ (coreArch t c).csr = x.arch.csr ∧
      (coreArch t c).order = o ∧ (coreArch t c).seq.atCk = false ∧ sparesOthers s c t) ∧
    (x.status = .bound → 2 ^ 20 ≤ x.freezeDog → ∃ t, exec (.freezeWatchdogExpiry c) s = .next t ∧ (getCore t c).status = .ended 0x31) ∧
    (x.status = .bound → 2 ^ 26 ≤ x.waitDog → ∃ t, exec (.waitWatchdogExpiry c) s = .next t ∧ (getCore t c).status = .ended 0x32) ∧
    (∀ m, x.status = .bound → x.mark = some m → 2 ^ 20 ≤ m.periods → x.rerun = none →
      ∃ t, exec (.preemptionTimeout c) s = .next t ∧ (getCore t c).status = .ended 0x33) ∧
    (∀ e pa, e.hop = some (.stored pa) → ∃ t, exec (.detectedError c e) s = .next t ∧ t.cores = s.cores ∧ t.stash = s.stash ∧
      t.far = s.far ∧ (isHbm pa = true → isBad t pa = true) ∧ (∀ a, a / 64 ≠ pa / 64 → isBad t a = isBad s a)) ∧
    (∀ e ord, e.hop = some (.fabric ord) → ∃ t, exec (.detectedError c e) s = .next t ∧ sparesOthers s c t ∧
      (coreArch t c).order.far.length = o.far.length ∧ (coreArch t c).regs = x.arch.regs ∧
      ∀ (i : Nat) (f h : FarOp), o.far[i]? = some f → (coreArch t c).order.far[i]? = some h → (f.ord ≠ ord → h = f) ∧
        (f.ord = ord → h.parts.map (fun p => p.done.isSome) = f.parts.map (fun p => p.done.isSome) ∧
          ∀ p ∈ h.parts, ∀ d, p.done = some d → d.2.2 = true)) ∧
    (∀ e, e.hop = none → x.status = .bound → x.rerun = none →
      (x.jn.windowOpen = true → ∃ t, exec (.detectedError c e) s = .next t ∧ (getCore t c).status = .ended 0x36) ∧
      (x.jn.windowOpen = false → ∃ t r, exec (.detectedError c e) s = .next t ∧ (getCore t c).rerun = some r ∧ r.first = none ∧
        r.stop = x.arch.csr.cyc ∧ r.left = 16 + (journaled x.jn.recs).length ∧ (getQuad t (c / 4)).hold = some c ∧
        (coreArch t c).regs = x.ck.regs ∧ (coreArch t c).csr = { x.ck.csr with frzMem := x.ck.csr.frzMem + r.spent } ∧
        (coreArch t c).seq = x.ck.seq ∧ (getCore t c).jn.recs = [] ∧
        (coreArch t c).q = x.arch.q ∧ (coreArch t c).order.released = o.released ∧ (coreArch t c).order.sbuf = [] ∧
        (∀ d, d ≠ c → getCore t d = getCore s d))) ∧
    (∀ r, x.rerun = some r → r.left = 0 → r.stop ≤ x.arch.csr.cyc → x.jn.windowOpen = false →
      r.first = some (x.arch.csr.cyc, signature r.writes) → r.errs = false → (getQuad s (c / 4)).hold = some c →
      ∃ t, endRerun s c = (true, t) ∧ (getCore t c).rerun = none ∧ (getCore t c).jn.rolls = x.jn.rolls + 1 ∧
        coreArch t c = x.arch ∧
        (getQuad t (c / 4)).hold = some c ∧ (getQuad (releaseHolds t) (c / 4)).hold = none ∧ sparesOthers s c t) ∧
    (∀ q w rest, o.engEvents = (q, w) :: rest → x.status = .bound → x.rerun = none → x.arch.csr.uie = true → x.arch.seq.handler = none →
      x.arch.seq.atSafe = true → x.arch.seq.stall = 0 → x.arch.seq.wait = none →
      ∃ t, exec (.engineCompletionEvent c) s = .next t ∧ (coreArch t c).order.engEvents = rest ∧ (coreArch t c).seq.pc = x.arch.csr.uiv ∧
        (coreArch t c).csr.uepc = x.arch.seq.pc ∧ (coreArch t c).csr.ucause = BitVec.ofNat 64 (0x22 + 256 * q) ∧
        (coreArch t c).csr.uinfo = w ∧ (coreArch t c).seq.handler.isSome = true ∧ (coreArch t c).regs = x.arch.regs ∧ sparesOthers s c t)

/-! What the commands of the engine queues do: their steps, and the runs that a step makes. -/

namespace Sys2Proof.Claims

/-- Only the state of a run changes. -/
def sameRun (x y : EngRun) : Prop := { y with st := x.st } = x

/-- The bytes `bs` stand from `key` on, and every other byte is as it was. -/
def holdsAt (m n : Memory) (key : Nat) (bs : List Byte) : Prop :=
  (∀ (i : Nat) (b : Byte), bs[i]? = some b → memRead n (key + i) = b) ∧
    ∀ k, (k < key ∨ key + bs.length ≤ k) → memRead n k = memRead m k

/-- A run after which `bs` stands at an address of a quad's stash, and no other byte and no register has changed. -/
def nearPut (x : EngRun) (q a : Nat) (bs : List Byte) (y : EngRun) : Prop :=
  sameRun x y ∧ holdsAt x.st.stash y.st.stash (stashKey q a) bs ∧ y.st.far = x.st.far ∧ y.st.cores = x.st.cores ∧ y.st.quads = x.st.quads

/-- A range of a quad's stash that no rollback holds and whose chunks are temporary. -/
def stashIdle (s : State) (q a n : Nat) : Prop := quadHold s q = none ∧ tempIn s q a n

/-- After an element without a failure the command goes on with the next of its `n`, or ends with `e`. -/
def nextOr (cmd : EngCmd) (n : Nat) (failed : List Nat) (e : EngEnd) (y : EngRun) (r : CmdRun) : Prop :=
  r = if cmd.elem + 1 < n then .part (cmd.elem + 1) failed y else .ended e y

/-- A line of this module that a command reaches without waiting: it exists and no held quad has it. -/
def lineFree (s : State) (pa : Nat) : Prop := lineHeld s { peer := none, pa := pa } = false ∧ isHole pa = false

/-- A line of this module that takes a write of some of its bytes at once: no chunk has registered it, it has not failed, opens for the
gang `g` and has a generation to be sealed under (R204, R319, R323, R360). -/
def lineTakes (s : State) (g : Option Gang) (pa : Nat) : Prop :=
  registered s pa = none ∧ isBad s pa = false ∧ (isHbm pa = true → lineOpens s g pa = true) ∧ sealWaits s { peer := none, pa := pa } = false

/-- The steps of a command (R157, R169, R245, R296). A step runs the next element of a head that is ready: where the run waits for nothing
and its lines have their tokens, its effects are made, and the head has the number of the next element, or its completion word, or has
taken its source; where the tokens are not there, none of its effects is made and the command waits for them. -/
def EngineSteps : Prop :=
  ∀ (s : State) (c errs : Nat) (k : Fin 5) (cmd : EngCmd) (rest : List EngCmd),
    (vget (coreArch s c).q k).cmds = cmd :: rest → startReady s c k cmd = true → cmd.asked = 0 →
    let cmd1 := failQuads c errs cmd
    let s0 := modHead s c k (fun _ => cmd1)
    let first := (runCmd cmd1 (beginRun s0 c cmd1)).run
    let want := first.lines - cmd.paid
    first.held = false → first.miss = [] → first.forced = [] →
    (∀ u, (first.lines ≤ cmd.paid ∧ u = s0) ∨ (cmd.paid < first.lines ∧ takeTokens s0 c (engIdent c k) want = (true, u)) →
      let r := runCmd cmd1 (beginRun u c cmd1)
      let x := r.run
      x.miss = [] → x.sent = [] →
      ∃ t, exec (.engineCommandStart c { queue := k.val, errs := errs }) s = .next t ∧ { t with cores := x.st.cores } = x.st ∧
        (∀ d, d ≠ c → getCore t d = getCore x.st d) ∧
        { coreArch t c with q := (coreArch x.st c).q } = coreArch x.st c ∧
        ∀ y l, (vget (coreArch x.st c).q k).cmds = y :: l → ∃ z, (vget (coreArch t c).q k).cmds = z :: l ∧ z.started = true ∧
          z.op = y.op ∧ z.word = y.word ∧ z.seq = y.seq ∧
          match r with
          | .ended e _ => z.done = some (completionWord cmd1 e)
          | .taken _ => z.done = none
          | .part i failed _ => z.elem = i ∧ z.failed = failed ∧ z.done = y.done) ∧
    (∀ u, cmd.paid < first.lines → takeTokens s0 c (engIdent c k) want = (false, u) →
      ∃ t, exec (.engineCommandStart c { queue := k.val, errs := errs }) s = .next t ∧ t.stash = s.stash ∧ t.far = s.far ∧
        t.chunks = s.chunks ∧ t.hub = s.hub ∧ sparesOthers s c t ∧
        (vget (coreArch t c).q k).cmds = { cmd1 with asked := want } :: rest)

/-- The runs of a copy (R161, R163, R164, R234). Each run of the nest, innermost dimension fastest, moves LEN bytes from its source to its
destination, near or far; a poisoned source ends the command with STATUS 1 and the number of its run. A `copy.mc` writes the run into
every quad of its mask that has not failed; a quad with a destination chunk in a window has failed, and the command ends with STATUS 3
and the failed quads. That a poisoned nest block ends the command before any run is the model's choice (log entry 72). -/
def CopyRuns : Prop :=
  (∀ (cmd : EngCmd) (x : EngRun), cmd.op = .copy ∨ cmd.op = .copyMc → badIn cmd.block = true → runCmd cmd x = .ended (1, 0) x) ∧
  (∀ (cmd : EngCmd) (x : EngRun), badIn cmd.block = false → 4 ≤ cmd.len.toNat → memWf x.st.stash = true → memWf x.st.far = true →
    let q := x.core / 4
    let len := cmd.len.toNat
    let n := nestCount (nestDims cmd)
    let o := nestRun (nestDims cmd) cmd.elem
    (∀ a b, cmd.op = .copy → nearEa cmd.src a → nearEa cmd.dst b →
      let from_ := ((a : Int) + o.1).toNat
      let to_ := ((b : Int) + o.2).toNat
      stashIdle x.st q from_ len → stashIdle x.st q to_ len →
      (stashBad x.st q from_ len = true → runCmd cmd x = .ended (1, cmd.elem) x) ∧
      (stashBad x.st q from_ len = false → ∃ y, nearPut x q to_ (memReadN x.st.stash (stashKey q from_) len) y ∧
        nextOr cmd n [] (0, n) y (runCmd cmd x))) ∧
    (∀ k f b, cmd.op = .copy → engAddr cmd.src = some (.far k f) → nearEa cmd.dst b →
      let l := handleLoc (cmdHandle cmd k) ((f : Int) + o.1).toNat
      let pa := 64 * (l.pa / 64)
      let to_ := ((b : Int) + o.2).toNat
      let line := readLine x.st (gangOf x.st x.core) pa
      l.peer = none → l.pa - pa + len ≤ 64 → lineFree x.st pa → stashIdle x.st q to_ len →
      (line.2 = true → ∃ y, runCmd cmd x = .ended (1, cmd.elem) y ∧ y.st.stash = x.st.stash ∧ y.st.far = x.st.far) ∧
      (line.2 = false → ∃ y, nextOr cmd n [] (0, n) y (runCmd cmd x) ∧ y.lines = x.lines + 1 ∧ y.held = x.held ∧ y.st.far = x.st.far ∧
        holdsAt x.st.stash y.st.stash (stashKey q to_) ((line.1.drop (l.pa - pa)).take len))) ∧
    (∀ a k f, cmd.op = .copy → nearEa cmd.src a → engAddr cmd.dst = some (.far k f) →
      let l := handleLoc (cmdHandle cmd k) ((f : Int) + o.2).toNat
      let pa := 64 * (l.pa / 64)
      let from_ := ((a : Int) + o.1).toNat
      l.peer = none → l.pa - pa + len ≤ 64 → lineFree x.st pa → lineTakes x.st (gangOf x.st x.core) pa → stashIdle x.st q from_ len →
      stashBad x.st q from_ len = false →
      ∃ y, nextOr cmd n [] (0, n) y (runCmd cmd x) ∧ y.lines = x.lines + 1 ∧ y.held = x.held ∧ y.forced = x.forced ∧
        y.st.stash = x.st.stash ∧ holdsAt x.st.far y.st.far l.pa (memReadN x.st.stash (stashKey q from_) len)) ∧
    (∀ a, cmd.op = .copyMc → nearEa cmd.src a →
      let from_ := ((a : Int) + o.1).toNat
      let to_ := ((cmd.dst.toNat : Int) + o.2).toNat
      let qs := mcQuads x.core cmd
      let windowed (d : Nat) : Prop := ∃ i m w, to_ / 64 ≤ i ∧ i ≤ (to_ + len - 1) / 64 ∧ regionOf x.st d (64 * i) = .mapped m w
      stashIdle x.st q from_ len → to_ + len ≤ 4161536 → (∀ d ∈ qs, quadHold x.st d = none) →
      (stashBad x.st q from_ len = true → runCmd cmd x = .ended (1, cmd.elem) x) ∧
      (stashBad x.st q from_ len = false → ∃ y failed, sameRun x y ∧ y.st.far = x.st.far ∧
        (∀ d, d ∈ failed ↔ d ∈ cmd.failed ∨ (d ∈ qs ∧ windowed d)) ∧
        nextOr cmd n failed (if failed = [] then (0, 0) else (3, (failed.map (fun d => 2 ^ (d % 48))).sum)) y (runCmd cmd x) ∧
        (∀ d ∈ qs, d ∉ failed → ∀ i, i < len →
          memRead y.st.stash (stashKey d to_ + i) = memRead x.st.stash (stashKey q from_ + i)) ∧
        (∀ k, (∀ d ∈ qs, d ∉ failed → (k < stashKey d to_ ∨ stashKey d to_ + len ≤ k)) →
          memRead y.st.stash k = memRead x.st.stash k))))

/-- The window that a `smap` describes (R165). -/
def windowOf (ctx : Nat) (cmd : EngCmd) : Window :=
  { base := cmd.dst.toNat, vbase := cmd.src.toNat, rowBytes := cmd.len.toNat % 2 ^ 24, rows := cmd.len.toNat / 2 ^ 24 % 2 ^ 24,
    rowStride := cmd.nest.toNat, ro := cmd.aux.getLsbD 6, ctx := ctx, byCp := false, versions := [] }

/-- The windows that a `sinv` or `swb` names: one by its number, or all (R165). -/
def windowsNamed (s : State) (q : Nat) (cmd : EngCmd) : List (Nat × Window) :=
  if cmd.aux.getLsbD 6 then (getQuad s q).windows else (getQuad s q).windows.filter (fun e => e.1 = cmd.aux.toNat % 64)

/-- The window of a number in a quad. -/
def windowAt (s : State) (q n : Nat) : Option (Nat × Window) := (getQuad s q).windows.find? (fun e => e.1 = n)

/-- A chunk lies in a window of a quad. -/
def inWindow (q : Nat) (w : Window) (key : Nat) : Prop := chunkKey q w.base ≤ key ∧ key < chunkKey q w.base + windowBytes w / 64

/-- Stash-map windows (R165, R202, R204). A `smap` whose window has come into conflict ends with STATUS 6; else its window is installed
under its number. A `sinv` drops the C chunks of the windows it names and keeps the D ones. A `swb` writes the marked bytes of each D chunk
home, the chunk then C and its line no more registered, and with DROP removes the windows. -/
def MapRuns : Prop :=
  (∀ (cmd : EngCmd) (x : EngRun), cmd.op = .smap →
    let q := x.core / 4
    let n := cmd.aux.toNat % 64
    let w := windowOf (((getCore x.st x.core).gang).getD 0) cmd
    (mapConflict x.st q n w = true → runCmd cmd x = .ended (6, 0) x) ∧
    (mapConflict x.st q n w = false → (∀ v, (n, v) ∈ (getQuad x.st q).windows → windowChunks x.st q v = []) →
      ∃ y, sameRun x y ∧ runCmd cmd x = .ended (0, 0) y ∧ y.st.stash = x.st.stash ∧ y.st.far = x.st.far ∧ y.st.chunks = x.st.chunks ∧
        windowAt y.st q n = some (n, w) ∧ (∀ m, m ≠ n → windowAt y.st q m = windowAt x.st q m) ∧
        (∀ d, d ≠ q → getQuad y.st d = getQuad x.st d))) ∧
  (∀ (cmd : EngCmd) (x : EngRun), cmd.op = .sinv → alRising none x.st.chunks = true →
    let q := x.core / 4
    let named (key : Nat) : Prop := ∃ e ∈ windowsNamed x.st q cmd, inWindow q e.2 key
    ∃ y, sameRun x y ∧ runCmd cmd x = .ended (0, 0) y ∧ y.st.stash = x.st.stash ∧ y.st.far = x.st.far ∧ y.st.quads = x.st.quads ∧
      (∀ key ch, getChunk x.st key = some ch → ch.dirty = false → named key → getChunk y.st key = none) ∧
      (∀ key, (∀ ch, getChunk x.st key = some ch → ch.dirty = true ∨ ¬ named key) → getChunk y.st key = getChunk x.st key)) ∧
  (∀ (cmd : EngCmd) (x : EngRun), cmd.op = .swb → cmd.aux.getLsbD 7 = false →
    let q := x.core / 4
    ((∀ e ∈ windowsNamed x.st q cmd, dirtyChunks x.st q e.2 = []) → runCmd cmd x = .ended (0, 0) x) ∧
    (∀ n w key ch l, windowsNamed x.st q cmd = [(n, w)] → dirtyChunks x.st q w = [key] → getChunk x.st key = some ch →
      chunkLoc x.st w (key % 65536 * 64) = some l → l.peer = none → l.pa % 64 = 0 →
      isBad x.st l.pa = false → (isHbm l.pa = true → lineOpens x.st (chunkGang x.st key) l.pa = true) → sealWaits x.st l = false →
      memWf x.st.far = true →
      ∃ y m, runCmd cmd x = .ended (0, 0) y ∧ y.lines = x.lines + 1 ∧ y.held = x.held ∧ y.st.stash = x.st.stash ∧
        getChunk y.st key = some { dirty := false, stamp := m, mask := 0 } ∧ x.st.clock < m ∧ registered y.st l.pa = none ∧
        (∀ d, d ≠ key → getChunk y.st d = getChunk x.st d) ∧
        (∀ i, i < 64 → memRead y.st.far (l.pa + i) =
          if ch.mask.getLsbD i = true then memRead x.st.stash (chunkBase key + i) else memRead x.st.far (l.pa + i)) ∧
        (∀ p, (p < l.pa ∨ l.pa + 64 ≤ p) → memRead y.st.far p = memRead x.st.far p))) ∧
  (∀ (cmd : EngCmd) (x : EngRun), cmd.op = .swb → cmd.aux.getLsbD 7 = true →
    let q := x.core / 4
    alRising none (getQuad x.st q).windows = true → (∀ e ∈ windowsNamed x.st q cmd, windowChunks x.st q e.2 = []) →
    ∃ y, sameRun x y ∧ runCmd cmd x = .ended (0, 0) y ∧ y.st.stash = x.st.stash ∧ y.st.far = x.st.far ∧ y.st.chunks = x.st.chunks ∧
      (∀ e ∈ windowsNamed x.st q cmd, windowAt y.st q e.1 = none) ∧
      (∀ m, (∀ e ∈ windowsNamed x.st q cmd, e.1 ≠ m) → windowAt y.st q m = windowAt x.st q m))

/-- Key `a` with index `i` ranks above key `b` with index `j` (R167): by value, a NaN below every number, equal keys by index. -/
def ranksAbove (a : Lane) (i : Nat) (b : Lane) (j : Nat) : Bool :=
  ltF b a || (!isNanF a && isNanF b) || ((eqF a b || (isNanF a && isNanF b)) && decide (i < j))

/-- Gathers, scatters and `topk` (R166, R167, R234). Element i of a gather copies LEN bytes from the place that index i names to place i of
the destination, of a scatter the other way; an index beyond the stash, the gang's regions or the frame ends the command with STATUS 2,
a scatter into a protected chunk with STATUS 5, poisoned data with STATUS 1, each with the number of the element. `topk` writes the
indices of the K keys that rank highest, in ascending order. That poison anywhere in the index list ends the command before its first
element is the model's choice (log entry 72). -/
def IndexRuns : Prop :=
  (∀ (g : Bool) (cmd : EngCmd) (x : EngRun), cmd.op = (if g then .gather else .scatter) →
    let q := x.core / 4
    let n := cmd.len.toNat
    let k := cmd.aux.toNat
    let far := if g then cmd.src else cmd.dst
    let near := if g then cmd.dst else cmd.src
    let stride := if cmd.word.toNat / 2 ^ 16 % 2 ^ 32 = 0 then n else cmd.word.toNat / 2 ^ 16 % 2 ^ 32
    let off := fieldOf cmd.data (4 * cmd.elem) 4 * stride
    let here := near.toNat + cmd.elem * n
    (badIn cmd.data = true → runCmd cmd x = .ended (1, 0) x) ∧
    (∀ j o, badIn cmd.data = false → engAddr far = some (.far j o) → 2 ^ 21 < o + off + n → runCmd cmd x = .ended (2, cmd.elem) x) ∧
    (∀ ea, badIn cmd.data = false → nearEa far ea →
      let there := ea + off
      let from_ := if g then there else here
      let to_ := if g then here else there
      (spanAssigned x.st q there n = false → runCmd cmd x = .ended (2, cmd.elem) x) ∧
      (spanAssigned x.st q there n = true → g = false → spanProtected x.st q there n = true → runCmd cmd x = .ended (5, cmd.elem) x) ∧
      (1 ≤ n → stashIdle x.st q there n → stashIdle x.st q here n → memWf x.st.stash = true →
        (stashBad x.st q from_ n = true → runCmd cmd x = .ended (1, cmd.elem) x) ∧
        (stashBad x.st q from_ n = false → ∃ y, nearPut x q to_ (memReadN x.st.stash (stashKey q from_) n) y ∧
          nextOr cmd k [] (0, k) y (runCmd cmd x))))) ∧
  (∀ (cmd : EngCmd) (x : EngRun), cmd.op = .topk →
    let q := x.core / 4
    let n := cmd.aux.toNat
    let k := cmd.word.toNat / 2 ^ 16 % 2 ^ 11
    let key (i : Nat) : Lane := BitVec.ofNat 32 (leNat (memReadN x.st.stash (stashKey q cmd.src.toNat + 4 * i) 4))
    let best := (List.range n).filter (fun i =>
      decide (((List.range n).filter (fun j => ranksAbove (key j) j (key i) i)).length < k))
    1 ≤ k → k ≤ n → stashIdle x.st q cmd.src.toNat (4 * n) → stashIdle x.st q cmd.dst.toNat (4 * k) → memWf x.st.stash = true →
    (stashBad x.st q cmd.src.toNat (4 * n) = true → runCmd cmd x = .ended (1, 0) x) ∧
    (stashBad x.st q cmd.src.toNat (4 * n) = false → best.length = k ∧
      ∃ y, nearPut x q cmd.dst.toNat (best.flatMap (fun i => leBytes i 4)) y ∧ runCmd cmd x = .ended (0, k) y))

/-- The score of a token for a query with its scales (R195). -/
def scoreOf (trunc : Bool) (q sq : List (Option Dy)) (t : Token) : Lane :=
  accRound (some Dy.zero) (passSum trunc q t.key sq (List.replicate sq.length t.kscale))

/-- One token of R196 on (m, l, acc). -/
def growBy (trunc : Bool) (q sq : List (Option Dy)) (x : Lane × Lane × List Lane) (t : Token) : Lane × Lane × List Lane :=
  let s := scoreOf trunc q sq t
  let m := maxF x.1 s
  let alpha := exp2F (subF x.1 m)
  let beta := exp2F (subF s m)
  (m, fmaF x.2.1 alpha beta, List.zipWith (fun a v => fmaF a alpha (mulF beta v)) x.2.2 t.val)

/-- A head's record of a `sattn` (R252). -/
def recordOf (count : Nat) (x : Lane × Lane × List Lane) : List Byte :=
  leBytes x.1.toNat 4 ++ leBytes x.2.1.toNat 4 ++ leBytes count 4 ++ List.replicate 52 0#8 ++ laneList x.2.2

/-- The stack engines (R195 to R197, R243 to R256), from what their reads of the near operands and of the stack give. `sgemv`: a poisoned
near operand or block ends it with STATUS 21, a poisoned line of the weights or of their scales with STATUS 21 and its offset; else the
result for vector i and column j, one rounding for each segment of 256, stands at its place. `sattn`: the checks of a page by its metadata
with STATUS 16, 18 and 17, poison with STATUS 21, and the record of each head that the tokens give in order. `sred`: the first entry out
of range with STATUS 19 or 20, poison with STATUS 21, and the bag that one row, or two rows in order, give. That poison in a reserved word
of a block counts, and its place among the causes, are the model's choice (log entry 98), and so is how often a line is read (log entry
102). -/
def StackRuns : Prop :=
  (∀ (cmd : EngCmd) (x : EngRun) k o near nbad x1, cmd.op = .sgemv → engAddr cmd.src = some (.far k o) →
    nearReads (gemvOf cmd).near x = (near, nbad, x1) →
    let v := gemvOf cmd
    let frame := handleLoc (cmdHandle cmd k) 0
    let at_ (off : Nat) : Loc := { frame with pa := frame.pa + off }
    let trunc := v.xbf || decide (v.wfmt = 3)
    (nbad = true ∨ badIn cmd.block = true → runCmd cmd x = .ended (21, 0) x1) ∧
    (nbad = false → badIn cmd.block = false → ∀ rows lost x2,
      stackReads ((range' 0 v.rows).map (fun r => (at_ (o + r * v.wrow), v.n * v.ew))) x1 = (rows, lost, x2) →
      (∀ off, lost = some off → runCmd cmd x = .ended (21, off) x2) ∧
      (lost = none → ∀ ws lost2 x3,
        (if v.wfmt = 3 then ([], none, x2) else stackReads [(at_ v.wsoff, 2 * v.blocks * v.n)] x2) = (ws, lost2, x3) →
        (∀ off, lost2 = some off → runCmd cmd x = .ended (21, off) x3) ∧
        (lost2 = none → stashIdle x3.st (x3.core / 4) cmd.dst.toNat (4 * (v.nv * v.n)) → memWf x3.st.stash = true →
          ∃ y lanes, runCmd cmd x = .ended (0, v.nv * v.n) y ∧ nearPut x3 (x3.core / 4) cmd.dst.toNat (laneList lanes) y ∧
            lanes.length = v.nv * v.n ∧ ∀ i j, i < v.nv → j < v.n →
              let xi := elemsOf (if v.xbf then 2 else 1) (nthD near i [])
              let sx := scalesOf v.xbf v.blocks (((nthD near v.nv []).drop (2 * i * v.blocks)).take (2 * v.blocks))
              let sw := if v.wfmt = 3 then List.replicate v.blocks (some dyOne)
                else (range' 0 v.blocks).map (fun b => nthD (elemsOf 2 (nthD ws 0 [])) (b * v.n + j) none)
              lanes[i * v.n + j]? = some ((List.range (ceilDiv v.k 256)).foldl (fun acc p =>
                accRound (opBase acc) (passSum trunc ((xi.drop (256 * p)).take 256) (((gemvColumn v rows j).drop (256 * p)).take 256)
                  ((sx.drop (8 * p)).take 8) ((sw.drop (8 * p)).take 8))) 0#32))))) ∧
  (∀ (cmd : EngCmd) (x : EngRun), cmd.op = .sattn →
    let ctx := ((getCore x.st x.core).gang).getD 0
    let no := poolNo x.st ctx
    let v := attnOf cmd
    (poolOf x.st ctx = none → runCmd cmd x = .ended (21, 0) x) ∧
    (∀ p pg first count slot bs lost x1, poolOf x.st ctx = some p → sattnPages cmd.block = [(pg, first, count, slot)] →
      stackRead x (p.metaLoc x.st no pg.toNat 0) 512 = (bs, lost, x1) →
      let fill := leNat (bs.take 4)
      let attr := leNat ((bs.drop 4).take 4)
      (attr.testBit 8 = true → runCmd cmd x = .ended (16, pg.toNat) x1) ∧
      (attr.testBit 8 = false → (attr % 4 ≠ v.kvfmt ∨ attr / 4 % 4 ≠ v.dsel) → runCmd cmd x = .ended (18, pg.toNat) x1) ∧
      (attr.testBit 8 = false → attr % 4 = v.kvfmt → attr / 4 % 4 = v.dsel → fill < slot + count →
        runCmd cmd x = .ended (17, first + (fill - slot)) x1)) ∧
    (∀ p metas x1 near nbad x2, poolOf x.st ctx = some p →
      readMetas no p (((sattnPages cmd.block).map (fun e => e.1.toNat)).eraseDups) x = (metas, x1) →
      validateAll v metas (sattnPages cmd.block) = none → nearReads v.near x1 = (near, nbad, x2) →
      (nbad = true ∨ badIn cmd.block = true → runCmd cmd x = .ended (21, 0) x2) ∧
      (nbad = false → badIn cmd.block = false →
        (∀ page x3, readTokens no p (sattnPages cmd.block) x2 = (.inl page, x3) → runCmd cmd x = .ended (21, page) x3) ∧
        (∀ toks x3, readTokens no p (sattnPages cmd.block) x2 = (.inr toks, x3) → v.score = false → memWf x3.st.stash = true →
          stashIdle x3.st (x3.core / 4) cmd.dst.toNat (v.heads * (64 + 4 * v.dim)) → (∀ t ∈ toks, t.val.length = v.dim) →
          ∃ y, runCmd cmd x = .ended (0, v.te - v.ts) y ∧
            nearPut x3 (x3.core / 4) cmd.dst.toNat ((range' 0 v.heads).flatMap (fun g =>
              let nb := v.dim / 32
              let q := elemsOf (if v.qbf then 2 else 1) (nthD near g [])
              let sq := scalesOf v.qbf nb (((nthD near v.heads []).drop (2 * g * nb)).take (2 * nb))
              recordOf (v.te - v.ts) (toks.foldl (growBy (v.qbf || decide (v.kvfmt = 2)) q sq)
                (0xFF7FFFFF#32, 0#32, List.replicate v.dim 0#32)))) y)))) ∧
  (∀ (cmd : EngCmd) (x : EngRun) k o, cmd.op = .sred → engAddr cmd.src = some (.far k o) →
    let v := bagsOf cmd
    let row (i : Nat) : Nat := fieldOf cmd.data (4 * i) 3
    let bag (i : Nat) : Nat := fieldOf cmd.data (4 * i + 3) 1
    let good (i : Nat) : Prop := row i < v.rows ∧ bag i < v.nbags
    let frame := handleLoc (cmdHandle cmd k) 0
    let place (i : Nat) : Loc := { frame with pa := frame.pa + o + row i * v.stride }
    let lanes (bs : List Byte) : List Lane := (range' 0 v.dim).map (fun i => ofBf16 (leNat ((bs.drop (2 * i)).take 2)))
    let alone (l : List Lane) : List Lane := if v.max then l else l.map (addF 0#32)
    let bags (b : Nat) (l : List Lane) : List Byte :=
      (range' 0 v.nbags).flatMap (fun i => laneList (if i = b then l else List.replicate v.dim 0#32))
    (∀ i, i < v.nidx → (∀ j, j < i → good j) → v.rows ≤ row i → runCmd cmd x = .ended (19, i) x) ∧
    (∀ i, i < v.nidx → (∀ j, j < i → good j) → row i < v.rows → v.nbags ≤ bag i → runCmd cmd x = .ended (20, i) x) ∧
    ((∀ i, i < v.nidx → good i) → (badIn cmd.block = true ∨ badIn cmd.data = true) → runCmd cmd x = .ended (21, 0) x) ∧
    ((∀ i, i < v.nidx → good i) → badIn cmd.block = false → badIn cmd.data = false → v.fmt = 2 →
      ∀ bs lost x1, stackRead x (place 0) (v.dim * 2) = (bs, lost, x1) → 1 ≤ v.nidx →
      (∀ off, lost = some off → runCmd cmd x = .ended (21, off) x1) ∧
      (lost = none → v.nidx = 1 → stashIdle x1.st (x1.core / 4) cmd.dst.toNat (4 * (v.nbags * v.dim)) → memWf x1.st.stash = true →
        ∃ y, runCmd cmd x = .ended (0, 1) y ∧ nearPut x1 (x1.core / 4) cmd.dst.toNat (bags (bag 0) (alone (lanes bs))) y) ∧
      (lost = none → v.nidx = 2 → bag 1 = bag 0 → ∀ bs2 x2, stackRead x1 (place 1) (v.dim * 2) = (bs2, none, x2) →
        stashIdle x2.st (x2.core / 4) cmd.dst.toNat (4 * (v.nbags * v.dim)) → memWf x2.st.stash = true →
        ∃ y, runCmd cmd x = .ended (0, 2) y ∧ nearPut x2 (x2.core / 4) cmd.dst.toNat
          (bags (bag 0) (List.zipWith (if v.max then maxF else addF) (alone (lanes bs)) (lanes bs2))) y)))

/-- The collectives of one module (R168). A member's command takes its source buffer as its part of its phase. It has no outcome before its
phase is released and every member's part is there; parts that do not agree in operation, length, function, format and root end it with
STATUS 4, a poisoned one with STATUS 1; a `cbcast` receives the root's buffer, the others the pairwise tree over the ranks, which of a
`creduce` only the root receives. A member that receives it writes it to its destination when it completes. -/
def CollectiveRuns : Prop :=
  (∀ (cmd : EngCmd) (x : EngRun) bs bad x1, isColl cmd.op = true → engNearRead x (x.core / 4) cmd.src.toNat cmd.len.toNat = (bs, bad, x1) →
    let id := collChan x1.st x1.core cmd
    id.scope ≠ 5 → ∃ y p, runCmd cmd x = .taken y ∧ sameRun x1 y ∧ y.st.stash = x1.st.stash ∧ y.st.far = x1.st.far ∧
      y.st.cores = x1.st.cores ∧ (getChan y.st id).parts = (getChan x1.st id).parts ++ [p] ∧
      (getChan y.st id).released = (getChan x1.st id).released ∧ (∀ d, d ≠ id → getChan y.st d = getChan x1.st d) ∧
      p.phase = cmd.phase ∧ p.core = x1.core ∧ p.op = collOp cmd.op ∧ p.fn = cmd.word.toNat / 2 ^ 25 % 4 ∧
      p.fmt = cmd.word.toNat / 2 ^ 27 % 2 ∧ p.root = cmd.aux.toNat ∧ p.bytes = bs ∧ p.bad = bad) ∧
  (∀ (s : State) (c : Nat) (cmd : EngCmd),
    let id := collChan s c cmd
    let ch := getChan s id
    let ms := chanMembers s id
    let mine := ((gangOf s c).map (fun g => rankOf g c)).getD 0
    let received (bs : List Byte) : Option (EngEnd × Option (List Byte)) :=
      some ((0, 0), if cmd.op = .creduce ∧ mine ≠ cmd.aux.toNat then none else some bs)
    id.scope ≠ 5 →
    (phaseReleased s id cmd.phase = false → collOutcome s c cmd = none) ∧
    (∀ m ∈ ms, findPart ch cmd.phase m = none → hasColl s m id cmd.phase = true → collOutcome s c cmd = none) ∧
    (phaseReleased s id cmd.phase = true → ms ≠ [] → ∀ (p : Nat → CollPart), (∀ m ∈ ms, findPart ch cmd.phase m = some (p m)) →
      ((∃ m ∈ ms, ∃ n ∈ ms, partsAgree (p m) (p n) = false) → collOutcome s c cmd = some ((4, 0), none)) ∧
      ((∀ m ∈ ms, ∀ n ∈ ms, partsAgree (p m) (p n) = true) →
        ((∃ m ∈ ms, (p m).bad = true) → collOutcome s c cmd = some ((1, 0), none)) ∧
        ((∀ m ∈ ms, (p m).bad = false) → ∀ g, getGang s id.ctx = some g → ∀ m ∈ ms,
          (∀ d, (p m).op = 1 → (gangCores g)[(p m).root]? = some d → d ∈ ms → collOutcome s c cmd = received (p d).bytes) ∧
          (∀ n, (p m).op ≠ 1 → gangCores g = ms → ms.length = 2 ^ n → collOutcome s c cmd =
            received (treeOf (combBufs (p m).fn (p m).fmt) (fun i => (p (nthD ms i 0)).bytes) n 0)))))) ∧
  (∀ (s : State) (c : Nat) (k : Fin 5) (cmd : EngCmd) (rest : List EngCmd), (vget (coreArch s c).q k).cmds = cmd :: rest →
    isColl cmd.op = true → cmd.done = none → cmd.started = true → cmd.waitFor = [] → (getCore s c).status ≠ .stopped → s.todo = [] →
    s.served = true → cmd.asked = 0 →
    (collOutcome s c cmd = none → exec (.engineCommandCompletion c k.val) s = .next s) ∧
    (∀ e r, collOutcome s c cmd = some (e, r) →
      (∀ bs, r = some bs → stashIdle s (c / 4) cmd.dst.toNat bs.length) → memWf s.stash = true →
      ∃ t z, exec (.engineCommandCompletion c k.val) s = .next t ∧ (vget (coreArch t c).q k).cmds = z :: rest ∧
        z.done = some (completionWord cmd e) ∧ holdsAt s.stash t.stash (stashKey (c / 4) cmd.dst.toNat) (r.getD []) ∧ t.far = s.far ∧
        sparesOthers s c t ∧ (coreArch t c).regs = (coreArch s c).regs))

/-- The key-value and prefix commands (R262, R263, R270 to R278). Without a pool they end with STATUS 1. An append ends with the first of
its causes: a poisoned record, a malformed one, a full one, a position that is not its length, poisoned data; when it is performed the
record is one position longer. A compaction with a keep list that does not rise below the length ends with STATUS 40 and the entry, and
writes nothing. A lookup ends with STATUS 41 at a malformed stream and 36 at one that is not empty; an insertion with 36 at a stream that
is too short, and when all its tokens are there already it adds nothing and delivers their node. A release empties its records, or takes a
leaf out of the index, and ends with STATUS 39 for a node that is absent or has children. -/
def PageRuns : Prop :=
  (∀ (cmd : EngCmd) (x : EngRun), cmd.op ∈ [EngOp.kvapp, .kvcomp, .pxlook, .pxins, .pxrel] → kvEnv x.st x.core = none →
    runCmd cmd x = .ended (1, 0) x) ∧
  (∀ (cmd : EngCmd) (x : EngRun) v, cmd.op = .kvapp → kvEnv x.st x.core = some v →
    let b := kvAppOf cmd.block
    let i := cmd.elem
    let l := recLoc cmd (nthD b.recs i 0) 0
    (badIn cmd.block = true → runCmd cmd x = .ended (1, 0) x) ∧
    (badIn cmd.block = false → ∀ bs bad x1, engFarRead x l 192 = (bs, bad, x1) →
      let r := parseStream bs
      let full := r.length = 2 ^ 20 ∨ b.pos = 2 ^ 20
      (bad = true → runCmd cmd x = .ended (1, i) x1) ∧
      (bad = false → streamBad v.pool r = true → runCmd cmd x = .ended (41, i) x1) ∧
      (bad = false → streamBad v.pool r = false → full → runCmd cmd x = .ended (35, i) x1) ∧
      (bad = false → streamBad v.pool r = false → ¬ full → b.pos ≠ r.length → runCmd cmd x = .ended (32, i) x1) ∧
      (bad = false → streamBad v.pool r = false → ¬ full → b.pos = r.length → (kvSlot v.pool cmd i).2 = true →
        runCmd cmd x = .ended (1, i) x1)) ∧
    (∀ y, runCmd cmd x = .part (i + 1) [] y ∨ runCmd cmd x = .ended (0, b.nstr) y → l.peer = none → l.pa % 64 = 0 →
      memWf x.st.far = true → ∃ exts, exts.length ≤ 16 ∧ extentsLen exts = b.pos + 1 ∧
        memReadN y.st.far l.pa 192 = streamBytes { next := exts.length, length := b.pos + 1, exts := exts })) ∧
  (∀ (cmd : EngCmd) (x : EngRun) v bs x0, cmd.op = .kvcomp → kvEnv x.st x.core = some v →
    engFarRead x (recLoc cmd (compRec cmd.block) 0) 192 = (bs, false, x0) → badIn cmd.block = false → badIn cmd.data = false →
    let r := parseStream bs
    let keep (i : Nat) : Nat := fieldOf cmd.data (4 * i) 4
    let good (i : Nat) : Prop := keep i < r.length ∧ ∀ j, j + 1 = i → keep j < keep i
    (streamBad v.pool r = true → runCmd cmd x = .ended (41, 0) x0) ∧
    (∀ i, streamBad v.pool r = false → i < compNkeep cmd.block → (∀ j, j < i → good j) → ¬ good i →
      ∃ y, runCmd cmd x = .ended (40, i) y ∧ y.st.far = x.st.far ∧ y.st.stash = x.st.stash)) ∧
  (∀ (cmd : EngCmd) (x : EngRun) v rs bad x1, cmd.op = .pxlook ∨ cmd.op = .pxins → kvEnv x.st x.core = some v →
    let ns := ((getDomain x.st (pxDomain cmd.block)).map (·.ns)).getD 0
    let toks := pxTokens cmd (pxCount cmd.block)
    readStreams cmd (pxSarr cmd.block) (range' 0 ns) x = (rs, bad, x1) →
    (bad = true ∨ badIn cmd.block = true ∨ badIn cmd.data = true → runCmd cmd x = .ended (1, 0) x1) ∧
    (bad = false → badIn cmd.block = false → badIn cmd.data = false →
      (∀ (j : Nat) r, rs[j]? = some r → streamBad v.pool r = true → (∀ (i : Nat) q, i < j → rs[i]? = some q → streamBad v.pool q = false) →
        runCmd cmd x = .ended (41, j) x1) ∧
      ((∀ r ∈ rs, streamBad v.pool r = false) →
        let wrong (r : Stream) : Prop := if cmd.op = .pxlook then r.next ≠ 0 else r.length < pxCount cmd.block
        (∀ (j : Nat) r, rs[j]? = some r → wrong r → (∀ (i : Nat) q, i < j → rs[i]? = some q → ¬ wrong q) →
          runCmd cmd x = .ended (36, j) x1) ∧
        (cmd.op = .pxins → (∀ r ∈ rs, ¬ wrong r) →
          ∀ path, pxWalk x.st.hub.nodes (pxDomain cmd.block) toks.length 0 toks = (path, pxCount cmd.block) →
          memWf x1.st.stash = true → stashIdle x1.st (x1.core / 4) cmd.dst.toNat 8 →
          ∃ y, runCmd cmd x = .ended (0, 0) y ∧
            nearPut x1 (x1.core / 4) cmd.dst.toNat (leBytes 0 4 ++ leBytes ((path.getLast?.map (·.1)).getD 0) 4) y)))) ∧
  (∀ (cmd : EngCmd) (x : EngRun) v, cmd.op = .pxrel → kvEnv x.st x.core = some v →
    let n := pxCount cmd.block
    let dom := pxDomain cmd.block
    let node? := x.st.hub.nodes.find? (fun e => e.1 = n && e.2.dom = dom)
    let children := ∃ e ∈ x.st.hub.nodes, e.2.dom = dom ∧ e.2.parent = n
    let i := cmd.elem
    let l := recLoc cmd (pxSarr cmd.block) (192 * i)
    (badIn cmd.block = true → runCmd cmd x = .ended (1, 0) x) ∧
    (badIn cmd.block = false → cmd.word.getLsbD 16 = true →
      (node? = none ∨ children → runCmd cmd x = .ended (39, n) x) ∧
      (∀ e failed x1, node? = some e → ¬ children → readHeads v (nodeHolds e.2) x = (failed, x1) →
        (failed = true → runCmd cmd x = .ended (1, 0) x1) ∧
        (failed = false → ∃ y, runCmd cmd x = .ended (0, 1) y ∧ y.st.hub.nodes = alDel x.st.hub.nodes n))) ∧
    (badIn cmd.block = false → cmd.word.getLsbD 16 = false → ∀ bs bad x1, engFarRead x l 192 = (bs, bad, x1) →
      (bad = true → runCmd cmd x = .ended (1, 0) x1) ∧
      (bad = false → streamBad v.pool (parseStream bs) = true → runCmd cmd x = .ended (41, i) x1) ∧
      (∀ y, runCmd cmd x = .part (i + 1) [] y ∨ runCmd cmd x = .ended (0, n) y → l.peer = none → l.pa % 64 = 0 →
        memWf x.st.far = true → memReadN y.st.far l.pa 192 = List.replicate 192 0#8)))

end Sys2Proof.Claims

/-- Running and completing engine commands (R157, R163, R169, R172, R173). A copy without a nest block from one temporary range of the
core's quad to another, unpoisoned, copies its bytes and no others and is done with STATUS 0 and DETAIL 1. A command whose accesses
are done leaves its queue, whatever it is, the completed count steps, its word is kept, and with IRQ its event is latched; only a
`sattn` writes memory then, the pages it held. A fence that heads every queue it names passes. The steps of a command and the runs of the
nineteen operations are as EngineSteps, CopyRuns, MapRuns, IndexRuns, StackRuns, CollectiveRuns and PageRuns state (R163 to R168, R195 to
R197, R249 to R256, R271 to R277). That a whole element is performed in one step is the model's choice (log entry 26), and that its
bank accesses take no bank (log entry 97). -/
def Obligations.CommandEvents : Prop :=
  EngineSteps ∧ CopyRuns ∧ MapRuns ∧ IndexRuns ∧ StackRuns ∧ CollectiveRuns ∧ PageRuns ∧
  (∀ (s : State) (c : Nat) (cmd : EngCmd) (rest : List EngCmd) (a b : Nat),
    let q := vget (coreArch s c).q 0
    let n := cmd.len.toNat
    q.cmds = cmd :: rest → cmd.op = .copy → startReady s c 0 cmd = true → cmd.asked = 0 → cmd.elem = 0 → cmd.block = [] →
    cmd.nest.getLsbD 22 = false → nearEa cmd.src a → nearEa cmd.dst b → 4 ≤ n →
    (∀ k, a / 64 ≤ k → k ≤ (a + n - 1) / 64 → regionOf s (c / 4) (64 * k) = .temp) →
    (∀ k, b / 64 ≤ k → k ≤ (b + n - 1) / 64 → regionOf s (c / 4) (64 * k) = .temp) →
    stashBad s (c / 4) a n = false → memWf s.stash = true → s.chunks = [] →
    ∃ t, exec (.engineCommandStart c { queue := 0, errs := 0 }) s = .next t ∧
      (∀ i, i < n → memRead t.stash (stashKey (c / 4) b + i) = memRead s.stash (stashKey (c / 4) a + i)) ∧
      (∀ k, (k < stashKey (c / 4) b ∨ stashKey (c / 4) b + n ≤ k) → memRead t.stash k = memRead s.stash k) ∧ t.far = s.far ∧
      (∃ e, (vget (coreArch t c).q 0).cmds = e :: rest ∧ e.done = some (BitVec.ofNat 64 (256 * cmdTag cmd.word + 65536 * 1)) ∧ e.started = true) ∧
      (coreArch t c).regs = (coreArch s c).regs) ∧
  (∀ (s : State) (c : Nat) (k : Fin 5) (cmd : EngCmd) (rest : List EngCmd) (w : Word),
    let q := vget (coreArch s c).q k
    q.cmds = cmd :: rest → cmd.done = some w → cmd.waitFor = [] → (∀ n m, cmd.op ≠ .fence n m) →
    ∃ t, exec (.engineCommandCompletion c k.val) s = .next t ∧ (vget (coreArch t c).q k).cmds = rest ∧
      (vget (coreArch t c).q k).completed = q.completed + 1 ∧ (vget (coreArch t c).q k).issued = q.issued ∧
      (vget (coreArch t c).q k).kept = ((cmd.seq, w) :: q.kept).take 64 ∧
      (∀ j, j ≠ k → vget (coreArch t c).q j = vget (coreArch s c).q j) ∧
      (coreArch t c).order.engEvents = (coreArch s c).order.engEvents ++
        (if cmd.word.getLsbD 0 = true ∧ taskOver (getCore s c) = false then [(k.val, w)] else []) ∧
      (coreArch t c).regs = (coreArch s c).regs ∧ (∀ d, d ≠ c → getCore t d = getCore s d) ∧ t.stash = s.stash ∧
      (cmd.op ≠ .sattn → t.far = s.far)) ∧
  (∀ (s : State) (c : Nat) (k : Fin 5) (cmd : EngCmd) (rest : List EngCmd) (n : Nat) (m : BitVec 5),
    (vget (coreArch s c).q k).cmds = cmd :: rest → cmd.op = .fence n m →
    (∀ j : Fin 5, m.getLsbD j.val = true → ∃ e l, (vget (coreArch s c).q j).cmds = e :: l ∧ e.op = .fence n m) →
    ∃ t, exec (.engineCommandCompletion c k.val) s = .next t ∧ sparesOthers s c t ∧
      (∀ j : Fin 5, vget (coreArch t c).q j = if m.getLsbD j.val = true
        then { vget (coreArch s c).q j with cmds := (vget (coreArch s c).q j).cmds.drop 1 } else vget (coreArch s c).q j))
/-! Gangs, launches and replies. -/

namespace Sys2Proof.Claims

/-- A gang as it stands under its block's number. -/
def gangAt (s : State) (ctx : Nat) (g : Gang) : Prop := getGang s ctx = some g ∧ g.ctx = ctx

/-- The binding of a block at a stage. -/
def stageAt (s : State) (ctx : Nat) (x : BindStage) : Prop := ∃ b, getBind s ctx = some b ∧ b.stage = x

/-- An outgoing message is the only change of the outbox. -/
def sends (s t : State) (o : Outgoing) : Prop := t.edge.outbox = s.edge.outbox ++ [o]

end Sys2Proof.Claims

/-- The life of a gang (R36, R285, R291, R292, R315, R341, R342, R359). A marked member at a safe point or in a wait stops with its stores
released while another member still runs; a gang whose members rest is saved; a resumed gang runs, its members bound with the registers
of their image; a gang that is done leaves, and where its route ends its request is answered; AGED is set after 10 ms; an idle quad
is left by its world and gated; a reply due leaves on its port with the session's next SEQ, or is held without a link, for 1 ms. That a
gang is saved in one step, its image held by the hub, is the model's choice (log entry 58), and so is when the banks and tokens of its
writebacks are taken (log entries 23 and 97). -/
def Obligations.GangEvents : Prop :=
  ∀ s : State,
    (∀ c d ctx g, (getCore s c).status = .bound → (getCore s c).rerun = none → (getCore s c).mark.isSome = true → (getCore s c).gang = some ctx → getGang s ctx = some g →
      (atSafePoint (coreArch s c) = true ∨ (coreArch s c).seq.wait.isSome = true) → d ∈ gangCores g → d ≠ c → (getCore s d).status = .bound →
      ∃ t, exec (.preemptionStop c) s = .next t ∧ (getCore t c).status = .stopped ∧ (getCore t c).mark = none ∧
        (coreArch t c).order.sbuf = [] ∧ (coreArch t c).order.released = (coreArch s c).order.released ++ (coreArch s c).order.sbuf ∧
        (coreArch t c).regs = (coreArch s c).regs ∧ (coreArch t c).csr = (coreArch s c).csr ∧ sparesOthers s c t) ∧
    (∀ c ctx g, (getCore s c).status = .stopped → (getCore s c).gang = some ctx → gangAt s ctx g → savable s g = true → g.remap = [] →
      (∀ q ∈ g.quads, (getQuad s q).windows = []) → flushAskable s g = true →
      ∃ t h, exec (.preemptionStop c) s = .next t ∧ gangAt t ctx h ∧ h.st = .stopped ∧ h.saves = g.saves + 1 ∧
        h.image = some (makeImage s g) ∧ (∀ q ∈ g.quads, (getQuad t q).busy = none) ∧ (getBind t ctx).isSome = true) ∧
    (∀ ctx g t m, gangAt s ctx g → g.st = .resuming t → g.image = some m → t ≤ s.now → s.hub.xfers = [] →
      measuredRight s ctx g.recIx = true → m.cores.map (·.1) = gangCores g → (gangCores g).Nodup → m.version = g.saves →
      (∀ e ∈ m.cores, e.2.arch.anv.shadow.loaded = false ∧ e.2.arch.anv.active.loaded = false ∧ (vget e.2.arch.q 3).cmds = []) →
      ∃ u h, exec (.gangResume { ctx := ctx, intact := true }) s = .next u ∧ gangAt u ctx h ∧ h.st = .running ∧ h.image = none ∧
        (∀ e ∈ m.cores, (coreArch u e.1).regs.g = e.2.arch.regs.g ∧ (coreArch u e.1).csr.cyc = e.2.arch.csr.cyc ∧
          (coreArch u e.1).seq.pc = e.2.arch.seq.pc ∧ (e.2.status = .bound ∨ e.2.status = .stopped → (getCore u e.1).status = .bound))) ∧
    (∀ ctx g t m, gangAt s ctx g → g.st = .resuming t → g.image = some m → t ≤ s.now →
      (measuredRight s ctx g.recIx = false → exec (.gangResume { ctx := ctx, intact := true }) s = .next (endGangAll s g 0x82)) ∧
      (measuredRight s ctx g.recIx = true → m.version ≠ g.saves →
        exec (.gangResume { ctx := ctx, intact := true }) s = .next (endGangAll s g 0x36))) ∧
    (∀ ctx g, gangAt s ctx g → gangDone s g = true → (∀ q ∈ g.quads, (getQuad s q).windows = []) → flushAskable s g = true →
      s.hub.unsettled = [] → s.hub.xfers = [] →
      ∃ t, exec (.gangCompletion ctx) s = .next t ∧ t.hub.gangs = alDel s.hub.gangs ctx ∧
        (∀ r, g.cause = none → recDyn g.record = false → recNext g.record = 0xFFFF → reqOf s ctx g.ix = some r →
          t.hub.reqs = s.hub.reqs.erase r ∧
          ∃ d, t.hub.replies = s.hub.replies ++ [d] ∧ d.req = r ∧ d.since = s.now ∧ (d.status = 0 ∨ d.status = 2))) ∧
    (∀ ctx t, headSince s ctx = some t → t + 9400000 ≤ s.now →
      exec (.requestAgeing ctx) s = .next (setBlock s ctx (setBlkAged (getBlock s ctx) true))) ∧
    (∀ q, (getQuad s q).power ≠ .gated → (getQuad s q).busy = none → (getQuad s q).idleSince + 94000 ≤ s.now → heldForStopped s q = false →
      reservedFor s 16384 q = false →
      ∃ t, exec (.quadPowerGate q) s = .next t ∧ (getQuad t q).power = .gated ∧ (getQuad t q).world = none ∧
        (∀ c, c / 4 = q → (getCore t c).imem = [] ∧ (getCore t c).loadedFor = none) ∧
        (∀ a, a < 4194304 → memRead t.stash (stashKey q a) = 0#8)) ∧
    (∀ ctx r x, dueReply s ctx = some r → getSession s r.req.session = some x → x.sq.out < 2 ^ 63 →
      ∃ t, exec (.reply ctx) s = .next t ∧ t.hub.replies = s.hub.replies.erase r ∧
        (s.edge.links.getLsbD r.req.port = true → ∃ at_ way, s.now ≤ at_ ∧ way.ethDst = r.req.origin.mac ∧ way.tag = r.req.origin.tag ∧
          way.ipSrc = r.req.origin.dst ∧ way.ipDst = r.req.origin.src ∧ way.udpSrc = 47334 ∧ way.udpDst = r.req.origin.udp.toNat ∧
          sends s t (.frame r.req.port r.cls r.req.ctx r.req.session r.req.rid x.sq.out r.status (modIdent s) r.body way at_)) ∧
        (s.edge.links.getLsbD r.req.port = false → t.edge.outbox = s.edge.outbox ∧ ∃ h, t.edge.held = s.edge.held ++ [h] ∧
          h.port = r.req.port ∧ h.since = s.now)) ∧
    (∀ port, ∃ t, exec (.replyHoldExpiry port) s = .next t ∧
      t.edge.held = s.edge.held.filter (fun h => !decide (h.port = port ∧ h.since + 940000 ≤ s.now)) ∧ t.cores = s.cores ∧ t.hub = s.hub)

/-- Placement and the steps of a launch (R286, R288, R289, R357). A request placed by its hint takes 20 periods and its broadcast ends after
68, another 64 and 112; one whose best candidate is to wait is placed again later; a stopped gang takes its own quads. After the
broadcast victims are marked, or the cold steps begin; a schedule whose measurement differs is not loaded, and the request ends with an
error reply of code 0x82; the near image that is not staged is read before the start step; at the end of the start step, all being
ready, the gang runs on its quads and every core of them is bound at the record's ENTRY; a launch whose quads are withdrawn is placed
again. That the placement is chosen at the start of its time is the model's choice (log entry 31); the drain and the victims' dates are
inferences (log entries 32 and 35). -/
def Obligations.LaunchEvents : Prop :=
  ∀ s : State,
    (∀ ctx b, nextToPlace s = some (ctx, b) → s.hub.placeAt ≤ s.now →
      (∀ g, b.resume = true → getGang s ctx = some g → ∃ t, exec (.placement ctx) s = .next t ∧ t.hub.placeAt = s.now + 64 ∧
        stageAt t ctx (if resumable s g then .reserved g.quads else .deferred)) ∧
      (∀ rc, b.resume = false → routeRec s ctx b.recIx = some rc → buffersFree s (wantOf ctx (getBlock s ctx) b.recIx rc).world rc = true →
        let w := wantOf ctx (getBlock s ctx) b.recIx rc
        w.n ≠ 0 →
        (∀ q, hintQuads s w (blkHint (getBlock s ctx)) = some q → ∃ t up, exec (.placement ctx) s = .next t ∧ t.hub.placeAt = s.now + 20 ∧
          stageAt t ctx (.broadcast q (s.now + 68) [] 0 up)) ∧
        (hintQuads s w (blkHint (getBlock s ctx)) = none →
          (∀ c, bestCand (candidates s w 112) = some c → c.kind ≠ 1 → ∃ t up, exec (.placement ctx) s = .next t ∧
            t.hub.placeAt = s.now + 64 ∧ stageAt t ctx (.broadcast c.quads (s.now + 112) c.victims (if c.kind = 2 then 9024 else 0) up)) ∧
          ((bestCand (candidates s w 112) = none ∨ ∃ c, bestCand (candidates s w 112) = some c ∧ c.kind = 1) →
            ∃ t, exec (.placement ctx) s = .next t ∧ t.hub.placeAt = s.now + 64 ∧ stageAt t ctx .deferred)))) ∧
    (∀ ctx b r, getBind s ctx = some b → quadsGone s b = true → r.ctx = ctx → ∃ t, exec (.launchStart r) s = .next t ∧
      (∃ d, getBind t ctx = some d ∧ d.stage = .waiting ∧ d.ix = b.ix ∧ d.recIx = b.recIx) ∧ blkState (getBlock t ctx) = stReady ∧
      t.cores = s.cores) ∧
    (∀ ctx b rc, getBind s ctx = some b → routeRec s ctx b.recIx = some rc → quadsGone s b = false →
      (∀ quads at_ wake up, b.stage = .broadcast quads at_ [] wake up → at_ ≤ s.now →
        exec (.launchStart { ctx := ctx, intact := true }) s = .next (beginAt s ctx b rc quads (s.now + wake) up)) ∧
      (∀ quads at_ up, b.stage = .waking quads at_ up → at_ ≤ s.now → exec (.launchStart { ctx := ctx, intact := true }) s = .next (beginCold s ctx b rc quads up)) ∧
      (∀ quads at_ v vs wake up, b.stage = .broadcast quads at_ (v :: vs) wake up → at_ ≤ s.now → ∃ t, exec (.launchStart { ctx := ctx, intact := true }) s = .next t ∧
        stageAt t ctx (.stopping quads (v :: vs))) ∧
      (∀ quads vs, b.stage = .stopping quads vs → victimsSaved s vs = true → (∀ q ∈ quads, (getQuad s q).busy = none) →
        exec (.launchStart { ctx := ctx, intact := true }) s = .next (beginAt s ctx b rc quads (saveEnd s vs) 0)) ∧
      (∀ quads at_ up, b.stage = .unsealing quads at_ up → at_ ≤ s.now →
        (measuredRight s ctx b.recIx = true ∨ quads.all (quadWarm s (blkWorld (getBlock s ctx)) ctx b.recIx rc) = true) →
        ∃ t, exec (.launchStart { ctx := ctx, intact := true }) s = .next t ∧
          (coldImage s ctx b.recIx rc = 0 → ∃ x, s.now + ceilDiv (recNearLen rc) 512 + 12 ≤ x ∧ stageAt t ctx (.starting quads x)) ∧
          (coldImage s ctx b.recIx rc ≠ 0 → stageAt t ctx (.imaging quads (s.now + coldImage s ctx b.recIx rc) up))) ∧
      (∀ quads at_ up, b.stage = .imaging quads at_ up → at_ ≤ s.now → ∃ t x, exec (.launchStart { ctx := ctx, intact := true }) s = .next t ∧
        s.now + ceilDiv (recNearLen rc) 512 + 12 ≤ x ∧ stageAt t ctx (.starting quads x)) ∧
      (∀ quads at_ up r ok, b.stage = .unsealing quads at_ up → at_ ≤ s.now → reqOf s ctx b.ix = some r →
        (ok = false ∨ measuredRight s ctx b.recIx = false) →
        quads.all (quadWarm s (blkWorld (getBlock s ctx)) ctx b.recIx rc) = false → ∃ t d, exec (.launchStart { ctx := ctx, intact := ok }) s = .next t ∧
        t.cores = s.cores ∧ t.hub.replies = s.hub.replies ++ [d] ∧ d.req = r ∧ d.status = 2 ∧ d.body.take 1 = [0x82#8]) ∧
      (∀ quads at_, b.stage = .starting quads at_ → at_ ≤ s.now → entryReady s ctx b rc quads = true →
        ∃ t g, exec (.launchStart { ctx := ctx, intact := true }) s = .next t ∧ gangAt t ctx g ∧ g.st = .running ∧ g.quads = quads ∧ g.record = rc ∧
          (∀ c, c / 4 ∈ quads → (getCore t c).status = .bound ∧ (getCore t c).gang = some ctx ∧
            (coreArch t c).seq.pc = BitVec.ofNat 13 (recEntry rc) ∧ (coreArch t c).csr.cyc = 0)))

/-! The pod, the ports and the host. -/

namespace Sys2Proof.Claims

/-- A frame that goes on past its port: FCS good, at most 9,216 bytes, to the Uludin port of this module's address, and the functions
answer (R335, R337, R343, R356). -/
def arrives (s : State) (f : UFrame) : Prop :=
  f.fcsOk = true ∧ arrivedBytes f ≤ 9216 ∧ answers s = true ∧ f.origin.udpDst.toNat = uludinPort ∧ addressedHere s f.origin = true

/-- A pod frame of class `cls` from module `src` that passes the checks on its header. -/
def podPasses (s : State) (cls : Nat) (f : UFrame) (src : Nat) : Prop :=
  arrives s f ∧ f.session = 0 ∧ s.edge.podKey.isSome = true ∧ podSender s f.origin = some src ∧ (getPeer s src).fresh f.seq = true ∧
    tagGood s f false = true ∧ headerFault f (fun c => decide (c = cls)) (modIdent s) = none ∧ f.cls = cls ∧ f.ctx = 0

/-- What the body of a PLOAD, PSTORE or PATOM asks for, by the layout of R346. -/
def podAsks (src : Nat) (f : UFrame) (r : PodReq) : Prop :=
  let g (off len : Nat) : Nat := leNat ((f.body.drop off).take len)
  r = { src := src, xfer := g 0 4, world := g 4 2, fn := g 6 1, paddr := g 8 8, mask := BitVec.ofNat 64 (g 0x10 8), data := f.body.drop 0x20 } ∧
    f.rid = r.xfer ∧ g 7 1 = 0 ∧ g 0x18 8 = 0

/-- A pod request that is served for the first time, and at once: not answered before, its frame exported, its line in no chunk, opening,
and with a generation to be sealed under. -/
def serves (s : State) (r : PodReq) : Prop :=
  recorded s r.src r.xfer = none ∧ isExported s r = true ∧ podWaits s r = false ∧ lineTakes s none (podPa r / 64 * 64) ∧ memWf s.far = true

/-- The answer of a served request is recorded. -/
def answers_ (s t : State) (r : PodReq) (data : List Byte) : Prop :=
  ∃ a, t.hub.answered = s.hub.answered ++ [(r.xfer, r.src, a)] ∧ a.xfer = r.xfer ∧ a.result = 0 ∧ a.data = data

/-- What a PCOLL says, by the layout of R346. -/
def collSays (src : Nat) (x : CollFrame) (r : PColl) : Prop :=
  let g (off len : Nat) : Nat := leNat ((x.frame.body.drop off).take len)
  r = { src := src, group := g 0 2, channel := g 2 1, kind := g 3 1, phase := g 4 4, xfer := g 8 4, op := g 0xC 1, fnfmt := g 0xD 1,
        root := g 0xE 2, offset := g 0x10 4, total := g 0x14 4, data := x.frame.body.drop 0x20, tasks := x.tasks } ∧
    32 ≤ x.frame.len ∧ x.frame.rid = r.xfer ∧ g 0x18 8 = 0

/-- The state with the SEQ of a pod frame marked. -/
def podMarked (s : State) (src : Nat) (f : UFrame) : State := setPeer s src ((getPeer s src).mark f.seq)

/-- A tenant's session frame that passes the checks on its header; a reply carries DIR 1 (R339). -/
def accepted (s : State) (f : UFrame) (role : Nat) (x : Session) : Prop :=
  arrives s f ∧ f.session ≠ 0 ∧ tagGood s f (decide (role = 1)) = true ∧ getSession s f.session = some x ∧ x.role = role ∧
    x.sq.fresh f.seq = true

end Sys2Proof.Claims

/-- The Ethernet side (R282, R335 to R348). A PLOAD answers the line, a PSTORE writes the masked bytes, a PATOM does its atomic as one step,
each recorded, a repeated one answered from the record; an answer to a store ends it; a transfer without an answer for 16 µs is sent again
and after eight resends has failed; a PCOLL acknowledgement ends its transfer and a new PCOLL takes effect once. An INVOKE that passes its
checks joins its ring, arrived 64 periods earlier; a frame with a bad FCS is dropped and counted; the send ring's doorbell takes its
entries, a sent request without a reply for 1 s fails; links are lost and come up. The model's choices: the lookup's end as the step of
an INVOKE (log entry 36), the pod sender by its address and the records that are kept (40, 41), the agenda's word for what arrives (39),
and the tokens of the send ring (85). -/
def Obligations.PodEvents : Prop :=
  ∀ s : State,
    (∀ f src r, podPasses s 0x40 f src → podAsks src f r → serves s r → r.paddr % 64 = 0 → r.fn = 0 → r.mask = 0 → f.len = 32 →
      slotOpen s (podPa r / 64 * 64) = false → ∃ t, exec (.pload f) s = .next t ∧
      answers_ s t r (memReadN s.far (podPa r) 64) ∧ t.far = s.far ∧ t.stash = s.stash ∧ t.cores = s.cores) ∧
    (∀ f src r, podPasses s 0x41 f src → podAsks src f r → serves s r → r.paddr % 64 = 0 → r.fn = 0 → f.len = 96 →
      ∃ t, exec (.pstore f) s = .next t ∧ answers_ s t r [] ∧
      (∀ i, i < 64 → memRead t.far (podPa r + i) = if r.mask.getLsbD i then nthD r.data i 0#8 else memRead s.far (podPa r + i)) ∧
      (∀ a, (a < podPa r ∨ podPa r + 64 ≤ a) → memRead t.far a = memRead s.far a) ∧ t.stash = s.stash ∧ t.cores = s.cores) ∧
    (∀ k ∈ atomics, ∀ f src r, podPasses s 0x42 f src → podAsks src f r → serves s r → r.paddr % 8 = 0 → r.fn = k.2.1 → r.mask = 0 →
      f.len = 96 → leNat (r.data.drop 16) = 0 → slotOpen s (podPa r / 64 * 64) = false →
      let old : Word := BitVec.ofNat 64 (leNat (memReadN s.far (podPa r) 8))
      let d : Word := BitVec.ofNat 64 (leNat (r.data.take 8))
      let c : Word := BitVec.ofNat 64 (leNat ((r.data.drop 8).take 8))
      ∃ t, exec (.patom f) s = .next t ∧ answers_ s t r (leBytes old.toNat 8) ∧
        memReadN t.far (podPa r) 8 = leBytes (k.2.2 old d c).toNat 8 ∧
        (∀ a, (a < podPa r ∨ podPa r + 8 ≤ a) → memRead t.far a = memRead s.far a) ∧ t.stash = s.stash ∧ t.cores = s.cores) ∧
    (∀ f src r a, podPasses s 0x40 f src → podAsks src f r → r.paddr % 64 = 0 → r.fn = 0 → r.mask = 0 → f.len = 32 →
      (recorded s src r.xfer = some a → exec (.pload f) s = .next (sendAnswer (podMarked s src f) src a)) ∧
      (recorded s src r.xfer = none → isExported s r = false → ∃ t b, exec (.pload f) s = .next t ∧ t.far = s.far ∧
        t.hub.answered = s.hub.answered ++ [(r.xfer, src, b)] ∧ b.xfer = r.xfer ∧ b.result = 1 ∧ b.data = [])) ∧
    (∀ f src x, podPasses s 0x43 f src →
      s.hub.xfers.find? (fun x => decide (x.num = f.rid ∧ x.kind ≠ 4 ∧ s.edge.podid * 1024 + x.peer = src)) = some x → x.kind = 3 → x.cls = 0x41 →
      leNat (f.body.take 4) = f.rid → leNat ((f.body.drop 5).take 3) = 0 → f.len = 8 →
      let result := leNat ((f.body.drop 4).take 1)
      result ≤ 2 → ∃ t, exec (.preply f) s = .next t ∧ t.hub.xfers = s.hub.xfers.filter (fun y => y.num ≠ x.num) ∧
        (coreArch t x.core).order.released = (coreArch s x.core).order.released.filter (fun y => y.ident ≠ x.ident) ∧ t.far = s.far ∧
        t.edge.logs = s.edge.logs ++ (if result = 0 then [] else [(3, x.peer, x.pa)])) ∧
    (∀ n x, s.hub.xfers.find? (fun x => x.num = n) = some x → x.sentAt + 15040 ≤ s.now →
      (x.kind ≠ 4 → 8 ≤ x.resends → exec (.podTransferResend n) s = .next (landXfer s x [] true)) ∧
      ((x.kind = 4 ∨ x.resends < 8) → ∃ t, exec (.podTransferResend n) s = .next t ∧
        t.hub.xfers = s.hub.xfers.map (fun y => if y.num = n then { y with sentAt := s.now, resends := y.resends + 1 } else y))) ∧
    (∀ x src r, podPasses s 0x50 x.frame src → collSays src x r → r.kind = 4 → r.data = [] → ∃ t, exec (.pcoll x) s = .next t ∧
      t.hub.xfers = s.hub.xfers.filter (fun x => !decide (x.kind = 4 ∧ x.num = r.xfer ∧ x.peer = src))) ∧
    (∀ x src r g, podPasses s 0x50 x.frame src → collSays src x r → r.kind < 4 → getGroup s r.group = some g →
      g.members.contains src = true → r.channel < g.channels →
      (if 2 ≤ r.kind then fragmentOk r = true else r.data = []) →
      (recorded s src r.xfer = none → ∃ u a, u.hub.answered = s.hub.answered ++ [(r.xfer, src, a)] ∧
        u.hub.groups = s.hub.groups ∧ u.far = s.far ∧ u.cores = s.cores ∧ exec (.pcoll x) s = .next (applyPcoll (ackPcoll u r) g r)) ∧
      ((recorded s src r.xfer).isSome = true → exec (.pcoll x) s = .next (ackPcoll (podMarked s src x.frame) r))) ∧
    (∀ port f, (f.fcsOk = false ∨ 9216 < arrivedBytes f ∨ answers s = false) → ∃ t, exec (.invoke port f) s = .next t ∧
      t = { s with edge := { s.edge with portErrors := t.edge.portErrors } } ∧
      alGet 0 t.edge.portErrors port = alGet 0 s.edge.portErrors port + 1 ∧
      (∀ p, p ≠ port → alGet 0 t.edge.portErrors p = alGet 0 s.edge.portErrors p)) ∧
    (∀ port f, f.fcsOk = true → arrivedBytes f ≤ 9216 → answers s = true →
      (f.origin.udpDst.toNat ≠ uludinPort ∨ ownAddress s f.origin.v6 ≠ some f.origin.dst) → ∃ t bytes, exec (.invoke port f) s = .next t ∧
      sends s t (.management port bytes) ∧ t.hub = s.hub ∧ t.cores = s.cores) ∧
    (∀ port f x, accepted s f 0 x → requestFault s f x.world = none → blkState (getBlock s f.ctx) ≠ stHalted → ringFault s f.ctx = none →
      (blkQtail (getBlock s f.ctx) + 2 ^ 32 - blkQhead (getBlock s f.ctx)) % 2 ^ 32 ≠ 2 ^ blkQlog2 (getBlock s f.ctx) →
      ∃ t r, exec (.invoke port f) s = .next t ∧ t.hub.reqs.length = s.hub.reqs.length + 1 ∧ t.hub.reqs.getLast? = some r ∧
        r.ctx = f.ctx ∧ r.rid = f.rid ∧ r.session = f.session ∧ r.port = port ∧ r.arrived = s.now - 64 ∧
        r.ix = blkQtail (getBlock s f.ctx)) ∧
    (∀ f x y, accepted s f 1 x → s.hub.sends.find? (fun y => decide (y.session = f.session ∧ y.rid = f.rid)) = some y →
      headerFault f (fun c => decide (c = 0x81 ∨ c = 0x82 ∨ c = 0x83)) y.dest = none →
      ∃ t, exec (.sentInvokeReply f) s = .next t ∧ t.hub.sends = s.hub.sends.erase y) ∧
    (∀ ctx, s.hub.bells.contains ctx = true → hubReady s false ctx (blkSendq (getBlock s ctx)) 8 = true → blkSendq (getBlock s ctx) ≠ 0 →
      let b := getBlock s ctx
      let hdr := hubRead s ctx (blkSendq b) 8
      let n := (leNat (hdr.drop 4) + 2 ^ 32 - leNat (hdr.take 4)) % 2 ^ 32
      let u := (hubFetch s ctx (blkSendq b) 8).2
      (sendRingOk s ctx = true → n ≤ 256 → exec (.sendRingDoorbell ctx) s = .next (takeEntries ctx (range' (leNat (hdr.take 4)) n) u)) ∧
      ((sendRingOk s ctx = false ∨ 256 < n) →
        exec (.sendRingDoorbell ctx) s = .next (contain (takeEntries ctx [] u) (blkTenant b) 2 ctx 0x48))) ∧
    (∀ ctx k rest, takeEntries ctx [] s = { s with hub := { s.hub with bells := s.hub.bells.erase ctx } } ∧
      (entryFree s ctx (k % 2 ^ 32) = false → takeEntries ctx (k :: rest) s = s) ∧
      (entryFree s ctx (k % 2 ^ 32) = true →
        (∀ u, takeSendTokens s ctx (k % 2 ^ 32) = (true, u) →
          takeEntries ctx (k :: rest) s = takeEntries ctx rest (takeEntry u ctx (k % 2 ^ 32))) ∧
        (∀ u, takeSendTokens s ctx (k % 2 ^ 32) = (false, u) → takeEntries ctx (k :: rest) s = u))) ∧
    (∀ x, s.hub.sends.find? (fun y => decide (y.session = x.session ∧ y.rid = x.rid ∧ y.sentAt + 940000000 ≤ s.now)) = some x →
      ∃ t, exec (.sendTimeout x.session x.rid) s = .next t ∧ t.hub.sends = s.hub.sends.erase x) ∧
    (∀ port bytes, ∃ t, exec (.managementFrame port bytes) s = .next t ∧ sends s t (.management port bytes) ∧ t.hub = s.hub ∧ t.cores = s.cores) ∧
    (∀ port, port < 8 → ∃ t, exec (.linkLoss port) s = .next t ∧ t.edge.links.getLsbD port = false ∧
      (∀ p, p ≠ port → t.edge.links.getLsbD p = s.edge.links.getLsbD p) ∧ t.edge.held = s.edge.held ∧ t.hub = s.hub) ∧
    (∀ port, port < 8 → ∃ t, exec (.linkUp port) s = .next t ∧ t.edge.links.getLsbD port = true ∧
      (∀ p, p ≠ port → t.edge.links.getLsbD p = s.edge.links.getLsbD p) ∧ t.edge.held = s.edge.held.filter (fun h => h.port ≠ port) ∧
      t.hub = s.hub)

/-- The host link (R40, R214, R220, R281, R300, R327 to R330, R332, R333, R339, R349, R350). A write is made when it is allowed and
otherwise rejected without effect: to a block, which is turned away while it is BINDING, UNSEALING, RUNNING or STOPPED; to the pod groups,
the sessions, the segments and the tables; an assay spends a signature of the certified key and is refused without one; the TDISP requests
move an interface from the states they are allowed in; host DMA reads and writes lines, those of a held quad later; ATS completions and
invalidations place and remove translations. The model's choices: DMA in the reserved range is rejected (log entry 28), stop from
CONFIG_UNLOCKED is refused (44), the steps of an invalidation (45), what a block write stores and when it is accepted (49), the settings
of service software (50), the layout of the boot certificate (86), how a reference to a segment ends (90), W of a host page (91). -/
def Obligations.HostEvents : Prop :=
  ∀ s : State,
    (∀ fn ide ctx off len val, let b := writtenBlock s ctx off len val
      (blockWriteOk s fn ide ctx off len b = true → exec (.microContextWrite fn ide ctx off len val) s = .next (putBlock s ctx b)) ∧
      (blkState (getBlock s ctx) ∈ [stBinding, stRunning, stStopped, stUnsealing] →
        exec (.microContextWrite fn ide ctx off len val) s = .next (reject s fn))) ∧
    (∀ n members ch, answers s = true → n < 256 → membersOk members = true → 1 ≤ ch → ch ≤ 16 → groupHeld s n = false →
      ∃ t g, exec (.podGroupWrite n members ch) s = .next t ∧ getGroup t n = some g ∧ g.members = members ∧ g.channels = ch ∧
        (∀ k, k ≠ n → getGroup t k = getGroup s k)) ∧
    (∀ fn ide n world role key, answers s = true → 0 < n → n < 65536 → role ≤ 1 → getSession s n = none →
      ownObject s fn ide (worldTenant s world) = true → (tenantWorlds s fn).contains world = true →
      ∃ t, exec (.sessionInstall fn ide n world role key) s = .next t ∧
        getSession t n = some { world := world, role := role, key := key, sq := SeqState.reset } ∧
        (∀ k, k ≠ n → getSession t k = getSession s k)) ∧
    (∀ fn sub, (modelKey s sub.world = none ∨ sub.signer ≠ modelKey s sub.world ∨ routeOk sub = false) →
      exec (.segmentSubmission fn sub) s = .next (reject s fn)) ∧
    (∀ fn sub key, answers s = true → (tenantWorlds s fn).contains sub.world = true → modelKey s sub.world = some key →
      sub.signer = some key → routeOk sub = true → buffersOwn s sub = true →
      (getSeg s sub.ident = none → sameSegment s sub (Config.shake256 sub.content) = none →
        ∃ t g, exec (.segmentSubmission fn sub) s = .next t ∧ getSeg t sub.ident = some g ∧ g.recs = sub.recs ∧ g.content = sub.content ∧
          g.measure = Config.shake256 sub.content ∧ g.shared = sub.shared ∧ g.measures = sub.code.map codeMeasure ∧
          g.worlds = [sub.world] ∧ sends s t (.sealed sub.ident true)) ∧
      (∀ n g, sameSegment s sub (Config.shake256 sub.content) = some (n, g) → ∃ t, exec (.segmentSubmission fn sub) s = .next t ∧
        getSeg t n = some { g with worlds := g.worlds ++ [sub.world] } ∧ (∀ k, k ≠ n → getSeg t k = getSeg s k) ∧
        sends s t (.sealed n false))) ∧
    (∀ fn w n g, getSeg s n = some g → alRising none s.hub.segs = true →
      (g.worlds = [w] → getSeg (applyHostWrite s fn (.release w n)) n = none) ∧
      (g.worlds.erase w ≠ [] → getSeg (applyHostWrite s fn (.release w n)) n = some { g with worlds := g.worlds.erase w })) ∧
    (∀ fn world seg nonce, s.edge.boot.stage = 3 → s.edge.boot.longIndex < 2 ^ 20 → 0 < s.edge.boot.sigsLeft →
      (tenantWorlds s fn).contains world = true →
      ∃ t sig, exec (.assayRequest fn world seg nonce) s = .next t ∧ t.edge.boot.sigsLeft = s.edge.boot.sigsLeft - 1 ∧
        sig.length = 2692 ∧ (assayBody s fn world seg nonce).length = 256 ∧
        sends s t (.assay fn (assayBody s fn world seg nonce ++ sig) (bootCertificate s.edge.boot)) ∧ t.hub = s.hub) ∧
    (∀ fn world seg nonce, s.edge.boot.stage = 3 → s.edge.boot.longIndex + 1 < 2 ^ 20 → s.edge.boot.sigsLeft = 0 →
      (tenantWorlds s fn).contains world = true →
      ∃ t, exec (.assayRequest fn world seg nonce) s = .next t ∧ t.edge.boot.sigsLeft = 65535 ∧
        t.edge.boot.longIndex = s.edge.boot.longIndex + 1 ∧ t.hub = s.hub) ∧
    (∀ fn world seg nonce, (s.edge.boot.stage < 3 ∨ 2 ^ 20 ≤ s.edge.boot.longIndex) →
      exec (.assayRequest fn world seg nonce) s = .next (reject s fn)) ∧
    (∀ fn, answers s = true → fn ≠ 0 →
      let moves (i : Instr) (x : TdiState) : Prop := ∃ t, exec i s = .next t ∧ getTdi t fn = x ∧ sends s t (.tdisp fn true) ∧
        (∀ k, k ≠ fn → getTdi t k = getTdi s k)
      let refuses (i : Instr) : Prop := exec i s = .next (emit s (.tdisp fn false))
      (getTdi s fn = .unlocked → moves (.lockInterface fn) .locked ∧ refuses (.startInterface fn) ∧ refuses (.stopInterface fn)) ∧
      (getTdi s fn = .locked → moves (.startInterface fn) .run ∧ refuses (.lockInterface fn)) ∧
      (getTdi s fn = .run → refuses (.startInterface fn) ∧ refuses (.lockInterface fn)) ∧
      (getTdi s fn ≠ .unlocked → moves (.stopInterface fn) .unlocked) ∧
      (getTdi s fn ≠ .error → ∃ t, exec (.forceInterfaceError fn) s = .next t ∧
        (∀ e ∈ t.hub.keys, e.2.tenant = fn → e.2.st = 0 ∨ e.2.st = 3)) ∧
      (getTdi s fn = .error → refuses (.forceInterfaceError fn))) ∧
    (∀ fn ide w, (hostWriteOk s fn ide w = true → exec (.hostRegisterWrite fn ide w) s = .next (applyHostWrite s fn w)) ∧
      (hostWriteOk s fn ide w = false → exec (.hostRegisterWrite fn ide w) s = .next (reject s fn))) ∧
    (∀ pkg pod, answers s = true → pkg < 1024 → pod < 256 → ∃ t, exec (.hostRegisterWrite 0 false (.identity pkg pod)) s = .next t ∧
      t.edge.pkgid = pkg ∧ t.edge.podid = pod ∧ t.hub = s.hub) ∧
    (∀ key, answers s = true → ∃ t, exec (.hostRegisterWrite 0 false (.podKey key)) s = .next t ∧ sessionKey t 0 = key ∧
      (∀ m, getPeer t m = SeqState.reset)) ∧
    (∀ fn, answers s = true → ideUp s fn = true → isLocked s fn = false → ∃ t, exec (.hostRegisterWrite fn false .ideFailure) s = .next t ∧
      t.hub = s.hub ∧ t.cores = s.cores) ∧
    (∀ pa bytes, (∃ p ∈ pieces pa bytes.length, isHole (64 * p.1) = true) → ∀ w, exec (.hostDma w pa bytes) s = .next (reject s 0)) ∧
    (∀ pa bytes, (∀ p ∈ pieces pa bytes.length, isHole (64 * p.1) = false) →
      ((∀ p ∈ pieces pa bytes.length, lineTakes s none (64 * p.1)) → memWf s.far = true →
        ∃ t, exec (.hostDma true pa bytes) s = .next t ∧ (∀ i, i < bytes.length → memRead t.far (pa + i) = nthD bytes i 0#8) ∧
          (∀ a, (a < pa ∨ pa + bytes.length ≤ a) → memRead t.far a = memRead s.far a) ∧ t.cores = s.cores) ∧
      ((∀ p ∈ pieces pa bytes.length, registered s (64 * p.1) = none ∧ isBad s (64 * p.1) = false ∧ slotOpen s (64 * p.1) = false ∧
          (isHbm (64 * p.1) = true → lineOpens s none (64 * p.1) = true)) →
        ∃ t, exec (.hostDma false pa bytes) s = .next t ∧ sends s t (.dmaData pa ((memReadN s.far pa bytes.length).map (fun b => (b, false)))) ∧
          t.far = s.far ∧ t.cores = s.cores) ∧
      (∀ k off n, pieces pa bytes.length = [(k, off, n)] → registered s (64 * k) = none → (readLine s none (64 * k)).2 = true →
        ∃ t l, exec (.hostDma false pa bytes) s = .next t ∧ sends s t (.dmaData pa l) ∧ l.length = n ∧ (∀ e ∈ l, e.2 = true) ∧
          t.far = s.far ∧ t.cores = s.cores) ∧
      (∀ w, (∃ p ∈ pieces pa bytes.length, lineHeld s { peer := none, pa := 64 * p.1 } = true) →
        exec (.hostDma w pa bytes) s = .next { s with waiting := s.waiting ++ [.dma w pa bytes] })) ∧
    (∀ fn, answers s = true → fn ≠ 0 → exec (.flrVirtualFunction fn) s = .next (flrVirtual s fn)) ∧
    (∀ ctx vp leaf, leafV leaf = true → leafHome leaf = 1 → 0x200000000000 ≤ leafFrame leaf → isLeasePage s ctx vp = true →
      spaceOf s ctx vp = ctx →
      ∃ t, exec (.atsTranslationCompletion ctx vp leaf) s = .next t ∧ leafV (leafOf t ctx (2097152 * vp)) = true ∧
        leafHome (leafOf t ctx (2097152 * vp)) = 1 ∧ leafFrame (leafOf t ctx (2097152 * vp)) = leafFrame leaf ∧
        leafW (leafOf t ctx (2097152 * vp)) = (leafW leaf && leasedRw s ctx vp)) ∧
    (∀ ctx r, ∃ t frames, exec (.atsInvalidateRequest ctx r) s = .next t ∧
      t = { s with edge := { s.edge with
              revoking := s.edge.revoking ++ [(ctx, r)],
              invalidating := s.edge.invalidating ++ [{ ctx := ctx, range := r, frames := frames }] } } ∧
      (∀ va, va < 2 ^ 48 → leafV (leafOf s ctx va) = true → leafHome (leafOf s ctx va) = 1 → r.vpage ≤ va / 2 ^ 21 →
        va / 2 ^ 21 < r.vpage + r.pages → leafFrame (leafOf s ctx va) / 2 ^ 21 ∈ frames ∧ pageReady t ctx va = false))
/-! The memory firmware, the signals, reset and the clock. -/

namespace Sys2Proof.Claims

/-- No world is left: every core and quad as after reset but for load epochs and sites, no block, gang, key, session, frame or
translation, nothing in any stash or in HBM; the tables of service software stay. -/
def worldsGone (s t : State) : Prop :=
  (∀ c, getCore t c = { Core.reset with epoch := (getCore s c).epoch }) ∧
  (∀ q, (getQuad t q).power = .gated ∧ (getQuad t q).world = none ∧ (getQuad t q).busy = none ∧ (getQuad t q).windows = []) ∧
  t.hub.blocks = [] ∧ t.hub.gangs = [] ∧ t.hub.keys = [] ∧ t.hub.sessions = [] ∧ t.frames = [] ∧ t.xlat = [] ∧ t.stash = [] ∧
  t.edge.podKey = none ∧ t.hub.peers = [] ∧ t.edge.drives = s.edge.drives ∧ t.hub.segs = s.hub.segs ∧ t.waiting = [] ∧
  t.edge.boot.stage = (if s.edge.boot.stage = 0 then 0 else if t.edge.pins.perstN then (if s.edge.boot.longIndex < 2 ^ 20 then 3 else 2) else 1) ∧
  (∀ a, isHbm a = true → memRead t.far a = memDefault) ∧ t.hub.tenants = s.hub.tenants ∧ t.hub.addrTable = s.hub.addrTable ∧
  t.edge.boot.count = s.edge.boot.count + 1

/-- The registrations of the lines of frames can be recalled now, the tokens of the writebacks that this forces are taken, and `u` is the
state after it (R214, R215, R298, R311, R319). -/
def recallDone (s : State) (sweep : Bool) (frames : List Nat) (u : State) : Prop :=
  framesReady s sweep frames = true ∧ ∃ v, takeRecalls ((frameChunks s frames).map (·.2)) s = (true, v) ∧ u = recallFrames v frames

/-- An event on frames waits: unchanged while a registration cannot be recalled, with the tokens asked for while they are not there. -/
def recallWaits (s : State) (sweep : Bool) (frames : List Nat) (i : Instr) : Prop :=
  (framesReady s sweep frames = false → exec i s = .next s) ∧
    (framesReady s sweep frames = true → ∀ v, takeRecalls ((frameChunks s frames).map (·.2)) s = (false, v) → exec i s = .next v)

/-- Only one die has changed, to `d`; the cores and the memories stand. -/
def onlyDie (s : State) (n : Nat) (d : Die) (t : State) : Prop :=
  getDie t n = d ∧ (∀ k, k ≠ n → getDie t k = getDie s k) ∧ t.cores = s.cores ∧ t.stash = s.stash ∧ t.far = s.far

/-- The running gangs. -/
def runningGangs (s : State) : List Gang := (s.hub.gangs.map (·.2)).filter (fun g => decide (g.st = .running))

/-- Core `c` is about to issue a bundle in this step: it is the next of the period, bound, in no rerun, without a wait or a near access
that waits, and no cause of R30 freezes it; `v` is the state with the core's turn begun. -/
def issuing (s : State) (c : Nat) (rest : List Nat) (v : State) : Prop :=
  v = { s with todo := rest, cur := c, issue := none } ∧ s.agenda = [] ∧ pickEvent s = none ∧ s.todo = c :: rest ∧
    (getCore s c).status = .bound ∧ (getCore s c).rerun = none ∧ (arch v).seq.wait = none ∧ (arch v).order.nearq = [] ∧
    withheld (((gangOf v c).map (·.duty)).getD 16) v.now = false ∧ (atIssue (arch v).seq && droopHolds v) = false ∧
    heldOut v c = false ∧ lateReply v = false ∧ (arch v).seq.fetchWait = 0

/-- Slot `k` of a bundle holds `i`, every other slot is empty, and the header is good. -/
def holdsAlone (b : BitVec 256) (k : Nat) (i : Instr) : Prop :=
  k < 8 ∧ headerOk b = true ∧ bundleSlots b = (List.range 8).map (fun j => (j, if j = k then .op i else .empty))

end Sys2Proof.Claims

/-- The firmware's work on frames and keys (R215 to R219, R267, R318, R319, R351). The next page of the ladle comes into a frame, which is
promoting, what was in the frame and changed goes to the drives; promoted, it has its translation and is leased, or warm, or is scrubbed
when the tenant would hold too many; an invalidation is answered when nothing uses its frames; a migration moves every byte; a rekey
flips the generation, sweeps frame by frame and zeroises the old root; each waits for the recall of its frames' registrations; a damaged
page is marked and logged. The model's choices: the steps of an invalidation (log entry 45), of a migration (46) and of a rekey (47), the
pools' translations (73), W of a translation (91), the ladle's order (92), DAMAGED on a failed line (93). -/
def Obligations.MemoryEvents : Prop :=
  ∀ s : State,
    (∀ ctx vp f, ladleNext s ctx = some vp → frameAllowed s ctx vp f = true → (∀ d, ∀ e ∈ (getDie s d).dir, e.1 / 32768 ≠ f) →
      frameChunks s [f] = [] →
      ∃ t x, exec (.ladlePageFill ctx vp f) s = .next t ∧ getFrame t f = some x ∧ x.st = .promoting ∧ x.page = some (spaceOf s ctx vp, vp) ∧
        x.tenant = blkTenant (getBlock s ctx) ∧ x.world = blkWorld (getBlock s ctx) ∧ t.cores = s.cores ∧
        (getFrame s f = none → t.far = (slowPage s ctx vp).bytes.foldl (fun m e => memWrite m (2097152 * f + e.1) e.2) s.far ∧
          t.xlat = s.xlat ∧ t.stash = s.stash) ∧
        (∀ y c wp, getFrame s f = some y → y.changed = true → y.page = some (c, wp) →
          (t.edge.drives.find? (fun e => e.1 = pageKey c wp)).map (·.2) = some (frameContents s f))) ∧
    (∀ ctx vp f, (ladleNext s ctx ≠ some vp ∨ frameAllowed s ctx vp f = false) → exec (.ladlePageFill ctx vp f) s = .next s) ∧
    (∀ ctx vp f, ladleNext s ctx = some vp → frameAllowed s ctx vp f = true → recallWaits s false [f] (.ladlePageFill ctx vp f)) ∧
    (∀ ctx vp f, f < frameCount → stackOk s (spaceOf s ctx vp) vp f = true → frameFree s f = true →
      heldFrames s (blkTenant (getBlock s ctx)) < tenantG s (blkTenant (getBlock s ctx)) + tenantU s (blkTenant (getBlock s ctx)) →
      frameAllowed s ctx vp f = true) ∧
    (∀ f x space vp, getFrame s f = some x → x.st = .promoting → x.page = some (space, vp) →
      (leaseInForce s space vp = true → ∃ t y, exec (.promotionComplete f) s = .next t ∧ getFrame t f = some y ∧ y.st = .leased ∧
        y.page = x.page ∧ (∀ ctx, spaceOf s ctx vp = space → leafOf t ctx (2097152 * vp) = frameLeaf s space vp f)) ∧
      (leaseInForce s space vp = false → tenantG s x.tenant + tenantU s x.tenant < heldFrames s x.tenant →
        exec (.promotionComplete f) s = .next (scrubFrame s f)) ∧
      (leaseInForce s space vp = false → heldFrames s x.tenant ≤ tenantG s x.tenant + tenantU s x.tenant →
        ∃ t y, exec (.promotionComplete f) s = .next t ∧ getFrame t f = some y ∧ y.st = .warm ∧ y.late = !streamedPage s space vp ∧
          y.page = x.page ∧
          (∀ ctx, spaceOf s ctx vp = space → leafOf t ctx (2097152 * vp) = frameLeaf s space vp f))) ∧
    (∀ ctx r x, s.edge.invalidating.find? (fun x => decide (x.ctx = ctx ∧ x.range = r)) = some x → (ctx, r) ∉ s.edge.revoking →
      (∀ a ∈ allArchs s, accessesTo x.frames a = false ∧ commandsOn x.frames a = false) →
      recallWaits s false x.frames (.invalidateCompletion ctx r) ∧
      ∀ u, recallDone s false x.frames u → ∃ t, exec (.invalidateCompletion ctx r) s = .next t ∧ sends s t (.invalidated ctx r) ∧
        t.edge.invalidating = s.edge.invalidating.erase x ∧ t.cores = s.cores ∧ t.far = u.far ∧ (∀ e ∈ t.xlat, e ∈ s.xlat) ∧
        (∀ e ∈ t.xlat, rangeNames t ctx r (keySpace e.1) (keyPage e.1) = true → leafV e.2 = false ∨ leafHome e.2 ≠ 1)) ∧
    (∀ f n x space vp, getFrame s f = some x → x.st = .leased → x.page = some (space, vp) → getFrame s n = none → n < frameCount →
      frameStack n = frameStack f → (∀ e ∈ s.edge.migrating, e.1 ≠ f ∧ e.2 ≠ n) → recallWaits s false [f] (.frameMigration f n) ∧
      ∀ u, recallDone s false [f] u → ∃ t, exec (.frameMigration f n) s = .next t ∧ t.far = u.far ∧ t.edge.migrating = s.edge.migrating ++ [(f, n)] ∧
        t.edge.revoking = s.edge.revoking ++ [(space, { vpage := vp, pages := 1, rw := false })] ∧ t.cores = s.cores) ∧
    (∀ f n x, getFrame s f = some x → s.edge.migrating.contains (f, n) = true → frameBusy s f = false → s.edge.revoking = [] → f ≠ n →
      (∀ e ∈ s.dies, e.2.dir = []) → memWf s.far = true → (∀ i, i < 2097152 → memRead s.far (2097152 * n + i) = memDefault) →
      ∃ t, exec (.frameMigration f n) s = .next t ∧ getFrame t n = some x ∧
        t.edge.migrating = (s.edge.migrating.erase (f, n)).filter (fun e => e.1 ≠ f) ∧
        (∀ i, i < 2097152 → memRead t.far (2097152 * n + i) = memRead s.far (2097152 * f + i)) ∧
        (∀ a, a / 2097152 ≠ f → a / 2097152 ≠ n → memRead t.far a = memRead s.far a)) ∧
    (∀ k x root, getKey s k = some x →
      (rekeyAsked s x = true → ∃ t y, exec (.rekey k root) s = .next t ∧ getKey t k = some y ∧ y.st = 2 ∧ y.gen = !x.gen ∧
        (if y.gen then y.root1 = root ∧ y.root0 = x.root0 else y.root0 = root ∧ y.root1 = x.root1)) ∧
      (∀ e, x.st = 2 → nextSweep s x = some e → sweepReady s e = true → recallWaits s true [e.1] (.rekey k root) ∧
        ∀ u, recallDone s true [e.1] u → ∃ t, exec (.rekey k root) s = .next t ∧ t.far = u.far ∧
          getFrame t e.1 = some { e.2 with gen := x.gen }) ∧
      (x.st = 2 → nextSweep s x = none → (∀ e ∈ s.hub.buffers, e.2.sweep = true → e.2.world = x.world → bufRunning s e.1 = false) →
        ∃ t y, exec (.rekey k root) s = .next t ∧ getKey t k = some y ∧ y.st = 1 ∧ y.gen = x.gen ∧
          (if x.gen then y.root0 = 0 ∧ y.root1 = x.root1 else y.root1 = 0 ∧ y.root0 = x.root0)) ∧
      (x.st = 1 → 2 ^ 44 - 1 ≤ keyUses x → ∃ t y, exec (.forcedKeyFlip k root) s = .next t ∧ getKey t k = some y ∧ y.st = 2 ∧
        y.gen = !x.gen ∧ (if y.gen then y.root1 = root ∧ y.root0 = x.root0 else y.root0 = root ∧ y.root1 = x.root1))) ∧
    (∀ no page v, poolEnv s no = some v → page < v.pool.pages → pageHere v s page = true → pageRefs v s page ≠ 0 →
      let a := (v.pool.metaLoc s no page 0).pa
      (checkPage v s page = (pageCrc v s page, false) → exec (.burnisherCheck no page) s = .next s) ∧
      (pageDamaged v s page = true → exec (.burnisherCheck no page) s = .next s) ∧
      (checkPage v s page ≠ (pageCrc v s page, false) → pageDamaged v s page = false → registered s a = none →
        (isBad s a = true ∨ lineOpens s none a = true) → poolOk v.pool = true → memWf s.far = true →
        ∃ t, exec (.burnisherCheck no page) s = .next t ∧ pageDamaged v t page = true ∧
          t.edge.logs = s.edge.logs ++ [(4, no, page)] ∧ t.cores = s.cores))

/-- Power, boot and the connector (R14, R293, R295, R297, R333, R350, R354 to R356). A droop lowers the limit, 1,024 quiet periods raise it;
the buckets are filled at a window's start; the governor steps one gang; boot takes image A or B, or the module stays in reset with
alert_n low; the ports come up and the functions answer once perst_n is high; perst_n and a reset of function 0 end every world; a module
reset and a thermal trip clear all but the long-term index, the drives with their segments, and what is not the module's. The model's
choices: what these resets keep (log entry 51), what a failed UCIe link does (52). -/
def Obligations.SignalEvents : Prop :=
  ∀ s : State,
    (∀ d, let x := getDie s d
      (∃ t, exec (.droopDetection d) s = .next t ∧ onlyDie s d 
        { x with nextLimit := if x.nextLimit = 6 then 2 else 1, quiet := 0, droop := true } t) ∧
      (1024 ≤ x.quiet → ∃ t, exec (.droopRecovery d) s = .next t ∧
        onlyDie s d { x with limit := if x.nextLimit = 1 then 2 else 6, nextLimit := if x.nextLimit = 1 then 2 else 6, quiet := 0 } t) ∧
      (s.now % 1024 = 0 → x.window ≤ s.now / 1024 → x.waitq = [] → (∀ e ∈ x.buckets, e.2.took = true) →
        ∃ t, exec (.bucketWindowStart d) s = .next t ∧ onlyDie s d
          { x with window := s.now / 1024 + 1,
                   buckets := x.buckets.map (fun e => (e.1, { e.2 with tokens := x.grant * e.2.share / 65536, took := false })) } t) ∧
      ∃ t, exec (.ucieLinkFailure d) s = .next t ∧ onlyDie s d { x with down := true } t ∧ t.edge.logs = s.edge.logs ++ [(5, d, 0)]) ∧
    (∀ w,
      (2350 < w → ∀ g, runningGangs s = [g] → 1 < g.nextDuty → ∃ t, exec (.governorReading w) s = .next t ∧ t.edge.governor = 0 ∧
        getGang t g.ctx = some { g with nextDuty := g.nextDuty - 1 } ∧ t.cores = s.cores) ∧
      (2250 ≤ w → w ≤ 2350 → exec (.governorReading w) s = .next { s with edge := { s.edge with governor := 0 } }) ∧
      (w < 2250 → s.edge.governor < 9 →
        exec (.governorReading w) s = .next { s with edge := { s.edge with governor := s.edge.governor + 1 } }) ∧
      (w < 2250 → 9 ≤ s.edge.governor → ∀ g, runningGangs s = [g] → g.nextDuty < 16 → ∃ t, exec (.governorReading w) s = .next t ∧
        t.edge.governor = 0 ∧ getGang t g.ctx = some { g with nextDuty := g.nextDuty + 1 } ∧ t.cores = s.cores)) ∧
    (∀ r, s.edge.boot.stage = 0 → s.edge.boot.dead = false →
      (r.imageA = false → r.imageB = false → ∃ t, exec (.boot r) s = .next t ∧ t.edge.boot.dead = true ∧ t.edge.boot.stage = 0 ∧
        t.edge.pins.alertN = false) ∧
      (r.imageA = true ∨ r.imageB = true → ∃ t, exec (.boot r) s = .next t ∧ t.edge.boot.imageB = !r.imageA ∧
        t.edge.boot.count = s.edge.boot.count + 1 ∧ t.edge.pins.pwrgd = true ∧
        (∀ d ∈ r.deadDies, (getDie t d).down = true) ∧
        (s.edge.pins.perstN = true → t.edge.links = BitVec.allOnes 8 ∧
          t.edge.boot.stage = if s.edge.boot.longIndex < 2 ^ 20 then 3 else 2) ∧
        (s.edge.pins.perstN = false → t.edge.links = s.edge.links ∧ t.edge.boot.stage = 1))) ∧
    (∃ t, exec .perstNRising s = .next t ∧ t.edge.pins.perstN = true ∧ t.cores = s.cores ∧
      (s.edge.boot.stage = 1 → t.edge.links = BitVec.allOnes 8 ∧
        (s.edge.boot.longIndex < 2 ^ 20 → t.edge.boot.stage = 3 ∧ t.edge.boot.sigsLeft = 65536 ∧
          t.edge.boot.longIndex = s.edge.boot.longIndex + 1) ∧
        (2 ^ 20 ≤ s.edge.boot.longIndex → t.edge.boot.stage = 2))) ∧
    (∃ t, exec .perst s = .next t ∧ worldsGone s t ∧ t.edge.pins.perstN = false) ∧
    (answers s = true → ∃ t, exec (.flrVirtualFunction 0) s = .next t ∧ worldsGone s t ∧ t.edge.pins = s.edge.pins) ∧
    (exec .moduleReset s = .next { State.reset with
      far := s.far.filter (fun e => !isHbm e.1),
      hub := { State.reset.hub with segs := s.hub.segs },
      edge := { State.reset.edge with drives := s.edge.drives,
                                      boot := { State.reset.edge.boot with longIndex := s.edge.boot.longIndex },
                                      pins := { State.reset.edge.pins with perstN := s.edge.pins.perstN } } }) ∧
    (∃ t, exec .thermalTrip s = .next t ∧ t.edge.pins.thermN = false ∧ t.edge.boot.longIndex = s.edge.boot.longIndex ∧
      t.edge.boot.stage = 0 ∧ t.cores = [] ∧ t.stash = [] ∧ (∀ a, isHbm a = true → memRead t.far a = memDefault) ∧
      t.hub = { Hub.reset with segs := s.hub.segs }) ∧
    (∃ t, exec .telemetryAlertRead s = .next t ∧ t.edge.alerts = s.edge.alerts - 1 ∧
      (t.edge.pins.alertN = true ↔ s.edge.alerts ≤ 1 ∧ s.edge.boot.dead = false) ∧ t.hub = s.hub ∧ t.cores = s.cores ∧
      sends s t (.telemetry ((range' 0 8).map (enabledQuads s)) s.edge.alerts s.edge.logs s.edge.portErrors))

/-- The module after reset: every core without a task, every quad power-gated and without a world, memory zero, every block FREE, no gang,
no link (R219, R280, R292, R355, R356). The model's choices (log entry 6): registers zero, `uiv` 8,168 and `acchw` 12,288; and that
memory reads zero at the addresses of the host too (log entry 10). -/
def Obligations.ResetState : Prop :=
  let s := State.reset
  (∀ c, (getCore s c).status = .idle ∧ (∀ i, vget (getCore s c).arch.regs.g i = SReg.zero) ∧
    (∀ i, vget (getCore s c).arch.regs.v i = VReg.zero) ∧ (getCore s c).arch.csr.uiv = 8168 ∧ (getCore s c).arch.csr.acchw = 12288 ∧
    (getCore s c).arch.csr.cyc = 0 ∧ (getCore s c).imem = []) ∧
  (∀ q, (getQuad s q).power = .gated ∧ (getQuad s q).world = none ∧ (getQuad s q).busy = none) ∧
  (∀ a, memRead s.stash a = 0 ∧ memRead s.far a = 0) ∧ (∀ ctx, blkState (getBlock s ctx) = stFree) ∧ s.hub.gangs = [] ∧
  s.edge.links = 0 ∧ s.edge.boot.stage = 0 ∧ memoriesOk s = true

/-- A step runs the decoded instruction (R30, R45, R55). An event of the agenda, or else the first enabled event, is executed. Else, when
it is a core's turn and nothing freezes it, its core cycle begins and it issues the bundle at its address. A bundle whose one slot in
use decodes to a well-formed, live instruction executes that instruction, in that slot, and then ends; held, it counts a freeze. The
model's choices: the order of the agenda and of the events (log entry 1), the issue context (2), held before faults (14). -/
def Obligations.StepRunsInstruction : Prop :=
  ∀ s : State,
    (∀ i rest, s.agenda = .ev i :: rest → step s = exec i { s with agenda := rest }) ∧
    (∀ i, s.agenda = [] → pickEvent s = some i → step s = exec i s) ∧
    (∀ c rest v u, issuing s c rest v → beginCycle v = .next u → (arch u).seq.stall = 0 →
      step s = match issueBundle u with
        | .held need drain => heldPeriod v need drain
        | .done o => andThen o (fun t => andThen (endCycle t) restDogs)) ∧
    (∀ k i, let b := fetchBundle (curCore s) (arch s).seq.pc.toNat
      holdsAlone b k i → wellFormed i = true → isLiveSlot (arch s) i = true → guardFaults (arch s) b = [] →
      safeFaults (arch s) b [(k, i)] = [] → fallsOff (arch s) [slotFields k (bundleSlot b k)] = false →
      let o := exec i { s with issue := some { issueOf (arch s) (curCore s).jn b with slot := k } }
      (∀ t, o = .next t →
        ((t.issue.map (·.hold)).getD false = true →
          issueBundle s = .held ((t.issue.map (·.need)).getD []) ((t.issue.map (·.drain)).getD false)) ∧
        ((t.issue.map (·.hold)).getD false = false →
          (∀ f, bestFault ((t.issue.map (·.faults)).getD []) = some f → issueBundle s = .done (.next (takeBundleFault s f))) ∧
          (bestFault ((t.issue.map (·.faults)).getD []) = none →
            (∀ r, endBundle (signSlots t [(k, i)]) b (boundarySafe b [(k, i)]) = some r → issueBundle s = .done r)))) ∧
      (∀ r, o = .fault r → issueBundle s = .done (.fault r)) ∧ (∀ r, o = .refused r → issueBundle s = .done (.refused r)))

namespace Sys2Proof.Claims

/-- Words written out from R48, R49, R52, R53 and the tables R73 to R81: slot, GUARD SRC DST or GUARD AOP AREG HREG IMM7, and what they
are. -/
def moveWords : List (Nat × Instr) :=
  [(0x0 * 2 ^ 20 + 0x001 * 2 ^ 10 + 0x081, .saAdd .always (.g 1) false),
   (0x3 * 2 ^ 20 + 0x3F0 * 2 ^ 10 + 0x11A, .skLt (.steer 2) .l0 3),
   (0x0 * 2 ^ 20 + 0x200 * 2 ^ 10 + 0x174, .seqExit .always (.imm 0)),
   (0x0 * 2 ^ 20 + 0x099 * 2 ^ 10 + 0x188, .vuAddF .always (.res .vuR)),
   (0xD * 2 ^ 20 + 0x025 * 2 ^ 10 + 0x216, .anvRd .last (.v 5)),
   (0x0 * 2 ^ 20 + 0x201 * 2 ^ 10 + 0x250, .engCopy .always (.imm 1)),
   (0x0 * 2 ^ 20 + 0x006 * 2 ^ 10 + 0x285, .xlHk .always (.g 6) 5),
   (0x0 * 2 ^ 20 + 0x000 * 2 ^ 10 + 0x2A5, .tntOf .always (.g 0)),
   (0x0 * 2 ^ 20 + 0x009 * 2 ^ 10 + 0x2B2, .barSync .always (.g 9)),
   (0xE * 2 ^ 20 + 0x099 * 2 ^ 10 + 0x024, .maskedVectorWrite (.res .vuR) 0x24),
   (0x0 * 2 ^ 20 + 0x093 * 2 ^ 10 + 0x004, .mov .always (.loopIx 0) (.g 4))]

def addressWords : List (Nat × Instr) :=
  [(0x0 * 2 ^ 20 + 8 * 2 ^ 15 + 2 * 2 ^ 11 + 64 + 3, .stnW .always 2 true 3),
   (0x0 * 2 ^ 20 + 14 * 2 ^ 15 + 4 * 2 ^ 11 + 1 * 2 ^ 7 + 64 + 16, .ldfV .always 4 1 true 1),
   (0x0 * 2 ^ 20 + 18 * 2 ^ 15 + 6 * 2 ^ 11 + 2 * 2 ^ 7 + 9 * 8 + 4, .atomCas .always 6 2 4),
   (0x0 * 2 ^ 20 + 19 * 2 ^ 15 + 5 * 2 ^ 11 + 64, .aupd .always 5),
   (0x0 * 2 ^ 20 + 20 * 2 ^ 15 + 3 * 2 ^ 11 + 123, .aadd .always 3 0x7B),
   (0xC * 2 ^ 20 + 21 * 2 ^ 15 + 1 * 2 ^ 11 + 15 * 2 ^ 7, .pf (.steer 11) 1 15 false 0),
   (0xE * 2 ^ 20 + 23 * 2 ^ 15 + 1 * 2 ^ 11, .stnSv .mask 1 false 0)]

end Sys2Proof.Claims

/-- Words of every family decode to the instruction they stand for; an empty slot is empty; reserved encodings are refused with their
cause: a used empty slot, a reserved source, a reserved destination, AOP 24, a last-read mark and a handle in an address slot (R48 to
R53). -/
def Obligations.DecodeWords : Prop :=
  (∀ e ∈ moveWords, decodeSlot 0 e.1 = .op e.2) ∧ (∀ e ∈ addressWords, decodeSlot 7 e.1 = .op e.2) ∧
    decodeSlot 5 0xF00000 = .empty ∧ decodeSlot 6 0xF00000 = .empty ∧ decodeSlot 5 0xF00001 = .bad 1 0 0 ∧
    decodeSlot 0 (0x054 * 2 ^ 10) = .bad 2 0x054 0 ∧ decodeSlot 0 0x048 = .bad 2 0x048 0 ∧ decodeSlot 6 (24 * 2 ^ 15) = .bad 1 24 0 ∧
    decodeSlot 6 (0xD * 2 ^ 20) = .bad 1 0 0 ∧ decodeSlot 6 (1 * 2 ^ 7) = .bad 5 0 1

/-- Decoding and encoding agree: every well-formed slot operation, at every value of its operands, is decoded from its word in the slot it
belongs to. -/
def Obligations.RoundTrip : Prop :=
  ∀ i w, wellFormed i = true → encode i = some w → decodeSlot (if isAddr i then 6 else 0) w = .op i

/-- Every step keeps the stash and far memory in their canonical form: addresses rising, no entry equal to what an unlisted byte reads;
and it keeps the lists of line versions and of failed lines in theirs. -/
def Obligations.StepKeepsMemories : Prop :=
  ∀ s t, step s = .next t → (memoriesOk s = true → memoriesOk t = true) ∧ (linesOk s = true → linesOk t = true)
end

