-- ==== Sys2Proof/Laws/Decode.lean ====
section
/-! SUPPORT. What decoding yields: a move slot decodes to an instruction with move fields, an address slot to one with address
fields. -/

namespace Sys2Proof.Laws

/-- The fields of an instruction are those of a move slot. -/
def IsMove (i : Instr) : Prop := ∃ g s d, encFields i = .move g s d

/-- The fields of an instruction are those of an address slot. -/
def IsAddress (i : Instr) : Prop := ∃ g o a h m, encFields i = .addr g o a h m

theorem mem_of_map {α β : Type} {l : List α} {n : Nat} {f : α → β} {b : β} (h : l[n]?.map f = some b) : ∃ a ∈ l, f a = b := by
  rcases hl : l[n]? with _ | a
  · simp [hl] at h
  · exact ⟨a, List.mem_of_getElem? hl, by simpa [hl] using h⟩

theorem saTable_move : ∀ f ∈ saTable, ∀ g s b, IsMove (f g s b) := by
  simp only [saTable, List.forall_mem_cons]
  refine ⟨?_, ?_, ?_, ?_, ?_, ?_, ?_, ?_, ?_, ?_, ?_, ?_, ?_, ?_, ?_, ?_, ?_, ?_, ?_, ?_, ?_, ?_, by simp⟩ <;>
    exact fun _ _ _ => ⟨_, _, _, rfl⟩

theorem skTable_move : ∀ f ∈ skTable, ∀ g s k, IsMove (f g s k) := by
  simp only [skTable, List.forall_mem_cons]
  refine ⟨?_, ?_, ?_, ?_, ?_, ?_, ?_, ?_, by simp⟩ <;> exact fun _ _ _ => ⟨_, _, _, rfl⟩

theorem seqTable_move : ∀ o ∈ seqTable, ∀ f, o = some f → ∀ g s, IsMove (f g s) := by
  simp only [seqTable, List.forall_mem_cons]
  refine ⟨?_, ?_, ?_, ?_, ?_, ?_, ?_, ?_, ?_, ?_, ?_, ?_, ?_, ?_, ?_, ?_, ?_, by simp⟩ <;>
    (intro f h g s; cases h <;> exact ⟨_, _, _, rfl⟩)

theorem engTable_move : ∀ f ∈ engTable, ∀ g s, IsMove (f g s) := by
  simp only [engTable, List.forall_mem_cons]
  refine ⟨?_, ?_, ?_, ?_, ?_, ?_, ?_, ?_, ?_, ?_, ?_, ?_, ?_, ?_, ?_, ?_, ?_, ?_, ?_, ?_, ?_, ?_, by simp⟩ <;>
    exact fun _ _ => ⟨_, _, _, rfl⟩

theorem anvTable_move : ∀ f ∈ anvTable, ∀ g s, IsMove (f g s) := by
  simp only [anvTable, List.forall_mem_cons]
  refine ⟨?_, ?_, ?_, ?_, ?_, ?_, ?_, ?_, ?_, ?_, by simp⟩ <;> exact fun _ _ => ⟨_, _, _, rfl⟩

theorem tntTable_move : ∀ f ∈ tntTable, ∀ g s, IsMove (f g s) := by
  simp only [tntTable, List.forall_mem_cons]
  refine ⟨?_, ?_, ?_, ?_, ?_, by simp⟩ <;> exact fun _ _ => ⟨_, _, _, rfl⟩

theorem barTable_move : ∀ f ∈ barTable, ∀ g s, IsMove (f g s) := by
  simp only [barTable, List.forall_mem_cons]
  refine ⟨?_, ?_, ?_, ?_, by simp⟩ <;> exact fun _ _ => ⟨_, _, _, rfl⟩

theorem vuTable_move : ∀ f ∈ vuTable, ∀ g s, IsMove (f g s) := by
  intro f hf
  simp only [vuTable, List.mem_append] at hf
  rcases hf with (hf | hf) | hf <;> revert f
  · simp only [vuTable0, List.forall_mem_cons]
    repeat (refine And.intro (fun _ _ => ⟨_, _, _, rfl⟩) ?_)
    simp
  · simp only [vuTable1, List.forall_mem_cons]
    repeat (refine And.intro (fun _ _ => ⟨_, _, _, rfl⟩) ?_)
    simp
  · simp only [vuTable2, List.forall_mem_cons]
    repeat (refine And.intro (fun _ _ => ⟨_, _, _, rfl⟩) ?_)
    simp

theorem ite_elim {c : Prop} [Decidable c] {a b x : Option Instr} {p : Prop} (h : (if c then a else b) = x) (ha : a = x → p)
    (hb : b = x → p) : p := by
  by_cases hc : c
  · exact ha (by simpa [hc] using h)
  · exact hb (by simpa [hc] using h)

theorem dite_elim {c : Prop} [Decidable c] {a : c → Option Instr} {b : ¬c → Option Instr} {x : Option Instr} {p : Prop}
    (h : (if hc : c then a hc else b hc) = x) (ha : ∀ hc, a hc = x → p) (hb : ∀ hc, b hc = x → p) : p := by
  by_cases hc : c
  · exact ha hc (by simpa [hc] using h)
  · exact hb hc (by simpa [hc] using h)

/-- A trigger has move fields. -/
theorem isMove_of_trigger {n : Nat} {g : Guard} {s : Src} {i : Instr} (h : decodeTrigger n g s = some i) : IsMove i := by
  have pick {α : Type} {l : List α} {k : Nat} {f : α → Instr} (hl : l[k]?.map f = some i) (ht : ∀ a ∈ l, IsMove (f a)) : IsMove i := by
    obtain ⟨a, ha, rfl⟩ := mem_of_map hl
    exact ht a ha
  have seq {k : Nat} (hl : (seqTable[k]?.join).map (fun f => f g s) = some i) : IsMove i := by
    obtain ⟨f, hf, rfl⟩ := Option.map_eq_some_iff.mp hl
    exact seqTable_move _ (List.mem_of_getElem? (Option.join_eq_some_iff.mp hf)) f rfl _ _
  have one {j : Instr} (hj : IsMove j) (e : some j = some i) : IsMove i := by cases e; exact hj
  have no {x : Prop} (e : none = some i) : x := by cases e
  unfold decodeTrigger at h
  refine ite_elim h no fun h => ite_elim h (fun h => pick h fun f hf => saTable_move f hf _ _ _) fun h => ite_elim h no fun h =>
    ite_elim h (fun h => pick h fun f hf => saTable_move f hf _ _ _) fun h => ite_elim h no fun h =>
    dite_elim h (fun _ h => pick h fun f hf => skTable_move f hf _ _ _) fun _ h => dite_elim h (fun _ h => one ⟨_, _, _, rfl⟩ h) fun _ h =>
    ite_elim h seq fun h => ite_elim h no fun h => ite_elim h (fun h => pick h fun f hf => vuTable_move f hf _ _) fun h =>
    ite_elim h no fun h => ite_elim h (fun h => pick h fun f hf => anvTable_move f hf _ _) fun h => ite_elim h no fun h =>
    ite_elim h (fun h => pick h fun f hf => engTable_move f hf _ _) fun h => ite_elim h no fun h =>
    dite_elim h (fun _ h => one ⟨_, _, _, rfl⟩ h) fun _ h => ite_elim h (one ⟨_, _, _, rfl⟩) fun h => ite_elim h no fun h =>
    ite_elim h (fun h => pick h fun f hf => tntTable_move f hf _ _) fun h => ite_elim h no fun h =>
    ite_elim h (fun h => pick h fun f hf => barTable_move f hf _ _) no

theorem isMove_of_fields {g s d : Nat} {i : Instr} (h : decodeMoveFields g s d = .op i) : IsMove i := by
  unfold decodeMoveFields at h
  rcases hs : decodeSrc s with _ | src
  · simp [hs] at h
  · simp only [hs] at h
    by_cases hg : g = 14
    · simp only [hg, if_true] at h
      rcases hd : decodeDst d with _ | x <;> rcases ht : decodeTrigger d .always src with _ | y <;> simp only [hd, ht] at h <;>
        cases h <;> exact ⟨_, _, _, rfl⟩
    · simp only [hg, if_false] at h
      rcases hd : decodeDst d with _ | x
      · rcases ht : decodeTrigger d (decodeGuard g) src with _ | y
        · simp [hd, ht] at h
        · simp only [hd, ht] at h
          cases h
          exact isMove_of_trigger ht
      · simp only [hd] at h
        cases h
        exact ⟨_, _, _, rfl⟩

/-- A move slot's instruction has move fields. -/
theorem isMove_of_decodeMove {w : Nat} {i : Instr} (h : decodeMove w = .op i) : IsMove i := by
  simp only [decodeMove] at h
  by_cases hg : w / 2 ^ 20 % 16 = 15
  · rw [if_pos hg] at h
    by_cases hw : w % 2 ^ 20 = 0
    · rw [if_pos hw] at h; cases h
    · rw [if_neg hw] at h; cases h
  · rw [if_neg hg] at h
    exact isMove_of_fields h

theorem nearTable_addr : ∀ f ∈ nearTable, ∀ g a u o, IsAddress (f g a u o) := by
  simp only [nearTable, List.forall_mem_cons]
  repeat (refine And.intro (fun _ _ _ _ => ⟨_, _, _, _, _, rfl⟩) ?_)
  simp

theorem gatherTable_addr : ∀ f ∈ gatherTable, ∀ g a u o, IsAddress (f g a u o) := by
  simp only [gatherTable, List.forall_mem_cons]
  repeat (refine And.intro (fun _ _ _ _ => ⟨_, _, _, _, _, rfl⟩) ?_)
  simp

theorem farTable_addr : ∀ f ∈ farTable, ∀ g a k u l, IsAddress (f g a k u l) := by
  simp only [farTable, List.forall_mem_cons]
  repeat (refine And.intro (fun _ _ _ _ _ => ⟨_, _, _, _, _, rfl⟩) ?_)
  simp

theorem atomTable_addr : ∀ f ∈ atomTable, ∀ g a k c, IsAddress (f g a k c) := by
  simp only [atomTable, List.forall_mem_cons]
  repeat (refine And.intro (fun _ _ _ _ => ⟨_, _, _, _, _, rfl⟩) ?_)
  simp

theorem isAddress_of_fields {g o m : Nat} {a k : Fin 16} {i : Instr} (h : decodeAddrFields g o a k m = .op i) : IsAddress i := by
  unfold decodeAddrFields at h
  by_cases h1 : g = 13
  · simp [h1] at h
  simp only [h1, if_false] at h
  by_cases h2 : o < 12 ∨ o = 22 ∨ o = 23
  · rw [if_pos h2] at h
    by_cases h3 : k.val ≠ 0
    · rw [if_pos h3] at h; cases h
    rw [if_neg h3] at h
    by_cases h4 : o < 12
    · rw [if_pos h4] at h
      rcases hf : nearTable[o]? with _ | f
      · simp [hf] at h
      · simp only [hf] at h; cases h
        exact nearTable_addr _ (List.mem_of_getElem? hf) _ _ _ _
    · rw [if_neg h4] at h
      rcases hf : gatherTable[o - 22]? with _ | f
      · simp [hf] at h
      · simp only [hf] at h; cases h
        exact gatherTable_addr _ (List.mem_of_getElem? hf) _ _ _ _
  rw [if_neg h2] at h
  by_cases h3 : o < 18
  · rw [if_pos h3] at h
    by_cases h4 : m % 16 ≠ 0
    · rw [if_pos h4] at h; cases h
    rw [if_neg h4] at h
    rcases hf : farTable[o - 12]? with _ | f
    · simp [hf] at h
    · simp only [hf] at h; cases h
      exact farTable_addr _ (List.mem_of_getElem? hf) _ _ _ _ _
  rw [if_neg h3] at h
  by_cases h4 : o = 18
  · rw [if_pos h4] at h
    rcases hf : atomTable[m / 8]? with _ | f
    · simp [hf] at h
    · simp only [hf] at h; cases h
      exact atomTable_addr _ (List.mem_of_getElem? hf) _ _ _ _
  rw [if_neg h4] at h
  by_cases h5 : o = 19
  · rw [if_pos h5] at h
    by_cases h6 : m = 64 ∧ k.val = 0
    · rw [if_pos h6] at h; cases h; exact ⟨_, _, _, _, _, rfl⟩
    · rw [if_neg h6] at h; cases h
  rw [if_neg h5] at h
  by_cases h6 : o = 20
  · rw [if_pos h6] at h
    by_cases h7 : k.val = 0
    · rw [if_pos h7] at h; cases h; exact ⟨_, _, _, _, _, rfl⟩
    · rw [if_neg h7] at h; cases h
  rw [if_neg h6] at h
  by_cases h7 : o = 21
  · rw [if_pos h7] at h
    by_cases h8 : m % 16 ≠ 0
    · rw [if_pos h8] at h; cases h
    · rw [if_neg h8] at h; cases h; exact ⟨_, _, _, _, _, rfl⟩
  · rw [if_neg h7] at h; cases h

/-- An address slot's instruction has address fields. -/
theorem isAddress_of_decodeAddr {w : Nat} {i : Instr} (h : decodeAddr w = .op i) : IsAddress i := by
  simp only [decodeAddr] at h
  by_cases hg : w / 2 ^ 20 % 16 = 15
  · rw [if_pos hg] at h
    by_cases hw : w % 2 ^ 20 = 0
    · rw [if_pos hw] at h; cases h
    · rw [if_neg hw] at h; cases h
  · rw [if_neg hg] at h
    exact isAddress_of_fields h

/-- What a slot decodes to has an encoding. -/
theorem encFields_of_decode {k w : Nat} {i : Instr} (h : decodeSlot k w = .op i) : encFields i ≠ .none := by
  unfold decodeSlot at h
  by_cases hk : k < 6
  · rw [if_pos hk] at h
    obtain ⟨_, _, _, e⟩ := isMove_of_decodeMove h
    simp [e]
  · rw [if_neg hk] at h
    obtain ⟨_, _, _, _, _, e⟩ := isAddress_of_decodeAddr h
    simp [e]

end Sys2Proof.Laws
end

