-- ==== Sys2Proof/Laws/Lanes.lean ====
section
/-! SUPPORT. Lanes of a vector: reading a lane of a vector built lane by lane, of a scalar, of a broadcast. -/

namespace Sys2Proof.Laws

theorem getLsbD_buildLanes (f : Nat → Lane) (n i : Nat) (hn : n ≤ 64) :
    (buildLanes f n).getLsbD i = (decide (i < 32 * n) && (f (i / 32)).getLsbD (i % 32)) := by
  induction n with
  | zero => simp [buildLanes]
  | succ n ih =>
    have hn' : n ≤ 64 := by omega
    simp only [buildLanes, BitVec.getLsbD_or, ih hn', BitVec.getLsbD_shiftLeft, BitVec.getLsbD_setWidth]
    by_cases h1 : i < 32 * n
    · have : i < 32 * (n + 1) := by omega
      simp [h1, this]
    · by_cases h2 : i < 32 * (n + 1)
      · have h3 : i / 32 = n := by omega
        have h4 : i % 32 = i - 32 * n := by omega
        have h5 : i < 2048 := by omega
        have h6 : i - 32 * n < 2048 := by omega
        simp [h1, h2, h3, h4, h5, h6]
      · have h3 : 32 ≤ i - 32 * n := by omega
        simp [h1, h2, BitVec.getLsbD_of_ge _ _ h3]

/-- Lane `j` of a vector built lane by lane. -/
@[simp] theorem laneOf_ofLanes (f : Nat → Lane) {j : Nat} (hj : j < 64) : laneOf (ofLanes f) j = f j := by
  apply BitVec.eq_of_getLsbD_eq
  intro i hi
  have h1 : 32 * j + i < 32 * 64 := by omega
  have h2 : (32 * j + i) / 32 = j := by omega
  have h3 : (32 * j + i) % 32 = i := by omega
  simp only [laneOf, ofLanes, BitVec.getLsbD_extractLsb', getLsbD_buildLanes f 64 _ (Nat.le_refl 64), h1, h2, h3, hi, decide_true,
    Bool.true_and]

/-- Lanes 1:0 of a scalar held as a vector. -/
@[simp] theorem vecToWord_wordToVec (w : Word) : vecToWord (wordToVec w) = w := by
  simp [vecToWord, wordToVec]

/-- Every lane of a broadcast. -/
@[simp] theorem laneOf_broadcastWord (w : Word) {j : Nat} (hj : j < 64) : laneOf (broadcastWord w) j = w.setWidth 32 :=
  laneOf_ofLanes _ hj

/-- Two vectors with the same lanes are equal. -/
theorem vec_ext {v w : Vec} (h : ∀ j, j < 64 → laneOf v j = laneOf w j) : v = w := by
  apply BitVec.eq_of_getLsbD_eq
  intro i hi
  have hj := congrArg (fun x => x.getLsbD (i % 32)) (h (i / 32) (by omega))
  have e : 32 * (i / 32) + i % 32 = i := by omega
  have hm : i % 32 < 32 := Nat.mod_lt _ (by decide)
  simpa [laneOf, e, hm] using hj

end Sys2Proof.Laws
end

