-- ==== Sys2Proof/Laws/Memory.lean ====
section
/-! SUPPORT. The sparse maps and memories: reads after writes, and the canonical form that every memory operation keeps. -/

namespace Sys2Proof

variable {α : Type}

/-! Reads after updates. -/

@[simp] theorem alGet_nil (d : α) (n : Nat) : alGet d [] n = d := rfl

theorem alGet_alPut (d : α) (l : List (Nat × α)) (n m : Nat) (x : α) :
    alGet d (alPut l n x) m = if n = m then x else alGet d l m := by
  induction l with
  | nil => simp [alPut, alGet]
  | cons e t ih =>
    obtain ⟨k, v⟩ := e
    simp only [alPut]
    by_cases h1 : n < k
    · simp [h1, alGet]
    · by_cases h2 : n = k
      · subst h2
        by_cases h3 : n = m <;> simp [alGet, h3]
      · simp only [h1, h2, if_false, alGet, ih]
        by_cases h3 : n = m
        · subst h3; simp [Ne.symm h2]
        · simp [h3]

@[simp] theorem alGet_alPut_same (d : α) (l : List (Nat × α)) (n : Nat) (x : α) : alGet d (alPut l n x) n = x := by
  simp [alGet_alPut]

@[simp] theorem alGet_alPut_other (d : α) (l : List (Nat × α)) {n m : Nat} (x : α) (h : n ≠ m) :
    alGet d (alPut l n x) m = alGet d l m := by simp [alGet_alPut, h]

/-- Keys above a bound are not listed below it. -/
theorem alGet_above (d : α) {lo : Nat} {l : List (Nat × α)} (h : alRising (some lo) l = true) {n : Nat} (hn : n ≤ lo) :
    alGet d l n = d := by
  induction l generalizing lo with
  | nil => rfl
  | cons e t ih =>
    obtain ⟨k, v⟩ := e
    simp only [alRising, Bool.and_eq_true, decide_eq_true_eq] at h
    have hk : k ≠ n := by omega
    simp only [alGet, hk, if_false]
    exact ih h.2 (by omega)

theorem alRising_weaken {lo hi : Nat} (h : lo ≤ hi) {l : List (Nat × α)} (hl : alRising (some hi) l = true) :
    alRising (some lo) l = true := by
  cases l with
  | nil => rfl
  | cons e t =>
    simp only [alRising, Bool.and_eq_true, decide_eq_true_eq] at hl ⊢
    exact ⟨by omega, hl.2⟩

theorem alRising_none {lo : Nat} {l : List (Nat × α)} (hl : alRising (some lo) l = true) : alRising none l = true := by
  cases l with
  | nil => rfl
  | cons e t =>
    simp only [alRising, Bool.and_eq_true] at hl ⊢
    exact hl.2

theorem alGet_alDel (d : α) {b : Option Nat} {l : List (Nat × α)} (hl : alRising b l = true) (n m : Nat) :
    alGet d (alDel l n) m = if n = m then d else alGet d l m := by
  induction l generalizing b with
  | nil => simp [alDel, alGet]
  | cons e t ih =>
    obtain ⟨k, v⟩ := e
    have ht : alRising (some k) t = true := by cases b <;> simp_all [alRising]
    simp only [alDel]
    by_cases h1 : n < k
    · simp only [h1, if_true, alGet]
      by_cases h3 : n = m
      · subst h3; simp [alGet_above d ht (by omega : n ≤ k), show k ≠ n by omega]
      · simp [h3]
    · by_cases h2 : n = k
      · subst h2
        by_cases h3 : n = m
        · subst h3; simp [alGet_above d ht (Nat.le_refl _)]
        · simp [alGet, h3]
      · simp only [h1, h2, if_false, alGet, ih ht]
        by_cases h3 : n = m
        · subst h3; simp [Ne.symm h2]
        · simp [h3]

theorem alGet_alSet [DecidableEq α] (d : α) {b : Option Nat} {l : List (Nat × α)} (hl : alRising b l = true) (n m : Nat) (x : α) :
    alGet d (alSet d l n x) m = if n = m then x else alGet d l m := by
  unfold alSet
  split
  · next h => subst h; exact alGet_alDel _ hl n m
  · exact alGet_alPut d l n m x

/-! The canonical form. -/

/-- Setting a key keeps keys rising. -/
theorem alRising_alPut {lo : Option Nat} {l : List (Nat × α)} (h : alRising lo l = true) (n : Nat) (x : α)
    (hn : ∀ k ∈ lo, k < n) : alRising lo (alPut l n x) = true := by
  induction l generalizing lo with
  | nil => cases lo <;> simp_all [alPut, alRising]
  | cons e t ih =>
    obtain ⟨k, v⟩ := e
    have ht : alRising (some k) t = true := by cases lo <;> simp_all [alRising]
    simp only [alPut]
    by_cases h1 : n < k
    · cases lo <;> simp_all [alRising]
    · by_cases h2 : n = k
      · subst h2; cases lo <;> simp_all [alRising]
      · have hr := ih ht (by simp; omega)
        simp only [h1, h2, if_false]
        cases lo <;> simp_all [alRising]

theorem alRising_alDel {lo : Option Nat} {l : List (Nat × α)} (h : alRising lo l = true) (n : Nat) :
    alRising lo (alDel l n) = true := by
  induction l generalizing lo with
  | nil => simpa [alDel] using h
  | cons e t ih =>
    obtain ⟨k, v⟩ := e
    have ht : alRising (some k) t = true := by cases lo <;> simp_all [alRising]
    simp only [alDel]
    by_cases h1 : n < k
    · simpa [h1] using h
    · by_cases h2 : n = k
      · subst h2
        simp only [Nat.lt_irrefl, if_false, if_true]
        cases lo with
        | none => exact alRising_none ht
        | some lo =>
          simp only [alRising, Bool.and_eq_true, decide_eq_true_eq] at h
          exact alRising_weaken (by omega) ht
      · simp only [h1, h2, if_false]
        have hr := ih ht
        cases lo <;> simp_all [alRising]

theorem alRising_filter {lo : Option Nat} {l : List (Nat × α)} (h : alRising lo l = true) (p : Nat × α → Bool) :
    alRising lo (l.filter p) = true := by
  induction l generalizing lo with
  | nil => simpa using h
  | cons e t ih =>
    obtain ⟨k, v⟩ := e
    have ht : alRising (some k) t = true := by cases lo <;> simp_all [alRising]
    simp only [List.filter_cons]
    split
    · have hr := ih ht
      cases lo <;> simp_all [alRising]
    · cases lo with
      | none => exact alRising_none (ih ht)
      | some lo =>
        simp only [alRising, Bool.and_eq_true, decide_eq_true_eq] at h
        exact alRising_weaken (by omega) (ih ht)

theorem mem_alPut {l : List (Nat × α)} {n : Nat} {x : α} {e : Nat × α} (h : e ∈ alPut l n x) : e = (n, x) ∨ e ∈ l := by
  induction l with
  | nil => simpa [alPut] using h
  | cons a t ih =>
    obtain ⟨k, v⟩ := a
    simp only [alPut] at h
    split at h
    · simpa using h
    · split at h
      · simp only [List.mem_cons] at h ⊢
        rcases h with h | h
        · exact .inl h
        · exact .inr (.inr h)
      · simp only [List.mem_cons] at h ⊢
        rcases h with h | h
        · exact .inr (.inl h)
        · rcases ih h with h | h
          · exact .inl h
          · exact .inr (.inr h)

theorem mem_alDel {l : List (Nat × α)} {n : Nat} {e : Nat × α} (h : e ∈ alDel l n) : e ∈ l := by
  induction l with
  | nil => simp [alDel] at h
  | cons a t ih =>
    obtain ⟨k, v⟩ := a
    simp only [alDel] at h
    split at h
    · exact h
    · split at h
      · exact List.mem_cons_of_mem _ h
      · simp only [List.mem_cons] at h ⊢
        exact h.imp_right ih

/-- Setting a key keeps the canonical form. -/
theorem alWf_alSet [DecidableEq α] (d : α) {l : List (Nat × α)} (h : alWf d l = true) (n : Nat) (x : α) :
    alWf d (alSet d l n x) = true := by
  simp only [alWf, Bool.and_eq_true, alNoDefault, List.all_eq_true, decide_eq_true_eq] at h ⊢
  unfold alSet
  split
  · exact ⟨alRising_alDel h.1 n, fun e he => h.2 e (mem_alDel he)⟩
  · next hx =>
    refine ⟨alRising_alPut h.1 n x (by simp), fun e he => ?_⟩
    rcases mem_alPut he with rfl | he
    · exact hx
    · exact h.2 e he

theorem alWf_filter [DecidableEq α] (d : α) {l : List (Nat × α)} (h : alWf d l = true) (p : Nat × α → Bool) :
    alWf d (l.filter p) = true := by
  simp only [alWf, Bool.and_eq_true, alNoDefault, List.all_eq_true, decide_eq_true_eq] at h ⊢
  exact ⟨alRising_filter h.1 p, fun e he => h.2 e (List.mem_filter.1 he).1⟩

/-! Memories. -/

/-- Writing a byte keeps the canonical form. -/
theorem memWf_memWrite {m : Memory} (h : memWf m = true) (a : Nat) (b : Byte) : memWf (memWrite m a b) = true :=
  alWf_alSet memDefault h a b

/-- Writing bytes keeps the canonical form. -/
theorem memWf_memWriteN {m : Memory} (h : memWf m = true) (a : Nat) (bs : List Byte) : memWf (memWriteN m a bs) = true := by
  induction bs generalizing m a with
  | nil => exact h
  | cons b bs ih => exact ih (memWf_memWrite h a b) (a + 1)

/-- Clearing bytes keeps the canonical form. -/
theorem memWf_memClear {m : Memory} (h : memWf m = true) (a n : Nat) : memWf (memClear m a n) = true :=
  alWf_filter memDefault h _

/-- Keeping some of the entries keeps the canonical form. -/
theorem memWf_filter {m : Memory} (h : memWf m = true) (p : Host.Cell → Bool) : memWf (m.filter p) = true :=
  alWf_filter memDefault h p

/-- A fold of steps that each keep the canonical form keeps it. -/
theorem memWf_foldl {β : Type} (f : Memory → β → Memory) (hf : ∀ m b, memWf m = true → memWf (f m b) = true) {m : Memory}
    (h : memWf m = true) (l : List β) : memWf (l.foldl f m) = true := by
  induction l generalizing m with
  | nil => exact h
  | cons b l ih => exact ih (hf m b h)

theorem memRising {m : Memory} (h : memWf m = true) : alRising none m = true := by
  simp only [memWf, alWf, Bool.and_eq_true] at h
  exact h.1

/-- A byte reads back as it was written, and every other byte as before. -/
theorem memRead_memWrite {m : Memory} (h : memWf m = true) (a k : Nat) (b : Byte) :
    memRead (memWrite m a b) k = if a = k then b else memRead m k := alGet_alSet memDefault (memRising h) a k b

/-- Bytes outside the ones written read as before; the ones written read as they were written. -/
theorem memRead_memWriteN {m : Memory} (h : memWf m = true) (a k : Nat) (bs : List Byte) :
    memRead (memWriteN m a bs) k = if a ≤ k ∧ k < a + bs.length then nthD bs (k - a) 0#8 else memRead m k := by
  induction bs generalizing m a with
  | nil => simp [memWriteN]
  | cons b bs ih =>
    rw [memWriteN, ih (memWf_memWrite h a b), memRead_memWrite h]
    by_cases h1 : a + 1 ≤ k ∧ k < a + 1 + bs.length
    · have h2 : a ≤ k ∧ k < a + (b :: bs).length := by simp only [List.length_cons]; omega
      obtain ⟨j, hj⟩ : ∃ j, k - a = j + 1 := ⟨k - a - 1, by omega⟩
      rw [if_pos h1, if_pos h2, hj, show k - (a + 1) = j by omega]
      simp [nthD]
    · rw [if_neg h1]
      by_cases h2 : a = k
      · subst h2; simp [nthD]
      · rw [if_neg h2, if_neg (by simp only [List.length_cons]; omega)]

/-- A cleared byte reads as zero, every other byte as before. -/
theorem memRead_memClear (m : Memory) (a n k : Nat) :
    memRead (memClear m a n) k = if a ≤ k ∧ k < a + n then 0#8 else memRead m k := by
  induction m with
  | nil => simp [memClear, memRead, alGet, memDefault]
  | cons e t ih =>
    obtain ⟨j, v⟩ := e
    simp only [memRead, memClear] at ih
    simp only [memRead, memClear, List.filter_cons, decide_eq_true_eq]
    by_cases hj : j < a ∨ a + n ≤ j
    · rw [if_pos hj]
      simp only [alGet, ih]
      by_cases hk : j = k
      · subst hk; rw [if_pos rfl, if_neg (by omega), if_pos rfl]
      · rw [if_neg hk, if_neg hk]
    · rw [if_neg hj, ih]
      simp only [alGet]
      by_cases hk : j = k
      · subst hk; rw [if_pos (by omega), if_pos (by omega)]
      · rw [if_neg hk]

/-- Reset memory has the canonical form, and so have the versions and the failures of lines. -/
theorem memories_reset : Machine.memoriesOk Machine.State.reset = true := by decide
theorem lines_reset : Machine.linesOk Machine.State.reset = true := by decide

/-! Consecutive numbers. -/

theorem mem_range' {a n k : Nat} : k ∈ range' a n ↔ a ≤ k ∧ k < a + n := by
  induction n generalizing a with
  | zero => simp only [range', List.not_mem_nil, false_iff]; omega
  | succ n ih => simp only [range', List.mem_cons, ih]; omega

end Sys2Proof
end

