-- ==== Sys2Proof/Laws/State.lean ====
section
/-! SUPPORT. What each update of the state leaves of each field, and reads after updates. -/

namespace Sys2Proof.Machine

/-! Fields that an update leaves as they were. -/

@[simp] theorem setCore_now (s : State) (c : Nat) (x : Core) : (setCore s c x).now = s.now := rfl
@[simp] theorem setCore_clock (s : State) (c : Nat) (x : Core) : (setCore s c x).clock = s.clock := rfl
@[simp] theorem setCore_agenda (s : State) (c : Nat) (x : Core) : (setCore s c x).agenda = s.agenda := rfl
@[simp] theorem setCore_todo (s : State) (c : Nat) (x : Core) : (setCore s c x).todo = s.todo := rfl
@[simp] theorem setCore_served (s : State) (c : Nat) (x : Core) : (setCore s c x).served = s.served := rfl
@[simp] theorem setCore_waiting (s : State) (c : Nat) (x : Core) : (setCore s c x).waiting = s.waiting := rfl
@[simp] theorem setCore_freeCtr (s : State) (c : Nat) (x : Core) : (setCore s c x).freeCtr = s.freeCtr := rfl
@[simp] theorem setCore_uid (s : State) (c : Nat) (x : Core) : (setCore s c x).uid = s.uid := rfl
@[simp] theorem setCore_cur (s : State) (c : Nat) (x : Core) : (setCore s c x).cur = s.cur := rfl
@[simp] theorem setCore_issue (s : State) (c : Nat) (x : Core) : (setCore s c x).issue = s.issue := rfl
@[simp] theorem setCore_quads (s : State) (c : Nat) (x : Core) : (setCore s c x).quads = s.quads := rfl
@[simp] theorem setCore_dies (s : State) (c : Nat) (x : Core) : (setCore s c x).dies = s.dies := rfl
@[simp] theorem setCore_stash (s : State) (c : Nat) (x : Core) : (setCore s c x).stash = s.stash := rfl
@[simp] theorem setCore_tags (s : State) (c : Nat) (x : Core) : (setCore s c x).tags = s.tags := rfl
@[simp] theorem setCore_sbad (s : State) (c : Nat) (x : Core) : (setCore s c x).sbad = s.sbad := rfl
@[simp] theorem setCore_chunks (s : State) (c : Nat) (x : Core) : (setCore s c x).chunks = s.chunks := rfl
@[simp] theorem setCore_far (s : State) (c : Nat) (x : Core) : (setCore s c x).far = s.far := rfl
@[simp] theorem setCore_lineVer (s : State) (c : Nat) (x : Core) : (setCore s c x).lineVer = s.lineVer := rfl
@[simp] theorem setCore_bad (s : State) (c : Nat) (x : Core) : (setCore s c x).bad = s.bad := rfl
@[simp] theorem setCore_frames (s : State) (c : Nat) (x : Core) : (setCore s c x).frames = s.frames := rfl
@[simp] theorem setCore_xlat (s : State) (c : Nat) (x : Core) : (setCore s c x).xlat = s.xlat := rfl
@[simp] theorem setCore_hub (s : State) (c : Nat) (x : Core) : (setCore s c x).hub = s.hub := rfl
@[simp] theorem setCore_edge (s : State) (c : Nat) (x : Core) : (setCore s c x).edge = s.edge := rfl

@[simp] theorem modCore_now (s : State) (c : Nat) (f : Core → Core) : (modCore s c f).now = s.now := rfl
@[simp] theorem modCore_clock (s : State) (c : Nat) (f : Core → Core) : (modCore s c f).clock = s.clock := rfl
@[simp] theorem modCore_agenda (s : State) (c : Nat) (f : Core → Core) : (modCore s c f).agenda = s.agenda := rfl
@[simp] theorem modCore_todo (s : State) (c : Nat) (f : Core → Core) : (modCore s c f).todo = s.todo := rfl
@[simp] theorem modCore_served (s : State) (c : Nat) (f : Core → Core) : (modCore s c f).served = s.served := rfl
@[simp] theorem modCore_waiting (s : State) (c : Nat) (f : Core → Core) : (modCore s c f).waiting = s.waiting := rfl
@[simp] theorem modCore_freeCtr (s : State) (c : Nat) (f : Core → Core) : (modCore s c f).freeCtr = s.freeCtr := rfl
@[simp] theorem modCore_uid (s : State) (c : Nat) (f : Core → Core) : (modCore s c f).uid = s.uid := rfl
@[simp] theorem modCore_cur (s : State) (c : Nat) (f : Core → Core) : (modCore s c f).cur = s.cur := rfl
@[simp] theorem modCore_issue (s : State) (c : Nat) (f : Core → Core) : (modCore s c f).issue = s.issue := rfl
@[simp] theorem modCore_quads (s : State) (c : Nat) (f : Core → Core) : (modCore s c f).quads = s.quads := rfl
@[simp] theorem modCore_dies (s : State) (c : Nat) (f : Core → Core) : (modCore s c f).dies = s.dies := rfl
@[simp] theorem modCore_stash (s : State) (c : Nat) (f : Core → Core) : (modCore s c f).stash = s.stash := rfl
@[simp] theorem modCore_tags (s : State) (c : Nat) (f : Core → Core) : (modCore s c f).tags = s.tags := rfl
@[simp] theorem modCore_sbad (s : State) (c : Nat) (f : Core → Core) : (modCore s c f).sbad = s.sbad := rfl
@[simp] theorem modCore_chunks (s : State) (c : Nat) (f : Core → Core) : (modCore s c f).chunks = s.chunks := rfl
@[simp] theorem modCore_far (s : State) (c : Nat) (f : Core → Core) : (modCore s c f).far = s.far := rfl
@[simp] theorem modCore_lineVer (s : State) (c : Nat) (f : Core → Core) : (modCore s c f).lineVer = s.lineVer := rfl
@[simp] theorem modCore_bad (s : State) (c : Nat) (f : Core → Core) : (modCore s c f).bad = s.bad := rfl
@[simp] theorem modCore_frames (s : State) (c : Nat) (f : Core → Core) : (modCore s c f).frames = s.frames := rfl
@[simp] theorem modCore_xlat (s : State) (c : Nat) (f : Core → Core) : (modCore s c f).xlat = s.xlat := rfl
@[simp] theorem modCore_hub (s : State) (c : Nat) (f : Core → Core) : (modCore s c f).hub = s.hub := rfl
@[simp] theorem modCore_edge (s : State) (c : Nat) (f : Core → Core) : (modCore s c f).edge = s.edge := rfl

@[simp] theorem setQuad_now (s : State) (q : Nat) (x : Quad) : (setQuad s q x).now = s.now := rfl
@[simp] theorem setQuad_clock (s : State) (q : Nat) (x : Quad) : (setQuad s q x).clock = s.clock := rfl
@[simp] theorem setQuad_agenda (s : State) (q : Nat) (x : Quad) : (setQuad s q x).agenda = s.agenda := rfl
@[simp] theorem setQuad_todo (s : State) (q : Nat) (x : Quad) : (setQuad s q x).todo = s.todo := rfl
@[simp] theorem setQuad_served (s : State) (q : Nat) (x : Quad) : (setQuad s q x).served = s.served := rfl
@[simp] theorem setQuad_waiting (s : State) (q : Nat) (x : Quad) : (setQuad s q x).waiting = s.waiting := rfl
@[simp] theorem setQuad_freeCtr (s : State) (q : Nat) (x : Quad) : (setQuad s q x).freeCtr = s.freeCtr := rfl
@[simp] theorem setQuad_uid (s : State) (q : Nat) (x : Quad) : (setQuad s q x).uid = s.uid := rfl
@[simp] theorem setQuad_cur (s : State) (q : Nat) (x : Quad) : (setQuad s q x).cur = s.cur := rfl
@[simp] theorem setQuad_issue (s : State) (q : Nat) (x : Quad) : (setQuad s q x).issue = s.issue := rfl
@[simp] theorem setQuad_cores (s : State) (q : Nat) (x : Quad) : (setQuad s q x).cores = s.cores := rfl
@[simp] theorem setQuad_dies (s : State) (q : Nat) (x : Quad) : (setQuad s q x).dies = s.dies := rfl
@[simp] theorem setQuad_stash (s : State) (q : Nat) (x : Quad) : (setQuad s q x).stash = s.stash := rfl
@[simp] theorem setQuad_tags (s : State) (q : Nat) (x : Quad) : (setQuad s q x).tags = s.tags := rfl
@[simp] theorem setQuad_sbad (s : State) (q : Nat) (x : Quad) : (setQuad s q x).sbad = s.sbad := rfl
@[simp] theorem setQuad_chunks (s : State) (q : Nat) (x : Quad) : (setQuad s q x).chunks = s.chunks := rfl
@[simp] theorem setQuad_far (s : State) (q : Nat) (x : Quad) : (setQuad s q x).far = s.far := rfl
@[simp] theorem setQuad_lineVer (s : State) (q : Nat) (x : Quad) : (setQuad s q x).lineVer = s.lineVer := rfl
@[simp] theorem setQuad_bad (s : State) (q : Nat) (x : Quad) : (setQuad s q x).bad = s.bad := rfl
@[simp] theorem setQuad_frames (s : State) (q : Nat) (x : Quad) : (setQuad s q x).frames = s.frames := rfl
@[simp] theorem setQuad_xlat (s : State) (q : Nat) (x : Quad) : (setQuad s q x).xlat = s.xlat := rfl
@[simp] theorem setQuad_hub (s : State) (q : Nat) (x : Quad) : (setQuad s q x).hub = s.hub := rfl
@[simp] theorem setQuad_edge (s : State) (q : Nat) (x : Quad) : (setQuad s q x).edge = s.edge := rfl

@[simp] theorem modQuad_now (s : State) (q : Nat) (f : Quad → Quad) : (modQuad s q f).now = s.now := rfl
@[simp] theorem modQuad_clock (s : State) (q : Nat) (f : Quad → Quad) : (modQuad s q f).clock = s.clock := rfl
@[simp] theorem modQuad_agenda (s : State) (q : Nat) (f : Quad → Quad) : (modQuad s q f).agenda = s.agenda := rfl
@[simp] theorem modQuad_todo (s : State) (q : Nat) (f : Quad → Quad) : (modQuad s q f).todo = s.todo := rfl
@[simp] theorem modQuad_served (s : State) (q : Nat) (f : Quad → Quad) : (modQuad s q f).served = s.served := rfl
@[simp] theorem modQuad_waiting (s : State) (q : Nat) (f : Quad → Quad) : (modQuad s q f).waiting = s.waiting := rfl
@[simp] theorem modQuad_freeCtr (s : State) (q : Nat) (f : Quad → Quad) : (modQuad s q f).freeCtr = s.freeCtr := rfl
@[simp] theorem modQuad_uid (s : State) (q : Nat) (f : Quad → Quad) : (modQuad s q f).uid = s.uid := rfl
@[simp] theorem modQuad_cur (s : State) (q : Nat) (f : Quad → Quad) : (modQuad s q f).cur = s.cur := rfl
@[simp] theorem modQuad_issue (s : State) (q : Nat) (f : Quad → Quad) : (modQuad s q f).issue = s.issue := rfl
@[simp] theorem modQuad_cores (s : State) (q : Nat) (f : Quad → Quad) : (modQuad s q f).cores = s.cores := rfl
@[simp] theorem modQuad_dies (s : State) (q : Nat) (f : Quad → Quad) : (modQuad s q f).dies = s.dies := rfl
@[simp] theorem modQuad_stash (s : State) (q : Nat) (f : Quad → Quad) : (modQuad s q f).stash = s.stash := rfl
@[simp] theorem modQuad_tags (s : State) (q : Nat) (f : Quad → Quad) : (modQuad s q f).tags = s.tags := rfl
@[simp] theorem modQuad_sbad (s : State) (q : Nat) (f : Quad → Quad) : (modQuad s q f).sbad = s.sbad := rfl
@[simp] theorem modQuad_chunks (s : State) (q : Nat) (f : Quad → Quad) : (modQuad s q f).chunks = s.chunks := rfl
@[simp] theorem modQuad_far (s : State) (q : Nat) (f : Quad → Quad) : (modQuad s q f).far = s.far := rfl
@[simp] theorem modQuad_lineVer (s : State) (q : Nat) (f : Quad → Quad) : (modQuad s q f).lineVer = s.lineVer := rfl
@[simp] theorem modQuad_bad (s : State) (q : Nat) (f : Quad → Quad) : (modQuad s q f).bad = s.bad := rfl
@[simp] theorem modQuad_frames (s : State) (q : Nat) (f : Quad → Quad) : (modQuad s q f).frames = s.frames := rfl
@[simp] theorem modQuad_xlat (s : State) (q : Nat) (f : Quad → Quad) : (modQuad s q f).xlat = s.xlat := rfl
@[simp] theorem modQuad_hub (s : State) (q : Nat) (f : Quad → Quad) : (modQuad s q f).hub = s.hub := rfl
@[simp] theorem modQuad_edge (s : State) (q : Nat) (f : Quad → Quad) : (modQuad s q f).edge = s.edge := rfl

@[simp] theorem setDie_now (s : State) (d : Nat) (x : Die) : (setDie s d x).now = s.now := rfl
@[simp] theorem setDie_clock (s : State) (d : Nat) (x : Die) : (setDie s d x).clock = s.clock := rfl
@[simp] theorem setDie_agenda (s : State) (d : Nat) (x : Die) : (setDie s d x).agenda = s.agenda := rfl
@[simp] theorem setDie_todo (s : State) (d : Nat) (x : Die) : (setDie s d x).todo = s.todo := rfl
@[simp] theorem setDie_served (s : State) (d : Nat) (x : Die) : (setDie s d x).served = s.served := rfl
@[simp] theorem setDie_waiting (s : State) (d : Nat) (x : Die) : (setDie s d x).waiting = s.waiting := rfl
@[simp] theorem setDie_freeCtr (s : State) (d : Nat) (x : Die) : (setDie s d x).freeCtr = s.freeCtr := rfl
@[simp] theorem setDie_uid (s : State) (d : Nat) (x : Die) : (setDie s d x).uid = s.uid := rfl
@[simp] theorem setDie_cur (s : State) (d : Nat) (x : Die) : (setDie s d x).cur = s.cur := rfl
@[simp] theorem setDie_issue (s : State) (d : Nat) (x : Die) : (setDie s d x).issue = s.issue := rfl
@[simp] theorem setDie_cores (s : State) (d : Nat) (x : Die) : (setDie s d x).cores = s.cores := rfl
@[simp] theorem setDie_quads (s : State) (d : Nat) (x : Die) : (setDie s d x).quads = s.quads := rfl
@[simp] theorem setDie_stash (s : State) (d : Nat) (x : Die) : (setDie s d x).stash = s.stash := rfl
@[simp] theorem setDie_tags (s : State) (d : Nat) (x : Die) : (setDie s d x).tags = s.tags := rfl
@[simp] theorem setDie_sbad (s : State) (d : Nat) (x : Die) : (setDie s d x).sbad = s.sbad := rfl
@[simp] theorem setDie_chunks (s : State) (d : Nat) (x : Die) : (setDie s d x).chunks = s.chunks := rfl
@[simp] theorem setDie_far (s : State) (d : Nat) (x : Die) : (setDie s d x).far = s.far := rfl
@[simp] theorem setDie_lineVer (s : State) (d : Nat) (x : Die) : (setDie s d x).lineVer = s.lineVer := rfl
@[simp] theorem setDie_bad (s : State) (d : Nat) (x : Die) : (setDie s d x).bad = s.bad := rfl
@[simp] theorem setDie_frames (s : State) (d : Nat) (x : Die) : (setDie s d x).frames = s.frames := rfl
@[simp] theorem setDie_xlat (s : State) (d : Nat) (x : Die) : (setDie s d x).xlat = s.xlat := rfl
@[simp] theorem setDie_hub (s : State) (d : Nat) (x : Die) : (setDie s d x).hub = s.hub := rfl
@[simp] theorem setDie_edge (s : State) (d : Nat) (x : Die) : (setDie s d x).edge = s.edge := rfl

@[simp] theorem modDie_now (s : State) (d : Nat) (f : Die → Die) : (modDie s d f).now = s.now := rfl
@[simp] theorem modDie_clock (s : State) (d : Nat) (f : Die → Die) : (modDie s d f).clock = s.clock := rfl
@[simp] theorem modDie_agenda (s : State) (d : Nat) (f : Die → Die) : (modDie s d f).agenda = s.agenda := rfl
@[simp] theorem modDie_todo (s : State) (d : Nat) (f : Die → Die) : (modDie s d f).todo = s.todo := rfl
@[simp] theorem modDie_served (s : State) (d : Nat) (f : Die → Die) : (modDie s d f).served = s.served := rfl
@[simp] theorem modDie_waiting (s : State) (d : Nat) (f : Die → Die) : (modDie s d f).waiting = s.waiting := rfl
@[simp] theorem modDie_freeCtr (s : State) (d : Nat) (f : Die → Die) : (modDie s d f).freeCtr = s.freeCtr := rfl
@[simp] theorem modDie_uid (s : State) (d : Nat) (f : Die → Die) : (modDie s d f).uid = s.uid := rfl
@[simp] theorem modDie_cur (s : State) (d : Nat) (f : Die → Die) : (modDie s d f).cur = s.cur := rfl
@[simp] theorem modDie_issue (s : State) (d : Nat) (f : Die → Die) : (modDie s d f).issue = s.issue := rfl
@[simp] theorem modDie_cores (s : State) (d : Nat) (f : Die → Die) : (modDie s d f).cores = s.cores := rfl
@[simp] theorem modDie_quads (s : State) (d : Nat) (f : Die → Die) : (modDie s d f).quads = s.quads := rfl
@[simp] theorem modDie_stash (s : State) (d : Nat) (f : Die → Die) : (modDie s d f).stash = s.stash := rfl
@[simp] theorem modDie_tags (s : State) (d : Nat) (f : Die → Die) : (modDie s d f).tags = s.tags := rfl
@[simp] theorem modDie_sbad (s : State) (d : Nat) (f : Die → Die) : (modDie s d f).sbad = s.sbad := rfl
@[simp] theorem modDie_chunks (s : State) (d : Nat) (f : Die → Die) : (modDie s d f).chunks = s.chunks := rfl
@[simp] theorem modDie_far (s : State) (d : Nat) (f : Die → Die) : (modDie s d f).far = s.far := rfl
@[simp] theorem modDie_lineVer (s : State) (d : Nat) (f : Die → Die) : (modDie s d f).lineVer = s.lineVer := rfl
@[simp] theorem modDie_bad (s : State) (d : Nat) (f : Die → Die) : (modDie s d f).bad = s.bad := rfl
@[simp] theorem modDie_frames (s : State) (d : Nat) (f : Die → Die) : (modDie s d f).frames = s.frames := rfl
@[simp] theorem modDie_xlat (s : State) (d : Nat) (f : Die → Die) : (modDie s d f).xlat = s.xlat := rfl
@[simp] theorem modDie_hub (s : State) (d : Nat) (f : Die → Die) : (modDie s d f).hub = s.hub := rfl
@[simp] theorem modDie_edge (s : State) (d : Nat) (f : Die → Die) : (modDie s d f).edge = s.edge := rfl

@[simp] theorem setArch_now (s : State) (a : CoreArch) : (setArch s a).now = s.now := rfl
@[simp] theorem setArch_clock (s : State) (a : CoreArch) : (setArch s a).clock = s.clock := rfl
@[simp] theorem setArch_agenda (s : State) (a : CoreArch) : (setArch s a).agenda = s.agenda := rfl
@[simp] theorem setArch_todo (s : State) (a : CoreArch) : (setArch s a).todo = s.todo := rfl
@[simp] theorem setArch_served (s : State) (a : CoreArch) : (setArch s a).served = s.served := rfl
@[simp] theorem setArch_waiting (s : State) (a : CoreArch) : (setArch s a).waiting = s.waiting := rfl
@[simp] theorem setArch_freeCtr (s : State) (a : CoreArch) : (setArch s a).freeCtr = s.freeCtr := rfl
@[simp] theorem setArch_uid (s : State) (a : CoreArch) : (setArch s a).uid = s.uid := rfl
@[simp] theorem setArch_cur (s : State) (a : CoreArch) : (setArch s a).cur = s.cur := rfl
@[simp] theorem setArch_issue (s : State) (a : CoreArch) : (setArch s a).issue = s.issue := rfl
@[simp] theorem setArch_quads (s : State) (a : CoreArch) : (setArch s a).quads = s.quads := rfl
@[simp] theorem setArch_dies (s : State) (a : CoreArch) : (setArch s a).dies = s.dies := rfl
@[simp] theorem setArch_stash (s : State) (a : CoreArch) : (setArch s a).stash = s.stash := rfl
@[simp] theorem setArch_tags (s : State) (a : CoreArch) : (setArch s a).tags = s.tags := rfl
@[simp] theorem setArch_sbad (s : State) (a : CoreArch) : (setArch s a).sbad = s.sbad := rfl
@[simp] theorem setArch_chunks (s : State) (a : CoreArch) : (setArch s a).chunks = s.chunks := rfl
@[simp] theorem setArch_far (s : State) (a : CoreArch) : (setArch s a).far = s.far := rfl
@[simp] theorem setArch_lineVer (s : State) (a : CoreArch) : (setArch s a).lineVer = s.lineVer := rfl
@[simp] theorem setArch_bad (s : State) (a : CoreArch) : (setArch s a).bad = s.bad := rfl
@[simp] theorem setArch_frames (s : State) (a : CoreArch) : (setArch s a).frames = s.frames := rfl
@[simp] theorem setArch_xlat (s : State) (a : CoreArch) : (setArch s a).xlat = s.xlat := rfl
@[simp] theorem setArch_hub (s : State) (a : CoreArch) : (setArch s a).hub = s.hub := rfl
@[simp] theorem setArch_edge (s : State) (a : CoreArch) : (setArch s a).edge = s.edge := rfl

@[simp] theorem modArch_now (s : State) (f : CoreArch → CoreArch) : (modArch s f).now = s.now := rfl
@[simp] theorem modArch_clock (s : State) (f : CoreArch → CoreArch) : (modArch s f).clock = s.clock := rfl
@[simp] theorem modArch_agenda (s : State) (f : CoreArch → CoreArch) : (modArch s f).agenda = s.agenda := rfl
@[simp] theorem modArch_todo (s : State) (f : CoreArch → CoreArch) : (modArch s f).todo = s.todo := rfl
@[simp] theorem modArch_served (s : State) (f : CoreArch → CoreArch) : (modArch s f).served = s.served := rfl
@[simp] theorem modArch_waiting (s : State) (f : CoreArch → CoreArch) : (modArch s f).waiting = s.waiting := rfl
@[simp] theorem modArch_freeCtr (s : State) (f : CoreArch → CoreArch) : (modArch s f).freeCtr = s.freeCtr := rfl
@[simp] theorem modArch_uid (s : State) (f : CoreArch → CoreArch) : (modArch s f).uid = s.uid := rfl
@[simp] theorem modArch_cur (s : State) (f : CoreArch → CoreArch) : (modArch s f).cur = s.cur := rfl
@[simp] theorem modArch_issue (s : State) (f : CoreArch → CoreArch) : (modArch s f).issue = s.issue := rfl
@[simp] theorem modArch_quads (s : State) (f : CoreArch → CoreArch) : (modArch s f).quads = s.quads := rfl
@[simp] theorem modArch_dies (s : State) (f : CoreArch → CoreArch) : (modArch s f).dies = s.dies := rfl
@[simp] theorem modArch_stash (s : State) (f : CoreArch → CoreArch) : (modArch s f).stash = s.stash := rfl
@[simp] theorem modArch_tags (s : State) (f : CoreArch → CoreArch) : (modArch s f).tags = s.tags := rfl
@[simp] theorem modArch_sbad (s : State) (f : CoreArch → CoreArch) : (modArch s f).sbad = s.sbad := rfl
@[simp] theorem modArch_chunks (s : State) (f : CoreArch → CoreArch) : (modArch s f).chunks = s.chunks := rfl
@[simp] theorem modArch_far (s : State) (f : CoreArch → CoreArch) : (modArch s f).far = s.far := rfl
@[simp] theorem modArch_lineVer (s : State) (f : CoreArch → CoreArch) : (modArch s f).lineVer = s.lineVer := rfl
@[simp] theorem modArch_bad (s : State) (f : CoreArch → CoreArch) : (modArch s f).bad = s.bad := rfl
@[simp] theorem modArch_frames (s : State) (f : CoreArch → CoreArch) : (modArch s f).frames = s.frames := rfl
@[simp] theorem modArch_xlat (s : State) (f : CoreArch → CoreArch) : (modArch s f).xlat = s.xlat := rfl
@[simp] theorem modArch_hub (s : State) (f : CoreArch → CoreArch) : (modArch s f).hub = s.hub := rfl
@[simp] theorem modArch_edge (s : State) (f : CoreArch → CoreArch) : (modArch s f).edge = s.edge := rfl

@[simp] theorem modSeq_now (s : State) (f : Sequencer → Sequencer) : (modSeq s f).now = s.now := rfl
@[simp] theorem modSeq_clock (s : State) (f : Sequencer → Sequencer) : (modSeq s f).clock = s.clock := rfl
@[simp] theorem modSeq_agenda (s : State) (f : Sequencer → Sequencer) : (modSeq s f).agenda = s.agenda := rfl
@[simp] theorem modSeq_todo (s : State) (f : Sequencer → Sequencer) : (modSeq s f).todo = s.todo := rfl
@[simp] theorem modSeq_served (s : State) (f : Sequencer → Sequencer) : (modSeq s f).served = s.served := rfl
@[simp] theorem modSeq_waiting (s : State) (f : Sequencer → Sequencer) : (modSeq s f).waiting = s.waiting := rfl
@[simp] theorem modSeq_freeCtr (s : State) (f : Sequencer → Sequencer) : (modSeq s f).freeCtr = s.freeCtr := rfl
@[simp] theorem modSeq_uid (s : State) (f : Sequencer → Sequencer) : (modSeq s f).uid = s.uid := rfl
@[simp] theorem modSeq_cur (s : State) (f : Sequencer → Sequencer) : (modSeq s f).cur = s.cur := rfl
@[simp] theorem modSeq_issue (s : State) (f : Sequencer → Sequencer) : (modSeq s f).issue = s.issue := rfl
@[simp] theorem modSeq_quads (s : State) (f : Sequencer → Sequencer) : (modSeq s f).quads = s.quads := rfl
@[simp] theorem modSeq_dies (s : State) (f : Sequencer → Sequencer) : (modSeq s f).dies = s.dies := rfl
@[simp] theorem modSeq_stash (s : State) (f : Sequencer → Sequencer) : (modSeq s f).stash = s.stash := rfl
@[simp] theorem modSeq_tags (s : State) (f : Sequencer → Sequencer) : (modSeq s f).tags = s.tags := rfl
@[simp] theorem modSeq_sbad (s : State) (f : Sequencer → Sequencer) : (modSeq s f).sbad = s.sbad := rfl
@[simp] theorem modSeq_chunks (s : State) (f : Sequencer → Sequencer) : (modSeq s f).chunks = s.chunks := rfl
@[simp] theorem modSeq_far (s : State) (f : Sequencer → Sequencer) : (modSeq s f).far = s.far := rfl
@[simp] theorem modSeq_lineVer (s : State) (f : Sequencer → Sequencer) : (modSeq s f).lineVer = s.lineVer := rfl
@[simp] theorem modSeq_bad (s : State) (f : Sequencer → Sequencer) : (modSeq s f).bad = s.bad := rfl
@[simp] theorem modSeq_frames (s : State) (f : Sequencer → Sequencer) : (modSeq s f).frames = s.frames := rfl
@[simp] theorem modSeq_xlat (s : State) (f : Sequencer → Sequencer) : (modSeq s f).xlat = s.xlat := rfl
@[simp] theorem modSeq_hub (s : State) (f : Sequencer → Sequencer) : (modSeq s f).hub = s.hub := rfl
@[simp] theorem modSeq_edge (s : State) (f : Sequencer → Sequencer) : (modSeq s f).edge = s.edge := rfl

@[simp] theorem modCsr_now (s : State) (f : Csrs → Csrs) : (modCsr s f).now = s.now := rfl
@[simp] theorem modCsr_clock (s : State) (f : Csrs → Csrs) : (modCsr s f).clock = s.clock := rfl
@[simp] theorem modCsr_agenda (s : State) (f : Csrs → Csrs) : (modCsr s f).agenda = s.agenda := rfl
@[simp] theorem modCsr_todo (s : State) (f : Csrs → Csrs) : (modCsr s f).todo = s.todo := rfl
@[simp] theorem modCsr_served (s : State) (f : Csrs → Csrs) : (modCsr s f).served = s.served := rfl
@[simp] theorem modCsr_waiting (s : State) (f : Csrs → Csrs) : (modCsr s f).waiting = s.waiting := rfl
@[simp] theorem modCsr_freeCtr (s : State) (f : Csrs → Csrs) : (modCsr s f).freeCtr = s.freeCtr := rfl
@[simp] theorem modCsr_uid (s : State) (f : Csrs → Csrs) : (modCsr s f).uid = s.uid := rfl
@[simp] theorem modCsr_cur (s : State) (f : Csrs → Csrs) : (modCsr s f).cur = s.cur := rfl
@[simp] theorem modCsr_issue (s : State) (f : Csrs → Csrs) : (modCsr s f).issue = s.issue := rfl
@[simp] theorem modCsr_quads (s : State) (f : Csrs → Csrs) : (modCsr s f).quads = s.quads := rfl
@[simp] theorem modCsr_dies (s : State) (f : Csrs → Csrs) : (modCsr s f).dies = s.dies := rfl
@[simp] theorem modCsr_stash (s : State) (f : Csrs → Csrs) : (modCsr s f).stash = s.stash := rfl
@[simp] theorem modCsr_tags (s : State) (f : Csrs → Csrs) : (modCsr s f).tags = s.tags := rfl
@[simp] theorem modCsr_sbad (s : State) (f : Csrs → Csrs) : (modCsr s f).sbad = s.sbad := rfl
@[simp] theorem modCsr_chunks (s : State) (f : Csrs → Csrs) : (modCsr s f).chunks = s.chunks := rfl
@[simp] theorem modCsr_far (s : State) (f : Csrs → Csrs) : (modCsr s f).far = s.far := rfl
@[simp] theorem modCsr_lineVer (s : State) (f : Csrs → Csrs) : (modCsr s f).lineVer = s.lineVer := rfl
@[simp] theorem modCsr_bad (s : State) (f : Csrs → Csrs) : (modCsr s f).bad = s.bad := rfl
@[simp] theorem modCsr_frames (s : State) (f : Csrs → Csrs) : (modCsr s f).frames = s.frames := rfl
@[simp] theorem modCsr_xlat (s : State) (f : Csrs → Csrs) : (modCsr s f).xlat = s.xlat := rfl
@[simp] theorem modCsr_hub (s : State) (f : Csrs → Csrs) : (modCsr s f).hub = s.hub := rfl
@[simp] theorem modCsr_edge (s : State) (f : Csrs → Csrs) : (modCsr s f).edge = s.edge := rfl

@[simp] theorem modOrder_now (s : State) (f : Order → Order) : (modOrder s f).now = s.now := rfl
@[simp] theorem modOrder_clock (s : State) (f : Order → Order) : (modOrder s f).clock = s.clock := rfl
@[simp] theorem modOrder_agenda (s : State) (f : Order → Order) : (modOrder s f).agenda = s.agenda := rfl
@[simp] theorem modOrder_todo (s : State) (f : Order → Order) : (modOrder s f).todo = s.todo := rfl
@[simp] theorem modOrder_served (s : State) (f : Order → Order) : (modOrder s f).served = s.served := rfl
@[simp] theorem modOrder_waiting (s : State) (f : Order → Order) : (modOrder s f).waiting = s.waiting := rfl
@[simp] theorem modOrder_freeCtr (s : State) (f : Order → Order) : (modOrder s f).freeCtr = s.freeCtr := rfl
@[simp] theorem modOrder_uid (s : State) (f : Order → Order) : (modOrder s f).uid = s.uid := rfl
@[simp] theorem modOrder_cur (s : State) (f : Order → Order) : (modOrder s f).cur = s.cur := rfl
@[simp] theorem modOrder_issue (s : State) (f : Order → Order) : (modOrder s f).issue = s.issue := rfl
@[simp] theorem modOrder_quads (s : State) (f : Order → Order) : (modOrder s f).quads = s.quads := rfl
@[simp] theorem modOrder_dies (s : State) (f : Order → Order) : (modOrder s f).dies = s.dies := rfl
@[simp] theorem modOrder_stash (s : State) (f : Order → Order) : (modOrder s f).stash = s.stash := rfl
@[simp] theorem modOrder_tags (s : State) (f : Order → Order) : (modOrder s f).tags = s.tags := rfl
@[simp] theorem modOrder_sbad (s : State) (f : Order → Order) : (modOrder s f).sbad = s.sbad := rfl
@[simp] theorem modOrder_chunks (s : State) (f : Order → Order) : (modOrder s f).chunks = s.chunks := rfl
@[simp] theorem modOrder_far (s : State) (f : Order → Order) : (modOrder s f).far = s.far := rfl
@[simp] theorem modOrder_lineVer (s : State) (f : Order → Order) : (modOrder s f).lineVer = s.lineVer := rfl
@[simp] theorem modOrder_bad (s : State) (f : Order → Order) : (modOrder s f).bad = s.bad := rfl
@[simp] theorem modOrder_frames (s : State) (f : Order → Order) : (modOrder s f).frames = s.frames := rfl
@[simp] theorem modOrder_xlat (s : State) (f : Order → Order) : (modOrder s f).xlat = s.xlat := rfl
@[simp] theorem modOrder_hub (s : State) (f : Order → Order) : (modOrder s f).hub = s.hub := rfl
@[simp] theorem modOrder_edge (s : State) (f : Order → Order) : (modOrder s f).edge = s.edge := rfl

@[simp] theorem modAnv_now (s : State) (f : Anvil → Anvil) : (modAnv s f).now = s.now := rfl
@[simp] theorem modAnv_clock (s : State) (f : Anvil → Anvil) : (modAnv s f).clock = s.clock := rfl
@[simp] theorem modAnv_agenda (s : State) (f : Anvil → Anvil) : (modAnv s f).agenda = s.agenda := rfl
@[simp] theorem modAnv_todo (s : State) (f : Anvil → Anvil) : (modAnv s f).todo = s.todo := rfl
@[simp] theorem modAnv_served (s : State) (f : Anvil → Anvil) : (modAnv s f).served = s.served := rfl
@[simp] theorem modAnv_waiting (s : State) (f : Anvil → Anvil) : (modAnv s f).waiting = s.waiting := rfl
@[simp] theorem modAnv_freeCtr (s : State) (f : Anvil → Anvil) : (modAnv s f).freeCtr = s.freeCtr := rfl
@[simp] theorem modAnv_uid (s : State) (f : Anvil → Anvil) : (modAnv s f).uid = s.uid := rfl
@[simp] theorem modAnv_cur (s : State) (f : Anvil → Anvil) : (modAnv s f).cur = s.cur := rfl
@[simp] theorem modAnv_issue (s : State) (f : Anvil → Anvil) : (modAnv s f).issue = s.issue := rfl
@[simp] theorem modAnv_quads (s : State) (f : Anvil → Anvil) : (modAnv s f).quads = s.quads := rfl
@[simp] theorem modAnv_dies (s : State) (f : Anvil → Anvil) : (modAnv s f).dies = s.dies := rfl
@[simp] theorem modAnv_stash (s : State) (f : Anvil → Anvil) : (modAnv s f).stash = s.stash := rfl
@[simp] theorem modAnv_tags (s : State) (f : Anvil → Anvil) : (modAnv s f).tags = s.tags := rfl
@[simp] theorem modAnv_sbad (s : State) (f : Anvil → Anvil) : (modAnv s f).sbad = s.sbad := rfl
@[simp] theorem modAnv_chunks (s : State) (f : Anvil → Anvil) : (modAnv s f).chunks = s.chunks := rfl
@[simp] theorem modAnv_far (s : State) (f : Anvil → Anvil) : (modAnv s f).far = s.far := rfl
@[simp] theorem modAnv_lineVer (s : State) (f : Anvil → Anvil) : (modAnv s f).lineVer = s.lineVer := rfl
@[simp] theorem modAnv_bad (s : State) (f : Anvil → Anvil) : (modAnv s f).bad = s.bad := rfl
@[simp] theorem modAnv_frames (s : State) (f : Anvil → Anvil) : (modAnv s f).frames = s.frames := rfl
@[simp] theorem modAnv_xlat (s : State) (f : Anvil → Anvil) : (modAnv s f).xlat = s.xlat := rfl
@[simp] theorem modAnv_hub (s : State) (f : Anvil → Anvil) : (modAnv s f).hub = s.hub := rfl
@[simp] theorem modAnv_edge (s : State) (f : Anvil → Anvil) : (modAnv s f).edge = s.edge := rfl

@[simp] theorem modRegs_now (s : State) (f : Regs → Regs) : (modRegs s f).now = s.now := rfl
@[simp] theorem modRegs_clock (s : State) (f : Regs → Regs) : (modRegs s f).clock = s.clock := rfl
@[simp] theorem modRegs_agenda (s : State) (f : Regs → Regs) : (modRegs s f).agenda = s.agenda := rfl
@[simp] theorem modRegs_todo (s : State) (f : Regs → Regs) : (modRegs s f).todo = s.todo := rfl
@[simp] theorem modRegs_served (s : State) (f : Regs → Regs) : (modRegs s f).served = s.served := rfl
@[simp] theorem modRegs_waiting (s : State) (f : Regs → Regs) : (modRegs s f).waiting = s.waiting := rfl
@[simp] theorem modRegs_freeCtr (s : State) (f : Regs → Regs) : (modRegs s f).freeCtr = s.freeCtr := rfl
@[simp] theorem modRegs_uid (s : State) (f : Regs → Regs) : (modRegs s f).uid = s.uid := rfl
@[simp] theorem modRegs_cur (s : State) (f : Regs → Regs) : (modRegs s f).cur = s.cur := rfl
@[simp] theorem modRegs_issue (s : State) (f : Regs → Regs) : (modRegs s f).issue = s.issue := rfl
@[simp] theorem modRegs_quads (s : State) (f : Regs → Regs) : (modRegs s f).quads = s.quads := rfl
@[simp] theorem modRegs_dies (s : State) (f : Regs → Regs) : (modRegs s f).dies = s.dies := rfl
@[simp] theorem modRegs_stash (s : State) (f : Regs → Regs) : (modRegs s f).stash = s.stash := rfl
@[simp] theorem modRegs_tags (s : State) (f : Regs → Regs) : (modRegs s f).tags = s.tags := rfl
@[simp] theorem modRegs_sbad (s : State) (f : Regs → Regs) : (modRegs s f).sbad = s.sbad := rfl
@[simp] theorem modRegs_chunks (s : State) (f : Regs → Regs) : (modRegs s f).chunks = s.chunks := rfl
@[simp] theorem modRegs_far (s : State) (f : Regs → Regs) : (modRegs s f).far = s.far := rfl
@[simp] theorem modRegs_lineVer (s : State) (f : Regs → Regs) : (modRegs s f).lineVer = s.lineVer := rfl
@[simp] theorem modRegs_bad (s : State) (f : Regs → Regs) : (modRegs s f).bad = s.bad := rfl
@[simp] theorem modRegs_frames (s : State) (f : Regs → Regs) : (modRegs s f).frames = s.frames := rfl
@[simp] theorem modRegs_xlat (s : State) (f : Regs → Regs) : (modRegs s f).xlat = s.xlat := rfl
@[simp] theorem modRegs_hub (s : State) (f : Regs → Regs) : (modRegs s f).hub = s.hub := rfl
@[simp] theorem modRegs_edge (s : State) (f : Regs → Regs) : (modRegs s f).edge = s.edge := rfl

@[simp] theorem setGang_now (s : State) (g : Gang) : (setGang s g).now = s.now := rfl
@[simp] theorem setGang_clock (s : State) (g : Gang) : (setGang s g).clock = s.clock := rfl
@[simp] theorem setGang_agenda (s : State) (g : Gang) : (setGang s g).agenda = s.agenda := rfl
@[simp] theorem setGang_todo (s : State) (g : Gang) : (setGang s g).todo = s.todo := rfl
@[simp] theorem setGang_served (s : State) (g : Gang) : (setGang s g).served = s.served := rfl
@[simp] theorem setGang_waiting (s : State) (g : Gang) : (setGang s g).waiting = s.waiting := rfl
@[simp] theorem setGang_freeCtr (s : State) (g : Gang) : (setGang s g).freeCtr = s.freeCtr := rfl
@[simp] theorem setGang_uid (s : State) (g : Gang) : (setGang s g).uid = s.uid := rfl
@[simp] theorem setGang_cur (s : State) (g : Gang) : (setGang s g).cur = s.cur := rfl
@[simp] theorem setGang_issue (s : State) (g : Gang) : (setGang s g).issue = s.issue := rfl
@[simp] theorem setGang_cores (s : State) (g : Gang) : (setGang s g).cores = s.cores := rfl
@[simp] theorem setGang_quads (s : State) (g : Gang) : (setGang s g).quads = s.quads := rfl
@[simp] theorem setGang_dies (s : State) (g : Gang) : (setGang s g).dies = s.dies := rfl
@[simp] theorem setGang_stash (s : State) (g : Gang) : (setGang s g).stash = s.stash := rfl
@[simp] theorem setGang_tags (s : State) (g : Gang) : (setGang s g).tags = s.tags := rfl
@[simp] theorem setGang_sbad (s : State) (g : Gang) : (setGang s g).sbad = s.sbad := rfl
@[simp] theorem setGang_chunks (s : State) (g : Gang) : (setGang s g).chunks = s.chunks := rfl
@[simp] theorem setGang_far (s : State) (g : Gang) : (setGang s g).far = s.far := rfl
@[simp] theorem setGang_lineVer (s : State) (g : Gang) : (setGang s g).lineVer = s.lineVer := rfl
@[simp] theorem setGang_bad (s : State) (g : Gang) : (setGang s g).bad = s.bad := rfl
@[simp] theorem setGang_frames (s : State) (g : Gang) : (setGang s g).frames = s.frames := rfl
@[simp] theorem setGang_xlat (s : State) (g : Gang) : (setGang s g).xlat = s.xlat := rfl
@[simp] theorem setGang_edge (s : State) (g : Gang) : (setGang s g).edge = s.edge := rfl

@[simp] theorem delGang_now (s : State) (ctx : Nat) : (delGang s ctx).now = s.now := rfl
@[simp] theorem delGang_clock (s : State) (ctx : Nat) : (delGang s ctx).clock = s.clock := rfl
@[simp] theorem delGang_agenda (s : State) (ctx : Nat) : (delGang s ctx).agenda = s.agenda := rfl
@[simp] theorem delGang_todo (s : State) (ctx : Nat) : (delGang s ctx).todo = s.todo := rfl
@[simp] theorem delGang_served (s : State) (ctx : Nat) : (delGang s ctx).served = s.served := rfl
@[simp] theorem delGang_waiting (s : State) (ctx : Nat) : (delGang s ctx).waiting = s.waiting := rfl
@[simp] theorem delGang_freeCtr (s : State) (ctx : Nat) : (delGang s ctx).freeCtr = s.freeCtr := rfl
@[simp] theorem delGang_uid (s : State) (ctx : Nat) : (delGang s ctx).uid = s.uid := rfl
@[simp] theorem delGang_cur (s : State) (ctx : Nat) : (delGang s ctx).cur = s.cur := rfl
@[simp] theorem delGang_issue (s : State) (ctx : Nat) : (delGang s ctx).issue = s.issue := rfl
@[simp] theorem delGang_cores (s : State) (ctx : Nat) : (delGang s ctx).cores = s.cores := rfl
@[simp] theorem delGang_quads (s : State) (ctx : Nat) : (delGang s ctx).quads = s.quads := rfl
@[simp] theorem delGang_dies (s : State) (ctx : Nat) : (delGang s ctx).dies = s.dies := rfl
@[simp] theorem delGang_stash (s : State) (ctx : Nat) : (delGang s ctx).stash = s.stash := rfl
@[simp] theorem delGang_tags (s : State) (ctx : Nat) : (delGang s ctx).tags = s.tags := rfl
@[simp] theorem delGang_sbad (s : State) (ctx : Nat) : (delGang s ctx).sbad = s.sbad := rfl
@[simp] theorem delGang_chunks (s : State) (ctx : Nat) : (delGang s ctx).chunks = s.chunks := rfl
@[simp] theorem delGang_far (s : State) (ctx : Nat) : (delGang s ctx).far = s.far := rfl
@[simp] theorem delGang_lineVer (s : State) (ctx : Nat) : (delGang s ctx).lineVer = s.lineVer := rfl
@[simp] theorem delGang_bad (s : State) (ctx : Nat) : (delGang s ctx).bad = s.bad := rfl
@[simp] theorem delGang_frames (s : State) (ctx : Nat) : (delGang s ctx).frames = s.frames := rfl
@[simp] theorem delGang_xlat (s : State) (ctx : Nat) : (delGang s ctx).xlat = s.xlat := rfl
@[simp] theorem delGang_edge (s : State) (ctx : Nat) : (delGang s ctx).edge = s.edge := rfl

@[simp] theorem putChunk_now (s : State) (key : Nat) (x : Chunk) : (putChunk s key x).now = s.now := rfl
@[simp] theorem putChunk_clock (s : State) (key : Nat) (x : Chunk) : (putChunk s key x).clock = s.clock := rfl
@[simp] theorem putChunk_agenda (s : State) (key : Nat) (x : Chunk) : (putChunk s key x).agenda = s.agenda := rfl
@[simp] theorem putChunk_todo (s : State) (key : Nat) (x : Chunk) : (putChunk s key x).todo = s.todo := rfl
@[simp] theorem putChunk_served (s : State) (key : Nat) (x : Chunk) : (putChunk s key x).served = s.served := rfl
@[simp] theorem putChunk_waiting (s : State) (key : Nat) (x : Chunk) : (putChunk s key x).waiting = s.waiting := rfl
@[simp] theorem putChunk_freeCtr (s : State) (key : Nat) (x : Chunk) : (putChunk s key x).freeCtr = s.freeCtr := rfl
@[simp] theorem putChunk_uid (s : State) (key : Nat) (x : Chunk) : (putChunk s key x).uid = s.uid := rfl
@[simp] theorem putChunk_cur (s : State) (key : Nat) (x : Chunk) : (putChunk s key x).cur = s.cur := rfl
@[simp] theorem putChunk_issue (s : State) (key : Nat) (x : Chunk) : (putChunk s key x).issue = s.issue := rfl
@[simp] theorem putChunk_cores (s : State) (key : Nat) (x : Chunk) : (putChunk s key x).cores = s.cores := rfl
@[simp] theorem putChunk_quads (s : State) (key : Nat) (x : Chunk) : (putChunk s key x).quads = s.quads := rfl
@[simp] theorem putChunk_dies (s : State) (key : Nat) (x : Chunk) : (putChunk s key x).dies = s.dies := rfl
@[simp] theorem putChunk_stash (s : State) (key : Nat) (x : Chunk) : (putChunk s key x).stash = s.stash := rfl
@[simp] theorem putChunk_tags (s : State) (key : Nat) (x : Chunk) : (putChunk s key x).tags = s.tags := rfl
@[simp] theorem putChunk_sbad (s : State) (key : Nat) (x : Chunk) : (putChunk s key x).sbad = s.sbad := rfl
@[simp] theorem putChunk_far (s : State) (key : Nat) (x : Chunk) : (putChunk s key x).far = s.far := rfl
@[simp] theorem putChunk_lineVer (s : State) (key : Nat) (x : Chunk) : (putChunk s key x).lineVer = s.lineVer := rfl
@[simp] theorem putChunk_bad (s : State) (key : Nat) (x : Chunk) : (putChunk s key x).bad = s.bad := rfl
@[simp] theorem putChunk_frames (s : State) (key : Nat) (x : Chunk) : (putChunk s key x).frames = s.frames := rfl
@[simp] theorem putChunk_xlat (s : State) (key : Nat) (x : Chunk) : (putChunk s key x).xlat = s.xlat := rfl
@[simp] theorem putChunk_hub (s : State) (key : Nat) (x : Chunk) : (putChunk s key x).hub = s.hub := rfl
@[simp] theorem putChunk_edge (s : State) (key : Nat) (x : Chunk) : (putChunk s key x).edge = s.edge := rfl

@[simp] theorem dropChunk_now (s : State) (key : Nat) : (dropChunk s key).now = s.now := rfl
@[simp] theorem dropChunk_clock (s : State) (key : Nat) : (dropChunk s key).clock = s.clock := rfl
@[simp] theorem dropChunk_agenda (s : State) (key : Nat) : (dropChunk s key).agenda = s.agenda := rfl
@[simp] theorem dropChunk_todo (s : State) (key : Nat) : (dropChunk s key).todo = s.todo := rfl
@[simp] theorem dropChunk_served (s : State) (key : Nat) : (dropChunk s key).served = s.served := rfl
@[simp] theorem dropChunk_waiting (s : State) (key : Nat) : (dropChunk s key).waiting = s.waiting := rfl
@[simp] theorem dropChunk_freeCtr (s : State) (key : Nat) : (dropChunk s key).freeCtr = s.freeCtr := rfl
@[simp] theorem dropChunk_uid (s : State) (key : Nat) : (dropChunk s key).uid = s.uid := rfl
@[simp] theorem dropChunk_cur (s : State) (key : Nat) : (dropChunk s key).cur = s.cur := rfl
@[simp] theorem dropChunk_issue (s : State) (key : Nat) : (dropChunk s key).issue = s.issue := rfl
@[simp] theorem dropChunk_cores (s : State) (key : Nat) : (dropChunk s key).cores = s.cores := rfl
@[simp] theorem dropChunk_quads (s : State) (key : Nat) : (dropChunk s key).quads = s.quads := rfl
@[simp] theorem dropChunk_dies (s : State) (key : Nat) : (dropChunk s key).dies = s.dies := rfl
@[simp] theorem dropChunk_stash (s : State) (key : Nat) : (dropChunk s key).stash = s.stash := rfl
@[simp] theorem dropChunk_tags (s : State) (key : Nat) : (dropChunk s key).tags = s.tags := rfl
@[simp] theorem dropChunk_sbad (s : State) (key : Nat) : (dropChunk s key).sbad = s.sbad := rfl
@[simp] theorem dropChunk_far (s : State) (key : Nat) : (dropChunk s key).far = s.far := rfl
@[simp] theorem dropChunk_lineVer (s : State) (key : Nat) : (dropChunk s key).lineVer = s.lineVer := rfl
@[simp] theorem dropChunk_bad (s : State) (key : Nat) : (dropChunk s key).bad = s.bad := rfl
@[simp] theorem dropChunk_frames (s : State) (key : Nat) : (dropChunk s key).frames = s.frames := rfl
@[simp] theorem dropChunk_xlat (s : State) (key : Nat) : (dropChunk s key).xlat = s.xlat := rfl
@[simp] theorem dropChunk_hub (s : State) (key : Nat) : (dropChunk s key).hub = s.hub := rfl
@[simp] theorem dropChunk_edge (s : State) (key : Nat) : (dropChunk s key).edge = s.edge := rfl

@[simp] theorem takeFree_now (s : State) : (takeFree s).2.now = s.now := rfl
@[simp] theorem takeFree_clock (s : State) : (takeFree s).2.clock = s.clock := rfl
@[simp] theorem takeFree_agenda (s : State) : (takeFree s).2.agenda = s.agenda := rfl
@[simp] theorem takeFree_todo (s : State) : (takeFree s).2.todo = s.todo := rfl
@[simp] theorem takeFree_served (s : State) : (takeFree s).2.served = s.served := rfl
@[simp] theorem takeFree_waiting (s : State) : (takeFree s).2.waiting = s.waiting := rfl
@[simp] theorem takeFree_uid (s : State) : (takeFree s).2.uid = s.uid := rfl
@[simp] theorem takeFree_cur (s : State) : (takeFree s).2.cur = s.cur := rfl
@[simp] theorem takeFree_issue (s : State) : (takeFree s).2.issue = s.issue := rfl
@[simp] theorem takeFree_cores (s : State) : (takeFree s).2.cores = s.cores := rfl
@[simp] theorem takeFree_quads (s : State) : (takeFree s).2.quads = s.quads := rfl
@[simp] theorem takeFree_dies (s : State) : (takeFree s).2.dies = s.dies := rfl
@[simp] theorem takeFree_stash (s : State) : (takeFree s).2.stash = s.stash := rfl
@[simp] theorem takeFree_tags (s : State) : (takeFree s).2.tags = s.tags := rfl
@[simp] theorem takeFree_sbad (s : State) : (takeFree s).2.sbad = s.sbad := rfl
@[simp] theorem takeFree_chunks (s : State) : (takeFree s).2.chunks = s.chunks := rfl
@[simp] theorem takeFree_far (s : State) : (takeFree s).2.far = s.far := rfl
@[simp] theorem takeFree_lineVer (s : State) : (takeFree s).2.lineVer = s.lineVer := rfl
@[simp] theorem takeFree_bad (s : State) : (takeFree s).2.bad = s.bad := rfl
@[simp] theorem takeFree_frames (s : State) : (takeFree s).2.frames = s.frames := rfl
@[simp] theorem takeFree_xlat (s : State) : (takeFree s).2.xlat = s.xlat := rfl
@[simp] theorem takeFree_hub (s : State) : (takeFree s).2.hub = s.hub := rfl
@[simp] theorem takeFree_edge (s : State) : (takeFree s).2.edge = s.edge := rfl
@[simp] theorem takeFree_freeCtr (s : State) : (takeFree s).2.freeCtr = s.freeCtr + 1 := rfl
@[simp] theorem takeFree_fst (s : State) : (takeFree s).1 = s.freeCtr := rfl

/-! Reads of a part after it is written. -/

@[simp] theorem getCore_setCore_same (s : State) (c : Nat) (x : Core) : getCore (setCore s c x) c = x := by
  simp [getCore, setCore]

@[simp] theorem getCore_setCore_other (s : State) {c d : Nat} (x : Core) (h : c ≠ d) : getCore (setCore s c x) d = getCore s d := by
  simp [getCore, setCore, h]

@[simp] theorem getCore_modCore_same (s : State) (c : Nat) (f : Core → Core) : getCore (modCore s c f) c = f (getCore s c) := by
  simp [modCore]

@[simp] theorem getCore_modCore_other (s : State) {c d : Nat} (f : Core → Core) (h : c ≠ d) :
    getCore (modCore s c f) d = getCore s d := by simp [modCore, h]

@[simp] theorem getQuad_setQuad_same (s : State) (q : Nat) (x : Quad) : getQuad (setQuad s q x) q = x := by
  simp [getQuad, setQuad]

@[simp] theorem getQuad_setQuad_other (s : State) {q d : Nat} (x : Quad) (h : q ≠ d) : getQuad (setQuad s q x) d = getQuad s d := by
  simp [getQuad, setQuad, h]

@[simp] theorem getQuad_modQuad_same (s : State) (q : Nat) (f : Quad → Quad) : getQuad (modQuad s q f) q = f (getQuad s q) := by
  simp [modQuad]

@[simp] theorem getQuad_modQuad_other (s : State) {q d : Nat} (f : Quad → Quad) (h : q ≠ d) :
    getQuad (modQuad s q f) d = getQuad s d := by simp [modQuad, h]

@[simp] theorem getDie_setDie_same (s : State) (n : Nat) (x : Die) : getDie (setDie s n x) n = x := by simp [getDie, setDie]

@[simp] theorem getDie_setDie_other (s : State) {n d : Nat} (x : Die) (h : n ≠ d) : getDie (setDie s n x) d = getDie s d := by
  simp [getDie, setDie, h]

@[simp] theorem getQuad_setCore (s : State) (c : Nat) (x : Core) (q : Nat) : getQuad (setCore s c x) q = getQuad s q := rfl
@[simp] theorem getDie_setCore (s : State) (c : Nat) (x : Core) (d : Nat) : getDie (setCore s c x) d = getDie s d := rfl
@[simp] theorem getCore_setQuad (s : State) (q : Nat) (x : Quad) (c : Nat) : getCore (setQuad s q x) c = getCore s c := rfl
@[simp] theorem getDie_setQuad (s : State) (q : Nat) (x : Quad) (d : Nat) : getDie (setQuad s q x) d = getDie s d := rfl
@[simp] theorem getCore_setDie (s : State) (n : Nat) (x : Die) (c : Nat) : getCore (setDie s n x) c = getCore s c := rfl
@[simp] theorem getQuad_setDie (s : State) (n : Nat) (x : Die) (q : Nat) : getQuad (setDie s n x) q = getQuad s q := rfl
@[simp] theorem getCore_takeFree (s : State) (c : Nat) : getCore (takeFree s).2 c = getCore s c := rfl
@[simp] theorem arch_takeFree (s : State) : arch (takeFree s).2 = arch s := rfl

/-! The running core. -/

@[simp] theorem getCore_setArch_same (s : State) (a : CoreArch) : getCore (setArch s a) s.cur = { getCore s s.cur with arch := a } := by
  simp [setArch]

@[simp] theorem getCore_setArch_other (s : State) (a : CoreArch) {d : Nat} (h : s.cur ≠ d) :
    getCore (setArch s a) d = getCore s d := by simp [setArch, h]

@[simp] theorem arch_setArch (s : State) (a : CoreArch) : arch (setArch s a) = a := by simp [arch]
@[simp] theorem arch_modArch (s : State) (f : CoreArch → CoreArch) : arch (modArch s f) = f (arch s) := by simp [modArch]
@[simp] theorem arch_modSeq (s : State) (f : Sequencer → Sequencer) : arch (modSeq s f) = { arch s with seq := f (arch s).seq } := by
  simp [modSeq]
@[simp] theorem arch_modCsr (s : State) (f : Csrs → Csrs) : arch (modCsr s f) = { arch s with csr := f (arch s).csr } := by
  simp [modCsr]
@[simp] theorem arch_modOrder (s : State) (f : Order → Order) : arch (modOrder s f) = { arch s with order := f (arch s).order } := by
  simp [modOrder]
@[simp] theorem arch_modAnv (s : State) (f : Anvil → Anvil) : arch (modAnv s f) = { arch s with anv := f (arch s).anv } := by
  simp [modAnv]
@[simp] theorem arch_modRegs (s : State) (f : Regs → Regs) : arch (modRegs s f) = { arch s with regs := f (arch s).regs } := by
  simp [modRegs]

@[simp] theorem getCore_modArch_other (s : State) (f : CoreArch → CoreArch) {d : Nat} (h : s.cur ≠ d) :
    getCore (modArch s f) d = getCore s d := by simp [modArch, h]

/-- A change of the running core's architectural part keeps the rest of that core. -/
theorem getCore_modArch_same (s : State) (f : CoreArch → CoreArch) :
    getCore (modArch s f) s.cur = { getCore s s.cur with arch := f (arch s) } := by simp [modArch]

/-! Vectors of fixed length. -/

@[simp] theorem vget_vset_same {α : Type} {n : Nat} (v : Vector α n) (i : Fin n) (x : α) : vget (vset v i x) i = x := by
  simp [vget, vset]

@[simp] theorem vget_vset_other {α : Type} {n : Nat} (v : Vector α n) {i j : Fin n} (x : α) (h : i ≠ j) :
    vget (vset v i x) j = vget v j := by
  have h' : i.val ≠ j.val := fun e => h (Fin.ext e)
  simp [vget, vset, h']

end Sys2Proof.Machine
end

