-- ==== Sys2Proof/Laws/Operands.lean ====
section
/-! SUPPORT. What the shared forms of a slot do: a move slot that is off, poisoned or runs, an address slot, the last-read mark, a
result put in flight, a fault raised. -/

namespace Sys2Proof.Machine

/-! Move slots, with whatever fault ranks above an early read's. -/

theorem encodingFault_wf {i : Instr} (h : wellFormed i = true) : encodingFault i = none := by simp [encodingFault, h]

theorem runMovePre_off {i : Instr} {g : Guard} {src : Src} {pre : Option Nat} {s : State} {f : Val → State → State}
    (h : wellFormed i = true) (hg : guardRes (startArch s) g = .off) : runMovePre i g src pre s f = s := by
  simp [runMovePre, encodingFault_wf h, hg]

theorem runMovePre_poisoned {i : Instr} {g : Guard} {src : Src} {pre : Option Nat} {s : State} {f : Val → State → State}
    (h : wellFormed i = true) (hg : guardRes (startArch s) g = .poisoned) : runMovePre i g src pre s f = raise s i cPoison := by
  simp [runMovePre, encodingFault_wf h, hg]

theorem runMovePre_val {i : Instr} {g : Guard} {src : Src} {pre : Option Nat} {s : State} {f : Val → State → State} {e : TSet} {y : Val}
    (h : wellFormed i = true) (hg : guardRes (startArch s) g = .on e) (hr : readSrc s src = .val y) :
    runMovePre i g src pre s f = f (y.join e) (markGuard s g src) := by simp [runMovePre, encodingFault_wf h, hg, fetchSrc, hr]

theorem runMovePre_bad {i : Instr} {g : Guard} {src : Src} {pre : Option Nat} {s : State} {f : Val → State → State}
    (h : wellFormed i = false) : runMovePre i g src pre s f = raise s i 5 := by simp [runMovePre, encodingFault, h]

theorem runMove_off {i : Instr} {g : Guard} {src : Src} {s : State} {f : Val → State → State} (h : wellFormed i = true)
    (hg : guardRes (startArch s) g = .off) : runMove i g src s f = s := runMovePre_off h hg

theorem runMove_poisoned {i : Instr} {g : Guard} {src : Src} {s : State} {f : Val → State → State} (h : wellFormed i = true)
    (hg : guardRes (startArch s) g = .poisoned) : runMove i g src s f = raise s i cPoison := runMovePre_poisoned h hg

theorem runMove_val {i : Instr} {g : Guard} {src : Src} {s : State} {f : Val → State → State} {e : TSet} {y : Val}
    (h : wellFormed i = true) (hg : guardRes (startArch s) g = .on e) (hr : readSrc s src = .val y) :
    runMove i g src s f = f (y.join e) (markGuard s g src) := runMovePre_val h hg hr

theorem runMove_bad {i : Instr} {g : Guard} {src : Src} {s : State} {f : Val → State → State} (h : wellFormed i = false) :
    runMove i g src s f = raise s i 5 := runMovePre_bad h

/-! Address slots. -/

theorem runAddr_off {i : Instr} {g : Guard} {j : Fin 16} {u : Bool} {p : AddrIn → Bool} {s : State} {f : AddrIn → State → State}
    (h : wellFormed i = true) (hg : guardRes (startArch s) g = .off) : runAddr i g j u p s f = s := by
  simp [runAddr, encodingFault_wf h, hg]

theorem runAddr_poisoned {i : Instr} {g : Guard} {j : Fin 16} {u : Bool} {p : AddrIn → Bool} {s : State} {f : AddrIn → State → State}
    (h : wellFormed i = true) (hg : guardRes (startArch s) g = .poisoned) : runAddr i g j u p s f = raise s i cPoison := by
  simp [runAddr, encodingFault_wf h, hg]

/-- The address register and modifier of a slot whose registers are live. -/
def liveIn (s : State) (j : Fin 16) (e : TSet) : AddrIn :=
  { a := (vget (startArch s).regs.a j).val, m := (vget (startArch s).regs.m j).val, mFree := false, guard := e }

/-- An address slot with live registers: poison-use, or its effect. -/
theorem runAddr_live {i : Instr} {g : Guard} {j : Fin 16} {u : Bool} {p : AddrIn → Bool} {s : State} {f : AddrIn → State → State}
    {e : TSet} (h : wellFormed i = true) (hg : guardRes (startArch s) g = .on e) (ha : (vget (startArch s).regs.a j).dead = false)
    (hm : u = true → (vget (startArch s).regs.m j).dead = false) :
    runAddr i g j u p s f = if p (liveIn s j e) then raise s i cPoison else f (liveIn s j e) s := by
  cases u <;> simp_all [runAddr, encodingFault_wf h, fetchAddr, addrEarly, liveIn] <;> rfl

theorem runAddr_val {i : Instr} {g : Guard} {j : Fin 16} {u : Bool} {p : AddrIn → Bool} {s : State} {f : AddrIn → State → State}
    {e : TSet} (h : wellFormed i = true) (hg : guardRes (startArch s) g = .on e) (ha : (vget (startArch s).regs.a j).dead = false)
    (hm : u = true → (vget (startArch s).regs.m j).dead = false) (hp : p (liveIn s j e) = false) :
    runAddr i g j u p s f = f (liveIn s j e) s := by rw [runAddr_live h hg ha hm, hp]; rfl

/-! The last-read mark: only a dead or empty flag changes (R50). -/

theorem markLast_eq (s : State) (src : Src) : ∃ r q p, markLast s src = setArch s { arch s with regs := r, seq := q, res := p } ∨
    markLast s src = s := by
  cases src with
  | g i =>
    simp only [markLast]
    split
    · exact ⟨(arch s).regs, (arch s).seq, (arch s).res, .inr rfl⟩
    · simp only [modArch, writeG]
      split
      · exact ⟨_, _, _, .inl rfl⟩
      · exact ⟨_, _, _, .inl rfl⟩
  | v i | p i | a i | m i =>
    simp only [markLast]
    split
    · exact ⟨(arch s).regs, (arch s).seq, (arch s).res, .inr rfl⟩
    · exact ⟨_, _, _, .inl rfl⟩
  | res r => exact ⟨_, _, _, .inl rfl⟩
  | _ => exact ⟨(arch s).regs, (arch s).seq, (arch s).res, .inr rfl⟩

/-- What a property of the running core's other parts finds after a last-read mark. -/
theorem markGuard_keeps {α : Type} (P : CoreArch → α) (hP : ∀ a r q p, P { a with regs := r, seq := q, res := p } = P a)
    (s : State) (g : Guard) (src : Src) : P (arch (markGuard s g src)) = P (arch s) := by
  unfold markGuard
  split
  · obtain ⟨r, q, p, h | h⟩ := markLast_eq s src
    · rw [h, arch_setArch, hP]
    · rw [h]
  · rfl

@[simp] theorem markGuard_csr (s : State) (g : Guard) (src : Src) : (arch (markGuard s g src)).csr = (arch s).csr :=
  markGuard_keeps (·.csr) (fun _ _ _ _ => rfl) s g src
@[simp] theorem markGuard_ops (s : State) (g : Guard) (src : Src) : (arch (markGuard s g src)).ops = (arch s).ops :=
  markGuard_keeps (·.ops) (fun _ _ _ _ => rfl) s g src
@[simp] theorem markGuard_due (s : State) (g : Guard) (src : Src) : (arch (markGuard s g src)).due = (arch s).due :=
  markGuard_keeps (·.due) (fun _ _ _ _ => rfl) s g src
@[simp] theorem markGuard_hdue (s : State) (g : Guard) (src : Src) : (arch (markGuard s g src)).hdue = (arch s).hdue :=
  markGuard_keeps (·.hdue) (fun _ _ _ _ => rfl) s g src
@[simp] theorem markGuard_order (s : State) (g : Guard) (src : Src) : (arch (markGuard s g src)).order = (arch s).order :=
  markGuard_keeps (·.order) (fun _ _ _ _ => rfl) s g src
@[simp] theorem markGuard_anv (s : State) (g : Guard) (src : Src) : (arch (markGuard s g src)).anv = (arch s).anv :=
  markGuard_keeps (·.anv) (fun _ _ _ _ => rfl) s g src
@[simp] theorem markGuard_q (s : State) (g : Guard) (src : Src) : (arch (markGuard s g src)).q = (arch s).q :=
  markGuard_keeps (·.q) (fun _ _ _ _ => rfl) s g src
@[simp] theorem markGuard_fences (s : State) (g : Guard) (src : Src) : (arch (markGuard s g src)).fences = (arch s).fences :=
  markGuard_keeps (·.fences) (fun _ _ _ _ => rfl) s g src

/-- A last-read mark changes nothing but the running core. -/
theorem markGuard_state (s : State) (g : Guard) (src : Src) : ∃ a, markGuard s g src = setArch s a ∨ markGuard s g src = s := by
  unfold markGuard
  split
  · obtain ⟨r, q, p, h⟩ := markLast_eq s src
    exact ⟨_, h⟩
  · exact ⟨arch s, .inr rfl⟩

@[simp] theorem markGuard_now (s : State) (g : Guard) (src : Src) : (markGuard s g src).now = s.now := by
  obtain ⟨a, e | e⟩ := markGuard_state s g src <;> simp [e]
@[simp] theorem markGuard_clock (s : State) (g : Guard) (src : Src) : (markGuard s g src).clock = s.clock := by
  obtain ⟨a, e | e⟩ := markGuard_state s g src <;> simp [e]
@[simp] theorem markGuard_agenda (s : State) (g : Guard) (src : Src) : (markGuard s g src).agenda = s.agenda := by
  obtain ⟨a, e | e⟩ := markGuard_state s g src <;> simp [e]
@[simp] theorem markGuard_todo (s : State) (g : Guard) (src : Src) : (markGuard s g src).todo = s.todo := by
  obtain ⟨a, e | e⟩ := markGuard_state s g src <;> simp [e]
@[simp] theorem markGuard_freeCtr (s : State) (g : Guard) (src : Src) : (markGuard s g src).freeCtr = s.freeCtr := by
  obtain ⟨a, e | e⟩ := markGuard_state s g src <;> simp [e]
@[simp] theorem markGuard_uid (s : State) (g : Guard) (src : Src) : (markGuard s g src).uid = s.uid := by
  obtain ⟨a, e | e⟩ := markGuard_state s g src <;> simp [e]
@[simp] theorem markGuard_cur (s : State) (g : Guard) (src : Src) : (markGuard s g src).cur = s.cur := by
  obtain ⟨a, e | e⟩ := markGuard_state s g src <;> simp [e]
@[simp] theorem markGuard_issue (s : State) (g : Guard) (src : Src) : (markGuard s g src).issue = s.issue := by
  obtain ⟨a, e | e⟩ := markGuard_state s g src <;> simp [e]
@[simp] theorem markGuard_quads (s : State) (g : Guard) (src : Src) : (markGuard s g src).quads = s.quads := by
  obtain ⟨a, e | e⟩ := markGuard_state s g src <;> simp [e]
@[simp] theorem markGuard_dies (s : State) (g : Guard) (src : Src) : (markGuard s g src).dies = s.dies := by
  obtain ⟨a, e | e⟩ := markGuard_state s g src <;> simp [e]
@[simp] theorem markGuard_stash (s : State) (g : Guard) (src : Src) : (markGuard s g src).stash = s.stash := by
  obtain ⟨a, e | e⟩ := markGuard_state s g src <;> simp [e]
@[simp] theorem markGuard_tags (s : State) (g : Guard) (src : Src) : (markGuard s g src).tags = s.tags := by
  obtain ⟨a, e | e⟩ := markGuard_state s g src <;> simp [e]
@[simp] theorem markGuard_sbad (s : State) (g : Guard) (src : Src) : (markGuard s g src).sbad = s.sbad := by
  obtain ⟨a, e | e⟩ := markGuard_state s g src <;> simp [e]
@[simp] theorem markGuard_chunks (s : State) (g : Guard) (src : Src) : (markGuard s g src).chunks = s.chunks := by
  obtain ⟨a, e | e⟩ := markGuard_state s g src <;> simp [e]
@[simp] theorem markGuard_far (s : State) (g : Guard) (src : Src) : (markGuard s g src).far = s.far := by
  obtain ⟨a, e | e⟩ := markGuard_state s g src <;> simp [e]
@[simp] theorem markGuard_lineVer (s : State) (g : Guard) (src : Src) : (markGuard s g src).lineVer = s.lineVer := by
  obtain ⟨a, e | e⟩ := markGuard_state s g src <;> simp [e]
@[simp] theorem markGuard_bad (s : State) (g : Guard) (src : Src) : (markGuard s g src).bad = s.bad := by
  obtain ⟨a, e | e⟩ := markGuard_state s g src <;> simp [e]
@[simp] theorem markGuard_frames (s : State) (g : Guard) (src : Src) : (markGuard s g src).frames = s.frames := by
  obtain ⟨a, e | e⟩ := markGuard_state s g src <;> simp [e]
@[simp] theorem markGuard_xlat (s : State) (g : Guard) (src : Src) : (markGuard s g src).xlat = s.xlat := by
  obtain ⟨a, e | e⟩ := markGuard_state s g src <;> simp [e]
@[simp] theorem markGuard_hub (s : State) (g : Guard) (src : Src) : (markGuard s g src).hub = s.hub := by
  obtain ⟨a, e | e⟩ := markGuard_state s g src <;> simp [e]
@[simp] theorem markGuard_edge (s : State) (g : Guard) (src : Src) : (markGuard s g src).edge = s.edge := by
  obtain ⟨a, e | e⟩ := markGuard_state s g src <;> simp [e]

theorem markGuard_getCore_other (s : State) (g : Guard) (src : Src) {c : Nat} (h : s.cur ≠ c) :
    getCore (markGuard s g src) c = getCore s c := by
  obtain ⟨a, e | e⟩ := markGuard_state s g src <;> rw [e]
  exact getCore_setArch_other s a h

@[simp] theorem markGuard_startArch_issue (s : State) (g : Guard) (src : Src) (h : s.issue.isSome) :
    startArch (markGuard s g src) = startArch s := by
  unfold startArch
  rw [markGuard_issue]
  cases hi : s.issue with
  | none => simp [hi] at h
  | some i => rfl

@[simp] theorem getOpS_markGuard (s : State) (g : Guard) (src : Src) (o : OpPort) :
    getOpS (arch (markGuard s g src)) o = getOpS (arch s) o := by simp [getOpS, getOp]

@[simp] theorem getOp_markGuard (s : State) (g : Guard) (src : Src) (o : OpPort) :
    getOp (arch (markGuard s g src)) o = getOp (arch s) o := by simp [getOp]

@[simp] theorem orderNo_markGuard (s t : State) (g : Guard) (src : Src) :
    orderNo t (arch (markGuard s g src)) = orderNo t (arch s) := by simp [orderNo]

/-! Results. -/

/-- A result put in flight: the running core's list grows by it, and nothing else changes. -/
theorem deliver_eq (s : State) (port : PortId) (lat : Nat) (short : Bool) (x : VVal) :
    deliver s port lat short x =
      setArch s { arch s with due := (arch s).due ++
        [{ port := port, at_ := (arch s).csr.cyc + lat, ord := orderNo s (arch s), val := x, short := short }] } := rfl

/-- A fault raised inside a bundle is recorded; the bundle's end decides (R57). -/
theorem raise_in_bundle {s : State} {i : Instr} {x : Issue} (h : s.issue = some x) (cause : Nat) :
    raise s i cause = { s with issue := some { x with faults := x.faults ++
      [{ rank := rankOfCause cause, slot := x.slot, cause := cause,
         uinfo := faultInfo (hregDetail i) x.slot (portDetail i) 0 }] } } := by
  simp [raise, raiseWith, slotNo, h]

/-- A fault raised outside a bundle is taken at once. -/
theorem raise_outside {s : State} {i : Instr} (h : s.issue = none) (cause : Nat) :
    raise s i cause = takeFault s cause (faultInfo (hregDetail i) (if isAddr i then 6 else 0) (portDetail i) 0) := by
  simp [raise, raiseWith, slotNo, h]

end Sys2Proof.Machine
end

