-- ==== Sys2Proof/Laws/PerInstr.lean ====
section
/-! SUPPORT. One lemma per instruction: the fields of its word fit their places (R48, R49, R52). -/

namespace Sys2Proof.Laws.FieldsFit

/-- The fields of a slot's word fit their places. -/
def Fits : SlotEnc → Prop
  | .move g s d => g < 15 ∧ s < 1024 ∧ d < 1024
  | .addr g aop a h imm => g < 15 ∧ aop < 24 ∧ a < 16 ∧ h < 16 ∧ imm < 128
  | .none => True

/-- The fields of an instruction's word fit their places. -/
def Statement (i : Instr) : Prop := Fits (encFields i)

theorem guardCode_lt (g : Guard) : guardCode g < 15 := by
  cases g with
  | steer k => have := k.isLt; simp only [guardCode]; omega
  | _ => simp [guardCode]

theorem srcCode_lt (s : Src) : srcCode s < 1024 := by
  cases s with
  | res r => cases r <;> simp [srcCode, portSrcCode]
  | imm n => have := n.isLt; simp only [srcCode]; split <;> omega
  | l0 | l1 | l2 | l01 | l12 | l012 => simp [srcCode]
  | g i | v i | p i | s i | a i | m i | h i | loopIx i => have := i.isLt; simp only [srcCode]; omega

theorem dstCode_lt (d : Dst) : dstCode d < 1024 := by
  cases d with
  | op o => cases o <;> simp [dstCode, opPortCode]
  | g i | v i | p i | a i | m i => have := i.isLt; simp only [dstCode]; omega

theorem fits_trig (g : Guard) (s : Src) {d : Nat} (h : d < 1024) : Fits (encTrig g s d) := ⟨guardCode_lt g, srcCode_lt s, h⟩

theorem fits_scalar (g : Guard) (s : Src) (b : Bool) {d e : Nat} (h : d < 1024) (h' : e < 1024) :
    Fits (encTrig g s (if b then d else e)) := by
  cases b
  · exact fits_trig g s h'
  · exact fits_trig g s h

theorem uBit_le (u : Bool) : uBit u ≤ 64 := by cases u <;> simp [uBit]

theorem fits_near (g : Guard) {aop : Nat} (a : Fin 16) (u : Bool) (o : BitVec 6) (h : aop < 24) : Fits (encNear g aop a u o) := by
  have := uBit_le u
  have := o.isLt
  exact ⟨guardCode_lt g, h, a.isLt, by decide, by omega⟩

theorem fits_far (g : Guard) {aop : Nat} (a k : Fin 16) (u : Bool) (l : BitVec 2) (h : aop < 24) : Fits (encFar g aop a k u l) := by
  have := uBit_le u
  have := l.isLt
  exact ⟨guardCode_lt g, h, a.isLt, k.isLt, by omega⟩

theorem fits_atom (g : Guard) {fn : Nat} (a k : Fin 16) (c : BitVec 3) (h : fn < 10) : Fits (encAtom g fn a k c) := by
  have := c.isLt
  exact ⟨guardCode_lt g, by decide, a.isLt, k.isLt, by omega⟩

theorem mov (g : Guard) (src : Src) (dst : Dst) : Statement (.mov g src dst) := ⟨guardCode_lt g, srcCode_lt src, dstCode_lt dst⟩
theorem maskedVectorWrite (src : Src) (dst : BitVec 10) : Statement (.maskedVectorWrite src dst) := ⟨by decide, srcCode_lt src, dst.isLt⟩
theorem saAdd (g : Guard) (src : Src) (sb : Bool) : Statement (.saAdd g src sb) := fits_scalar g src sb (by decide) (by decide)
theorem saSub (g : Guard) (src : Src) (sb : Bool) : Statement (.saSub g src sb) := fits_scalar g src sb (by decide) (by decide)
theorem saAnd (g : Guard) (src : Src) (sb : Bool) : Statement (.saAnd g src sb) := fits_scalar g src sb (by decide) (by decide)
theorem saOr (g : Guard) (src : Src) (sb : Bool) : Statement (.saOr g src sb) := fits_scalar g src sb (by decide) (by decide)
theorem saXor (g : Guard) (src : Src) (sb : Bool) : Statement (.saXor g src sb) := fits_scalar g src sb (by decide) (by decide)
theorem saAndn (g : Guard) (src : Src) (sb : Bool) : Statement (.saAndn g src sb) := fits_scalar g src sb (by decide) (by decide)
theorem saShl (g : Guard) (src : Src) (sb : Bool) : Statement (.saShl g src sb) := fits_scalar g src sb (by decide) (by decide)
theorem saShr (g : Guard) (src : Src) (sb : Bool) : Statement (.saShr g src sb) := fits_scalar g src sb (by decide) (by decide)
theorem saSar (g : Guard) (src : Src) (sb : Bool) : Statement (.saSar g src sb) := fits_scalar g src sb (by decide) (by decide)
theorem saMin (g : Guard) (src : Src) (sb : Bool) : Statement (.saMin g src sb) := fits_scalar g src sb (by decide) (by decide)
theorem saMax (g : Guard) (src : Src) (sb : Bool) : Statement (.saMax g src sb) := fits_scalar g src sb (by decide) (by decide)
theorem saMinu (g : Guard) (src : Src) (sb : Bool) : Statement (.saMinu g src sb) := fits_scalar g src sb (by decide) (by decide)
theorem saMaxu (g : Guard) (src : Src) (sb : Bool) : Statement (.saMaxu g src sb) := fits_scalar g src sb (by decide) (by decide)
theorem saMul (g : Guard) (src : Src) (sb : Bool) : Statement (.saMul g src sb) := fits_scalar g src sb (by decide) (by decide)
theorem saMulh (g : Guard) (src : Src) (sb : Bool) : Statement (.saMulh g src sb) := fits_scalar g src sb (by decide) (by decide)
theorem saMulhu (g : Guard) (src : Src) (sb : Bool) : Statement (.saMulhu g src sb) := fits_scalar g src sb (by decide) (by decide)
theorem saClz (g : Guard) (src : Src) (sb : Bool) : Statement (.saClz g src sb) := fits_scalar g src sb (by decide) (by decide)
theorem saCtz (g : Guard) (src : Src) (sb : Bool) : Statement (.saCtz g src sb) := fits_scalar g src sb (by decide) (by decide)
theorem saPopc (g : Guard) (src : Src) (sb : Bool) : Statement (.saPopc g src sb) := fits_scalar g src sb (by decide) (by decide)
theorem saSext (g : Guard) (src : Src) (sb : Bool) : Statement (.saSext g src sb) := fits_scalar g src sb (by decide) (by decide)
theorem saZext (g : Guard) (src : Src) (sb : Bool) : Statement (.saZext g src sb) := fits_scalar g src sb (by decide) (by decide)
theorem saBfx (g : Guard) (src : Src) (sb : Bool) : Statement (.saBfx g src sb) := fits_scalar g src sb (by decide) (by decide)
theorem skEq (g : Guard) (src : Src) (k : Fin 12) : Statement (.skEq g src k) := fits_trig g src (by have := k.isLt; omega)
theorem skNe (g : Guard) (src : Src) (k : Fin 12) : Statement (.skNe g src k) := fits_trig g src (by have := k.isLt; omega)
theorem skLt (g : Guard) (src : Src) (k : Fin 12) : Statement (.skLt g src k) := fits_trig g src (by have := k.isLt; omega)
theorem skGe (g : Guard) (src : Src) (k : Fin 12) : Statement (.skGe g src k) := fits_trig g src (by have := k.isLt; omega)
theorem skLtu (g : Guard) (src : Src) (k : Fin 12) : Statement (.skLtu g src k) := fits_trig g src (by have := k.isLt; omega)
theorem skGeu (g : Guard) (src : Src) (k : Fin 12) : Statement (.skGeu g src k) := fits_trig g src (by have := k.isLt; omega)
theorem skTst (g : Guard) (src : Src) (k : Fin 12) : Statement (.skTst g src k) := fits_trig g src (by have := k.isLt; omega)
theorem skTstn (g : Guard) (src : Src) (k : Fin 12) : Statement (.skTstn g src k) := fits_trig g src (by have := k.isLt; omega)
theorem skPrep (g : Guard) (src : Src) (k : Fin 12) : Statement (.skPrep g src k) := fits_trig g src (by have := k.isLt; omega)
theorem seqBr (g : Guard) (src : Src) : Statement (.seqBr g src) := fits_trig g src (by decide)
theorem seqBrn (g : Guard) (src : Src) : Statement (.seqBrn g src) := fits_trig g src (by decide)
theorem seqJmp (g : Guard) (src : Src) : Statement (.seqJmp g src) := fits_trig g src (by decide)
theorem seqCall (g : Guard) (src : Src) : Statement (.seqCall g src) := fits_trig g src (by decide)
theorem seqRet (g : Guard) (src : Src) : Statement (.seqRet g src) := fits_trig g src (by decide)
theorem seqLoop (g : Guard) (src : Src) : Statement (.seqLoop g src) := fits_trig g src (by decide)
theorem seqLbrk (g : Guard) (src : Src) : Statement (.seqLbrk g src) := fits_trig g src (by decide)
theorem seqExit (g : Guard) (src : Src) : Statement (.seqExit g src) := fits_trig g src (by decide)
theorem seqTrap (g : Guard) (src : Src) : Statement (.seqTrap g src) := fits_trig g src (by decide)
theorem seqWfe (g : Guard) (src : Src) : Statement (.seqWfe g src) := fits_trig g src (by decide)
theorem seqSev (g : Guard) (src : Src) : Statement (.seqSev g src) := fits_trig g src (by decide)
theorem seqReti (g : Guard) (src : Src) : Statement (.seqReti g src) := fits_trig g src (by decide)
theorem seqCsrr (g : Guard) (src : Src) : Statement (.seqCsrr g src) := fits_trig g src (by decide)
theorem seqCsrw (g : Guard) (src : Src) : Statement (.seqCsrw g src) := fits_trig g src (by decide)
theorem seqYield (g : Guard) (src : Src) : Statement (.seqYield g src) := fits_trig g src (by decide)
theorem checkpoint (c : Nat) : Statement (.checkpoint c) := trivial
theorem vuAddF (g : Guard) (src : Src) : Statement (.vuAddF g src) := fits_trig g src (by decide)
theorem vuSubF (g : Guard) (src : Src) : Statement (.vuSubF g src) := fits_trig g src (by decide)
theorem vuMulF (g : Guard) (src : Src) : Statement (.vuMulF g src) := fits_trig g src (by decide)
theorem vuFmaF (g : Guard) (src : Src) : Statement (.vuFmaF g src) := fits_trig g src (by decide)
theorem vuFmsF (g : Guard) (src : Src) : Statement (.vuFmsF g src) := fits_trig g src (by decide)
theorem vuMaxF (g : Guard) (src : Src) : Statement (.vuMaxF g src) := fits_trig g src (by decide)
theorem vuMinF (g : Guard) (src : Src) : Statement (.vuMinF g src) := fits_trig g src (by decide)
theorem vuAbsF (g : Guard) (src : Src) : Statement (.vuAbsF g src) := fits_trig g src (by decide)
theorem vuCmpeqF (g : Guard) (src : Src) : Statement (.vuCmpeqF g src) := fits_trig g src (by decide)
theorem vuCmpltF (g : Guard) (src : Src) : Statement (.vuCmpltF g src) := fits_trig g src (by decide)
theorem vuCmpleF (g : Guard) (src : Src) : Statement (.vuCmpleF g src) := fits_trig g src (by decide)
theorem vuAddI (g : Guard) (src : Src) : Statement (.vuAddI g src) := fits_trig g src (by decide)
theorem vuSubI (g : Guard) (src : Src) : Statement (.vuSubI g src) := fits_trig g src (by decide)
theorem vuMulI (g : Guard) (src : Src) : Statement (.vuMulI g src) := fits_trig g src (by decide)
theorem vuMaxI (g : Guard) (src : Src) : Statement (.vuMaxI g src) := fits_trig g src (by decide)
theorem vuMinI (g : Guard) (src : Src) : Statement (.vuMinI g src) := fits_trig g src (by decide)
theorem vuMaxuI (g : Guard) (src : Src) : Statement (.vuMaxuI g src) := fits_trig g src (by decide)
theorem vuMinuI (g : Guard) (src : Src) : Statement (.vuMinuI g src) := fits_trig g src (by decide)
theorem vuAnd (g : Guard) (src : Src) : Statement (.vuAnd g src) := fits_trig g src (by decide)
theorem vuOr (g : Guard) (src : Src) : Statement (.vuOr g src) := fits_trig g src (by decide)
theorem vuXor (g : Guard) (src : Src) : Statement (.vuXor g src) := fits_trig g src (by decide)
theorem vuShl (g : Guard) (src : Src) : Statement (.vuShl g src) := fits_trig g src (by decide)
theorem vuShr (g : Guard) (src : Src) : Statement (.vuShr g src) := fits_trig g src (by decide)
theorem vuSar (g : Guard) (src : Src) : Statement (.vuSar g src) := fits_trig g src (by decide)
theorem vuCmpeqI (g : Guard) (src : Src) : Statement (.vuCmpeqI g src) := fits_trig g src (by decide)
theorem vuCmpltI (g : Guard) (src : Src) : Statement (.vuCmpltI g src) := fits_trig g src (by decide)
theorem vuCmpltuI (g : Guard) (src : Src) : Statement (.vuCmpltuI g src) := fits_trig g src (by decide)
theorem vuDot4 (g : Guard) (src : Src) : Statement (.vuDot4 g src) := fits_trig g src (by decide)
theorem vuExp2 (g : Guard) (src : Src) : Statement (.vuExp2 g src) := fits_trig g src (by decide)
theorem vuRcp (g : Guard) (src : Src) : Statement (.vuRcp g src) := fits_trig g src (by decide)
theorem vuRsqrt (g : Guard) (src : Src) : Statement (.vuRsqrt g src) := fits_trig g src (by decide)
theorem vuRedaddF (g : Guard) (src : Src) : Statement (.vuRedaddF g src) := fits_trig g src (by decide)
theorem vuRedmaxF (g : Guard) (src : Src) : Statement (.vuRedmaxF g src) := fits_trig g src (by decide)
theorem vuRedaddI (g : Guard) (src : Src) : Statement (.vuRedaddI g src) := fits_trig g src (by decide)
theorem vuRedmaxI (g : Guard) (src : Src) : Statement (.vuRedmaxI g src) := fits_trig g src (by decide)
theorem vuRedminI (g : Guard) (src : Src) : Statement (.vuRedminI g src) := fits_trig g src (by decide)
theorem vuScanI (g : Guard) (src : Src) : Statement (.vuScanI g src) := fits_trig g src (by decide)
theorem vuPerm (g : Guard) (src : Src) : Statement (.vuPerm g src) := fits_trig g src (by decide)
theorem vuRot (g : Guard) (src : Src) : Statement (.vuRot g src) := fits_trig g src (by decide)
theorem vuBcast (g : Guard) (src : Src) : Statement (.vuBcast g src) := fits_trig g src (by decide)
theorem vuSel (g : Guard) (src : Src) : Statement (.vuSel g src) := fits_trig g src (by decide)
theorem vuCompress (g : Guard) (src : Src) : Statement (.vuCompress g src) := fits_trig g src (by decide)
theorem vuExpand (g : Guard) (src : Src) : Statement (.vuExpand g src) := fits_trig g src (by decide)
theorem vuIota (g : Guard) (src : Src) : Statement (.vuIota g src) := fits_trig g src (by decide)
theorem vuCvtFI (g : Guard) (src : Src) : Statement (.vuCvtFI g src) := fits_trig g src (by decide)
theorem vuCvtIF (g : Guard) (src : Src) : Statement (.vuCvtIF g src) := fits_trig g src (by decide)
theorem vuCvtIFZ (g : Guard) (src : Src) : Statement (.vuCvtIFZ g src) := fits_trig g src (by decide)
theorem vuInsE40 (g : Guard) (src : Src) : Statement (.vuInsE40 g src) := fits_trig g src (by decide)
theorem vuInsE41 (g : Guard) (src : Src) : Statement (.vuInsE41 g src) := fits_trig g src (by decide)
theorem vuInsE42 (g : Guard) (src : Src) : Statement (.vuInsE42 g src) := fits_trig g src (by decide)
theorem vuInsE43 (g : Guard) (src : Src) : Statement (.vuInsE43 g src) := fits_trig g src (by decide)
theorem vuInsQ80 (g : Guard) (src : Src) : Statement (.vuInsQ80 g src) := fits_trig g src (by decide)
theorem vuInsQ81 (g : Guard) (src : Src) : Statement (.vuInsQ81 g src) := fits_trig g src (by decide)
theorem vuInsQ82 (g : Guard) (src : Src) : Statement (.vuInsQ82 g src) := fits_trig g src (by decide)
theorem vuInsQ83 (g : Guard) (src : Src) : Statement (.vuInsQ83 g src) := fits_trig g src (by decide)
theorem vuInsQ4x0 (g : Guard) (src : Src) : Statement (.vuInsQ4x0 g src) := fits_trig g src (by decide)
theorem vuInsQ4x1 (g : Guard) (src : Src) : Statement (.vuInsQ4x1 g src) := fits_trig g src (by decide)
theorem vuInsQ4x2 (g : Guard) (src : Src) : Statement (.vuInsQ4x2 g src) := fits_trig g src (by decide)
theorem vuInsQ4x3 (g : Guard) (src : Src) : Statement (.vuInsQ4x3 g src) := fits_trig g src (by decide)
theorem vuInsH0 (g : Guard) (src : Src) : Statement (.vuInsH0 g src) := fits_trig g src (by decide)
theorem vuInsH1 (g : Guard) (src : Src) : Statement (.vuInsH1 g src) := fits_trig g src (by decide)
theorem vuExtE40 (g : Guard) (src : Src) : Statement (.vuExtE40 g src) := fits_trig g src (by decide)
theorem vuExtE41 (g : Guard) (src : Src) : Statement (.vuExtE41 g src) := fits_trig g src (by decide)
theorem vuExtE42 (g : Guard) (src : Src) : Statement (.vuExtE42 g src) := fits_trig g src (by decide)
theorem vuExtE43 (g : Guard) (src : Src) : Statement (.vuExtE43 g src) := fits_trig g src (by decide)
theorem vuExtQ80 (g : Guard) (src : Src) : Statement (.vuExtQ80 g src) := fits_trig g src (by decide)
theorem vuExtQ81 (g : Guard) (src : Src) : Statement (.vuExtQ81 g src) := fits_trig g src (by decide)
theorem vuExtQ82 (g : Guard) (src : Src) : Statement (.vuExtQ82 g src) := fits_trig g src (by decide)
theorem vuExtQ83 (g : Guard) (src : Src) : Statement (.vuExtQ83 g src) := fits_trig g src (by decide)
theorem vuExtQ4x0 (g : Guard) (src : Src) : Statement (.vuExtQ4x0 g src) := fits_trig g src (by decide)
theorem vuExtQ4x1 (g : Guard) (src : Src) : Statement (.vuExtQ4x1 g src) := fits_trig g src (by decide)
theorem vuExtQ4x2 (g : Guard) (src : Src) : Statement (.vuExtQ4x2 g src) := fits_trig g src (by decide)
theorem vuExtQ4x3 (g : Guard) (src : Src) : Statement (.vuExtQ4x3 g src) := fits_trig g src (by decide)
theorem vuExtQ4x4 (g : Guard) (src : Src) : Statement (.vuExtQ4x4 g src) := fits_trig g src (by decide)
theorem vuExtQ4x5 (g : Guard) (src : Src) : Statement (.vuExtQ4x5 g src) := fits_trig g src (by decide)
theorem vuExtQ4x6 (g : Guard) (src : Src) : Statement (.vuExtQ4x6 g src) := fits_trig g src (by decide)
theorem vuExtQ4x7 (g : Guard) (src : Src) : Statement (.vuExtQ4x7 g src) := fits_trig g src (by decide)
theorem vuExtH0 (g : Guard) (src : Src) : Statement (.vuExtH0 g src) := fits_trig g src (by decide)
theorem vuExtH1 (g : Guard) (src : Src) : Statement (.vuExtH1 g src) := fits_trig g src (by decide)
theorem vuSpush (g : Guard) (src : Src) : Statement (.vuSpush g src) := fits_trig g src (by decide)
theorem vuSpop (g : Guard) (src : Src) : Statement (.vuSpop g src) := fits_trig g src (by decide)
theorem anvLdw (g : Guard) (src : Src) : Statement (.anvLdw g src) := fits_trig g src (by decide)
theorem anvSwap (g : Guard) (src : Src) : Statement (.anvSwap g src) := fits_trig g src (by decide)
theorem anvRun (g : Guard) (src : Src) : Statement (.anvRun g src) := fits_trig g src (by decide)
theorem anvRunz (g : Guard) (src : Src) : Statement (.anvRunz g src) := fits_trig g src (by decide)
theorem anvRunv (g : Guard) (src : Src) : Statement (.anvRunv g src) := fits_trig g src (by decide)
theorem anvMpb (g : Guard) (src : Src) : Statement (.anvMpb g src) := fits_trig g src (by decide)
theorem anvRd (g : Guard) (src : Src) : Statement (.anvRd g src) := fits_trig g src (by decide)
theorem anvWr (g : Guard) (src : Src) : Statement (.anvWr g src) := fits_trig g src (by decide)
theorem anvClr (g : Guard) (src : Src) : Statement (.anvClr g src) := fits_trig g src (by decide)
theorem anvProg (g : Guard) (src : Src) : Statement (.anvProg g src) := fits_trig g src (by decide)
theorem anvilOperationStart (c : Nat) : Statement (.anvilOperationStart c) := trivial
theorem engCopy (g : Guard) (src : Src) : Statement (.engCopy g src) := fits_trig g src (by decide)
theorem engCopyMc (g : Guard) (src : Src) : Statement (.engCopyMc g src) := fits_trig g src (by decide)
theorem engSmap (g : Guard) (src : Src) : Statement (.engSmap g src) := fits_trig g src (by decide)
theorem engSinv (g : Guard) (src : Src) : Statement (.engSinv g src) := fits_trig g src (by decide)
theorem engSwb (g : Guard) (src : Src) : Statement (.engSwb g src) := fits_trig g src (by decide)
theorem engGather (g : Guard) (src : Src) : Statement (.engGather g src) := fits_trig g src (by decide)
theorem engScatter (g : Guard) (src : Src) : Statement (.engScatter g src) := fits_trig g src (by decide)
theorem engTopk (g : Guard) (src : Src) : Statement (.engTopk g src) := fits_trig g src (by decide)
theorem engSgemv (g : Guard) (src : Src) : Statement (.engSgemv g src) := fits_trig g src (by decide)
theorem engSattn (g : Guard) (src : Src) : Statement (.engSattn g src) := fits_trig g src (by decide)
theorem engSred (g : Guard) (src : Src) : Statement (.engSred g src) := fits_trig g src (by decide)
theorem engCallred (g : Guard) (src : Src) : Statement (.engCallred g src) := fits_trig g src (by decide)
theorem engCbcast (g : Guard) (src : Src) : Statement (.engCbcast g src) := fits_trig g src (by decide)
theorem engCreduce (g : Guard) (src : Src) : Statement (.engCreduce g src) := fits_trig g src (by decide)
theorem engKvapp (g : Guard) (src : Src) : Statement (.engKvapp g src) := fits_trig g src (by decide)
theorem engKvcomp (g : Guard) (src : Src) : Statement (.engKvcomp g src) := fits_trig g src (by decide)
theorem engPxlook (g : Guard) (src : Src) : Statement (.engPxlook g src) := fits_trig g src (by decide)
theorem engPxins (g : Guard) (src : Src) : Statement (.engPxins g src) := fits_trig g src (by decide)
theorem engPxrel (g : Guard) (src : Src) : Statement (.engPxrel g src) := fits_trig g src (by decide)
theorem engQfence (g : Guard) (src : Src) : Statement (.engQfence g src) := fits_trig g src (by decide)
theorem engQwait (g : Guard) (src : Src) : Statement (.engQwait g src) := fits_trig g src (by decide)
theorem engQpoll (g : Guard) (src : Src) : Statement (.engQpoll g src) := fits_trig g src (by decide)
theorem engineCommandStart (c : Nat) (q : EngineStart) : Statement (.engineCommandStart c q) := trivial
theorem engineCommandCompletion (c q : Nat) : Statement (.engineCommandCompletion c q) := trivial
theorem engineCompletionEvent (c : Nat) : Statement (.engineCompletionEvent c) := trivial
theorem xlHk (g : Guard) (src : Src) (k : Fin 16) : Statement (.xlHk g src k) := fits_trig g src (by have := k.isLt; omega)
theorem xlDrop (g : Guard) (src : Src) : Statement (.xlDrop g src) := fits_trig g src (by decide)
theorem tntClr (g : Guard) (src : Src) : Statement (.tntClr g src) := fits_trig g src (by decide)
theorem tntJoin (g : Guard) (src : Src) : Statement (.tntJoin g src) := fits_trig g src (by decide)
theorem tntPclr (g : Guard) (src : Src) : Statement (.tntPclr g src) := fits_trig g src (by decide)
theorem tntNext (g : Guard) (src : Src) : Statement (.tntNext g src) := fits_trig g src (by decide)
theorem tntOf (g : Guard) (src : Src) : Statement (.tntOf g src) := fits_trig g src (by decide)
theorem barArrive (g : Guard) (src : Src) : Statement (.barArrive g src) := fits_trig g src (by decide)
theorem barWait (g : Guard) (src : Src) : Statement (.barWait g src) := fits_trig g src (by decide)
theorem barSync (g : Guard) (src : Src) : Statement (.barSync g src) := fits_trig g src (by decide)
theorem barDrain (g : Guard) (src : Src) : Statement (.barDrain g src) := fits_trig g src (by decide)
theorem ldnB (g : Guard) (a : Fin 16) (u : Bool) (o : BitVec 6) : Statement (.ldnB g a u o) := fits_near g a u o (by decide)
theorem ldnH (g : Guard) (a : Fin 16) (u : Bool) (o : BitVec 6) : Statement (.ldnH g a u o) := fits_near g a u o (by decide)
theorem ldnW (g : Guard) (a : Fin 16) (u : Bool) (o : BitVec 6) : Statement (.ldnW g a u o) := fits_near g a u o (by decide)
theorem ldnD (g : Guard) (a : Fin 16) (u : Bool) (o : BitVec 6) : Statement (.ldnD g a u o) := fits_near g a u o (by decide)
theorem ldnV (g : Guard) (a : Fin 16) (u : Bool) (o : BitVec 6) : Statement (.ldnV g a u o) := fits_near g a u o (by decide)
theorem ldnT (g : Guard) (a : Fin 16) (u : Bool) (o : BitVec 6) : Statement (.ldnT g a u o) := fits_near g a u o (by decide)
theorem stnB (g : Guard) (a : Fin 16) (u : Bool) (o : BitVec 6) : Statement (.stnB g a u o) := fits_near g a u o (by decide)
theorem stnH (g : Guard) (a : Fin 16) (u : Bool) (o : BitVec 6) : Statement (.stnH g a u o) := fits_near g a u o (by decide)
theorem stnW (g : Guard) (a : Fin 16) (u : Bool) (o : BitVec 6) : Statement (.stnW g a u o) := fits_near g a u o (by decide)
theorem stnD (g : Guard) (a : Fin 16) (u : Bool) (o : BitVec 6) : Statement (.stnD g a u o) := fits_near g a u o (by decide)
theorem stnV (g : Guard) (a : Fin 16) (u : Bool) (o : BitVec 6) : Statement (.stnV g a u o) := fits_near g a u o (by decide)
theorem stnT (g : Guard) (a : Fin 16) (u : Bool) (o : BitVec 6) : Statement (.stnT g a u o) := fits_near g a u o (by decide)
theorem ldfW (g : Guard) (a : Fin 16) (k : Fin 16) (u : Bool) (l : BitVec 2) : Statement (.ldfW g a k u l) := fits_far g a k u l (by decide)
theorem ldfD (g : Guard) (a : Fin 16) (k : Fin 16) (u : Bool) (l : BitVec 2) : Statement (.ldfD g a k u l) := fits_far g a k u l (by decide)
theorem ldfV (g : Guard) (a : Fin 16) (k : Fin 16) (u : Bool) (l : BitVec 2) : Statement (.ldfV g a k u l) := fits_far g a k u l (by decide)
theorem stfW (g : Guard) (a : Fin 16) (k : Fin 16) (u : Bool) (l : BitVec 2) : Statement (.stfW g a k u l) := fits_far g a k u l (by decide)
theorem stfD (g : Guard) (a : Fin 16) (k : Fin 16) (u : Bool) (l : BitVec 2) : Statement (.stfD g a k u l) := fits_far g a k u l (by decide)
theorem stfV (g : Guard) (a : Fin 16) (k : Fin 16) (u : Bool) (l : BitVec 2) : Statement (.stfV g a k u l) := fits_far g a k u l (by decide)
theorem atomAdd (g : Guard) (a : Fin 16) (k : Fin 16) (c : BitVec 3) : Statement (.atomAdd g a k c) := fits_atom g a k c (by decide)
theorem atomAnd (g : Guard) (a : Fin 16) (k : Fin 16) (c : BitVec 3) : Statement (.atomAnd g a k c) := fits_atom g a k c (by decide)
theorem atomOr (g : Guard) (a : Fin 16) (k : Fin 16) (c : BitVec 3) : Statement (.atomOr g a k c) := fits_atom g a k c (by decide)
theorem atomXor (g : Guard) (a : Fin 16) (k : Fin 16) (c : BitVec 3) : Statement (.atomXor g a k c) := fits_atom g a k c (by decide)
theorem atomMin (g : Guard) (a : Fin 16) (k : Fin 16) (c : BitVec 3) : Statement (.atomMin g a k c) := fits_atom g a k c (by decide)
theorem atomMax (g : Guard) (a : Fin 16) (k : Fin 16) (c : BitVec 3) : Statement (.atomMax g a k c) := fits_atom g a k c (by decide)
theorem atomMinu (g : Guard) (a : Fin 16) (k : Fin 16) (c : BitVec 3) : Statement (.atomMinu g a k c) := fits_atom g a k c (by decide)
theorem atomMaxu (g : Guard) (a : Fin 16) (k : Fin 16) (c : BitVec 3) : Statement (.atomMaxu g a k c) := fits_atom g a k c (by decide)
theorem atomXchg (g : Guard) (a : Fin 16) (k : Fin 16) (c : BitVec 3) : Statement (.atomXchg g a k c) := fits_atom g a k c (by decide)
theorem atomCas (g : Guard) (a : Fin 16) (k : Fin 16) (c : BitVec 3) : Statement (.atomCas g a k c) := fits_atom g a k c (by decide)
theorem aupd (g : Guard) (a : Fin 16) : Statement (.aupd g a) := ⟨guardCode_lt g, by decide, a.isLt, by decide, by decide⟩
theorem aadd (g : Guard) (a : Fin 16) (n : BitVec 7) : Statement (.aadd g a n) := ⟨guardCode_lt g, by decide, a.isLt, by decide, n.isLt⟩
theorem pf (g : Guard) (a : Fin 16) (k : Fin 16) (u : Bool) (l : BitVec 2) : Statement (.pf g a k u l) := fits_far g a k u l (by decide)
theorem ldnGv (g : Guard) (a : Fin 16) (u : Bool) (o : BitVec 6) : Statement (.ldnGv g a u o) := fits_near g a u o (by decide)
theorem stnSv (g : Guard) (a : Fin 16) (u : Bool) (o : BitVec 6) : Statement (.stnSv g a u o) := fits_near g a u o (by decide)
theorem resultDelivery (c : Nat) : Statement (.resultDelivery c) := trivial
theorem farLoadPerform (c ident : Nat) : Statement (.farLoadPerform c ident) := trivial
theorem farStorePerform (c ident : Nat) : Statement (.farStorePerform c ident) := trivial
theorem forcedCommit (c : Nat) : Statement (.forcedCommit c) := trivial
theorem tcolAdvance (c : Nat) : Statement (.tcolAdvance c) := trivial
theorem barrierRelease (x : ChanId) : Statement (.barrierRelease x) := trivial
theorem freezeWatchdogExpiry (c : Nat) : Statement (.freezeWatchdogExpiry c) := trivial
theorem waitWatchdogExpiry (c : Nat) : Statement (.waitWatchdogExpiry c) := trivial
theorem preemptionStop (c : Nat) : Statement (.preemptionStop c) := trivial
theorem preemptionTimeout (c : Nat) : Statement (.preemptionTimeout c) := trivial
theorem gangResume (r : LoadCheck) : Statement (.gangResume r) := trivial
theorem gangCompletion (ctx : Nat) : Statement (.gangCompletion ctx) := trivial
theorem placement (ctx : Nat) : Statement (.placement ctx) := trivial
theorem launchStart (r : LoadCheck) : Statement (.launchStart r) := trivial
theorem reply (ctx : Nat) : Statement (.reply ctx) := trivial
theorem replyHoldExpiry (port : Nat) : Statement (.replyHoldExpiry port) := trivial
theorem podTransferResend (xfer : Nat) : Statement (.podTransferResend xfer) := trivial
theorem sendRingDoorbell (ctx : Nat) : Statement (.sendRingDoorbell ctx) := trivial
theorem sendTimeout (session rid : Nat) : Statement (.sendTimeout session rid) := trivial
theorem invalidateCompletion (ctx : Nat) (r : PageRange) : Statement (.invalidateCompletion ctx r) := trivial
theorem promotionComplete (frame : Nat) : Statement (.promotionComplete frame) := trivial
theorem forcedKeyFlip (slot : Nat) (root : BitVec 256) : Statement (.forcedKeyFlip slot root) := trivial
theorem droopRecovery (die : Nat) : Statement (.droopRecovery die) := trivial
theorem bucketWindowStart (die : Nat) : Statement (.bucketWindowStart die) := trivial
theorem requestAgeing (ctx : Nat) : Statement (.requestAgeing ctx) := trivial
theorem quadPowerGate (quad : Nat) : Statement (.quadPowerGate quad) := trivial
theorem frameMigration (frame newFrame : Nat) : Statement (.frameMigration frame newFrame) := trivial
theorem ladlePageFill (ctx vpage frame : Nat) : Statement (.ladlePageFill ctx vpage frame) := trivial
theorem rekey (slot : Nat) (root : BitVec 256) : Statement (.rekey slot root) := trivial
theorem invoke (port : Nat) (f : UFrame) : Statement (.invoke port f) := trivial
theorem managementFrame (port : Nat) (bytes : List Byte) : Statement (.managementFrame port bytes) := trivial
theorem pload (f : UFrame) : Statement (.pload f) := trivial
theorem pstore (f : UFrame) : Statement (.pstore f) := trivial
theorem patom (f : UFrame) : Statement (.patom f) := trivial
theorem preply (f : UFrame) : Statement (.preply f) := trivial
theorem pcoll (x : CollFrame) : Statement (.pcoll x) := trivial
theorem sentInvokeReply (f : UFrame) : Statement (.sentInvokeReply f) := trivial
theorem microContextWrite (fn : Nat) (ide : Bool) (ctx off len val : Nat) : Statement (.microContextWrite fn ide ctx off len val) := trivial
theorem podGroupWrite (group : Nat) (members : List Nat) (channels : Nat) : Statement (.podGroupWrite group members channels) := trivial
theorem sessionInstall (fn : Nat) (ide : Bool) (session world role : Nat) (key : BitVec 256) : Statement (.sessionInstall fn ide session world role key) := trivial
theorem segmentSubmission (fn : Nat) (sub : Submission) : Statement (.segmentSubmission fn sub) := trivial
theorem assayRequest (fn world segment : Nat) (nonce : BitVec 256) : Statement (.assayRequest fn world segment nonce) := trivial
theorem lockInterface (fn : Nat) : Statement (.lockInterface fn) := trivial
theorem forceInterfaceError (fn : Nat) : Statement (.forceInterfaceError fn) := trivial
theorem hostRegisterWrite (fn : Nat) (ide : Bool) (w : HostWrite) : Statement (.hostRegisterWrite fn ide w) := trivial
theorem atsInvalidateRequest (ctx : Nat) (r : PageRange) : Statement (.atsInvalidateRequest ctx r) := trivial
theorem burnisherCheck (pool page : Nat) : Statement (.burnisherCheck pool page) := trivial
theorem governorReading (watts : Nat) : Statement (.governorReading watts) := trivial
theorem droopDetection (die : Nat) : Statement (.droopDetection die) := trivial
theorem detectedError (c : Nat) (e : ErrorReport) : Statement (.detectedError c e) := trivial
theorem flrVirtualFunction (fn : Nat) : Statement (.flrVirtualFunction fn) := trivial
theorem perst : Statement (.perst) := trivial
theorem moduleReset : Statement (.moduleReset) := trivial
theorem boot (r : BootReport) : Statement (.boot r) := trivial
theorem thermalTrip : Statement (.thermalTrip) := trivial
theorem linkLoss (port : Nat) : Statement (.linkLoss port) := trivial
theorem linkUp (port : Nat) : Statement (.linkUp port) := trivial
theorem ucieLinkFailure (die : Nat) : Statement (.ucieLinkFailure die) := trivial
theorem hostDma (write : Bool) (pa : Nat) (bytes : List Byte) : Statement (.hostDma write pa bytes) := trivial
theorem atsTranslationCompletion (ctx vpage : Nat) (leaf : BitVec 64) : Statement (.atsTranslationCompletion ctx vpage leaf) := trivial
theorem perstNRising : Statement (.perstNRising) := trivial
theorem telemetryAlertRead : Statement (.telemetryAlertRead) := trivial
theorem startInterface (fn : Nat) : Statement (.startInterface fn) := trivial
theorem stopInterface (fn : Nat) : Statement (.stopInterface fn) := trivial

end Sys2Proof.Laws.FieldsFit
end

