-- ==== Sys2Proof/Machine/Sealing.lean ====
section
/-! DEFINITION. How a world's lines and bundles are stored: sealed under keys derived from its root (R318, R320, R321, R323, R326). The
state holds a line by the bytes that opening it gives, its version and whether it fails its check; what the memory arrays and the
instruction memory themselves hold is defined here from that (log entry 7). -/

namespace Sys2Proof.Machine

/-! Keys (R318). -/

/-- The root of a generation. -/
def rootOf (k : KeySlot) (gen : Bool) : BitVec 256 := if gen then k.root1 else k.root0

/-- A key derived from a root under a label. -/
def derivedKey (root : BitVec 256) (label : String) : BitVec 256 := Config.kmac256 root (asciiBytes label) (asciiBytes "RHV-KDF")

/-- The four keys of a generation. -/
structure WorldKeys where
  xts1 : BitVec 256
  xts2 : BitVec 256
  mac : BitVec 256
  fetch : BitVec 256
  deriving DecidableEq, Repr

/-- The keys that the key store derives from a root. -/
def worldKeys (root : BitVec 256) : WorldKeys :=
  { xts1 := derivedKey root "XTS1", xts2 := derivedKey root "XTS2", mac := derivedKey root "MAC", fetch := derivedKey root "FETCH" }

/-- The key that a segment's frames are sealed under, from the device secret and the content hash (R327). -/
def segmentKey (measure : BitVec 256) : BitVec 256 := Config.kmac256 Config.deviceSecret (leBytes measure.toNat 32) []

/-! Lines (R321, R323). -/

/-- A stored line: the ciphertext and the 64 bits beside it. -/
structure SealedLine where
  data : BitVec 512
  tag : BitVec 56
  ver8 : BitVec 8
  deriving DecidableEq, Repr

/-- The tweak of a line: PA[45:6]. -/
def lineTweak (pa : Nat) : BitVec 40 := BitVec.ofNat 40 (pa / 64)

/-- The nonce of a line: PA[45:6] in [39:0], the version in [71:40], zero above. -/
def lineNonce (pa : Nat) (version : BitVec 32) : BitVec 96 := (0#24 ++ version ++ lineTweak pa : BitVec 96)

/-- The tag of a ciphertext: the leading 56 bits of its GMAC. -/
def lineTag (k : WorldKeys) (pa : Nat) (version : BitVec 32) (data : BitVec 512) : BitVec 56 :=
  (Config.gmac k.mac (lineNonce pa version) data).extractLsb' 72 56

/-- Seals a line at its address under a version. -/
def sealLine (k : WorldKeys) (pa : Nat) (version : BitVec 32) (line : BitVec 512) : SealedLine :=
  let data := Config.xtsAes k.xts1 k.xts2 (lineTweak pa) line
  { data := data, tag := lineTag k pa version data, ver8 := version.setWidth 8 }

/-- The version that a reader with bound `b` rebuilds from its low 8 bits: the largest at or below the bound. -/
def rebuiltVersion (b : BitVec 32) (ver8 : BitVec 8) : BitVec 32 := b - ((b.setWidth 8 - ver8).setWidth 32 : BitVec 32)

/-- Opens a stored line with bound `b`, for a buffer whose VERSION is `version`, whole-write or not; none when it is poisoned. -/
def openLine (k : WorldKeys) (pa : Nat) (b version : BitVec 32) (whole : Bool) (x : SealedLine) : Option (BitVec 512) :=
  let v := rebuiltVersion b x.ver8
  if whole ∧ ¬ (v = b ∨ (b = version + 1 ∧ v = version)) then none
  else if lineTag k pa v x.data ≠ x.tag then none
  else some ((Config.xtsAes k.xts1 k.xts2 (lineTweak pa)).symm x.data)

/-- A key slot of a world, and the generation recorded for a frame (R319). -/
def frameKeys (s : State) (pa : Nat) : Option WorldKeys :=
  match s.frames.find? (fun e => e.1 = frameOf pa) with
  | some (_, f) => (keyOf s f.world).map (fun e => worldKeys (rootOf e.2 f.gen))
  | none => none

/-- What the L2 and HBM hold of a line of a world's frame: it is sealed under the generation recorded for the frame. -/
def storedLine (s : State) (pa : Nat) : Option SealedLine :=
  (frameKeys s pa).map (fun k => sealLine k pa (BitVec.ofNat 32 (alGet 0 s.lineVer (pa / 64))) (lineOfBytes (memReadN s.far (pa / 64 * 64) 64)))

/-! What else holds world data holds ciphertext: the drives, the staging store and context images (R315, R320, R327, R351; log entry 7). -/

/-- The keys of a world's generation. -/
def generationKeys (s : State) (world : Nat) (gen : Bool) : Option WorldKeys := (keyOf s world).map (fun e => worldKeys (rootOf e.2 gen))

/-- A line of an evicted page on the drives: the ciphertext it had in HBM, under the address of the frame it left (R351). -/
def driveLine (s : State) (x : Evicted) (n : Nat) : Option SealedLine :=
  (generationKeys s x.world x.gen).map (fun k =>
    sealLine k (2097152 * x.frame + 64 * n) (BitVec.ofNat 32 (alGet 0 x.vers n)) (lineOfBytes (memReadN x.bytes (64 * n) 64)))

/-- A line of a sealed segment under the segment's own keys (R327). PRESUMED (log entry 7): these derive from the segment key as a world's
from its root, the line's address is its place in the segment and its version 0. -/
def segmentLine (g : Segment) (n : Nat) : SealedLine :=
  sealLine (worldKeys (segmentKey g.measure)) (64 * n) 0 (lineOfBytes ((g.content.drop (64 * n)).take 64))

/-- A line of a near image in the staging store (R287), under the keys of its block's world. PRESUMED (log entry 7): its address is its place
in the image and its version 0. -/
def stagedLine (s : State) (x : Staged) (n : Nat) : Option SealedLine :=
  (generationKeys s (blkWorld (getBlock s x.ctx)) (((keyOf s (blkWorld (getBlock s x.ctx))).map (·.2.gen)).getD false)).map (fun k =>
    sealLine k (64 * n) 0 (lineOfBytes (((x.bytes.drop (64 * n)).take 64).map (·.1))))

/-- The bytes of a context image: the parts of R315 in its order, each in the layout that the spec leaves to the firmware. -/
opaque imageLayout : Image → List Byte

/-- A line of a context image in the frames that the firmware reserves from the address `pa` on, under the world key and the version of the
save (R315, R322). -/
def imageLine (s : State) (world : Nat) (gen : Bool) (pa : Nat) (m : Image) (n : Nat) : Option SealedLine :=
  (generationKeys s world gen).map (fun k =>
    sealLine k (pa + 64 * n) (BitVec.ofNat 32 m.version) (lineOfBytes (((imageLayout m).drop (64 * n)).take 64)))

/-! Bundles (R326). -/

/-- The counter block of half a bundle. -/
def fetchCounter (half : BitVec 1) (addr : BAddr) (core : BitVec 16) (world : BitVec 12) (epoch : BitVec 32) : BitVec 128 :=
  (0#54 ++ epoch ++ world ++ core ++ addr ++ half : BitVec 128)

/-- The keystream of a bundle: its lower half from counter block 0. -/
def bundleKeystream (fetch : BitVec 256) (addr : BAddr) (core : BitVec 16) (world : BitVec 12) (epoch : BitVec 32) : BitVec 256 :=
  Config.aesBlock fetch (fetchCounter 1 addr core world epoch) ++ Config.aesBlock fetch (fetchCounter 0 addr core world epoch)

/-- What the instruction memory of a core holds at an address, under a fetch key: the bundle in counter mode. -/
def storedBundle (fetch : BitVec 256) (x : Core) (core world : Nat) (addr : BAddr) : BitVec 256 :=
  alGet 0 x.imem addr.toNat ^^^ bundleKeystream fetch addr (BitVec.ofNat 16 core) (BitVec.ofNat 12 world) x.epoch

/-- The bundle that the fetch buffer opens. -/
def openBundle (fetch : BitVec 256) (x : Core) (core world : Nat) (addr : BAddr) (stored : BitVec 256) : BitVec 256 :=
  stored ^^^ bundleKeystream fetch addr (BitVec.ofNat 16 core) (BitVec.ofNat 12 world) x.epoch

/-! The firmware complex (R18, R352). -/

/-- The cores of the firmware complex. -/
inductive FirmwareCore where
  | policy
  | packet (n : Fin 6)
  deriving DecidableEq, Repr

/-- The firmware core whose work an event is (R352); none for an event that is not the firmware's. -/
def firmwareCore (i : Instr) : Option FirmwareCore :=
  match i with
  | .invalidateCompletion _ _ | .promotionComplete _ | .assayRequest _ _ _ _ | .lockInterface _ | .startInterface _ | .stopInterface _
  | .forceInterfaceError _ | .atsInvalidateRequest _ _ | .atsTranslationCompletion _ _ _ | .frameMigration _ _ | .ladlePageFill _ _ _
  | .rekey _ _ | .flrVirtualFunction _ | .boot _ => some .policy
  | .launchStart _ => some (.packet 0)
  | .managementFrame _ _ => some (.packet 2)
  | .podTransferResend _ | .pload _ | .pstore _ | .patom _ | .preply _ => some (.packet 3)
  | .pcoll _ => some (.packet 4)
  | .governorReading _ | .telemetryAlertRead => some (.packet 5)
  | _ => none

end Sys2Proof.Machine
end

