-- ==== Sys2Proof/Laws/Sealing.lean ====
section
/-! SUPPORT. What sealing and opening do to a line and to a bundle (R321, R323, R326). -/

namespace Sys2Proof.Machine

/-- A reader whose bound is at most 255 versions above a line's rebuilds its version. -/
theorem rebuiltVersion_of_near (b v : BitVec 32) (h : (b - v).toNat < 256) : rebuiltVersion b (v.setWidth 8) = v := by
  have h1 : ((b.setWidth 8 - v.setWidth 8 : BitVec 8).setWidth 32 : BitVec 32) = b - v := by
    apply BitVec.eq_of_toNat_eq
    have hb := b.isLt
    have hv := v.isLt
    simp only [BitVec.toNat_sub, BitVec.toNat_setWidth] at h ⊢
    omega
  unfold rebuiltVersion
  rw [h1]
  bv_omega

/-- A line opens to what was sealed, when its version is within 255 steps below the reader's bound and its buffer is not whole-write. -/
theorem openLine_sealLine (k : WorldKeys) (pa : Nat) (b version v : BitVec 32) (line : BitVec 512) (h : (b - v).toNat < 256) :
    openLine k pa b version false (sealLine k pa v line) = some line := by
  simp [openLine, sealLine, rebuiltVersion_of_near b v h]

/-- A line of a whole-write buffer opens only at the reader's bound or at the buffer's VERSION. -/
theorem openLine_whole_stale (k : WorldKeys) (pa : Nat) (b version v : BitVec 32) (line : BitVec 512) (h : (b - v).toNat < 256)
    (hb : v ≠ b) (hv : v ≠ version) : openLine k pa b version true (sealLine k pa v line) = none := by
  simp [openLine, sealLine, rebuiltVersion_of_near b v h, hb, hv]

/-- The fetch buffer opens what the instruction memory stores. -/
theorem openBundle_storedBundle (fetch : BitVec 256) (x : Core) (core world : Nat) (addr : BAddr) :
    openBundle fetch x core world addr (storedBundle fetch x core world addr) = alGet 0 x.imem addr.toNat := by
  simp [openBundle, storedBundle]

/-- The nonce holds the address of the line, its version and zeros. -/
theorem lineNonce_fields (pa : Nat) (v : BitVec 32) :
    (lineNonce pa v).extractLsb' 0 40 = lineTweak pa ∧ (lineNonce pa v).extractLsb' 40 32 = v ∧ (lineNonce pa v).extractLsb' 72 24 = 0 := by
  have hx : ∀ i, (lineNonce pa v).getLsbD i = if i < 40 then (lineTweak pa).getLsbD i else if i < 72 then v.getLsbD (i - 40) else false := by
    intro i
    unfold lineNonce
    rw [BitVec.getLsbD_append, BitVec.getLsbD_append]
    by_cases h : i < 40
    · simp [h]
    · by_cases h2 : i < 72
      · have : i - 40 < 32 := by omega
        simp [h, h2, this]
      · have : ¬ i - 40 < 32 := by omega
        simp [h, h2, this]
  refine ⟨?_, ?_, ?_⟩ <;> (ext i hi; rw [BitVec.getElem_extractLsb', hx])
  · rw [if_pos (by omega)]; simp [BitVec.getLsbD_eq_getElem hi]
  · rw [if_neg (by omega), if_pos (by omega)]; simp [BitVec.getLsbD_eq_getElem hi]
  · rw [if_neg (by omega), if_neg (by omega)]; simp

end Sys2Proof.Machine
end

