-- ==== Sys2Proof/Tests/Slice0.lean ====
section
/-! SUPPORT. The model's own tests: ill-formed terms, words written out from the encoding tables, single slots on small states,
and for every obligation states and operands that meet its hypotheses. -/

namespace Sys2Proof.Tests

open Sys2Proof.Machine Sys2Proof.Claims

set_option Elab.async false

/-! Ill-formed terms: one per check of WellFormed. -/

theorem test_wf_masked_move : wellFormed (.saAdd .mask (.g 0) false) = false := by decide
theorem test_wf_masked_write_low : wellFormed (.maskedVectorWrite (.g 0) 0x1F) = false := by decide
theorem test_wf_masked_write_high : wellFormed (.maskedVectorWrite (.g 0) 0x40) = false := by decide
theorem test_wf_last_in_address : wellFormed (.ldnW .last 0 false 0) = false := by decide
theorem test_wf_masked_load : wellFormed (.ldnV .mask 0 false 0) = false := by decide
theorem test_wf_class : wellFormed (.ldfD .always 0 0 false 3) = false := by decide
theorem test_wf_scope_low : wellFormed (.atomAdd .always 0 0 1) = false := by decide
theorem test_wf_scope_handle : wellFormed (.atomCas .always 0 1 2) = false := by decide
theorem test_wf_core : wellFormed (.resultDelivery 1536) = false := by decide
theorem test_wf_queue : wellFormed (.engineCommandStart 0 { queue := 5, errs := 0 }) = false := by decide
theorem test_wf_quad : wellFormed (.quadPowerGate 384) = false := by decide
theorem test_wf_die : wellFormed (.droopDetection 8) = false := by decide
theorem test_wf_port : wellFormed (.linkUp 8) = false := by decide
theorem test_wf_context : wellFormed (.placement 16384) = false := by decide
theorem test_wf_function : wellFormed (.flrVirtualFunction 256) = false := by decide
theorem test_wf_slot : wellFormed (.forcedKeyFlip 4096 0) = false := by decide
theorem test_wf_masked_store : wellFormed (.stnV .mask 0 true 1) = true := by decide

/-! Words (R48 to R53, R72 to R81). -/

theorem test_decode_moves : ∀ e ∈ moveWords, decodeSlot 0 e.1 = .op e.2 := by decide
theorem test_decode_addresses : ∀ e ∈ addressWords, decodeSlot 7 e.1 = .op e.2 := by decide
theorem test_decode_vu_last_trigger : decodeSlot 3 (0x099 * 2 ^ 10 + 0x1D8) = .op (.vuSpop .always (.res .vuR)) := by decide

/-! Small states. -/

/-- A module in which core 0 runs and stands as `a`. -/
def running (a : CoreArch) : State := { State.reset with cores := [(0, { Core.reset with status := .bound, arch := a })] }

/-- Register g0 holds `w`, with taint 2. -/
def g0 (w : Word) (p : Bool) (a : CoreArch) : CoreArch :=
  { a with regs := { a.regs with g := vset a.regs.g 0 { v := w, t := 2, p := p, dead := false } } }

/-- Core 0 runs with `w` in g0 and all else as at entry. -/
def at0 (w : Word) (p : Bool) : State := running (g0 w p CoreArch.reset)

/-- What a slot without a guard reads from g0. -/
def val0 (w : Word) (p : Bool) : Val := (Val.sc { v := w, t := 2, p := p }).join 0

/-- An operand port holds the number `n`, with taint 4. -/
def port (o : OpPort) (n : Nat) (p : Bool) (a : CoreArch) : CoreArch := setOp a o { v := BitVec.ofNat 2048 n, t := 4, p := p }

/-- Steer register s2 holds COND and TARGET. -/
def s2 (c : Bool) (t : BAddr) (p : Bool) (a : CoreArch) : CoreArch :=
  { a with regs := { a.regs with s := vset a.regs.s 2 { Steer.reset with cond := c, target := t, cp := p, ct := 8 } } }

/-- Address register a1 and modifier m1. -/
def a1 (v m : Word) (p : Bool) (a : CoreArch) : CoreArch :=
  { a with regs := { a.regs with a := vset a.regs.a 1 { v := v, t := 1, p := p, dead := false },
                                 m := vset a.regs.m 1 { v := m, t := 16, p := false, dead := false } } }

/-- Quad 0's stash is temporary from 0 up to `n`. -/
def temp (n : Nat) (s : State) : State := { s with quads := [(0, { Quad.reset 0 with temps := [{ base := 0, len := n, owner := 0 }] })] }

/-- A field of the next state, if there is one. -/
def after {α : Type} (o : Host.Outcome State Fault Refusal) (f : State → α) : Option α :=
  match o with
  | .next t => some (f t)
  | _ => none

/-- Port, cycle and value of the results in flight in core 0. -/
def flight (s : State) : List (PortId × Nat × Nat) := (coreArch s 0).due.map (fun d => (d.port, d.at_, d.val.v.toNat))

/-- Results of `sa` with `o` in the operand port and `t` in g0. -/
def scalar (i : Instr) (o t : Word) : Option (List (PortId × Nat × Nat)) :=
  after (exec i (running (g0 t false (port .saO o.toNat false CoreArch.reset)))) flight

/-- Results of `vu` with `a` in `vu.a` and `t` broadcast from g0: the low lane. -/
def lane (i : Instr) (a t : Nat) : Option (List (Nat × Lane)) :=
  after (exec i (running (g0 (BitVec.ofNat 64 t) false (port .vuA a false CoreArch.reset))))
    (fun s => (coreArch s 0).due.map (fun d => (d.at_, laneOf d.val.v 0)))

/-! Single slots; expected values by hand from the rules named. -/

/-- R88, R73: modulo 2^64, due one cycle later. -/
theorem test_add_wraps : scalar (.saAdd .always (.g 0) false) (BitVec.allOnes 64) 1 = some [(.saR, 1, 0)] := by decide +kernel
theorem test_sub_order : scalar (.saSub .always (.g 0) false) 0 1 = some [(.saR, 1, 2 ^ 64 - 1)] := by decide +kernel
theorem test_sar_negative : scalar (.saSar .always (.g 0) false) (BitVec.ofInt 64 (-8)) 65 = some [(.saR, 1, 2 ^ 64 - 4)] := by decide +kernel
theorem test_min_signed : scalar (.saMin .always (.g 0) false) (BitVec.allOnes 64) 1 = some [(.saR, 1, 2 ^ 64 - 1)] := by decide +kernel
theorem test_minu_unsigned : scalar (.saMinu .always (.g 0) false) (BitVec.allOnes 64) 1 = some [(.saR, 1, 1)] := by decide +kernel
/-- (2^64 - 1)^2 = 2^128 - 2^65 + 1; (-1)^2 = 1; three cycles (R73). -/
theorem test_mulhu : scalar (.saMulhu .always (.g 0) false) (BitVec.allOnes 64) (BitVec.allOnes 64) = some [(.saR, 3, 2 ^ 64 - 2)] := by
  decide +kernel
theorem test_mulh : scalar (.saMulh .always (.g 0) false) (BitVec.allOnes 64) (BitVec.allOnes 64) = some [(.saR, 3, 0)] := by decide +kernel
theorem test_clz_zero : scalar (.saClz .always (.g 0) false) 7 0 = some [(.saR, 1, 64)] := by decide +kernel
theorem test_ctz_zero : scalar (.saCtz .always (.g 0) false) 7 0 = some [(.saR, 1, 64)] := by decide +kernel
/-- Offset 4, width 4 at bits 12:6, signed by bit 13 (R89): 0xF sign-extends to -1. -/
theorem test_bfx_signed : scalar (.saBfx .always (.g 0) false) 0xF0 (BitVec.ofNat 64 (4 + 64 * 4 + 2 ^ 13)) =
    some [(.saR, 1, 2 ^ 64 - 1)] := by decide +kernel
/-- R90: a width of 65 ends the task with the illegal-operand fault. -/
theorem test_sext_too_wide : after (exec (.saSext .always (.g 0) false) (at0 65 false)) (fun t => (getCore t 0).status) =
    some (.ended 5) := by decide +kernel
/-- R54: a 9-bit immediate is signed. -/
theorem test_mov_negative_immediate : after (exec (.mov .always (.imm 0x1FF) (.g 1)) State.reset)
    (fun t => vget (arch t).regs.g 1) = some { v := BitVec.allOnes 64, t := 0, p := false, dead := false } := by decide +kernel
/-- R71: a scalar moved to a vector register stands in every lane. -/
theorem test_mov_broadcasts : after (exec (.mov .always (.g 0) (.v 31)) (at0 0x123456789 false))
    (fun t => (laneOf (vget (arch t).regs.v 31).v 0, laneOf (vget (arch t).regs.v 31).v 63)) = some (0x23456789, 0x23456789) := by decide +kernel
/-- R51: only the lanes of `vu.k`. -/
theorem test_masked_write : after (exec (.maskedVectorWrite (.g 0) 0x25) (running (g0 7 false (port .vuK 2 false CoreArch.reset))))
    (fun t => (laneOf (vget (arch t).regs.v 5).v 0, laneOf (vget (arch t).regs.v 5).v 1)) = some (0, 7) := by decide +kernel
/-- R92: signed, against `cmp.o`. -/
theorem test_lt_signed : after (exec (.skLt .always (.g 0) 2) (running (g0 0 false (port .cmpO (2 ^ 64 - 1) false CoreArch.reset))))
    (fun t => (readS (arch t) 2).cond) = some true := by decide +kernel
/-- R49: COND 0 does nothing. -/
theorem test_guard_off : after (exec (.mov (.steer 2) (.imm 5) (.g 1)) (running (s2 false 9 false CoreArch.reset)))
    (fun t => vget (arch t).regs.g 1) = some SReg.zero := by decide +kernel
/-- R94: taken, to TARGET. -/
theorem test_br_taken : after (exec (.seqBr .always (.s 2)) (running (s2 true 9 false CoreArch.reset)))
    (fun t => (arch t).seq.next) = some (some (.branch 9 .never)) := by decide +kernel
/-- R96: the address after the call is pushed. -/
theorem test_call_pushes : after (exec (.seqCall .always (.g 0)) (at0 100 false)) (fun t => (arch t).seq.calls.map (·.ret)) = some [1] := by
  decide +kernel
/-- R16, R83: `coreid`, two cycles later. -/
theorem test_csrr_coreid : after (exec (.seqCsrr .always (.g 0)) { at0 0x010 false with cur := 0 }) flight = some [(.seqR, 2, 0)] := by decide +kernel
/-- R83: `cyc` is read-only. -/
theorem test_csrw_read_only : after (exec (.seqCsrw .always (.g 0)) (at0 1 false)) (fun t => (getCore t 0).status) = some (.ended 5) := by decide +kernel
/-- R301, R307: a task that ends keeps its cause; R55: poison. -/
theorem test_jmp_poison : after (exec (.seqJmp .always (.g 0)) (at0 1 true)) (fun t => (getCore t 0).status) = some (.ended 4) := by decide +kernel

/-- R128: modulo 2^32. R126: two cycles. -/
theorem test_vadd_wraps : lane (.vuAddI .always (.g 0)) 0xFFFFFFFF 2 = some [(2, 1)] := by decide +kernel
theorem test_vmax_signed : lane (.vuMaxI .always (.g 0)) 0xFFFFFFFF 1 = some [(2, 1)] := by decide +kernel
/-- 1.0 + 1.0 = 2.0; 1.0 + 2^-24 lies half-way and rounds to the even 1.0 (R125). -/
theorem test_fadd : lane (.vuAddF .always (.g 0)) 0x3F800000 0x3F800000 = some [(2, 0x40000000)] := by decide +kernel
theorem test_fadd_ties_to_even : lane (.vuAddF .always (.g 0)) 0x3F800000 0x33800000 = some [(2, 0x3F800000)] := by decide +kernel
/-- 3 is 0x40400000 in FP32; E4M3 0x7E is 448 = 0x43E00000; 2^-9 is E4M3 code 1 (R136, R137). -/
theorem test_cvt_f_i : lane (.vuCvtFI .always (.g 0)) 0 3 = some [(2, 0x40400000)] := by decide +kernel
theorem test_ext_e4m3 : lane (.vuExtE40 .always (.g 0)) 0 0x7E = some [(2, 0x43E00000)] := by decide +kernel
theorem test_ins_e4m3 : lane (.vuInsE41 .always (.g 0)) 0x11223344 0x3B000000 = some [(2, 0x11220144)] := by decide +kernel
/-- R134: an index of 64 gives 0. -/
theorem test_perm_out_of_range : lane (.vuPerm .always (.g 0)) 5 64 = some [(3, 0)] := by decide +kernel
/-- R128: 4 products of signed bytes: (-1)(-1) in byte 0 with `vu.b` zero elsewhere is 0 here, so only t remains. -/
theorem test_dot4_adds_t : lane (.vuDot4 .always (.g 0)) 0xFF 9 = some [(4, 9)] := by decide +kernel

/-- R109: in a window of 3 from 0x100, 0x101 + 2 wraps to 0x100. -/
theorem test_update_circular : addrUpdate 0x101 (BitVec.ofNat 64 (2 + 3 * 2 ^ 22)) = some 0x100 := by decide +kernel
/-- R109: reverse-carry in 3 bits: 0b100 plus 0b100 carries to the right, 0b010. -/
theorem test_update_reverse : addrUpdate 0x104 (BitVec.ofNat 64 (4 + 3 * 2 ^ 44)) = some 0x102 := by decide +kernel
/-- R112, R3: the low byte at the low address. -/
theorem test_store_little_endian :
    after (exec (.stnH .always 1 false 1) (temp 4096 (running (a1 64 0 false (port .laD 0x1234 false CoreArch.reset)))))
      (fun t => t.stash) = some [(66, 0x34), (67, 0x12)] := by decide +kernel
/-- R110, R301: a misaligned near access. -/
theorem test_load_misaligned : after (exec (.ldnW .always 1 false 0) (temp 4096 (running (a1 2 0 false CoreArch.reset))))
    (fun t => (getCore t 0).status) = some (.ended 0x0B) := by decide +kernel
/-- R117: the signed minimum of 5 and -1; the old value is delivered at 12 cycles. -/
theorem test_atomic_min_signed :
    after (exec (.atomMin .always 1 0 2) (temp 4096 { running (a1 64 0 false (port .laD (2 ^ 64 - 1) false CoreArch.reset)) with
      stash := [(64, 5)] })) (fun t => (memReadN t.stash 64 8, flight t)) =
      some (List.replicate 8 0xFF, [(.laR, 12, 5)]) := by decide +kernel
/-- R177: `tnt.of` makes the taint a value. -/
theorem test_tnt_of : after (exec (.tntOf .always (.g 0)) (at0 9 true)) flight = some [(.tntR, 1, 65536 + 2)] := by decide +kernel
/-- R175: without a lease range the lease fault. -/
theorem test_xl_without_lease : after (exec (.xlHk .always (.g 0) 3) (at0 0x200000 false)) (fun t => (getCore t 0).status) = some (.ended 0x30) := by
  decide +kernel
/-- R158, R301: a poisoned trigger of an engine. -/
theorem test_engine_poison : after (exec (.engCopy .always (.g 0)) (at0 0 true)) (fun t => (getCore t 0).status) = some (.ended 4) := by decide +kernel
/-- R33: the freeze watchdog expires at 2^20. -/
theorem test_freeze_watchdog :
    after (exec (.freezeWatchdogExpiry 0) { State.reset with cores := [(0, { Core.reset with status := .bound, freezeDog := 2 ^ 20 })] })
      (fun t => (getCore t 0).status) = some (.ended 0x31) := by decide +kernel
/-- R229: after 64 far accesses the colour advances, 15 to 0. -/
theorem test_colour_wraps :
    after (exec (.tcolAdvance 0) (running { CoreArch.reset with order := { Order.reset with tcol := 15, farCount := 64 } }))
      (fun t => ((arch t).order.tcol, (arch t).order.farCount)) = some (0, 0) := by decide +kernel
/-- R295: a detection lowers the limit for the next period. -/
theorem test_droop : after (exec (.droopDetection 3) State.reset) (fun t => ((getDie t 3).limit, (getDie t 3).nextLimit)) = some (6, 2) := by decide +kernel
/-- R354: `perst_n` low leaves nothing running. -/
theorem test_perst : after (exec .perst (at0 1 false)) (fun t => (getCore t 0).status) = some .idle := by decide +kernel
/-- R342: a link comes up. -/
theorem test_link_up : after (exec (.linkUp 7) State.reset) (fun t => t.edge.links) = some 0x80 := by decide +kernel
/-- R281: a host access to the reserved range is rejected; R356: before the functions answer, with a request to retry. -/
theorem test_dma_hole : after (exec (.hostDma true 0xC000000000 [1]) { State.reset with edge := { Edge.reset with
    boot := { Boot.reset with stage := 2 } } }) (fun t => (t.far, t.edge.outbox)) = some ([], [.rejected 0]) := by decide +kernel
theorem test_dma_early : after (exec (.hostDma true 0xC000000000 [1]) State.reset) (fun t => (t.far, t.edge.outbox)) =
    some ([], [.retry 0]) := by decide +kernel

/-! States and operands that meet the hypotheses of the obligations, clause by clause. -/

/-- An unguarded slot of core 0, in decidable form: well formed, its source readable. -/
def slotReads (i : Instr) (src : Src) (s : State) (y : Val) : Prop := wellFormed i = true ∧ readSrc s src = .val y

theorem moves_of {i : Instr} {src : Src} {s : State} {y : Val} (h : wellFormed i = true ∧ readSrc s src = .val y) :
    Moves i .always src s (y.join 0) := ⟨h.1, 0, y, rfl, h.2, rfl⟩

theorem at0_reads (w : Word) (p : Bool) : readSrc (at0 w p) (.g 0) = .val (.sc { v := w, t := 2, p := p }) := rfl

theorem moves_at0 (i : Instr) (w : Word) (p : Bool) (h : wellFormed i = true) : Moves i .always (.g 0) (at0 w p) (val0 w p) :=
  moves_of ⟨h, at0_reads w p⟩

/-- Core 0 issues a bundle of zeros. -/
def issuing0 (a : CoreArch) : State := { running a with issue := some (issueOf a Journal.reset 0) }

/-- Core 0 at `pc` inside the given loops and calls, with `w` in g0. -/
def inLoops (pc : BAddr) (l : List LoopEntry) (c : List CallEntry) (w : Word) (p : Bool) (n : Nat) : State :=
  running (g0 w p (port .seqLo n false { CoreArch.reset with seq := { Sequencer.reset with pc := pc, loops := l, calls := c } }))

def aLoop (stop : BAddr) : LoopEntry := { start := 0, stop := stop, count := 3, index := 0 }
def aCall : CallEntry := { ret := 7, at_ := .never }

theorem moves_inLoops (i : Instr) (pc : BAddr) (l : List LoopEntry) (c : List CallEntry) (w : Word) (p : Bool) (n : Nat)
    (h : wellFormed i = true) : Moves i .always (.g 0) (inLoops pc l c w p n) (val0 w p) := moves_of ⟨h, rfl⟩

theorem witness_ScalarTwoOperand : ∀ r ∈ scalarTwo, Moves (r.1 .always (.g 0) false) .always (.g 0) (at0 5 false) (val0 5 false) :=
  fun r hr => moves_at0 _ _ _ ((by decide : ∀ r ∈ scalarTwo, wellFormed (r.1 .always (.g 0) false) = true) r hr)

theorem witness_ScalarOneOperand : ∀ r ∈ scalarOne, Moves (r.1 .always (.g 0) true) .always (.g 0) (at0 5 true) (val0 5 true) :=
  fun r hr => moves_at0 _ _ _ ((by decide : ∀ r ∈ scalarOne, wellFormed (r.1 .always (.g 0) true) = true) r hr)

/-- Widths 64 and 1, then 1 and 64, in range; 65 and 0 out of it, unpoisoned and poisoned. -/
theorem witness_ScalarWidths :
    (∀ r ∈ scalarWide, ∀ w p, Moves (r.1 .always (.g 0) false) .always (.g 0) (at0 w p) (val0 w p)) ∧
    (∀ r ∈ scalarWide, ∀ n ∈ [64, 4097], let x := (val0 (BitVec.ofNat 64 n) false).scalar; 1 ≤ r.2.1 x.v ∧ r.2.1 x.v ≤ 64) ∧
    (∀ r ∈ scalarWide, ∀ n ∈ [0, 4161], ∀ p, let x := (val0 (BitVec.ofNat 64 n) p).scalar; ¬ (1 ≤ r.2.1 x.v ∧ r.2.1 x.v ≤ 64) ∧ x.p = p) :=
  ⟨fun r hr w p => moves_at0 _ _ _ ((by decide : ∀ r ∈ scalarWide, wellFormed (r.1 .always (.g 0) false) = true) r hr),
   by decide +kernel, by decide +kernel⟩

theorem witness_PlainMove : Moves (.mov .always (.g 0) (.v 31)) .always (.g 0) (at0 5 true) (val0 5 true) ∧
    Moves (.mov .last (.g 0) (.op .tntO)) .last (.g 0) (at0 5 true) (val0 5 true) :=
  ⟨moves_at0 _ _ _ rfl, rfl, 0, _, rfl, at0_reads _ _, rfl⟩

theorem witness_MaskedMove :
    Moves (.maskedVectorWrite (.g 0) (BitVec.ofNat 10 (0x20 + (31 : Fin 32).val))) .mask (.g 0) (at0 5 true) (val0 5 true) :=
  ⟨rfl, 0, _, rfl, at0_reads _ _, rfl⟩

theorem witness_Sources : ∀ src ∈ ([.imm 0x1FF, .l0, .l1, .l2, .l01, .l12, .l012] : List Src),
    (literalValue (issuing0 CoreArch.reset) src).isSome = true := by decide +kernel

theorem witness_LastReadMark :
    writtenIn (issuing0 CoreArch.reset) (.g 31) = false ∧ writtenIn (issuing0 CoreArch.reset) (.v 31) = false ∧
    writtenIn (issuing0 CoreArch.reset) (.p 7) = false ∧ writtenIn (issuing0 CoreArch.reset) (.a 15) = false ∧
    writtenIn (issuing0 CoreArch.reset) (.m 15) = false ∧
    writtenIn (noteWritten (issuing0 CoreArch.reset) (.g 31)) (.g 31) = true := by decide +kernel

theorem witness_EarlyRead : ∀ b ∈ [false, true], let s := running { CoreArch.reset with csr := { Csrs.reset with sbchk := b } }
    readSrc s (.res .saR) = .earlyScalar ∧ readSrc s (.res .vuR) = .earlyVector ∧ (startArch s).csr.sbchk = b := by decide +kernel

theorem witness_Guards : ∃ i : Instr, wellFormed i = true ∧ guardCodeOf i = some ((2 : Fin 12).val + 1) ∧
    steerPoison (readS (startArch (running (s2 true 9 true CoreArch.reset))) 2) = true ∧
    (readS (startArch (running (s2 false 9 false CoreArch.reset))) 2).cond = false ∧
    steerPoison (readS (startArch (running (s2 false 9 false CoreArch.reset))) 2) = false :=
  ⟨.mov (.steer 2) (.g 0) (.g 1), by decide +kernel⟩

/-- A masked write to g31; a last-read mark in slot 6 is refused by the decoder itself. -/
theorem witness_IllFormedFaults : decodeSlot 0 (0xE * 2 ^ 20 + 0x01F) = .op (.maskedVectorWrite (.g 0) 0x1F) ∧
    wellFormed (.maskedVectorWrite (.g 0) 0x1F) = false := by decide +kernel

theorem witness_SteerRegisters :
    (∀ r ∈ steerConds, Moves (r.1 .always (.g 0) 11) .always (.g 0) (at0 5 false) (val0 5 false)) ∧
    (∀ w p, Moves (.skPrep .always (.g 0) 11) .always (.g 0) (at0 w p) (val0 w p)) ∧
    (val0 8191 true).scalar.p = true ∧ ((val0 8192 false).scalar.p = false ∧ 8192 ≤ (val0 8192 false).scalar.v.toNat) ∧
    ((val0 8191 false).scalar.p = false ∧ (val0 8191 false).scalar.v.toNat < 8192) :=
  ⟨fun r hr => moves_at0 _ _ _ ((by decide : ∀ r ∈ steerConds, wellFormed (r.1 .always (.g 0) 11) = true) r hr),
   fun w p => moves_at0 _ w p rfl, by decide +kernel⟩

/-- Through s2 poisoned, at the END of a loop, outside one with COND 1 and 0, and through g0. -/
theorem witness_Branches :
    (∀ c p, ∃ x, Moves (.seqBr .always (.s 2)) .always (.s 2) (running (s2 c 9 p CoreArch.reset)) x ∧
      steerPoison (readS (startArch (running (s2 c 9 p CoreArch.reset))) 2) = p ∧
      (readS (startArch (running (s2 c 9 p CoreArch.reset))) 2).cond = c ∧ atLoopEnd (running (s2 c 9 p CoreArch.reset)) = false) ∧
    (∃ x, Moves (.seqBrn .always (.s 2)) .always (.s 2) (inLoops 9 [aLoop 9] [] 0 false 0) x) ∧
    steerPoison (readS (startArch (inLoops 9 [aLoop 9] [] 0 false 0)) 2) = false ∧ atLoopEnd (inLoops 9 [aLoop 9] [] 0 false 0) = true ∧
    Moves (.seqBrn .always (.g 0)) .always (.g 0) (at0 5 false) (val0 5 false) :=
  ⟨fun c p => ⟨_, moves_of ⟨rfl, rfl⟩, by revert c p; decide +kernel⟩, ⟨_, moves_of ⟨rfl, rfl⟩⟩, by decide +kernel, by decide +kernel,
   moves_at0 _ _ _ rfl⟩

theorem witness_JumpsAndCalls :
    (∀ f ∈ ([.seqJmp, .seqCall, .seqRet] : List (Guard → Src → Instr)), ∀ pc l c w p n,
      Moves (f .always (.g 0)) .always (.g 0) (inLoops pc l c w p n) (val0 w p)) ∧
    -- poison, an address out of range, the END of a loop, the greatest address
    (val0 0 true).scalar.p = true ∧ 8192 ≤ (val0 8192 false).scalar.v.toNat ∧
    atLoopEnd (inLoops 9 [aLoop 9] [] 0 false 0) = true ∧
    ((val0 8191 false).scalar.p = false ∧ (val0 8191 false).scalar.v.toNat < 8192 ∧ atLoopEnd (inLoops 9 [] [] 8191 false 0) = false) ∧
    -- the last bundle, the eighth and the ninth call, a return with and without a call
    (startArch (inLoops 8191 [] [] 5 false 0)).seq.pc = 8191 ∧ (startArch (inLoops 8190 [] [] 5 false 0)).seq.pc ≠ 8191 ∧
    8 ≤ (startArch (inLoops 9 [] (List.replicate 8 aCall) 5 false 0)).seq.calls.length ∧
    (startArch (inLoops 9 [] (List.replicate 7 aCall) 5 false 0)).seq.calls.length < 8 ∧
    (startArch (inLoops 9 [] [] 5 false 0)).seq.calls = [] ∧ (startArch (inLoops 9 [] [aCall] 5 false 0)).seq.calls = [aCall] :=
  ⟨fun f hf pc l c w p n => moves_inLoops _ _ _ _ _ _ _ ((by decide :
    ∀ f ∈ ([.seqJmp, .seqCall, .seqRet] : List (Guard → Src → Instr)), wellFormed (f .always (.g 0)) = true) f hf), by decide +kernel⟩

/-- END 8,191 without iterations: the next bundle would be at 8,192. -/
theorem witness_LoopOpens_last : (nextAfter (startArch (inLoops 9 [] [] 8191 false 0)).seq 8191).2 = 8192 ∧
    (val0 8191 false).scalar.v.toNat = 8191 ∧ atLoopEnd (inLoops 9 [] [] 8191 false 0) = false := by decide +kernel

/-- END 10 from bundle 9 inside a loop that ends at 10, with five and with six loops open, counts 2^32 - 1 and 0. -/
theorem witness_LoopOpens : ∀ k ∈ [5, 6], ∀ n ∈ [2 ^ 32 - 1, 0], let s := inLoops 9 (List.replicate k (aLoop 10)) [] 10 false n
    (∀ w, Moves (.seqLoop .always (.g 0)) .always (.g 0) (inLoops 9 (List.replicate k (aLoop 10)) [] w false n) (val0 w false)) ∧
    (val0 10 false).scalar.p = false ∧ (getOpS (arch s) .seqLo).p = false ∧ (getOpS (arch s) .seqLo).v.toNat = n ∧
    (val0 10 false).scalar.v.toNat = 10 ∧ (startArch s).seq.pc.toNat = 9 ∧ atLoopEnd s = false ∧
    (innerLoop (startArch s).seq).map (·.stop.toNat) = some 10 ∧ (startArch s).seq.loops.length = k := fun k hk n hn =>
  ⟨fun _ => moves_inLoops _ _ _ _ _ _ _ rfl, (by decide +kernel : ∀ k ∈ [5, 6], ∀ n ∈ [2 ^ 32 - 1, 0],
    let s := inLoops 9 (List.replicate k (aLoop 10)) [] 10 false n
    (val0 10 false).scalar.p = false ∧ (getOpS (arch s) .seqLo).p = false ∧ (getOpS (arch s) .seqLo).v.toNat = n ∧
    (val0 10 false).scalar.v.toNat = 10 ∧ (startArch s).seq.pc.toNat = 9 ∧ atLoopEnd s = false ∧
    (innerLoop (startArch s).seq).map (·.stop.toNat) = some 10 ∧ (startArch s).seq.loops.length = k) k hk n hn⟩

theorem witness_LoopRuns :
    -- one iteration to go inside a spent loop with the same END, and an END elsewhere, outside and inside a handler
    (∀ h ∈ [none, some (0, 0)], ∀ e ∈ [9, 8], let q : Sequencer :=
        { Sequencer.reset with handler := h, loops := [{ aLoop 9 with index := 2 }, { aLoop e with index := 1 }] }
     q.loops = [{ aLoop 9 with index := 2 }] ++ { aLoop e with index := 1 } :: [] ∧ 1 < openLoops q ∧ spentAt 9 { aLoop 9 with index := 2 } ∧
     (aLoop 9).stop.toNat = 9 ∧ (aLoop 8).stop.toNat ≠ 9 ∧ (1 : BitVec 32).toNat + 1 < (aLoop 9).count.toNat) ∧
    -- no loop left to act on: an empty stack, the last one spent, the depth at the entry of a handler
    openLoops Sequencer.reset = ([] : List LoopEntry).length ∧ openLoops { Sequencer.reset with loops := [{ aLoop 9 with index := 2 }] } = 1 ∧
    openLoops { Sequencer.reset with handler := some (1, 0), loops := [aLoop 9] } = 0 ∧
    (∀ c p, ∃ x, Moves (.seqLbrk .always (.s 2)) .always (.s 2)
      (running (s2 c 9 p { CoreArch.reset with seq := { Sequencer.reset with loops := [aLoop 9] } })) x) ∧
    (∀ c p, let s := running (s2 c 9 p { CoreArch.reset with seq := { Sequencer.reset with loops := [aLoop 9] } })
      steerPoison (readS (startArch s) 2) = p ∧ (readS (startArch s) 2).cond = c ∧ innerLoop (startArch s).seq = some (aLoop 9)) ∧
    (∃ x, Moves (.seqLbrk .always (.s 2)) .always (.s 2) (running (s2 true 9 false CoreArch.reset)) x) ∧
    innerLoop (startArch (running (s2 true 9 false CoreArch.reset))).seq = none :=
  ⟨by unfold spentAt; decide +kernel, by decide +kernel, by decide +kernel, by decide +kernel, fun _ _ => ⟨_, moves_of ⟨rfl, rfl⟩⟩,
   by decide +kernel, ⟨_, moves_of ⟨rfl, rfl⟩⟩, by decide +kernel⟩

/-- A handler with two loops and one call below it. -/
def handler0 (loops : List LoopEntry) (calls : List CallEntry) : State :=
  running { CoreArch.reset with seq := { Sequencer.reset with handler := some (2, 1), loops := loops, calls := calls, pc := 9 } }

theorem witness_TaskControl :
    (∀ f ∈ ([.seqExit, .seqTrap, .seqWfe, .seqSev, .seqYield] : List (Guard → Src → Instr)), ∀ w p,
      Moves (f .always (.g 0)) .always (.g 0) (at0 w p) (val0 w p)) ∧
    (∃ x, Moves (.seqTrap .always (.imm 1)) .always (.imm 1) (handler0 [] []) x ∧ x.scalar.p = false) ∧
    (startArch (handler0 [] [])).seq.handler.isSome = true ∧ (startArch (at0 1 false)).seq.handler.isSome = false ∧
    (val0 0x10000 false).scalar.v.toNat % 65536 = 0 ∧ (val0 0xFFFF false).scalar.v.toNat % 65536 ≠ 0 ∧ (arch (at0 1 false)).seq.wait = none ∧
    (val0 1 true).scalar.p = true ∧ (val0 1 false).scalar.p = false :=
  ⟨fun f hf w p => moves_at0 _ _ _ ((by decide : ∀ f ∈ ([.seqExit, .seqTrap, .seqWfe, .seqSev, .seqYield] : List (Guard → Src → Instr)),
    wellFormed (f .always (.g 0)) = true) f hf), ⟨_, moves_of ⟨rfl, rfl⟩, rfl⟩, by decide +kernel⟩

theorem witness_HandlerReturn :
    (∀ l c, ∃ x, Moves (.seqReti .always (.imm 0)) .always (.imm 0) (handler0 l c) x) ∧ Moves (.seqReti .always (.g 0)) .always (.g 0) (at0 0 false) (val0 0 false) ∧
    (startArch (at0 0 false)).seq.handler = none ∧
    -- the depths of entry, another depth of loops and of calls, the END of an own loop
    (let s := handler0 [aLoop 20, aLoop 20] [aCall]
     (startArch s).seq.handler = some (2, 1) ∧ (startArch s).seq.loops.length = 2 ∧ (startArch s).seq.calls.length = 1 ∧ atLoopEnd s = false) ∧
    (startArch (handler0 [] [aCall])).seq.loops.length ≠ 2 ∧ (startArch (handler0 [aLoop 20, aLoop 20] [])).seq.calls.length ≠ 1 ∧
    atLoopEnd (handler0 [aLoop 9, aLoop 20, aLoop 20] [aCall]) = true ∧
    ({ CoreArch.reset with seq := { Sequencer.reset with next := some (.reti 77) } } : CoreArch).seq.next = some (.reti 77) :=
  ⟨fun _ _ => ⟨_, moves_of ⟨rfl, rfl⟩⟩, moves_at0 _ _ _ rfl, by decide +kernel⟩

theorem witness_ControlReads : (∀ w, Moves (.seqCsrr .always (.g 0)) .always (.g 0) (at0 w false) (val0 w false)) ∧
    csrRead (at0 0x005 false) ((val0 0x005 false).scalar.v.toNat % 4096) = none ∧
    csrRead (at0 0x1050 false) ((val0 0x1050 false).scalar.v.toNat % 4096) ≠ none ∧
    (startJournal (at0 0 false)).bytes ≤ 131072 ∧ (startArch (at0 0 false)).order.sbuf.length ≤ 512 ∧ (startJournal (at0 0 false)).why < 8 :=
  ⟨fun _ => moves_at0 _ _ _ rfl, by decide +kernel⟩

/-- `seq.csel` holds the number, g0 the value. -/
def csw (n : Nat) (w : Word) (p : Bool) : State := running (g0 w p (port .seqCsel n false CoreArch.reset))

theorem witness_ControlWrites : (∀ n w p, Moves (.seqCsrw .always (.g 0)) .always (.g 0) (csw n w p) (val0 w p)) ∧
    (∀ n ∈ [0x020, 0x022, 0x024, 0x030, 0x031], (getOpS (arch (csw n 0 false)) .seqCsel).v.toNat % 4096 = n ∧
      (getOpS (arch (csw n 0 false)) .seqCsel).p = false) ∧
    (getOpS (arch (csw 0x021 0 false)) .seqCsel).v.toNat % 4096 ∉ [0x020, 0x022, 0x024, 0x030, 0x031] ∧
    (getOpS (arch (running (g0 0 false (port .seqCsel 0x20 true CoreArch.reset)))) .seqCsel).p = true ∧
    (val0 8191 false).scalar.v.toNat < 8192 ∧ 8192 ≤ (val0 8192 false).scalar.v.toNat ∧ (val0 12288 false).scalar.v.toNat ≤ 12288 ∧
    12288 < (val0 12289 false).scalar.v.toNat ∧ (val0 0 true).scalar.p = true :=
  ⟨fun _ _ _ => moves_of ⟨rfl, rfl⟩, by decide +kernel⟩

/-- Every trigger of a list with a guard and a source is well formed without a guard. -/
def allUnguarded {α : Type} (l : List ((Guard → Src → Instr) × α)) : Bool := l.all (fun r => wellFormed (r.1 .always (.g 0)))

theorem moves_all {α : Type} {l : List ((Guard → Src → Instr) × α)} (h : allUnguarded l = true) (w : Word) (p : Bool) :
    ∀ r ∈ l, Moves (r.1 .always (.g 0)) .always (.g 0) (at0 w p) (val0 w p) :=
  fun r hr => moves_at0 _ _ _ (List.all_eq_true.mp h r hr)

theorem witness_VectorIntegers : (∀ r ∈ lanesInt, Moves (r.1 .always (.g 0)) .always (.g 0) (at0 5 false) (val0 5 false)) ∧
    Moves (.vuDot4 .always (.g 0)) .always (.g 0) (at0 5 true) (val0 5 true) :=
  ⟨moves_all (by decide) _ _, moves_at0 _ _ _ rfl⟩

theorem witness_VectorFloats : (∀ r ∈ lanesFloat, Moves (r.1 .always (.g 0)) .always (.g 0) (at0 5 false) (val0 5 false)) ∧
    (∀ r ∈ lanesFused, Moves (r.1 .always (.g 0)) .always (.g 0) (at0 5 false) (val0 5 false)) ∧
    (∀ r ∈ lanesOne, Moves (r.1 .always (.g 0)) .always (.g 0) (at0 5 false) (val0 5 false)) :=
  ⟨moves_all (by decide) _ _, moves_all (by decide) _ _, moves_all (by decide) _ _⟩

theorem witness_VectorCompares : ∀ r ∈ laneCompares, Moves (r.1 .always (.g 0)) .always (.g 0) (at0 5 false) (val0 5 false) :=
  moves_all (by decide) _ _

theorem witness_VectorReductions : ∀ f ∈ ([.vuRedaddF, .vuRedmaxF, .vuRedaddI, .vuRedmaxI, .vuRedminI, .vuScanI] : List (Guard → Src → Instr)),
    Moves (f .always (.g 0)) .always (.g 0) (at0 5 false) (val0 5 false) :=
  fun f hf => moves_at0 _ _ _ ((by decide : ∀ f ∈ ([.vuRedaddF, .vuRedmaxF, .vuRedaddI, .vuRedmaxI, .vuRedminI, .vuScanI] :
    List (Guard → Src → Instr)), wellFormed (f .always (.g 0)) = true) f hf)

theorem witness_VectorPermutes : ∀ f ∈ ([.vuPerm, .vuRot, .vuBcast, .vuSel, .vuIota, .vuExpand, .vuCompress] : List (Guard → Src → Instr)),
    Moves (f .always (.g 0)) .always (.g 0) (at0 64 true) (val0 64 true) :=
  fun f hf => moves_at0 _ _ _ ((by decide : ∀ f ∈ ([.vuPerm, .vuRot, .vuBcast, .vuSel, .vuIota, .vuExpand, .vuCompress] :
    List (Guard → Src → Instr)), wellFormed (f .always (.g 0)) = true) f hf)

theorem witness_VectorConversions : (∀ r ∈ conversions, Moves (r.1 .always (.g 0)) .always (.g 0) (at0 5 false) (val0 5 false)) ∧
    (∀ r ∈ insertions, Moves (r.1 .always (.g 0)) .always (.g 0) (at0 5 false) (val0 5 false)) ∧
    (∀ r ∈ pairInsertions, Moves (r.1 .always (.g 0)) .always (.g 0) (at0 5 false) (val0 5 false)) :=
  ⟨moves_all (by decide) _ _, moves_all (by decide) _ _, moves_all (by decide) _ _⟩

/-- Half of the least positive value: 0 and 2^-149 are equally near, and 0 is the even code. -/
theorem witness_RoundsToNearest : (0 < 1) ∧ min (magCode 1 (-149 - ((1 : Nat) : Int)) 23 (-149)) 0x7F800000 = 0 ∧
    gap (codeValue 0 * 2 ^ 1) 1 = gap (codeValue 1 * 2 ^ 1) 1 := by decide +kernel

/-- Core 0 with `vu.b`, `vu.k` and g0. -/
def stream (b k : Bool) (w : Word) (p : Bool) : State :=
  running (g0 w p (port .vuB 3 b (port .vuK (2 ^ 63) k CoreArch.reset)))

theorem witness_StreamQueues : (∀ f ∈ ([.vuSpush, .vuSpop] : List (Guard → Src → Instr)), ∀ b k w p,
      Moves (f .always (.g 0)) .always (.g 0) (stream b k w p) (val0 w p)) ∧
    (vuB (stream true false 0 false)).p = true ∧ (vuK (stream false true 0 false)).p = true ∧
    ((vuB (stream false false 0 false)).p = false ∧ (vuK (stream false false 0 false)).p = false) ∧
    (val0 0 true).broadcast.p = true ∧
    (let d := (laneOf (val0 260 false).broadcast.v 0).toNat; 64 < d / 4 % 128 ∧ (val0 260 false).broadcast.p = false) ∧
    (let d := (laneOf (val0 259 false).broadcast.v 0).toNat; d / 4 % 128 ≤ 64 ∧ d % 4 = 3) ∧
    -- a pop of a core that runs, and of one that does not
    (let p : Pop := { core := 0, stream := 3, most := 64, t := 2, due := 9, ord := 8 }
     let s := { stream false false 0 false with quads := [(0, { Quad.reset 0 with pops := [p] })] }
     s.quads = [(0, { Quad.reset 0 with pops := [p] })] ∧ isLive (getCore s 0) = true ∧ isLive (getCore State.reset 0) = false) :=
  ⟨fun f hf _ _ _ _ => moves_of ⟨(by decide : ∀ f ∈ ([.vuSpush, .vuSpop] : List (Guard → Src → Instr)), wellFormed (f .always (.g 0)) = true) f hf, rfl⟩,
   by decide +kernel⟩

/-! Address slots. -/

/-- What a slot without a guard finds in a1 and m1. -/
def in1 (v m : Word) (p : Bool) : AddrIn := { a := { v := v, t := 1, p := p }, m := { v := m, t := 16, p := false }, mFree := false, guard := 0 }

/-- Core 0 with a1 and m1, a whole stash of temporary bytes, data in `la.d`. -/
def near1 (v m : Word) (p : Bool) : State := temp 4161536 (running (a1 v m p (port .laD 0x1234 false CoreArch.reset)))

theorem addresses_near1 (i : Instr) (u : Bool) (v m : Word) (p : Bool) (h : wellFormed i = true) :
    Addresses i .always 1 u (near1 v m p) (in1 v m p) := ⟨h, rfl, fun _ => rfl, rfl, rfl, rfl, rfl⟩

theorem region_temp (s : State) (n a : Nat) (h : a < n) : regionOf (temp n s) 0 a = .temp := by
  simp [regionOf, temp, getQuad, alGet, h]

theorem tempIn_temp (s : State) (a n : Nat) (h : a + n ≤ 4161536) (_ : 0 < n) : tempIn (temp 4161536 s) 0 a n :=
  ⟨h, fun k _ hk => region_temp _ 4161536 _ (by omega)⟩

theorem inTemp_running (b : CoreArch) (a n : Nat) (h : a + n ≤ 4161536) (hn : 0 < n) : inTemp (temp 4161536 (running b)) a n := by
  unfold inTemp
  rw [show myQuad (temp 4161536 (running b)) = 0 by simp [myQuad, temp, running, State.reset]]
  exact tempIn_temp _ a n h hn

/-- Temporary chunks can be read and written as they stand. -/
theorem readable_inTemp {s : State} {a n : Nat} (h : inTemp s a n) (e : TSet) : readable s e a n := ⟨h.1, fun k x y => .inl (h.2 k x y)⟩
theorem assigned_inTemp {s : State} {a n : Nat} (h : inTemp s a n) : assigned s a n := ⟨h.1, fun k x y => by rw [h.2 k x y]; decide⟩
theorem writeReady_inTemp {s : State} {a n i : Nat} (h : inTemp s a n) (hi : i < n) : writeReady s ((a + i) / 64) :=
  .inl (h.2 _ (Nat.div_le_div_right (by omega)) (Nat.div_le_div_right (by omega)))

/-- No bank of a fresh quad has served a row. -/
theorem idle_running (b : CoreArch) (l : List (Nat × Nat)) : banksIdle (temp 4161536 (running b)) l := by
  simp [banksIdle, banksFree, myQuad, temp, running, State.reset, getQuad, alGet, Quad.reset]

theorem inTemp_near1 (v m : Word) (p : Bool) (a n : Nat) (h : a + n ≤ 4161536) (hn : 0 < n) : inTemp (near1 v m p) a n :=
  inTemp_running _ _ _ h hn

theorem witness_AddressArithmetic :
    -- reserved bits; a window and a width; linear; circular; reverse-carry
    (2 ^ 49 ≤ (BitVec.ofNat 64 (2 ^ 49) : Word).toNat) ∧
    (let m : Word := BitVec.ofNat 64 (2 ^ 44 + 2 ^ 22); m.toNat / 2 ^ 44 % 32 ≠ 0 ∧ m.toNat / 2 ^ 22 % 2 ^ 22 ≠ 0) ∧
    (let m : Word := 5; m.toNat < 2 ^ 49 ∧ m.toNat / 2 ^ 44 % 32 = 0 ∧ m.toNat / 2 ^ 22 % 2 ^ 22 = 0) ∧
    (let m : Word := BitVec.ofNat 64 (2 ^ 44 - 1); m.toNat < 2 ^ 49 ∧ m.toNat / 2 ^ 44 % 32 = 0 ∧ m.toNat / 2 ^ 22 % 2 ^ 22 ≠ 0) ∧
    (let m : Word := BitVec.ofNat 64 (31 * 2 ^ 44); m.toNat < 2 ^ 49 ∧ m.toNat / 2 ^ 44 % 32 ≠ 0 ∧ m.toNat / 2 ^ 22 % 2 ^ 22 = 0) ∧
    (∀ m, Addresses (.aupd .always 1) .always 1 true (near1 3 m true) (in1 3 m true)) ∧
    addrUpdate 3 5 = some 8 ∧ addrUpdate 3 (BitVec.ofNat 64 (2 ^ 49)) = none ∧
    Addresses (.aadd .always 1 0x40) .always 1 false (near1 3 0 true) (in1 3 0 true) :=
  ⟨by decide, by decide, by decide, by decide, by decide, fun _ => addresses_near1 _ _ _ _ _ rfl, by decide +kernel, by decide +kernel,
   addresses_near1 _ _ _ _ _ rfl⟩

/-- A window over the first 64 bytes of quad 0's stash, for block 5. -/
def aWindow : Window :=
  { base := 0, vbase := 2097152, rowBytes := 64, rows := 1, rowStride := 64, ro := false, ctx := 5, byCp := false, versions := [] }
def mappedBy (w : Window) (s : State) : State :=
  { s with quads := [(0, { Quad.reset 0 with windows := [(3, w)], temps := [{ base := 64, len := 4096, owner := 0 }] })] }
def mapped (s : State) : State := mappedBy aWindow s

/-- Core 0 with a1, and chunk 0 of its quad mapped by `w` to the first line of frame 1, with chunks, near accesses and transfers under way, and
a token. -/
def lined (w : Window) (v m : Word) (o : Order) (ch : List (Nat × Chunk)) (xs : List PodXfer) : State :=
  { mappedBy w (running (a1 v m false (port .laD 0x1234 false { CoreArch.reset with order := o }))) with
    xlat := [(pageKey 5 1, makeLeaf true false 0 1 0)], chunks := ch, hub := { Hub.reset with xfers := xs },
    dies := [(0, { Die.reset with buckets := [(0, { share := 65536, tokens := 1, took := false })] })] }

theorem addresses_lined (i : Instr) (u : Bool) (w : Window) (v m : Word) (o : Order) (ch : List (Nat × Chunk)) (xs : List PodXfer)
    (h : wellFormed i = true) : Addresses i .always 1 u (lined w v m o ch xs) (in1 v m false) := ⟨h, rfl, fun _ => rfl, rfl, rfl, rfl, rfl⟩

def fillXfer : PodXfer :=
  { num := 4, core := 0, ident := 0, kind := 1, peer := 1, world := 1, cls := 0x40, fn := 0, pa := 0, mask := 0, data := [], stamp := 0,
    sentAt := 0, resends := 0 }
def aNear : NearOp :=
  { ident := 1, kind := .load, spans := [(0, 8)], writes := [], port := .laR, due := 6, ord := 0, e := 0, taint := 0, poison := false,
    colour := 0, got := [] }

/-- A D chunk; a C chunk as new as the stamp registers; no chunk; a C chunk older than the stamp register of a colour of its access's taint; a fill
under way; an access that waits; a window that is read-only. -/
theorem witness_NearChunks :
    (∀ i u v m o ch xs, wellFormed i = true → Addresses i .always 1 u (lined aWindow v m o ch xs) (in1 v m false)) ∧
    (∀ e, let s := lined aWindow 0 1 Order.reset [(0, { dirty := true, stamp := 0, mask := 0 })] []
      readable s e 0 8 ∧ assigned s 0 8 ∧ writeReady s 0) ∧
    (∀ e, readable (lined aWindow 0 1 Order.reset [(0, { dirty := false, stamp := 7, mask := 0 })] []) e 0 8) ∧
    (∀ k ∈ [([], 0), ([(0, { dirty := false, stamp := 7, mask := 0 })], 8)],
      let s := lined aWindow 0 1 { Order.reset with st := Vector.replicate 16 k.2 } k.1 []
      lineAt s 0 { peer := none, pa := 0x200000 } ∧ lineHeld s { peer := none, pa := 0x200000 } = false ∧
      ¬ readReady s (accessTaint s (in1 0 1 false)) 0 ∧ (arch s).order.nearq = [] ∧ memWf s.stash = true ∧ banksIdle s [(0, 8)] ∧
      registered s 0x200000 = none ∧ evictedLine s 0x200000 = none ∧ ¬ readOnlyChunk s 0 ∧ noFarBeside s) ∧
    (∀ r ∈ nearLoads, r.2.1 ≤ 8 → effective (in1 0 1 false) 0 r.2.1 = 0) ∧
    (let s := lined aWindow 0 1 Order.reset [] [fillXfer]
     xferPending s 1 (chunkAt s 0) = true ∧ ∃ n w, regionOf s (myQuad s) 0 = .mapped n w) ∧
    (let s := lined aWindow 0 1 { Order.reset with nearq := [aNear] } [] []
     (arch s).order.nearq ≠ [] ∧ assigned s 0 8 ∧ ¬ readOnlyChunk s 0) ∧
    readOnlyChunk (lined { aWindow with ro := true } 0 1 Order.reset [] []) 0 := by
  have reg : ∀ (v m : Word) o ch xs, regionOf (lined aWindow v m o ch xs) 0 0 = .mapped 3 aWindow := fun _ _ _ _ _ => rfl
  have only : ∀ s : State, myQuad s = 0 → (∀ a, a < 64 → regionOf s 0 a = .mapped 3 aWindow) → s.hub.gangs = [] →
      leafOf s 5 2097152 = makeLeaf true false 0 1 0 → ¬ readOnlyChunk s 0 := by
    rintro s hq hr hg hl ⟨n, w, hm, h⟩
    rw [hq, hr _ (by decide)] at hm
    injection hm with hn hw
    subst hw
    rcases h with h | h | ⟨g, h, -⟩
    · exact absurd h (by decide)
    · rw [show windowVa aWindow (64 * 0) = 2097152 by decide, show aWindow.ctx = 5 from rfl, hl] at h
      exact absurd h (by decide)
    · simp [getGang, hg] at h
  have low : ∀ (v m : Word) o ch xs a, a < 64 → regionOf (lined aWindow v m o ch xs) 0 a = .mapped 3 aWindow := by
    intro v m o ch xs a h
    simp [regionOf, lined, mappedBy, getQuad, alGet, Quad.reset, aWindow, windowBytes, h]
  have near : ∀ k, 0 / 64 ≤ k → k ≤ (0 + 8 - 1) / 64 → k = 0 := fun k _ h => by omega
  refine ⟨fun i u v m o ch xs h => addresses_lined i u _ v m o ch xs h, fun e => ⟨⟨by decide, fun k h1 h2 => ?_⟩, ⟨by decide, fun k h1 h2 => ?_⟩, ?_⟩,
    fun e => ⟨by decide, fun k h1 h2 => ?_⟩, ?_, by decide +kernel, ⟨rfl, 3, aWindow, rfl⟩, ⟨by decide, ⟨by decide, fun k h1 h2 => ?_⟩, ?_⟩,
    ⟨3, { aWindow with ro := true }, rfl, .inl rfl⟩⟩
  · cases near k h1 h2; exact .inr ⟨3, aWindow, _, rfl, rfl, rfl, .inl rfl⟩
  · cases near k h1 h2; decide +kernel
  · exact .inr ⟨3, aWindow, _, rfl, only _ rfl (low _ _ _ _ _) rfl (by decide +kernel), nofun, rfl, rfl, rfl⟩
  · cases near k h1 h2; exact .inr ⟨3, aWindow, _, rfl, rfl, rfl, .inr fun i _ => by
      have h : ∀ i : Fin 16, vget Order.reset.st i ≤ 7 := by decide +kernel
      exact h i⟩
  · intro k hk
    have hk : k = ([], 0) ∨ k = ([(0, { dirty := false, stamp := 7, mask := 0 })], 8) := by simpa using hk
    rcases hk with rfl | rfl
    · refine ⟨⟨⟨3, aWindow, rfl, by decide +kernel⟩, rfl, rfl, nofun, by decide +kernel⟩, by decide +kernel, ?_, rfl, rfl,
        by unfold banksIdle; decide +kernel, by decide +kernel, by decide +kernel, only _ rfl (low _ _ _ _ _) rfl (by decide +kernel), nofun⟩
      rintro (h | ⟨n, w, ch, -, -, h, -⟩)
      · exact absurd h (by decide +kernel)
      · cases h
    · refine ⟨⟨⟨3, aWindow, rfl, by decide +kernel⟩, rfl, rfl, (fun ch h => by cases h; rfl), by decide +kernel⟩, by decide +kernel, ?_, rfl, rfl,
        by unfold banksIdle; decide +kernel, by decide +kernel, by decide +kernel, only _ rfl (low _ _ _ _ _) rfl (by decide +kernel), nofun⟩
      rintro (h | ⟨n, w, ch, -, -, h, hs⟩)
      · exact absurd h (by decide +kernel)
      · cases h
        rcases hs with hs | hs
        · exact absurd hs (by decide)
        · exact absurd (hs 0 (by decide +kernel)) (by decide +kernel)
  · cases near k h1 h2; decide +kernel
  · exact only _ rfl (low _ _ _ _ _) rfl (by decide +kernel)



/-- The last bytes of the stash, every size; then poison, a malformed modifier, a misaligned address, one past the end. -/
theorem witness_NearReads : (∀ r ∈ nearLoads, wellFormed (r.1 .always 1 true 0) = true) ∧
    (∀ i v m p, wellFormed i = true → Addresses i .always 1 true (near1 v m p) (in1 v m p)) ∧
    (∀ r ∈ nearLoads, effective (in1 (BitVec.ofNat 64 4161280) 1 false) 0 r.2.1 % r.2.2.1 = 0) ∧
    (∀ r ∈ nearLoads, readable (near1 (BitVec.ofNat 64 4161280) 1 false) (accessTaint (near1 (BitVec.ofNat 64 4161280) 1 false)
      (in1 (BitVec.ofNat 64 4161280) 1 false)) (effective (in1 (BitVec.ofNat 64 4161280) 1 false) 0 r.2.1) r.2.1) ∧
    (∀ v m p l, (arch (near1 v m p)).order.nearq = [] ∧ banksIdle (near1 v m p) l) ∧
    (addrUpdate (in1 (BitVec.ofNat 64 4161280) 1 false).a.v (in1 0 1 false).m.v).isSome = true ∧
    (addrUpdate 0 (BitVec.ofNat 64 (2 ^ 49))).isSome = false ∧
    (∀ r ∈ nearLoads, r.2.2.1 = 1 ∨ effective (in1 1 1 false) 0 r.2.1 % r.2.2.1 ≠ 0) ∧
    (∀ r ∈ nearLoads, effective (in1 (BitVec.ofNat 64 4161536) 1 false) 0 r.2.1 % r.2.2.1 = 0 ∧
      4161536 < effective (in1 (BitVec.ofNat 64 4161536) 1 false) 0 r.2.1 + r.2.1) ∧
    (∀ a n, 4161536 < a + n → ¬ assigned (near1 (BitVec.ofNat 64 4161536) 1 false) a n) :=
  ⟨by decide, fun i v m p h => addresses_near1 _ _ _ _ _ h, by decide +kernel,
   fun r hr => by
    have h : ∀ r ∈ nearLoads, effective (in1 (BitVec.ofNat 64 4161280) 1 false) 0 r.2.1 = 4161280 ∧ 4161280 + r.2.1 ≤ 4161536 ∧ 0 < r.2.1 := by
      decide +kernel
    rw [(h r hr).1]
    exact readable_inTemp (inTemp_near1 _ _ _ _ _ (h r hr).2.1 (h r hr).2.2) _,
   fun _ _ _ _ => ⟨rfl, idle_running _ _⟩, by decide +kernel, by decide +kernel, by decide +kernel, by decide +kernel,
   fun _ _ h g => by have := g.1; omega⟩

theorem witness_NearStores : (∀ r ∈ nearStores, wellFormed (r.1 .always 1 true 0) = true) ∧
    (∀ i v m p, wellFormed i = true → Addresses i .always 1 true (near1 v m p) (in1 v m p)) ∧
    (∀ r ∈ nearStores, effective (in1 (BitVec.ofNat 64 4161280) 1 false) 0 r.2.1 % r.2.2 = 0) ∧
    (∀ r ∈ nearStores, let s := near1 (BitVec.ofNat 64 4161280) 1 false
      let ea := effective (in1 (BitVec.ofNat 64 4161280) 1 false) 0 r.2.1
      assigned s ea r.2.1 ∧ ∀ i b, storedByte s .always r.2.1 i = some b → writeReady s ((ea + i) / 64)) ∧
    (addrData (near1 (BitVec.ofNat 64 4161280) 1 false)).p = false ∧ memWf (near1 (BitVec.ofNat 64 4161280) 1 false).stash = true ∧
    (storedByte (near1 (BitVec.ofNat 64 4161280) 1 false) .always 256 255).isSome = true ∧
    Addresses (.stnV .mask 1 false 0) .mask 1 false (near1 0 0 false) (in1 0 0 false) :=
  ⟨by decide, fun i v m p h => addresses_near1 _ _ _ _ _ h, by decide +kernel,
   fun r hr => by
    have h : ∀ r ∈ nearStores, effective (in1 (BitVec.ofNat 64 4161280) 1 false) 0 r.2.1 = 4161280 ∧ 4161280 + r.2.1 ≤ 4161536 ∧ 0 < r.2.1 := by
      decide +kernel
    intro s ea
    have ht : inTemp s ea r.2.1 := by
      show inTemp _ (effective _ 0 r.2.1) _
      rw [(h r hr).1]; exact inTemp_near1 _ _ _ _ _ (h r hr).2.1 (h r hr).2.2
    exact ⟨assigned_inTemp ht, fun i b hb => writeReady_inTemp ht (by unfold storedByte at hb; split at hb <;> simp_all)⟩,
   by decide +kernel, by decide +kernel, by decide +kernel, ⟨rfl, rfl, fun _ => rfl, rfl, rfl, rfl, rfl⟩⟩

theorem witness_TaggedWords :
    Addresses (.stnT .always 1 true 0) .always 1 true (near1 8 1 false) (in1 8 1 false) ∧
    Addresses (.ldnT .always 1 true 0) .always 1 true (near1 8 1 false) (in1 8 1 false) ∧ effective (in1 8 1 false) 0 8 % 8 = 0 ∧
    inTemp (near1 8 1 false) (effective (in1 8 1 false) 0 8) 8 ∧ memWf (near1 8 1 false).stash = true ∧
    Addresses (.ldnT .always 1 false 0) .always 1 false (mapped (near1 8 1 false)) (in1 8 1 false) ∧
    spanAssigned (mapped (near1 8 1 false)) (myQuad (mapped (near1 8 1 false))) (effective (in1 8 1 false) 0 8) 8 = true ∧
    (∃ n w, regionOf (mapped (near1 8 1 false)) (myQuad (mapped (near1 8 1 false))) (effective (in1 8 1 false) 0 8) = .mapped n w) :=
  ⟨addresses_near1 _ _ _ _ _ rfl, addresses_near1 _ _ _ _ _ rfl, by decide +kernel,
   by rw [show effective (in1 8 1 false) 0 8 = 8 by decide +kernel]; exact inTemp_near1 _ _ _ _ _ (by omega) (by omega),
   by decide +kernel, ⟨rfl, rfl, fun _ => rfl, rfl, rfl, rfl, rfl⟩, by decide +kernel, 3, aWindow, by decide +kernel⟩

/-- Every lane at the last word of the stash (index 0 from `la.c`), a misaligned lane 0, and every lane just beyond the stash. -/
theorem witness_GatherScatter :
    Addresses (.ldnGv .always 1 false 0) .always 1 false (near1 (BitVec.ofNat 64 4161532) 0 false) (in1 (BitVec.ofNat 64 4161532) 0 false) ∧
    Addresses (.stnSv .always 1 false 0) .always 1 false (near1 (BitVec.ofNat 64 4161532) 0 false) (in1 (BitVec.ofNat 64 4161532) 0 false) ∧
    (addrSecond (near1 (BitVec.ofNat 64 4161532) 0 false)).p = false ∧ (addrData (near1 (BitVec.ofNat 64 4161532) 0 false)).p = false ∧
    (∀ i, i < 64 → (effective (in1 (BitVec.ofNat 64 4161532) 0 false) 0 4 +
        4 * (laneOf (addrSecond (near1 (BitVec.ofNat 64 4161532) 0 false)).v i).toNat) = 4161532) ∧
    (∀ e, readable (near1 (BitVec.ofNat 64 4161532) 0 false) e 4161532 4) ∧ assigned (near1 (BitVec.ofNat 64 4161532) 0 false) 4161532 4 ∧
    writeReady (near1 (BitVec.ofNat 64 4161532) 0 false) (4161532 / 64) ∧ 4161532 % 4 = 0 ∧
    readOnlyChunk (lined { aWindow with ro := true } 0 1 Order.reset [] []) 0 ∧ assigned (lined { aWindow with ro := true } 0 1 Order.reset [] []) 0 4 ∧
    Addresses (.ldnGv .always 1 false 0) .always 1 false (near1 2 0 false) (in1 2 0 false) ∧
    (effective (in1 2 0 false) 0 4 + 4 * (laneOf (addrSecond (near1 2 0 false)).v 0).toNat) % 4 ≠ 0 ∧
    (∀ i, i < 64 → effective (in1 (BitVec.ofNat 64 4161536) 0 false) 0 4 +
      4 * (laneOf (addrSecond (near1 (BitVec.ofNat 64 4161536) 0 false)).v i).toNat = 4161536) :=
  ⟨addresses_near1 _ _ _ _ _ rfl, addresses_near1 _ _ _ _ _ rfl, by decide +kernel, by decide +kernel, by decide +kernel,
   readable_inTemp (inTemp_near1 _ _ _ _ _ (by omega) (by omega)), assigned_inTemp (inTemp_near1 _ _ _ _ _ (by omega) (by omega)),
   writeReady_inTemp (i := 0) (inTemp_near1 _ _ _ 4161532 4 (by omega) (by omega)) (by omega), by decide,
   ⟨3, { aWindow with ro := true }, rfl, .inl rfl⟩, ⟨by decide, fun k h1 h2 => by
     have : k = 0 := by omega
     subst this; decide +kernel⟩, addresses_near1 _ _ _ _ _ rfl, by decide +kernel, by decide +kernel⟩

/-! Far accesses. -/

/-- A handle of a page in HBM, by its validity, its revocation and whether it is writable. -/
def aHandle (made valid revoked wr : Bool) : Handle :=
  { Handle.reset with made := made, valid := valid, revoked := revoked, wr := wr, base := 0x200000, frame := 0x200000 }

/-- Core 0 with a1 and handle h3. -/
def far1 (v m : Word) (p : Bool) (h : Handle) : State :=
  let a := a1 v m p (port .laD 0x1234 false CoreArch.reset)
  temp 4161536 (running { a with regs := { a.regs with h := vset a.regs.h 3 h } })

theorem addresses_far1 (i : Instr) (u : Bool) (v m : Word) (p : Bool) (h : Handle) (hw : wellFormed i = true) :
    Addresses i .always 1 u (far1 v m p h) (in1 v m p) := ⟨hw, rfl, fun _ => rfl, rfl, rfl, rfl, rfl⟩

/-- The last 256 bytes of a frame, by every load, in every class; `pf` through a handle that cannot be used, and one that can. -/
theorem witness_FarLoads : (∀ r ∈ farLoads, ∀ l ∈ ([0, 1, 2] : List Nat), wellFormed (r.1 .always 1 3 true (BitVec.ofNat 2 l)) = true) ∧
    (∀ i u v m p h, wellFormed i = true → Addresses i .always 1 u (far1 v m p h) (in1 v m p)) ∧
    (∀ r ∈ farLoads, farOk (far1 (BitVec.ofNat 64 2096896) 1 false (aHandle true true false false)) 3 (in1 (BitVec.ofNat 64 2096896) 1 false)
      r.2.1 r.2.2 false) ∧
    wellFormed (.pf .always 1 3 true 0) = true ∧ (fetchHandle (far1 0 1 false (aHandle true false false false)) 3).early = false ∧
    (vget (startArch (far1 0 1 false (aHandle true false false false))).regs.h 3).valid = false ∧
    (let h := vget (startArch (far1 (BitVec.ofNat 64 2097151) 1 false (aHandle true true false false))).regs.h 3
     h.made = true ∧ h.valid = true ∧ h.revoked = false ∧ (BitVec.ofNat 64 2097151 : Word).toNat < 2 ^ 21 ∧ h.home ≠ 2) :=
  ⟨by decide, fun i u v m p h hw => addresses_far1 _ _ _ _ _ _ hw, by unfold farOk; decide +kernel, by decide, by decide +kernel, by decide +kernel,
   by decide +kernel⟩

theorem witness_FarStores : (∀ r ∈ farStores, wellFormed (r.1 .always 1 3 true 2) = true) ∧
    (∀ i u v m p h, wellFormed i = true → Addresses i .always 1 u (far1 v m p h) (in1 v m p)) ∧
    (∀ r ∈ farStores, farOk (far1 (BitVec.ofNat 64 2096896) 1 false (aHandle true true false true)) 3 (in1 (BitVec.ofNat 64 2096896) 1 false)
      r.2.1 r.2.2 true) ∧
    (addrData (far1 0 1 false (aHandle true true false true))).p = false :=
  ⟨by decide, fun i u v m p h hw => addresses_far1 _ _ _ _ _ _ hw, by unfold farOk; decide +kernel, by decide +kernel⟩

theorem witness_FarFaults : (∀ b : Bool, ∀ r ∈ (if b then farStores else farLoads), wellFormed (r.1 .always 1 3 true 0) = true) ∧
    (∀ i u v m p h, wellFormed i = true → Addresses i .always 1 u (far1 v m p h) (in1 v m p)) ∧
    -- misaligned; one past the frame; never made; invalid; revoked; read-only
    (∀ m : Word, m = 0 ∨ m = BitVec.ofNat 64 (2 ^ 49) → (addrUpdate 0 m).isSome = decide (m = 0)) ∧
    (∀ b : Bool, ∀ r ∈ (if b then farStores else farLoads), 1 % r.2.2 ≠ 0 ∧ 2097152 % r.2.2 = 0 ∧ 2 ^ 21 < 2097152 + r.2.1 ∧ 0 + r.2.1 ≤ 2 ^ 21) ∧
    (∀ k ∈ [(false, false, false), (true, false, false), (true, true, true), (true, true, false)],
      let s := far1 0 1 false (aHandle k.1 k.2.1 k.2.2 false)
      let h := vget (startArch s).regs.h 3
      (h.made, h.valid, h.revoked, h.wr) = (k.1, k.2.1, k.2.2, false) ∧ (fetchHandle s 3).early = false ∧ (addrData s).p = false) :=
  ⟨by decide, fun i u v m p h hw => addresses_far1 _ _ _ _ _ _ hw, fun m hm => by rcases hm with rfl | rfl <;> decide +kernel, by decide +kernel,
   by decide +kernel⟩

/-- At quad scope on the last word of the stash; through a handle at the three other scopes, within and beyond die scope. -/
theorem witness_Atomics : (∀ r ∈ atomics, wellFormed (r.1 .always 1 0 2) = true ∧ ∀ c ∈ [3, 4, 5], wellFormed (r.1 .always 1 3 (BitVec.ofNat 3 c)) = true) ∧
    (∀ i u v m p h, wellFormed i = true → Addresses i .always 1 u (far1 v m p h) (in1 v m p)) ∧
    assigned (near1 (BitVec.ofNat 64 4161528) 0 false) 4161528 8 ∧ writeReady (near1 (BitVec.ofNat 64 4161528) 0 false) (4161528 / 64) ∧
    4161528 % 8 = 0 ∧ ¬ assigned (near1 (BitVec.ofNat 64 4161536) 0 false) 4161536 8 ∧
    (let s := lined { aWindow with ro := true } 0 1 Order.reset [] []; assigned s 0 8 ∧ readOnlyChunk s (0 / 64)) ∧
    (addrSecond (far1 0 0 false (aHandle true true false true))).p = false ∧
    (∀ n ∈ [0, 4096], farOk (far1 (BitVec.ofNat 64 n) 0 false (aHandle true true false true)) 3 (in1 (BitVec.ofNat 64 n) 0 false) 8 8 true) ∧
    (let s := far1 0 0 false (aHandle true true false true)
     atomInScope s.cur 3 (farPlace s 3 (in1 0 0 false)) = true ∧ atomInScope s.cur 3 (farPlace s 3 (in1 4096 0 false)) = false) :=
  ⟨by decide, fun i u v m p h hw => addresses_far1 _ _ _ _ _ _ hw, assigned_inTemp (inTemp_near1 _ _ _ _ _ (by omega) (by omega)),
   writeReady_inTemp (i := 0) (inTemp_near1 _ _ _ 4161528 8 (by omega) (by omega)) (by omega), by decide, fun h => by have := h.1; omega,
   ⟨⟨by decide, fun k h1 h2 => by
     have : k = 0 := by omega
     subst this; decide +kernel⟩, 3, { aWindow with ro := true }, rfl, .inl rfl⟩, by decide +kernel,
   by unfold farOk; decide +kernel, by decide +kernel⟩

/-! The anvil. -/

/-- Core 0 with an anvil queue, `anv.acc`, and `w` in g0; the whole stash is temporary. -/
def anvil0 (q : List AnvOp) (acc : Nat) (w : Word) (p : Bool) : State :=
  temp 4161536 (running (g0 w p (port .anvAcc acc false { CoreArch.reset with anv := { Anvil.reset with queue := q },
                                                                              csr := { Csrs.reset with cyc := 1000 } })))

/-- An operation of no rows that has started and read its data. -/
def anOp (k : AnvKind) : AnvOp :=
  { anvOpOf State.reset k VVal.zero with start := some 0, read := true, rows := if k = .runv then 1 else 0 }

/-- Faults, a full queue, seven operations before it, an empty queue. -/
theorem witness_AnvilTriggers :
    (∀ r ∈ anvilTriggers, ∀ q acc w p, Moves (r.1 .always (.g 0)) .always (.g 0) (anvil0 q acc w p) (val0 w p)) ∧
    anvFault (anvil0 [] 12288 0 false) (anvOpOf (anvil0 [] 12288 0 false) .wr (val0 0 false).broadcast) = some cOperand ∧
    (∀ r ∈ anvilTriggers, ∀ n ∈ [0, 7, 8], let s := anvil0 (List.replicate n (anOp .swap)) 12287 0 false
      anvFault s (anvOpOf s r.2.1 (r.2.2 (val0 0 false))) = none ∧ (arch s).anv.queue.length = n) ∧
    (∀ k ∈ [AnvKind.ldw, AnvKind.mpb], ∀ p ∈ dataSpans (anvOpOf (anvil0 [] 0 0 false) k (val0 0 false).lanes), inTemp (anvil0 [] 0 0 false) p.1 p.2) ∧
    (arch (anvil0 [] 0 0 false)).order.nearq = [] ∧ Moves (.anvProg .always (.g 0)) .always (.g 0) (at0 0 true) (val0 0 true) :=
  ⟨fun r hr _ _ _ _ => moves_of ⟨List.all_eq_true.mp (by decide : allUnguarded anvilTriggers = true) r hr, rfl⟩, by decide +kernel, by decide +kernel,
   fun k hk p hp => by
    have h : ∀ k ∈ [AnvKind.ldw, AnvKind.mpb], ∀ p ∈ dataSpans (anvOpOf (anvil0 [] 0 0 false) k (val0 0 false).lanes), p.1 + p.2 ≤ 4161536 ∧ 0 < p.2 := by
      decide +kernel
    exact inTemp_running _ _ _ (h k hk p hp).1 (h k hk p hp).2,
   by decide +kernel, moves_at0 _ _ _ rfl⟩

/-- A run of two rows with `r` of them done, and a load not yet read, started in cycle `st`. -/
def aRun (k : AnvKind) (st r : Nat) : AnvOp := { anOp k with start := some st, rows := r, n := 2 }
def aLoad (k : AnvKind) (st : Nat) : AnvOp := { anOp k with start := some st, read := false }

theorem temp_anvil0 (q : List AnvOp) (p : Nat × Nat) (h : p.1 + p.2 ≤ 4161536 ∧ 0 < p.2) : tempIn (anvil0 q 0 0 false) 0 p.1 p.2 :=
  tempIn_temp _ _ _ h.1 h.2

/-- At cycle 1000: an empty queue; an operation that has its turn; loads that have started and not read; operations not yet done, a swap since
998 and the others since 1000; a run whose next row is not due (since 984, with 1 cycle a row), and one whose rows are made; and every operation
that is done, alone and before another. -/
theorem witness_AnvilOperations :
    (coreArch (anvil0 [] 0 0 false) 0).anv.queue = [] ∧
    (∀ k ∈ [AnvKind.swap, .rd, .wr, .clr, .run, .runz, .runv], let o := { anOp k with start := none }
      (coreArch (anvil0 [o] 0 0 false) 0).anv.queue = [o] ∧ o.start = none ∧ o.kind ≠ .ldw ∧ o.kind ≠ .mpb) ∧
    (∀ k ∈ [AnvKind.ldw, .mpb], let o := aLoad k 1000; let s := anvil0 [o] 0 0 false
      headOp s 0 o [] 1000 ∧ o.read = false ∧ o.taken = [] ∧ o.pre = [] ∧ (getCore s 0).arch.order.nearq = [] ∧
      (∀ p ∈ dataSpans o, tempIn s (0 / 4) p.1 p.2) ∧ anvilCycle (getCore s 0).arch < doneAt s 0 o 1000) ∧
    (∀ k ∈ [AnvKind.swap, .rd, .wr, .clr, .ldw, .mpb], let o := { anOp k with start := some 1000 }; let s := anvil0 [o] 0 0 false
      headOp s 0 o [] 1000 ∧ anvilCycle (getCore s 0).arch < doneAt s 0 o 1000 ∧ isRun o.kind = false ∧ o.read = true) ∧
    (∀ k ∈ [AnvKind.run, .runz], ∀ e ∈ [(984, 0), (1000, 2)], let o := aRun k e.1 e.2; let s := anvil0 [o] 0 0 false
      headOp s 0 o [] e.1 ∧ (o.rows < o.count ∧ anvilCycle (getCore s 0).arch < rowAt s 0 o e.1 ∨
        o.count ≤ o.rows ∧ anvilCycle (getCore s 0).arch < doneAt s 0 o e.1)) ∧
    (∀ k ∈ [AnvKind.swap, .rd, .wr, .clr, .ldw, .mpb, .run, .runz, .runv], ∀ rest ∈ [[], [anOp .rd]],
      lastOp (anvil0 (anOp k :: rest) 0 0 false) 0 (anOp k) rest 0 ∧ (anOp k).kind = k ∧
      (anOp k).read = true ∧ (isRun k = true → (anOp k).count ≤ (anOp k).rows)) := by
  refine ⟨by decide +kernel, by decide +kernel, fun k hk => ?_, ?_, ?_, ?_⟩
  · have h : ∀ k ∈ [AnvKind.ldw, .mpb], (∀ p ∈ dataSpans (aLoad k 1000), p.1 + p.2 ≤ 4161536 ∧ 0 < p.2) ∧
        (let o := aLoad k 1000; let s := anvil0 [o] 0 0 false
         headOp s 0 o [] 1000 ∧ o.read = false ∧ o.taken = [] ∧ o.pre = [] ∧ (getCore s 0).arch.order.nearq = [] ∧
         anvilCycle (getCore s 0).arch < doneAt s 0 o 1000) := by unfold headOp anvilCycle doneAt; decide +kernel
    obtain ⟨hp, h1, h2, h3, h4, h5, h6⟩ := h k hk
    exact ⟨h1, h2, h3, h4, h5, fun p hq => temp_anvil0 _ p (hp p hq), h6⟩
  · unfold headOp anvilCycle doneAt; decide +kernel
  · unfold headOp anvilCycle doneAt rowAt; decide +kernel
  · unfold lastOp headOp anvilCycle doneAt; decide +kernel

/-- At cycle 1000, from a stash that is all temporary: row 0 of a run of two since 984, a cycle early; since 983, in its cycle, with row 1 a cycle
later. -/
theorem witness_AnvilRows :
    (∀ k ∈ [AnvKind.run, .runz], ∀ st ∈ [983, 984], let o := aRun k st 0; let s := anvil0 [o] 0 0 false
      headOp s 0 o [] st ∧ isRun o.kind = true ∧ o.rows < o.count ∧ (getCore s 0).arch.order.nearq = [] ∧
      (∀ p ∈ rowSpans o (depthOf (getCore s 0).arch.anv.active.wfmt.toNat) o.rows, tempIn s (0 / 4) p.1 p.2) ∧
      decide (rowAt s 0 o st ≤ anvilCycle (getCore s 0).arch) = decide (st = 983) ∧ o.rows + 1 < o.count ∧
      anvilCycle (getCore s 0).arch < rowAt s 0 { o with rows := o.rows + 1 } st) ∧
    ∀ k ∈ [AnvKind.run, .runz, .runv], isRun (anOp k).kind = true ∧ (anOp k).pre = [] ∧ (anOp k).taken = [] ∧ (anOp k).got = [] := by
  refine ⟨fun k hk st hs => ?_, by decide +kernel⟩
  have h : ∀ k ∈ [AnvKind.run, .runz], ∀ st ∈ [983, 984], let o := aRun k st 0; let s := anvil0 [o] 0 0 false
      (headOp s 0 o [] st ∧ isRun o.kind = true ∧ o.rows < o.count ∧ (getCore s 0).arch.order.nearq = []) ∧
      (∀ p ∈ rowSpans o (depthOf (getCore s 0).arch.anv.active.wfmt.toNat) o.rows, p.1 + p.2 ≤ 4161536 ∧ 0 < p.2) ∧
      decide (rowAt s 0 o st ≤ anvilCycle (getCore s 0).arch) = decide (st = 983) ∧ o.rows + 1 < o.count ∧
      anvilCycle (getCore s 0).arch < rowAt s 0 { o with rows := o.rows + 1 } st := by
    unfold headOp anvilCycle rowAt; decide +kernel
  obtain ⟨⟨h1, h2, h3, h4⟩, hp, h5, h6, h7⟩ := h k hk st hs
  exact ⟨h1, h2, h3, h4, fun p hq => temp_anvil0 _ p (hp p hq), h5, h6, h7⟩

/-! The engines. -/

def issueKind : EngIssue → Nat
  | .bad _ => 0
  | .await _ => 1
  | .ok _ _ => 2

theorem bad_of (x : EngIssue) (h : issueKind x = 0) : ∃ k, x = .bad k := by cases x <;> simp_all [issueKind]
theorem await_of (x : EngIssue) (h : issueKind x = 1) : ∃ l, x = .await l := by cases x <;> simp_all [issueKind]
theorem ok_of (x : EngIssue) (h : issueKind x = 2) : ∃ c u, x = .ok c u := by cases x <;> simp_all [issueKind]

/-- A copy of `len` bytes within the stash, with `nest`, `n` commands in Q0 before it. -/
def copy0 (len nest n : Nat) : State :=
  let a := g0 0 false (port .eDst 1024 false (port .eSrc 64 false (port .eLen len false (port .eNest nest false CoreArch.reset))))
  mapped (running { a with q := vset a.q 0 { EngQueue.reset with cmds := List.replicate n (makeCmd State.reset .copy SVal.zero) } })

/-- A poisoned trigger; LEN 0; a nest block in a chunk of a window that is not there yet; LEN 4 on a queue of 31 and of 32. -/
theorem witness_EngineTriggers :
    (∀ r ∈ commandTriggers, ∀ p, Moves (r.1 .always (.g 0)) .always (.g 0) (at0 0 p) (val0 0 p)) ∧
    (∀ r ∈ commandTriggers, commandPoisoned (at0 0 true) r.2 (val0 0 true).scalar = true) ∧
    (∀ len nest n, Moves (.engCopy .always (.g 0)) .always (.g 0) (copy0 len nest n) (val0 0 false)) ∧
    (∀ n ∈ [31, 32], commandPoisoned (copy0 4 0 n) .copy (val0 0 false).scalar = false ∧ (queueOfCore (copy0 4 0 n) (queueOf .copy)).cmds.length = n) ∧
    (∃ k, issueOfOp (copy0 0 0 0) (makeCmd (copy0 0 0 0) .copy (val0 0 false).scalar) = .bad k) ∧
    (∃ l, issueOfOp (copy0 4 (2 ^ 22) 0) (makeCmd (copy0 4 (2 ^ 22) 0) .copy (val0 0 false).scalar) = .await l) ∧
    (∀ n ∈ [31, 32], ∃ c u, issueOfOp (copy0 4 0 n) (makeCmd (copy0 4 0 n) .copy (val0 0 false).scalar) = .ok c u) :=
  ⟨fun r hr p => moves_all (by decide) _ _ r hr, by decide +kernel, fun _ _ _ => moves_of ⟨rfl, rfl⟩, by decide +kernel,
   bad_of _ (by decide +kernel), await_of _ (by decide +kernel), fun n hn => ok_of _ ((by decide +kernel : ∀ n ∈ [31, 32],
     issueKind (issueOfOp (copy0 4 0 n) (makeCmd (copy0 4 0 n) .copy (val0 0 false).scalar)) = 2) n hn)⟩

/-- Every queue with `n` commands and three issued, two fences issued. -/
def queues (n : Nat) (w : Word) (p : Bool) : State :=
  running (g0 w p { CoreArch.reset with
    q := Vector.replicate 5 { EngQueue.reset with cmds := List.replicate n (makeCmd State.reset .copy SVal.zero), issued := 3 }, fences := 2 })

theorem witness_QueueControl :
    (∀ f ∈ ([.engQfence, .engQwait, .engQpoll] : List (Guard → Src → Instr)), ∀ n w p,
      Moves (f .always (.g 0)) .always (.g 0) (queues n w p) (val0 w p)) ∧
    (val0 1 true).scalar.p = true ∧ (val0 32 false).scalar.v.setWidth 5 = 0#5 ∧ (val0 16 false).scalar.v.setWidth 5 ≠ 0#5 ∧
    (∀ n ∈ [31, 32], (queueOfCore (queues n 16 false) 4).cmds.length = n) ∧
    -- numbers 5 and 6; fence 2 of 2 issued, fence 1; command 3 of 3 issued, command 2
    (∀ k ∈ [5, 6], (val0 (BitVec.ofNat 64 k) false).scalar.v.toNat % 8 = k) ∧
    (startArch (queues 0 (BitVec.ofNat 64 (7 + 8 * 2)) false)).fences ≤ (7 + 8 * 2) / 8 ∧
    (7 + 8 * 1) / 8 < (startArch (queues 0 (BitVec.ofNat 64 (7 + 8 * 1)) false)).fences ∧
    (vget (startArch (queues 0 (BitVec.ofNat 64 (4 + 8 * 3)) false)).q 4).issued ≤ (4 + 8 * 3) / 8 ∧
    (4 + 8 * 2) / 8 < (vget (startArch (queues 0 (BitVec.ofNat 64 (4 + 8 * 2)) false)).q 4).issued :=
  ⟨fun f hf n w p => moves_of ⟨(by decide : ∀ f ∈ ([.engQfence, .engQwait, .engQpoll] : List (Guard → Src → Instr)),
    wellFormed (f .always (.g 0)) = true) f hf, rfl⟩, by decide +kernel⟩

/-! Gangs. -/

/-- A gang of quad 0 for block 5, with one page leased, and its module. -/
def aGang : Gang :=
  { ctx := 5, world := 1, tenant := 1, launch := 0, ix := 0, record := 0, recIx := 0, path := [0], quads := [0],
    lease := [{ vpage := 1, pages := 1, rw := true }], duty := 16, nextDuty := 16, elapsed := 0, st := .running, stoppedAt := 0,
    image := none, cause := none, saves := 0, remap := [] }

def member (st : Status) (a : CoreArch) : Core := { Core.reset with status := st, gang := some 5, arch := a }

def gang0 (a : CoreArch) : State :=
  { State.reset with
    cores := [(0, member .bound a), (1, member .bound CoreArch.reset), (2, member .bound CoreArch.reset), (3, member .bound CoreArch.reset)],
    hub := { Hub.reset with gangs := [(5, aGang)] } }

theorem moves_gang0 (i : Instr) (w : Word) (p : Bool) (h : wellFormed i = true) :
    Moves i .always (.g 0) (gang0 (g0 w p CoreArch.reset)) (val0 w p) := moves_of ⟨h, rfl⟩

theorem witness_Translations :
    (∀ w p, Moves (.xlHk .always (.g 0) 15) .always (.g 0) (gang0 (g0 w p CoreArch.reset)) (val0 w p)) ∧
    (val0 0 true).scalar.p = true ∧ 2 ^ 48 ≤ (val0 (BitVec.ofNat 64 (2 ^ 48)) false).scalar.v.toNat ∧
    (let va := 2 ^ 48 - 1; va < 2 ^ 48 ∧ leaseRange (gang0 CoreArch.reset) 0 va = none) ∧
    leaseRange (gang0 CoreArch.reset) 0 (2 ^ 22 - 1) = some { vpage := 1, pages := 1, rw := true } ∧
    (∀ w p, Moves (.xlDrop .always (.g 0)) .always (.g 0) (gang0 (g0 w p CoreArch.reset)) (val0 w p)) :=
  ⟨fun _ _ => moves_gang0 _ _ _ rfl, by decide +kernel, by decide +kernel, by decide +kernel, by decide +kernel, fun _ _ => moves_gang0 _ _ _ rfl⟩

theorem witness_TaintOperations : ∀ f ∈ ([.tntClr, .tntJoin, .tntOf, .tntPclr, .tntNext] : List (Guard → Src → Instr)), ∀ w p,
    Moves (f .always (.g 0)) .always (.g 0) (at0 w p) (val0 w p) ∧ (at0 w p).issue = none ∧
    Moves (f .always (.g 0)) .always (.g 0) (issuing0 (g0 w p CoreArch.reset)) (val0 w p) ∧ (issuing0 (g0 w p CoreArch.reset)).issue.isSome = true ∧
    (val0 w p).lanes.p = p := fun f hf w p =>
  have h := (by decide : ∀ f ∈ ([.tntClr, .tntJoin, .tntOf, .tntPclr, .tntNext] : List (Guard → Src → Instr)), wellFormed (f .always (.g 0)) = true) f hf
  ⟨moves_at0 _ _ _ h, rfl, moves_of ⟨h, rfl⟩, rfl, by cases p <;> rfl⟩

/-- The quad's channel 1, for whose phases 0 and 1 core 0 has arrived `n` times and which has a release due. -/
def aChan (n : Nat) : Chan := { emptyChan { ctx := 5, scope := 2, inst := 0, ch := 1 } with arrived := [(0, n)], dueAt := [0] }
def chan0 (n : Nat) (a : CoreArch) : State := { gang0 a with hub := { Hub.reset with gangs := [(5, aGang)], chans := [aChan n] } }

/-- Scope 1 is none; scope 2, channel 1: no arrival, one (counter 1 free), two (counter 0 not yet observed free). -/
theorem witness_BarrierTriggers :
    (∀ f ∈ ([.barArrive, .barSync, .barWait, .barDrain] : List (Guard → Src → Instr)), ∀ n w,
      Moves (f .always (.g 0)) .always (.g 0) (chan0 n (g0 w false CoreArch.reset)) (val0 w false)) ∧
    barOk (chan0 0 CoreArch.reset) 0 (val0 9 false).scalar = false ∧ barOk (chan0 0 CoreArch.reset) 0 (val0 66 false).scalar = false ∧
    (∀ n ∈ [0, 1, 2], let s := chan0 n (g0 10 false CoreArch.reset)
      barOk s 0 (val0 10 false).scalar = true ∧ (arch s).seq.wait = none ∧ arrivals (getChan s (descChan s (val0 10 false).scalar.v)) 0 = n ∧
      counterFree (openWindow (noteObserved s (descChan s 10) 0) 0 5) (getChan (openWindow (noteObserved s (descChan s 10) 0) 0 5) (descChan s 10)) n =
        decide (n < 2)) ∧
    (chan0 1 CoreArch.reset).hub.chans.find? (fun d => d.ident = (aChan 1).ident) = some (aChan 1) ∧ releaseDue (chan0 1 CoreArch.reset) (aChan 1) = true :=
  ⟨fun f hf _ _ => moves_of ⟨(by decide : ∀ f ∈ ([.barArrive, .barSync, .barWait, .barDrain] : List (Guard → Src → Instr)),
    wellFormed (f .always (.g 0)) = true) f hf, rfl⟩, by decide +kernel, by decide +kernel, by decide +kernel, by decide +kernel, by decide +kernel⟩

theorem witness_FaultEntry :
    bestFault [{ rank := 4, slot := 2, cause := 4, uinfo := 0 }, { rank := 4, slot := 1, cause := 4, uinfo := 0 }] =
      some { rank := 4, slot := 1, cause := 4, uinfo := 0 } ∧
    (issuing0 CoreArch.reset).issue.isSome = true ∧ (arch (issuing0 CoreArch.reset)).seq.handler = none ∧
    (arch (handler0 [] [])).seq.handler ≠ none ∧ gangOf (gang0 CoreArch.reset) 0 = some aGang ∧ aGang.cause = none ∧ 3 ∈ gangCores aGang ∧
    isLive (getCore (gang0 CoreArch.reset) 3) = true ∧ (getCore (gang0 CoreArch.reset) 3).gang = some aGang.ctx ∧ gangOf (at0 0 false) 0 = none := by
  decide +kernel

/-! Events of cores and engines. -/

def aDue (p : PortId) (at_ ord : Nat) : Due := { port := p, at_ := at_, ord := ord, val := VVal.zero, short := true }
def aHDue (at_ : Nat) (live : Bool) : HDue := { k := 15, va := 0x200000, at_ := at_, ord := 1, hnd := aHandle true true false true, live := live }

/-- The last 8 bytes of a line in HBM, or of a peer module. -/
def aPart : FarPart := { ident := 9, loc := { peer := none, pa := 0x200038 }, len := 8, done := none }
def peerPart : FarPart := { aPart with loc := { peer := some 1, pa := 0x200038 } }
def farOf (k : FarKind) (p : FarPart) : FarOp :=
  { kind := k, port := .laR, size := 8, due := 128, ord := 8, e := 0, taint := 0, colour := 0, poison := false, parts := [p], overlay := [],
    after := [] }
def aStore (m : BitVec 64) (l : Loc) : StoreLine :=
  { ident := 9, loc := l, mask := m, data := 5, e := 0, first := 0, last := 0, bundles := [0] }

/-- Two results due at 7 and one later, at cycle 7, beside a far load that has performed and is due at 7 (port `la.r`), one that has not performed,
and one due at 8; a translation due now, live or dropped. -/
theorem witness_ResultDelivery :
    (let f := farOf .load { aPart with done := some (1, List.replicate 8 1#8, false) }
     let l := [{ f with due := 7 }, { farOf .load aPart with due := 7 }, { f with due := 8 }]
     let a := { CoreArch.reset with csr := { Csrs.reset with cyc := 7 }, due := [aDue .saR 7 9, aDue .saR 7 1, aDue .vuR 8 2],
                                    order := { Order.reset with far := l } }
     (coreArch (running a) 0).hdue = [] ∧ l.map (hasArrived (coreArch (running a) 0).csr.cyc) = [true, false, false] ∧
     ((coreArch (running a) 0).due.filter (fun d => decide (d.at_ ≤ 7))).length = 2) ∧
    (∀ b, let a := { CoreArch.reset with csr := { Csrs.reset with cyc := 7 }, hdue := [aHDue 7 b],
                                         order := { Order.reset with far := [farOf .load aPart] } }
     (coreArch (running a) 0).hdue = [aHDue 7 b] ∧ (coreArch (running a) 0).due = [] ∧
     (∀ f ∈ (coreArch (running a) 0).order.far, hasArrived (coreArch (running a) 0).csr.cyc f = false) ∧
     (aHDue 7 b).at_ ≤ (coreArch (running a) 0).csr.cyc ∧ (aHDue 7 b).hnd.made = true ∧ (aHDue 7 b).live = b) := by decide +kernel

/-- Core 0 with far accesses or released stores, and tokens for them. -/
def perform0 (o : Order) : State :=
  { running { CoreArch.reset with order := o } with
    dies := [(0, { Die.reset with buckets := [(0, { share := 65536, tokens := 2, took := false })] })] }

/-- The same, with the line at 0x200000 in chunk 0 in state D, its last byte marked; and with that line of module 1 in chunk 0. -/
def aChunk : Chunk := { dirty := true, stamp := 0, mask := BitVec.ofNat 64 (2 ^ 63) }
def held0 (o : Order) : State :=
  modDie { perform0 o with chunks := [(0, aChunk)] } (homeOf 0x200000) (fun d => { d with dir := [(0x200000 / 64, 0)] })
def peerHeld0 (o : Order) : State :=
  { perform0 o with chunks := [(0, aChunk)], hub := { Hub.reset with peerDir := [({ peer := some 1, pa := 0x200000 }, 0)] } }

theorem witness_FarPerforms :
    -- loads and prefetches, of memory and of a chunk
    (∀ k ∈ [FarKind.load, .prefetch], ∀ b : Bool, let o := { Order.reset with far := [farOf k aPart] }
      let s := if b then held0 o else perform0 o
      (coreArch s 0).order.far = [farOf k aPart] ∧ isLive (getCore s 0) = true ∧ partReady s 0 (farOf k aPart) aPart = true ∧
      isHole aPart.loc.pa = false ∧ (takeToken s 0 aPart.ident).1 = true ∧ aPart.loc.pa % 64 + aPart.len ≤ 64 ∧
      (registered s (aPart.loc.pa / 64 * 64)).isSome = b ∧ slotOpen s (aPart.loc.pa / 64 * 64) = false) ∧
    -- stores of one byte and of the line; of one byte to a failed line; to a line in a chunk
    (∀ one b : Bool, let x := aStore (if one then 1 else BitVec.allOnes 64) { peer := none, pa := 0x200040 }
      let s := { perform0 { Order.reset with released := [x] } with bad := if b then [(0x200040 / 64, true)] else [] }
      (coreArch s 0).order.released = [x] ∧ storeReady s 0 x = true ∧ isHole x.loc.pa = false ∧ (takeToken s 0 x.ident).1 = true ∧
      registered s x.loc.pa = none ∧ memWf s.far = true ∧ linesOk s = true ∧ (mergesAt s (gangOf s 0) x.loc.pa ↔ b = false)) ∧
    (∀ one : Bool, let x := aStore (if one then 1 else BitVec.allOnes 64) { peer := none, pa := 0x200000 }
      let s := held0 { Order.reset with released := [x] }
      (coreArch s 0).order.released = [x] ∧ storeReady s 0 x = true ∧ isHole x.loc.pa = false ∧ heldByChunk s 0 0x200000 0 aChunk ∧
      (takeWithRecalls s 0 x.ident [x.loc]).1 = true) ∧
    -- atomics, of memory and of a chunk; a `cas` that matches and one that does not
    (∀ r ∈ atomics, ∀ e ∈ [0, 3], ∀ b : Bool, let k : FarKind := .atom r.2.1 1 (BitVec.ofNat 64 e) 3; let o := { Order.reset with far := [farOf k aPart] }
      let s := if b then held0 o else perform0 o
      (coreArch s 0).order.far = [farOf k aPart] ∧ isLive (getCore s 0) = true ∧ partReady s 0 (farOf k aPart) aPart = true ∧ aPart.loc.pa % 8 = 0 ∧
      (takeToken s 0 aPart.ident).1 = true ∧ mergesAt s (gangOf s 0) 0x200000 ∧ slotOpen s 0x200000 = false ∧ memWf s.far = true ∧
      (b = true → heldByChunk s 0 0x200000 0 aChunk ∧ (takeWithRecalls s 0 aPart.ident [aPart.loc]).1 = true) ∧
      (b = false → registered s 0x200000 = none) ∧
      decide ((BitVec.ofNat 64 (leNat (memReadN s.stash (chunkBase 0 + aPart.loc.pa % 64) 8)) : Word) = BitVec.ofNat 64 e) = decide (e = 0)) ∧
    -- the same of a peer, and of a peer's line that a chunk holds
    (∀ k ∈ [FarKind.load, .atom 9 1 2 5], ∀ b : Bool, let o := { Order.reset with far := [farOf k peerPart] }
      let s := if b then peerHeld0 o else perform0 o
      (coreArch s 0).order.far = [farOf k peerPart] ∧ partReady s 0 (farOf k peerPart) peerPart = true ∧ (takeToken s 0 peerPart.ident).1 = true ∧
      holderOf s peerPart.loc = (if b then some 0 else none) ∧ (recallToken s peerPart.loc).1 = true) ∧
    (∀ b : Bool, let x := aStore 1 { peer := some 1, pa := 0x200000 }; let o := { Order.reset with released := [x] }
      let s := if b then peerHeld0 o else perform0 o
      (coreArch s 0).order.released = [x] ∧ storeReady s 0 x = true ∧ (takeToken s 0 x.ident).1 = true ∧
      holderOf s x.loc = (if b then some 0 else none) ∧ (recallToken s x.loc).1 = true) ∧
    getChunk (peerHeld0 Order.reset) 0 = some aChunk ∧ aChunk.dirty = true ∧ aChunk.mask ≠ 0 := by
  refine ⟨by decide +kernel, by unfold mergesAt; decide +kernel, by unfold heldByChunk mergesAt; decide +kernel,
    by unfold heldByChunk mergesAt; decide +kernel, by decide +kernel, by decide +kernel, by decide +kernel⟩

/-- Core 0 of a state as given. -/
def core0 (x : Core) : State := { State.reset with cores := [(0, x)] }

/-- An arch at a safe point and checkpoint boundary, with the limits of R225 and R229 reached and an engine event pending. -/
def busyArch : CoreArch :=
  { CoreArch.reset with order := { Order.reset with sinceCommit := 65536, farCount := 64, engEvents := [(4, 7)] },
                        seq := { Sequencer.reset with atCk := true, atSafe := true }, csr := { Csrs.reset with uie := true } }

theorem witness_CoreEvents :
    (let x := { Core.reset with status := .bound, arch := busyArch, freezeDog := 2 ^ 20, waitDog := 2 ^ 26, mark := some { periods := 2 ^ 20 } }
     let y := getCore (core0 x) 0
     65536 ≤ y.arch.order.sinceCommit ∧ 64 ≤ y.arch.order.farCount ∧ y.arch.seq.atCk = true ∧ y.arch.seq.stall = 0 ∧ y.arch.seq.wait = none ∧
     y.status = .bound ∧ y.rerun = none ∧ 2 ^ 20 ≤ y.freezeDog ∧ 2 ^ 26 ≤ y.waitDog ∧ y.mark = some { periods := 2 ^ 20 } ∧ y.jn.windowOpen = false ∧
     y.arch.order.engEvents = [(4, 7)] ∧ y.arch.csr.uie = true ∧ y.arch.seq.handler = none ∧ y.arch.seq.atSafe = true) ∧
    (getCore (core0 { Core.reset with status := .bound, jn := { Journal.reset with windowOpen := true } }) 0).jn.windowOpen = true ∧
    -- an error reported of no hop, of a line's hop, and of an access's, with one access in flight that has performed and one that has not
    (let l := [farOf .load { aPart with done := some (1, [], false) }, farOf .load aPart]
     let s := core0 { Core.reset with status := .bound, arch := { CoreArch.reset with order := { Order.reset with far := l } } }
     (getCore s 0).status = .bound ∧ (getCore s 0).rerun = none ∧ (getCore s 0).jn.windowOpen = false ∧ (coreArch s 0).order.far = l ∧
     (∀ f ∈ l, f.ord = 8) ∧ isHbm 0x200000 = true) ∧
    -- a second rerun of no writes at its end point, 0
    (let r : Rerun := { first := some (0, signature []), left := 0, stop := 0, spent := 9, loads := [], writes := [], errs := false }
     let s := { core0 { Core.reset with status := .bound, rerun := some r } with quads := [(0, { Quad.reset 0 with hold := some 0 })] }
     let y := getCore s 0
     (getQuad s 0).hold = some 0 ∧ y.rerun = some r ∧ r.left = 0 ∧ r.stop ≤ y.arch.csr.cyc ∧ y.jn.windowOpen = false ∧
     r.first = some (y.arch.csr.cyc, signature r.writes) ∧ r.errs = false) :=
  ⟨by decide +kernel, by decide +kernel, by decide +kernel, rfl, rfl, rfl, by decide +kernel, rfl, rfl, rfl⟩

/-- A copy of 4 bytes from 0 to the last word of the stash. -/
def copyCmd : EngCmd := { makeCmd State.reset .copy SVal.zero with dst := BitVec.ofNat 64 4161532, len := 4 }
def fenceCmd : EngCmd := { makeCmd State.reset .copy SVal.zero with op := .fence 1 (BitVec.ofNat 5 17) }
def withQueue (a b : List EngCmd) : State :=
  temp 4161536 { running { CoreArch.reset with q := vset (vset CoreArch.reset.q 0 { EngQueue.reset with cmds := a }) 4 { EngQueue.reset with cmds := b } } with
    todo := [], served := true }

theorem witness_CommandEvents :
    (let s := withQueue [copyCmd] []
     (vget (coreArch s 0).q 0).cmds = [copyCmd] ∧ copyCmd.op = .copy ∧ startReady s 0 0 copyCmd = true ∧ copyCmd.asked = 0 ∧ copyCmd.elem = 0 ∧
     copyCmd.block = [] ∧ copyCmd.nest.getLsbD 22 = false ∧ copyCmd.len.toNat = 4 ∧ engAddr copyCmd.src = some (.near 0) ∧
     engAddr copyCmd.dst = some (.near 4161532) ∧ stashBad s 0 0 4 = false ∧ memWf s.stash = true ∧ s.chunks = []) ∧
    nearEa copyCmd.src 0 ∧ nearEa copyCmd.dst 4161532 ∧ tempIn (withQueue [copyCmd] []) 0 0 4 ∧ tempIn (withQueue [copyCmd] []) 0 4161532 4 ∧
    (∀ op ∈ [EngOp.copy, .sattn, .callred], let d := { copyCmd with op := op, done := some 7, word := 1 }
     let s := withQueue [] [d]
     (vget (coreArch s 0).q 4).cmds = [d] ∧ d.done = some 7 ∧ d.waitFor = [] ∧ d.word.getLsbD 0 = true ∧ taskOver (getCore s 0) = false) ∧
    (let s := withQueue [fenceCmd] [fenceCmd]
     fenceCmd.op = .fence 1 (BitVec.ofNat 5 17) ∧
     ∀ j : Fin 5, (BitVec.ofNat 5 17).getLsbD j.val = true → (vget (coreArch s 0).q j).cmds = [fenceCmd]) :=
  ⟨by decide +kernel, by unfold nearEa; decide +kernel, by unfold nearEa; decide +kernel, tempIn_temp _ _ _ (by omega) (by omega),
   tempIn_temp _ _ _ (by omega) (by omega), by decide +kernel, by decide +kernel⟩

/-! Gangs, launches and replies. -/

/-- Block 5: world 1 of tenant 1, a ring of two entries in its one leased page, segment 7, record 0. -/
def aBlock (state shape hint : Nat) : BitVec 2048 :=
  BitVec.ofNat 2048 (state + 2 ^ 32 + 2 ^ 48 + 2 ^ (8 * 8 + 21) + 2 ^ (8 * 0x14) + 2 ^ (8 * 0x18) + shape * 2 ^ (8 * 0x19) + 7 * 2 ^ (8 * 0x28) +
    hint * 2 ^ (8 * 0x38) + 2 ^ (8 * 0x43) + (2 ^ 47 + 1) * 2 ^ (8 * 0x80))

def aSeg : Segment :=
  { ident := 7, content := [], measure := 0, shared := false, worlds := [1], recs := [0], code := [[]], near := [[]], far := [[]],
    measures := [codeMeasure []] }
def anOrigin : Origin := { port := 7, mac := 0, tag := none, v6 := false, src := 2, dst := 1, dscp := 0, udp := 0, udpDst := 47334 }
def aReq (ix arrived : Nat) : Request :=
  { ctx := 5, ix := ix, port := 7, session := 3, rid := 9, digest := 0, origin := anOrigin, arrived := arrived, entry := [] }

/-- Quad 0 with four cores, a gang of it, and block 5. -/
def house (now : Nat) (cs : List Core) (g : List (Nat × Gang)) (h : Hub) (b : BitVec 2048) : State :=
  { State.reset with now := now, cores := cs.zipIdx.map (fun e => (e.2, e.1)), hub := { h with blocks := [(5, b)], gangs := g, segs := [(7, aSeg)] } }

def safeArch : CoreArch := { CoreArch.reset with seq := { Sequencer.reset with atSafe := true } }
def anImage : Image :=
  { version := 0, header := { format := 1, ctx := 5, world := 1, shape := 0, quads := [0], chans := [], duty := 16, yields := [] }, cores := [0, 1, 2, 3].map (fun c => (c, { status := .stopped, arch := CoreArch.reset, rolls := 0, ckaddr := 0 })), bytes := [], bad := [],
    tags := [], streams := [], windows := [] }
def aReply (since : Nat) : ReplyDue := { req := aReq 0 0, cls := 0x81, status := 0, body := [], since := since }
def aSession (role : Nat) : Session := { world := 1, role := role, key := 0, sq := SeqState.reset }

theorem witness_GangEvents :
    -- a marked member at a safe point while another runs
    (let s := house 0 [{ member .bound safeArch with mark := some { periods := 0 } }, member .bound CoreArch.reset] [(5, aGang)] Hub.reset 0
     (getCore s 0).status = .bound ∧ (getCore s 0).rerun = none ∧ (getCore s 0).mark.isSome = true ∧ (getCore s 0).gang = some 5 ∧
     getGang s 5 = some aGang ∧
     atSafePoint (coreArch s 0) = true ∧ 1 ∈ gangCores aGang ∧ (getCore s 1).status = .bound) ∧
    -- every member stopped
    (let g := { aGang with st := .stopping }
     let s := house 0 (List.replicate 4 (member .stopped CoreArch.reset)) [(5, g)] Hub.reset 0
     (getCore s 0).status = .stopped ∧ (getCore s 0).gang = some 5 ∧ getGang s 5 = some g ∧ g.ctx = 5 ∧ savable s g = true ∧ g.remap = [] ∧ flushAskable s g = true ∧
     ∀ q ∈ g.quads, (getQuad s q).windows = []) ∧
    -- a resumption whose time has come
    (let g := { aGang with st := .resuming 7, image := some anImage }
     let s := house 7 [] [(5, g)] Hub.reset 0
     getGang s 5 = some g ∧ g.ctx = 5 ∧ g.st = .resuming 7 ∧ g.image = some anImage ∧ 7 ≤ s.now ∧ s.hub.xfers = [] ∧
     anImage.cores.map (·.1) = gangCores g ∧ (gangCores g).Nodup ∧ anImage.version = g.saves ∧
     ∀ e ∈ anImage.cores, e.2.arch.anv.shadow.loaded = false ∧ e.2.arch.anv.active.loaded = false ∧ (vget e.2.arch.q 3).cmds = []) ∧
    -- every member completed, the route at its end
    (let g := { aGang with record := BitVec.ofNat 8192 (0xFFFF * 2 ^ 32) }
     let s := house 0 (List.replicate 4 (member (.completed 0) CoreArch.reset)) [(5, g)] { Hub.reset with reqs := [aReq 0 0] } (aBlock stRunning 0 0)
     getGang s 5 = some g ∧ g.ctx = 5 ∧ gangDone s g = true ∧ (∀ q ∈ g.quads, (getQuad s q).windows = []) ∧ flushAskable s g = true ∧ s.hub.unsettled = [] ∧ s.hub.xfers = [] ∧
     g.cause = none ∧ recDyn g.record = false ∧ recNext g.record = 0xFFFF ∧ reqOf s 5 g.ix = some (aReq 0 0)) ∧
    -- a head that has waited 10 ms
    (let s := house 9400000 [] [] { Hub.reset with reqs := [aReq 0 0] } (aBlock stReady 0 0)
     headSince s 5 = some 0 ∧ 0 + 9400000 ≤ s.now) ∧
    -- a quad idle for 100 µs
    (let s := { house 94000 [] [] Hub.reset 0 with quads := [(0, { Quad.reset 0 with power := .clockGated })] }
     (getQuad s 0).power ≠ .gated ∧ (getQuad s 0).busy = none ∧ (getQuad s 0).idleSince + 94000 ≤ s.now ∧ heldForStopped s 0 = false ∧
     reservedFor s 16384 0 = false) ∧
    -- a reply due, its port with and without a link
    (∀ b : Bool, let s := { house 96 [] [] { Hub.reset with replies := [aReply 0], sessions := [(3, aSession 0)] } 0 with
                       edge := { Edge.reset with links := if b then 0x80 else 0 } }
     dueReply s 5 = some (aReply 0) ∧ getSession s (aReply 0).req.session = some (aSession 0) ∧ (aSession 0).sq.out < 2 ^ 63 ∧
     s.edge.links.getLsbD (aReply 0).req.port = b) := by decide +kernel

/-- A waiting request of block 5 for `shape`, its quads' instruction memory loaded and the quad awake as said. -/
def placing (shape hint : Nat) (resume : Bool) (p : Power) (down : Bool) : State :=
  { house 0 (List.replicate 4 { Core.reset with loadedFor := some (1, 7, 0) }) (if resume then [(5, { aGang with st := .stopped })] else [])
      { Hub.reset with bind := [(5, { newBinding 0 0 with resume := resume })], reqs := [aReq 0 0] } (aBlock stReady shape hint) with
    quads := [(0, { Quad.reset 0 with power := p })], dies := (List.range 8).map (fun d => (d, { Die.reset with down := down })) }

def stageOf (st : BindStage) : State :=
  house 100 [] [] { Hub.reset with bind := [(5, { newBinding 0 0 with stage := st })], reqs := [aReq 0 0] } (aBlock stBinding 0 0 &&& ~~~(BitVec.ofNat 2048 (2 ^ (8 * 0x43))))

theorem witness_LaunchEvents :
    (let s := placing 0 0 true .awake false
     (nextToPlace s).map (·.1) = some 5 ∧ (nextToPlace s).map (·.2.resume) = some true ∧ s.hub.placeAt ≤ s.now ∧ (getGang s 5).isSome = true) ∧
    (let s := placing 0 (2 ^ 63 + 1) false .awake false
     let w := wantOf 5 (getBlock s 5) 0 0
     (nextToPlace s).map (·.2.resume) = some false ∧ routeRec s 5 0 = some 0 ∧ buffersFree s w.world 0 = true ∧ w.n = 1 ∧ hintQuads s w (blkHint (getBlock s 5)) = some [0]) ∧
    (let s := placing 6 0 false .gated true
     let w := wantOf 5 (getBlock s 5) 0 0
     (nextToPlace s).map (·.2.resume) = some false ∧ w.n = 48 ∧ hintQuads s w (blkHint (getBlock s 5)) = none ∧
     bestCand (candidates s w 112) = none) ∧
    (let s := placing 0 0 false .awake false
     let w := wantOf 5 (getBlock s 5) 0 0
     hintQuads s w (blkHint (getBlock s 5)) = none ∧ (bestCand (candidates s w 112)).map (·.kind) = some 0) ∧
    (∀ st ∈ [BindStage.broadcast [0] 100 [] 9024 0, .broadcast [0] 100 [6] 0 0, .waking [0] 100 40, .unsealing [0] 100 40, .starting [0] 100],
      (getBind (stageOf st) 5).map (·.stage) = some st ∧ routeRec (stageOf st) 5 0 = some 0) ∧
    (let s := stageOf (.unsealing [0] 100 40)
     reqOf s 5 0 = some (aReq 0 0) ∧ quadWarm s (blkWorld (getBlock s 5)) 5 0 0 0 = false) ∧
    (let s := stageOf (.starting [0] 100)
     (getBind s 5).map (fun b => entryReady s 5 b 0 [0]) = some true) := by decide +kernel

/-- A state whose segment has another measurement recorded, and one whose record names a near image of one line. -/
def mismeasured (s : State) : State := { s with hub := { s.hub with segs := [(7, { aSeg with measures := [codeMeasure [] + 1] })] } }
def imaged (s : State) : State :=
  { s with hub := { s.hub with segs := [(7, { aSeg with recs := [BitVec.ofNat 8192 (2 ^ (8 * 0x10 + 16) + 64 * 2 ^ (8 * 0x20 + 22))], near := [List.replicate 64 0] })] } }

theorem measured_house (now : Nat) (cs : List Core) (g : List (Nat × Gang)) (h : Hub) (b : BitVec 2048) (h1 : blkSegment b = 7) (h2 : blkWorld b = 1)
    (h3 : recNo b 0 = 0) :
    measuredRight (house now cs g h b) 5 0 = true ∧ measuredRight (mismeasured (house now cs g h b)) 5 0 = false := by
  have hb : getBlock (house now cs g h b) 5 = b := rfl
  have hm : getBlock (mismeasured (house now cs g h b)) 5 = b := rfl
  have hs : segOf (house now cs g h b) 5 = some aSeg := by simp only [segOf, hb, h1, h2]; rfl
  have hw : segOf (mismeasured (house now cs g h b)) 5 = some { aSeg with measures := [codeMeasure [] + 1] } := by
    simp only [segOf, hm, h1, h2]; rfl
  constructor
  · simp only [measuredRight, recCode, hs, hb, h3]; exact decide_eq_true rfl
  · simp only [measuredRight, recCode, hw, hm, h3]
    exact decide_eq_false (fun h => by
      have h : codeMeasure [] = codeMeasure [] + 1 := h
      bv_omega)

/-- A resumption with the schedule as sealed, with another, and with an image that is not the newest. -/
theorem witness_GangEvents_resume :
    let g := { aGang with st := .resuming 7, image := some anImage }
    let s := house 7 [] [(5, g)] Hub.reset (aBlock stStopped 0 0)
    measuredRight s 5 g.recIx = true ∧ measuredRight (mismeasured s) 5 g.recIx = false ∧ anImage.version ≠ { g with saves := 1 }.saves ∧
    getGang (mismeasured s) 5 = some g := by
  have h := measured_house 7 [] [(5, { aGang with st := .resuming 7, image := some anImage })] Hub.reset (aBlock stStopped 0 0) (by decide +kernel)
    (by decide +kernel) (by decide +kernel)
  exact ⟨h.1, h.2, by decide, rfl⟩

/-- A launch whose quad is withdrawn; one whose victim is saved; a schedule as sealed and another; a near image that is read first, or is read. -/
theorem witness_LaunchEvents_steps :
    (let s := { stageOf (.waking [0] 100 40) with quads := [(0, { Quad.reset 0 with withdrawn := true })] }
     (getBind s 5).map (quadsGone s) = some true) ∧
    (∀ st ∈ [BindStage.broadcast [0] 100 [6] 0 0, .waking [0] 100 40, .unsealing [0] 100 40, .imaging [0] 100 40, .starting [0] 100, .stopping [0] [6]],
      (getBind (stageOf st) 5).map (quadsGone (stageOf st)) = some false ∧ (getBind (stageOf st) 5).map (·.stage) = some st) ∧
    victimsSaved (stageOf (.stopping [0] [6])) [6] = true ∧ (getQuad (stageOf (.stopping [0] [6])) 0).busy = none ∧
    measuredRight (stageOf (.unsealing [0] 100 40)) 5 0 = true ∧ measuredRight (mismeasured (stageOf (.unsealing [0] 100 40))) 5 0 = false ∧
    coldImage (stageOf (.unsealing [0] 100 40)) 5 0 0 = 0 ∧
    (let s := imaged (stageOf (.unsealing [0] 100 40))
     (routeRec s 5 0).map (coldImage s 5 0) = some 513) := by
  have h := measured_house 100 [] [] { Hub.reset with bind := [(5, { newBinding 0 0 with stage := .unsealing [0] 100 40 })], reqs := [aReq 0 0] }
    (aBlock stBinding 0 0 &&& ~~~(BitVec.ofNat 2048 (2 ^ (8 * 0x43)))) (by decide +kernel) (by decide +kernel)
    (by decide +kernel)
  exact ⟨by decide +kernel, by decide +kernel, by decide +kernel, by decide +kernel, h.1, h.2, by decide +kernel, by decide +kernel⟩

/-! The pod, the ports and the host. -/

def aGroup : PodGroup := { members := [0, 1], channels := 16, mine := [], theirs := [], released := [], parts := [] }
def aXfer (kind resends : Nat) : PodXfer :=
  { num := 4, core := 0, ident := 9, kind := kind, peer := 1, world := 1, cls := 0x41, fn := 0, pa := 0, mask := 0, data := [], stamp := 0,
    sentAt := 0, resends := resends }
def aFrame (cls : Nat) (fcs : Bool) : UFrame :=
  { fcsOk := fcs, tag := [], version := 1, cls := cls, reserved := 0, reserved2 := 0, ctx := 5, session := 3, rid := 9, seq := 0, len := 0, status := 0,
    modid := 0, payload := 56, body := [], origin := anOrigin }
def aSend : SentInvoke := { ctx := 5, entry := 0, session := 3, rid := 9, dest := 0, sentAt := 0 }

/-- R343, the worked header: CLASS 0x01, CTX 0x0A3C, SESSION 0x0041, RID 0x5A17, SEQ 31, LEN 64, to module 3,079. -/
theorem test_header_bytes :
    headerBytes { aFrame 1 true with ctx := 0x0A3C, session := 0x41, rid := 0x5A17, seq := 31, len := 64, modid := 3079 } =
      [0x01, 0x01, 0, 0, 0x3C, 0x0A, 0x41, 0, 0x17, 0x5A, 0, 0, 0, 0, 0, 0, 0x1F, 0, 0, 0, 0, 0, 0, 0,
       0x40, 0, 0, 0, 0, 0, 0, 0, 0x07, 0x0C, 0, 0, 0, 0, 0, 0] := by decide

/-- R343 and R358, the worked nonces. -/
theorem test_nonces : frameNonce 0x41 31 false = 0x00000041000000000000001F ∧
    frameNonce 9 40 true = 0x000100090000000000000028 := by decide

/-- R343, R358: the request of 64 body bytes is 186 bytes over IPv6, the reply of 68 is 190. -/
theorem test_frame_bytes (w : Way) (h : w.tag = none) (h6 : w.v6 = true) : frameBytes w 64 = 186 ∧ frameBytes w 68 = 190 := by
  simp [frameBytes, h, h6]

/-- A hub with transfers, a group, an exported frame, session 3 of a role, and the addresses of modules 0 and 1. -/
def podHub (xs : List PodXfer) (role : Nat) : Hub :=
  { Hub.reset with exports := [(1, 1)], xfers := xs, groups := [(255, aGroup)], sessions := [(3, aSession role)], sends := [aSend], bells := [5],
                   addrTable := [(0, { v4 := some 1, v6 := none, mac := 0, ports := 255 }), (1, { v4 := some 2, v6 := none, mac := 0, ports := 255 })] }

def podState (now : Nat) (xs : List PodXfer) (role qhead : Nat) : State :=
  { house now [] [] (podHub xs role) (aBlock stIdle 0 0 ||| BitVec.ofNat 2048 (qhead * 2 ^ (8 * 0x10) + 0x200000 * 2 ^ (8 * 0x48))) with
    edge := { Edge.reset with boot := { Boot.reset with stage := 2 }, podKey := some 0 } }

/-- The same with an answer to module 1's transfer 4 on record. -/
def answered4 : State :=
  let s := podState 0 [] 0 0
  { s with hub := { s.hub with answered := [(4, 1, { xfer := 4, result := 0, data := [] })] } }

/-- A frame under the tag of its session's key. -/
def tagged (s : State) (f : UFrame) (dir : Bool) : UFrame := { f with tag := frameTag s f dir }
theorem tagGood_tagged (s : State) (f : UFrame) (dir : Bool) : tagGood s (tagged s f dir) dir = true := decide_eq_true rfl

/-- A frame of session 0 from module 1 with a body. -/
def podFrame (cls : Nat) (body : List Byte) : UFrame :=
  { aFrame cls true with session := 0, ctx := 0, rid := 4, len := body.length, payload := 56 + body.length, body := body }

theorem podPasses_tagged {s : State} {cls : Nat} {f : UFrame} {src : Nat}
    (h : arrives s f ∧ f.session = 0 ∧ s.edge.podKey.isSome = true ∧ podSender s f.origin = some src ∧ (getPeer s src).fresh f.seq = true ∧
      headerFault f (fun c => decide (c = cls)) (modIdent s) = none ∧ f.cls = cls ∧ f.ctx = 0) : podPasses s cls (tagged s f false) src :=
  ⟨h.1, h.2.1, h.2.2.1, h.2.2.2.1, h.2.2.2.2.1, tagGood_tagged s f false, h.2.2.2.2.2.1, h.2.2.2.2.2.2.1, h.2.2.2.2.2.2.2⟩

/-- The body of a transfer 4 to world 1's frame 1, with data or without. -/
def askBody (fn : Nat) (data : List Byte) : List Byte :=
  leBytes 4 4 ++ leBytes 1 2 ++ leBytes fn 1 ++ leBytes 0 1 ++ leBytes 0x200000 8 ++ List.replicate 16 0#8 ++ data
def askOf (fn : Nat) (data : List Byte) : PodReq := { src := 1, xfer := 4, world := 1, fn := fn, paddr := 0x200000, mask := 0, data := data }

/-- The body of a PCOLL of group 255 and channel 15. -/
def collBody (kind : Nat) (data : List Byte) : List Byte :=
  leBytes 255 2 ++ leBytes 15 1 ++ leBytes kind 1 ++ leBytes 0 4 ++ leBytes 4 4 ++ List.replicate 8 0#8 ++ leBytes data.length 4 ++ List.replicate 8 0#8 ++ data
def collOf (kind : Nat) (data : List Byte) : PColl :=
  { src := 1, group := 255, channel := 15, kind := kind, phase := 0, xfer := 4, op := 0, fnfmt := 0, root := 0, offset := 0, total := data.length,
    data := data, tasks := 1 }

/-- Transfers for the frame exported to world 1, served and not (fewer exports, an answer on record); their answer; their resends. -/
theorem witness_PodEvents_transfers :
    (∀ e ∈ [(0x40, 0, ([] : List Byte)), (0x41, 0, List.replicate 64 1#8)], let s := podState 0 [] 0 0; let f := podFrame e.1 (askBody e.2.1 e.2.2)
      podPasses s e.1 (tagged s f false) 1 ∧ podAsks 1 f (askOf e.2.1 e.2.2) ∧ serves s (askOf e.2.1 e.2.2) ∧ (askOf e.2.1 e.2.2).paddr % 64 = 0 ∧
      f.len = 32 + e.2.2.length ∧ slotOpen s (podPa (askOf e.2.1 e.2.2) / 64 * 64) = false) ∧
    (∀ k ∈ atomics, let d := List.replicate 16 1#8 ++ List.replicate 48 0#8; let s := podState 0 [] 0 0; let f := podFrame 0x42 (askBody k.2.1 d)
      podPasses s 0x42 (tagged s f false) 1 ∧ podAsks 1 f (askOf k.2.1 d) ∧ serves s (askOf k.2.1 d) ∧ f.len = 96 ∧ leNat (d.drop 16) = 0) ∧
    (podPasses answered4 0x40 (tagged answered4 (podFrame 0x40 (askBody 0 [])) false) 1 ∧ (recorded answered4 1 4).isSome = true) ∧
    (let s := { podState 0 [] 0 0 with hub := { (podState 0 [] 0 0).hub with exports := [] } }
     podPasses s 0x40 (tagged s (podFrame 0x40 (askBody 0 [])) false) 1 ∧ recorded s 1 4 = none ∧ isExported s (askOf 0 []) = false) ∧
    (∀ n ∈ [0, 2], let s := podState 0 [{ aXfer 3 0 with cls := 0x41 }] 0 0; let f := podFrame 0x43 (leBytes 4 4 ++ leBytes n 4)
      podPasses s 0x43 (tagged s f false) 1 ∧
      s.hub.xfers.find? (fun x => decide (x.num = f.rid ∧ x.kind ≠ 4 ∧ s.edge.podid * 1024 + x.peer = 1)) = some { aXfer 3 0 with cls := 0x41 } ∧
      leNat (f.body.take 4) = f.rid ∧ leNat ((f.body.drop 5).take 3) = 0 ∧ f.len = 8 ∧ leNat ((f.body.drop 4).take 1) = n) ∧
    (∀ k ∈ [(3, 7), (3, 8), (4, 9)], let s := podState 15040 [aXfer k.1 k.2] 0 0
      s.hub.xfers.find? (fun x => x.num = 4) = some (aXfer k.1 k.2) ∧ (aXfer k.1 k.2).sentAt + 15040 ≤ s.now) := by
  refine ⟨fun e he => ?_, fun k hk => ?_, ⟨podPasses_tagged (by unfold arrives; decide +kernel), by decide +kernel⟩,
    ⟨podPasses_tagged (by unfold arrives; decide +kernel), by decide +kernel, by decide +kernel⟩, fun n hn => ?_, by decide +kernel⟩
  · have h : ∀ e ∈ [(0x40, 0, ([] : List Byte)), (0x41, 0, List.replicate 64 1#8)], let s := podState 0 [] 0 0; let f := podFrame e.1 (askBody e.2.1 e.2.2)
        (arrives s f ∧ f.session = 0 ∧ s.edge.podKey.isSome = true ∧ podSender s f.origin = some 1 ∧ (getPeer s 1).fresh f.seq = true ∧
          headerFault f (fun c => decide (c = e.1)) (modIdent s) = none ∧ f.cls = e.1 ∧ f.ctx = 0) ∧
        podAsks 1 f (askOf e.2.1 e.2.2) ∧ serves s (askOf e.2.1 e.2.2) ∧ (askOf e.2.1 e.2.2).paddr % 64 = 0 ∧
        f.len = 32 + e.2.2.length ∧ slotOpen s (podPa (askOf e.2.1 e.2.2) / 64 * 64) = false := by
      unfold arrives podAsks serves lineTakes; decide +kernel
    exact ⟨podPasses_tagged (h e he).1, (h e he).2⟩
  · have h : ∀ k ∈ atomics, let d := List.replicate 16 1#8 ++ List.replicate 48 0#8; let s := podState 0 [] 0 0; let f := podFrame 0x42 (askBody k.2.1 d)
        (arrives s f ∧ f.session = 0 ∧ s.edge.podKey.isSome = true ∧ podSender s f.origin = some 1 ∧ (getPeer s 1).fresh f.seq = true ∧
          headerFault f (fun c => decide (c = 0x42)) (modIdent s) = none ∧ f.cls = 0x42 ∧ f.ctx = 0) ∧
        podAsks 1 f (askOf k.2.1 d) ∧ serves s (askOf k.2.1 d) ∧ f.len = 96 ∧ leNat (d.drop 16) = 0 := by
      unfold arrives podAsks serves lineTakes; decide +kernel
    exact ⟨podPasses_tagged (h k hk).1, (h k hk).2⟩
  · have h : ∀ n ∈ [0, 2], let s := podState 0 [{ aXfer 3 0 with cls := 0x41 }] 0 0; let f := podFrame 0x43 (leBytes 4 4 ++ leBytes n 4)
        (arrives s f ∧ f.session = 0 ∧ s.edge.podKey.isSome = true ∧ podSender s f.origin = some 1 ∧ (getPeer s 1).fresh f.seq = true ∧
          headerFault f (fun c => decide (c = 0x43)) (modIdent s) = none ∧ f.cls = 0x43 ∧ f.ctx = 0) ∧
        s.hub.xfers.find? (fun x => decide (x.num = f.rid ∧ x.kind ≠ 4 ∧ s.edge.podid * 1024 + x.peer = 1)) = some { aXfer 3 0 with cls := 0x41 } ∧
        leNat (f.body.take 4) = f.rid ∧ leNat ((f.body.drop 5).take 3) = 0 ∧ f.len = 8 ∧ leNat ((f.body.drop 4).take 1) = n := by
      unfold arrives; decide +kernel
    exact ⟨podPasses_tagged (h n hn).1, (h n hn).2⟩

/-- Collective messages of every kind, new and on record. -/
theorem witness_PodEvents_collectives :
    ∀ e ∈ [(0, ([] : List Byte)), (1, []), (2, [1, 2, 3, 4]), (3, [1, 2, 3, 4]), (4, [])], ∀ b : Bool,
      let s := if b then answered4 else podState 0 [] 0 0
      let x : CollFrame := { frame := podFrame 0x50 (collBody e.1 e.2), tasks := 1 }
      podPasses s 0x50 (tagged s x.frame false) 1 ∧ collSays 1 x (collOf e.1 e.2) ∧ (collOf e.1 e.2).kind = e.1 ∧ getGroup s 255 = some aGroup ∧
      aGroup.members.contains 1 = true ∧ (collOf e.1 e.2).channel < aGroup.channels ∧ (2 ≤ e.1 → e.1 < 4 → fragmentOk (collOf e.1 e.2) = true) ∧
      (recorded s 1 4).isSome = b := by
  intro e he b
  have h : ∀ e ∈ [(0, ([] : List Byte)), (1, []), (2, [1, 2, 3, 4]), (3, [1, 2, 3, 4]), (4, [])], ∀ b : Bool,
      let s := if b then answered4 else podState 0 [] 0 0
      let x : CollFrame := { frame := podFrame 0x50 (collBody e.1 e.2), tasks := 1 }
      (arrives s x.frame ∧ x.frame.session = 0 ∧ s.edge.podKey.isSome = true ∧ podSender s x.frame.origin = some 1 ∧ (getPeer s 1).fresh x.frame.seq = true ∧
        headerFault x.frame (fun c => decide (c = 0x50)) (modIdent s) = none ∧ x.frame.cls = 0x50 ∧ x.frame.ctx = 0) ∧
      collSays 1 x (collOf e.1 e.2) ∧ (collOf e.1 e.2).kind = e.1 ∧ getGroup s 255 = some aGroup ∧
      aGroup.members.contains 1 = true ∧ (collOf e.1 e.2).channel < aGroup.channels ∧ (2 ≤ e.1 → e.1 < 4 → fragmentOk (collOf e.1 e.2) = true) ∧
      (recorded s 1 4).isSome = b := by
    unfold arrives collSays; decide +kernel
  exact ⟨podPasses_tagged (h e he b).1, (h e he b).2⟩

/-- Invocations that are dropped, that go to the management path, and one that joins a ring of two with one request in it (a full ring is the case shut
out); a reply to a sent request; a send ring with no entry, with too many, at a bad place; a timeout. -/
theorem witness_PodEvents_ports :
    (aFrame 1 false).fcsOk = false ∧ 9216 < arrivedBytes { aFrame 1 true with payload := 9200 } ∧ answers State.reset = false ∧
    (let s := podState 0 [] 0 0
     (aFrame 1 true).fcsOk = true ∧ arrivedBytes (aFrame 1 true) ≤ 9216 ∧ answers s = true ∧ (1 : BitVec 16).toNat ≠ uludinPort ∧
     ownAddress s (aFrame 1 true).origin.v6 ≠ some 9) ∧
    (let s := podState 0 [] 0 0
     accepted s (tagged s (aFrame 15 true) false) 0 (aSession 0) ∧ requestFault s (aFrame 15 true) 1 = none ∧ blkState (getBlock s 5) ≠ stHalted ∧
     ringFault s 5 = none ∧ (blkQtail (getBlock s 5) + 2 ^ 32 - blkQhead (getBlock s 5)) % 2 ^ 32 = 1 ∧ 2 ^ blkQlog2 (getBlock s 5) = 2) ∧
    (let s := podState 0 [] 1 0
     accepted s (tagged s (aFrame 0x83 true) true) 1 (aSession 1) ∧
     s.hub.sends.find? (fun y => decide (y.session = (aFrame 0x83 true).session ∧ y.rid = (aFrame 0x83 true).rid)) = some aSend ∧
     headerFault (aFrame 0x83 true) (fun c => decide (c = 0x81 ∨ c = 0x82 ∨ c = 0x83)) aSend.dest = none) ∧
    (∀ b : Bool, let s := { podState 0 [] 0 0 with xlat := [(pageKey 5 1, makeLeaf true false 0 0 0)], far := if b then [(5, 2)] else [] }
      let hdr := hubRead s 5 (blkSendq (getBlock s 5)) 8
      s.hub.bells.contains 5 = true ∧ hubReady s false 5 (blkSendq (getBlock s 5)) 8 = true ∧ blkSendq (getBlock s 5) ≠ 0 ∧ sendRingOk s 5 = true ∧
      decide (256 < (leNat (hdr.drop 4) + 2 ^ 32 - leNat (hdr.take 4)) % 2 ^ 32) = b) ∧
    (let s := podState 0 [] 0 0
     sendRingOk { s with hub := { s.hub with blocks := [(5, aBlock stIdle 0 0 ||| BitVec.ofNat 2048 (0x400000 * 2 ^ (8 * 0x48)))] } } 5 = false) ∧
    entryFree (podState 0 [] 0 0) 5 0 = true ∧
    (takeSendTokens (podState 0 [] 0 0) 5 0).1 = false ∧
    (takeSendTokens { podState 0 [] 0 0 with dies := [(0, { Die.reset with granted := [sendIdent 5] })] } 5 0).1 = true ∧
    (let s := podState 940000000 [] 0 0
     s.hub.sends.find? (fun y => decide (y.session = aSend.session ∧ y.rid = aSend.rid ∧ y.sentAt + 940000000 ≤ s.now)) = some aSend) := by
  refine ⟨by decide +kernel, by decide +kernel, by decide +kernel, by decide +kernel,
    ⟨⟨by unfold arrives; decide +kernel, by decide, tagGood_tagged _ _ _, by decide +kernel, by decide, by decide +kernel⟩, by decide +kernel⟩,
    ⟨⟨by unfold arrives; decide +kernel, by decide, tagGood_tagged _ _ _, by decide +kernel, by decide, by decide +kernel⟩, by decide +kernel⟩,
    by decide +kernel, by decide +kernel, by decide +kernel, by decide +kernel, by decide +kernel, by decide +kernel⟩

/-- The host's view: booted to a stage, the interface of tenant 1 in a state, block 5 in a state. -/
def hosted (stage : Nat) (x : TdiState) (st : Nat) : State :=
  { house 0 [] [] { Hub.reset with tdi := [(1, x)] } (aBlock st 0 0) with
    hub := { Hub.reset with tdi := [(1, x)], blocks := [(5, aBlock st 0 0)] },
    edge := { Edge.reset with boot := { Boot.reset with stage := stage, sigsLeft := 1 } } }

/-- The same with the key 5 of world 1's model owner. -/
def owned (s : State) : State := { s with hub := { s.hub with modelKeys := [(1, 5)] } }

def aSub (signer : Option (BitVec 256)) (next : Nat) : Submission :=
  { ident := 7, content := [1], signer := signer, shared := false, world := 1, recs := [BitVec.ofNat 8192 (next * 2 ^ 32)], code := [[]], near := [[]],
    far := [[]] }

/-- A segment of what `aSub` submits, used by the worlds `l`. -/
def sealedSeg (l : List Nat) : Segment := { aSeg with content := [1], measure := Config.shake256 [1], worlds := l }
def sealing (l : List Nat) (s : State) : State := { s with hub := { s.hub with segs := [(7, sealedSeg l)] } }

/-- A chunk of a held quad has the line at 0x200000. -/
def heldLine : State := { held0 Order.reset with quads := [(0, { Quad.reset 0 with hold := some 0 })] }

theorem witness_HostEvents :
    -- writes to a block that is IDLE, and one that is RUNNING
    (let s := hosted 2 .unlocked stIdle
     blockWriteOk s 0 false 5 255 1 (writtenBlock s 5 255 1 0) = true) ∧
    (∀ st ∈ [stBinding, stRunning, stStopped, stUnsealing], blkState (getBlock (hosted 2 .unlocked st) 5) = st) ∧
    -- a group, a session
    (answers (hosted 2 .unlocked 1) = true ∧ membersOk [0, 1023] = true ∧ groupHeld (hosted 2 .unlocked 1) 255 = false) ∧
    (let s := hosted 2 .unlocked stIdle
     answers s = true ∧ getSession s 65535 = none ∧ ownObject s 1 false (worldTenant s 1) = true ∧ (tenantWorlds s 1).contains 1 = true) ∧
    -- segments: no key, another's signature, a bad route; one to be stored
    (let s := hosted 2 .unlocked stIdle
     modelKey s 1 = none ∧ (aSub (some 6) 0xFFFF).signer ≠ modelKey (owned s) 1 ∧ (aSub none 0xFFFF).signer ≠ modelKey (owned s) 1 ∧
     routeOk { aSub (some 5) 0xFFFF with near := [[1]] } = false) ∧
    (let s := owned (hosted 2 .unlocked stIdle)
     answers s = true ∧ (tenantWorlds s 1).contains (aSub (some 5) 0xFFFF).world = true ∧ modelKey s 1 = some 5 ∧
     routeOk (aSub (some 5) 0xFFFF) = true ∧ buffersOwn s (aSub (some 5) 0xFFFF) = true ∧ getSeg s 7 = none ∧ s.hub.segs = []) ∧
    -- assays: with signatures left, without, before boot step 6, with the index at its end
    (let s := hosted 3 .run stIdle
     s.edge.boot.stage = 3 ∧ s.edge.boot.longIndex + 1 < 2 ^ 20 ∧ 0 < s.edge.boot.sigsLeft ∧ (tenantWorlds s 1).contains 1 = true) ∧
    (let s := { hosted 3 .run stIdle with edge := { Edge.reset with boot := { Boot.reset with stage := 3, sigsLeft := 0 } } }
     s.edge.boot.stage = 3 ∧ s.edge.boot.longIndex + 1 < 2 ^ 20 ∧ s.edge.boot.sigsLeft = 0 ∧ (tenantWorlds s 1).contains 1 = true) ∧
    (hosted 2 .run stIdle).edge.boot.stage < 3 ∧ 2 ^ 20 ≤ ({ Boot.reset with longIndex := 2 ^ 20 } : Boot).longIndex ∧
    -- interfaces, registers
    (∀ x ∈ [TdiState.unlocked, .locked, .run, .error], getTdi (hosted 2 x stIdle) 1 = x ∧ answers (hosted 2 x stIdle) = true) ∧
    hostWriteOk (hosted 2 .run stIdle) 0 false (.identity 1023 255) = true ∧ hostWriteOk (hosted 2 .run stIdle) 0 false (.identity 1024 0) = false ∧
    (let s := { hosted 2 .unlocked stIdle with edge := { Edge.reset with boot := { Boot.reset with stage := 2 }, ide := [(1, 0)] } }
     answers s = true ∧ ideUp s 1 = true ∧ isLocked s 1 = false) := by decide +kernel

/-- A segment already stored, and its last and another world's release. -/
theorem witness_HostEvents_segments :
    sameSegment (owned (hosted 2 .unlocked stIdle)) (aSub (some 5) 0xFFFF) (Config.shake256 [1]) = none ∧
    sameSegment (sealing [1] (owned (hosted 2 .unlocked stIdle))) (aSub (some 5) 0xFFFF) (Config.shake256 (aSub (some 5) 0xFFFF).content) =
      some (7, sealedSeg [1]) ∧
    (∀ l, getSeg (sealing l State.reset) 7 = some (sealedSeg l) ∧ alRising none (sealing l State.reset).hub.segs = true) ∧
    (sealedSeg [1]).worlds = [1] ∧ (sealedSeg [1, 2]).worlds.erase 1 ≠ [] :=
  ⟨rfl, by simp [sameSegment, sealing, sealedSeg, aSub, aSeg], fun _ => ⟨rfl, rfl⟩, rfl, by simp [sealedSeg]⟩

/-- Host DMA at the last line before the reserved range and across its start, to lines that open, to one that has failed, to one of a held quad;
translations of the host. -/
theorem witness_HostEvents_memory :
    (∃ p ∈ pieces (0xC000000000 - 1) 2, isHole (64 * p.1) = true) ∧
    (∀ p ∈ pieces (0xC000000000 - 64) 64, isHole (64 * p.1) = false ∧ lineTakes State.reset none (64 * p.1) ∧
      registered State.reset (64 * p.1) = none ∧ isBad State.reset (64 * p.1) = false ∧ slotOpen State.reset (64 * p.1) = false) ∧
    memWf State.reset.far = true ∧
    (let s := { State.reset with bad := [(0x200000 / 64, true)] }
     pieces 0x200008 8 = [(0x200000 / 64, 8, 8)] ∧ registered s 0x200000 = none ∧ (readLine s none 0x200000).2 = true) ∧
    (∃ p ∈ pieces 0x200008 8, lineHeld heldLine { peer := none, pa := 64 * p.1 } = true) ∧ (∀ p ∈ pieces 0x200008 8, isHole (64 * p.1) = false) ∧
    (let e := makeLeaf true false 1 0x1000000 0
     leafV e = true ∧ leafHome e = 1 ∧ 0x200000000000 ≤ leafFrame e ∧ isLeasePage (hosted 2 .run stIdle) 5 1 = true ∧ spaceOf (hosted 2 .run stIdle) 5 1 = 5) ∧
    (let s := { hosted 2 .run stIdle with xlat := [(pageKey 5 1, makeLeaf true false 1 0x1000000 0)] }
     leafV (leafOf s 5 0x200000) = true ∧ leafHome (leafOf s 5 0x200000) = 1 ∧ 0x200000 / 2 ^ 21 = 1) := by
  unfold lineTakes; decide +kernel

/-- Frame 0 of tenant 1's world 1, holding page 1 of block 5. -/
def aFrame0 (st : FrameState) (gen : Bool) : Frame :=
  { st := st, tenant := 1, world := 1, page := some (5, 1), lastLease := 0, late := false, changed := false, gen := gen }
def aKey (st uses : Nat) : KeySlot :=
  { root0 := 0, root1 := 0, gen := false, uses0 := uses, uses1 := 0, hkey := 0, st := st, world := 1, tenant := 1 }
def aPool : Pool := { world := 1, fmt := 0, dsel := 0, groups := 1, dvbase := 2 ^ 22, mvbase := 2 ^ 21, gstack := [0] }

/-- Frames, tenant 1's guarantee, a gang of block 5, and the firmware's lists. -/
def kept (fs : List (Nat × Frame)) (g : Nat) (gangs : List (Nat × Gang)) (e : Edge) (keys : List (Nat × KeySlot)) : State :=
  { State.reset with frames := fs, edge := e,
                     hub := { Hub.reset with blocks := [(5, aBlock stIdle 0 0)], tenants := [(1, { g := g, u := 0 })], gangs := gangs, keys := keys } }

/-- Page 0 of pool 3 with one reference and the given CRC, its metadata in frame 0, its data in frame 1. -/
def pooled (crc : Byte) : State :=
  { kept [] 0 [] Edge.reset [] with
    hub := { Hub.reset with blocks := [(5, aBlock stIdle 0 0 ||| BitVec.ofNat 2048 (3 * 2 ^ (8 * 0x1C)))], pools := [(3, aPool)] },
    xlat := [(pageKey 16387 1, makeLeaf true false 0 0 0), (pageKey 16387 2, makeLeaf true false 0 1 0)], far := if crc = 0 then [(12, 1)] else [(8, crc), (12, 1)] }

/-! Runs of engine commands. -/

/-- Whether a range of a quad's stash is idle, chunk by chunk. -/
def idleAt (s : State) (q a n : Nat) : Bool :=
  (quadHold s q).isNone && decide (a + n ≤ stashBytes) &&
    (range' (a / 64) ((a + n - 1) / 64 + 1 - a / 64)).all (fun k => decide (regionOf s q (64 * k) = .temp))

theorem idle_of {s : State} {q a n : Nat} (h : idleAt s q a n = true) : stashIdle s q a n := by
  simp only [idleAt, Bool.and_eq_true, decide_eq_true_eq, List.all_eq_true, Option.isNone_iff_eq_none] at h
  refine ⟨h.1.1, h.1.2, fun k hk hn => h.2 k ?_⟩
  rw [mem_range']
  omega

/-- Bytes of a list of 32-bit words, the byte at `bad` poisoned. -/
def wordsIn (l : List Nat) (bad : Nat := 1000) : List (Byte × Bool) :=
  (l.flatMap (fun w => leBytes w 4)).zipIdx.map (fun e => (e.1, decide (e.2 = bad)))

/-- A command that names its operands, and a far operand at `o` of the frame of a handle not held. -/
def aCmd (op : EngOp) (src dst len aux word : Nat) (block data : List (Byte × Bool)) : EngCmd :=
  { makeCmd State.reset op SVal.zero with
    src := BitVec.ofNat 64 src, dst := BitVec.ofNat 64 dst, len := BitVec.ofNat 64 len, aux := BitVec.ofNat 64 aux,
    word := BitVec.ofNat 64 word, block := block, data := data }
def farAt (o : Nat) : Nat := 2 ^ 63 + 3 * 2 ^ 21 + o
def recWords (o : Nat) : List Nat := [3 * 2 ^ 21 + o, 2 ^ 31]

/-- Core 0 in the gang of block 5 with pool 3, its whole stash temporary; far bytes, failed lines, poisoned stash bytes, nodes. -/
def runIn (far : Memory) (bad : List Nat) (sb : List Nat) (nodes : List (Nat × PxNode)) : State :=
  temp 4161536 { gang0 CoreArch.reset with
    far := far, bad := bad.map (fun a => (a / 64, true)), sbad := sb.map (fun a => (a, true)),
    xlat := [(pageKey 16387 1, makeLeaf true false 0 0 0), (pageKey 16387 2, makeLeaf true false 0 1 0)],
    hub := { Hub.reset with gangs := [(5, aGang)], blocks := [(5, aBlock stIdle 0 0 ||| BitVec.ofNat 2048 (3 * 2 ^ (8 * 0x1C)))],
                            pools := [(3, aPool)], domains := [(0, { world := 1, ns := 1, quota := 8, pool := 3 })], nodes := nodes } }

def runOf (s : State) (c : EngCmd) : EngRun := beginRun s 0 c

/-- What a run came to. -/
def endOf (r : CmdRun) : Option EngEnd := match r with | .ended e _ => some e | _ => none

/-- Block 5's window over chunk 0, its line in frame 1; chunk 0 in state D or C, or no chunk. -/
def windowed (ch : List (Nat × Chunk)) : State := lined aWindow 0 1 Order.reset ch []

/-- A copy near, far and to quads: poison in a block, in a source, in a line; a destination in a window. -/
theorem witness_CopyRuns :
    badIn (wordsIn [0] 0) = true ∧ badIn (wordsIn [0]) = false ∧
    (∀ b : Bool, let s := runIn [] [] (if b then [3] else []) []
      nearEa (aCmd .copy 0 64 4 0 0 [] []).src 0 ∧ nearEa (aCmd .copy 0 64 4 0 0 [] []).dst 64 ∧
      idleAt s 0 0 4 = true ∧ idleAt s 0 64 4 = true ∧ stashBad s 0 0 4 = b ∧ memWf s.stash = true ∧ memWf s.far = true) ∧
    (∀ b : Bool, let s := runIn [] (if b then [0x100000] else []) [] []
      let c := aCmd .copy (farAt 0x100000) 64 64 0 0 [] []
      let l := handleLoc (cmdHandle c 3) 0x100000
      engAddr c.src = some (.far 3 0x100000) ∧ l = { peer := none, pa := 0x100000 } ∧ lineFree s l.pa ∧ idleAt s 0 64 64 = true ∧
      (readLine s (gangOf s 0) l.pa).2 = b) ∧
    (let s := runIn [] [] [] []
     let c := aCmd .copy 64 (farAt 0x10003C) 4 0 0 [] []
     let l := handleLoc (cmdHandle c 3) 0x10003C
     engAddr c.dst = some (.far 3 0x10003C) ∧ l = { peer := none, pa := 0x10003C } ∧ lineFree s 0x100000 ∧ lineTakes s (gangOf s 0) 0x100000 ∧
     idleAt s 0 64 4 = true ∧ stashBad s 0 64 4 = false) ∧
    (∀ b : Bool, let s := mapped (gang0 CoreArch.reset)
      let c := aCmd .copyMc 64 (if b then 0 else 128) 4 1 0 [] []
      mcQuads 0 c = [0] ∧ nearEa c.src 64 ∧ idleAt s 0 64 4 = true ∧ stashBad s 0 64 4 = false ∧ quadHold s 0 = none ∧
      ((∃ n w, regionOf s 0 (64 * (c.dst.toNat / 64)) = .mapped n w) ↔ b = true)) := by
  refine ⟨by decide, by decide, by unfold nearEa; decide +kernel, by unfold lineFree; decide +kernel, by unfold lineFree lineTakes; decide +kernel, fun b => ?_⟩
  cases b
  · refine ⟨by decide +kernel, by unfold nearEa; decide +kernel, by decide +kernel, by decide +kernel, by decide +kernel, ?_⟩
    exact ⟨fun ⟨n, w, h⟩ => absurd (h.symm.trans (by decide +kernel : _ = Region.temp)) nofun, nofun⟩
  · exact ⟨by decide +kernel, by unfold nearEa; decide +kernel, by decide +kernel, by decide +kernel, by decide +kernel, fun _ => rfl, fun _ => ⟨3, aWindow, rfl⟩⟩

/-- A map that meets a temporary range, and one that meets none; windows with and without D chunks. -/
theorem witness_MapRuns :
    (let c := aCmd .smap (2 ^ 21) 64 (2 ^ 24 + 64) 4 0 [] []
     let w := windowOf 5 c
     mapConflict (runIn [] [] [] []) 0 4 w = true ∧ mapConflict (gang0 CoreArch.reset) 0 4 w = false ∧
     (getQuad (gang0 CoreArch.reset) 0).windows = []) ∧
    (∀ d : Bool, let s := windowed [(0, { dirty := d, stamp := 0, mask := 1 })]
      alRising none s.chunks = true ∧ windowsNamed s 0 (aCmd .sinv 0 0 0 64 0 [] []) = [(3, aWindow)] ∧
      windowsNamed s 0 (aCmd .swb 0 0 0 3 0 [] []) = [(3, aWindow)] ∧ dirtyChunks s 0 aWindow = (if d then [0] else [])) ∧
    (let s := windowed [(0, { dirty := true, stamp := 0, mask := 1 })]
     chunkLoc s aWindow 0 = some { peer := none, pa := 0x200000 } ∧ isBad s 0x200000 = false ∧ lineOpens s (chunkGang s 0) 0x200000 = true ∧
     sealWaits s { peer := none, pa := 0x200000 } = false ∧ memWf s.far = true) ∧
    (let s := windowed []
     (aCmd .swb 0 0 0 (64 + 128) 0 [] []).aux.getLsbD 7 = true ∧ alRising none (getQuad s 0).windows = true ∧ windowChunks s 0 aWindow = []) := by
  decide +kernel

/-- An index beyond the frame, one beyond the stash, a protected place, poison; keys that tie. -/
theorem witness_IndexRuns :
    badIn (wordsIn [0, 1] 5) = true ∧ badIn (wordsIn [0, 1]) = false ∧
    (let c := aCmd .gather (farAt 0) 1024 64 2 0 [] (wordsIn [32768, 1])
     engAddr c.src = some (.far 3 0) ∧ 2 ^ 21 < 0 + fieldOf c.data 0 4 * 64 + 64) ∧
    (∀ b : Bool, let s := runIn [] [] (if b then [1088, 64] else []) []
      let c := aCmd .gather 1024 64 4 1 0 [] (wordsIn [16])
      nearEa c.src 1024 ∧ nearEa c.dst 64 ∧ spanAssigned s 0 (1024 + 64) 4 = true ∧ idleAt s 0 1088 4 = true ∧ idleAt s 0 64 4 = true ∧
      stashBad s 0 1088 4 = b ∧ stashBad s 0 64 4 = b ∧ memWf s.stash = true) ∧
    spanAssigned (runIn [] [] [] []) 0 4161536 4 = false ∧
    (let s := lined { aWindow with ro := true } 0 1 Order.reset [] []
     spanAssigned s 0 0 4 = true ∧ spanProtected s 0 0 4 = true) ∧
    (∀ b : Bool, let s := runIn [] [] (if b then [7] else []) []
      let c := aCmd .topk 0 64 0 2 (2 ^ 16) [] []
      c.aux.toNat = 2 ∧ c.word.toNat / 2 ^ 16 % 2 ^ 11 = 1 ∧ idleAt s 0 0 8 = true ∧ idleAt s 0 64 4 = true ∧ stashBad s 0 0 8 = b) := by
  unfold nearEa; decide +kernel

/-- A `sgemv` of one column of 32 weights for one vector, in BF16 and in E4M3, with poison in its operands or in one line. -/
theorem witness_StackRuns_sgemv :
    let c (w : Nat) := aCmd .sgemv (farAt 0x100000) 1024 0 0 w (wordsIn [32, 1, 4, 0x100080, 0, 0, 64]) []
    engAddr (c 0).src = some (.far 3 0x100000) ∧ badIn (aCmd .sgemv 0 0 0 0 0 (wordsIn [32] 63) []).block = false ∧
    badIn (aCmd .sgemv 0 0 0 0 0 (wordsIn [32] 3) []).block = true ∧
    (∀ b : Bool, (nearReads (gemvOf (c (7 * 2 ^ 16))).near (runOf (runIn [] [] (if b then [63] else []) []) (c (7 * 2 ^ 16)))).2.1 = b) ∧
    (∀ e ∈ [(7 * 2 ^ 16, 0x100040, true), (7 * 2 ^ 16, 0x100080, false), (0, 0x100080, true)],
      let v := gemvOf (c e.1)
      let x1 := (nearReads v.near (runOf (runIn [] [e.2.1] [] []) (c e.1))).2.2
      let at_ (off : Nat) : Loc := { peer := none, pa := off }
      let r := stackReads ((range' 0 v.rows).map (fun r => (at_ (0x100000 + r * v.wrow), v.n * v.ew))) x1
      let w := stackReads [(at_ v.wsoff, 2 * v.blocks * v.n)] r.2.2
      (v.wfmt = 3 ↔ e.1 ≠ 0) ∧ (e.1 ≠ 0 → r.2.1.isSome = e.2.2 ∧ idleAt r.2.2.st 0 1024 4 = true ∧ memWf r.2.2.st.stash = true) ∧
      (e.1 = 0 → r.2.1 = none ∧ w.2.1 = some 0x100080)) := by
  refine ⟨by decide +kernel, by decide +kernel, by decide +kernel, by decide +kernel, by decide +kernel⟩

/-- A `sattn` of one token of page 0, by the page's FILL and ATTR, with poison in its query, its block and the page. -/
theorem witness_StackRuns_sattn :
    let c := aCmd .sattn 0 1024 0 0 (2 ^ 16) (wordsIn [0, 1, 1, 0, 0, 0, 0, 0, 0, 0, 0, 0, 0, 0, 0, 0, 0, 1]) []
    sattnPages c.block = [(0, 0, 1, 0)] ∧ poolOf (gang0 CoreArch.reset) 5 = none ∧ badIn c.block = false ∧
    (∀ e ∈ [((5 : Nat), (1 : Byte)), (4, 1), (8, 1), (0, 1)], let s := runIn [(e.1, e.2)] [] [] []
      let r := stackRead (runOf s c) (aPool.metaLoc s 3 0 0) 512
      let attr := leNat ((r.1.drop 4).take 4)
      poolOf s 5 = some aPool ∧ poolNo s 5 = 3 ∧ (attr.testBit 8 = decide (e.1 = 5)) ∧
      decide (attr % 4 ≠ (attnOf c).kvfmt ∨ attr / 4 % 4 ≠ (attnOf c).dsel) = decide (e.1 = 4) ∧ leNat (r.1.take 4) = (if e.1 = 0 then 1 else 0)) ∧
    (∀ e ∈ [((none : Option Nat), true, false), (some 2097152, false, true), (none, false, false)],
      let s := runIn [(0, 1)] e.1.toList (if e.2.1 then [127] else []) []
      let m := readMetas 3 aPool [0] (runOf s c)
      let n := nearReads (attnOf c).near m.2
      let t := readTokens 3 aPool (sattnPages c.block) n.2.2
      validateAll (attnOf c) m.1 (sattnPages c.block) = none ∧ n.2.1 = e.2.1 ∧ t.1.isLeft = e.2.2 ∧ idleAt t.2.st 0 1024 320 = true ∧
      memWf t.2.st.stash = true ∧ (attnOf c).score = false ∧
      (match t.1 with | .inr l => l.map (fun k => k.val.length) | .inl _ => [(attnOf c).dim]) = [(attnOf c).dim]) := by
  refine ⟨by decide +kernel, by decide +kernel, by decide +kernel, by decide +kernel, by decide +kernel⟩

/-- A `sred` of one row and of two, of BF16 elements; a row or a bag out of range, poison in its block, its list and a row. -/
theorem witness_StackRuns_sred :
    let c (n : Nat) (l : List Nat) (b : Nat) := aCmd .sred (farAt 0x100000) 1024 0 0 (2 ^ 17 + n * 2 ^ 19) (wordsIn [32, 2, 64, 0, 0]) (wordsIn l b)
    (∀ n ∈ [1, 2], (bagsOf (c n [] 1000)).nidx = n ∧ (bagsOf (c n [] 1000)).fmt = 2 ∧ (bagsOf (c n [] 1000)).nbags = 1 ∧ (bagsOf (c n [] 1000)).rows = 2) ∧
    fieldOf (c 1 [2] 9).data 0 3 = 2 ∧ fieldOf (c 1 [2 ^ 24] 9).data 3 1 = 1 ∧ badIn (c 1 [1] 0).data = true ∧ badIn (c 2 [0, 1] 9).data = false ∧
    (∀ b : Bool, let s := runIn [] (if b then [0x100000] else []) [] []
      let r := stackRead (runOf s (c 2 [0, 1] 9)) { peer := none, pa := 0x100000 } 64
      let r2 := stackRead r.2.2 { peer := none, pa := 0x100040 } 64
      r.2.1.isSome = b ∧ r2.2.1 = none ∧ idleAt r.2.2.st 0 1024 128 = true ∧ idleAt r2.2.2.st 0 1024 128 = true ∧ memWf r2.2.2.st.stash = true) := by
  refine ⟨by decide +kernel, by decide +kernel, by decide +kernel, by decide +kernel, by decide +kernel, by decide +kernel⟩

/-- A record by its bytes: poisoned, malformed, at a position that is not its length, full, with poisoned data, and one that is appended to. -/
theorem witness_PageRuns :
    kvEnv (gang0 CoreArch.reset) 0 = none ∧ kvEnv (runIn [] [] [] []) 0 = some { no := 3, pool := aPool } ∧
    (let c (pos bad : Nat) := aCmd .kvapp 0 0 0 0 0 (wordsIn ([pos, 1, 0, 0, 0, 0, 0, 0, 0, 0, 0, 0, 0, 0, 0, 0] ++ recWords 0x100000)) (wordsIn (List.replicate 33 1) bad)
     let rd (far : Memory) (bad : List Nat) := engFarRead (runOf (runIn far bad [] []) (c 0 999)) (recLoc (c 0 999) (nthD (kvAppOf (c 0 999).block).recs 0 0) 0) 192
     recLoc (c 0 999) (nthD (kvAppOf (c 0 999).block).recs 0 0) 0 = { peer := none, pa := 0x100000 } ∧
     (rd [] [0x100080]).2.1 = true ∧ (rd [(0x100000, 17)] []).2.1 = false ∧ streamBad aPool (parseStream (rd [(0x100000, 17)] []).1) = true ∧
     streamBad aPool (parseStream (rd [] []).1) = false ∧ (parseStream (rd [] []).1).length = 0 ∧
     (kvAppOf (c (2 ^ 20) 999).block).pos = 2 ^ 20 ∧ (kvAppOf (c 1 999).block).pos = 1 ∧ (kvSlot aPool (c 0 131) 0).2 = true ∧
     (kvSlot aPool (c 0 999) 0).2 = false ∧ memWf (runIn [] [] [] []).far = true ∧
     endOf (runCmd (c 0 999) (runOf (runIn [] [] [] []) (c 0 999))) = some (0, 1)) ∧
    (let c := aCmd .kvcomp 0 0 0 0 0 (wordsIn (recWords 0x100000 ++ [0, 0, 0, 2])) (wordsIn [0, 0])
     let rd (far : Memory) := engFarRead (runOf (runIn far [] [] []) c) (recLoc c (compRec c.block) 0) 192
     (rd [(0x100000, 17)]).2.1 = false ∧ streamBad aPool (parseStream (rd [(0x100000, 17)]).1) = true ∧
     (let r := parseStream (rd [(0x100000, 1), (0x100004, 2), (0x100044, 2)]).1
      streamBad aPool r = false ∧ r.length = 2 ∧ compNkeep c.block = 2 ∧ fieldOf c.data 0 4 = 0 ∧ fieldOf c.data 4 4 = 0)) ∧
    (let c (op : EngOp) (n bad : Nat) := aCmd op 0 1024 0 0 0 (wordsIn ([0, n, 0, 0] ++ recWords 0x100000) bad) (wordsIn [5])
     let rd (far : Memory) := readStreams (c .pxins 1 999) (pxSarr (c .pxins 1 999).block) [0] (runOf (runIn far [] [] []) (c .pxins 1 999))
     let one : Memory := [(0x100000, 1), (0x100004, 1), (0x100044, 1)]
     ((getDomain (runIn [] [] [] []) (pxDomain (c .pxins 1 999).block)).map (·.ns)) = some 1 ∧ badIn (c .pxlook 1 3).block = true ∧
     (rd [(0x100000, 17)]).1.map (streamBad aPool) = [true] ∧ (rd one).2.1 = false ∧ (rd one).1.map (streamBad aPool) = [false] ∧
     (rd one).1.map (·.next) = [1] ∧ (rd []).1.map (·.length) = [0] ∧ (rd one).1.map (·.length) = [1] ∧ pxCount (c .pxins 1 999).block = 1 ∧
     (let node : PxNode := { dom := 0, parent := 0, start := 0, stop := 1, label := [5], runs := [(0, 0)] }
      pxWalk [(1, node)] 0 1 0 (pxTokens (c .pxins 1 999) 1) = ([(1, node)], 1)) ∧ idleAt (rd one).2.2.st 0 1024 8 = true) ∧
    (let c (n word : Nat) := aCmd .pxrel 0 0 0 0 word (wordsIn ([0, n, 0, 0] ++ recWords 0x100000)) []
     let leaf (p : Nat) : PxNode := { dom := 0, parent := p, start := 0, stop := 1, label := [5], runs := [(0, 0)] }
     let v : KvEnv := { no := 3, pool := aPool }
     (c 1 (2 ^ 16)).word.getLsbD 16 = true ∧ (c 1 0).word.getLsbD 16 = false ∧ pxCount (c 1 0).block = 1 ∧
     (∀ b : Bool, (readHeads v (nodeHolds (leaf 0)) (runOf (runIn [] (if b then [0] else []) [] [(1, leaf 0)]) (c 1 (2 ^ 16)))).1 = b) ∧
     [(1, leaf 0), (2, leaf 1)].any (fun e => decide (e.2.dom = 0 ∧ e.2.parent = 1)) = true ∧
     (let rd (far : Memory) (bad : List Nat) := engFarRead (runOf (runIn far bad [] []) (c 1 0)) (recLoc (c 1 0) (pxSarr (c 1 0).block) 0) 192
      recLoc (c 1 0) (pxSarr (c 1 0).block) 0 = { peer := none, pa := 0x100000 } ∧ (rd [] [0x100000]).2.1 = true ∧
      streamBad aPool (parseStream (rd [(0x100000, 17)] []).1) = true ∧ streamBad aPool (parseStream (rd [] []).1) = false ∧
      endOf (runCmd (c 1 0) (runOf (runIn [] [] [] []) (c 1 0))) = some (0, 1))) := by
  refine ⟨by decide +kernel, by decide +kernel, ?_, ?_, ?_, ?_⟩ <;> decide +kernel

/-- Core 0's queue 0 holds one command; its tenant has `n` tokens. -/
def stepping (c : EngCmd) (n : Nat) : State :=
  { withQueue [c] [] with dies := [(0, { Die.reset with buckets := [(0, { share := 65536, tokens := n, took := false })] })] }

/-- A copy near that ends, one of two runs, a collective, and a copy from a line for which there is a token or none. -/
theorem witness_EngineSteps :
    (∀ e ∈ [(aCmd .copy 0 64 4 0 0 [] [], 0), ({ aCmd .copy 0 64 4 0 0 (wordsIn [1, 0, 2, 0, 64, 64]) [] with nest := 0x400000 }, 1),
        (aCmd .callred 0 64 4 0 0 [] [], 2)],
      let s := stepping e.1 0
      let r := runCmd (failQuads 0 0 e.1) (beginRun (modHead s 0 0 (fun _ => failQuads 0 0 e.1)) 0 (failQuads 0 0 e.1))
      startReady s 0 0 e.1 = true ∧ e.1.asked = 0 ∧ r.run.held = false ∧ r.run.miss = [] ∧ r.run.forced = [] ∧ r.run.sent = [] ∧
      r.run.lines ≤ e.1.paid ∧ (match r with | .ended _ _ => 0 | .part _ _ _ => 1 | .taken _ => 2) = e.2) ∧
    (∀ b : Bool, let c := aCmd .copy (farAt 0x100000) 64 4 0 0 [] []
      let s := stepping c (if b then 1 else 0)
      let s0 := modHead s 0 0 (fun _ => c)
      let x := (runCmd c (beginRun s0 0 c)).run
      failQuads 0 0 c = c ∧ startReady s 0 0 c = true ∧ x.held = false ∧ x.miss = [] ∧ x.forced = [] ∧ c.paid < x.lines ∧
      (takeTokens s0 0 (engIdent 0 0) (x.lines - c.paid)).1 = b ∧
      (b = true → (runCmd c (beginRun (takeTokens s0 0 (engIdent 0 0) (x.lines - c.paid)).2 0 c)).run.miss = [] ∧
        (runCmd c (beginRun (takeTokens s0 0 (engIdent 0 0) (x.lines - c.paid)).2 0 c)).run.sent = [])) := by
  refine ⟨by decide +kernel, by decide +kernel⟩

/-- A part of the four members of quad 0 for phase 0 of its channel 1. -/
def aPartOf (op root : Nat) (bad : Bool) (c : Nat) : CollPart :=
  { phase := 0, core := c, rank := c, op := op, fn := 0, fmt := 1, root := root, bytes := [BitVec.ofNat 8 c, 0, 0, 0], bad := bad }
def aColl (op : EngOp) : EngCmd := { aCmd op 0 64 4 3 (2 * 2 ^ 16 + 2 ^ 19) [] [] with started := true }
def gathering (rel : Nat) (l : List CollPart) (q : List EngCmd) : State :=
  temp 4161536 { gang0 { CoreArch.reset with q := vset CoreArch.reset.q 3 { EngQueue.reset with cmds := q } } with
    todo := [], served := true, hub := { Hub.reset with gangs := [(5, aGang)], chans := [{ aChan 1 with released := rel, parts := l }] } }

/-- A phase not released; a part still to come; parts that differ, that are poisoned, of a broadcast from rank 3 and of a sum. -/
theorem witness_CollectiveRuns :
    (∀ op ∈ [EngOp.callred, .cbcast, .creduce], isColl op = true ∧ (collChan (gathering 0 [] []) 0 (aColl op)) = (aChan 1).ident) ∧ (aChan 1).ident.scope ≠ 5 ∧
    phaseReleased (gathering 0 [] []) (aChan 1).ident 0 = false ∧ phaseReleased (gathering 1 [] []) (aChan 1).ident 0 = true ∧
    chanMembers (gathering 1 [] []) (aChan 1).ident = [0, 1, 2, 3] ∧ gangCores aGang = [0, 1, 2, 3] ∧
    getGang (gathering 1 [] []) 5 = some aGang ∧
    (let s := gathering 1 [] [aColl .callred]
     findPart (getChan s (aChan 1).ident) 0 0 = none ∧ hasColl s 0 (aChan 1).ident 0 = true) ∧
    (∀ f ∈ ([aPartOf 0 0 false, aPartOf 1 3 false, aPartOf 2 3 true, fun c => aPartOf c 0 false c] : List (Nat → CollPart)),
      let s := gathering 1 ([0, 1, 2, 3].map f) []
      ∀ m ∈ chanMembers s (aChan 1).ident, findPart (getChan s (aChan 1).ident) 0 m = some (f m)) ∧
    partsAgree (aPartOf 0 0 false 0) (aPartOf 1 0 false 1) = false ∧
    (∀ e ∈ [(0, 0, false), (1, 3, false), (2, 3, true)], ∀ m ∈ [0, 1, 2, 3], ∀ n ∈ [0, 1, 2, 3],
      partsAgree (aPartOf e.1 e.2.1 e.2.2 m) (aPartOf e.1 e.2.1 e.2.2 n) = true ∧ (aPartOf e.1 e.2.1 e.2.2 m).bad = e.2.2) ∧
    (∀ b : Bool, let c := aColl .callred
      let s := gathering 1 (if b then [0, 1, 2, 3].map (aPartOf 0 0 false) else []) [c]
      (vget (coreArch s 0).q 3).cmds = [c] ∧ c.done = none ∧ c.started = true ∧ c.waitFor = [] ∧ (getCore s 0).status = .bound ∧ s.todo = [] ∧
      s.served = true ∧ c.asked = 0 ∧ (collOutcome s 0 c = if b then some ((0, 0), some [6, 0, 0, 0]) else none) ∧ idleAt s 0 64 4 = true ∧
      memWf s.stash = true) := by
  refine ⟨by decide +kernel, by decide +kernel, by decide +kernel, by decide +kernel, by decide +kernel, by decide +kernel, by decide +kernel,
    by decide +kernel, by decide +kernel, by decide +kernel, by decide +kernel, by decide +kernel⟩

/-- A directory that names a line of frame 1, in chunk 0, for which there is a token or none, in a held quad or not. -/
def registered1 (n : Nat) (hold : Bool) : State :=
  { held0 Order.reset with
    dies := [(0, { Die.reset with dir := [(0x200000 / 64, 0)], buckets := [(0, { share := 65536, tokens := n, took := false })] })],
    quads := [(0, { Quad.reset 0 with hold := if hold then some 0 else none })] }

/-- The recall of a frame's registrations: none; one whose quad is held; one for which a token is there, or is waited for. -/
theorem witness_MemoryEvents_recalls :
    framesReady State.reset false [1] = true ∧ (takeRecalls ((frameChunks State.reset [1]).map (·.2)) State.reset).1 = true ∧
    frameChunks State.reset [1] = [] ∧
    framesReady (registered1 1 true) false [1] = false ∧
    (∀ n ∈ [0, 1], let s := registered1 n false
      framesReady s false [1] = true ∧ frameChunks s [1] = [(0, { peer := none, pa := 0x200000 })] ∧
      (takeRecalls ((frameChunks s [1]).map (·.2)) s).1 = decide (n = 1)) := by decide +kernel

theorem witness_MemoryEvents :
    -- the ladle's next page into a free frame, and into one with a changed victim; a page that is not next; a frame not allowed
    (let s := kept [] 1 [] Edge.reset []
     ladleNext s 5 = some 1 ∧ ladleNext s 5 ≠ some 2 ∧ frameAllowed s 5 1 393215 = true ∧ frameAllowed s 5 1 393216 = false ∧
     s.dies = [] ∧ frameChunks s [393215] = [] ∧ spaceOf s 5 1 = 5 ∧
     393215 < frameCount ∧ stackOk s 5 1 393215 = true ∧ frameFree s 393215 = true ∧
     heldFrames s (blkTenant (getBlock s 5)) < tenantG s (blkTenant (getBlock s 5)) + tenantU s (blkTenant (getBlock s 5))) ∧
    (let y := { aFrame0 .warm false with page := some (6, 9), changed := true }
     let s := kept [(0, y)] 1 [] Edge.reset []
     ladleNext s 5 = some 1 ∧ frameAllowed s 5 1 0 = true ∧ getFrame s 0 = some y ∧ y.changed = true) ∧
    -- a promotion under a lease in force, without one and within the guarantee, and beyond it
    (∀ k ∈ [(1, true), (0, false), (1, false)],
      let s := kept [(0, aFrame0 .promoting false)] k.1 (if k.2 then [(5, aGang)] else []) Edge.reset []
      getFrame s 0 = some (aFrame0 .promoting false) ∧ leaseInForce s 5 1 = k.2 ∧ heldFrames s 1 = 1 ∧ tenantG s 1 + tenantU s 1 = k.1) ∧
    (let x : Invalidation := { ctx := 5, range := { vpage := 1, pages := 1, rw := true }, frames := [0] }
     let s := kept [] 0 [] { Edge.reset with invalidating := [x] } []
     s.edge.invalidating.find? (fun y => decide (y.ctx = 5 ∧ y.range = x.range)) = some x ∧ (5, x.range) ∉ s.edge.revoking ∧
     ∀ a ∈ allArchs s, accessesTo x.frames a = false ∧ commandsOn x.frames a = false) ∧
    (let s := kept [(0, aFrame0 .leased false)] 1 [] Edge.reset []
     getFrame s 0 = some (aFrame0 .leased false) ∧ getFrame s 32767 = none ∧ frameStack 32767 = frameStack 0 ∧ s.edge.migrating = []) ∧
    (let s := kept [(0, aFrame0 .leased false)] 1 [] { Edge.reset with migrating := [(0, 32767)] } []
     s.edge.migrating.contains (0, 32767) = true ∧ frameBusy s 0 = false ∧ s.edge.revoking = [] ∧ s.dies = [] ∧ s.far = []) ∧
    -- rekeys: asked for at 2^40 uses, a frame to sweep, nothing left to sweep, the last use but one
    (let s := kept [] 1 [] Edge.reset [(9, aKey 1 (2 ^ 40))]
     getKey s 9 = some (aKey 1 (2 ^ 40)) ∧ rekeyAsked s (aKey 1 (2 ^ 40)) = true) ∧
    (let s := kept [(0, aFrame0 .leased true)] 1 [] Edge.reset [(9, aKey 2 0)]
     nextSweep s (aKey 2 0) = some (0, aFrame0 .leased true) ∧ sweepReady s (0, aFrame0 .leased true) = true) ∧
    (let s := kept [(0, aFrame0 .leased false)] 1 [] Edge.reset [(9, aKey 2 0)]
     (aKey 2 0).st = 2 ∧ nextSweep s (aKey 2 0) = none ∧ s.hub.buffers = []) ∧
    (getKey (kept [] 1 [] Edge.reset [(9, aKey 1 (2 ^ 44 - 1))]) 9 = some (aKey 1 (2 ^ 44 - 1)) ∧ 2 ^ 44 - 1 ≤ keyUses (aKey 1 (2 ^ 44 - 1))) := by
  refine ⟨by decide +kernel, by decide +kernel, by decide +kernel, by decide +kernel, by decide +kernel, by decide +kernel, by decide +kernel,
    by decide +kernel, by decide +kernel, by decide +kernel⟩

/-- A page whose CRC is right, one whose CRC is not, with a good and a failed metadata line, and one marked damaged. -/
theorem witness_MemoryEvents_pages :
    (∀ e ∈ [(false, false), (true, false), (true, true)],
      let s := { pooled (if e.1 then 7 else 0) with bad := if e.2 then [(0, true)] else [] }
      (poolEnv s 3).isSome = true ∧ 0 < aPool.pages ∧ poolOk aPool = true ∧ memWf s.far = true ∧
      (match poolEnv s 3 with
        | some v => decide (v.pool = aPool ∧ pageHere v s 0 = true ∧ pageRefs v s 0 = 1 ∧ (checkPage v s 0 = (pageCrc v s 0, false) ↔ e.1 = false) ∧
            pageDamaged v s 0 = false ∧ registered s (v.pool.metaLoc s 3 0 0).pa = none ∧ isBad s (v.pool.metaLoc s 3 0 0).pa = e.2 ∧
            lineOpens s none (v.pool.metaLoc s 3 0 0).pa = true)
        | none => false) = true) ∧
    (let s := { pooled 0 with far := [(5, 1), (12, 1)] }
     (match poolEnv s 3 with
       | some v => decide (pageHere v s 0 = true ∧ pageRefs v s 0 = 1 ∧ pageDamaged v s 0 = true)
       | none => false) = true) := by decide +kernel

theorem witness_SignalEvents :
    1024 ≤ ({ Die.reset with quiet := 1024 } : Die).quiet ∧
    (let s := { State.reset with dies := [(7, { Die.reset with buckets := [(1, { share := 65536, tokens := 0, took := true })] })] }
     s.now % 1024 = 0 ∧ (getDie s 7).window ≤ s.now / 1024 ∧ (getDie s 7).waitq = [] ∧ ∀ e ∈ (getDie s 7).buckets, e.2.took = true) ∧
    (let s := kept [] 0 [(5, aGang)] { Edge.reset with governor := 9 } []
     runningGangs s = [aGang] ∧ 1 < aGang.nextDuty ∧ 9 ≤ s.edge.governor) ∧
    (let g := { aGang with nextDuty := 15 }
     runningGangs (kept [] 0 [(5, g)] { Edge.reset with governor := 9 } []) = [g] ∧ g.nextDuty < 16) ∧
    (kept [] 0 [] { Edge.reset with governor := 8 } []).edge.governor < 9 ∧
    -- boot from reset, perst_n low or high; the last key and none left; resets of a booted module
    State.reset.edge.boot.stage = 0 ∧ State.reset.edge.boot.dead = false ∧ (hosted 1 .run stIdle).edge.boot.stage = 1 ∧
    ({ Pins.reset with perstN := true } : Pins).perstN ≠ ({ Pins.reset with perstN := false } : Pins).perstN ∧
    ({ Boot.reset with longIndex := 2 ^ 20 - 1 } : Boot).longIndex < 2 ^ 20 ∧ 2 ^ 20 ≤ ({ Boot.reset with longIndex := 2 ^ 20 } : Boot).longIndex ∧
    (hosted 1 .run stIdle).edge.boot.longIndex < 2 ^ 20 ∧ answers (hosted 2 .run stIdle) = true := by decide +kernel

/-! Steps. -/

/-- The word of `sa.add` of g1 where the next step fetches it. -/
def placed : State := State.reset.withFetchWord 24 (0x001 * 2 ^ 10 + 0x081)

/-- What the machine looks at before it issues, for core 0 of `placed`. -/
def looked : State := { placed with todo := [], cur := 0, issue := none }

/-- The state in which the bundle of `placed` issues. -/
def begun : State := match beginCycle looked with | .next u => u | _ => State.reset

theorem witness_StepRunsInstruction_issue : issuing placed 0 [] looked ∧ beginCycle looked = .next begun ∧ (arch begun).seq.stall = 0 := by
  refine ⟨by unfold issuing; decide +kernel, ?_, by decide +kernel⟩
  unfold begun
  generalize h : beginCycle looked = r
  cases r with
  | next u => rfl
  | fault f => exact absurd (show (match beginCycle looked with | .next _ => true | _ => false) = true by decide +kernel) (by simp [h])
  | refused f => exact absurd (show (match beginCycle looked with | .next _ => true | _ => false) = true by decide +kernel) (by simp [h])

theorem witness_StepRunsInstruction_bundle :
    (let s := begun
     let i : Instr := .saAdd .always (.g 1) false
     let b := fetchBundle (curCore s) (arch s).seq.pc.toNat
     holdsAlone b 0 i ∧ wellFormed i = true ∧ isLiveSlot (arch s) i = true ∧ guardFaults (arch s) b = [] ∧ safeFaults (arch s) b [(0, i)] = [] ∧
     fallsOff (arch s) [slotFields 0 (bundleSlot b 0)] = false ∧
     after (exec i { s with issue := some { issueOf (arch s) (curCore s).jn b with slot := 0 } }) (fun t =>
       ((t.issue.map (·.hold)).getD false, bestFault ((t.issue.map (·.faults)).getD []), (endBundle (signSlots t [(0, i)]) b (boundarySafe b [(0, i)])).isSome)) =
       some (false, none, true)) := by unfold holdsAlone; decide +kernel

/-- An event of the agenda, and the first enabled one: a reply whose hold has run out. -/
theorem witness_StepRunsInstruction_events :
    ({ State.reset with agenda := [.ev .perstNRising] } : State).agenda = [.ev .perstNRising] ∧
    (let s := { State.reset with now := 940000, edge := { Edge.reset with held := [{ port := 7, since := 0, out := .dropped 0 0 0 }] } }
     s.agenda = [] ∧ pickEvent s = some (.replyHoldExpiry 7)) := by decide +kernel

/-- The step of `placed` puts the sum in flight, due a cycle later (R30, R73). -/
theorem test_step_runs_word : after (step placed) flight = some [(.saR, 1, 0)] := by decide +kernel

theorem witness_RoundTrip : wellFormed (.ldfV .always 15 15 true 2) = true ∧ (encode (.ldfV .always 15 15 true 2)).isSome = true ∧
    (encode (.maskedVectorWrite (.res .barR) 0x3F)).isSome = true := by decide +kernel

theorem witness_StepKeepsMemories : memoriesOk State.reset = true ∧ linesOk State.reset = true ∧ after (step placed) memoriesOk = some true ∧
    after (step placed) linesOk = some true := by decide +kernel

end Sys2Proof.Tests
end

section
/-! PROOF. What a live move slot, a short result, a write to a steer register and a last-read mark do; then the statements on
`sext`, `zext` and `bfx`, on the steer registers and on the return from the handler (R49, R50, R58, R87, R88 to R93, R105, R306). -/

namespace Sys2Proof.Proofs

open Sys2Proof.Machine Sys2Proof.Claims

/-! Live move slots. -/

theorem guardRes_of_guardOn {a : CoreArch} {g : Guard} {e : TSet} (h : guardOn a g e) : guardRes a g = .on e := by
  cases g with
  | steer k =>
    obtain ⟨hc, hp, rfl⟩ := h
    simp [guardRes, hc, hp]
  | always | last | mask => exact congrArg GuardRes.on (Eq.symm h)

/-- A live move slot has its effect on the value it reads, in the state with the last-read mark made. -/
theorem runMovePre_of_moves {i : Instr} {g : Guard} {src : Src} {s : State} {x : Val} (h : Moves i g src s x) (pre : Option Nat)
    (f : Val → State → State) : runMovePre i g src pre s f = f x (markGuard s g src) := by
  obtain ⟨hwf, e, y, hg, hr, rfl⟩ := h
  exact runMovePre_val hwf (guardRes_of_guardOn hg) hr

theorem runMove_of_moves {i : Instr} {g : Guard} {src : Src} {s : State} {x : Val} (h : Moves i g src s x)
    (f : Val → State → State) : runMove i g src s f = f x (markGuard s g src) := runMovePre_of_moves h none f

/-! Short results. -/

theorem onlyArch_setArch (s : State) (a : CoreArch) : onlyArch s a (setArch s a) :=
  ⟨getCore_setArch_same s a, fun _ hc => getCore_setArch_other s a (Ne.symm hc), fun _ => rfl, fun _ => rfl, rfl⟩

theorem deliverS_eq_setArch (s : State) (port : PortId) (lat : Nat) (v : SVal) :
    deliverS s port lat v = setArch s { arch s with due := (arch s).due ++ [shortDue s port lat v.toVec] } := rfl

theorem delivers_deliverS (s : State) (port : PortId) (lat : Nat) (v : SVal) :
    delivers s (shortDue s port lat v.toVec) (deliverS s port lat v) := onlyArch_setArch s _

@[simp] theorem shortDue_markGuard (s : State) (g : Guard) (src : Src) (port : PortId) (lat : Nat) (v : VVal) :
    shortDue (markGuard s g src) port lat v = shortDue s port lat v := by simp [shortDue, orderNo]

@[simp] theorem shortDue_takeFree (s : State) (port : PortId) (lat : Nat) (v : VVal) :
    shortDue (takeFree s).2 port lat v = shortDue s port lat v := rfl

/-! Operations with a width (R88 to R90). -/

theorem extWidth_eq (t : Word) : extWidth t = t.toNat % 128 := rfl

theorem bfxWidth_eq (t : Word) : bfxWidth t = t.toNat / 64 % 128 := by simp [bfxWidth, natField, Nat.shiftRight_eq_div_pow]

theorem bfxWord_eq (o t : Word) : bfxWord o t =
    let f := o.toNat / 2 ^ (t.toNat % 64) % 2 ^ (t.toNat / 64 % 128)
    if t.getLsbD 13 then BitVec.ofInt 64 (signExtNat f (t.toNat / 64 % 128)) else BitVec.ofNat 64 f := by
  simp [bfxWord, bfxWidth_eq, natField, Nat.shiftRight_eq_div_pow]

/-- The table of the statement is that of the model's widths and values. -/
theorem scalarWide_eq : scalarWide =
    [(.saSext, extWidth, fun o t => BitVec.ofInt 64 (signExtNat o.toNat (extWidth t))),
     (.saZext, extWidth, fun o t => BitVec.ofNat 64 (o.toNat % 2 ^ extWidth t)),
     (.saBfx, bfxWidth, bfxWord)] := by
  rw [funext bfxWidth_eq, funext fun o => funext (bfxWord_eq o)]
  rfl

theorem exec_scalarWide : ∀ r ∈ scalarWide, ∀ (g : Guard) (src : Src) (sb : Bool) (s : State),
    exec (r.1 g src sb) s = .next (scalarWidthOp (r.1 g src sb) g src sb r.2.1 r.2.2 s) := by
  rw [scalarWide_eq]
  simp only [List.forall_mem_cons]
  exact ⟨fun _ _ _ _ => rfl, fun _ _ _ _ => rfl, fun _ _ _ _ => rfl, fun _ h => nomatch h⟩

section Width

variable {i : Instr} {g : Guard} {src : Src} {s : State} {x : Val} (sb : Bool) {w : Word → Nat} (f : Word → Word → Word)

theorem scalarWidthOp_inside (h : Moves i g src s x) (hw : 1 ≤ w x.scalar.v ∧ w x.scalar.v ≤ 64) :
    scalarWidthOp i g src sb w f s = deliverS (markGuard s g src) (scalarResult sb) 1
      { v := f (scalarO s sb).v x.scalar.v, t := (scalarO s sb).t ||| x.scalar.t, p := (scalarO s sb).p || x.scalar.p } := by
  simp [scalarWidthOp, runMove_of_moves h, hw, scalarO, scalarOperand]

theorem scalarWidthOp_outside (h : Moves i g src s x) (hw : ¬ (1 ≤ w x.scalar.v ∧ w x.scalar.v ≤ 64)) (hp : x.scalar.p = false) :
    scalarWidthOp i g src sb w f s = raise (markGuard s g src) i cOperand := by
  simp only [scalarWidthOp, runMove_of_moves h, if_neg hw, hp, Bool.false_eq_true, if_false]

theorem scalarWidthOp_outside_poisoned (h : Moves i g src s x) (hw : ¬ (1 ≤ w x.scalar.v ∧ w x.scalar.v ≤ 64))
    (hp : x.scalar.p = true) :
    scalarWidthOp i g src sb w f s = deliverS (takeFree (markGuard s g src)).2 (scalarResult sb) 1
      { v := Config.freeWord s.freeCtr, t := (scalarO s sb).t ||| x.scalar.t, p := true } := by
  simp [scalarWidthOp, runMove_of_moves h, if_neg hw, hp, scalarO, scalarOperand]

end Width

/-- A result of a scalar unit in the state after the last-read mark is the one due in the state before it. -/
theorem delivers_scalarDue (s : State) (g : Guard) (src : Src) (sb : Bool) (v : SVal) :
    delivers (markGuard s g src) (scalarDue s sb 1 v.v v.t v.p) (deliverS (markGuard s g src) (scalarResult sb) 1 v) := by
  have h := delivers_deliverS (markGuard s g src) (scalarResult sb) 1 v
  rwa [shortDue_markGuard] at h

/-- An unpredictable result of a scalar unit changes the running core as any other does. -/
theorem getCore_deliverS_takeFree (s : State) (g : Guard) (src : Src) (sb : Bool) (v : SVal) :
    getCore (deliverS (takeFree (markGuard s g src)).2 (scalarResult sb) 1 v) s.cur =
      { getCore (markGuard s g src) s.cur with
        arch := { arch (markGuard s g src) with due := (arch s).due ++ [scalarDue s sb 1 v.v v.t v.p] } } := by
  have hcur : s.cur = (takeFree (markGuard s g src)).2.cur := by simp
  rw [hcur, deliverS_eq_setArch, getCore_setArch_same, shortDue_takeFree, shortDue_markGuard, arch_takeFree, markGuard_due]
  rfl

/-- Settles O3: the width decides between the result, the fault and the unpredictable value. -/
theorem scalarWidths : Obligations.ScalarWidths := by
  intro r hr g src sb s x hx
  rw [exec_scalarWide r hr]
  refine ⟨fun hlo hhi => ⟨_, rfl, ?_⟩, fun hw => ⟨fun hp => ?_, fun hp => ⟨_, Config.freeWord s.freeCtr, rfl, ?_⟩⟩⟩
  · rw [scalarWidthOp_inside sb r.2.2 hx ⟨hlo, hhi⟩]
    exact delivers_scalarDue s g src sb _
  · rw [scalarWidthOp_outside sb r.2.2 hx hw hp]
  · rw [scalarWidthOp_outside_poisoned sb r.2.2 hx hw hp]
    exact getCore_deliverS_takeFree s g src sb _

/-! A write to a steer register (R87, R304). -/

/-- A write to a steer register changes the two banks of steer registers and nothing else. -/
theorem writeS_eq (a : CoreArch) (k : Fin 12) (y : Steer) : ∃ own sh, writeS a k y =
    { a with regs := { a.regs with s := own }, seq := { a.seq with shadow := { a.seq.shadow with s := sh } } } := by
  unfold writeS
  split
  · exact ⟨_, _, rfl⟩
  · exact ⟨_, _, rfl⟩

@[simp] theorem inHandler_writeS (a : CoreArch) (k : Fin 12) (y : Steer) : inHandler (writeS a k y) = inHandler a := by
  obtain ⟨own, sh, h⟩ := writeS_eq a k y
  rw [h]
  rfl

/-- A write inside a handler to one of its own steer registers. -/
theorem writeS_shadow {a : CoreArch} {k : Fin 12} (h : inHandler a = true ∧ 10 ≤ k.val) (y : Steer) : writeS a k y =
    { a with seq := { a.seq with shadow := { a.seq.shadow with s := vset a.seq.shadow.s (Fin.ofNat 2 (k.val - 10)) y } } } :=
  if_pos h

/-- A write to a steer register of the task. -/
theorem writeS_own {a : CoreArch} {k : Fin 12} (h : ¬ (inHandler a = true ∧ 10 ≤ k.val)) (y : Steer) : writeS a k y =
    { a with regs := { a.regs with s := vset a.regs.s k y } } := if_neg h

@[simp] theorem readS_writeS_same (a : CoreArch) (k : Fin 12) (y : Steer) : readS (writeS a k y) k = y := by
  unfold readS
  rw [inHandler_writeS]
  split
  next h => rw [writeS_shadow h, vget_vset_same]
  next h => rw [writeS_own h, vget_vset_same]

/-- The two steer registers of the shadow bank are apart. -/
theorem shadowIndex_ne {j k : Fin 12} (hj : 10 ≤ j.val) (hk : 10 ≤ k.val) (h : j ≠ k) :
    Fin.ofNat 2 (k.val - 10) ≠ Fin.ofNat 2 (j.val - 10) := by
  simp only [ne_eq, Fin.ext_iff, Fin.val_ofNat] at h ⊢
  omega

theorem readS_writeS_other (a : CoreArch) {j k : Fin 12} (y : Steer) (h : j ≠ k) : readS (writeS a k y) j = readS a j := by
  unfold readS
  rw [inHandler_writeS]
  by_cases hk : inHandler a = true ∧ 10 ≤ k.val
  · rw [writeS_shadow hk]
    split
    next hj => exact vget_vset_other _ _ (shadowIndex_ne hj.2 hk.2 h)
    next => rfl
  · rw [writeS_own hk]
    split
    next => rfl
    next => exact vget_vset_other _ _ (Ne.symm h)

@[simp] theorem dstHolds_writeS (a : CoreArch) (k : Fin 12) (y : Steer) (d : Dst) : dstHolds (writeS a k y) d = dstHolds a d := by
  obtain ⟨own, sh, h⟩ := writeS_eq a k y
  rw [h]
  cases d with
  | g i | v i | p i | a i | m i | op i => rfl

/-- The bank out of reach is not written: the task's own s10 and s11 inside a handler, the shadow bank outside one. -/
@[simp] theorem hiddenBank_writeS (a : CoreArch) (k : Fin 12) (y : Steer) : hiddenBank (writeS a k y) = hiddenBank a := by
  unfold hiddenBank
  rw [inHandler_writeS]
  split
  next hin =>
    by_cases hk : 10 ≤ k.val
    · rw [writeS_shadow ⟨hin, hk⟩]
    · have hs : ∀ i ∈ List.range 2, vget (vset a.regs.s k y) (Fin.ofNat 12 (10 + i)) = vget a.regs.s (Fin.ofNat 12 (10 + i)) := by
        intro i hi
        refine vget_vset_other _ _ fun e => hk ?_
        have : k.val = (10 + i) % 12 := congrArg Fin.val e
        have := List.mem_range.mp hi
        omega
      rw [writeS_own fun h => hk h.2]
      exact congrArg (Prod.mk _) (List.map_congr_left hs)
  next hout => rw [writeS_own fun h => hout h.1]

theorem keepsRest_writeS (a : CoreArch) (k : Fin 12) (y : Steer) : keepsRest a (writeS a k y) := by
  obtain ⟨own, sh, h⟩ := writeS_eq a k y
  exact ⟨by rw [h], hiddenBank_writeS a k y, by rw [h]⟩

/-! A last-read mark does not touch the steer registers (R50). -/

theorem readS_writeG (a : CoreArch) (i : Fin 32) (y : SReg) (k : Fin 12) : readS (writeG a i y) k = readS a k := by
  unfold writeG
  split <;> rfl

theorem readS_markLast (s : State) (src : Src) (k : Fin 12) : readS (arch (markLast s src)) k = readS (arch s) k := by
  cases src with
  | g i =>
    simp only [markLast]
    split
    · rfl
    · rw [arch_modArch, readS_writeG]
  | v i | p i | a i | m i =>
    simp only [markLast]
    split
    · rfl
    · rw [arch_modRegs]
      rfl
  | res r =>
    simp only [markLast]
    rw [arch_modArch]
    rfl
  | _ => rfl

@[simp] theorem readS_markGuard (s : State) (g : Guard) (src : Src) (k : Fin 12) :
    readS (arch (markGuard s g src)) k = readS (arch s) k := by
  unfold markGuard
  split
  · exact readS_markLast s src k
  · rfl

/-! Slots that write a steer register (R92, R93). -/

/-- Of `s`, but for the last-read mark that `marked` carries, only steer register `k` of the running core has changed, to `y`. -/
def onlySteer (s marked : State) (k : Fin 12) (y : Steer) (t : State) : Prop :=
  readS (arch t) k = y ∧ (∀ j, j ≠ k → readS (arch t) j = readS (arch s) j) ∧
    (∀ d, dstHolds (arch t) d = dstHolds (arch marked) d) ∧ keepsRest (arch marked) (arch t) ∧
    (∀ c, c ≠ s.cur → getCore t c = getCore s c) ∧ { t with cores := s.cores } = s

/-- A last-read mark leaves all but the cores as it was. -/
theorem markGuard_but_cores (s : State) (g : Guard) (src : Src) : { markGuard s g src with cores := s.cores } = s := by
  obtain ⟨a, h | h⟩ := markGuard_state s g src
  · rw [h]
    rfl
  · rw [h]

theorem onlySteer_writeS (s : State) (g : Guard) (src : Src) (k : Fin 12) (y : Steer) :
    onlySteer s (markGuard s g src) k y (modArch (markGuard s g src) (fun a => writeS a k y)) := by
  unfold onlySteer
  rw [arch_modArch]
  refine ⟨readS_writeS_same _ k y, fun j hj => ?_, dstHolds_writeS _ k y, keepsRest_writeS _ k y, fun c hc => ?_, ?_⟩
  · rw [readS_writeS_other _ y hj, readS_markGuard]
  · have hne : (markGuard s g src).cur ≠ c := by rw [markGuard_cur]; exact Ne.symm hc
    rw [getCore_modArch_other _ _ hne, markGuard_getCore_other s g src (Ne.symm hc)]
  · exact markGuard_but_cores s g src

/-- The table of the statement is that of the model's conditions. -/
theorem steerConds_eq : steerConds =
    [(.skEq, condEq), (.skNe, condNe), (.skLt, condLt), (.skGe, condGe), (.skLtu, condLtu), (.skGeu, condGeu), (.skTst, condTst),
     (.skTstn, condTstn)] := by
  have hge : condGe = fun o t => decide (t.toInt ≤ o.toInt) := by
    funext o t
    simp [condGe, BitVec.slt, ← decide_not]
  have hgeu : condGeu = fun o t => decide (t.toNat ≤ o.toNat) := by
    funext o t
    simp [condGeu, BitVec.ult, ← decide_not]
  rw [hge, hgeu]
  rfl

theorem exec_steerConds : ∀ r ∈ steerConds, ∀ (g : Guard) (src : Src) (k : Fin 12) (s : State),
    exec (r.1 g src k) s = .next (steerCompare (r.1 g src k) g src k r.2 s) := by
  rw [steerConds_eq]
  simp only [List.forall_mem_cons]
  exact ⟨fun _ _ _ _ => rfl, fun _ _ _ _ => rfl, fun _ _ _ _ => rfl, fun _ _ _ _ => rfl, fun _ _ _ _ => rfl, fun _ _ _ _ => rfl,
    fun _ _ _ _ => rfl, fun _ _ _ _ => rfl, fun _ h => nomatch h⟩

/-- What a steer compare writes: COND with its taint and poison (R92). -/
def compared (s : State) (k : Fin 12) (f : Word → Word → Bool) (t : SVal) : Steer :=
  { readS (arch s) k with
    cond := f (getOpS (arch s) .cmpO).v t.v, ct := (getOpS (arch s) .cmpO).t ||| t.t, cp := (getOpS (arch s) .cmpO).p || t.p }

theorem steerCompare_of_moves {i : Instr} {g : Guard} {src : Src} {s : State} {x : Val} (h : Moves i g src s x) (k : Fin 12)
    (f : Word → Word → Bool) :
    steerCompare i g src k f s = modArch (markGuard s g src) (fun a => writeS a k (compared s k f x.scalar)) := by
  simp [steerCompare, runMove_of_moves h, modArch, compared]

/-- What `prep` writes: TARGET with its taint, and the preparation cycle (R93). -/
def prepared (s : State) (k : Fin 12) (t : SVal) : Steer :=
  { readS (arch s) k with target := BitVec.ofNat 13 t.v.toNat, tt := t.t, tp := false, prep := .inCycle (arch s).csr.cyc }

section Prep

variable {g : Guard} {src : Src} {k : Fin 12} {s : State} {x : Val} (h : Moves (.skPrep g src k) g src s x)
include h

theorem exec_skPrep_poisoned (hp : x.scalar.p = true) :
    exec (.skPrep g src k) s = .next (raise (markGuard s g src) (.skPrep g src k) cPoison) := by
  change Host.Outcome.next (runMove _ g src s _) = _
  rw [runMove_of_moves h, if_pos hp]

theorem exec_skPrep_far (hp : x.scalar.p = false) (hv : 8192 ≤ x.scalar.v.toNat) :
    exec (.skPrep g src k) s = .next (raise (markGuard s g src) (.skPrep g src k) cOperand) := by
  change Host.Outcome.next (runMove _ g src s _) = _
  rw [runMove_of_moves h, if_neg (by simp [hp]), if_pos hv]

theorem exec_skPrep_ok (hp : x.scalar.p = false) (hv : x.scalar.v.toNat < 8192) :
    exec (.skPrep g src k) s = .next (modArch (markGuard s g src) (fun a => writeS a k (prepared s k x.scalar))) := by
  change Host.Outcome.next (runMove _ g src s _) = _
  rw [runMove_of_moves h, if_neg (by simp [hp]), if_neg (Nat.not_le.mpr hv)]
  simp [modArch, prepared, hp]

end Prep

/-! Encodings and conflicts of the slots that write a steer register (R56, R74). -/

theorem encFields_steerConds {n : Nat} {r : (Guard → Src → Fin 12 → Instr) × (Word → Word → Bool)} (h : steerConds[n]? = some r)
    (g : Guard) (src : Src) (k : Fin 12) : encFields (r.1 g src k) = .move (guardCode g) (srcCode src) (0x100 + 8 * k.val + n) := by
  have hn : n < 8 := (List.getElem?_eq_some_iff.mp h).1
  rw [Nat.add_right_comm]
  interval_cases n <;> cases h <;> rfl

/-- The eight compares of a steer register are one unit. -/
theorem unitOfCode_compare (k : Fin 12) {n : Nat} (hn : n < 8) : unitOfCode (0x100 + 8 * k.val + n) = some (100 + k.val) := by
  revert k n
  decide

/-- `prep` of a steer register is of the unit of its compares. -/
theorem unitOfCode_prep (k : Fin 12) : unitOfCode (0x160 + k.val) = some (100 + k.val) := by
  revert k
  decide

/-- The destination code of a compare names its steer register's unit. -/
theorem exists_code_of_compare : ∀ r ∈ steerConds, ∀ (g : Guard) (src : Src) (k : Fin 12),
    ∃ d, encFields (r.1 g src k) = .move (guardCode g) (srcCode src) d ∧ unitOfCode d = some (100 + k.val) := by
  intro r hr g src k
  obtain ⟨n, hn⟩ := List.mem_iff_getElem?.mp hr
  exact ⟨_, encFields_steerConds hn g src k, unitOfCode_compare k (List.getElem?_eq_some_iff.mp hn).1⟩

/-- Moves to two units do not conflict. -/
theorem fieldsConflict_of_units_ne {g s d g' s' d' u u' : Nat} (h : unitOfCode d = some u) (h' : unitOfCode d' = some u')
    (hne : u ≠ u') : fieldsConflict (.move g s d) (.move g' s' d') = false := by
  have hd : d ≠ d' := fun e => hne (Option.some.inj (h.symm.trans (e ▸ h')))
  simp [fieldsConflict, h, h', hd, hne]

/-- Two moves to one unit conflict. -/
theorem fieldsConflict_of_unit_eq {g s d g' s' d' u : Nat} (h : unitOfCode d = some u) (h' : unitOfCode d' = some u) :
    fieldsConflict (.move g s d) (.move g' s' d') = true := by simp [fieldsConflict, h, h']

/-- Settles O11: a compare and `prep` write their steer register alone, and conflict by it alone. -/
theorem steerRegisters : Obligations.SteerRegisters := by
  refine ⟨fun r hr g src k s x hx => ?_, fun g src k s x hx => ⟨exec_skPrep_poisoned hx, exec_skPrep_far hx, fun hp hv => ?_⟩,
    fun n r hn g src k => ⟨_, _, encFields_steerConds hn g src k⟩, fun r hr q hq g src h tgt j k => ⟨fun hjk => ?_, ?_⟩⟩
  · exact ⟨_, (exec_steerConds r hr g src k s).trans (congrArg _ (steerCompare_of_moves hx k r.2)), onlySteer_writeS s g src k _⟩
  · exact ⟨_, exec_skPrep_ok hx hp hv, onlySteer_writeS s g src k _⟩
  · obtain ⟨d, hd, hu⟩ := exists_code_of_compare r hr g src j
    obtain ⟨d', hd', hu'⟩ := exists_code_of_compare q hq h tgt k
    rw [slotsConflict, hd, hd']
    exact fieldsConflict_of_units_ne hu hu' fun e => hjk (Fin.ext (Nat.add_left_cancel e))
  · obtain ⟨d, hd, hu⟩ := exists_code_of_compare r hr g src k
    rw [slotsConflict, hd]
    exact fieldsConflict_of_unit_eq hu (unitOfCode_prep k)

/-! The return from the handler (R105, R306). -/

theorem exec_seqReti_of_moves {g : Guard} {src : Src} {s : State} {x : Val} (h : Moves (.seqReti g src) g src s x) :
    exec (.seqReti g src) s = .next (if retiOk (markGuard s g src) then
        chooseXfer (markGuard s g src) (.reti (startArch (markGuard s g src)).csr.uepc)
      else raise (markGuard s g src) (.seqReti g src) cOperand) := congrArg Host.Outcome.next (runMovePre_of_moves h _ _)

theorem retiOk_outside {s : State} (h : (startArch s).seq.handler = none) : retiOk s = false := by simp [retiOk, h]

theorem retiOk_iff {s : State} {l c : Nat} (h : (startArch s).seq.handler = some (l, c)) :
    retiOk s = true ↔ (startArch s).seq.loops.length = l ∧ (startArch s).seq.calls.length = c ∧ atLoopEnd s = false := by
  simp [retiOk, h, and_assoc]

/-- Outside a handler every register read is the task's own (R304). -/
theorem readG_outside {a : CoreArch} (h : a.seq.handler = none) (k : Fin 32) : readG a k = vget a.regs.g k := by
  simp [readG, inHandler, h]

theorem readS_outside {a : CoreArch} (h : a.seq.handler = none) (k : Fin 12) : readS a k = vget a.regs.s k := by
  simp [readS, inHandler, h]

/-- The core after a return from the handler to `u`, its target due in cycle `tnext` (R306). -/
def returned (a : CoreArch) (u : BAddr) (tnext : Nat) : CoreArch :=
  { leaveHandler a with seq :=
      { (leaveHandler a).seq with pc := u, last := a.seq.pc, next := none, fetchWait := jumpCost a u tnext } }

theorem chooseNext_reti {a : CoreArch} {u : BAddr} (h : a.seq.next = some (.reti u)) (stall : Nat) :
    chooseNext a stall = some (returned a u (a.csr.cyc + stall + 1)) := by
  simp only [chooseNext, h]
  rfl

/-- Settles O17: `seq.reti` returns exactly under `retiOk`, and the boundary then discards the shadow bank. -/
theorem handlerReturn : Obligations.HandlerReturn := by
  refine ⟨fun g src s x hx => ⟨fun hh => ?_, fun l c hh hl hc he => ?_, fun l c hh hbad => ?_⟩, fun a stall u hn =>
    ⟨returned a u _, chooseNext_reti hn stall, rfl, rfl, rfl, rfl, rfl, rfl, rfl, fun k => readG_outside rfl k,
      fun k => readS_outside rfl k⟩⟩
  · rw [exec_seqReti_of_moves hx, if_neg (by rw [retiOk_outside hh]; exact Bool.false_ne_true)]
  · rw [exec_seqReti_of_moves hx, if_pos ((retiOk_iff hh).mpr ⟨hl, hc, he⟩)]
    rfl
  · have hno : ¬ retiOk (markGuard s g src) = true := fun hok => by
      obtain ⟨hl, hc, he⟩ := (retiOk_iff hh).mp hok
      simp [hl, hc, he] at hbad
    rw [exec_seqReti_of_moves hx, if_neg hno]

end Sys2Proof.Proofs
end

section
/-! PROOF. Decoding and encoding agree (R48 to R53, R72 to R81): the codes of guards, sources and destinations decode to what they stand
for, the fields of a word are those it was packed from, and so each well-formed slot operation is decoded from its word. -/

namespace Sys2Proof.Proofs

open Sys2Proof.Machine Sys2Proof.Claims

/-! Codes. -/

@[simp] theorem decodeGuard_guardCode (g : Guard) : decodeGuard (guardCode g) = g := by
  cases g with
  | steer k => simp [guardCode, decodeGuard]
  | always | last | mask => rfl

theorem decodeSrc_imm (n : BitVec 9) : decodeSrc (srcCode (.imm n)) = some (.imm n) := by
  have hn := n.isLt
  have key : ∀ m, 0x100 ≤ m → m < 0x300 → BitVec.ofNat 9 m = n → decodeSrc m = some (.imm n) := by
    intro m hlo hhi h
    rw [decodeSrc]
    iterate 4 rw [dif_neg (by omega)]
    rw [if_neg (by omega)]
    iterate 3 rw [dif_neg (by omega)]
    rw [if_neg (by omega), dif_neg (by omega), if_neg (by omega), if_neg (by omega), if_pos hhi, h]
  simp only [srcCode]
  split
  · exact key _ (by omega) (by omega) (by apply BitVec.eq_of_toNat_eq; simp; omega)
  · exact key _ (by omega) (by omega) (by simp)

@[simp] theorem decodeSrc_srcCode (s : Src) : decodeSrc (srcCode s) = some s := by
  cases s with
  | imm n => exact decodeSrc_imm n
  | res r => cases r <;> rfl
  | l0 | l1 | l2 | l01 | l12 | l012 => rfl
  | g i | v i | p i | s i | a i | m i | h i | loopIx i => revert i; decide

@[simp] theorem decodeDst_dstCode (d : Dst) : decodeDst (dstCode d) = some d := by
  cases d with
  | op o => cases o <;> rfl
  | g i | v i | p i | a i | m i => revert i; decide

theorem guardCode_ne_mask {g : Guard} (h : moveGuardOk g = true) : guardCode g ≠ 14 := by
  cases g with
  | steer k => have := k.isLt; simp only [guardCode]; omega
  | mask => simp [moveGuardOk] at h
  | always | last => simp [guardCode]

theorem guardCode_ne_last {b : Bool} {g : Guard} (h : addrGuardOk b g = true) : guardCode g ≠ 13 := by
  cases g with
  | steer k => have := k.isLt; simp only [guardCode]; omega
  | last => simp [addrGuardOk] at h
  | always | mask => simp [guardCode]

/-! Fields of a packed word. -/

theorem packMove_fields {g s d : Nat} (hg : g < 15) (hs : s < 1024) (hd : d < 1024) :
    packMove g s d / 2 ^ 20 % 16 = g ∧ packMove g s d / 2 ^ 10 % 2 ^ 10 = s ∧ packMove g s d % 2 ^ 10 = d := by
  unfold packMove
  refine ⟨?_, ?_, ?_⟩ <;> omega

theorem decodeMove_packMove {g s d : Nat} (hg : g < 15) (hs : s < 1024) (hd : d < 1024) :
    decodeMove (packMove g s d) = decodeMoveFields g s d := by
  obtain ⟨h1, h2, h3⟩ := packMove_fields hg hs hd
  rw [decodeMove, h1, h2, h3]
  exact if_neg (by omega)

theorem packAddr_fields {g o a k m : Nat} (hg : g < 15) (ho : o < 24) (ha : a < 16) (hk : k < 16) (hm : m < 128) :
    packAddr g o a k m / 2 ^ 20 % 16 = g ∧ packAddr g o a k m / 2 ^ 15 % 32 = o ∧ packAddr g o a k m / 2 ^ 11 % 16 = a ∧
      packAddr g o a k m / 2 ^ 7 % 16 = k ∧ packAddr g o a k m % 128 = m := by
  unfold packAddr
  refine ⟨?_, ?_, ?_, ?_, ?_⟩ <;> omega

theorem decodeAddr_packAddr {g o m : Nat} (a k : Fin 16) (hg : g < 15) (ho : o < 24) (hm : m < 128) :
    decodeAddr (packAddr g o a.val k.val m) = decodeAddrFields g o a k m := by
  obtain ⟨h1, h2, h3, h4, h5⟩ := packAddr_fields hg ho a.isLt k.isLt hm
  have ha : Fin.ofNat 16 (packAddr g o a.val k.val m / 2 ^ 11) = a := Fin.ext h3
  have hk : Fin.ofNat 16 (packAddr g o a.val k.val m / 2 ^ 7) = k := Fin.ext h4
  rw [decodeAddr, h1, h2, ha, hk, h5]
  exact if_neg (by omega)

/-! Slots. -/

/-- An instruction is decoded from its word. -/
def RoundTrips (i : Instr) : Prop := ∀ w, encode i = some w → decodeSlot (if isAddr i then 6 else 0) w = .op i

theorem roundTrips_of_move {i : Instr} {g s d : Nat} (he : encFields i = .move g s d) (hg : g < 15) (hs : s < 1024) (hd : d < 1024)
    (h : decodeMoveFields g s d = .op i) : RoundTrips i := by
  intro w hw
  simp only [encode, he, packSlot, Option.some.injEq] at hw
  subst hw
  have hm : isAddr i = false := by simp [isAddr, he]
  rw [hm, if_neg Bool.false_ne_true, decodeSlot, if_pos (by decide), decodeMove_packMove hg hs hd, h]

theorem roundTrips_of_addr {i : Instr} {g o m : Nat} {a k : Fin 16} (he : encFields i = .addr g o a.val k.val m) (hg : g < 15)
    (ho : o < 24) (hm : m < 128) (h : decodeAddrFields g o a k m = .op i) : RoundTrips i := by
  intro w hw
  simp only [encode, he, packSlot, Option.some.injEq] at hw
  subst hw
  have ha : isAddr i = true := by simp [isAddr, he]
  rw [ha, if_pos rfl, decodeSlot, if_neg (by decide), decodeAddr_packAddr a k hg ho hm, h]

theorem roundTrips_of_event {i : Instr} (he : encFields i = .none) : RoundTrips i := by
  intro w hw
  simp [encode, he, packSlot] at hw

/-- A trigger: its destination code is no register's or operand port's, and names it. -/
theorem roundTrips_of_trigger {i : Instr} {g : Guard} {s : Src} {d : Nat} (hok : moveGuardOk g = true) (he : encFields i = encTrig g s d)
    (hd : d < 1024) (hdst : decodeDst d = none) (htrig : decodeTrigger d g s = some i) : RoundTrips i := by
  refine roundTrips_of_move he (Laws.FieldsFit.guardCode_lt g) (Laws.FieldsFit.srcCode_lt s) hd ?_
  simp only [decodeMoveFields, decodeSrc_srcCode, if_neg (guardCode_ne_mask hok), hdst, decodeGuard_guardCode, htrig]

theorem roundTrips_mov {g : Guard} (s : Src) (d : Dst) (hok : moveGuardOk g = true) : RoundTrips (.mov g s d) := by
  refine roundTrips_of_move rfl (Laws.FieldsFit.guardCode_lt g) (Laws.FieldsFit.srcCode_lt s) (Laws.FieldsFit.dstCode_lt d) ?_
  simp only [decodeMoveFields, decodeSrc_srcCode, if_neg (guardCode_ne_mask hok), decodeDst_dstCode, decodeGuard_guardCode]

theorem decodeDst_vector {n : Nat} (h : 0x20 ≤ n ∧ n < 0x40) : decodeDst n = some (.v ⟨n - 0x20, by omega⟩) := by
  rw [decodeDst, dif_neg (by omega), dif_pos]

theorem roundTrips_masked (s : Src) {d : BitVec 10} (h : 0x20 ≤ d.toNat ∧ d.toNat < 0x40) : RoundTrips (.maskedVectorWrite s d) := by
  refine roundTrips_of_move rfl (by decide) (Laws.FieldsFit.srcCode_lt s) d.isLt ?_
  simp only [decodeMoveFields, decodeSrc_srcCode, if_true, decodeDst_vector h, BitVec.ofNat_toNat, BitVec.setWidth_eq]

theorem decodeDst_steer {n : Nat} (h : 0x100 ≤ n ∧ n < 0x16C) : decodeDst n = none := by
  rw [decodeDst]
  iterate 3 rw [dif_neg (by omega)]
  rw [if_neg (by omega)]
  iterate 2 rw [dif_neg (by omega)]
  iterate 8 rw [if_neg (by omega)]
  rw [if_pos (by omega)]

theorem decodeTrigger_compare {n : Nat} {f : Guard → Src → Fin 12 → Instr} (hf : skTable[n]? = some f) (g : Guard) (s : Src) (k : Fin 12) :
    decodeTrigger (0x100 + n + 8 * k.val) g s = some (f g s k) := by
  have hn : n < 8 := (List.getElem?_eq_some_iff.mp hf).1
  have hk := k.isLt
  have hmod : (0x100 + n + 8 * k.val) % 8 = n := by omega
  have hdiv : (0x100 + n + 8 * k.val - 0x100) / 8 = k.val := by omega
  rw [decodeTrigger]
  iterate 5 rw [if_neg (by omega)]
  rw [dif_pos (by omega)]
  simp only [hmod, hdiv, hf, Option.map_some, Fin.eta]

theorem roundTrips_compare {n : Nat} {f : Guard → Src → Fin 12 → Instr} (hf : skTable[n]? = some f) {g : Guard} {s : Src} {k : Fin 12}
    (hok : moveGuardOk g = true) (he : encFields (f g s k) = encTrig g s (0x100 + n + 8 * k.val)) : RoundTrips (f g s k) := by
  have hn : n < 8 := (List.getElem?_eq_some_iff.mp hf).1
  have hk := k.isLt
  exact roundTrips_of_trigger hok he (by omega) (decodeDst_steer (by omega)) (decodeTrigger_compare hf g s k)

theorem roundTrips_prep {g : Guard} (s : Src) (k : Fin 12) (hok : moveGuardOk g = true) : RoundTrips (.skPrep g s k) := by
  have hk := k.isLt
  have htrig : ∀ k : Fin 12, decodeTrigger (0x160 + k.val) g s = some (.skPrep g s k) := by
    intro k
    fin_cases k <;> rfl
  exact roundTrips_of_trigger hok rfl (by omega) (decodeDst_steer (by omega)) (htrig k)

theorem roundTrips_handle {g : Guard} (s : Src) (k : Fin 16) (hok : moveGuardOk g = true) : RoundTrips (.xlHk g s k) := by
  have hk := k.isLt
  have htrig : ∀ k : Fin 16, decodeTrigger (0x280 + k.val) g s = some (.xlHk g s k) := by
    intro k
    fin_cases k <;> rfl
  have hdst : ∀ k : Fin 16, decodeDst (0x280 + k.val) = none := by decide
  exact roundTrips_of_trigger hok rfl (by omega) (hdst k) (htrig k)

theorem testBit_uBit (u : Bool) {n : Nat} (hn : n < 64) : (uBit u + n).testBit 6 = u := by
  have h : n.testBit 6 = false := Nat.testBit_lt_two_pow hn
  cases u with
  | false => simpa [uBit] using h
  | true => rw [uBit, if_pos rfl, Nat.testBit_two_pow_add_eq (i := 6), h]; rfl

theorem ofNat_uBit {w : Nat} (hw : w ≤ 6) (u : Bool) (o : BitVec w) : BitVec.ofNat w (uBit u + o.toNat) = o := by
  have hdvd : 2 ^ w ∣ uBit u := by
    cases u with
    | false => exact dvd_zero _
    | true => exact Nat.pow_dvd_pow 2 hw
  apply BitVec.eq_of_toNat_eq
  rw [BitVec.toNat_ofNat, Nat.add_mod, Nat.mod_eq_zero_of_dvd hdvd, Nat.zero_add, Nat.mod_mod, Nat.mod_eq_of_lt o.isLt]

theorem roundTrips_near {i : Instr} {g : Guard} {n : Nat} {a : Fin 16} {u : Bool} {o : BitVec 6} {b : Bool} (hok : addrGuardOk b g = true)
    (he : encFields i = encNear g n a u o) (hn : n < 12 ∨ n = 22 ∨ n = 23)
    (hf : (if n < 12 then nearTable[n]? else gatherTable[n - 22]?).map (fun f => f g a u o) = some i) : RoundTrips i := by
  have ho := o.isLt
  have hu := Laws.FieldsFit.uBit_le u
  obtain ⟨f, ht, rfl⟩ := Option.map_eq_some_iff.mp hf
  refine roundTrips_of_addr (k := 0) he (Laws.FieldsFit.guardCode_lt g) (by omega) (by omega) ?_
  simp only [decodeAddrFields, if_neg (guardCode_ne_last hok), if_pos hn, ht, decodeGuard_guardCode, testBit_uBit u ho,
    ofNat_uBit (Nat.le_refl 6) u o, Fin.val_zero, ne_eq, not_true_eq_false, if_false]

theorem far_imm (u : Bool) (l : BitVec 2) : (uBit u + 16 * l.toNat) % 16 = 0 ∧ (uBit u + 16 * l.toNat).testBit 6 = u ∧
    BitVec.ofNat 2 ((uBit u + 16 * l.toNat) / 16) = l ∧ uBit u + 16 * l.toNat < 128 := by
  have hl := l.isLt
  refine ⟨by cases u <;> simp [uBit], testBit_uBit u (by omega), ?_, ?_⟩
  · apply BitVec.eq_of_toNat_eq
    rw [BitVec.toNat_ofNat]
    cases u <;> simp only [uBit] <;> simp <;> omega
  · have := Laws.FieldsFit.uBit_le u
    omega

theorem roundTrips_far {i : Instr} {g : Guard} {n : Nat} {a k : Fin 16} {u : Bool} {l : BitVec 2} {b : Bool} (hok : addrGuardOk b g = true)
    (he : encFields i = encFar g n a k u l) (hlo : 12 ≤ n ∧ n < 18) (hf : farTable[n - 12]?.map (fun f => f g a k u l) = some i) :
    RoundTrips i := by
  obtain ⟨hmod, hbit, hcls, hlt⟩ := far_imm u l
  obtain ⟨f, ht, rfl⟩ := Option.map_eq_some_iff.mp hf
  refine roundTrips_of_addr he (Laws.FieldsFit.guardCode_lt g) (by omega) hlt ?_
  simp only [decodeAddrFields, if_neg (guardCode_ne_last hok), if_neg (show ¬ (n < 12 ∨ n = 22 ∨ n = 23) by omega), if_pos hlo.2, hmod,
    ne_eq, not_true_eq_false, if_false, ht, decodeGuard_guardCode, hbit, hcls]

theorem roundTrips_pf {g : Guard} (a k : Fin 16) (u : Bool) (l : BitVec 2) (hok : addrGuardOk false g = true) :
    RoundTrips (.pf g a k u l) := by
  obtain ⟨hmod, hbit, hcls, hlt⟩ := far_imm u l
  refine roundTrips_of_addr rfl (Laws.FieldsFit.guardCode_lt g) (by decide) hlt ?_
  simp [decodeAddrFields, guardCode_ne_last hok, hmod, hbit, hcls]

theorem roundTrips_atom {i : Instr} {g : Guard} {n : Nat} {a k : Fin 16} {c : BitVec 3} {b : Bool} (hok : addrGuardOk b g = true)
    (he : encFields i = encAtom g n a k c) (hf : atomTable[n]?.map (fun f => f g a k c) = some i) : RoundTrips i := by
  have hc := c.isLt
  obtain ⟨f, ht, rfl⟩ := Option.map_eq_some_iff.mp hf
  have hn : n < 10 := (List.getElem?_eq_some_iff.mp ht).1
  have hdiv : (8 * n + c.toNat) / 8 = n := by omega
  have hscope : BitVec.ofNat 3 (8 * n + c.toNat) = c := by
    apply BitVec.eq_of_toNat_eq
    rw [BitVec.toNat_ofNat]
    omega
  refine roundTrips_of_addr he (Laws.FieldsFit.guardCode_lt g) (by decide) (by omega) ?_
  simp [decodeAddrFields, guardCode_ne_last hok, hdiv, ht, hscope]

theorem roundTrips_aupd {g : Guard} (a : Fin 16) (hok : addrGuardOk false g = true) : RoundTrips (.aupd g a) := by
  refine roundTrips_of_addr (k := 0) rfl (Laws.FieldsFit.guardCode_lt g) (by decide) (by decide) ?_
  simp [decodeAddrFields, guardCode_ne_last hok]

theorem roundTrips_aadd {g : Guard} (a : Fin 16) (n : BitVec 7) (hok : addrGuardOk false g = true) : RoundTrips (.aadd g a n) := by
  refine roundTrips_of_addr (k := 0) rfl (Laws.FieldsFit.guardCode_lt g) (by decide) n.isLt ?_
  simp [decodeAddrFields, guardCode_ne_last hok]

/-- Settles O59, instruction by instruction: each kind of slot has its own form of word. -/
theorem roundTrip : Obligations.RoundTrip := by
  suffices h : ∀ i, wellFormed i = true → RoundTrips i from fun i w hwf => h i hwf w
  intro i h
  cases i with
  | mov g src d => exact roundTrips_mov src d h
  | maskedVectorWrite src d => exact roundTrips_masked src (of_decide_eq_true h)
  | saAdd g src sb | saSub g src sb | saAnd g src sb | saOr g src sb | saXor g src sb | saAndn g src sb | saShl g src sb
  | saShr g src sb | saSar g src sb | saMin g src sb | saMax g src sb | saMinu g src sb | saMaxu g src sb | saMul g src sb
  | saMulh g src sb | saMulhu g src sb | saClz g src sb | saCtz g src sb | saPopc g src sb | saSext g src sb
  | saZext g src sb | saBfx g src sb =>
    cases sb <;> exact roundTrips_of_trigger h rfl (by decide) rfl rfl
  | skEq g src k => exact roundTrips_compare (n := 0) rfl h rfl
  | skNe g src k => exact roundTrips_compare (n := 1) rfl h rfl
  | skLt g src k => exact roundTrips_compare (n := 2) rfl h rfl
  | skGe g src k => exact roundTrips_compare (n := 3) rfl h rfl
  | skLtu g src k => exact roundTrips_compare (n := 4) rfl h rfl
  | skGeu g src k => exact roundTrips_compare (n := 5) rfl h rfl
  | skTst g src k => exact roundTrips_compare (n := 6) rfl h rfl
  | skTstn g src k => exact roundTrips_compare (n := 7) rfl h rfl
  | skPrep g src k => exact roundTrips_prep src k h
  | xlHk g src k => exact roundTrips_handle src k h
  | seqBr g src | seqBrn g src | seqJmp g src | seqCall g src | seqRet g src | seqLoop g src | seqLbrk g src | seqExit g src
  | seqTrap g src | seqWfe g src | seqSev g src | seqReti g src | seqCsrr g src | seqCsrw g src | seqYield g src
  | vuAddF g src | vuSubF g src | vuMulF g src | vuFmaF g src | vuFmsF g src | vuMaxF g src | vuMinF g src | vuAbsF g src
  | vuCmpeqF g src | vuCmpltF g src | vuCmpleF g src | vuAddI g src | vuSubI g src | vuMulI g src | vuMaxI g src
  | vuMinI g src | vuMaxuI g src | vuMinuI g src | vuAnd g src | vuOr g src | vuXor g src | vuShl g src | vuShr g src
  | vuSar g src | vuCmpeqI g src | vuCmpltI g src | vuCmpltuI g src | vuDot4 g src | vuExp2 g src | vuRcp g src
  | vuRsqrt g src | vuRedaddF g src | vuRedmaxF g src | vuRedaddI g src | vuRedmaxI g src | vuRedminI g src | vuScanI g src
  | vuPerm g src | vuRot g src | vuBcast g src | vuSel g src | vuCompress g src | vuExpand g src | vuIota g src
  | vuCvtFI g src | vuCvtIF g src | vuCvtIFZ g src | vuInsE40 g src | vuInsE41 g src | vuInsE42 g src | vuInsE43 g src
  | vuInsQ80 g src | vuInsQ81 g src | vuInsQ82 g src | vuInsQ83 g src | vuInsQ4x0 g src | vuInsQ4x1 g src | vuInsQ4x2 g src
  | vuInsQ4x3 g src | vuInsH0 g src | vuInsH1 g src | vuExtE40 g src | vuExtE41 g src | vuExtE42 g src | vuExtE43 g src
  | vuExtQ80 g src | vuExtQ81 g src | vuExtQ82 g src | vuExtQ83 g src | vuExtQ4x0 g src | vuExtQ4x1 g src | vuExtQ4x2 g src
  | vuExtQ4x3 g src | vuExtQ4x4 g src | vuExtQ4x5 g src | vuExtQ4x6 g src | vuExtQ4x7 g src | vuExtH0 g src | vuExtH1 g src
  | vuSpush g src | vuSpop g src | anvLdw g src | anvSwap g src | anvRun g src | anvRunz g src | anvRunv g src | anvMpb g src
  | anvRd g src | anvWr g src | anvClr g src | anvProg g src | engCopy g src | engCopyMc g src | engSmap g src
  | engSinv g src | engSwb g src | engGather g src | engScatter g src | engTopk g src | engSgemv g src | engSattn g src
  | engSred g src | engCallred g src | engCbcast g src | engCreduce g src | engKvapp g src | engKvcomp g src
  | engPxlook g src | engPxins g src | engPxrel g src | engQfence g src | engQwait g src | engQpoll g src | xlDrop g src
  | tntClr g src | tntJoin g src | tntPclr g src | tntNext g src | tntOf g src | barArrive g src | barWait g src
  | barSync g src | barDrain g src =>
    exact roundTrips_of_trigger h rfl (by decide) rfl rfl
  | ldnB g j u o | ldnH g j u o | ldnW g j u o | ldnD g j u o | ldnV g j u o | ldnT g j u o | stnB g j u o | stnH g j u o
  | stnW g j u o | stnD g j u o | stnV g j u o | stnT g j u o | ldnGv g j u o | stnSv g j u o =>
    exact roundTrips_near h rfl (by decide) rfl
  | ldfW g j k u l | ldfD g j k u l | ldfV g j k u l | stfW g j k u l | stfD g j k u l | stfV g j k u l =>
    exact roundTrips_far (Bool.and_eq_true_iff.mp h).1 rfl (by decide) rfl
  | pf g j k u l => exact roundTrips_pf j k u l (Bool.and_eq_true_iff.mp h).1
  | atomAdd g j k c | atomAnd g j k c | atomOr g j k c | atomXor g j k c | atomMin g j k c | atomMax g j k c
  | atomMinu g j k c | atomMaxu g j k c | atomXchg g j k c | atomCas g j k c =>
    exact roundTrips_atom (Bool.and_eq_true_iff.mp h).1 rfl rfl
  | aupd g j => exact roundTrips_aupd j h
  | aadd g j n => exact roundTrips_aadd j n h
  | _ => exact roundTrips_of_event rfl

end Sys2Proof.Proofs
end

section
/-! PROOF. The one form of every slot operation: a move slot or an address slot runs its effect behind the checks of its encoding and its
guard (R49, R55); so a false or poisoned guard, and an encoding that is not well formed, decide whichever operation it is. -/

namespace Sys2Proof.Proofs

open Sys2Proof.Machine Sys2Proof.Claims

/-- A slot operation runs as a move slot under guard `g`. -/
def RunsMove (i : Instr) (g : Guard) (s : State) : Prop := ∃ src pre f, exec i s = .next (runMovePre i g src pre s f)

/-- A slot operation runs as an address slot under guard `g`. -/
def RunsAddr (i : Instr) (g : Guard) (s : State) : Prop := ∃ j u p f, exec i s = .next (runAddr i g j u p s f)

/-- A slot operation runs as a move slot or as an address slot, under the guard of its word. -/
def RunsSlot (i : Instr) (s : State) : Prop := ∃ g, guardCodeOf i = some (guardCode g) ∧ (RunsMove i g s ∨ RunsAddr i g s)

theorem runsSlot_of_move {i : Instr} {g : Guard} {src : Src} {pre : Option Nat} {f : Val → State → State} {s : State}
    (hc : guardCodeOf i = some (guardCode g)) (h : exec i s = .next (runMovePre i g src pre s f)) : RunsSlot i s :=
  ⟨g, hc, .inl ⟨src, pre, f, h⟩⟩

theorem runsSlot_of_addr {i : Instr} {g : Guard} {j : Fin 16} {u : Bool} {p : AddrIn → Bool} {f : AddrIn → State → State} {s : State}
    (hc : guardCodeOf i = some (guardCode g)) (h : exec i s = .next (runAddr i g j u p s f)) : RunsSlot i s :=
  ⟨g, hc, .inr ⟨j, u, p, f, h⟩⟩

/-- Every instruction with an encoding runs in one of the two forms. -/
theorem runsSlot_of_encFields {i : Instr} (h : encFields i ≠ .none) (s : State) : RunsSlot i s := by
  cases i with
  | mov g src d => exact runsSlot_of_move rfl rfl
  | maskedVectorWrite src d => exact runsSlot_of_move (g := .mask) rfl rfl
  | saAdd g src sb | saSub g src sb | saAnd g src sb | saOr g src sb | saXor g src sb | saAndn g src sb | saShl g src sb
  | saShr g src sb | saSar g src sb | saMin g src sb | saMax g src sb | saMinu g src sb | saMaxu g src sb | saMul g src sb
  | saMulh g src sb | saMulhu g src sb | saClz g src sb | saCtz g src sb | saPopc g src sb | saSext g src sb
  | saZext g src sb | saBfx g src sb =>
    exact runsSlot_of_move rfl rfl
  | skEq g src k | skNe g src k | skLt g src k | skGe g src k | skLtu g src k | skGeu g src k | skTst g src k
  | skTstn g src k =>
    exact runsSlot_of_move rfl rfl
  | skPrep g src k => exact runsSlot_of_move rfl rfl
  | xlHk g src k => exact runsSlot_of_move rfl rfl
  | seqBr g src | seqBrn g src | seqJmp g src | seqCall g src | seqRet g src | seqLoop g src | seqLbrk g src | seqExit g src
  | seqTrap g src | seqWfe g src | seqSev g src | seqReti g src | seqCsrr g src | seqCsrw g src | seqYield g src
  | vuAddF g src | vuSubF g src | vuMulF g src | vuFmaF g src | vuFmsF g src | vuMaxF g src | vuMinF g src | vuAbsF g src
  | vuCmpeqF g src | vuCmpltF g src | vuCmpleF g src | vuAddI g src | vuSubI g src | vuMulI g src | vuMaxI g src
  | vuMinI g src | vuMaxuI g src | vuMinuI g src | vuAnd g src | vuOr g src | vuXor g src | vuShl g src | vuShr g src
  | vuSar g src | vuCmpeqI g src | vuCmpltI g src | vuCmpltuI g src | vuDot4 g src | vuExp2 g src | vuRcp g src
  | vuRsqrt g src | vuRedaddF g src | vuRedmaxF g src | vuRedaddI g src | vuRedmaxI g src | vuRedminI g src | vuScanI g src
  | vuPerm g src | vuRot g src | vuBcast g src | vuSel g src | vuCompress g src | vuExpand g src | vuIota g src
  | vuCvtFI g src | vuCvtIF g src | vuCvtIFZ g src | vuInsE40 g src | vuInsE41 g src | vuInsE42 g src | vuInsE43 g src
  | vuInsQ80 g src | vuInsQ81 g src | vuInsQ82 g src | vuInsQ83 g src | vuInsQ4x0 g src | vuInsQ4x1 g src | vuInsQ4x2 g src
  | vuInsQ4x3 g src | vuInsH0 g src | vuInsH1 g src | vuExtE40 g src | vuExtE41 g src | vuExtE42 g src | vuExtE43 g src
  | vuExtQ80 g src | vuExtQ81 g src | vuExtQ82 g src | vuExtQ83 g src | vuExtQ4x0 g src | vuExtQ4x1 g src | vuExtQ4x2 g src
  | vuExtQ4x3 g src | vuExtQ4x4 g src | vuExtQ4x5 g src | vuExtQ4x6 g src | vuExtQ4x7 g src | vuExtH0 g src | vuExtH1 g src
  | vuSpush g src | vuSpop g src | anvLdw g src | anvSwap g src | anvRun g src | anvRunz g src | anvRunv g src | anvMpb g src
  | anvRd g src | anvWr g src | anvClr g src | anvProg g src | engCopy g src | engCopyMc g src | engSmap g src
  | engSinv g src | engSwb g src | engGather g src | engScatter g src | engTopk g src | engSgemv g src | engSattn g src
  | engSred g src | engCallred g src | engCbcast g src | engCreduce g src | engKvapp g src | engKvcomp g src
  | engPxlook g src | engPxins g src | engPxrel g src | engQfence g src | engQwait g src | engQpoll g src | xlDrop g src
  | tntClr g src | tntJoin g src | tntPclr g src | tntNext g src | tntOf g src | barArrive g src | barWait g src
  | barSync g src | barDrain g src =>
    exact runsSlot_of_move rfl rfl
  | ldnB g j u o | ldnH g j u o | ldnW g j u o | ldnD g j u o | ldnV g j u o | ldnT g j u o | stnB g j u o | stnH g j u o
  | stnW g j u o | stnD g j u o | stnV g j u o | stnT g j u o | ldnGv g j u o | stnSv g j u o =>
    exact runsSlot_of_addr rfl rfl
  | ldfW g j k u l | ldfD g j k u l | ldfV g j k u l | stfW g j k u l | stfD g j k u l | stfV g j k u l =>
    exact runsSlot_of_addr rfl rfl
  | pf g j k u l => exact runsSlot_of_addr rfl rfl
  | atomAdd g j k c | atomAnd g j k c | atomOr g j k c | atomXor g j k c | atomMin g j k c | atomMax g j k c
  | atomMinu g j k c | atomMaxu g j k c | atomXchg g j k c | atomCas g j k c =>
    exact runsSlot_of_addr rfl rfl
  | aupd g j => exact runsSlot_of_addr rfl rfl
  | aadd g j n => exact runsSlot_of_addr rfl rfl
  | _ => exact absurd rfl h

theorem guardCode_eq_steer {g : Guard} {k : Fin 12} (h : guardCode g = k.val + 1) : g = .steer k := by
  have hk := k.isLt
  cases g with
  | steer j => exact congrArg Guard.steer (Fin.ext (Nat.succ.inj h))
  | always | last | mask => simp only [guardCode] at h; omega

theorem exec_of_guard_poisoned {i : Instr} {g : Guard} {s : State} (hwf : wellFormed i = true) (hg : guardRes (startArch s) g = .poisoned)
    (h : RunsMove i g s ∨ RunsAddr i g s) : exec i s = .next (raise s i cPoison) := by
  obtain ⟨src, pre, f, h⟩ | ⟨j, u, p, f, h⟩ := h
  · rw [h, runMovePre_poisoned hwf hg]
  · rw [h, runAddr_poisoned hwf hg]

theorem exec_of_guard_off {i : Instr} {g : Guard} {s : State} (hwf : wellFormed i = true) (hg : guardRes (startArch s) g = .off)
    (h : RunsMove i g s ∨ RunsAddr i g s) : exec i s = .next s := by
  obtain ⟨src, pre, f, h⟩ | ⟨j, u, p, f, h⟩ := h
  · rw [h, runMovePre_off hwf hg]
  · rw [h, runAddr_off hwf hg]

/-- Settles O9: the guard is decided before anything of the slot runs. -/
theorem guards : Obligations.Guards := by
  intro i k s hwf hk
  have henc : encFields i ≠ .none := fun h => by simp [guardCodeOf, h] at hk
  obtain ⟨g, hg, hrun⟩ := runsSlot_of_encFields henc s
  obtain rfl := guardCode_eq_steer (Option.some.inj (hg.symm.trans hk))
  refine ⟨fun hp => exec_of_guard_poisoned hwf ?_ hrun, fun hc hp => exec_of_guard_off hwf ?_ hrun⟩
  · simp [guardRes, hp]
  · simp [guardRes, hc, hp]

theorem runAddr_bad {i : Instr} {g : Guard} {j : Fin 16} {u : Bool} {p : AddrIn → Bool} {s : State} {f : AddrIn → State → State}
    (h : wellFormed i = false) : runAddr i g j u p s f = raise s i cOperand := by simp [runAddr, encodingFault, h, cOperand]

/-- Settles O10: a decoded instruction has an encoding, and the check of it comes first. -/
theorem illFormedFaults : Obligations.IllFormedFaults := by
  intro k w i s hd hwf
  obtain ⟨g, -, ⟨src, pre, f, h⟩ | ⟨j, u, p, f, h⟩⟩ := runsSlot_of_encFields (Laws.encFields_of_decode hd) s
  · rw [h, runMovePre_bad hwf]
    rfl
  · rw [h, runAddr_bad hwf]

end Sys2Proof.Proofs
end

section
/-! PROOF. The plain move, the masked vector write, sources, last-read marks and early reads (R50, R51, R54, R59, R60, R70, R71, R80,
R87). -/

namespace Sys2Proof.Proofs

open Sys2Proof.Machine Sys2Proof.Claims

/-! Registers g (R304). -/

/-- A write to a register g changes the two banks of registers g and nothing else. -/
theorem writeG_eq (a : CoreArch) (i : Fin 32) (y : SReg) : ∃ own sh, writeG a i y =
    { a with regs := { a.regs with g := own }, seq := { a.seq with shadow := { a.seq.shadow with g := sh } } } := by
  unfold writeG
  split
  · exact ⟨_, _, rfl⟩
  · exact ⟨_, _, rfl⟩

@[simp] theorem inHandler_writeG (a : CoreArch) (i : Fin 32) (y : SReg) : inHandler (writeG a i y) = inHandler a := by
  obtain ⟨own, sh, h⟩ := writeG_eq a i y
  rw [h]
  rfl

theorem writeG_shadow {a : CoreArch} {i : Fin 32} (h : inHandler a = true ∧ 24 ≤ i.val) (y : SReg) : writeG a i y =
    { a with seq := { a.seq with shadow := { a.seq.shadow with g := vset a.seq.shadow.g (Fin.ofNat 8 (i.val - 24)) y } } } := if_pos h

theorem writeG_own {a : CoreArch} {i : Fin 32} (h : ¬ (inHandler a = true ∧ 24 ≤ i.val)) (y : SReg) : writeG a i y =
    { a with regs := { a.regs with g := vset a.regs.g i y } } := if_neg h

@[simp] theorem readG_writeG_same (a : CoreArch) (i : Fin 32) (y : SReg) : readG (writeG a i y) i = y := by
  unfold readG
  rw [inHandler_writeG]
  split
  next h => rw [writeG_shadow h, vget_vset_same]
  next h => rw [writeG_own h, vget_vset_same]

/-- The eight registers g of the shadow bank are apart. -/
theorem shadowIndexG_ne {j k : Fin 32} (hj : 24 ≤ j.val) (hk : 24 ≤ k.val) (h : j ≠ k) :
    Fin.ofNat 8 (k.val - 24) ≠ Fin.ofNat 8 (j.val - 24) := by
  simp only [ne_eq, Fin.ext_iff, Fin.val_ofNat] at h ⊢
  omega

theorem readG_writeG_other (a : CoreArch) {j k : Fin 32} (y : SReg) (h : j ≠ k) : readG (writeG a k y) j = readG a j := by
  unfold readG
  rw [inHandler_writeG]
  by_cases hk : inHandler a = true ∧ 24 ≤ k.val
  · rw [writeG_shadow hk]
    split
    next hj => exact vget_vset_other _ _ (shadowIndexG_ne hj.2 hk.2 h)
    next => rfl
  · rw [writeG_own hk]
    split
    next => rfl
    next => exact vget_vset_other _ _ (Ne.symm h)

@[simp] theorem hiddenBank_writeG (a : CoreArch) (k : Fin 32) (y : SReg) : hiddenBank (writeG a k y) = hiddenBank a := by
  unfold hiddenBank
  rw [inHandler_writeG]
  split
  next hin =>
    by_cases hk : 24 ≤ k.val
    · rw [writeG_shadow ⟨hin, hk⟩]
    · have hg : ∀ i ∈ List.range 8, vget (vset a.regs.g k y) (Fin.ofNat 32 (24 + i)) = vget a.regs.g (Fin.ofNat 32 (24 + i)) := by
        intro i hi
        refine vget_vset_other _ _ fun e => hk ?_
        have : k.val = (24 + i) % 32 := congrArg Fin.val e
        have := List.mem_range.mp hi
        omega
      rw [writeG_own fun h => hk h.2]
      exact congrArg (Prod.mk · _) (List.map_congr_left hg)
  next hout => rw [writeG_own fun h => hout h.1]

/-! Operand and result ports. -/

theorem opIndex_injective : Function.Injective opIndex := by
  intro o p
  cases o <;> cases p <;> decide

theorem resIndex_injective : Function.Injective resIndex := by
  intro r p
  cases r <;> cases p <;> decide

@[simp] theorem getOp_setOp_same (a : CoreArch) (o : OpPort) (x : VVal) : getOp (setOp a o x) o = x := vget_vset_same _ _ _

theorem getOp_setOp_other (a : CoreArch) {o p : OpPort} (x : VVal) (h : p ≠ o) : getOp (setOp a o x) p = getOp a p :=
  vget_vset_other _ _ fun e => h (opIndex_injective e.symm)

@[simp] theorem getRes_setRes_same (a : CoreArch) (r : PortId) (x : RPort) : getRes (setRes a r x) r = x := vget_vset_same _ _ _

theorem getRes_setRes_other (a : CoreArch) {r p : PortId} (x : RPort) (h : p ≠ r) : getRes (setRes a r x) p = getRes a p :=
  vget_vset_other _ _ fun e => h (resIndex_injective e.symm)

/-! The write of a destination (R71, R87). -/

/-- An operand port takes the converted value. -/
theorem writeDst_op (a : CoreArch) (o : OpPort) (x : Val) : writeDst a (.op o) x = setOp a o (converted (.op o) x) := by
  cases o <;> rfl

theorem dstHolds_writeDst_same (a : CoreArch) (d : Dst) (x : Val) : dstHolds (writeDst a d x) d = (converted d x, false) := by
  cases d with
  | g i => simp only [writeDst, dstHolds, readG_writeG_same]; rfl
  | v i | p i | a i | m i => simp only [writeDst, dstHolds, vget_vset_same]; rfl
  | op o => simp only [writeDst_op, dstHolds, getOp_setOp_same]

theorem dstHolds_writeG {d : Dst} (a : CoreArch) (i : Fin 32) (y : SReg) (h : d ≠ .g i) : dstHolds (writeG a i y) d = dstHolds a d := by
  obtain ⟨own, sh, hw⟩ := writeG_eq a i y
  cases d with
  | g j => simp only [dstHolds, readG_writeG_other a y fun e => h (congrArg Dst.g e)]
  | v j | p j | a j | m j | op j => rw [hw]; rfl

theorem dstHolds_writeDst_other {d e : Dst} (a : CoreArch) (x : Val) (h : e ≠ d) : dstHolds (writeDst a d x) e = dstHolds a e := by
  cases d with
  | g i => exact dstHolds_writeG a i _ h
  | op o =>
    rw [writeDst_op]
    cases e with
    | op p => simp only [dstHolds, getOp_setOp_other a _ fun hp => h (congrArg Dst.op hp)]
    | g j | v j | p j | a j | m j => rfl
  | v i =>
    cases e with
    | v j => simp only [dstHolds, writeDst, vget_vset_other a.regs.v _ fun hi => h (congrArg Dst.v hi.symm)]
    | g j | p j | a j | m j | op j => rfl
  | p i =>
    cases e with
    | p j => simp only [dstHolds, writeDst, vget_vset_other a.regs.p _ fun hi => h (congrArg Dst.p hi.symm)]
    | g j | v j | a j | m j | op j => rfl
  | a i =>
    cases e with
    | a j => simp only [dstHolds, writeDst, vget_vset_other a.regs.a _ fun hi => h (congrArg Dst.a hi.symm)]
    | g j | v j | p j | m j | op j => rfl
  | m i =>
    cases e with
    | m j => simp only [dstHolds, writeDst, vget_vset_other a.regs.m _ fun hi => h (congrArg Dst.m hi.symm)]
    | g j | v j | p j | a j | op j => rfl

theorem keepsSteers_writeDst (a : CoreArch) (d : Dst) (x : Val) : keepsSteers a (writeDst a d x) := by
  intro k
  cases d with
  | g i => exact readS_writeG a i _ k
  | op o => rw [writeDst_op]; rfl
  | v i | p i | a i | m i => rfl

theorem keepsRest_writeDst (a : CoreArch) (d : Dst) (x : Val) : keepsRest a (writeDst a d x) := by
  cases d with
  | g i =>
    obtain ⟨own, sh, h⟩ := writeG_eq a i x.scalar.reg
    exact ⟨by rw [writeDst, h], hiddenBank_writeG a i _, by rw [writeDst, h]⟩
  | op o => rw [writeDst_op]; exact ⟨rfl, rfl, rfl⟩
  | v i | p i | a i | m i => exact ⟨rfl, rfl, rfl⟩

/-- Noting a written register changes the issue record alone. -/
theorem noteWritten_eq (s : State) (d : Dst) : ∃ i, noteWritten s d = { s with issue := i } := by
  unfold noteWritten
  split
  · exact ⟨_, rfl⟩
  · exact ⟨s.issue, rfl⟩

@[simp] theorem getCore_noteWritten (s : State) (d : Dst) (c : Nat) : getCore (noteWritten s d) c = getCore s c := by
  obtain ⟨i, h⟩ := noteWritten_eq s d
  rw [h]
  rfl

@[simp] theorem arch_noteWritten (s : State) (d : Dst) : arch (noteWritten s d) = arch s := by
  obtain ⟨i, h⟩ := noteWritten_eq s d
  rw [h]
  rfl

/-- A change of the running core's architectural part, with a register noted as written, leaves all but that core and the issue
record. -/
theorem noteWritten_modArch_rest (s : State) (f : CoreArch → CoreArch) (d : Dst) :
    (∀ c, c ≠ s.cur → getCore (noteWritten (modArch s f) d) c = getCore s c) ∧
      { noteWritten (modArch s f) d with cores := s.cores, issue := s.issue } = s := by
  refine ⟨fun c hc => ?_, ?_⟩
  · rw [getCore_noteWritten, getCore_modArch_other s f (Ne.symm hc)]
  · obtain ⟨i, h⟩ := noteWritten_eq (modArch s f) d
    rw [h]
    rfl

theorem exec_mov_of_moves {g : Guard} {src : Src} {dst : Dst} {s : State} {x : Val} (h : Moves (.mov g src dst) g src s x) :
    exec (.mov g src dst) s = .next (noteWritten (modArch (markGuard s g src) (fun a => writeDst a dst x)) dst) :=
  congrArg Host.Outcome.next (runMove_of_moves h _)

/-- Settles O4: a move writes its destination in the state with the last-read mark made. -/
theorem plainMove : Obligations.PlainMove := by
  intro g src dst s x hx
  have harch : arch (noteWritten (modArch (markGuard s g src) (fun a => writeDst a dst x)) dst) =
      writeDst (arch (markGuard s g src)) dst x := by rw [arch_noteWritten, arch_modArch]
  obtain ⟨hcores, hstate⟩ := noteWritten_modArch_rest (markGuard s g src) (fun a => writeDst a dst x) dst
  have hrest : { noteWritten (modArch (markGuard s g src) (fun a => writeDst a dst x)) dst with cores := s.cores, issue := s.issue } = s := by
    refine Eq.trans ?_ (markGuard_but_cores s g src)
    rw [← markGuard_issue s g src]
    exact congrArg (fun t : State => { t with cores := s.cores }) hstate
  have hstash := congrArg State.stash hrest
  have hfar := congrArg State.far hrest
  refine ⟨_, exec_mov_of_moves hx, ?_, fun d hd => ?_, ?_, ?_, fun c hc => ?_, fun k => congrArg (memRead · k) hstash,
    fun p => congrArg (memRead · p) hfar, hrest⟩
  · rw [harch, dstHolds_writeDst_same]
  · rw [harch, dstHolds_writeDst_other _ x hd]
  · rw [harch]
    exact keepsSteers_writeDst _ dst x
  · rw [harch]
    exact keepsRest_writeDst _ dst x
  · rw [hcores c (by rwa [markGuard_cur]), markGuard_getCore_other s g src (Ne.symm hc)]

/-! The masked vector write (R51). -/

@[simp] theorem laneOf_maskLanes (k : Word) (new old : Vec) {j : Nat} (hj : j < 64) :
    laneOf (maskLanes k new old) j = if k.getLsbD j then laneOf new j else laneOf old j := Laws.laneOf_ofLanes _ hj

theorem vecRegOf_code (i : Fin 32) : vecRegOf (BitVec.ofNat 10 (0x20 + i.val)) = i := by
  revert i
  decide

/-- What a masked vector write leaves in its register. -/
def maskedReg (s : State) (i : Fin 32) (x : VVal) : VReg :=
  { v := maskLanes (getOpS (startArch s) .vuK).v x.v (vget (arch s).regs.v i).v,
    t := (vget (arch s).regs.v i).t ||| x.t ||| (getOpS (startArch s) .vuK).t,
    p := (vget (arch s).regs.v i).p || x.p || (getOpS (startArch s) .vuK).p, dead := false }

/-- The state after it. -/
def writeMasked (s : State) (i : Fin 32) (x : VVal) : State :=
  modArch s (fun a => { a with regs := { a.regs with v := vset a.regs.v i (maskedReg s i x) } })

theorem exec_masked_of_moves {src : Src} {i : Fin 32} {s : State} {x : Val}
    (h : Moves (.maskedVectorWrite src (BitVec.ofNat 10 (0x20 + i.val))) .mask src s x) :
    exec (.maskedVectorWrite src (BitVec.ofNat 10 (0x20 + i.val))) s =
      .next (noteWritten (writeMasked s i x.broadcast) (.v i)) := by
  have hm := runMove_of_moves h (fun x s => noteWritten (writeMasked s (vecRegOf (BitVec.ofNat 10 (0x20 + i.val))) x.broadcast)
    (.v (vecRegOf (BitVec.ofNat 10 (0x20 + i.val)))))
  refine (congrArg Host.Outcome.next hm).trans ?_
  rw [vecRegOf_code]
  rfl

/-- Settles O5: only the vector register that the write names changes, lane by lane. -/
theorem maskedMove : Obligations.MaskedMove := by
  intro src i s x hx
  have harch : arch (noteWritten (writeMasked s i x.broadcast) (.v i)) =
      { arch s with regs := { (arch s).regs with v := vset (arch s).regs.v i (maskedReg s i x.broadcast) } } := by
    rw [arch_noteWritten, writeMasked, arch_modArch]
  have hreg : vget (vset (arch s).regs.v i (maskedReg s i x.broadcast)) i = maskedReg s i x.broadcast := vget_vset_same _ _ _
  obtain ⟨hcores, hstate⟩ := noteWritten_modArch_rest s
    (fun a => { a with regs := { a.regs with v := vset a.regs.v i (maskedReg s i x.broadcast) } }) (.v i)
  refine ⟨_, exec_masked_of_moves hx, ?_⟩
  rw [harch]
  simp only [hreg]
  refine ⟨fun j hj => laneOf_maskLanes _ _ _ hj, rfl, rfl, rfl, fun d hd => ?_, fun k => rfl, ⟨rfl, rfl, rfl⟩, hcores, hstate⟩
  cases d with
  | v j => simp only [dstHolds, vget_vset_other (arch s).regs.v _ fun hi => hd (congrArg Dst.v hi.symm)]
  | g j | p j | a j | m j | op j => rfl

/-! Sources (R54, R80, R87, R91). -/

/-- A move without a guard of a readable source is live. -/
theorem moves_mov {src : Src} {d : Dst} {s : State} {y : Val} (h : readSrc s src = .val y) : Moves (.mov .always src d) .always src s (y.join 0) :=
  ⟨rfl, 0, y, rfl, h, rfl⟩

/-- A move of a scalar into a register p. -/
theorem exec_mov_scalar {src : Src} {s : State} {y : SVal} (h : readSrc s src = .val (.sc y)) (d : Fin 8) :
    ∃ t, exec (.mov .always src (.p d)) s = .next t ∧ vget (arch t).regs.p d = y.reg := by
  refine ⟨_, exec_mov_of_moves (moves_mov h), ?_⟩
  rw [arch_noteWritten, arch_modArch]
  simp [writeDst, Val.join, Val.scalar, SVal.reg]

theorem signExtNat_toNat {n : Nat} (w : BitVec n) : signExtNat w.toNat n = w.toInt := by
  have hw := w.isLt
  unfold signExtNat
  rw [Nat.mod_eq_of_lt hw, BitVec.toInt_eq_toNat_cond]
  cases n with
  | zero =>
    have h0 : w.toNat = 0 := by omega
    simp [h0]
  | succ n =>
    rw [if_neg (Nat.succ_ne_zero n), Nat.pow_succ, Nat.add_sub_cancel]
    congr 1
    exact propext ⟨fun h => by omega, fun h => by omega⟩

theorem litWord_toNat {n : Nat} (w : BitVec n) : litWord w.toNat n = BitVec.ofInt 64 w.toInt := by rw [litWord, signExtNat_toNat]

/-- Two literals one above the other. -/
theorem toNat_append_literals {n m : Nat} (hi : BitVec n) (lo : BitVec m) : (hi ++ lo).toNat = hi.toNat * 2 ^ m + lo.toNat := by
  rw [BitVec.toNat_append, Nat.shiftLeft_eq, Nat.mul_comm, Nat.two_pow_add_eq_or_of_lt lo.isLt]

theorem readSrc_literal {s : State} {src : Src} {z : Int} (h : literalValue s src = some z) :
    readSrc s src = .val (.sc (cleanW (BitVec.ofInt 64 z))) := by
  cases src with
  | imm n =>
    cases h
    rfl
  | l0 | l1 | l2 => cases h; simp only [readSrc, litWord_toNat]
  | l01 | l12 =>
    cases h
    simp only [readSrc, ← litWord_toNat, toNat_append_literals]
    rfl
  | l012 =>
    cases h
    simp only [readSrc, ← litWord_toNat, toNat_append_literals]
    norm_num [Nat.add_mul, Nat.mul_assoc]
  | g i | v i | p i | s i | a i | m i | h i | res r | loopIx d => simp [literalValue] at h

/-- A steer register as a source: COND stands above TARGET. -/
theorem steerWord_eq (x : Steer) : steerWord x = BitVec.ofNat 64 (x.target.toNat + if x.cond then 8192 else 0) := by
  have ht := x.target.isLt
  apply BitVec.eq_of_toNat_eq
  cases hc : x.cond with
  | false => simp [steerWord, hc]
  | true =>
    have hor : x.target.toNat ||| 8192 = 8192 + x.target.toNat := by
      rw [Nat.or_comm]
      exact (Nat.two_pow_add_eq_or_of_lt (i := 13) ht 1).symm
    have hlt : x.target.toNat < 18446744073709551616 := by omega
    have hlt' : x.target.toNat + 8192 < 18446744073709551616 := by omega
    simp [steerWord, hc, Nat.mod_eq_of_lt hlt, Nat.mod_eq_of_lt hlt', hor, Nat.add_comm]

theorem loopIndex_eq (a : CoreArch) (d : Nat) :
    loopIndex a d = BitVec.ofNat 64 (match a.seq.loops[d]? with | some l => l.index.toNat | none => 0) := by
  unfold loopIndex
  cases a.seq.loops[d]? with
  | some l => exact (BitVec.ofNat_toNat 64 l.index).symm
  | none => rfl

/-- Settles O6: each source reads as its own kind of value, and the move writes it. -/
theorem sources : Obligations.Sources := by
  refine ⟨fun s src z d h => exec_mov_scalar (readSrc_literal h) d, fun s d => ⟨fun k => ?_, fun n => ?_, fun k => ?_⟩⟩
  · rw [← steerWord_eq]
    exact exec_mov_scalar (y := ⟨steerWord _, steerTaint _, steerPoison _⟩) rfl d
  · obtain ⟨t, he, hr⟩ := exec_mov_scalar (src := .loopIx n) (y := cleanW (loopIndex (startArch s) n.val)) rfl d
    exact ⟨t, he, hr.trans (congrArg (fun w => (cleanW w).reg) (loopIndex_eq (startArch s) n.val))⟩
  · rw [BitVec.ofNat_toNat]
    exact exec_mov_scalar (y := cleanW _) rfl d

/-! Last-read marks (R50). -/

/-- Settles O7: the mark sets the dead or empty flag of its source. -/
theorem lastReadMark : Obligations.LastReadMark := by
  intro s
  refine ⟨fun i h => ?_, fun i h => ?_, fun i h => ?_, fun i h => ?_, fun i h => ?_, fun r => ?_, fun i h => ?_, fun g src hg => ?_⟩
  · simp [markGuard, markLast, h]
  · simp [markGuard, markLast, h]
  · simp [markGuard, markLast, h]
  · simp [markGuard, markLast, h]
  · simp [markGuard, markLast, h]
  · simp [markGuard, markLast]
  · simp [markGuard, markLast, h]
  · simp [markGuard, hg]

/-! Early reads (R59, R60). -/

/-- What an early read gives a live slot without a guard: the scoreboard fault, or a free value. -/
theorem runMove_early {i : Instr} {src : Src} {s : State} (hwf : wellFormed i = true)
    (h : readSrc s src = .earlyScalar ∨ readSrc s src = .earlyVector) (f : Val → State → State) :
    ∃ b, runMove i .always src s f = if sbchkOn s then raiseWith s i cScoreboard (srcCode src) 0
      else f ((freeVal b s.freeCtr).join 0) (takeFree s).2 := by
  have hrun : ∀ b, fetchSrc i .always 0 src none s = (if sbchkOn s then .inl (earlyFault i src none s)
      else .inr ((freeVal b (takeFree s).1).join 0, markGuard (takeFree s).2 .always src)) →
      runMove i .always src s f = if sbchkOn s then raiseWith s i cScoreboard (srcCode src) 0
        else f ((freeVal b s.freeCtr).join 0) (takeFree s).2 := by
    intro b hb
    by_cases hs : sbchkOn s = true
    · simp only [runMove, runMovePre, encodingFault_wf hwf, guardRes, hb, hs, if_true, earlyFault]
    · simp only [runMove, runMovePre, encodingFault_wf hwf, guardRes, hb, hs]
      rfl
  obtain h | h := h
  · exact ⟨false, hrun false (by simp only [fetchSrc, h])⟩
  · exact ⟨true, hrun true (by simp only [fetchSrc, h])⟩

theorem freeVal_taint (b : Bool) (n : Nat) : ((freeVal b n).join 0).scalar.t = 0xFFFF#16 := by
  cases b <;> exact BitVec.or_zero

/-- Settles O8: `sbchk` decides between the fault and the free value. -/
theorem earlyRead : Obligations.EarlyRead := by
  intro src i s h
  obtain ⟨b, hb⟩ := runMove_early (i := .mov .always src (.p i)) rfl h
    (fun x s => noteWritten (modArch s (fun a => writeDst a (.p i) x)) (.p i))
  refine ⟨fun hs => ?_, fun hs => ⟨_, congrArg Host.Outcome.next (hb.trans (if_neg (by simp [sbchkOn, hs]))), ?_⟩⟩
  · exact congrArg Host.Outcome.next (hb.trans (if_pos hs))
  · rw [arch_noteWritten, arch_modArch]
    simp only [writeDst, vget_vset_same, SVal.reg, freeVal_taint, and_self]

end Sys2Proof.Proofs
end

section
/-! PROOF. The scalar operations on two operands and on t alone (R73, R85, R88), the words written out from the encoding tables, and the
state after reset. -/

namespace Sys2Proof.Proofs

open Sys2Proof.Machine Sys2Proof.Claims

/-! Two operands (R88). -/

theorem shiftCount_eq (t : Word) : shiftCount t = t.toNat % 64 := rfl

theorem shiftLeft_eq_ofNat (o : Word) (n : Nat) : o <<< n = BitVec.ofNat 64 (o.toNat * 2 ^ n) := by
  apply BitVec.eq_of_toNat_eq
  simp [Nat.shiftLeft_eq]

theorem ushiftRight_eq_ofNat (o : Word) (n : Nat) : o >>> n = BitVec.ofNat 64 (o.toNat / 2 ^ n) := by
  apply BitVec.eq_of_toNat_eq
  have hlt : o.toNat / 2 ^ n < 2 ^ 64 := Nat.lt_of_le_of_lt (Nat.div_le_self _ _) o.isLt
  rw [BitVec.toNat_ushiftRight, Nat.shiftRight_eq_div_pow, BitVec.toNat_ofNat, Nat.mod_eq_of_lt hlt]

theorem sshiftRight_eq_ofInt {w : Nat} (o : BitVec w) (n : Nat) : o.sshiftRight n = BitVec.ofInt w (o.toInt / 2 ^ n) := by
  rw [BitVec.sshiftRight, Int.shiftRight_eq_div_pow]
  norm_cast

theorem minSigned_eq {w : Nat} (o t : BitVec w) : (if t.slt o then t else o) = BitVec.ofInt w (min o.toInt t.toInt) := by
  rw [BitVec.slt_eq_decide]
  by_cases h : t.toInt < o.toInt
  · rw [decide_eq_true h, if_pos rfl, min_eq_right h.le, BitVec.ofInt_toInt]
  · rw [decide_eq_false h, if_neg Bool.false_ne_true, min_eq_left (not_lt.mp h), BitVec.ofInt_toInt]

theorem maxSigned_eq {w : Nat} (o t : BitVec w) : (if o.slt t then t else o) = BitVec.ofInt w (max o.toInt t.toInt) := by
  rw [BitVec.slt_eq_decide]
  by_cases h : o.toInt < t.toInt
  · rw [decide_eq_true h, if_pos rfl, max_eq_right h.le, BitVec.ofInt_toInt]
  · rw [decide_eq_false h, if_neg Bool.false_ne_true, max_eq_left (not_lt.mp h), BitVec.ofInt_toInt]

theorem minUnsigned_eq {w : Nat} (o t : BitVec w) : (if t.ult o then t else o) = BitVec.ofNat w (min o.toNat t.toNat) := by
  rw [BitVec.ult_eq_decide]
  by_cases h : t.toNat < o.toNat
  · rw [decide_eq_true h, if_pos rfl, min_eq_right h.le, BitVec.ofNat_toNat, BitVec.setWidth_eq]
  · rw [decide_eq_false h, if_neg Bool.false_ne_true, min_eq_left (not_lt.mp h), BitVec.ofNat_toNat, BitVec.setWidth_eq]

theorem maxUnsigned_eq {w : Nat} (o t : BitVec w) : (if o.ult t then t else o) = BitVec.ofNat w (max o.toNat t.toNat) := by
  rw [BitVec.ult_eq_decide]
  by_cases h : o.toNat < t.toNat
  · rw [decide_eq_true h, if_pos rfl, max_eq_right h.le, BitVec.ofNat_toNat, BitVec.setWidth_eq]
  · rw [decide_eq_false h, if_neg Bool.false_ne_true, max_eq_left (not_lt.mp h), BitVec.ofNat_toNat, BitVec.setWidth_eq]

theorem add_eq_ofNat {w : Nat} (o t : BitVec w) : o + t = BitVec.ofNat w (o.toNat + t.toNat) := by
  apply BitVec.eq_of_toNat_eq
  simp

theorem sub_eq_ofInt {w : Nat} (o t : BitVec w) : o - t = BitVec.ofInt w ((o.toNat : Int) - t.toNat) := by
  rw [Int.sub_eq_add_neg, BitVec.ofInt_add, BitVec.ofInt_neg, BitVec.ofInt_natCast, BitVec.ofInt_natCast]
  simp [BitVec.sub_eq_add_neg]

theorem mul_eq_ofNat {w : Nat} (o t : BitVec w) : o * t = BitVec.ofNat w (o.toNat * t.toNat) := by
  apply BitVec.eq_of_toNat_eq
  simp

theorem highWord_ofNat (n : Nat) : highWord n = BitVec.ofNat 64 (n / 2 ^ 64) := by
  rw [highWord, ← BitVec.ofInt_natCast]
  norm_cast

/-- The table of the statement is that of the model's latencies and values. -/
theorem scalarTwo_eq : scalarTwo =
    [(.saAdd, 1, fun o t => o + t), (.saSub, 1, fun o t => o - t), (.saAnd, 1, fun o t => o &&& t), (.saOr, 1, fun o t => o ||| t),
     (.saXor, 1, fun o t => o ^^^ t), (.saAndn, 1, fun o t => o &&& ~~~t), (.saShl, 1, fun o t => o <<< shiftCount t),
     (.saShr, 1, fun o t => o >>> shiftCount t), (.saSar, 1, fun o t => o.sshiftRight (shiftCount t)),
     (.saMin, 1, fun o t => if t.slt o then t else o), (.saMax, 1, fun o t => if o.slt t then t else o),
     (.saMinu, 1, fun o t => if t.ult o then t else o), (.saMaxu, 1, fun o t => if o.ult t then t else o),
     (.saMul, 3, fun o t => o * t), (.saMulh, 3, fun o t => highWord (o.toInt * t.toInt)),
     (.saMulhu, 3, fun o t => highWord ((o.toNat : Int) * (t.toNat : Int)))] := by
  simp only [shiftCount_eq, shiftLeft_eq_ofNat, ushiftRight_eq_ofNat, sshiftRight_eq_ofInt, minSigned_eq, maxSigned_eq, minUnsigned_eq,
    maxUnsigned_eq, add_eq_ofNat, sub_eq_ofInt, mul_eq_ofNat, ← Nat.cast_mul, highWord_ofNat]
  rfl

theorem exec_scalarTwo : ∀ r ∈ scalarTwo, ∀ (g : Guard) (src : Src) (sb : Bool) (s : State),
    exec (r.1 g src sb) s = .next (scalarOp2 (r.1 g src sb) g src sb r.2.1 r.2.2 s) := by
  rw [scalarTwo_eq]
  simp only [List.forall_mem_cons]
  exact ⟨fun _ _ _ _ => rfl, fun _ _ _ _ => rfl, fun _ _ _ _ => rfl, fun _ _ _ _ => rfl, fun _ _ _ _ => rfl, fun _ _ _ _ => rfl,
    fun _ _ _ _ => rfl, fun _ _ _ _ => rfl, fun _ _ _ _ => rfl, fun _ _ _ _ => rfl, fun _ _ _ _ => rfl, fun _ _ _ _ => rfl,
    fun _ _ _ _ => rfl, fun _ _ _ _ => rfl, fun _ _ _ _ => rfl, fun _ _ _ _ => rfl, fun _ h => nomatch h⟩

/-- A result of a scalar unit at a latency, in the state after the last-read mark. -/
theorem delivers_scalarDue_lat (s : State) (g : Guard) (src : Src) (sb : Bool) (lat : Nat) (v : SVal) :
    delivers (markGuard s g src) (scalarDue s sb lat v.v v.t v.p) (deliverS (markGuard s g src) (scalarResult sb) lat v) := by
  have h := delivers_deliverS (markGuard s g src) (scalarResult sb) lat v
  rwa [shortDue_markGuard] at h

/-- Settles O1: each two-operand operation delivers its value with both taints and both poisons. -/
theorem scalarTwoOperand : Obligations.ScalarTwoOperand := by
  intro r hr g src sb s x hx
  refine ⟨_, (exec_scalarTwo r hr g src sb s).trans (congrArg _ (runMove_of_moves hx _)), ?_⟩
  rw [getOpS_markGuard]
  exact delivers_scalarDue_lat s g src sb r.2.1
    ⟨r.2.2 (scalarO s sb).v x.scalar.v, (scalarO s sb).t ||| x.scalar.t, (scalarO s sb).p || x.scalar.p⟩

/-! One operand (R88). -/

theorem range_succ_takeWhile_length (p : Nat → Bool) (n : Nat) :
    ((List.range (n + 1)).takeWhile p).length = if p 0 then ((List.range n).takeWhile (fun i => p (i + 1))).length + 1 else 0 := by
  rw [List.range_succ_eq_map, List.takeWhile_cons]
  split
  · rw [List.takeWhile_map, List.length_cons, List.length_map]
    rfl
  · rfl

theorem clzNat_eq (x : Nat) (n : Nat) : clzNat x n = ((List.range n).takeWhile (fun i => !x.testBit (n - 1 - i))).length := by
  induction n with
  | zero => rfl
  | succ n ih =>
    rw [range_succ_takeWhile_length, clzNat, ih]
    have hbits : ∀ i, n - 1 - i = n - (i + 1) := fun i => by omega
    cases hx : x.testBit n with
    | true => simp [hx]
    | false => simp [hx, hbits]

theorem ctzFrom_eq (x : Nat) (n at_ : Nat) : ctzFrom x at_ n = ((List.range n).takeWhile (fun i => !x.testBit (at_ + i))).length := by
  induction n generalizing at_ with
  | zero => rfl
  | succ n ih =>
    rw [range_succ_takeWhile_length, ctzFrom, ih]
    have hbits : ∀ i, at_ + 1 + i = at_ + (i + 1) := fun i => by omega
    cases x.testBit at_ with
    | true => simp
    | false => simp [hbits]

theorem popNat_eq (x : Nat) (n : Nat) : popNat x n = (List.range n).countP (fun i => x.testBit i) := by
  induction n with
  | zero => rfl
  | succ n ih => rw [List.range_succ, List.countP_append, popNat, ih, List.countP_singleton]

/-- The table of the statement is that of the model's counts. -/
theorem scalarOne_eq : scalarOne =
    [(.saClz, fun t => clzNat t.toNat 64), (.saCtz, fun t => ctzFrom t.toNat 0 64), (.saPopc, fun t => popNat t.toNat 64)] := by
  simp only [clzNat_eq, ctzFrom_eq, popNat_eq, Nat.zero_add]
  rfl

theorem exec_scalarOne : ∀ r ∈ scalarOne, ∀ (g : Guard) (src : Src) (sb : Bool) (s : State),
    exec (r.1 g src sb) s = .next (scalarOp1 (r.1 g src sb) g src sb r.2 s) := by
  rw [scalarOne_eq]
  simp only [List.forall_mem_cons]
  exact ⟨fun _ _ _ _ => rfl, fun _ _ _ _ => rfl, fun _ _ _ _ => rfl, fun _ h => nomatch h⟩

/-- Settles O2: the operand port is not read. -/
theorem scalarOneOperand : Obligations.ScalarOneOperand := by
  intro r hr g src sb s x hx
  refine ⟨_, (exec_scalarOne r hr g src sb s).trans (congrArg _ (runMove_of_moves hx _)), ?_⟩
  exact delivers_scalarDue_lat s g src sb 1 ⟨BitVec.ofNat 64 (r.2 x.scalar.v), x.scalar.t, x.scalar.p⟩

/-! Words and reset. -/

/-- Settles O58, word by word. -/
theorem decodeWords : Obligations.DecodeWords := by
  unfold Obligations.DecodeWords moveWords addressWords
  decide

/-- No core, quad or block is listed after reset, so each reads as its reset value. -/
theorem getCore_reset (c : Nat) : getCore State.reset c = Core.reset := rfl

theorem getQuad_reset (q : Nat) : getQuad State.reset q = Quad.reset q := rfl

theorem vget_replicate {α : Type} {n : Nat} (x : α) (i : Fin n) : vget (Vector.replicate n x) i = x := by simp [vget]

/-- No block is listed after reset. -/
theorem blkState_zero : blkState 0 = stFree := by
  have hz : (0 : BitVec 2048).toNat = 0 := BitVec.toNat_zero
  rw [blkState, blkField, hz, natField, Nat.zero_shiftRight, Nat.zero_mod]
  rfl

/-- Settles O56: the lists of the reset state are empty, and what is not listed has its reset value. -/
theorem resetState : Obligations.ResetState := by
  have hblock : ∀ ctx, getBlock State.reset ctx = 0 := fun ctx => rfl
  refine ⟨fun c => ?_, fun q => ?_, fun a => ⟨rfl, rfl⟩, fun ctx => ?_, rfl, rfl, rfl, memories_reset⟩
  · rw [getCore_reset]
    exact ⟨rfl, fun i => vget_replicate SReg.zero i, fun i => vget_replicate VReg.zero i, rfl, rfl, rfl, rfl⟩
  · rw [getQuad_reset]
    exact ⟨rfl, rfl, rfl⟩
  · rw [hblock, blkState_zero]

end Sys2Proof.Proofs
end

section
/-! PROOF. The sequencer's operations: branches, jumps, calls, loops, exit, traps, events and control registers (R82, R83, R94 to
R107). -/

namespace Sys2Proof.Proofs

open Sys2Proof.Machine Sys2Proof.Claims

/-! A state written twice. -/

theorem alPut_alPut_same {α : Type} (l : List (Nat × α)) (n : Nat) (x y : α) : alPut (alPut l n x) n y = alPut l n y := by
  induction l with
  | nil => simp [alPut]
  | cons e t ih =>
    obtain ⟨k, v⟩ := e
    simp only [alPut]
    by_cases h1 : n < k
    · simp [h1, alPut]
    · by_cases h2 : n = k
      · simp [h2, alPut]
      · simp [h1, h2, alPut, ih]

@[simp] theorem setCore_setCore_same (s : State) (c : Nat) (x y : Core) : setCore (setCore s c x) c y = setCore s c y := by
  simp [setCore, alPut_alPut_same]

@[simp] theorem setArch_setArch (s : State) (a b : CoreArch) : setArch (setArch s a) b = setArch s b := by
  simp [setArch]

theorem modSeq_eq (s : State) (f : Sequencer → Sequencer) : modSeq s f = setArch s { arch s with seq := f (arch s).seq } := rfl

theorem joinPath_eq (s : State) (e : TSet) : joinPath s e = sequenced s e (arch s).seq := rfl

@[simp] theorem arch_sequenced (s : State) (e : TSet) (q : Sequencer) : arch (sequenced s e q) =
    { arch s with seq := q, order := { (arch s).order with path := (arch s).order.path ||| e } } := arch_setArch _ _

theorem modSeq_sequenced (s : State) (e : TSet) (q : Sequencer) (f : Sequencer → Sequencer) :
    modSeq (sequenced s e q) f = sequenced s e (f q) := by
  rw [modSeq_eq, arch_sequenced]
  exact setArch_setArch _ _ _

theorem modSeq_modSeq (s : State) (f g : Sequencer → Sequencer) : modSeq (modSeq s f) g = modSeq s (fun q => g (f q)) := by
  simp only [modSeq_eq, arch_setArch, setArch_setArch]

theorem chooseXfer_sequenced (s : State) (e : TSet) (q : Sequencer) (x : Xfer) :
    chooseXfer (sequenced s e q) x = sequenced s e { q with next := some x } := modSeq_sequenced s e q _

/-- A change of the sequencer with no taint. -/
theorem modSeq_eq_sequenced (s : State) (f : Sequencer → Sequencer) : modSeq s f = sequenced s 0 (f (arch s).seq) := by
  rw [modSeq_eq, sequenced, show (arch s).order.path ||| 0 = (arch s).order.path from BitVec.or_zero]

@[simp] theorem markGuard_steer (s : State) (g : Guard) (k : Fin 12) : markGuard s g (.s k) = s := by
  unfold markGuard
  split <;> rfl

/-! Branches (R94). -/

/-- `seq.br` or `seq.brn`. -/
def branchInstr (onSet : Bool) (g : Guard) (src : Src) : Instr := if onSet then .seqBr g src else .seqBrn g src

theorem exec_branchInstr (onSet : Bool) (g : Guard) (src : Src) (s : State) :
    exec (branchInstr onSet g src) s = .next (branchOp (branchInstr onSet g src) g src onSet s) := by cases onSet <;> rfl

/-- A live branch through a steer register: poison, the END of the loop, the path taint, the transfer. -/
theorem branchOp_steer {i : Instr} {g : Guard} {k : Fin 12} {s : State} {x : Val} (h : Moves i g (.s k) s x) (onSet : Bool) :
    branchOp i g (.s k) onSet s =
      if steerPoison (readS (startArch s) k) then raise s i cPoison
      else if atLoopEnd s then raise s i cOperand
      else sequenced s (steerTaint (readS (startArch s) k))
        (if (readS (startArch s) k).cond = onSet then
          { (arch s).seq with next := some (.branch (readS (startArch s) k).target (readS (startArch s) k).prep) } else (arch s).seq) := by
  rw [branchOp, runMovePre_of_moves h, markGuard_steer]
  simp only [joinPath_eq, chooseXfer_sequenced]
  congr 2
  split <;> rfl

theorem branchOp_other {i : Instr} {g : Guard} {src : Src} {s : State} {x : Val} (h : Moves i g src s x) (hsrc : ∀ k, src ≠ .s k)
    (onSet : Bool) : branchOp i g src onSet s = raise (markGuard s g src) i cOperand := by
  rw [branchOp, runMovePre_of_moves h]
  cases src with
  | s k => exact absurd rfl (hsrc k)
  | g i | v i | p i | a i | m i | h i | res r | loopIx d | imm n | l0 | l1 | l2 | l01 | l12 | l012 => rfl

/-- Settles O12: the steer register's poison, the loop's END and COND decide, in that order. -/
theorem branches : Obligations.Branches := by
  intro onSet g src s x
  change Moves (branchInstr onSet g src) g src s x → _
  intro hx
  rw [show (if onSet then Instr.seqBr g src else .seqBrn g src) = branchInstr onSet g src from rfl, exec_branchInstr]
  refine ⟨fun k hk hp => ?_, fun k hk hp he => ?_, fun k hk hp he => ?_, fun hsrc => ?_⟩
  · subst hk
    rw [branchOp_steer hx, if_pos hp]
  · subst hk
    rw [branchOp_steer hx, if_neg (by simp [hp]), if_pos he]
  · subst hk
    rw [branchOp_steer hx, if_neg (by simp [hp]), if_neg (by simp [he])]
  · rw [branchOp_other hx hsrc]

/-! Jumps, calls and returns (R96). -/

theorem setWidth_eq_ofNat {w : Nat} (n : Nat) (t : BitVec w) : t.setWidth n = BitVec.ofNat n t.toNat := (BitVec.ofNat_toNat n t).symm

theorem exec_seqJmp_of_moves {g : Guard} {src : Src} {s : State} {x : Val} (h : Moves (.seqJmp g src) g src s x) :
    exec (.seqJmp g src) s = .next (if x.scalar.p then raise (markGuard s g src) (.seqJmp g src) cPoison
      else if 8192 ≤ x.scalar.v.toNat ∨ atLoopEnd (markGuard s g src) then raise (markGuard s g src) (.seqJmp g src) cOperand
      else sequenced (markGuard s g src) x.scalar.t
        { (arch (markGuard s g src)).seq with next := some (.jump (BitVec.ofNat 13 x.scalar.v.toNat)) }) := by
  refine (congrArg Host.Outcome.next (runMovePre_of_moves h _ _)).trans ?_
  simp only [joinPath_eq, chooseXfer_sequenced, setWidth_eq_ofNat 13]

theorem exec_seqCall_of_moves {g : Guard} {src : Src} {s : State} {x : Val} (h : Moves (.seqCall g src) g src s x) :
    let s1 := markGuard s g src
    exec (.seqCall g src) s = .next (if (startArch s1).seq.pc = 8191 then raise s1 (.seqCall g src) cIllegalBundle
      else if x.scalar.p then raise s1 (.seqCall g src) cPoison
      else if 8192 ≤ x.scalar.v.toNat ∨ atLoopEnd s1 then raise s1 (.seqCall g src) cOperand
      else if 8 ≤ (startArch s1).seq.calls.length then raise s1 (.seqCall g src) cCallDepth
      else sequenced s1 x.scalar.t { (arch s1).seq with
        calls := { ret := (arch s1).seq.pc + 1, at_ := .inCycle (startArch s1).csr.cyc } :: (arch s1).seq.calls,
        next := some (.jump (BitVec.ofNat 13 x.scalar.v.toNat)) }) := by
  intro s1
  refine (congrArg Host.Outcome.next (runMovePre_of_moves h _ _)).trans ?_
  simp only [joinPath_eq, modSeq_sequenced, chooseXfer_sequenced, setWidth_eq_ofNat 13]
  rfl

/-- What `seq.ret` does with the call stack (R96). -/
def returnTo (s : State) (i : Instr) : List CallEntry → State
  | [] => raise s i cCallDepth
  | e :: rest => sequenced s 0 { (arch s).seq with calls := rest, next := some (.ret e.ret e.at_) }

theorem exec_seqRet_of_moves {g : Guard} {src : Src} {s : State} {x : Val} (h : Moves (.seqRet g src) g src s x) :
    exec (.seqRet g src) s = .next (if atLoopEnd (markGuard s g src) then raise (markGuard s g src) (.seqRet g src) cOperand
      else returnTo (markGuard s g src) (.seqRet g src) (startArch (markGuard s g src)).seq.calls) := by
  refine congrArg Host.Outcome.next ((runMovePre_of_moves h _ _).trans (congrArg (ite _ _) ?_))
  cases (startArch (markGuard s g src)).seq.calls with
  | nil => rfl
  | cons e rest =>
    change modSeq (modSeq _ _) _ = _
    rw [modSeq_modSeq, modSeq_eq_sequenced]
    rfl

/-- Settles O13: the checks of each transfer in their order, then the transfer. -/
theorem jumpsAndCalls : Obligations.JumpsAndCalls := by
  intro g src s x
  refine ⟨fun hx => ?_, fun hx => ?_, fun hx => ?_⟩
  · rw [exec_seqJmp_of_moves hx]
    refine ⟨fun hp => by rw [if_pos hp], fun hp hb => by rw [if_neg (by simp [hp]), if_pos hb], fun hp hv he => ?_⟩
    rw [if_neg (by simp [hp]), if_neg (by simp [he, hv])]
  · rw [exec_seqCall_of_moves hx]
    refine ⟨fun hpc => by rw [if_pos hpc], fun hpc hp => by rw [if_neg hpc, if_pos hp],
      fun hpc hp hb => by rw [if_neg hpc, if_neg (by simp [hp]), if_pos hb], fun hpc hp hv he => ⟨fun hd => ?_, fun hd => ?_⟩⟩
    · rw [if_neg hpc, if_neg (by simp [hp]), if_neg (by simp [he, hv]), if_pos hd]
    · rw [if_neg hpc, if_neg (by simp [hp]), if_neg (by simp [he, hv]), if_neg (Nat.not_le.mpr hd)]
  · rw [exec_seqRet_of_moves hx]
    refine ⟨fun he => by rw [if_pos he], fun he hc => ?_, fun e rest he hc => ?_⟩
    · rw [if_neg (by simp [he]), hc]
      rfl
    · rw [if_neg (by simp [he]), hc]
      rfl

/-! Loops (R97 to R99). -/

/-- Whether the innermost open loop ends before bundle `e`. -/
def endsBefore (q : Sequencer) (e : Nat) : Bool := match innerLoop q with | some l => decide (l.stop.toNat < e) | none => false

theorem endsBefore_false {q : Sequencer} {e : Nat} (h : ∀ l, innerLoop q = some l → e ≤ l.stop.toNat) : endsBefore q e = false := by
  unfold endsBefore
  split
  next l hl => exact decide_eq_false (Nat.not_lt.mpr (h l hl))
  next => rfl

/-- The effect of a loop whose operands are in order (R97, R98). -/
def loopOpened (s : State) (i : Instr) (n t : SVal) : State :=
  let q := (startArch s).seq
  if 6 ≤ q.loops.length then raise s i cLoopDepth
  else if n.v = 0 then
    if 8192 ≤ (nextAfter q t.v.toNat).2 then raise s i cIllegalBundle
    else sequenced s (n.t ||| t.t)
      { (arch s).seq with loops := (nextAfter q t.v.toNat).1, next := some (.looped (nextAfter q t.v.toNat).2) }
  else sequenced s (n.t ||| t.t)
    { (arch s).seq with
      loops := { start := q.pc + 1, stop := BitVec.ofNat 13 t.v.toNat, count := BitVec.ofNat 32 n.v.toNat, index := 0 } :: (arch s).seq.loops,
      next := some (.opened (q.pc + 1)) }

theorem exec_seqLoop_of_moves {g : Guard} {src : Src} {s : State} {x : Val} (h : Moves (.seqLoop g src) g src s x) :
    let s1 := markGuard s g src
    let n := getOpS (arch s) .seqLo
    exec (.seqLoop g src) s = .next (if x.scalar.p || n.p then raise s1 (.seqLoop g src) cPoison
      else if 4294967296 ≤ n.v.toNat ∨ 8192 ≤ x.scalar.v.toNat ∨ atLoopEnd s1 ∨ x.scalar.v.toNat < (startArch s1).seq.pc.toNat + 1 ∨
          endsBefore (startArch s1).seq x.scalar.v.toNat then raise s1 (.seqLoop g src) cOperand
      else loopOpened s1 (.seqLoop g src) n x.scalar) := by
  intro s1 n
  refine (congrArg Host.Outcome.next (runMovePre_of_moves h _ _)).trans ?_
  simp only [getOpS_markGuard, joinPath_eq, modSeq_sequenced, chooseXfer_sequenced, setWidth_eq_ofNat 13, setWidth_eq_ofNat 32]
  rfl

/-- Settles O14: operands in order leave the depth and the count to decide. -/
theorem loopOpens : Obligations.LoopOpens := by
  intro g src s x hx s1 e n q hp hnp hn he hpc hend hinner
  have hexec : exec (.seqLoop g src) s = .next (loopOpened s1 (.seqLoop g src) n x.scalar) := by
    have hok : ¬ (4294967296 ≤ n.v.toNat ∨ 8192 ≤ e ∨ atLoopEnd s1 ∨ e < q.pc.toNat + 1 ∨ endsBefore q e) := by
      rw [endsBefore_false hinner, hend]
      simp only [Bool.false_eq_true, or_false, false_or]
      omega
    rw [exec_seqLoop_of_moves hx, if_neg (by simp [hp, hnp, n]), if_neg hok]
  rw [hexec, loopOpened]
  refine ⟨fun hd => ?_, fun hd hn0 => ?_, fun hd hn0 hy => ?_, fun hd hn0 hy => ?_⟩
  · rw [if_pos hd]
  · rw [if_neg (Nat.not_le.mpr hd), if_neg hn0]
  · rw [if_neg (Nat.not_le.mpr hd), if_pos hn0, if_neg (Nat.not_le.mpr hy)]
  · rw [if_neg (Nat.not_le.mpr hd), if_pos hn0, if_pos hy]

theorem ownLoops_eq (q : Sequencer) : ownLoops q = openLoops q := by
  unfold ownLoops openLoops
  cases q.handler with
  | none => rfl
  | some h => rfl

/-- Loops that end at `x` with their last iteration are passed over. -/
theorem loopsFrom_spent (x : Nat) (ins : List LoopEntry) (h : ∀ e ∈ ins, spentAt x e) (n : Nat) (inner rest : List LoopEntry) :
    loopsFrom x (ins.length + n) inner (ins ++ rest) = loopsFrom x n (ins.reverse ++ inner) rest := by
  induction ins generalizing inner with
  | nil => simp
  | cons e ins ih =>
    obtain ⟨hstop, hlast⟩ := h e (List.mem_cons_self ..)
    rw [List.length_cons, Nat.add_right_comm, List.cons_append, loopsFrom, if_pos hstop, if_neg (Nat.not_lt.mpr hlast),
      ih (fun d hd => h d (List.mem_cons_of_mem _ hd)), List.reverse_cons, List.append_assoc]
    rfl

/-- What follows bundle `x` for a loop that goes on: the loops inside it start again, with the innermost's first bundle next. -/
theorem nextAfter_repeats {q : Sequencer} {ins rest : List LoopEntry} {l : LoopEntry} {x : Nat} (hq : q.loops = ins ++ l :: rest)
    (hlen : ins.length < openLoops q) (hs : ∀ e ∈ ins, spentAt x e) (hstop : l.stop.toNat = x)
    (hleft : l.index.toNat + 1 < l.count.toNat) :
    (nextAfter q x).1 = ins.map (fun e => { e with index := 0 }) ++ { l with index := l.index + 1 } :: rest ∧
      some (nextAfter q x).2 = (ins ++ [l]).head?.map (·.start.toNat) := by
  obtain ⟨m, hm⟩ : ∃ m, openLoops q = ins.length + (m + 1) := ⟨openLoops q - ins.length - 1, by omega⟩
  rw [nextAfter, ownLoops_eq, hm, hq, loopsFrom_spent x ins hs, loopsFrom, if_pos hstop, if_pos hleft]
  cases ins with
  | nil => exact ⟨rfl, rfl⟩
  | cons e ins => simp

/-- Where there is no further loop to act on, or the next one ends elsewhere, the spent loops close. -/
theorem nextAfter_closes {q : Sequencer} {ins rest : List LoopEntry} {x : Nat} (hq : q.loops = ins ++ rest)
    (hs : ∀ e ∈ ins, spentAt x e) (hlen : ins.length ≤ openLoops q)
    (hend : ins.length = openLoops q ∨ ∃ l t, rest = l :: t ∧ l.stop.toNat ≠ x) : nextAfter q x = (rest, x + 1) := by
  obtain ⟨m, hm⟩ : ∃ m, openLoops q = ins.length + m := ⟨openLoops q - ins.length, by omega⟩
  rw [nextAfter, ownLoops_eq, hm, hq, loopsFrom_spent x ins hs]
  cases m with
  | zero => rfl
  | succ m =>
    obtain hend | ⟨l, t, rfl, hne⟩ := hend
    · omega
    · rw [loopsFrom, if_neg hne]

theorem exhaustInner_of_innerLoop {q : Sequencer} {l : LoopEntry} (h : innerLoop q = some l) :
    exhaustInner q.loops = { l with index := l.count - 1 } :: q.loops.tail := by
  unfold innerLoop at h
  split at h
  · cases hq : q.loops with
    | nil => simp [hq] at h
    | cons e t =>
      rw [hq] at h
      cases h
      rfl
  · cases h

/-- What `seq.lbrk` does inside loop `l` (R99). -/
def brokenOut (s : State) (r : Steer) (l : LoopEntry) : State :=
  let q := (startArch s).seq
  let after := nextAfter { q with loops := exhaustInner q.loops } l.stop.toNat
  if r.cond then sequenced s (steerTaint r) { (arch s).seq with loops := after.1, next := some (.looped after.2) }
  else sequenced s (steerTaint r) (arch s).seq

theorem exec_seqLbrk_of_moves {g : Guard} {k : Fin 12} {s : State} {x : Val} (h : Moves (.seqLbrk g (.s k)) g (.s k) s x) :
    exec (.seqLbrk g (.s k)) s = .next (if steerPoison (readS (startArch s) k) then raise s (.seqLbrk g (.s k)) cPoison
      else match innerLoop (startArch s).seq with
        | none => raise s (.seqLbrk g (.s k)) cOperand
        | some l => brokenOut s (readS (startArch s) k) l) := by
  refine (congrArg Host.Outcome.next (runMovePre_of_moves h _ _)).trans ?_
  rw [markGuard_steer]
  simp only [joinPath_eq, modSeq_sequenced, chooseXfer_sequenced]
  rfl

/-- Settles O15: the spent loops are passed over, then the loop around them or its absence decides. -/
theorem loopRuns : Obligations.LoopRuns := by
  refine ⟨fun q ins l rest x hq hlen hs => ⟨fun hstop hleft => nextAfter_repeats hq hlen hs hstop hleft,
    fun hstop => nextAfter_closes hq hs (Nat.le_of_lt hlen) (.inr ⟨l, rest, rfl, hstop⟩)⟩,
    fun q ins rest x hq hlen hs => nextAfter_closes hq hs (Nat.le_of_eq hlen) (.inl hlen), fun g k s x hx => ?_⟩
  rw [exec_seqLbrk_of_moves hx]
  refine ⟨fun hp => by rw [if_pos hp], fun hp hi => ?_, fun l hp hi hc => ?_, fun l hp hi hc => ?_⟩
  · rw [if_neg (by simp [hp]), hi]
  · rw [if_neg (by simp [hp]), hi]
    simp only [brokenOut, hc, Bool.false_eq_true, if_false]
  · rw [if_neg (by simp [hp]), hi]
    simp only [brokenOut, hc, if_true, exhaustInner_of_innerLoop hi]

/-! Exit, traps and events (R101 to R104, R107). -/

/-- Opening the window changes the journal of one core. -/
theorem openWindow_eq (s : State) (c why : Nat) : ∃ j, openWindow s c why = modCore s c (fun x => { x with jn := j }) := by
  by_cases h : (getCore s c).jn.windowOpen = true
  · exact ⟨(getCore s c).jn, by simp [openWindow, modCore, h]⟩
  · exact ⟨{ (getCore s c).jn with windowOpen := true, why := why }, by simp [openWindow, modCore, h]⟩

@[simp] theorem arch_openWindow (s : State) (c why : Nat) : arch (openWindow s c why) = arch s := by
  obtain ⟨j, h⟩ := openWindow_eq s c why
  rw [h, arch, modCore_cur]
  by_cases hc : c = s.cur
  · subst hc
    rw [getCore_modCore_same]
    rfl
  · rw [getCore_modCore_other _ _ hc]
    rfl

theorem getCore_openWindow_other (s : State) {c d : Nat} (why : Nat) (h : c ≠ d) : getCore (openWindow s c why) d = getCore s d :=
  getCore_modCore_other _ _ h

@[simp] theorem getQuad_openWindow (s : State) (c why q : Nat) : getQuad (openWindow s c why) q = getQuad s q := rfl

/-- A write to a register g leaves the sequencer but for the shadow bank. -/
theorem writeG_seq_wait (a : CoreArch) (i : Fin 32) (y : SReg) : (writeG a i y).seq.wait = a.seq.wait := by
  obtain ⟨own, sh, h⟩ := writeG_eq a i y
  rw [h]

@[simp] theorem markGuard_seq_wait (s : State) (g : Guard) (src : Src) : (arch (markGuard s g src)).seq.wait = (arch s).seq.wait := by
  unfold markGuard
  split
  · cases src with
    | g i =>
      simp only [markLast]
      split
      · rfl
      · rw [arch_modArch, writeG_seq_wait]
    | v i | p i | a i | m i =>
      simp only [markLast]
      split
      · rfl
      · rw [arch_modRegs]
    | res r => rw [markLast, arch_modArch]; rfl
    | s i | h i | loopIx d | imm n | l0 | l1 | l2 | l01 | l12 | l012 => rfl
  · rfl

theorem setWait_of_none {s : State} (h : (arch s).seq.wait = none) (w : Wait) :
    setWait s w = modSeq s (fun q => { q with wait := some w }) := by simp only [setWait, modSeq_eq, h]

/-- The latches that `seq.sev` adds to its quad (R103). -/
def sevLatches (s : State) (t : Word) : List SevLatch :=
  ((List.range 4).filter (fun c => t.getLsbD (16 + c))).map
    (fun c => { at_ := s.now + 2, core := 4 * (s.cur / 4) + c, events := BitVec.ofNat 16 t.toNat })

theorem exec_seqSev_of_moves {g : Guard} {src : Src} {s : State} {x : Val} (h : Moves (.seqSev g src) g src s x)
    (hp : x.scalar.p = false) : exec (.seqSev g src) s = .next (openWindow (modQuad (markGuard s g src) (s.cur / 4)
      (fun q => { q with latches := q.latches ++ sevLatches s x.scalar.v })) s.cur 5) := by
  refine congrArg Host.Outcome.next ((runMove_of_moves h _).trans ((if_neg (by simp [hp])).trans ?_))
  simp only [markGuard_cur, markGuard_now, setWidth_eq_ofNat 16]
  rfl

/-- Settles O16, operation by operation. -/
theorem taskControl : Obligations.TaskControl := by
  intro g src s x s1 t
  refine ⟨?_, fun hx hp => ?_, fun hx hp => ⟨fun hh => ?_, fun hh => ?_⟩, fun hx hp => ⟨fun hm => ?_, fun hm hw => ?_⟩, fun hx hp => ?_,
    fun hx => congrArg Host.Outcome.next (runMove_of_moves hx _)⟩
  · simp only [List.forall_mem_cons]
    refine ⟨fun hx hp => ?_, fun hx hp => ?_, fun hx hp => ?_, fun hx hp => ?_, fun _ h => nomatch h⟩
    all_goals exact congrArg Host.Outcome.next ((runMove_of_moves hx _).trans (if_pos hp))
  · refine congrArg Host.Outcome.next ((runMove_of_moves hx _).trans ((if_neg (by simp [t, hp])).trans ?_))
    rw [setWidth_eq_ofNat]
  · exact congrArg Host.Outcome.next ((runMove_of_moves hx _).trans ((if_neg (by simp [t, hp])).trans (if_pos hh)))
  · refine congrArg Host.Outcome.next ((runMove_of_moves hx _).trans ((if_neg (by simp [t, hp])).trans ((if_neg ?_).trans ?_)))
    · simpa [inHandler] using hh
    · rw [setWidth_eq_ofNat]
  · refine congrArg Host.Outcome.next ((runMove_of_moves hx _).trans ((if_neg (by simp [t, hp])).trans (if_pos ?_)))
    exact BitVec.eq_of_toNat_eq ((BitVec.toNat_setWidth _ _).trans hm)
  · refine congrArg Host.Outcome.next ((runMove_of_moves hx _).trans ((if_neg (by simp [t, hp])).trans ((if_neg ?_).trans ?_)))
    · intro h0
      exact hm ((BitVec.toNat_setWidth _ _).symm.trans (congrArg BitVec.toNat h0))
    · rw [setWidth_eq_ofNat, setWait_of_none (by rw [markGuard_seq_wait, hw])]
  · refine ⟨_, exec_seqSev_of_moves hx hp, ?_⟩
    have hq : ∀ q, getQuad s1 q = getQuad s q := fun q => by simp [s1, getQuad]
    refine ⟨?_, ?_, fun q hne => ?_, ?_, fun c hc => ?_, ?_, ?_⟩
    · rw [getQuad_openWindow, getQuad_modQuad_same, hq]
      rfl
    · rw [getQuad_openWindow, getQuad_modQuad_same, hq]
    · rw [getQuad_openWindow, getQuad_modQuad_other _ _ (Ne.symm hne), hq]
    · rw [arch_openWindow]
      rfl
    · rw [getCore_openWindow_other _ _ (Ne.symm hc)]
      exact markGuard_getCore_other s g src (Ne.symm hc)
    · exact markGuard_stash s g src
    · exact markGuard_far s g src

/-! Control registers (R82, R83). -/

/-- The numbers of R82. -/
def csrNumbers : List Nat :=
  [0x000, 0x001, 0x002, 0x003, 0x004, 0x010, 0x011, 0x012, 0x013, 0x014, 0x020, 0x021, 0x022, 0x023, 0x024, 0x030, 0x031, 0x032,
   0x040, 0x041, 0x042, 0x050]

theorem csrRead_isSome_of_mem (s : State) : ∀ n ∈ csrNumbers, (csrRead s n).isSome = true := by
  unfold csrNumbers
  simp only [List.forall_mem_cons]
  exact ⟨rfl, rfl, rfl, rfl, rfl, rfl, rfl, rfl, rfl, rfl, rfl, rfl, rfl, rfl, rfl, rfl, rfl, rfl, rfl, rfl, rfl, rfl, fun _ h => nomatch h⟩

theorem csrRead_isSome_iff (s : State) (n : Nat) : (csrRead s n).isSome = true ↔ n ∈ csrNumbers := by
  refine ⟨fun h => ?_, csrRead_isSome_of_mem s n⟩
  by_contra hn
  simp only [csrNumbers, List.mem_cons, List.not_mem_nil, or_false, not_or] at hn
  unfold csrRead at h
  split at h <;> simp_all

theorem natField_low (x n : Nat) : natField x 0 n = x % 2 ^ n := by rw [natField, Nat.shiftRight_zero]

theorem exec_seqCsrr_of_moves {g : Guard} {src : Src} {s : State} {x : Val} (h : Moves (.seqCsrr g src) g src s x) :
    exec (.seqCsrr g src) s = .next (match csrRead (markGuard s g src) (x.scalar.v.toNat % 4096) with
      | none => raise (markGuard s g src) (.seqCsrr g src) cOperand
      | some w => deliverS (markGuard s g src) .seqR 2 (cleanW w)) := by
  refine (congrArg Host.Outcome.next (runMove_of_moves h _)).trans ?_
  rw [natField_low]
  rfl

/-- The fields of `ckstat` stand beside one another (R314). -/
theorem ckstatWord_fields (j : Journal) (n : Nat) (hb : j.bytes ≤ 131072) (hn : n ≤ 512) (hw : j.why < 8) :
    (ckstatWord j n).getLsbD 0 = j.windowOpen ∧ (ckstatWord j n).toNat / 2 % 8 = (if j.windowOpen then j.why else 0) ∧
      (ckstatWord j n).toNat / 2 ^ 4 % 2 ^ 13 = j.ckaddr.toNat ∧ (ckstatWord j n).toNat / 2 ^ 17 % 2 ^ 12 = (j.bytes + 63) / 64 ∧
      (ckstatWord j n).toNat / 2 ^ 29 % 2 ^ 10 = n ∧ (ckstatWord j n).toNat / 2 ^ 39 = min 255 j.rolls := by
  have hck := j.ckaddr.isLt
  have hbytes : (j.bytes + 63) / 64 % 4096 = (j.bytes + 63) / 64 := Nat.mod_eq_of_lt (by omega)
  have hstores : n % 1024 = n := Nat.mod_eq_of_lt (by omega)
  have hrolls : min j.rolls 255 ≤ 255 := Nat.min_le_right _ _
  obtain ⟨o, ho, hbit⟩ : ∃ o, o < 16 ∧ (if j.windowOpen then 1 + 2 * (j.why % 8) else 0) = o ∧ decide (o % 2 = 1) = j.windowOpen ∧
      o / 2 = if j.windowOpen then j.why else 0 := by
    cases j.windowOpen with
    | true => exact ⟨1 + 2 * (j.why % 8), by omega, rfl, by simp, by simp only [if_true]; omega⟩
    | false => exact ⟨0, by omega, rfl, rfl, rfl⟩
  obtain ⟨hopen, hodd, hhalf⟩ := hbit
  have hw64 : (ckstatWord j n).toNat =
      o + 16 * j.ckaddr.toNat + 131072 * ((j.bytes + 63) / 64) + 536870912 * n + 549755813888 * min j.rolls 255 := by
    rw [ckstatWord, hopen, ceilDiv, show j.bytes + 64 - 1 = j.bytes + 63 from rfl, hbytes, hstores, BitVec.toNat_ofNat]
    exact Nat.mod_eq_of_lt (by omega)
  have hlsb : (ckstatWord j n).getLsbD 0 = decide ((ckstatWord j n).toNat % 2 = 1) := by
    rw [BitVec.getLsbD, Nat.testBit_zero]
  rw [hlsb, hw64, Nat.min_comm 255, ← hhalf, ← hodd]
  refine ⟨?_, ?_, ?_, ?_, ?_, ?_⟩
  · congr 1
    exact propext ⟨fun h => by omega, fun h => by omega⟩
  all_goals omega

/-- Settles O18: the register is read after the mark, which touches no control register. -/
theorem controlReads : Obligations.ControlReads := by
  refine ⟨fun g src s x hx => ⟨fun hn => ?_, fun w hw => ?_⟩, csrRead_isSome_iff, fun s => ⟨rfl, rfl, rfl, rfl, rfl⟩, ?_⟩
  · rw [exec_seqCsrr_of_moves hx, hn]
  · refine ⟨deliverS (markGuard s g src) .seqR 2 (cleanW w), by rw [exec_seqCsrr_of_moves hx, hw], ?_⟩
    have h := delivers_deliverS (markGuard s g src) .seqR 2 (cleanW w)
    rwa [shortDue_markGuard] at h
  · intro s j n hb hn hw
    exact ⟨ckstatWord j n, rfl, ckstatWord_fields j n hb hn hw⟩

theorem exec_seqCsrw_of_moves {g : Guard} {src : Src} {s : State} {x : Val} (h : Moves (.seqCsrw g src) g src s x) :
    let s1 := markGuard s g src
    exec (.seqCsrw g src) s = .next (if x.scalar.p || (getOpS (arch s) .seqCsel).p then raise s1 (.seqCsrw g src) cPoison
      else match csrWrite (arch s).csr ((getOpS (arch s) .seqCsel).v.toNat % 4096) x.scalar.v with
        | none => raise s1 (.seqCsrw g src) cOperand
        | some c => setArch s1 { arch s1 with csr := c }) := by
  intro s1
  refine (congrArg Host.Outcome.next (runMovePre_of_moves h _ _)).trans ?_
  simp only [getOpS_markGuard, markGuard_csr, natField_low]
  rfl

theorem csrWrite_other {c : Csrs} {n : Nat} (h : n ∉ [0x020, 0x022, 0x024, 0x030, 0x031]) (w : Word) : csrWrite c n w = none := by
  simp only [List.mem_cons, List.not_mem_nil, or_false, not_or] at h
  unfold csrWrite
  split <;> simp_all

/-- Settles O19: the number and the value decide between a write and the fault. -/
theorem controlWrites : Obligations.ControlWrites := by
  intro g src s x hx s1 t n c bad sets
  have hexec := exec_seqCsrw_of_moves hx
  have hbad : t.p = false → (getOpS (arch s) .seqCsel).p = false → csrWrite c n t.v = none → bad cOperand := by
    intro hp hq hn
    refine hexec.trans ?_
    rw [if_neg (by simp [hq, show x.scalar.p = false from hp]), hn]
  have hset : t.p = false → (getOpS (arch s) .seqCsel).p = false → ∀ d, csrWrite c n t.v = some d → sets d := by
    intro hp hq d hd
    refine hexec.trans ?_
    rw [if_neg (by simp [hq, show x.scalar.p = false from hp]), hd]
  refine ⟨fun hp => hexec.trans (congrArg Host.Outcome.next (if_pos (by simpa using hp))), fun hp hq => ?_⟩
  refine ⟨fun hn hv => hset hp hq _ ?_, fun hn hv => hset hp hq _ ?_, fun hn => hset hp hq _ ?_, fun hn => hset hp hq _ ?_,
    fun hn hv => hset hp hq _ ?_, fun hn hv => hbad hp hq ?_, fun hn hv => hbad hp hq ?_, fun hn => hbad hp hq (csrWrite_other hn t.v)⟩
  · rw [hn, csrWrite, if_pos hv, setWidth_eq_ofNat]
  · rw [hn, csrWrite, if_pos hv, setWidth_eq_ofNat]
  · rw [hn, csrWrite]
  · rw [hn, csrWrite]
  · rw [hn, csrWrite, if_pos hv, setWidth_eq_ofNat]
  · obtain hn | hn := hn
    · rw [hn, csrWrite, if_neg (Nat.not_lt.mpr hv)]
    · rw [hn, csrWrite, if_neg (Nat.not_lt.mpr hv)]
  · rw [hn, csrWrite, if_neg (Nat.not_le.mpr hv)]

end Sys2Proof.Proofs
end

section
/-! PROOF. The vector unit: lanes, compares, reductions, permutes and conversions (R122 to R138). -/

namespace Sys2Proof.Proofs

open Sys2Proof.Machine Sys2Proof.Claims

/-! Taint and poison of the values read (R123). -/

theorem foldl_taint (l : List VVal) (e : TSet) : l.foldl (fun t x => t ||| x.t) e = e ||| taintOf l := by
  induction l generalizing e with
  | nil => exact BitVec.or_zero.symm
  | cons x l ih => rw [List.foldl_cons, ih, BitVec.or_assoc]; rfl

theorem joinV_eq (v : Vec) (l : List VVal) : joinV v l = { v := v, t := taintOf l, p := poisonOf l } := by
  rw [joinV, foldl_taint, show (0 : TSet) ||| taintOf l = taintOf l from BitVec.zero_or]
  rfl

/-! Results of a vector trigger (R122). -/

theorem delivers_deliver_short (s : State) (port : PortId) (lat : Nat) (v : VVal) :
    delivers s (shortDue s port lat v) (deliver s port lat true v) := onlyArch_setArch s _

theorem delivers_deliver (s : State) (g : Guard) (src : Src) (port : PortId) (lat : Nat) (v : VVal) :
    delivers (markGuard s g src) (shortDue s port lat v) (deliver (markGuard s g src) port lat true v) := by
  have h := delivers_deliver_short (markGuard s g src) port lat v
  rwa [shortDue_markGuard] at h

/-- Where a vector trigger finds its operands: in the ports before the mark. -/
theorem vectorOp_of_moves {i : Instr} {g : Guard} {src : Src} {s : State} {x : Val} (h : Moves i g src s x) (port : PortId) (lat : Nat)
    (f : VVal → CoreArch → VVal) : vectorOp i g src port lat f s =
      deliver (markGuard s g src) port lat true (f x.broadcast (arch (markGuard s g src))) := runMove_of_moves h _

theorem vecResult_of_vectorOp {i : Instr} {g : Guard} {src : Src} {s : State} {x : Val} {lat : Nat} {f : VVal → CoreArch → VVal}
    {v : Vec} {reads : List VVal} {lane : Nat → Lane} (h : Moves i g src s x) (he : exec i s = .next (vectorOp i g src .vuR lat f s))
    (hf : f x.broadcast (arch (markGuard s g src)) = joinV v reads) (hv : ∀ j, j < 64 → laneOf v j = lane j) :
    vecResult i g src s lat reads lane := by
  refine ⟨_, v, he.trans (congrArg _ (vectorOp_of_moves h ..)), hv, ?_⟩
  rw [hf, joinV_eq]
  exact delivers_deliver ..

theorem wordResult_of_vectorOp {i : Instr} {g : Guard} {src : Src} {s : State} {x : Val} {port : PortId} {lat : Nat}
    {f : VVal → CoreArch → VVal} {w : Word} {reads : List VVal} (h : Moves i g src s x)
    (he : exec i s = .next (vectorOp i g src port lat f s)) (hf : f x.broadcast (arch (markGuard s g src)) = joinW w reads) :
    wordResult i g src s port lat reads w := by
  refine ⟨_, he.trans (congrArg _ (vectorOp_of_moves h ..)), ?_⟩
  rw [hf, joinW, joinV_eq]
  exact delivers_deliver ..

section Lanes

variable {i : Instr} {g : Guard} {src : Src} {s : State} {x : Val} {lat : Nat} (h : Moves i g src s x)
include h

theorem vecResult_lanesAT {f : Lane → Lane → Lane} (he : exec i s = .next (vectorOp i g src .vuR lat (lanesAT f) s)) :
    vecResult i g src s lat [vuA s, x.broadcast] (fun j => f (laneOf (vuA s).v j) (laneOf x.broadcast.v j)) :=
  vecResult_of_vectorOp h he (by rw [lanesAT, getOp_markGuard]; rfl) fun _ hj => Laws.laneOf_ofLanes _ hj

theorem vecResult_lanesABT {f : Lane → Lane → Lane → Lane} (he : exec i s = .next (vectorOp i g src .vuR lat (lanesABT f) s)) :
    vecResult i g src s lat [vuA s, vuB s, x.broadcast]
      (fun j => f (laneOf (vuA s).v j) (laneOf (vuB s).v j) (laneOf x.broadcast.v j)) :=
  vecResult_of_vectorOp h he (by rw [lanesABT, getOp_markGuard, getOp_markGuard]; rfl) fun _ hj => Laws.laneOf_ofLanes _ hj

theorem vecResult_lanesT {f : Lane → Lane} (he : exec i s = .next (vectorOp i g src .vuR lat (lanesT f) s)) :
    vecResult i g src s lat [x.broadcast] (fun j => f (laneOf x.broadcast.v j)) :=
  vecResult_of_vectorOp h he rfl fun _ hj => Laws.laneOf_ofLanes _ hj

end Lanes

/-! Integer lanes (R128, R130). -/

theorem shiftLeft_eq (a : Lane) (n : Nat) : a <<< n = BitVec.ofNat 32 (a.toNat * 2 ^ n) := by
  apply BitVec.eq_of_toNat_eq
  simp [Nat.shiftLeft_eq]

theorem ushiftRight_eq (a : Lane) (n : Nat) : a >>> n = BitVec.ofNat 32 (a.toNat / 2 ^ n) := by
  apply BitVec.eq_of_toNat_eq
  have hlt : a.toNat / 2 ^ n < 2 ^ 32 := Nat.lt_of_le_of_lt (Nat.div_le_self _ _) a.isLt
  rw [BitVec.toNat_ushiftRight, Nat.shiftRight_eq_div_pow, BitVec.toNat_ofNat, Nat.mod_eq_of_lt hlt]

/-- The table of the statement is that of the model's latencies and lanes. -/
theorem lanesInt_eq : lanesInt =
    [(.vuAddI, 2, fun a t => a + t), (.vuSubI, 2, fun a t => a - t), (.vuMulI, 3, fun a t => a * t), (.vuMaxI, 2, maxI), (.vuMinI, 2, minI),
     (.vuMaxuI, 2, maxuI), (.vuMinuI, 2, minuI), (.vuAnd, 2, fun a t => a &&& t), (.vuOr, 2, fun a t => a ||| t),
     (.vuXor, 2, fun a t => a ^^^ t), (.vuShl, 2, fun a t => a <<< (t.toNat % 32)), (.vuShr, 2, fun a t => a >>> (t.toNat % 32)),
     (.vuSar, 2, fun a t => a.sshiftRight (t.toNat % 32))] := by
  have hmax : maxI = fun a t => BitVec.ofInt 32 (max a.toInt t.toInt) := funext fun a => funext fun t => maxSigned_eq a t
  have hmin : minI = fun a t => BitVec.ofInt 32 (min a.toInt t.toInt) := funext fun a => funext fun t => minSigned_eq a t
  have hmaxu : maxuI = fun a t => BitVec.ofNat 32 (max a.toNat t.toNat) := funext fun a => funext fun t => maxUnsigned_eq a t
  have hminu : minuI = fun a t => BitVec.ofNat 32 (min a.toNat t.toNat) := funext fun a => funext fun t => minUnsigned_eq a t
  rw [hmax, hmin, hmaxu, hminu]
  simp only [shiftLeft_eq, ushiftRight_eq, sshiftRight_eq_ofInt, add_eq_ofNat, sub_eq_ofInt, mul_eq_ofNat]
  rfl

theorem exec_lanesInt : ∀ r ∈ lanesInt, ∀ (g : Guard) (src : Src) (s : State),
    exec (r.1 g src) s = .next (vectorOp (r.1 g src) g src .vuR r.2.1 (lanesAT r.2.2) s) := by
  rw [lanesInt_eq]
  simp only [List.forall_mem_cons]
  exact ⟨fun _ _ _ => rfl, fun _ _ _ => rfl, fun _ _ _ => rfl, fun _ _ _ => rfl, fun _ _ _ => rfl, fun _ _ _ => rfl, fun _ _ _ => rfl,
    fun _ _ _ => rfl, fun _ _ _ => rfl, fun _ _ _ => rfl, fun _ _ _ => rfl, fun _ _ _ => rfl, fun _ _ _ => rfl, fun _ h => nomatch h⟩

theorem natField_eq_fieldAt (t : Lane) (lo n : Nat) : natField t.toNat lo n = fieldAt t lo n := by
  rw [natField, fieldAt, Nat.shiftRight_eq_div_pow]

theorem dot4Lane_eq (a b t : Lane) : dot4Lane a b t = BitVec.ofInt 32 (t.toInt + ((List.range 4).map (fun j =>
    signExtNat (fieldAt a (8 * j) 8) 8 * signExtNat (fieldAt b (8 * j) 8) 8)).sum) := by
  simp only [dot4Lane, natField_eq_fieldAt]
  congr 1
  simp only [List.range_succ, List.range_zero, List.nil_append, List.cons_append, List.map_cons, List.map_nil, List.sum_cons, List.sum_nil]
  ring

/-- Settles O20: the lanes of the model's integer operations. -/
theorem vectorIntegers : Obligations.VectorIntegers := by
  refine ⟨fun r hr g src s x hx => vecResult_lanesAT hx (exec_lanesInt r hr g src s), fun g src s x hx => ?_⟩
  have h := vecResult_lanesABT hx (f := dot4Lane) (lat := 4) rfl
  simpa only [dot4Lane_eq] using h

/-! Floating-point lanes (R126, R131). -/

theorem exec_lanesFloat : ∀ r ∈ lanesFloat, ∀ (g : Guard) (src : Src) (s : State),
    exec (r.1 g src) s = .next (vectorOp (r.1 g src) g src .vuR r.2.1 (lanesAT r.2.2) s) := by
  simp only [lanesFloat, List.forall_mem_cons]
  exact ⟨fun _ _ _ => rfl, fun _ _ _ => rfl, fun _ _ _ => rfl, fun _ _ _ => rfl, fun _ _ _ => rfl, fun _ h => nomatch h⟩

theorem exec_lanesFused : ∀ r ∈ lanesFused, ∀ (g : Guard) (src : Src) (s : State),
    exec (r.1 g src) s = .next (vectorOp (r.1 g src) g src .vuR 4 (lanesABT r.2) s) := by
  simp only [lanesFused, List.forall_mem_cons]
  exact ⟨fun _ _ _ => rfl, fun _ _ _ => rfl, fun _ h => nomatch h⟩

theorem exec_lanesOne : ∀ r ∈ lanesOne, ∀ (g : Guard) (src : Src) (s : State),
    exec (r.1 g src) s = .next (vectorOp (r.1 g src) g src .vuR r.2.1 (lanesT r.2.2) s) := by
  simp only [lanesOne, List.forall_mem_cons]
  exact ⟨fun _ _ _ => rfl, fun _ _ _ => rfl, fun _ _ _ => rfl, fun _ _ _ => rfl, fun _ h => nomatch h⟩

/-- Settles O21: each operation reads the ports that R126 lists. -/
theorem vectorFloats : Obligations.VectorFloats :=
  ⟨fun r hr g src s _ hx => vecResult_lanesAT hx (exec_lanesFloat r hr g src s),
    fun r hr g src s _ hx => vecResult_lanesABT hx (exec_lanesFused r hr g src s),
    fun r hr g src s _ hx => vecResult_lanesT hx (exec_lanesOne r hr g src s)⟩

/-! Compares (R127, R129). -/

theorem getLsbD_buildMask (f : Nat → Bool) {n : Nat} (hn : n ≤ 64) (j : Nat) : (buildMask f n).getLsbD j = (decide (j < n) && f j) := by
  induction n with
  | zero => exact (BitVec.getLsbD_zero).trans (by simp)
  | succ n ih =>
    have hbit : (if f n then 1#64 <<< n else 0).getLsbD j = (decide (j = n) && f j) := by
      by_cases hj : j = n
      · subst hj
        cases f j with
        | true => simp; omega
        | false => simp
      · cases f n with
        | true =>
          have h1 : (1#64).getLsbD (j - n) = decide (j - n = 0) := by simp
          simp [hj]
          omega
        | false => simp [hj]
    rw [buildMask, BitVec.getLsbD_or, ih (Nat.le_of_succ_le hn), hbit, ← Bool.and_or_distrib_right]
    congr 1
    simp only [← Bool.decide_or, Nat.lt_succ_iff_lt_or_eq]

theorem getLsbD_laneMask (f : Nat → Bool) {j : Nat} (hj : j < 64) : (laneMask f).getLsbD j = f j := by
  rw [laneMask, getLsbD_buildMask f (Nat.le_refl 64), decide_eq_true hj, Bool.true_and]

theorem laneCompares_eq : laneCompares =
    [(.vuCmpeqF, eqF), (.vuCmpltF, ltF), (.vuCmpleF, leF), (.vuCmpeqI, fun a t => decide (a = t)), (.vuCmpltI, fun a t => a.slt t),
     (.vuCmpltuI, fun a t => a.ult t)] := by
  simp only [BitVec.slt_eq_decide, BitVec.ult_eq_decide]
  rfl

theorem exec_laneCompares : ∀ r ∈ laneCompares, ∀ (g : Guard) (src : Src) (s : State),
    exec (r.1 g src) s = .next (vectorOp (r.1 g src) g src .vuMr 2 (maskAT r.2) s) := by
  rw [laneCompares_eq]
  simp only [List.forall_mem_cons]
  exact ⟨fun _ _ _ => rfl, fun _ _ _ => rfl, fun _ _ _ => rfl, fun _ _ _ => rfl, fun _ _ _ => rfl, fun _ _ _ => rfl, fun _ h => nomatch h⟩

/-- Settles O22: the mask's bits are the lanes' compares. -/
theorem vectorCompares : Obligations.VectorCompares := by
  intro r hr g src s x hx
  refine ⟨laneMask (fun j => r.2 (laneOf (vuA s).v j) (laneOf x.broadcast.v j)), fun j hj => getLsbD_laneMask _ hj,
    wordResult_of_vectorOp hx (exec_laneCompares r hr g src s) ?_⟩
  rw [maskAT, getOp_markGuard]
  rfl

/-! Reductions and the scan (R132, R133). -/

theorem reduceTree_lanesOf {α : Type} (op : α → α → α) (d : α) (read : Lane → α) (v : Vec) :
    reduceTree op d ((lanesOf v).map read) = treeOf op (fun j => read (laneOf v j)) 6 0 := rfl

/-- The values of a tree from number `i` on. -/
def leaves {α : Type} (x : Nat → α) (n i : Nat) : List α := (List.range (2 ^ n)).map (fun j => x (i + j))

theorem leaves_succ {α : Type} (x : Nat → α) (n i : Nat) : leaves x (n + 1) i = leaves x n i ++ leaves x n (i + 2 ^ n) := by
  rw [leaves, Nat.pow_succ, Nat.mul_two, List.range_add, List.map_append, List.map_map]
  simp only [leaves, Function.comp_def, Nat.add_assoc]

theorem leaves_eq_cons {α : Type} (x : Nat → α) (n i : Nat) : ∃ l, leaves x n i = x i :: l := by
  obtain ⟨m, hm⟩ : ∃ m, 2 ^ n = m + 1 := ⟨2 ^ n - 1, (Nat.sub_add_cancel Nat.one_le_two_pow).symm⟩
  exact ⟨_, by rw [leaves, hm, List.range_succ_eq_map, List.map_cons, Nat.add_zero]⟩

theorem treeOf_add (x : Nat → Int) (n i : Nat) : treeOf (· + ·) x n i = (leaves x n i).sum := by
  induction n generalizing i with
  | zero => simp [treeOf, leaves]
  | succ n ih => rw [treeOf, ih, ih, leaves_succ, List.sum_append]

/-- A tree of an associative and idempotent operation is its fold over the values, from the first. -/
theorem treeOf_eq_foldl {α : Type} (op : α → α → α) (hassoc : ∀ a b c, op (op a b) c = op a (op b c)) (hidem : ∀ a, op a a = a)
    (x : Nat → α) (n i : Nat) : treeOf op x n i = (leaves x n i).foldl op (x i) := by
  have hfold : ∀ (l : List α) (a b : α), op a (l.foldl op b) = l.foldl op (op a b) := by
    intro l
    induction l with
    | nil => exact fun _ _ => rfl
    | cons c l ih => exact fun a b => by rw [List.foldl_cons, List.foldl_cons, ih, hassoc]
  induction n generalizing i with
  | zero => simp [treeOf, leaves, hidem]
  | succ n ih =>
    obtain ⟨l, hl⟩ := leaves_eq_cons x n (i + 2 ^ n)
    rw [treeOf, ih, ih, leaves_succ, List.foldl_append, hl, hfold, List.foldl_cons, List.foldl_cons, hassoc, hidem]

/-- A tree seen through a map that the operation commutes with. -/
theorem map_treeOf {α β : Type} (f : α → β) (op : α → α → α) (op' : β → β → β) (h : ∀ a b, f (op a b) = op' (f a) (f b)) (x : Nat → α)
    (n i : Nat) : f (treeOf op x n i) = treeOf op' (fun j => f (x j)) n i := by
  induction n generalizing i with
  | zero => rfl
  | succ n ih => rw [treeOf, h, ih, ih, treeOf]

theorem toInt_maxI (a t : Lane) : (maxI a t).toInt = max a.toInt t.toInt := by
  rw [maxI, BitVec.slt_eq_decide]
  by_cases h : a.toInt < t.toInt
  · rw [decide_eq_true h, if_pos rfl, max_eq_right h.le]
  · rw [decide_eq_false h, if_neg Bool.false_ne_true, max_eq_left (not_lt.mp h)]

theorem toInt_minI (a t : Lane) : (minI a t).toInt = min a.toInt t.toInt := by
  rw [minI, BitVec.slt_eq_decide]
  by_cases h : t.toInt < a.toInt
  · rw [decide_eq_true h, if_pos rfl, min_eq_right h.le]
  · rw [decide_eq_false h, if_neg Bool.false_ne_true, min_eq_left (not_lt.mp h)]

/-- The lanes as signed integers. -/
theorem leaves_toInt (v : Vec) : leaves (fun j => (laneOf v j).toInt) 6 0 = (List.range 64).map (fun j => (laneOf v j).toInt) := by
  simp only [leaves, Nat.zero_add]
  rfl

/-- The running sums: entry `n` is the start and the first n + 1 elements (R133). -/
theorem getElem?_scanFrom (l : List Lane) (a : Lane) {n : Nat} (hn : n < l.length) :
    (scanFrom a l)[n]? = some (BitVec.ofNat 32 (a.toNat + ((l.take (n + 1)).map BitVec.toNat).sum)) := by
  induction l generalizing a n with
  | nil => exact absurd hn (Nat.not_lt_zero n)
  | cons x l ih =>
    cases n with
    | zero => simp [scanFrom, BitVec.ofNat_add]
    | succ n =>
      rw [scanFrom, List.getElem?_cons_succ, ih _ (Nat.lt_of_succ_lt_succ hn), List.take_succ_cons, List.map_cons, List.sum_cons]
      congr 1
      apply BitVec.eq_of_toNat_eq
      simp [Nat.add_assoc]

theorem range'_zero (n : Nat) : range' 0 n = List.range n := by
  have h : ∀ a, range' a n = (List.range n).map (fun j => a + j) := by
    induction n with
    | zero => exact fun _ => rfl
    | succ n ih =>
      intro a
      rw [range', ih, List.range_succ_eq_map, List.map_cons, List.map_map]
      simp only [Function.comp_def, Nat.add_zero, Nat.succ_eq_add_one, Nat.add_assoc, Nat.add_comm 1]
  simpa using h 0

theorem lanesOf_eq (v : Vec) : lanesOf v = (List.range 64).map (laneOf v) := by rw [lanesOf, range'_zero]

theorem laneOf_vecOfList (l : List Lane) {j : Nat} (hj : j < 64) : laneOf (vecOfList l) j = nthD l j 0#32 := Laws.laneOf_ofLanes _ hj

theorem nthD_of_getElem? {α : Type} {l : List α} {n : Nat} {d x : α} (h : l[n]? = some x) : nthD l n d = x := by rw [nthD, h]; rfl

theorem nthD_lanesOf (v : Vec) {j : Nat} (hj : j < 64) (d : Lane) : nthD (lanesOf v) j d = laneOf v j := by
  refine nthD_of_getElem? ?_
  rw [lanesOf_eq, List.getElem?_map, List.getElem?_range hj]
  rfl

theorem nthD_scan (a : Lane) (v : Vec) {j : Nat} (hj : j < 64) : nthD (scanFrom a (lanesOf v)) j 0#32 =
    BitVec.ofNat 32 (a.toNat + ((List.range (j + 1)).map (fun i => (laneOf v i).toNat)).sum) := by
  have hlen : j < (lanesOf v).length := by simpa [lanesOf_eq] using hj
  refine nthD_of_getElem? ((getElem?_scanFrom (lanesOf v) a hlen).trans ?_)
  rw [lanesOf_eq, ← List.map_take, List.take_range, Nat.min_eq_left hj, List.map_map]
  rfl

/-- Settles O23: the tree, the exact sum and the running sums. -/
theorem vectorReductions : Obligations.VectorReductions := by
  intro g src s x t ints
  refine ⟨fun hx => ?_, fun hx => ?_, fun hx => ?_, fun hx => ?_, fun hx => ?_, fun hx => ?_⟩
  · refine wordResult_of_vectorOp hx rfl ?_
    rw [BitVec.ofNat_toNat]
    rfl
  · refine wordResult_of_vectorOp hx rfl ?_
    rw [BitVec.ofNat_toNat]
    rfl
  · refine wordResult_of_vectorOp hx rfl ?_
    rw [reduceT, reduceTree_lanesOf, treeOf_add, leaves_toInt]
  · refine wordResult_of_vectorOp hx rfl ?_
    rw [reduceT, reduceTree_lanesOf]
    have hmax := (map_treeOf BitVec.toInt maxI max toInt_maxI (laneOf t.v) 6 0).trans
      (treeOf_eq_foldl max max_assoc max_self (fun j => (laneOf t.v j).toInt) 6 0)
    rw [leaves_toInt] at hmax
    exact congrArg (fun z => joinW (BitVec.ofInt 64 z) [t]) hmax
  · refine wordResult_of_vectorOp hx rfl ?_
    rw [reduceT, reduceTree_lanesOf]
    have hmin := (map_treeOf BitVec.toInt minI min toInt_minI (laneOf t.v) 6 0).trans
      (treeOf_eq_foldl min min_assoc min_self (fun j => (laneOf t.v j).toInt) 6 0)
    rw [leaves_toInt] at hmin
    exact congrArg (fun z => joinW (BitVec.ofInt 64 z) [t]) hmin
  · refine vecResult_of_vectorOp hx rfl (by rw [getOp_markGuard]; rfl) fun j hj => ?_
    rw [laneOf_vecOfList _ hj, nthD_scan _ _ hj]
    rfl

/-! Permutes and selections (R134, R135). -/

theorem zipIdx_map_range {α : Type} (f : Nat → α) (n : Nat) : ((List.range n).map f).zipIdx = (List.range n).map (fun j => (f j, j)) := by
  apply List.ext_getElem
  · simp
  · intro j h1 h2
    simp

/-- The kept elements are the lanes that the mask names. -/
theorem keepMasked_lanesOf (k : VVal) (v : Vec) : keepMasked (vecToWord k.v) (lanesOf v) = (maskLanesOf k).map (laneOf v) := by
  rw [keepMasked, lanesOf_eq, zipIdx_map_range, List.filter_map, List.map_map]
  rfl

theorem maskLanesOf_length (k : VVal) : (maskLanesOf k).length ≤ 64 := (List.length_filter_le _ _).trans (by simp)

theorem wordToVec_ofNat {n : Nat} (h : n ≤ 64) : wordToVec (BitVec.ofNat 64 n) = BitVec.ofNat 2048 n := by
  rw [wordToVec]
  apply BitVec.eq_of_toNat_eq
  rw [BitVec.toNat_setWidth, BitVec.toNat_ofNat, BitVec.toNat_ofNat, Nat.mod_eq_of_lt (show n < 2 ^ 64 by omega)]

/-- The elements that `expand` takes: the next of `ts` where the mask is set. -/
theorem getElem?_expandFrom (k : Word) (as ts : List Lane) (i : Nat) {n : Nat} {a : Lane} (hn : as[n]? = some a) :
    (expandFrom k i as ts)[n]? = some (if k.getLsbD (i + n) then nthD ts ((List.range n).countP (fun j => k.getLsbD (i + j))) 0#32 else a) := by
  induction as generalizing i ts n with
  | nil => simp at hn
  | cons b as ih =>
    cases n with
    | zero =>
      obtain rfl : b = a := by simpa using hn
      rw [expandFrom]
      by_cases hk : k.getLsbD i = true
      · simp [hk]
      · simp [hk]
    | succ n =>
      have hshift : ∀ j, i + 1 + j = i + (j + 1) := fun j => by omega
      have hcount : (List.range (n + 1)).countP (fun j => k.getLsbD (i + j)) =
          (List.range n).countP (fun j => k.getLsbD (i + 1 + j)) + if k.getLsbD i then 1 else 0 := by
        rw [List.range_succ_eq_map, List.countP_cons, List.countP_map]
        simp only [Function.comp_def, Nat.succ_eq_add_one, hshift, Nat.add_zero]
      have hn' : as[n]? = some a := by simpa using hn
      rw [expandFrom, hcount]
      by_cases hk : k.getLsbD i = true
      · rw [if_pos hk, if_pos hk, List.getElem?_cons_succ, ih _ _ hn', hshift n]
        simp only [nthD, List.getElem?_drop, Nat.add_comm 1]
      · rw [if_neg hk, if_neg hk, List.getElem?_cons_succ, ih _ _ hn', hshift n]
        rfl

theorem laneOf_expand (k : Word) (a t : Vec) {j : Nat} (hj : j < 64) : laneOf (vecOfList (expandFrom k 0 (lanesOf a) (lanesOf t))) j =
    if k.getLsbD j then laneOf t ((List.range j).countP (fun i => k.getLsbD i)) else laneOf a j := by
  have hget : (lanesOf a)[j]? = some (laneOf a j) := by
    rw [lanesOf_eq, List.getElem?_map, List.getElem?_range hj]
    rfl
  have hcount : (List.range j).countP (fun i => k.getLsbD i) < 64 :=
    Nat.lt_of_le_of_lt List.countP_le_length (by simpa using hj)
  rw [laneOf_vecOfList _ hj, nthD_of_getElem? (getElem?_expandFrom k _ _ 0 hget)]
  simp only [Nat.zero_add, nthD_lanesOf t hcount]

theorem ofNat_add_lane (a : Lane) (n : Nat) : a + BitVec.ofNat 32 n = BitVec.ofNat 32 (a.toNat + n) := by
  rw [BitVec.ofNat_add, BitVec.ofNat_toNat, BitVec.setWidth_eq]

/-- Two results delivered by one slot. -/
theorem onlyArch_deliver_deliver (s : State) (g : Guard) (src : Src) (p q : PortId) (m n : Nat) (v w : VVal) :
    onlyArch (markGuard s g src) { arch (markGuard s g src) with due := (arch s).due ++ [shortDue s p m v, shortDue s q n w] }
      (deliver (deliver (markGuard s g src) p m true v) q n true w) := by
  have h : deliver (deliver (markGuard s g src) p m true v) q n true w =
      setArch (markGuard s g src) { arch (markGuard s g src) with due := (arch s).due ++ [shortDue s p m v, shortDue s q n w] } := by
    have hord : ∀ t a b, orderNo (setArch t a) b = orderNo t b := fun _ _ _ => rfl
    rw [deliver_eq, deliver_eq, arch_setArch, setArch_setArch, ← shortDue_markGuard s g src p m v, ← shortDue_markGuard s g src q n w]
    simp [shortDue, orderNo]
  rw [h]
  exact onlyArch_setArch _ _

theorem exec_vuCompress_of_moves {g : Guard} {src : Src} {s : State} {x : Val} (h : Moves (.vuCompress g src) g src s x) :
    exec (.vuCompress g src) s = .next (deliver (deliver (markGuard s g src) .vuR 3 true
      { v := vecOfList ((maskLanesOf (vuK s)).map (laneOf x.broadcast.v)), t := taintOf [vuK s, x.broadcast],
        p := poisonOf [vuK s, x.broadcast] }) .vuSr 3 true
      { v := BitVec.ofNat 2048 (maskLanesOf (vuK s)).length, t := (vuK s).t, p := (vuK s).p }) := by
  refine congrArg Host.Outcome.next ((runMove_of_moves h _).trans ?_)
  have ht : taintOf [vuK s] = (vuK s).t := BitVec.or_zero
  have hp : poisonOf [vuK s] = (vuK s).p := Bool.or_false _
  simp only [getOp_markGuard, joinW, joinV_eq]
  rw [show getOp (arch s) .vuK = vuK s from rfl, keepMasked_lanesOf, List.length_map, wordToVec_ofNat (maskLanesOf_length _), ht, hp]

/-- Settles O24: each lane is the one that the operation names. -/
theorem vectorPermutes : Obligations.VectorPermutes := by
  intro g src s x t a k
  refine ⟨fun hx => ?_, fun hx => ?_, fun hx => ?_, fun hx => ?_, fun hx => ?_, fun hx => ?_, fun hx => ?_⟩
  · exact vecResult_of_vectorOp hx rfl (by rw [getOp_markGuard]; rfl) fun j hj => Laws.laneOf_ofLanes _ hj
  · exact vecResult_of_vectorOp hx rfl (by rw [getOp_markGuard]; rfl) fun j hj => Laws.laneOf_ofLanes _ hj
  · exact vecResult_of_vectorOp hx rfl (by rw [getOp_markGuard]; rfl) fun j hj => Laws.laneOf_ofLanes _ hj
  · exact vecResult_of_vectorOp hx rfl (by rw [getOp_markGuard, getOp_markGuard]; rfl) fun j hj => Laws.laneOf_ofLanes _ hj
  · refine vecResult_of_vectorOp hx rfl rfl fun j hj => ?_
    rw [Laws.laneOf_ofLanes _ hj, ofNat_add_lane]
  · refine vecResult_of_vectorOp hx rfl (by rw [getOp_markGuard, getOp_markGuard]; rfl) fun j hj => ?_
    exact laneOf_expand (vecToWord k.v) a.v t.v hj
  · refine ⟨_, vecOfList ((maskLanesOf k).map (laneOf t.v)), exec_vuCompress_of_moves hx, fun j hj => ?_, onlyArch_deliver_deliver ..⟩
    rw [laneOf_vecOfList _ hj, nthD, List.getElem?_map]
    cases (maskLanesOf k)[j]? <;> rfl

/-! Conversions, insertions and extractions (R136 to R138). -/

/-- A field inserted bit by bit is the sum of what stands above, in and below it. -/
theorem insertBits_eq (a : Lane) (lo n c : Nat) : insertBits a lo n c = insertAt a lo n c := by
  apply BitVec.eq_of_getLsbD_eq
  intro i hi
  have hlow : a.toNat % 2 ^ lo < 2 ^ lo := Nat.mod_lt _ (Nat.two_pow_pos lo)
  have hmid : c % 2 ^ n * 2 ^ lo + a.toNat % 2 ^ lo < 2 ^ (lo + n) := by
    have hc : c % 2 ^ n < 2 ^ n := Nat.mod_lt _ (Nat.two_pow_pos n)
    calc c % 2 ^ n * 2 ^ lo + a.toNat % 2 ^ lo < c % 2 ^ n * 2 ^ lo + 2 ^ lo := Nat.add_lt_add_left hlow _
      _ = (c % 2 ^ n + 1) * 2 ^ lo := (Nat.succ_mul _ _).symm
      _ ≤ 2 ^ n * 2 ^ lo := Nat.mul_le_mul_right _ hc
      _ = 2 ^ (lo + n) := by rw [Nat.pow_add, Nat.mul_comm]
  rw [insertBits, insertAt, BitVec.getLsbD_or, BitVec.getLsbD_and, BitVec.getLsbD_not, BitVec.getLsbD_ofNat, BitVec.getLsbD_ofNat,
    BitVec.getLsbD_ofNat, decide_eq_true hi, Nat.add_assoc, Nat.mul_comm (a.toNat / _), Nat.testBit_two_pow_mul_add _ hmid,
    Nat.testBit_mul_two_pow, Nat.testBit_mul_two_pow, Nat.testBit_two_pow_sub_one, Nat.testBit_mod_two_pow, Nat.mul_comm (c % _),
    Nat.testBit_two_pow_mul_add _ hlow, Nat.testBit_mod_two_pow, Nat.testBit_mod_two_pow, Nat.testBit_div_two_pow, BitVec.getLsbD]
  by_cases h1 : i < lo
  · have h2 : i < lo + n := by omega
    have h3 : ¬ lo ≤ i := by omega
    simp [h1, h2, h3]
  · by_cases h2 : i < lo + n
    · have h3 : lo ≤ i := by omega
      have h4 : i - lo < n := by omega
      simp [h2, h3, h4]
    · have h3 : lo ≤ i := by omega
      have h4 : ¬ i - lo < n := by omega
      have h5 : i - (lo + n) + (lo + n) = i := by omega
      simp [h2, h3, h4, h5]

theorem exec_insertions : ∀ r ∈ insertions, ∀ (g : Guard) (src : Src) (s : State), exec (r.1 g src) s =
    .next (vectorOp (r.1 g src) g src .vuR 2 (lanesAT (fun a t => insertBits a r.2.1 r.2.2.1 (r.2.2.2 t))) s) := by
  simp only [insertions, List.forall_mem_cons]
  exact ⟨fun _ _ _ => rfl, fun _ _ _ => rfl, fun _ _ _ => rfl, fun _ _ _ => rfl, fun _ _ _ => rfl, fun _ _ _ => rfl, fun _ _ _ => rfl,
    fun _ _ _ => rfl, fun _ _ _ => rfl, fun _ _ _ => rfl, fun _ h => nomatch h⟩

theorem exec_pairInsertions : ∀ r ∈ pairInsertions, ∀ (g : Guard) (src : Src) (s : State), exec (r.1 g src) s =
    .next (vectorOp (r.1 g src) g src .vuR 2 (lanesABT (fun a b t => insertBits a r.2 8 (encodeQ4x b t))) s) := by
  simp only [pairInsertions, List.forall_mem_cons]
  exact ⟨fun _ _ _ => rfl, fun _ _ _ => rfl, fun _ _ _ => rfl, fun _ _ _ => rfl, fun _ h => nomatch h⟩

theorem conversions_eq : conversions =
    [(.vuCvtFI, cvtFI), (.vuCvtIF, fun t => BitVec.ofNat 32 (toIntF t 32 false)), (.vuCvtIFZ, fun t => BitVec.ofNat 32 (toIntF t 32 true)),
     (.vuExtE40, fun t => ofE4m3 (natField t.toNat 0 8)), (.vuExtE41, fun t => ofE4m3 (natField t.toNat 8 8)),
     (.vuExtE42, fun t => ofE4m3 (natField t.toNat 16 8)), (.vuExtE43, fun t => ofE4m3 (natField t.toNat 24 8)),
     (.vuExtQ80, fun t => ofInt (signExtNat (natField t.toNat 0 8) 8)), (.vuExtQ81, fun t => ofInt (signExtNat (natField t.toNat 8 8) 8)),
     (.vuExtQ82, fun t => ofInt (signExtNat (natField t.toNat 16 8) 8)), (.vuExtQ83, fun t => ofInt (signExtNat (natField t.toNat 24 8) 8)),
     (.vuExtQ4x0, fun t => q4xElement t 0), (.vuExtQ4x1, fun t => q4xElement t 1), (.vuExtQ4x2, fun t => q4xElement t 2),
     (.vuExtQ4x3, fun t => q4xElement t 3), (.vuExtQ4x4, fun t => q4xElement t 4), (.vuExtQ4x5, fun t => q4xElement t 5),
     (.vuExtQ4x6, fun t => q4xElement t 6), (.vuExtQ4x7, fun t => q4xElement t 7), (.vuExtH0, fun t => ofBf16 (natField t.toNat 0 16)),
     (.vuExtH1, fun t => ofBf16 (natField t.toNat 16 16))] := by
  simp only [q4xElement, natField_eq_fieldAt]
  rfl

theorem exec_conversions : ∀ r ∈ conversions, ∀ (g : Guard) (src : Src) (s : State),
    exec (r.1 g src) s = .next (vectorOp (r.1 g src) g src .vuR 2 (lanesT r.2) s) := by
  rw [conversions_eq]
  simp only [List.forall_mem_cons]
  repeat refine And.intro (fun _ _ _ => rfl) ?_
  exact fun _ h => nomatch h

/-- Settles O25: an insertion replaces one field, an extraction reads one. -/
theorem vectorConversions : Obligations.VectorConversions := by
  refine ⟨fun r hr g src s x hx => vecResult_lanesT hx (exec_conversions r hr g src s), fun r hr g src s x hx => ?_,
    fun r hr g src s x hx => ?_⟩
  · simpa only [insertBits_eq] using vecResult_lanesAT hx (exec_insertions r hr g src s)
  · simpa only [insertBits_eq] using vecResult_lanesABT hx (exec_pairInsertions r hr g src s)

end Sys2Proof.Proofs
end

section
/-! PROOF. Rounding to nearest, ties to even (R125, R186). -/

namespace Sys2Proof.Proofs

open Sys2Proof.Machine Sys2Proof.Claims

/-- The rounded quotient lies within half a step of the number, and is even where it lies at half a step. -/
theorem roundShr_within (m sh : Nat) :
    2 * (roundShr m sh * 2 ^ sh) ≤ 2 * m + 2 ^ sh ∧ 2 * m ≤ 2 * (roundShr m sh * 2 ^ sh) + 2 ^ sh ∧
    (2 * (roundShr m sh * 2 ^ sh) = 2 * m + 2 ^ sh ∨ 2 * m = 2 * (roundShr m sh * 2 ^ sh) + 2 ^ sh → roundShr m sh % 2 = 0) := by
  cases sh with
  | zero => simp only [roundShr, if_true, Nat.pow_zero, Nat.mul_one]; omega
  | succ n =>
    have hdiv := Nat.div_add_mod' m (2 ^ (n + 1))
    have hmod := Nat.mod_lt m (Nat.two_pow_pos (n + 1))
    have hpow : 2 ^ (n + 1) = 2 * 2 ^ n := by rw [Nat.pow_succ, Nat.mul_comm]
    rw [roundShr, if_neg (Nat.succ_ne_zero n), Nat.add_sub_cancel]
    by_cases hup : 2 ^ n < m % 2 ^ (n + 1) ∨ (m % 2 ^ (n + 1) = 2 ^ n ∧ m / 2 ^ (n + 1) % 2 = 1)
    · simp only [if_pos hup, Nat.succ_mul]
      omega
    · simp only [if_neg hup]
      omega

/-- No other multiple of the step lies nearer; one that lies as near leaves the even quotient chosen. -/
theorem roundShr_nearest (m sh n : Nat) :
    gap (roundShr m sh * 2 ^ sh) m ≤ gap (n * 2 ^ sh) m ∧
    (gap (roundShr m sh * 2 ^ sh) m = gap (n * 2 ^ sh) m → n ≠ roundShr m sh → roundShr m sh % 2 = 0) := by
  obtain ⟨hlo, hhi, heven⟩ := roundShr_within m sh
  unfold gap
  rcases Nat.lt_trichotomy n (roundShr m sh) with hlt | heq | hgt
  · have hstep : n * 2 ^ sh + 2 ^ sh ≤ roundShr m sh * 2 ^ sh := by
      rw [← Nat.succ_mul]; exact Nat.mul_le_mul_right _ hlt
    omega
  · subst heq
    exact ⟨Nat.le_refl _, fun _ h => absurd rfl h⟩
  · have hstep : roundShr m sh * 2 ^ sh + 2 ^ sh ≤ n * 2 ^ sh := by
      rw [← Nat.succ_mul]; exact Nat.mul_le_mul_right _ hgt
    omega

theorem le_roundShr {m sh n : Nat} (h : n * 2 ^ sh ≤ m) : n ≤ roundShr m sh := by
  have hpos := Nat.two_pow_pos sh
  by_contra hlt
  have hstep : roundShr m sh * 2 ^ sh + 2 ^ sh ≤ n * 2 ^ sh := by
    rw [← Nat.succ_mul]; exact Nat.mul_le_mul_right _ (Nat.lt_of_not_le hlt)
  have := (roundShr_within m sh).2.1
  omega

theorem roundShr_le {m sh n : Nat} (h : m ≤ n * 2 ^ sh) : roundShr m sh ≤ n := by
  have hpos := Nat.two_pow_pos sh
  by_contra hlt
  have hstep : n * 2 ^ sh + 2 ^ sh ≤ roundShr m sh * 2 ^ sh := by
    rw [← Nat.succ_mul]; exact Nat.mul_le_mul_right _ (Nat.lt_of_not_le hlt)
  have := (roundShr_within m sh).1
  omega

/-- A quotient reaches an even number exactly from half a step below it on. -/
theorem even_le_roundShr_iff {m sh n : Nat} (hn : n % 2 = 0) : n ≤ roundShr m sh ↔ 2 * (n * 2 ^ sh) ≤ 2 * m + 2 ^ sh := by
  obtain ⟨hlo, hhi, heven⟩ := roundShr_within m sh
  have hpos := Nat.two_pow_pos sh
  constructor
  · intro h
    have := Nat.mul_le_mul_right (2 ^ sh) h
    omega
  · intro h
    by_contra hlt
    have hstep : roundShr m sh * 2 ^ sh + 2 ^ sh ≤ n * 2 ^ sh := by
      rw [← Nat.succ_mul]; exact Nat.mul_le_mul_right _ (Nat.lt_of_not_le hlt)
    have htie : roundShr m sh % 2 = 0 := heven (by omega)
    have hstep2 : roundShr m sh * 2 ^ sh + 2 * 2 ^ sh ≤ n * 2 ^ sh := by
      rw [← Nat.add_mul]; exact Nat.mul_le_mul_right _ (by omega)
    omega

theorem bitLen_eq {m : Nat} (h : 0 < m) : bitLen m = Nat.log2 m + 1 := if_neg (Nat.ne_of_gt h)

/-- The shift that leaves at most 24 bits, and at least the bits below the last subnormal one. -/
def cut (m k : Nat) : Nat := max (Nat.log2 m + 1 - 24) k

theorem le_cut (m k : Nat) : k ≤ cut m k := Nat.le_max_right ..

theorem magCode_eq {m : Nat} (h : 0 < m) (k : Nat) :
    magCode m (-149 - (k : Int)) 23 (-149) = (cut m k - k) * 2 ^ 23 + roundShr m (cut m k) := by
  have hk := le_cut m k
  have hm : m ≠ 0 := Nat.ne_of_gt h
  have hexp : max (((Nat.log2 m + 1 : Nat) : Int) + (-149 - (k : Int)) - ((23 + 1 : Nat) : Int)) (-149) = (cut m k : Int) - k - 149 := by
    unfold cut; omega
  simp only [magCode, if_neg hm, roundSig, bitLen_eq h, hexp]
  by_cases hcut : cut m k = 0
  · have hk0 : k = 0 := by omega
    subst hk0
    simp [hcut, roundShr]
  · have hnot : ¬ (cut m k : Int) - k - 149 ≤ -149 - (k : Int) := by omega
    have hsub : ((cut m k : Int) - k - 149 - (-149 - (k : Int))).toNat = cut m k := by omega
    have hcode : ((cut m k : Int) - k - 149 - -149).toNat = cut m k - k := by omega
    simp only [if_neg hnot, hsub, hcode]

theorem le_two_pow_cut (m k : Nat) : m ≤ 2 ^ 24 * 2 ^ cut m k := by
  rw [← Nat.pow_add]
  have hle : Nat.log2 m + 1 ≤ 24 + cut m k := by unfold cut; omega
  exact Nat.le_of_lt (Nat.lt_of_lt_of_le Nat.lt_log2_self (Nat.pow_le_pow_right (by omega) hle))

/-- A number cut above the subnormal bits has 24 of them left. -/
theorem two_pow_cut_le {m k : Nat} (h : 0 < m) (hk : k < cut m k) : 2 ^ 23 * 2 ^ cut m k ≤ m := by
  rw [← Nat.pow_add]
  have hle : 23 + cut m k ≤ Nat.log2 m := by unfold cut at hk ⊢; omega
  exact Nat.le_trans (Nat.pow_le_pow_right (by omega) hle) (Nat.log2_self_le (Nat.ne_of_gt h))

/-! The values of codes. -/

theorem codeValue_succ (c : Nat) : codeValue (c + 1) = codeValue c + 2 ^ (c / 2 ^ 23 - 1) := by
  have hdiv := Nat.div_add_mod' c (2 ^ 23)
  have hmod := Nat.mod_lt c (Nat.two_pow_pos 23)
  by_cases hlast : c % 2 ^ 23 = 2 ^ 23 - 1
  · have h1 : (c + 1) / 2 ^ 23 = c / 2 ^ 23 + 1 := by omega
    have h2 : (c + 1) % 2 ^ 23 = 0 := by omega
    simp only [codeValue, h1, h2, if_neg (Nat.succ_ne_zero _), Nat.add_sub_cancel, hlast]
    by_cases h0 : c / 2 ^ 23 = 0
    · rw [if_pos h0, h0]
      norm_num
    · have hpow : 2 ^ (c / 2 ^ 23) = 2 * 2 ^ (c / 2 ^ 23 - 1) := by
        rw [← Nat.pow_succ', Nat.succ_eq_add_one, Nat.sub_add_cancel (Nat.pos_of_ne_zero h0)]
      rw [if_neg h0, hpow]
      omega
  · have h1 : (c + 1) / 2 ^ 23 = c / 2 ^ 23 := by omega
    have h2 : (c + 1) % 2 ^ 23 = c % 2 ^ 23 + 1 := by omega
    simp only [codeValue, h1, h2]
    by_cases h0 : c / 2 ^ 23 = 0
    · simp only [h0, if_true]
      rfl
    · simp only [if_neg h0, ← Nat.add_assoc, Nat.succ_mul]

theorem codeValue_strictMono : StrictMono codeValue :=
  strictMono_nat_of_lt_succ fun c => by rw [codeValue_succ]; exact Nat.lt_add_of_pos_right (Nat.two_pow_pos _)

/-- A code as its exponent and its significand, which may be one that carries. -/
theorem codeValue_mul_add {u q : Nat} (hq : q ≤ 2 ^ 24) (h : u = 0 ∨ 2 ^ 23 ≤ q) : codeValue (u * 2 ^ 23 + q) = q * 2 ^ u := by
  by_cases hlow : q < 2 ^ 23
  · obtain rfl : u = 0 := by omega
    have hd : (0 * 2 ^ 23 + q) / 2 ^ 23 = 0 := by omega
    have hr : (0 * 2 ^ 23 + q) % 2 ^ 23 = q := by omega
    rw [codeValue, if_pos hd, hr, Nat.pow_zero, Nat.mul_one]
  · by_cases hcarry : q = 2 ^ 24
    · have hd : (u * 2 ^ 23 + q) / 2 ^ 23 = u + 2 := by omega
      have hr : (u * 2 ^ 23 + q) % 2 ^ 23 = 0 := by omega
      rw [codeValue, hd, hr, if_neg (by omega), hcarry, Nat.add_zero, Nat.add_sub_assoc (by omega), Nat.add_comm u, Nat.pow_add]
      omega
    · have hd : (u * 2 ^ 23 + q) / 2 ^ 23 = u + 1 := by omega
      have hr : (u * 2 ^ 23 + q) % 2 ^ 23 = q - 2 ^ 23 := by omega
      rw [codeValue, hd, hr, if_neg (by omega), Nat.add_sub_cancel, Nat.add_sub_cancel' (by omega)]

/-- A code at or above that of 2^23 steps of 2^u is a whole number of them. -/
theorem two_pow_dvd_codeValue {u d : Nat} (h : u = 0 ∨ u * 2 ^ 23 + 2 ^ 23 ≤ d) : 2 ^ u ∣ codeValue d := by
  rcases h with rfl | h
  · exact one_dvd _
  · have hexp : u + 1 ≤ d / 2 ^ 23 := (Nat.le_div_iff_mul_le (by omega)).mpr (by omega)
    rw [codeValue, if_neg (by omega)]
    exact Dvd.dvd.mul_left (Nat.pow_dvd_pow 2 (by omega)) _

theorem codeValue_magCode {m : Nat} (h : 0 < m) (k : Nat) :
    codeValue (magCode m (-149 - (k : Int)) 23 (-149)) * 2 ^ k = roundShr m (cut m k) * 2 ^ cut m k := by
  have hk := le_cut m k
  have hcut : cut m k - k = 0 ∨ 2 ^ 23 ≤ roundShr m (cut m k) := by
    by_cases hlt : k < cut m k
    · exact .inr (le_roundShr (two_pow_cut_le h hlt))
    · omega
  rw [magCode_eq h, codeValue_mul_add (roundShr_le (le_two_pow_cut m k)) hcut, Nat.mul_assoc, ← Nat.pow_add, Nat.sub_add_cancel hk]

/-- The code that rounding gives is at least as near as any other, and even where another is as near. -/
theorem magCode_nearest {m : Nat} (h : 0 < m) (k d : Nat) :
    let c := magCode m (-149 - (k : Int)) 23 (-149)
    gap (codeValue c * 2 ^ k) m ≤ gap (codeValue d * 2 ^ k) m ∧
      (gap (codeValue c * 2 ^ k) m = gap (codeValue d * 2 ^ k) m → d ≠ c → c % 2 = 0) := by
  intro c
  have hk := le_cut m k
  have hvalue : codeValue c * 2 ^ k = roundShr m (cut m k) * 2 ^ cut m k := codeValue_magCode h k
  have hpow : 2 ^ (cut m k - k) * 2 ^ k = 2 ^ cut m k := by rw [← Nat.pow_add, Nat.sub_add_cancel hk]
  have hparity : c % 2 = roundShr m (cut m k) % 2 := by
    show magCode m _ 23 _ % 2 = _
    rw [magCode_eq h]
    omega
  by_cases hfine : k < cut m k ∧ d < (cut m k - k) * 2 ^ 23 + 2 ^ 23
  · -- a code of finer steps lies below the least one of these steps, which is no greater than m
    obtain ⟨hlt, hd⟩ := hfine
    have hbase : codeValue ((cut m k - k) * 2 ^ 23 + 2 ^ 23) = 2 ^ 23 * 2 ^ (cut m k - k) :=
      codeValue_mul_add (by omega) (.inr (Nat.le_refl _))
    have hbelow : codeValue d * 2 ^ k < 2 ^ 23 * 2 ^ cut m k := by
      rw [← hpow, ← Nat.mul_assoc, ← hbase]
      exact Nat.mul_lt_mul_of_pos_right (codeValue_strictMono hd) (Nat.two_pow_pos k)
    have hm := two_pow_cut_le h hlt
    have hnear := (roundShr_nearest m (cut m k) (2 ^ 23)).1
    rw [hvalue]
    unfold gap at hnear ⊢
    omega
  · have hdvd : 2 ^ (cut m k - k) ∣ codeValue d := two_pow_dvd_codeValue (by omega)
    obtain ⟨n, hn⟩ := hdvd
    have hgrid : codeValue d * 2 ^ k = n * 2 ^ cut m k := by rw [hn, ← hpow, Nat.mul_comm _ n, Nat.mul_assoc]
    obtain ⟨hle, heven⟩ := roundShr_nearest m (cut m k) n
    rw [hvalue, hgrid, hparity]
    refine ⟨hle, fun heq hne => heven heq fun hnq => hne (codeValue_strictMono.injective ?_)⟩
    exact Nat.eq_of_mul_eq_mul_right (Nat.two_pow_pos k) (by rw [hgrid, hvalue, hnq])

theorem magCode_ge_inf_iff {m : Nat} (h : 0 < m) (k : Nat) :
    0x7F800000 ≤ magCode m (-149 - (k : Int)) 23 (-149) ↔ (2 ^ 25 - 1) * 2 ^ (252 + k) ≤ m := by
  have hk := le_cut m k
  have hq := roundShr_le (le_two_pow_cut m k)
  have hhalf : ∀ n, n = 253 + k → (2 * (2 ^ 24 * 2 ^ n) ≤ 2 * m + 2 ^ n ↔ (2 ^ 25 - 1) * 2 ^ (252 + k) ≤ m) := by
    rintro n rfl
    rw [show 253 + k = 252 + k + 1 from by omega, Nat.pow_succ]
    omega
  rw [magCode_eq h]
  rcases Nat.lt_trichotomy (cut m k) (253 + k) with hlt | heq | hgt
  · have hm := le_two_pow_cut m k
    have hpow : 2 ^ cut m k ≤ 2 ^ (252 + k) := Nat.pow_le_pow_right (by omega) (by omega)
    have hpos := Nat.two_pow_pos (252 + k)
    omega
  · rw [← hhalf _ heq, ← even_le_roundShr_iff (by omega), heq]
    omega
  · have hm := two_pow_cut_le h (by omega : k < cut m k)
    have hge := le_roundShr hm
    have hpow : 2 ^ (252 + k) * 4 ≤ 2 ^ cut m k := by
      rw [show 2 ^ (252 + k) * 4 = 2 ^ (252 + k + 2) from (Nat.pow_add 2 (252 + k) 2).symm]
      exact Nat.pow_le_pow_right (by omega) (by omega)
    omega

/-- Settles O26: both are seen on the shift that leaves 24 bits, where the codes are whole numbers of steps or lie below them all. -/
theorem roundsToNearest : Obligations.RoundsToNearest := by
  intro m k hm c
  have hinf := magCode_ge_inf_iff hm k
  refine ⟨fun hc d _ => ?_, ?_⟩
  · have hcode : c = magCode m (-149 - (k : Int)) 23 (-149) := Nat.min_eq_left (by omega)
    rw [hcode]
    exact magCode_nearest hm k d
  · rw [← hinf]
    omega

end Sys2Proof.Proofs
end

section
/-! PROOF. The stream queues of a quad (R139 to R142). -/

namespace Sys2Proof.Proofs

open Sys2Proof.Machine Sys2Proof.Claims

theorem arch_modQuad (s : State) (q : Nat) (f : Quad → Quad) : arch (modQuad s q f) = arch s := rfl

@[simp] theorem getQuad_markGuard (s : State) (g : Guard) (src : Src) (q : Nat) : getQuad (markGuard s g src) q = getQuad s q := by
  rw [getQuad, markGuard_quads, getQuad]

theorem orderNo_markGuard (s : State) (g : Guard) (src : Src) :
    orderNo (markGuard s g src) (arch (markGuard s g src)) = orderNo s (arch s) := by
  rw [orderNo, markGuard_csr, markGuard_issue, orderNo]

theorem orderNo_eq_of_issue {s t : State} (h : s.issue = t.issue) (a : CoreArch) : orderNo s a = orderNo t a := by
  rw [orderNo, orderNo, h]

theorem getQuad_setArch (s : State) (a : CoreArch) (q : Nat) : getQuad (setArch s a) q = getQuad s q := rfl

/-- The quad after a pop: what the pop takes has left the head of its stream. -/
def popTaken (s : State) (q : Nat) (p : Pop) : State :=
  let held := nthD (getQuad s q).streams p.stream []
  modQuad s q (fun x => { x with streams := setNth x.streams p.stream (held.drop (held.take p.most).length) })

theorem applyPop_eq (s : State) (q : Nat) (p : Pop) : applyPop q s p =
    if isLive (getCore s p.core) then popResults (popTaken s q p) p ((nthD (getQuad s q).streams p.stream []).take p.most)
    else popTaken s q p := by
  rw [applyPop, popTaken, List.length_take, List.take_eq_take_min (i := p.most)]

theorem applyPops_of_quads {s : State} {q : Nat} {x : Quad} (hq : s.quads = [(q, x)]) (hx : x.pops ≠ []) :
    applyPops s = x.pops.foldl (applyPop q) (modQuad s q (fun y => { y with pops := [] })) := by
  have he : x.pops.isEmpty = false := by simpa using hx
  rw [applyPops, hq, List.foldl_cons, List.foldl_nil, he, if_neg (by decide)]

theorem keepMasked_length_le (k : Word) (v : Vec) : (keepMasked k (lanesOf v)).length ≤ 64 := by
  rw [keepMasked, List.length_map, lanesOf_eq]
  exact Nat.le_trans (List.length_filter_le _ _) (by simp)

theorem exec_vuSpush_of_moves {g : Guard} {src : Src} {s : State} {x : Val} (h : Moves (.vuSpush g src) g src s x) :
    exec (.vuSpush g src) s = .next
      (let s1 := markGuard s g src
       let n := (laneOf (vuB s).v 0).toNat % 4
       let held := nthD (getQuad s (s.cur / 4)).streams n []
       let new := ((maskLanesOf (vuK s)).map (laneOf x.broadcast.v)).take (1024 - held.length)
       if (vuB s).p || (vuK s).p then raise s1 (.vuSpush g src) cPoison
       else deliver (openWindow (modQuad s1 (s.cur / 4)
          (fun y => { y with streams := setNth y.streams n (held ++ new.map (fun l => (l, x.broadcast.p))) })) s.cur 5) .vuSr 8 true
          { v := wordToVec (BitVec.ofNat 64 new.length), t := (vuK s).t, p := false }) := by
  refine congrArg Host.Outcome.next ((runMovePre_of_moves h _ _).trans ?_)
  simp only [getOp_markGuard, modQuad_cur, quadOf, markGuard_cur, getQuad_markGuard]
  rw [show getOp (arch s) .vuK = vuK s from rfl, show getOp (arch s) .vuB = vuB s from rfl, keepMasked_lanesOf]

theorem exec_vuSpop_of_moves {g : Guard} {src : Src} {s : State} {x : Val} (h : Moves (.vuSpop g src) g src s x) :
    exec (.vuSpop g src) s = .next
      (let s1 := markGuard s g src
       let d := (laneOf x.broadcast.v 0).toNat
       if x.broadcast.p then raise s1 (.vuSpop g src) cPoison
       else if 64 < d / 4 % 128 then raise s1 (.vuSpop g src) cOperand
       else openWindow (modQuad s1 (s.cur / 4) (fun y => { y with pops := y.pops ++
          [{ core := s.cur, stream := d % 4, most := d / 4 % 128, due := (arch s).csr.cyc + 8, ord := orderNo s (arch s),
             t := x.broadcast.t }] })) s.cur 5) := by
  refine congrArg Host.Outcome.next ((runMove_of_moves h _).trans ?_)
  simp only [natField, orderNo_markGuard, quadOf, markGuard_cur, markGuard_csr, Nat.shiftRight_eq_div_pow]
  rfl

/-- Opening the window of the running core after a change to its quad spares every other core and quad, and the memories. -/
theorem openWindow_modQuad_keeps (s : State) (g : Guard) (src : Src) (f : Quad → Quad) :
    let u := openWindow (modQuad (markGuard s g src) (s.cur / 4) f) s.cur 5
    getQuad u (s.cur / 4) = f (getQuad s (s.cur / 4)) ∧ arch u = arch (markGuard s g src) ∧
      (∀ c, c ≠ s.cur → getCore u c = getCore s c) ∧ (∀ d, d ≠ s.cur / 4 → getQuad u d = getQuad s d) ∧ u.stash = s.stash ∧ u.far = s.far := by
  intro u
  have hcore : ∀ c, c ≠ s.cur → getCore u c = getCore s c := fun c hc => by
    rw [getCore_openWindow_other _ _ (Ne.symm hc)]
    exact markGuard_getCore_other s g src (Ne.symm hc)
  refine ⟨?_, by rw [arch_openWindow, arch_modQuad], hcore, fun d hd => ?_, markGuard_stash s g src, markGuard_far s g src⟩
  · rw [getQuad_openWindow, getQuad_modQuad_same, getQuad_markGuard]
  · rw [getQuad_openWindow, getQuad_modQuad_other _ _ (Ne.symm hd), getQuad_markGuard]

/-- The same with a result that is put in flight. -/
theorem deliver_keeps (u : State) (port : PortId) (lat : Nat) (v : VVal) : (∀ c, c ≠ u.cur → getCore (deliver u port lat true v) c = getCore u c) ∧
    (∀ d, getQuad (deliver u port lat true v) d = getQuad u d) ∧ (deliver u port lat true v).stash = u.stash ∧
    (deliver u port lat true v).far = u.far ∧ arch (deliver u port lat true v) = { arch u with due := (arch u).due ++ [shortDue u port lat v] } :=
  ⟨fun _ hc => getCore_setArch_other u _ (Ne.symm hc), fun _ => rfl, rfl, rfl, arch_setArch u _⟩

theorem applyPop_claim (s : State) (q : Nat) (p : Pop) :
    let held := nthD (getQuad s q).streams p.stream []
    let es := held.take p.most
    ∃ v, (∀ j, j < 64 → laneOf v j = match es[j]? with | some e => e.1 | none => 0) ∧
      let u := applyPop q s p
      getQuad u q = { getQuad s q with streams := setNth (getQuad s q).streams p.stream (held.drop es.length) } ∧
      (∀ d, d ≠ q → getQuad u d = getQuad s d) ∧ (∀ c, c ≠ p.core → getCore u c = getCore s c) ∧ u.stash = s.stash ∧ u.far = s.far ∧
      (isLive (getCore s p.core) = false → u.cores = s.cores) ∧
      (isLive (getCore s p.core) = true → (getCore u p.core).arch = { (getCore s p.core).arch with due := (getCore s p.core).arch.due ++
        [{ port := .vuR, at_ := p.due, ord := p.ord, val := { v := v, t := p.t, p := es.any (·.2) }, short := true },
         { port := .vuMr, at_ := p.due, ord := p.ord,
           val := { v := wordToVec (BitVec.ofNat 64 (2 ^ es.length - 1)), t := p.t, p := false }, short := true }] }) := by
  intro held es
  refine ⟨ofLanes (fun i => (nthD es i (0#32, false)).1), fun j hj => ?_, ?_⟩
  · rw [Laws.laneOf_ofLanes _ hj, nthD]
    cases es[j]? <;> rfl
  · rw [applyPop_eq]
    have hquad : getQuad (popTaken s q p) q =
        { getQuad s q with streams := setNth (getQuad s q).streams p.stream (held.drop es.length) } := getQuad_modQuad_same s q _
    have hother : ∀ d, d ≠ q → getQuad (popTaken s q p) d = getQuad s d := fun d hd => getQuad_modQuad_other s _ (Ne.symm hd)
    cases hl : isLive (getCore s p.core) with
    | true =>
      rw [if_pos rfl]
      exact ⟨hquad, hother, fun c hc => getCore_modCore_other _ _ (Ne.symm hc), rfl, rfl, (fun h => nomatch h),
        fun _ => congrArg Core.arch (getCore_modCore_same _ _ _)⟩
    | false =>
      rw [if_neg (by decide)]
      exact ⟨hquad, hother, fun _ _ => rfl, rfl, rfl, fun _ => rfl, fun h => nomatch h⟩

/-- Settles O27: each pop is applied by itself; a push and a pop change their quad and open the window of their core. -/
theorem streamQueues : Obligations.StreamQueues := by
  refine ⟨applyPop_claim, fun s q x hq hx => applyPops_of_quads hq hx, fun g src s x => ?_⟩
  intro t s1 q n held new d
  refine ⟨fun hm => ?_, fun hm => ?_⟩
  · rw [exec_vuSpush_of_moves hm]
    refine ⟨fun hp => ?_, fun hb hk => ?_⟩
    · have hor : ((vuB s).p || (vuK s).p) = true := by simpa using hp
      simp only [hor, if_true]
      rfl
    · have hlen : new.length ≤ 64 :=
        (List.length_take_le' _ _).trans (by rw [List.length_map]; exact maskLanesOf_length _)
      obtain ⟨hquad, harch, hcore, hother, hstash, hfar⟩ :=
        openWindow_modQuad_keeps s g src (fun y => { y with streams := setNth y.streams n (held ++ new.map (fun l => (l, t.p))) })
      obtain ⟨dcore, dquad, dstash, dfar, darch⟩ := deliver_keeps
        (openWindow (modQuad (markGuard s g src) (s.cur / 4)
          (fun y => { y with streams := setNth y.streams n (held ++ new.map (fun l => (l, t.p))) })) s.cur 5)
        .vuSr 8 { v := wordToVec (BitVec.ofNat 64 new.length), t := (vuK s).t, p := false }
      simp only [hb, hk, Bool.or_self, Bool.false_eq_true, if_false]
      refine ⟨_, rfl, (dquad _).trans hquad, darch.trans ?_, fun c hc => (dcore c ?_).trans (hcore c hc),
        fun d hd => (dquad d).trans (hother d hd), fun k => by rw [dstash, hstash], dfar.trans hfar⟩
      · rw [harch, wordToVec_ofNat hlen, markGuard_due]
        simp only [shortDue, harch, markGuard_csr]
        rw [← orderNo_markGuard s g src, markGuard_csr]
        rfl
      · exact ne_of_ne_of_eq hc (markGuard_cur s g src).symm
  · rw [exec_vuSpop_of_moves hm]
    refine ⟨fun hp => ?_, fun hp h64 => ?_, fun hp h64 => ?_⟩
    · simp only [show x.broadcast.p = true from hp, if_true]
      rfl
    · simp only [show x.broadcast.p = false from hp, Bool.false_eq_true, if_false]
      rw [if_pos h64]
    · obtain ⟨hquad, harch, hcore, hother, hstash, hfar⟩ := openWindow_modQuad_keeps s g src (fun y => { y with pops := y.pops ++
          [{ core := s.cur, stream := d % 4, most := d / 4 % 128, due := (arch s).csr.cyc + 8, ord := orderNo s (arch s), t := t.t }] })
      simp only [show x.broadcast.p = false from hp, Bool.false_eq_true, if_false]
      rw [if_neg (Nat.not_lt.mpr h64)]
      exact ⟨_, rfl, hquad, harch, hcore, hother, fun k => by rw [hstash], hfar⟩

end Sys2Proof.Proofs
end

section
/-! PROOF. Address slots and their arithmetic (R109, R118). -/

namespace Sys2Proof.Proofs

open Sys2Proof.Machine Sys2Proof.Claims

/-! An address slot with live registers. -/

theorem liveIn_of_addresses {i : Instr} {g : Guard} {j : Fin 16} {u : Bool} {s : State} {x : AddrIn} (h : Addresses i g j u s x) :
    liveIn s j x.guard = x := by
  obtain ⟨-, -, -, ha, hm, hfree, -⟩ := h
  obtain ⟨a, m, free, guard⟩ := x
  simp only at ha hm hfree
  rw [liveIn, ← ha, ← hm, ← hfree]

theorem runAddr_of_addresses {i : Instr} {g : Guard} {j : Fin 16} {u : Bool} {s : State} {x : AddrIn} (h : Addresses i g j u s x)
    (p : AddrIn → Bool) (f : AddrIn → State → State) : runAddr i g j u p s f = if p x then raise s i cPoison else f x s := by
  have hlive := liveIn_of_addresses h
  obtain ⟨hwf, ha, hm, -, -, -, hg⟩ := h
  rw [runAddr_live hwf (guardRes_of_guardOn hg) ha hm, hlive]

theorem updated_of_not_mFree {x : AddrIn} (h : x.mFree = false) :
    updated x = (addrUpdate x.a.v x.m.v).map (fun v => { v := v, t := x.a.t ||| x.m.t, p := x.a.p || x.m.p }) := by
  rw [updated, if_neg (by simp [h])]

theorem mFree_of_addresses {i : Instr} {g : Guard} {j : Fin 16} {u : Bool} {s : State} {x : AddrIn} (h : Addresses i g j u s x) :
    x.mFree = false := h.2.2.2.2.2.1

theorem updateBad_eq_false_iff {u : Bool} {x : AddrIn} (h : x.mFree = false) : updateBad u x = false ↔ modifierOk u x := by
  rw [updateBad, updated_of_not_mFree h, modifierOk]
  cases u <;> cases addrUpdate x.a.v x.m.v <;> simp

theorem updateBad_of_not_ok {u : Bool} {x : AddrIn} (h : x.mFree = false) (hm : ¬ modifierOk u x) : updateBad u x = true :=
  Bool.of_not_eq_false fun hb => hm ((updateBad_eq_false_iff h).mp hb)

theorem postUpdate_of_update {s : State} {j : Fin 16} {x : AddrIn} {w : Word} (h : x.mFree = false) (hw : addrUpdate x.a.v x.m.v = some w) :
    postUpdate s true j x = writeA s j { v := w, t := x.a.t ||| x.m.t, p := x.a.p || x.m.p } := by
  rw [postUpdate, if_pos rfl, updated_of_not_mFree h, hw]
  rfl

/-! Fields, bit reversal and the window of an address. -/

theorem natField_eq (x lo len : Nat) : natField x lo len = x / 2 ^ lo % 2 ^ len := by rw [natField, Nat.shiftRight_eq_div_pow]

theorem bitReverse_lt (x w : Nat) : bitReverse x w < 2 ^ w := by
  induction w generalizing x with
  | zero => exact Nat.one_pos
  | succ w ih =>
    have := ih (x / 2)
    rw [bitReverse, Nat.pow_succ]
    split <;> omega

theorem testBit_bitReverse {x w i : Nat} (h : i < w) : (bitReverse x w).testBit i = x.testBit (w - 1 - i) := by
  induction w generalizing x with
  | zero => omega
  | succ w ih =>
    have hb : (if x.testBit 0 then 2 ^ w else 0) = 2 ^ w * (x.testBit 0).toNat := by cases x.testBit 0 <;> simp
    rw [bitReverse, hb, Nat.testBit_two_pow_mul_add _ (bitReverse_lt _ _)]
    by_cases hi : i < w
    · rw [if_pos hi, ih hi, Nat.testBit_div_two]
      congr 1
      omega
    · obtain rfl : i = w := by omega
      rw [if_neg hi, Nat.sub_self, Nat.add_sub_cancel, Nat.sub_self]
      cases x.testBit 0 <;> rfl

theorem bitReverse_bitReverse {x w : Nat} (h : x < 2 ^ w) : bitReverse (bitReverse x w) w = x := by
  apply Nat.eq_of_testBit_eq
  intro i
  by_cases hi : i < w
  · rw [testBit_bitReverse hi, testBit_bitReverse (by omega)]
    congr 1
    omega
  · have hpow : 2 ^ w ≤ 2 ^ i := Nat.pow_le_pow_right (by omega) (by omega)
    rw [Nat.testBit_lt_two_pow (Nat.lt_of_lt_of_le (bitReverse_lt _ _) hpow), Nat.testBit_lt_two_pow (Nat.lt_of_lt_of_le h hpow)]

theorem le_two_pow_ceilLog2 (n : Nat) : n ≤ 2 ^ ceilLog2 n := by
  unfold ceilLog2
  split
  next h => exact h
  next h => exact Nat.le_of_pred_lt (Nat.lt_log2_self (n := n - 1))

theorem ceilLog2_le {n k : Nat} (h : n ≤ 2 ^ k) : ceilLog2 n ≤ k := by
  unfold ceilLog2
  split
  · exact Nat.zero_le _
  next h1 => exact (Nat.log2_lt (by omega)).mpr (by omega)

/-- A field of an address replaced by a number that fits it. -/
theorem addr_replace_low {a : Word} {w r : Nat} (hw : w < 32) (hr : r < 2 ^ w) :
    (BitVec.ofNat 64 (a.toNat - a.toNat % 2 ^ w + r)).toNat / 2 ^ w = a.toNat / 2 ^ w ∧
      (BitVec.ofNat 64 (a.toNat - a.toNat % 2 ^ w + r)).toNat % 2 ^ w = r := by
  have hsub : a.toNat - a.toNat % 2 ^ w = 2 ^ w * (a.toNat / 2 ^ w) := by
    have := Nat.div_add_mod a.toNat (2 ^ w)
    omega
  have hpos := Nat.two_pow_pos w
  have hdiv : a.toNat / 2 ^ w < 2 ^ (64 - w) := by
    rw [Nat.div_lt_iff_lt_mul hpos, ← Nat.pow_add, Nat.sub_add_cancel (by omega)]
    exact a.isLt
  have hlt : 2 ^ w * (a.toNat / 2 ^ w) + r < 2 ^ 64 := by
    calc 2 ^ w * (a.toNat / 2 ^ w) + r < 2 ^ w * (a.toNat / 2 ^ w) + 2 ^ w := Nat.add_lt_add_left hr _
      _ = 2 ^ w * (a.toNat / 2 ^ w + 1) := (Nat.mul_succ _ _).symm
      _ ≤ 2 ^ w * 2 ^ (64 - w) := Nat.mul_le_mul_left _ hdiv
      _ = 2 ^ 64 := by rw [← Nat.pow_add, Nat.add_sub_cancel' (by omega)]
  rw [hsub, BitVec.toNat_ofNat, Nat.mod_eq_of_lt hlt, Nat.mul_add_div hpos, Nat.mul_add_mod, Nat.div_eq_of_lt hr, Nat.mod_eq_of_lt hr]
  exact ⟨rfl, rfl⟩

/-! The three updates (R109). -/

section Update

variable {a m : Word}

theorem addrUpdate_reserved (h : 2 ^ 49 ≤ m.toNat) : addrUpdate a m = none := by
  have hm := m.isLt
  have hf : natField m.toNat 49 15 ≠ 0 := by rw [natField_eq]; omega
  rw [addrUpdate, if_pos hf]

theorem natField_reserved (h : m.toNat < 2 ^ 49) : natField m.toNat 49 15 = 0 := by rw [natField_eq]; omega

theorem addrUpdate_both (hw : m.toNat / 2 ^ 44 % 32 ≠ 0) (hl : m.toNat / 2 ^ 22 % 2 ^ 22 ≠ 0) : addrUpdate a m = none := by
  by_cases h : m.toNat < 2 ^ 49
  · have hboth : natField m.toNat 44 5 ≠ 0 ∧ natField m.toNat 22 22 ≠ 0 := by rw [natField_eq, natField_eq]; exact ⟨hw, hl⟩
    rw [addrUpdate, if_neg (not_not.mpr (natField_reserved h)), if_pos hboth]
  · exact addrUpdate_reserved (Nat.le_of_not_lt h)

theorem addrUpdate_linear (h : m.toNat < 2 ^ 49) (hw : m.toNat / 2 ^ 44 % 32 = 0) (hl : m.toNat / 2 ^ 22 % 2 ^ 22 = 0) :
    addrUpdate a m = some (BitVec.ofInt 64 (a.toNat + signExtNat m.toNat 22)) := by
  have hw' : natField m.toNat 44 5 = 0 := by rw [natField_eq]; exact hw
  have hl' : natField m.toNat 22 22 = 0 := by rw [natField_eq]; exact hl
  simp only [addrUpdate, natField_reserved h, hw', hl', ne_eq, not_true_eq_false, false_and, if_false]

theorem addrUpdate_circular (h : m.toNat < 2 ^ 49) (hw : m.toNat / 2 ^ 44 % 32 = 0) (hl : m.toNat / 2 ^ 22 % 2 ^ 22 ≠ 0) :
    let len := m.toNat / 2 ^ 22 % 2 ^ 22
    let n := ceilLog2 len
    addrUpdate a m = some (BitVec.ofInt 64 (((a.toNat / 2 ^ n * 2 ^ n : Nat) : Int) +
      (((a.toNat % 2 ^ n : Nat) : Int) + signExtNat m.toNat 22) % (len : Int))) := by
  intro len n
  have hw' : natField m.toNat 44 5 = 0 := by rw [natField_eq]; exact hw
  have hl' : natField m.toNat 22 22 = len := natField_eq _ _ _
  have hsub : a.toNat - a.toNat % 2 ^ n = a.toNat / 2 ^ n * 2 ^ n := by
    have := Nat.div_add_mod' a.toNat (2 ^ n)
    omega
  simp only [addrUpdate, natField_reserved h, hw', hl', ne_eq, not_true_eq_false, false_and, if_false]
  rw [if_pos hl, hsub]

theorem addrUpdate_reverse (h : m.toNat < 2 ^ 49) (hw : m.toNat / 2 ^ 44 % 32 ≠ 0) (hl : m.toNat / 2 ^ 22 % 2 ^ 22 = 0) :
    let w := m.toNat / 2 ^ 44 % 32
    let r := (bitReverse (a.toNat % 2 ^ w) w + bitReverse (intMod (signExtNat m.toNat 22) w) w) % 2 ^ w
    addrUpdate a m = some (BitVec.ofNat 64 (a.toNat - a.toNat % 2 ^ w + bitReverse r w)) := by
  intro w r
  have hw' : natField m.toNat 44 5 = w := natField_eq _ _ _
  have hl' : natField m.toNat 22 22 = 0 := by rw [natField_eq]; exact hl
  simp only [addrUpdate, natField_reserved h, hw', hl', ne_eq, not_true_eq_false, and_false, if_false]
  rw [if_pos hw]

theorem addrUpdate_window (h : m.toNat < 2 ^ 49) (hw : m.toNat / 2 ^ 44 % 32 = 0) (hl : m.toNat / 2 ^ 22 % 2 ^ 22 ≠ 0) :
    ∃ n : Nat, m.toNat / 2 ^ 22 % 2 ^ 22 ≤ 2 ^ n ∧ (∀ k, m.toNat / 2 ^ 22 % 2 ^ 22 ≤ 2 ^ k → n ≤ k) ∧ addrUpdate a m =
      some (BitVec.ofInt 64 (((a.toNat / 2 ^ n * 2 ^ n : Nat) : Int) +
        (((a.toNat % 2 ^ n : Nat) : Int) + signExtNat m.toNat 22) % ((m.toNat / 2 ^ 22 % 2 ^ 22 : Nat) : Int))) :=
  ⟨_, le_two_pow_ceilLog2 _, fun _ => ceilLog2_le, addrUpdate_circular h hw hl⟩

theorem addrUpdate_mirror (h : m.toNat < 2 ^ 49) (hw : m.toNat / 2 ^ 44 % 32 ≠ 0) (hl : m.toNat / 2 ^ 22 % 2 ^ 22 = 0) :
    let w := m.toNat / 2 ^ 44 % 32
    ∃ b, addrUpdate a m = some b ∧ b.toNat / 2 ^ w = a.toNat / 2 ^ w ∧ bitReverse (b.toNat % 2 ^ w) w =
      (bitReverse (a.toNat % 2 ^ w) w + bitReverse (signExtNat m.toNat 22 % (2 ^ w : Nat)).toNat w) % 2 ^ w := by
  intro w
  have hw32 : w < 32 := Nat.mod_lt _ (by decide)
  obtain ⟨hhigh, hlow⟩ := addr_replace_low (a := a) hw32 (bitReverse_lt
    ((bitReverse (a.toNat % 2 ^ w) w + bitReverse (intMod (signExtNat m.toNat 22) w) w) % 2 ^ w) w)
  refine ⟨_, addrUpdate_reverse h hw hl, hhigh, ?_⟩
  rw [hlow, bitReverse_bitReverse (Nat.mod_lt _ (Nat.two_pow_pos w))]
  rfl

end Update

theorem addImm_eq (a : Word) (n : BitVec 7) : a + n.signExtend 64 = BitVec.ofInt 64 (a.toNat + n.toInt) := by
  rw [BitVec.ofInt_add, BitVec.ofInt_natCast, BitVec.ofNat_toNat, BitVec.setWidth_eq]
  rfl

/-- Settles O28: the fields of the modifier choose the update; `aupd` and `aadd` write what it gives. -/
theorem addressArithmetic : Obligations.AddressArithmetic := by
  refine ⟨?_, fun g j s x hx => ?_, fun g j n s x hx => ?_, fun s j x => onlyArch_setArch s _⟩
  · intro a m len w inc
    exact ⟨addrUpdate_reserved, addrUpdate_both, addrUpdate_linear, addrUpdate_window, addrUpdate_mirror⟩
  · have hexec : exec (.aupd g j) s =
        .next (if updateBad true x then raise s (.aupd g j) cModifier else postUpdate s true j x) :=
      congrArg Host.Outcome.next (runAddr_of_addresses hx _ _)
    have hfree := mFree_of_addresses hx
    rw [hexec]
    refine ⟨fun w hw => ?_, fun hnone => ?_⟩
    · rw [(updateBad_eq_false_iff hfree).mpr fun _ => by rw [hw]; rfl, if_neg (by decide), postUpdate_of_update hfree hw]
    · rw [updateBad_of_not_ok hfree fun hok => by simpa [hnone] using hok rfl, if_pos rfl]
  · have hexec : exec (.aadd g j n) s = .next (writeA s j { v := x.a.v + n.signExtend 64, t := x.a.t, p := x.a.p }) :=
      congrArg Host.Outcome.next (runAddr_of_addresses hx _ _)
    rw [hexec, addImm_eq]

end Sys2Proof.Proofs
end

section
/-! PROOF. Far accesses: their faults, far loads and prefetches (R114 to R116, R121). -/

namespace Sys2Proof.Proofs

open Sys2Proof.Machine Sys2Proof.Claims

/-! The post-update changes one address register (R109). -/

theorem postUpdate_cases (s : State) (u : Bool) (j : Fin 16) (x : AddrIn) :
    postUpdate s u j x = s ∧ (u = true → updated x = none) ∨ u = true ∧ ∃ v, updated x = some v ∧ postUpdate s u j x = writeA s j v := by
  cases u with
  | false => exact .inl ⟨rfl, fun h => nomatch h⟩
  | true =>
    rw [postUpdate, if_pos rfl]
    cases updated x with
    | none => exact .inl ⟨rfl, fun _ => rfl⟩
    | some v => exact .inr ⟨rfl, v, rfl, rfl⟩

/-- What the slot leaves in its address registers. -/
def steppedA (s : State) (u : Bool) (j : Fin 16) (x : AddrIn) : Vector SReg 16 := (arch (postUpdate s u j x)).regs.a

theorem arch_writeA (s : State) (j : Fin 16) (v : SVal) : arch (writeA s j v) = { arch s with regs := { (arch s).regs with
    a := vset (arch s).regs.a j { v := v.v, t := v.t, p := v.p, dead := (vget (arch s).regs.a j).dead } } } := arch_setArch s _

theorem arch_postUpdate (s : State) (u : Bool) (j : Fin 16) (x : AddrIn) :
    arch (postUpdate s u j x) = { arch s with regs := { (arch s).regs with a := steppedA s u j x } } := by
  rw [steppedA]
  rcases postUpdate_cases s u j x with ⟨h, -⟩ | ⟨-, v, -, h⟩
  · rw [h]
  · rw [h, arch_writeA]

theorem getCore_postUpdate_other (s : State) (u : Bool) (j : Fin 16) (x : AddrIn) {c : Nat} (hc : s.cur ≠ c) :
    getCore (postUpdate s u j x) c = getCore s c := by
  rcases postUpdate_cases s u j x with ⟨h, -⟩ | ⟨-, v, -, h⟩
  · rw [h]
  · rw [h]
    exact getCore_setArch_other s _ hc

theorem postUpdate_but_cores (s : State) (u : Bool) (j : Fin 16) (x : AddrIn) : { postUpdate s u j x with cores := s.cores } = s := by
  rcases postUpdate_cases s u j x with ⟨h, -⟩ | ⟨-, v, -, h⟩
  · rw [h]
  · rw [h]
    rfl

theorem stepped_postUpdate {s : State} {u : Bool} {j : Fin 16} {x : AddrIn} (h : x.mFree = false) : stepped s u j x (postUpdate s u j x) := by
  rcases postUpdate_cases s u j x with ⟨he, hnone⟩ | ⟨hu, v, hv, he⟩
  · rw [he]
    refine ⟨fun _ _ => rfl, fun _ => rfl, fun hu w hw => ?_⟩
    rw [updated_of_not_mFree h, hw] at hnone
    exact nomatch hnone hu
  · rw [updated_of_not_mFree h] at hv
    rw [he, stepped, arch_writeA]
    refine ⟨fun k hk => vget_vset_other _ _ (Ne.symm hk), (fun hfalse => nomatch hu.symm.trans hfalse), fun _ w hw => ?_⟩
    rw [hw] at hv
    obtain rfl := Option.some.inj hv
    rw [vget_vset_same]
    rfl

/-- Of `s` only the order of memory accesses, the journal and the record of a rerun of the running core have changed, and the numbers given
out and the commit of the bundle. -/
structure OrderStep (s t : State) : Prop where
  cur : t.cur = s.cur
  others : ∀ c, c ≠ s.cur → getCore t c = getCore s c
  archEq : { arch t with order := (arch s).order } = arch s
  rest : { t with cores := s.cores, issue := s.issue, uid := s.uid } = s

theorem OrderStep.refl (s : State) : OrderStep s s := ⟨rfl, fun _ _ => rfl, rfl, rfl⟩

theorem OrderStep.trans {s t u : State} (h : OrderStep s t) (k : OrderStep t u) : OrderStep s u where
  cur := k.cur.trans h.cur
  others c hc := (k.others c (by rw [h.cur]; exact hc)).trans (h.others c hc)
  archEq := (congrArg (fun a : CoreArch => { a with order := (arch s).order }) k.archEq).trans h.archEq
  rest := (congrArg (fun a : State => { a with cores := s.cores, issue := s.issue, uid := s.uid }) k.rest).trans h.rest

theorem OrderStep.stash {s t : State} (h : OrderStep s t) : t.stash = s.stash := (congrArg State.stash h.rest :)
theorem OrderStep.far {s t : State} (h : OrderStep s t) : t.far = s.far := (congrArg State.far h.rest :)
theorem OrderStep.regs {s t : State} (h : OrderStep s t) : (arch t).regs = (arch s).regs := (congrArg CoreArch.regs h.archEq :)
theorem OrderStep.due {s t : State} (h : OrderStep s t) : (arch t).due = (arch s).due := (congrArg CoreArch.due h.archEq :)

theorem OrderStep.sparesRegs {s t : State} (h : OrderStep s t) : sparesRegs s t :=
  ⟨(congrArg CoreArch.ops h.archEq :), (congrArg CoreArch.res h.archEq :), (congrArg CoreArch.csr h.archEq :),
    (congrArg CoreArch.seq h.archEq :), congrArg (fun a => { a.regs with a := (arch s).regs.a }) h.archEq,
    (congrArg CoreArch.hdue h.archEq :), congrArg (fun a => anvilOf a.anv) h.archEq, (congrArg CoreArch.q h.archEq :),
    (congrArg CoreArch.fences h.archEq :)⟩

/-- The post-update after a change of the order. -/
theorem OrderStep.stepped {s t : State} (h : OrderStep s t) {x : AddrIn} (hf : x.mFree = false) (u : Bool) (j : Fin 16) :
    stepped s u j x (postUpdate t u j x) := by
  have hp := stepped_postUpdate (s := t) (u := u) (j := j) hf
  unfold Claims.stepped at hp ⊢
  rw [h.regs] at hp
  exact hp

theorem OrderStep.sparesCores {s t : State} (h : OrderStep s t) (u : Bool) (j : Fin 16) (x : AddrIn) :
    sparesCores s (postUpdate t u j x) := by
  refine ⟨fun c hc => ?_, ?_⟩
  · rw [getCore_postUpdate_other t u j x (by rw [h.cur]; exact Ne.symm hc), h.others c hc]
  · rw [Claims.sparesRegs, arch_postUpdate]
    exact h.sparesRegs

theorem postUpdate_stash (s : State) (u : Bool) (j : Fin 16) (x : AddrIn) : (postUpdate s u j x).stash = s.stash :=
  (congrArg State.stash (postUpdate_but_cores s u j x) :)
theorem postUpdate_far (s : State) (u : Bool) (j : Fin 16) (x : AddrIn) : (postUpdate s u j x).far = s.far :=
  (congrArg State.far (postUpdate_but_cores s u j x) :)
theorem postUpdate_order (s : State) (u : Bool) (j : Fin 16) (x : AddrIn) : (arch (postUpdate s u j x)).order = (arch s).order := by
  rw [arch_postUpdate]
theorem postUpdate_due (s : State) (u : Bool) (j : Fin 16) (x : AddrIn) : (arch (postUpdate s u j x)).due = (arch s).due := by
  rw [arch_postUpdate]

theorem far_modOrder_append (s : State) (n : Nat) (op : FarOp) :
    (arch (modOrder { s with uid := n } (fun r => { r with far := r.far ++ [op] }))).order.far = (arch s).order.far ++ [op] := by
  rw [arch_modOrder]
  rfl

theorem far_modOrder_count (s : State) (n : Nat) (op : FarOp) :
    (arch (modOrder { s with uid := n } (fun r => { r with far := r.far ++ [op], farCount := r.farCount + 1 }))).order.far =
      (arch s).order.far ++ [op] := by
  rw [arch_modOrder]
  rfl

theorem orderStep_modOrder (s : State) (n : Nat) (f : Order → Order) : OrderStep s (modOrder { s with uid := n } f) where
  cur := rfl
  others c hc := getCore_setArch_other _ _ (Ne.symm hc)
  archEq := by rw [arch_modOrder]; rfl
  rest := rfl

/-! The faults of a far access, in their order (R114, R121). -/

/-- A far access whose handle, address and modifier have been read: its faults, or what it does. -/
def farGate (i : Instr) (k : Fin 16) (u : Bool) (x : AddrIn) (size align : Nat) (writes : Bool) (s done : State) : State :=
  if (fetchHandle s k).early && sbchkOn s then raise s i cScoreboard
  else if updateBad u x then raise s i cModifier
  else ((farFault (fetchHandle s k) x.a.v.toNat size align writes).map (raise s i)).getD done

theorem farGate_eq (i : Instr) (k : Fin 16) (u : Bool) (x : AddrIn) (size align : Nat) (writes : Bool) (s done : State) :
    farGate i k u x size align writes s done =
      if (fetchHandle s k).early && sbchkOn s then raise s i cScoreboard
      else if updateBad u x then raise s i cModifier
      else match farFault (fetchHandle s k) x.a.v.toNat size align writes with
        | some c => raise s i c
        | none => done := by
  rw [farGate]
  cases farFault (fetchHandle s k) x.a.v.toNat size align writes <;> rfl

/-- A far load's entry among the far accesses of its core. -/
def farLoadOp (s : State) (k : Fin 16) (x : AddrIn) (l : BitVec 2) (size : Nat) : FarOp :=
  let h := fetchHandle s k
  let loc := handleLoc h.h x.a.v.toNat
  let colour := (startArch s).order.tcol
  { kind := .load, port := addrResult s, size := size, due := (arch s).csr.cyc + farLatency l, ord := orderNo s (arch s),
    e := accessTaint s x ||| handleTaint h, taint := x.a.t ||| colourSet colour, colour := colour, poison := false,
    parts := farParts s.uid loc size, overlay := farOverlay s loc size, after := storesBefore s loc size }

def farLoaded (s : State) (op : FarOp) (u : Bool) (j : Fin 16) (x : AddrIn) : State :=
  postUpdate (modOrder { s with uid := s.uid + op.parts.length } (fun r => { r with far := r.far ++ [op], farCount := r.farCount + 1 })) u j x

theorem farLoad_eq {i : Instr} {g : Guard} {j k : Fin 16} {u : Bool} {l : BitVec 2} {s : State} {x : AddrIn} (h : Addresses i g j u s x)
    (size align : Nat) : farLoad i g j k u l size align s = if x.a.p then raise s i cPoison else
      farGate i k u x size align false s (farLoaded s (farLoadOp s k x l size) u j x) := by
  rw [farGate_eq]
  exact runAddr_of_addresses h _ _

/-- The far stores of the lines that a store touches. -/
def farStored (s : State) (g : Guard) (k : Fin 16) (x : AddrIn) (size : Nat) : State :=
  let h := fetchHandle s k
  let d := addrData s
  let loc := handleLoc h.h x.a.v.toNat
  let runs := storeRuns loc.pa size d.v (storeMask s g)
  (farParts 0 loc size).foldl (fun s' p =>
    if (lineStore runs (p.loc.pa / 64)).1 = 0 then s'
    else bufferStore s' (lineLoc p.loc) (lineStore runs (p.loc.pa / 64)).1 (lineStore runs (p.loc.pa / 64)).2
      (accessTaint s x ||| handleTaint h ||| d.t)) (signStore s loc runs)

theorem farStore_eq {i : Instr} {g : Guard} {j k : Fin 16} {u : Bool} {s : State} {x : AddrIn} (h : Addresses i g j u s x)
    (size align : Nat) : farStore i g j k u size align s = if x.a.p || (addrData s).p then raise s i cPoison else
      farGate i k u x size align true s (postUpdate (farStored s g k x size) u j x) := by
  rw [farGate_eq]
  exact runAddr_of_addresses h _ _

theorem exec_farLoads : ∀ r ∈ farLoads, ∀ (g : Guard) (j k : Fin 16) (u : Bool) (l : BitVec 2) (s : State),
    exec (r.1 g j k u l) s = .next (farLoad (r.1 g j k u l) g j k u l r.2.1 r.2.2 s) := by
  simp only [farLoads, List.forall_mem_cons]
  exact ⟨fun _ _ _ _ _ _ => rfl, fun _ _ _ _ _ _ => rfl, fun _ _ _ _ _ _ => rfl, fun _ h => nomatch h⟩

theorem exec_farStores : ∀ r ∈ farStores, ∀ (g : Guard) (j k : Fin 16) (u : Bool) (l : BitVec 2) (s : State),
    exec (r.1 g j k u l) s = .next (farStore (r.1 g j k u l) g j k u r.2.1 r.2.2 s) := by
  simp only [farStores, List.forall_mem_cons]
  exact ⟨fun _ _ _ _ _ _ => rfl, fun _ _ _ _ _ _ => rfl, fun _ _ _ _ _ _ => rfl, fun _ h => nomatch h⟩

section Gate

variable {i : Instr} {k : Fin 16} {u : Bool} {x : AddrIn} {size align : Nat} {writes : Bool} {s done : State}
  (hf : x.mFree = false) (he : (fetchHandle s k).early = false)
include hf he

theorem farGate_modifier (hm : ¬ modifierOk u x) : farGate i k u x size align writes s done = raise s i cModifier := by
  rw [farGate, he, if_neg (by simp), updateBad_of_not_ok hf hm, if_pos rfl]

theorem farGate_checked (hm : modifierOk u x) : farGate i k u x size align writes s done =
    ((farFault (fetchHandle s k) x.a.v.toNat size align writes).map (raise s i)).getD done := by
  rw [farGate, he, if_neg (by simp), (updateBad_eq_false_iff hf).mpr hm, if_neg (by decide)]

end Gate

section Checks

variable {h : HandleIn} {off size align : Nat} {writes : Bool}

theorem farFault_align (h1 : off % align ≠ 0) : farFault h off size align writes = some cAlign := by rw [farFault, if_pos h1]

variable (h1 : off % align = 0)
include h1

theorem farFault_bound (h2 : 2097152 < off + size) : farFault h off size align writes = some cHandleBound := by
  rw [farFault, if_neg (by simp [h1]), if_pos h2]

variable (h2 : off + size ≤ 2097152)
include h2

theorem farFault_invalid (h3 : h.h.made = false ∨ h.h.valid = false) : farFault h off size align writes = some cHandleInvalid := by
  have hv : handleValid h.h = false := by rcases h3 with h3 | h3 <;> simp [handleValid, h3]
  rw [farFault, if_neg (by simp [h1]), if_neg (Nat.not_lt.mpr h2), hv, if_pos (by rfl)]

variable (hmade : h.h.made = true) (hvalid : h.h.valid = true)
include hmade hvalid

theorem farFault_revoked (h4 : h.h.revoked = true) : farFault h off size align writes = some cHrev := by
  have hv : handleValid h.h = true := by simp [handleValid, hmade, hvalid]
  rw [farFault, if_neg (by simp [h1]), if_neg (Nat.not_lt.mpr h2), hv, if_neg (by simp), if_pos h4]

variable (h4 : h.h.revoked = false)
include h4

theorem farFault_write (hw : writes = true) (h5 : h.h.wr = false) : farFault h off size align writes = some cWriteProtect := by
  have hv : handleValid h.h = true := by simp [handleValid, hmade, hvalid]
  rw [farFault, if_neg (by simp [h1]), if_neg (Nat.not_lt.mpr h2), hv, if_neg (by simp), if_neg (by simp [h4]), if_pos (by simp [hw, h5])]

theorem farFault_none (h5 : writes = true → h.h.wr = true) : farFault h off size align writes = none := by
  have hv : handleValid h.h = true := by simp [handleValid, hmade, hvalid]
  have hw : (writes && !h.h.wr) = false := by
    cases hcase : writes with
    | false => rfl
    | true => simp [h5 hcase]
  rw [farFault, if_neg (by simp [h1]), if_neg (Nat.not_lt.mpr h2), hv, if_neg (by simp), if_neg (by simp [h4]), if_neg (by simp [hw])]

end Checks

/-- A far access that may execute passes every check. -/
theorem farGate_of_farOk {i : Instr} {k : Fin 16} {u : Bool} {x : AddrIn} {size align : Nat} {writes : Bool} {s done : State}
    (hf : x.mFree = false) (hm : modifierOk u x) (h : farOk s k x size align writes) : farGate i k u x size align writes s done = done := by
  obtain ⟨-, halign, hbound, hmade, hvalid, hrev, hwr, hearly⟩ := h
  rw [farGate_checked hf hearly hm, farFault_none halign hbound hmade hvalid hrev hwr]
  rfl

/-- The faults of a far access once its operands are not poisoned. -/
theorem farGate_faults {i : Instr} {k : Fin 16} {u : Bool} {x : AddrIn} {size align : Nat} {store : Bool} {s done : State}
    {o : Out} (ho : o = .next (farGate i k u x size align store s done)) (hf : x.mFree = false) (he : (fetchHandle s k).early = false) :
    let h := vget (startArch s).regs.h k
    let off := x.a.v.toNat
    (¬ modifierOk u x → o = .next (raise s i cModifier)) ∧
    (modifierOk u x →
    (off % align ≠ 0 → o = .next (raise s i cAlign)) ∧
    (off % align = 0 → 2 ^ 21 < off + size → o = .next (raise s i cHandleBound)) ∧
    (off % align = 0 → off + size ≤ 2 ^ 21 → (h.made = false ∨ h.valid = false) → o = .next (raise s i cHandleInvalid)) ∧
    (off % align = 0 → off + size ≤ 2 ^ 21 → h.made = true → h.valid = true → h.revoked = true → o = .next (raise s i cHrev)) ∧
    (store = true → off % align = 0 → off + size ≤ 2 ^ 21 → h.made = true → h.valid = true → h.revoked = false → h.wr = false →
      o = .next (raise s i cWriteProtect))) := by
  intro h off
  rw [ho]
  refine ⟨fun hm => congrArg _ (farGate_modifier hf he hm), fun hm => ?_⟩
  rw [farGate_checked hf he hm]
  refine ⟨fun h1 => ?_, fun h1 h2 => ?_, fun h1 h2 h3 => ?_, fun h1 h2 h3 h4 h5 => ?_, fun hw h1 h2 h3 h4 h5 h6 => ?_⟩
  · rw [farFault_align h1]; rfl
  · rw [farFault_bound h1 h2]; rfl
  · rw [farFault_invalid h1 h2 h3]; rfl
  · rw [farFault_revoked h1 h2 h3 h4 h5]; rfl
  · rw [farFault_write h1 h2 h3 h4 h5 hw h6]; rfl

/-- Settles O35: poison comes first, then the gate that every far access passes. -/
theorem farFaults : Obligations.FarFaults := by
  intro store r hr g j k u l s x hx i h off
  have hf := mFree_of_addresses hx
  cases store with
  | false =>
    have hexec : exec i s = _ := (exec_farLoads r hr g j k u l s).trans (congrArg _ (farLoad_eq hx _ _))
    refine ⟨fun hp => ?_, fun hp _ he => ?_⟩
    · rcases hp with hp | ⟨hno, -⟩
      · rw [hexec, if_pos hp]
      · exact nomatch hno
    · rw [if_neg (by simp [hp])] at hexec
      exact farGate_faults hexec hf he
  | true =>
    have hexec : exec i s = _ := (exec_farStores r hr g j k u l s).trans (congrArg _ (farStore_eq hx _ _))
    refine ⟨fun hp => ?_, fun hp hd he => ?_⟩
    · rw [hexec, if_pos (by rcases hp with hp | ⟨-, hp⟩ <;> simp [hp])]
    · rw [if_neg (by simp [hp, hd rfl])] at hexec
      exact farGate_faults hexec hf he

/-! The parts of a far access, one per line (R224). -/

theorem range'_append_one (a n : Nat) : range' a (n + 1) = range' a n ++ [a + n] := by
  induction n generalizing a with
  | zero => rfl
  | succ n ih =>
    rw [range', ih, range', List.cons_append]
    congr 3
    omega

/-- The part of an access in line `n`. -/
def partAt (u : Nat) (l : Loc) (size n : Nat) : FarPart :=
  { ident := u + (n - l.pa / 64), loc := { l with pa := max l.pa (64 * n) }, len := min (l.pa + size) (64 * n + 64) - max l.pa (64 * n),
    done := none }

theorem farParts_eq (u : Nat) (l : Loc) (size : Nat) :
    farParts u l size = (range' (l.pa / 64) ((l.pa + size - 1) / 64 - l.pa / 64 + 1)).map (partAt u l size) := rfl

theorem sum_lens_range' (u : Nat) (l : Loc) (size m : Nat) :
    (((range' (l.pa / 64) m).map (partAt u l size)).map (·.len)).sum = min (l.pa + size) (64 * (l.pa / 64 + m)) - l.pa := by
  induction m with
  | zero => simp only [range', List.map_nil, List.sum_nil]; omega
  | succ m ih =>
    rw [range'_append_one, List.map_append, List.map_append, List.sum_append, ih]
    simp only [List.map_cons, List.map_nil, List.sum_cons, List.sum_nil, partAt]
    omega

theorem sum_lens_farParts (u : Nat) (l : Loc) {size : Nat} (h : 0 < size) : ((farParts u l size).map (·.len)).sum = size := by
  rw [farParts_eq, sum_lens_range']
  omega

theorem head_farParts (u : Nat) (l : Loc) (size : Nat) : (farParts u l size).head?.map (·.loc) = some l := by
  have hpa : max l.pa (64 * (l.pa / 64)) = l.pa := by omega
  rw [farParts_eq, range', List.map_cons, List.head?_cons, Option.map_some, partAt, hpa]

theorem farParts_undone (u : Nat) (l : Loc) (size : Nat) : (farParts u l size).all (fun p => p.done.isNone) = true := by
  rw [farParts_eq, List.all_map]
  exact List.all_eq_true.mpr fun _ _ => rfl

/-- An access that lies in one line has one part. -/
theorem farParts_one (u : Nat) (l : Loc) {size : Nat} (h0 : 0 < size) (h : l.pa % 64 + size ≤ 64) : (farParts u l size).map (·.loc) = [l] := by
  have hpa : max l.pa (64 * (l.pa / 64)) = l.pa := by omega
  have hlast : (l.pa + size - 1) / 64 - l.pa / 64 + 1 = 1 := by omega
  rw [farParts_eq, hlast, range', range', List.map_cons, List.map_nil, List.map_cons, List.map_nil, partAt, hpa]

theorem mem_farOverlay (s : State) (l : Loc) (size i : Nat) (b : Byte) : (i, b) ∈ farOverlay s l size ↔
    i < size ∧ ∃ y ∈ (startArch s).order.sbuf, y.loc.peer = l.peer ∧ ∃ m, m < 64 ∧ y.mask.getLsbD m = true ∧ y.loc.pa + m = l.pa + i ∧
      b = y.data.extractLsb' (8 * m) 8 := by
  simp only [farOverlay, List.mem_flatMap]
  constructor
  · rintro ⟨y, hy, hmem⟩
    split at hmem
    next hpeer =>
      simp only [List.mem_filterMap, mem_range', Option.ite_none_right_eq_some, Option.some.injEq, Prod.mk.injEq] at hmem
      obtain ⟨m, ⟨-, hm⟩, ⟨hbit, hlo, hhi⟩, rfl, rfl⟩ := hmem
      exact ⟨by omega, y, hy, hpeer, m, by omega, hbit, by omega, rfl⟩
    next => simp at hmem
  · rintro ⟨hi, y, hy, hpeer, m, hm, hbit, hpa, rfl⟩
    refine ⟨y, hy, ?_⟩
    rw [if_pos hpeer, List.mem_filterMap]
    refine ⟨m, mem_range'.mpr ⟨by omega, by omega⟩, ?_⟩
    rw [if_pos ⟨hbit, by omega, by omega⟩, hpa, Nat.add_sub_cancel_left]

/-- A prefetch's entry among the far accesses of its core. -/
def prefetchOp (s : State) (k : Fin 16) (x : AddrIn) : FarOp :=
  { kind := .prefetch, port := addrResult s, size := 64, due := 0, ord := orderNo s (arch s),
    e := accessTaint s x ||| handleTaint (fetchHandle s k), taint := 0, colour := (startArch s).order.tcol, poison := false,
    parts := farParts s.uid (lineLoc (handleLoc (fetchHandle s k).h x.a.v.toNat)) 64, overlay := [], after := [] }

theorem prefetch_eq {g : Guard} {j k : Fin 16} {u : Bool} {l : BitVec 2} {s : State} {x : AddrIn} (h : Addresses (.pf g j k u l) g j u s x)
    (he : (fetchHandle s k).early = false) (hm : modifierOk u x) :
    let hn := vget (startArch s).regs.h k
    exec (.pf g j k u l) s = .next (if x.a.p || !handleValid hn || hn.revoked || decide (2097152 ≤ x.a.v.toNat) || decide (hn.home = 2) then
      postUpdate s u j x
    else postUpdate (modOrder { s with uid := s.uid + 1 } (fun r => { r with far := r.far ++ [prefetchOp s k x] })) u j x) := by
  intro hn
  have hgate : ((fetchHandle s k).early && sbchkOn s) = false := by rw [he, Bool.false_and]
  refine (congrArg Host.Outcome.next (runAddr_of_addresses h _ _)).trans ?_
  rw [if_neg Bool.false_ne_true, if_neg (Bool.eq_false_iff.mp hgate),
    if_neg (Bool.eq_false_iff.mp ((updateBad_eq_false_iff (mFree_of_addresses h)).mpr hm))]
  rfl

theorem mem_farLoads_size : ∀ r ∈ farLoads, 0 < r.2.1 := by decide

section Prefetch

variable {g : Guard} {j k : Fin 16} {u : Bool} {l : BitVec 2} {s : State} {x : AddrIn} (hx : Addresses (.pf g j k u l) g j u s x)
  (he : (fetchHandle s k).early = false) (hm : modifierOk u x)
include hx he hm

/-- A prefetch that cannot be made only steps its address register. -/
theorem exec_pf_idle (h : (vget (startArch s).regs.h k).made = false ∨ (vget (startArch s).regs.h k).valid = false ∨
    (vget (startArch s).regs.h k).revoked = true ∨ 2 ^ 21 ≤ x.a.v.toNat ∨ x.a.p = true ∨ (vget (startArch s).regs.h k).home = 2) :
    exec (.pf g j k u l) s = .next (postUpdate s u j x) := by
  rw [prefetch_eq hx he hm, if_pos]
  simp only [handleValid, Bool.or_eq_true, Bool.not_eq_true', Bool.and_eq_false_iff, decide_eq_true_eq]
  norm_num at h
  tauto

theorem exec_pf_sent (hmade : (vget (startArch s).regs.h k).made = true) (hvalid : (vget (startArch s).regs.h k).valid = true)
    (hrev : (vget (startArch s).regs.h k).revoked = false) (hoff : x.a.v.toNat < 2 ^ 21) (hp : x.a.p = false)
    (hhome : (vget (startArch s).regs.h k).home ≠ 2) : exec (.pf g j k u l) s =
      .next (postUpdate (modOrder { s with uid := s.uid + 1 } (fun r => { r with far := r.far ++ [prefetchOp s k x] })) u j x) := by
  have hbound : ¬ 2097152 ≤ x.a.v.toNat := by norm_num at hoff; omega
  rw [prefetch_eq hx he hm, if_neg]
  simp only [handleValid, hmade, hvalid, hrev, hp, decide_eq_false hhome, decide_eq_false hbound]
  decide

end Prefetch

theorem farLoad_claim {r : (Guard → Fin 16 → Fin 16 → Bool → BitVec 2 → Instr) × Nat × Nat} (hr : r ∈ farLoads) {g : Guard} {j k : Fin 16}
    {u : Bool} {l : BitVec 2} {s : State} {x : AddrIn} (hx : Addresses (r.1 g j k u l) g j u s x) (hm : modifierOk u x)
    (hok : farOk s k x r.2.1 r.2.2 false) :
    exec (r.1 g j k u l) s = .next (farLoaded s (farLoadOp s k x l r.2.1) u j x) := by
  rw [exec_farLoads r hr, farLoad_eq hx, if_neg (by simp [hok.1]), farGate_of_farOk (mFree_of_addresses hx) hm hok]

/-- Settles O33: the slot passes its checks and appends one access to those of its core. -/
theorem farLoads : Obligations.FarLoads := by
  refine ⟨fun r hr g j k u l s x hx hm hok => ?_, fun g j k u l s x hx hm he => ?_⟩
  · have hf := mFree_of_addresses hx
    have hstep := orderStep_modOrder s (s.uid + (farLoadOp s k x l r.2.1).parts.length)
      (fun o => { o with far := o.far ++ [farLoadOp s k x l r.2.1], farCount := o.farCount + 1 })
    refine ⟨_, farLoadOp s k x l r.2.1, farLoad_claim hr hx hm hok, ?_, rfl, rfl, rfl, rfl, rfl, rfl, fun i b => mem_farOverlay .., head_farParts .., ?_,
      farParts_undone .., ?_, hstep.stepped hf u j, hstep.sparesCores u j x, ?_, ?_⟩
    · rw [farLoaded, postUpdate_order, far_modOrder_count]
    · exact sum_lens_farParts _ _ (mem_farLoads_size r hr)
    · rw [farLoaded, postUpdate_due, hstep.due]
    · rw [farLoaded, postUpdate_stash, hstep.stash]
    · rw [farLoaded, postUpdate_far, hstep.far]
  · intro h
    have hf := mFree_of_addresses hx
    refine ⟨fun hoff => ⟨postUpdate s u j x, exec_pf_idle hx he hm hoff, stepped_postUpdate hf, (OrderStep.refl s).sparesCores u j x,
      postUpdate_order .., postUpdate_stash .., postUpdate_far ..⟩, fun hmade hvalid hrev hoff hp hhome => ?_⟩
    have hstep := orderStep_modOrder s (s.uid + 1) (fun o => { o with far := o.far ++ [prefetchOp s k x] })
    refine ⟨_, prefetchOp s k x, exec_pf_sent hx he hm hmade hvalid hrev hoff hp hhome, ?_, rfl, ?_, hstep.stepped hf u j,
      hstep.sparesCores u j x, ?_, ?_⟩
    · rw [postUpdate_order, far_modOrder_append]
    · exact farParts_one _ _ (by decide) (by simp only [lineLoc]; omega)
    · rw [postUpdate_stash, hstep.stash]
    · rw [postUpdate_far, hstep.far]

end Sys2Proof.Proofs
end

section
/-! PROOF. Far stores: every byte reaches the store buffer (R114, R115, R225). -/

namespace Sys2Proof.Proofs

open Sys2Proof.Machine Sys2Proof.Claims

/-! The bytes that a store makes (R112). -/

theorem getElem?_leBytes (x n i : Nat) : (leBytes x n)[i]? = if i < n then some (BitVec.ofNat 8 (x / 256 ^ i)) else none := by
  induction n generalizing x i with
  | zero => simp [leBytes]
  | succ n ih =>
    cases i with
    | zero => simp [leBytes]
    | succ i =>
      rw [leBytes, List.getElem?_cons_succ, ih, Nat.pow_succ', Nat.div_div_eq_div_mul]
      simp only [Nat.add_lt_add_iff_right]

theorem leBytes_length (x n : Nat) : (leBytes x n).length = n := by
  induction n generalizing x with
  | zero => rfl
  | succ n ih => rw [leBytes, List.length_cons, ih]

theorem ofNat_div_eq_extract {w : Nat} (v : BitVec w) (i : Nat) : BitVec.ofNat 8 (v.toNat / 256 ^ i) = v.extractLsb' (8 * i) 8 := by
  apply BitVec.eq_of_toNat_eq
  rw [BitVec.toNat_ofNat, BitVec.extractLsb'_toNat, Nat.shiftRight_eq_div_pow, Nat.pow_mul]

theorem laneOf_toNat_div (d : Vec) (n i : Nat) (hi : i < 4) :
    BitVec.ofNat 8 ((laneOf d n).toNat / 256 ^ i) = d.extractLsb' (8 * (4 * n + i)) 8 := by
  rw [ofNat_div_eq_extract]
  apply BitVec.eq_of_getLsbD_eq
  intro j hj
  have h32 : 8 * i + j < 32 := by omega
  have hsum : 32 * n + (8 * i + j) = 8 * (4 * n + i) + j := by omega
  simp only [laneOf, BitVec.getLsbD_extractLsb', hj, h32, hsum, decide_true, Bool.true_and]

theorem mem_run {a i : Nat} {b : Byte} {l : List Byte} : (a + i, b) ∈ l.zipIdx.map (fun e => (a + e.2, e.1)) ↔ l[i]? = some b := by
  simp only [List.mem_map, Prod.exists, Prod.mk.injEq, List.mem_zipIdx_iff_getElem?]
  constructor
  · rintro ⟨c, n, hn, h, rfl⟩
    obtain rfl : n = i := by omega
    exact hn
  · exact fun h => ⟨b, i, h, rfl, rfl⟩

theorem le_of_mem_run {a k : Nat} {b : Byte} {l : List Byte} (h : (k, b) ∈ l.zipIdx.map (fun e => (a + e.2, e.1))) :
    ∃ i, k = a + i ∧ l[i]? = some b := by
  obtain ⟨⟨c, i⟩, hmem, he⟩ := List.mem_map.mp h
  obtain ⟨rfl, rfl⟩ := Prod.mk.inj he
  exact ⟨i, rfl, List.mem_zipIdx_iff_getElem?.mp hmem⟩

/-- The bytes of runs with their addresses. -/
def runBytes (runs : List (Nat × List Byte)) : List (Nat × Byte) := runs.flatMap (fun r => r.2.zipIdx.map (fun e => (r.1 + e.2, e.1)))

/-- Byte `i` of the data that a store of `size` bytes takes under a mask of lanes. -/
def byteStored (d : Vec) (k : Word) (size i : Nat) : Option Byte :=
  if i < size ∧ (size = 256 → k.getLsbD (i / 4) = true) then some (d.extractLsb' (8 * i) 8) else none

theorem mem_maskedLanes {k : Word} {n : Nat} : n ∈ maskedLanes k ↔ n < 64 ∧ k.getLsbD n = true := by
  rw [maskedLanes, List.mem_filter, mem_range', Nat.zero_add]
  exact and_congr_left fun _ => and_iff_right (Nat.zero_le n)

theorem mem_runBytes_storeRuns (ea size : Nat) (d : Vec) (k : Word) (a : Nat) (b : Byte) :
    (a, b) ∈ runBytes (storeRuns ea size d k) ↔ ∃ i, a = ea + i ∧ byteStored d k size i = some b := by
  rw [runBytes, storeRuns]
  by_cases h256 : size = 256
  · subst h256
    rw [if_pos rfl, List.flatMap_map, List.mem_flatMap]
    constructor
    · rintro ⟨n, hn, hmem⟩
      obtain ⟨hn64, hbit⟩ := mem_maskedLanes.mp hn
      obtain ⟨i, rfl, hi⟩ := le_of_mem_run hmem
      rw [laneBytes, getElem?_leBytes] at hi
      by_cases h4 : i < 4
      · rw [if_pos h4, laneOf_toNat_div d n i h4] at hi
        refine ⟨4 * n + i, by omega, ?_⟩
        rw [byteStored, if_pos ⟨by omega, fun _ => by rw [show (4 * n + i) / 4 = n by omega]; exact hbit⟩, hi]
      · rw [if_neg h4] at hi
        exact nomatch hi
    · rintro ⟨i, rfl, hi⟩
      rw [byteStored, Option.ite_none_right_eq_some] at hi
      obtain ⟨⟨hlt, hbit⟩, hb⟩ := hi
      refine ⟨i / 4, mem_maskedLanes.mpr ⟨by omega, hbit rfl⟩, ?_⟩
      have hsplit : ea + i = ea + 4 * (i / 4) + i % 4 := by omega
      rw [hsplit, mem_run, laneBytes, getElem?_leBytes, if_pos (Nat.mod_lt _ (by decide)), laneOf_toNat_div _ _ _ (Nat.mod_lt _ (by decide)),
        show 4 * (i / 4) + i % 4 = i by omega, hb]
  · rw [if_neg h256, List.flatMap_cons, List.flatMap_nil, List.append_nil]
    constructor
    · intro hmem
      obtain ⟨i, rfl, hi⟩ := le_of_mem_run hmem
      rw [getElem?_leBytes, Option.ite_none_right_eq_some, ofNat_div_eq_extract] at hi
      exact ⟨i, rfl, by rw [byteStored, if_pos ⟨hi.1, fun h => absurd h h256⟩, hi.2]⟩
    · rintro ⟨i, rfl, hi⟩
      rw [byteStored, Option.ite_none_right_eq_some] at hi
      rw [mem_run, getElem?_leBytes, if_pos hi.1.1, ofNat_div_eq_extract, hi.2]

/-! The bytes of one line (R225). -/

theorem getLsbD_byteMask (j : Nat) (hj : j < 512) : (255#512).getLsbD j = decide (j < 8) := by
  rw [BitVec.getLsbD_ofNat, show (255 : Nat) = 2 ^ 8 - 1 from rfl, Nat.testBit_two_pow_sub_one, decide_eq_true hj, Bool.true_and]

theorem extract_setLineByte_same (d : BitVec 512) {i : Nat} (hi : i < 64) (b : Byte) : (setLineByte d i b).extractLsb' (8 * i) 8 = b := by
  apply BitVec.eq_of_getLsbD_eq
  intro j hj
  have h1 : 8 * i + j < 512 := by omega
  have h2 : ¬ 8 * i + j < 8 * i := by omega
  have h3 : 8 * i + j - 8 * i = j := by omega
  have h255 : (255#512).getLsbD j = true := (getLsbD_byteMask j (by omega)).trans (decide_eq_true hj)
  simp [setLineByte, hj, h1, h2, h3, h255]

theorem extract_setLineByte_other (d : BitVec 512) {i k : Nat} (hk : k < 64) (h : i ≠ k) (b : Byte) :
    (setLineByte d i b).extractLsb' (8 * k) 8 = d.extractLsb' (8 * k) 8 := by
  apply BitVec.eq_of_getLsbD_eq
  intro j hj
  have h1 : 8 * k + j < 512 := by omega
  simp only [setLineByte, BitVec.getLsbD_extractLsb', hj, decide_true, Bool.true_and, BitVec.getLsbD_or, BitVec.getLsbD_and,
    BitVec.getLsbD_not, BitVec.getLsbD_shiftLeft, BitVec.getLsbD_setWidth, h1]
  by_cases hlt : 8 * k + j < 8 * i
  · simp [hlt]
  · have hfar : 8 ≤ 8 * k + j - 8 * i := by omega
    have h255 : (255#512).getLsbD (8 * k + j - 8 * i) = false :=
      (getLsbD_byteMask _ (by omega)).trans (decide_eq_false (Nat.not_lt.mpr hfar))
    simp [hlt, h255, BitVec.getLsbD_of_ge b _ hfar]

/-- Byte `n` of a line's mask and data is set to `b`. -/
def lineHas (acc : BitVec 64 × BitVec 512) (n : Nat) (b : Byte) : Prop := acc.1.getLsbD n = true ∧ acc.2.extractLsb' (8 * n) 8 = b

/-- One byte laid into a line. -/
def layByte (line : Nat) (acc : BitVec 64 × BitVec 512) (e : Nat × Byte) : BitVec 64 × BitVec 512 :=
  if e.1 / 64 = line then (acc.1 ||| (1#64 <<< (e.1 % 64)), setLineByte acc.2 (e.1 % 64) e.2) else acc

theorem lineStore_eq (runs : List (Nat × List Byte)) (line : Nat) :
    lineStore runs line = (runBytes runs).foldl (layByte line) (0#64, 0#512) := rfl

theorem lineHas_layByte_same {line a : Nat} (h : a / 64 = line) (acc : BitVec 64 × BitVec 512) (b : Byte) :
    lineHas (layByte line acc (a, b)) (a % 64) b := by
  have ha : a % 64 < 64 := Nat.mod_lt _ (by decide)
  rw [layByte, if_pos h]
  refine ⟨?_, extract_setLineByte_same _ ha b⟩
  simp [ha]

theorem lineHas_layByte_keep {line a : Nat} {acc : BitVec 64 × BitVec 512} {b : Byte} (h : lineHas acc (a % 64) b) {e : Nat × Byte}
    (he : e.1 = a → e.2 = b) (hline : a / 64 = line) : lineHas (layByte line acc e) (a % 64) b := by
  by_cases hl : e.1 / 64 = line
  · by_cases hsame : e.1 = a
    · have : e = (a, b) := Prod.ext hsame (he hsame)
      rw [this]
      exact lineHas_layByte_same hline acc b
    · have hne : e.1 % 64 ≠ a % 64 := by omega
      rw [layByte, if_pos hl]
      refine ⟨?_, by rw [extract_setLineByte_other _ (Nat.mod_lt _ (by decide)) hne]; exact h.2⟩
      rw [BitVec.getLsbD_or, h.1, Bool.true_or]
  · rwa [layByte, if_neg hl]

theorem lineHas_foldl {line a : Nat} {b : Byte} (hline : a / 64 = line) (l : List (Nat × Byte)) (hfun : ∀ e ∈ l, e.1 = a → e.2 = b)
    (acc : BitVec 64 × BitVec 512) (h : lineHas acc (a % 64) b ∨ (a, b) ∈ l) : lineHas (l.foldl (layByte line) acc) (a % 64) b := by
  induction l generalizing acc with
  | nil => exact h.resolve_right (List.not_mem_nil)
  | cons e l ih =>
    rw [List.foldl_cons]
    refine ih (fun x hx => hfun x (List.mem_cons_of_mem _ hx)) _ ?_
    rcases h with h | h
    · exact .inl (lineHas_layByte_keep h (hfun e List.mem_cons_self) hline)
    · rcases List.mem_cons.mp h with rfl | h
      · exact .inl (lineHas_layByte_same hline acc b)
      · exact .inr h

theorem lineHas_lineStore {ea size : Nat} {d : Vec} {k : Word} {i : Nat} {b : Byte} (h : byteStored d k size i = some b) :
    lineHas (lineStore (storeRuns ea size d k) ((ea + i) / 64)) ((ea + i) % 64) b := by
  rw [lineStore_eq]
  refine lineHas_foldl rfl _ (fun e he ha => ?_) _ (.inr ((mem_runBytes_storeRuns ..).mpr ⟨i, rfl, h⟩))
  obtain ⟨n, hn, hb⟩ := (mem_runBytes_storeRuns ea size d k e.1 e.2).mp he
  obtain rfl : n = i := by omega
  exact Option.some.inj (hb.symm.trans h)

/-! The store buffer. -/

theorem orderStep_commitEvent (s : State) : OrderStep s (commitEvent s) := by
  unfold commitEvent
  split
  · exact ⟨rfl, fun _ _ => rfl, rfl, rfl⟩
  · refine ⟨rfl, fun c hc => getCore_modCore_other s _ (Ne.symm hc), ?_, rfl⟩
    rw [arch, releaseStores, modCore_cur, getCore_modCore_same]
    rfl

theorem orderStep_openWindow (s : State) (why : Nat) : OrderStep s (openWindow s s.cur why) :=
  ⟨rfl, fun c hc => getCore_openWindow_other s why (Ne.symm hc), by rw [arch_openWindow], rfl⟩

theorem orderStep_modOrder_only (s : State) (f : Order → Order) : OrderStep s (modOrder s f) := orderStep_modOrder s s.uid f

theorem orderStep_signStore (s : State) (loc : Loc) (runs : List (Nat × List Byte)) : OrderStep s (signStore s loc runs) := by
  unfold signStore signWrite
  split
  · exact OrderStep.refl s
  · split
    · exact OrderStep.refl s
    · refine ⟨rfl, fun c hc => getCore_modCore_other s _ (Ne.symm hc), ?_, rfl⟩
      rw [arch, modCore_cur, getCore_modCore_same]
      rfl

/-- A line of the list holds byte `n` of line `loc` as `b`. -/
def holds (l : List StoreLine) (loc : Loc) (n : Nat) (b : Byte) : Prop := ∃ x ∈ l, x.loc = loc ∧ lineHas (x.mask, x.data) n b

theorem holds_append {l m : List StoreLine} {loc : Loc} {n : Nat} {b : Byte} : holds (l ++ m) loc n b ↔ holds l loc n b ∨ holds m loc n b := by
  simp only [holds, List.mem_append, or_and_right, exists_or]

/-- A commit event keeps every buffered byte, in the buffer or among the released stores. -/
theorem holds_commitEvent {s : State} {loc : Loc} {n : Nat} {b : Byte} (h : holds ((arch s).order.sbuf ++ (arch s).order.released) loc n b) :
    holds ((arch (commitEvent s)).order.sbuf ++ (arch (commitEvent s)).order.released) loc n b := by
  unfold commitEvent
  split
  · exact h
  · rw [arch, releaseStores, modCore_cur, getCore_modCore_same]
    rw [holds_append] at h
    exact holds_append.mpr (.inr (holds_append.mpr h.symm))

/-- The bytes of one store laid over those of a line. -/
def mergeBytes (mask : BitVec 64) (data old : BitVec 512) : BitVec 512 :=
  (range' 0 64).foldl (fun d i => if mask.getLsbD i then setLineByte d i (data.extractLsb' (8 * i) 8) else d) old

/-- A line of the store buffer with the bytes of a later store. -/
def mergeLine (mask : BitVec 64) (data : BitVec 512) (e : TSet) (n : Nat) (x : StoreLine) : StoreLine :=
  { x with mask := x.mask ||| mask, e := x.e ||| e, last := n, bundles := (n / 8 :: x.bundles).eraseDups, data := mergeBytes mask data x.data }

theorem extract_mergeBytes_of_set {mask : BitVec 64} {data old : BitVec 512} {n : Nat} (hn : n < 64) (h : mask.getLsbD n = true) :
    (mergeBytes mask data old).extractLsb' (8 * n) 8 = data.extractLsb' (8 * n) 8 := by
  have main : ∀ (l : List Nat) (d : BitVec 512), (d.extractLsb' (8 * n) 8 = data.extractLsb' (8 * n) 8 ∨ n ∈ l) →
      (l.foldl (fun d i => if mask.getLsbD i then setLineByte d i (data.extractLsb' (8 * i) 8) else d) d).extractLsb' (8 * n) 8 =
        data.extractLsb' (8 * n) 8 := by
    intro l
    induction l with
    | nil => exact fun d hd => hd.resolve_right List.not_mem_nil
    | cons i l ih =>
      intro d hd
      rw [List.foldl_cons]
      refine ih _ ?_
      by_cases hi : i = n
      · subst hi
        rw [if_pos h]
        exact .inl (extract_setLineByte_same _ hn _)
      · rcases hd with hd | hd
        · refine .inl ?_
          split
          · rw [extract_setLineByte_other _ hn hi, hd]
          · exact hd
        · exact .inr ((List.mem_cons.mp hd).resolve_left (Ne.symm hi))
  exact main _ _ (.inr (mem_range'.mpr ⟨Nat.zero_le _, by omega⟩))

theorem lineHas_mergeLine {mask : BitVec 64} {data : BitVec 512} {e : TSet} {m : Nat} {x : StoreLine} {n : Nat} {b : Byte} (hn : n < 64)
    (h : lineHas (mask, data) n b) : lineHas ((mergeLine mask data e m x).mask, (mergeLine mask data e m x).data) n b := by
  refine ⟨?_, (extract_mergeBytes_of_set hn h.1).trans h.2⟩
  rw [mergeLine, BitVec.getLsbD_or, show mask.getLsbD n = true from h.1, Bool.or_true]

/-- A line of the store buffer takes in a store of line `loc` of the running bundle. -/
def mergeable (s : State) (loc : Loc) (x : StoreLine) : Bool :=
  decide (x.loc = loc) && (!(match s.issue with | some x => x.commit | none => false) || decide (x.last / 8 = orderNo s (arch s) / 8))

theorem loc_of_mergeable {s : State} {loc : Loc} {x : StoreLine} (h : mergeable s loc x = true) : x.loc = loc := by
  rw [mergeable, Bool.and_eq_true, decide_eq_true_eq] at h
  exact h.1

/-- The line that a store opens. -/
def newLine (s s1 : State) (loc : Loc) (mask : BitVec 64) (data : BitVec 512) (e : TSet) : StoreLine :=
  { ident := s1.uid, loc := loc, mask := mask, data := data, e := e, first := orderNo s (arch s), last := orderNo s (arch s),
    bundles := [orderNo s (arch s) / 8] }

/-- A full buffer is released first. -/
def roomFor (s : State) : State := if 512 ≤ (arch s).order.sbuf.length then openWindow (commitEvent s) s.cur 3 else s

theorem bufferStore_eq (s : State) (loc : Loc) (mask : BitVec 64) (data : BitVec 512) (e : TSet) : bufferStore s loc mask data e =
    if (arch s).order.sbuf.any (mergeable s loc) then
      modOrder s (fun r => { r with sbuf := r.sbuf.map (fun x =>
        if mergeable s loc x then mergeLine mask data e (orderNo s (arch s)) x else x) })
    else modOrder { roomFor s with uid := (roomFor s).uid + 1 } (fun r => { r with sbuf := r.sbuf ++ [newLine s (roomFor s) loc mask data e] }) := rfl

theorem orderStep_roomFor (s : State) : OrderStep s (roomFor s) := by
  unfold roomFor
  split
  · have hcur : s.cur = (commitEvent s).cur := (orderStep_commitEvent s).cur.symm
    rw [hcur]
    exact (orderStep_commitEvent s).trans (orderStep_openWindow _ 3)
  · exact OrderStep.refl s

theorem orderStep_bufferStore (s : State) (loc : Loc) (mask : BitVec 64) (data : BitVec 512) (e : TSet) :
    OrderStep s (bufferStore s loc mask data e) := by
  rw [bufferStore_eq]
  split
  · exact orderStep_modOrder_only s _
  · exact (orderStep_roomFor s).trans (orderStep_modOrder _ _ _)

theorem holds_roomFor {s : State} {loc : Loc} {n : Nat} {b : Byte} (h : holds ((arch s).order.sbuf ++ (arch s).order.released) loc n b) :
    holds ((arch (roomFor s)).order.sbuf ++ (arch (roomFor s)).order.released) loc n b := by
  unfold roomFor
  split
  · rw [arch_openWindow]
    exact holds_commitEvent h
  · exact h

/-- A store of a line leaves its bytes in the buffer. -/
theorem holds_bufferStore (s : State) (loc : Loc) {mask : BitVec 64} {data : BitVec 512} (e : TSet) {n : Nat} {b : Byte} (hn : n < 64)
    (h : lineHas (mask, data) n b) : holds (arch (bufferStore s loc mask data e)).order.sbuf loc n b := by
  rw [bufferStore_eq]
  split
  next hany =>
    obtain ⟨x, hx, hm⟩ := List.any_eq_true.mp hany
    rw [arch_modOrder]
    refine ⟨mergeLine mask data e (orderNo s (arch s)) x, List.mem_map.mpr ⟨x, hx, if_pos hm⟩, (loc_of_mergeable hm : x.loc = loc), lineHas_mergeLine hn h⟩
  next =>
    rw [arch_modOrder]
    exact ⟨_, List.mem_append_right _ (List.mem_singleton.mpr rfl), rfl, h⟩

/-- A store of another line keeps a buffered byte. -/
theorem holds_bufferStore_other {s : State} {loc loc' : Loc} (hne : loc' ≠ loc) (mask : BitVec 64) (data : BitVec 512) (e : TSet) {n : Nat}
    {b : Byte} (h : holds ((arch s).order.sbuf ++ (arch s).order.released) loc n b) :
    holds ((arch (bufferStore s loc' mask data e)).order.sbuf ++ (arch (bufferStore s loc' mask data e)).order.released) loc n b := by
  rw [bufferStore_eq]
  split
  · rw [arch_modOrder]
    rcases holds_append.mp h with ⟨x, hx, hloc, hb⟩ | h
    · refine holds_append.mpr (.inl ⟨x, List.mem_map.mpr ⟨x, hx, if_neg fun hm => hne ?_⟩, hloc, hb⟩)
      rw [← loc_of_mergeable hm, hloc]
    · exact holds_append.mpr (.inr h)
  · rw [arch_modOrder]
    rcases holds_append.mp (holds_roomFor h) with h | h
    · exact holds_append.mpr (.inl (holds_append.mpr (.inl h)))
    · exact holds_append.mpr (.inr h)

/-! A whole store. -/

/-- The lines of a store, buffered one after another. -/
def bufferLines (runs : List (Nat × List Byte)) (e : TSet) (s : State) (p : FarPart) : State :=
  if (lineStore runs (p.loc.pa / 64)).1 = 0 then s
  else bufferStore s (lineLoc p.loc) (lineStore runs (p.loc.pa / 64)).1 (lineStore runs (p.loc.pa / 64)).2 e

theorem orderStep_bufferLines (runs : List (Nat × List Byte)) (e : TSet) (l : List FarPart) (s : State) :
    OrderStep s (l.foldl (bufferLines runs e) s) := by
  induction l generalizing s with
  | nil => exact OrderStep.refl s
  | cons p l ih =>
    refine OrderStep.trans ?_ (ih _)
    unfold bufferLines
    split
    · exact OrderStep.refl s
    · exact orderStep_bufferStore ..

/-- Once the line of a byte is buffered, the other lines of the store keep it. -/
theorem holds_bufferLines {runs : List (Nat × List Byte)} {e : TSet} {a : Nat} {b : Byte} (h : lineHas (lineStore runs (a / 64)) (a % 64) b)
    (loc : Loc) (hloc : loc.pa = a / 64 * 64) (l : List FarPart) (hpeer : ∀ p ∈ l, p.loc.peer = loc.peer) (s : State)
    (hs : holds ((arch s).order.sbuf ++ (arch s).order.released) loc (a % 64) b ∨ ∃ p ∈ l, p.loc.pa / 64 = a / 64) :
    holds ((arch (l.foldl (bufferLines runs e) s)).order.sbuf ++ (arch (l.foldl (bufferLines runs e) s)).order.released) loc (a % 64) b := by
  induction l generalizing s with
  | nil => exact hs.resolve_right fun ⟨_, hp, _⟩ => List.not_mem_nil hp
  | cons p l ih =>
    rw [List.foldl_cons]
    refine ih (fun q hq => hpeer q (List.mem_cons_of_mem _ hq)) _ ?_
    by_cases hp : p.loc.pa / 64 = a / 64
    · have hline : lineLoc p.loc = loc := by
        rw [lineLoc, hp, ← hloc, hpeer p List.mem_cons_self]
      have hmask : (lineStore runs (p.loc.pa / 64)).1 ≠ 0 := fun h0 => by
        have hbit := h.1
        rw [← hp, h0] at hbit
        simp at hbit
      refine .inl ?_
      rw [bufferLines, if_neg hmask, hline]
      exact holds_append.mpr (.inl (holds_bufferStore _ _ _ (Nat.mod_lt _ (by decide)) (by rw [hp]; exact h)))
    · rcases hs with hs | ⟨q, hq, hqa⟩
      · refine .inl ?_
        unfold bufferLines
        split
        · exact hs
        · refine holds_bufferStore_other (fun heq => hp ?_) _ _ _ hs
          have hpa := congrArg Loc.pa heq
          rw [hloc] at hpa
          simp only [lineLoc] at hpa
          omega
      · refine .inr ⟨q, ((List.mem_cons.mp hq).resolve_left fun h => hp (h ▸ hqa)), hqa⟩

theorem farParts_peer (u : Nat) (l : Loc) (size : Nat) : ∀ p ∈ farParts u l size, p.loc.peer = l.peer := by
  intro p hp
  rw [farParts_eq] at hp
  obtain ⟨n, -, rfl⟩ := List.mem_map.mp hp
  rfl

theorem exists_farPart (u : Nat) (l : Loc) {size i : Nat} (h : i < size) : ∃ p ∈ farParts u l size, p.loc.pa / 64 = (l.pa + i) / 64 := by
  refine ⟨partAt u l size ((l.pa + i) / 64), ?_, ?_⟩
  · rw [farParts_eq]
    exact List.mem_map_of_mem (mem_range'.mpr (by omega))
  · simp only [partAt]
    omega

theorem farStored_eq (s : State) (g : Guard) (k : Fin 16) (x : AddrIn) (size : Nat) :
    let loc := farPlace s k x
    let runs := storeRuns loc.pa size (addrData s).v (storeMask s g)
    farStored s g k x size = (farParts 0 loc size).foldl
      (bufferLines runs (accessTaint s x ||| handleTaint (fetchHandle s k) ||| (addrData s).t)) (signStore s loc runs) := rfl

theorem storedByte_eq (s : State) (g : Guard) (size i : Nat) : storedByte s g size i = byteStored (addrData s).v (storeMask s g) size i := rfl

theorem lt_of_byteStored {d : Vec} {k : Word} {size i : Nat} {b : Byte} (h : byteStored d k size i = some b) : i < size := by
  rw [byteStored, Option.ite_none_right_eq_some] at h
  exact h.1.1

/-- Settles O34: each line of the store is buffered, and no later line disturbs it. -/
theorem farStores : Obligations.FarStores := by
  intro r hr g j k u l s x hx hm hok hd
  have hf := mFree_of_addresses hx
  have hstep : OrderStep s (farStored s g k x r.2.1) := by
    rw [farStored_eq]
    exact (orderStep_signStore ..).trans (orderStep_bufferLines ..)
  refine ⟨postUpdate (farStored s g k x r.2.1) u j x, ?_, fun i b hb => ?_, hstep.stepped hf u j, hstep.sparesCores u j x, ?_, ?_, ?_⟩
  · rw [exec_farStores r hr, farStore_eq hx, if_neg (by simp [hok.1, hd]), farGate_of_farOk hf hm hok]
  · rw [postUpdate_order, farStored_eq]
    rw [storedByte_eq] at hb
    obtain ⟨y, hy, hloc, hmask, hdata⟩ := holds_bufferLines (lineHas_lineStore hb)
      { farPlace s k x with pa := ((farPlace s k x).pa + i) / 64 * 64 } rfl _ (farParts_peer 0 (farPlace s k x) r.2.1) _
      (.inr (exists_farPart 0 (farPlace s k x) (lt_of_byteStored hb)))
    exact ⟨y, hy, hloc, hmask, hdata⟩
  · rw [postUpdate_due, hstep.due]
  · rw [postUpdate_stash, hstep.stash]
  · rw [postUpdate_far, hstep.far]

end Sys2Proof.Proofs
end

section
/-! PROOF. Handles and the taint unit (R175 to R177). -/

namespace Sys2Proof.Proofs

open Sys2Proof.Machine Sys2Proof.Claims

/-! What a last-read mark does not touch. -/

theorem markGuard_blind {α : Type} (P : State → α) {s : State} (hP : ∀ a, P (setArch s a) = P s) (g : Guard) (src : Src) :
    P (markGuard s g src) = P s := by
  obtain ⟨a, h | h⟩ := markGuard_state s g src
  · rw [h, hP]
  · rw [h]

theorem gang_setArch (s : State) (a : CoreArch) (c : Nat) : (getCore (setArch s a) c).gang = (getCore s c).gang := by
  by_cases hc : s.cur = c
  · subst hc
    rw [getCore_setArch_same]
  · rw [getCore_setArch_other s a hc]

theorem gang_markGuard (s : State) (g : Guard) (src : Src) (c : Nat) : (getCore (markGuard s g src) c).gang = (getCore s c).gang :=
  markGuard_blind (fun t => (getCore t c).gang) (fun a => gang_setArch s a c) g src

theorem gangOf_setArch (s : State) (a : CoreArch) (c : Nat) : gangOf (setArch s a) c = gangOf s c := by
  rw [gangOf, gangOf, gang_setArch]
  rfl

theorem leaseRange_markGuard (s : State) (g : Guard) (src : Src) (c va : Nat) :
    leaseRange (markGuard s g src) c va = leaseRange s c va :=
  markGuard_blind (fun t => leaseRange t c va) (fun a => by rw [leaseRange, gangOf_setArch, leaseRange]) g src

/-- The handle that a translation gives, from the statement's words. -/
theorem makeHandle_markGuard (s : State) (g : Guard) (src : Src) (c va : Nat) (rw' : Bool) (t : TSet) :
    makeHandle (markGuard s g src) c va rw' t = makeHandle s c va rw' t :=
  markGuard_blind (fun u => makeHandle u c va rw' t) (fun a => by rw [makeHandle, gang_setArch]; rfl) g src

theorem markGuard_regs_h (s : State) (g : Guard) (src : Src) : (arch (markGuard s g src)).regs.h = (arch s).regs.h := by
  unfold markGuard
  split
  · cases src with
    | g i =>
      simp only [markLast]
      split
      · rfl
      · rw [arch_modArch]
        obtain ⟨own, sh, h⟩ := writeG_eq (arch s) i { readG (arch s) i with dead := true }
        rw [h]
    | v i | p i | a i | m i =>
      simp only [markLast]
      split
      · rfl
      · rw [arch_modRegs]
    | res r => rw [markLast, arch_modArch]; rfl
    | s i | h i | loopIx d | imm n | l0 | l1 | l2 | l01 | l12 | l012 => rfl
  · rfl

/-! Translations (R175, R176). -/

theorem exec_xlHk_of_moves {g : Guard} {src : Src} {k : Fin 16} {s : State} {x : Val} (h : Moves (.xlHk g src k) g src s x) :
    exec (.xlHk g src k) s = .next (
      if x.scalar.p then raise (markGuard s g src) (.xlHk g src k) cPoison
      else if 2 ^ 48 ≤ x.scalar.v.toNat then raise (markGuard s g src) (.xlHk g src k) cOperand
      else match leaseRange s s.cur x.scalar.v.toNat with
        | none => raise (markGuard s g src) (.xlHk g src k) cLease
        | some r => setArch (markGuard s g src) { arch (markGuard s g src) with hdue := (arch s).hdue ++
            [{ k := k, va := x.scalar.v.toNat, at_ := (arch s).csr.cyc + 12, ord := orderNo s (arch s),
               hnd := makeHandle s s.cur x.scalar.v.toNat r.rw x.scalar.t, live := true }] }) := by
  refine congrArg Host.Outcome.next ((runMove_of_moves h _).trans ?_)
  simp only [modArch, markGuard_cur, leaseRange_markGuard, makeHandle_markGuard, orderNo_markGuard, markGuard_csr, markGuard_hdue] <;> rfl

theorem exec_xlDrop_of_moves {g : Guard} {src : Src} {s : State} {x : Val} (h : Moves (.xlDrop g src) g src s x) :
    let k : Fin 16 := Fin.ofNat 16 (x.scalar.v.toNat % 16)
    exec (.xlDrop g src) s = .next (
      if x.scalar.p then raise (markGuard s g src) (.xlDrop g src) cPoison
      else setArch (markGuard s g src) { arch (markGuard s g src) with
        regs := { (arch (markGuard s g src)).regs with h := vset (arch s).regs.h k { vget (arch s).regs.h k with valid := false } },
        hdue := (arch s).hdue.map (fun d => if d.k = k then { d with live := false } else d) }) := by
  intro k
  refine congrArg Host.Outcome.next ((runMove_of_moves h _).trans ?_)
  simp only [modArch, markGuard_regs_h, markGuard_hdue]
  rfl

/-- Settles O42: the checks in their order, then one change of the running core. -/
theorem translations : Obligations.Translations := by
  refine ⟨fun g src k s x hx => ?_, fun g src s x hx => ?_⟩
  · intro i s1 t va
    rw [exec_xlHk_of_moves hx]
    refine ⟨fun hp => by rw [if_pos hp], fun hp hva => ?_, fun hp hva hl => ?_, fun r hp hva hl => ⟨_, ?_, onlyArch_setArch s1 _⟩⟩
    · rw [if_neg (by simp [show x.scalar.p = false from hp]), if_pos hva]
    · rw [if_neg (by simp [show x.scalar.p = false from hp]), if_neg (Nat.not_le.mpr hva), show leaseRange s s.cur x.scalar.v.toNat = none from hl]
    · rw [if_neg (by simp [show x.scalar.p = false from hp]), if_neg (Nat.not_le.mpr hva), show leaseRange s s.cur x.scalar.v.toNat = some r from hl]
      rfl
  · intro i s1 t k
    rw [exec_xlDrop_of_moves hx]
    refine ⟨fun hp => by rw [if_pos hp], fun hp => ⟨_, ?_, onlyArch_setArch s1 _⟩⟩
    rw [if_neg (by simp [show x.scalar.p = false from hp])]

/-! The taint unit (R177). -/

theorem deliver_modOrder (s : State) (f : Order → Order) (port : PortId) (lat : Nat) (v : VVal) : deliver (modOrder s f) port lat true v =
    setArch s { arch s with order := f (arch s).order, due := (arch s).due ++ [shortDue s port lat v] } := by
  rw [deliver_eq, arch_modOrder, modOrder, modArch, setArch_setArch]
  rfl

theorem exec_tntPclr_of_moves {g : Guard} {src : Src} {s : State} {x : Val} (h : Moves (.tntPclr g src) g src s x) :
    let new : TSet := (arch s).order.path &&& ~~~(x.lanes.v.setWidth 16)
    exec (.tntPclr g src) s = .next (
      if x.lanes.p then raise (markGuard s g src) (.tntPclr g src) cPoison
      else setArch (markGuard s g src) { arch (markGuard s g src) with
        order := { (arch s).order with path := new },
        due := (arch s).due ++ [shortDue s .tntR 1 { v := new.setWidth 2048, t := 0, p := false }] }) := by
  intro new
  refine congrArg Host.Outcome.next ((runMove_of_moves h _).trans ?_)
  simp only [deliver_modOrder, markGuard_due, markGuard_order, shortDue_markGuard]
  rfl

/-- The result of `tnt.next`, and the colour it asks for. -/
theorem exec_tntNext_of_moves {g : Guard} {src : Src} {s : State} {x : Val} (h : Moves (.tntNext g src) g src s x) :
    let s1 := markGuard s g src
    let new := (startArch s1).order.tcol + 1
    exec (.tntNext g src) s = .next (
      match s.issue with
      | some i => { deliver s1 .tntR 1 true (cleanV (BitVec.ofNat 2048 new.val)) with issue := some { i with advance := true } }
      | none => modOrder (deliver s1 .tntR 1 true (cleanV (BitVec.ofNat 2048 new.val))) (fun o => { o with tcol := new, farCount := 0 })) := by
  intro s1 new
  refine congrArg Host.Outcome.next ((runMove_of_moves h _).trans ?_)
  have hissue : ∀ v, (deliver (markGuard s g src) .tntR 1 true v).issue = s.issue := fun _ => markGuard_issue s g src
  simp only [hissue]
  rfl

theorem startArch_of_none {s : State} (h : s.issue = none) : startArch s = arch s := by rw [startArch, h]

/-- Settles O43: each operation delivers one cycle later; `pclr` and `next` change the path taint or the colour too. -/
theorem taintOperations : Obligations.TaintOperations := by
  intro g src s x s1 t o result
  refine ⟨fun hx => ⟨_, congrArg Host.Outcome.next (runMove_of_moves hx _), delivers_deliver ..⟩, fun hx => ⟨_, congrArg Host.Outcome.next (runMove_of_moves hx _), ?_⟩,
    fun hx => ⟨_, congrArg Host.Outcome.next (runMove_of_moves hx _), delivers_deliver ..⟩, fun hx => ?_, fun hx => ?_⟩
  · rw [getOp_markGuard]
    exact delivers_deliver ..
  · rw [exec_tntPclr_of_moves hx]
    refine ⟨fun hp => by rw [if_pos hp], fun hp => ⟨_, ?_, onlyArch_setArch s1 _⟩⟩
    rw [if_neg (by simp [show x.lanes.p = false from hp])]
  · have hdeliver : arch (deliver s1 .tntR 1 true (cleanV (BitVec.ofNat 2048 ((startArch s1).order.tcol + 1).val))) =
        { arch s1 with due := (arch s).due ++ [result { v := BitVec.ofNat 2048 ((startArch s1).order.tcol + 1).val, t := 0, p := false }] } := by
      rw [(deliver_keeps ..).2.2.2.2, markGuard_due, shortDue_markGuard]
      rfl
    refine ⟨_, exec_tntNext_of_moves hx, ?_⟩
    cases hi : s.issue with
    | none =>
      have hnone : s1.issue = none := (markGuard_issue s g src).trans hi
      simp only [arch_modOrder]
      rw [hdeliver]
      exact ⟨rfl, fun _ => by rw [startArch_of_none hnone, markGuard_order], (fun y hy => nomatch hy), rfl,
        markGuard_stash s g src, markGuard_far s g src⟩
    | some y =>
      have harch : ∀ u z, arch { u with issue := z } = arch u := fun _ _ => rfl
      simp only [harch]
      rw [hdeliver]
      refine ⟨rfl, (fun h => nomatch h), fun z hz => ?_, rfl, markGuard_stash s g src, markGuard_far s g src⟩
      obtain rfl := Option.some.inj hz
      exact ⟨markGuard_order s g src, y, (markGuard_issue s g src).trans hi, rfl⟩

end Sys2Proof.Proofs
end

section
/-! PROOF. Barrier channels (R41 to R43, R179). -/

namespace Sys2Proof.Proofs

open Sys2Proof.Machine Sys2Proof.Claims

/-! Steps that change the hub and the edge alone. -/

/-- All but the hub and the edge is as before. -/
def HubEdge (s t : State) : Prop := { t with hub := s.hub, edge := s.edge } = s

theorem HubEdge.refl (s : State) : HubEdge s s := rfl

theorem HubEdge.trans {s t u : State} (h : HubEdge s t) (k : HubEdge t u) : HubEdge s u := by
  unfold HubEdge at h k ⊢
  exact Eq.trans (congrArg (fun a : State => { a with hub := s.hub, edge := s.edge }) k) h

theorem HubEdge.foldl {α : Type} {f : State → α → State} (hf : ∀ s a, HubEdge s (f s a)) (l : List α) (s : State) :
    HubEdge s (l.foldl f s) := by
  induction l generalizing s with
  | nil => exact HubEdge.refl s
  | cons a l ih => exact (hf s a).trans (ih _)

theorem HubEdge.cores {s t : State} (h : HubEdge s t) : t.cores = s.cores := (congrArg State.cores h :)
theorem HubEdge.quads {s t : State} (h : HubEdge s t) : t.quads = s.quads := (congrArg State.quads h :)
theorem HubEdge.stash {s t : State} (h : HubEdge s t) : t.stash = s.stash := (congrArg State.stash h :)
theorem HubEdge.far {s t : State} (h : HubEdge s t) : t.far = s.far := (congrArg State.far h :)
theorem HubEdge.cur {s t : State} (h : HubEdge s t) : t.cur = s.cur := (congrArg State.cur h :)
theorem HubEdge.issue {s t : State} (h : HubEdge s t) : t.issue = s.issue := (congrArg State.issue h :)

theorem HubEdge.getCore {s t : State} (h : HubEdge s t) (c : Nat) : getCore t c = getCore s c := by
  rw [Machine.getCore, h.cores, Machine.getCore]

theorem HubEdge.arch {s t : State} (h : HubEdge s t) : arch t = arch s := by rw [Machine.arch, h.getCore, h.cur, Machine.arch]

theorem hubEdge_sendPod (s : State) (cls dest rid : Nat) (body : List Byte) : HubEdge s (sendPod s cls dest rid body) := by
  unfold sendPod
  split
  · rfl
  · split
    · rfl
    · split
      · rfl
      · rfl

theorem hubEdge_sendPcoll (s : State) (dest : Nat) (x : PColl) : HubEdge s (sendPcoll s dest x) := by
  refine HubEdge.trans ?_ (hubEdge_sendPod _ _ _ _ _)
  rfl

theorem hubEdge_podRelease (s : State) (n ch phase : Nat) : HubEdge s (podRelease s n ch phase) := by
  unfold podRelease
  split
  · rfl
  · split
    · refine HubEdge.trans ?_ (HubEdge.foldl (fun _ _ => hubEdge_sendPcoll _ _ _) _ _)
      rfl
    · rfl

theorem hubEdge_podAdvance (s : State) (n ch phase : Nat) : HubEdge s (podAdvance s n ch phase) := by
  unfold podAdvance
  split
  · rfl
  · split
    · split
      · exact hubEdge_podRelease ..
      · exact hubEdge_sendPcoll ..
    · rfl

theorem hubEdge_podArrive (s : State) (x : Chan) (full : Nat) : HubEdge s (podArrive s x full) := by
  unfold podArrive
  dsimp only
  split
  · rfl
  · refine HubEdge.foldl (fun t p => ?_) _ _
    split
    · refine HubEdge.trans ?_ (hubEdge_podAdvance _ _ _ _)
      rfl
    · rfl

/-! The same steps keep the channels. -/

theorem foldl_keeps {α β : Type} (P : State → β) {f : State → α → State} (hf : ∀ s a, P (f s a) = P s) (l : List α) (s : State) :
    P (l.foldl f s) = P s := by
  induction l generalizing s with
  | nil => rfl
  | cons a l ih => rw [List.foldl_cons, ih, hf]

theorem sendPod_chans (s : State) (cls dest rid : Nat) (body : List Byte) : (sendPod s cls dest rid body).hub.chans = s.hub.chans := by
  unfold sendPod
  split
  · rfl
  · split
    · rfl
    · split
      · rfl
      · rfl

theorem sendPcoll_chans (s : State) (dest : Nat) (x : PColl) : (sendPcoll s dest x).hub.chans = s.hub.chans := sendPod_chans _ _ _ _ _

theorem podRelease_chans (s : State) (n ch phase : Nat) : (podRelease s n ch phase).hub.chans = s.hub.chans := by
  unfold podRelease
  split
  · rfl
  · split
    · exact foldl_keeps (·.hub.chans) (fun _ _ => sendPcoll_chans _ _ _) _ _
    · rfl

theorem podAdvance_chans (s : State) (n ch phase : Nat) : (podAdvance s n ch phase).hub.chans = s.hub.chans := by
  unfold podAdvance
  split
  · rfl
  · split
    · split
      · exact podRelease_chans ..
      · exact sendPcoll_chans ..
    · rfl

theorem podArrive_chans (s : State) (x : Chan) (full : Nat) : (podArrive s x full).hub.chans = s.hub.chans := by
  unfold podArrive
  dsimp only
  split
  · rfl
  · refine foldl_keeps (·.hub.chans) (fun t p => ?_) _ _
    split
    · exact podAdvance_chans _ _ _ _
    · rfl

/-! Channels read after an update. -/

theorem getChan_of_chans {s t : State} (h : t.hub.chans = s.hub.chans) (x : ChanId) : getChan t x = getChan s x := by
  rw [getChan, h, getChan]

theorem getChan_ident (s : State) (x : ChanId) : (getChan s x).ident = x := by
  rw [getChan]
  cases h : s.hub.chans.find? (fun c => c.ident = x) with
  | none => rfl
  | some c => simpa using List.find?_some h

/-- The channels of the hub with one replaced or added. -/
def putChan (l : List Chan) (c : Chan) : List Chan :=
  if l.any (fun d => d.ident = c.ident) then l.map (fun d => if d.ident = c.ident then c else d) else l ++ [c]

theorem setChan_eq (s : State) (c : Chan) : setChan s c = { s with hub := { s.hub with chans := putChan s.hub.chans c } } := rfl

theorem find?_replaced_same {l : List Chan} {c : Chan} (h : l.any (fun d => d.ident = c.ident) = true) :
    (l.map (fun d => if d.ident = c.ident then c else d)).find? (fun d => d.ident = c.ident) = some c := by
  induction l with
  | nil => simp at h
  | cons d l ih =>
    by_cases hd : d.ident = c.ident
    · simp [hd]
    · simp only [List.any_cons, hd, decide_false, Bool.false_or] at h
      simp only [List.map_cons, hd, if_false, List.find?_cons, decide_false]
      exact ih h

theorem find?_replaced_other {l : List Chan} {c : Chan} {x : ChanId} (h : x ≠ c.ident) :
    (l.map (fun d => if d.ident = c.ident then c else d)).find? (fun d => d.ident = x) = l.find? (fun d => d.ident = x) := by
  induction l with
  | nil => rfl
  | cons d l ih =>
    by_cases hd : d.ident = c.ident
    · have hc : c.ident ≠ x := Ne.symm h
      have hdx : d.ident ≠ x := by rw [hd]; exact hc
      simp only [List.map_cons, hd, if_true, List.find?_cons, decide_eq_false hc, ih]
    · simp only [List.map_cons, hd, if_false, List.find?_cons, ih]

@[simp] theorem getChan_setChan_same (s : State) (c : Chan) : getChan (setChan s c) c.ident = c := by
  rw [setChan_eq, getChan]
  simp only [putChan]
  split
  next h => rw [find?_replaced_same h, Option.getD_some]
  next h =>
    have hnone : s.hub.chans.find? (fun d => d.ident = c.ident) = none := by
      simpa [List.find?_eq_none, List.any_eq_true] using h
    rw [List.find?_append, hnone]
    simp

theorem getChan_setChan_other (s : State) {c : Chan} {x : ChanId} (h : x ≠ c.ident) : getChan (setChan s c) x = getChan s x := by
  rw [setChan_eq, getChan, getChan]
  simp only [putChan]
  split
  · rw [find?_replaced_other h]
  · rw [List.find?_append]
    cases s.hub.chans.find? (fun d => d.ident = x) with
    | none => simp [Ne.symm h]
    | some d => rfl

/-! What happens to one channel. -/

/-- Of `s` only channel `x`, and what the pod tree sends, have changed. -/
structure ChanStep (s : State) (x : ChanId) (t : State) : Prop where
  rest : HubEdge s t
  others : ∀ d, d ≠ x → getChan t d = getChan s d

theorem ChanStep.trans {s t u : State} {x : ChanId} (h : ChanStep s x t) (k : ChanStep t x u) : ChanStep s x u :=
  ⟨h.rest.trans k.rest, fun d hd => (k.others d hd).trans (h.others d hd)⟩

theorem chanStep_setChan (s : State) {c : Chan} {x : ChanId} (h : c.ident = x) : ChanStep s x (setChan s c) :=
  ⟨rfl, fun _ hd => getChan_setChan_other s (by rw [h]; exact hd)⟩

theorem noteObserved_eq (s : State) (x : ChanId) (c : Nat) : noteObserved s x c =
    setChan s { getChan s x with observed := alPut (getChan s x).observed c (getChan s x).released } := rfl

theorem chanStep_noteObserved (s : State) (x : ChanId) (c : Nat) : ChanStep s x (noteObserved s x c) :=
  chanStep_setChan s (getChan_ident s x)

theorem getChan_setChan_of_ident (s : State) {c : Chan} {x : ChanId} (h : c.ident = x) : getChan (setChan s c) x = c := by
  rw [← h, getChan_setChan_same]

theorem arrivals_noteObserved (s : State) (x : ChanId) (c d : Nat) : arrivals (getChan (noteObserved s x c) x) d = arrivals (getChan s x) d := by
  rw [noteObserved_eq, getChan_setChan_of_ident]
  · rfl
  · exact getChan_ident s x

theorem chanStep_dateReleases (s : State) (x : ChanId) : ChanStep s x (dateReleases s x) := by
  unfold dateReleases
  split
  · exact ⟨hubEdge_podArrive .., fun d _ => getChan_of_chans (podArrive_chans ..) d⟩
  · exact chanStep_setChan s (getChan_ident s x)

theorem arrived_dateReleases (s : State) (x : ChanId) : (getChan (dateReleases s x) x).arrived = (getChan s x).arrived := by
  unfold dateReleases
  split
  · rw [getChan_of_chans (podArrive_chans ..)]
  · dsimp only
    rw [getChan_setChan_of_ident]
    exact getChan_ident s x

theorem chanStep_countArrival (s : State) (x : ChanId) (c : Nat) : ChanStep s x (countArrival s x c) := by
  refine ChanStep.trans (chanStep_setChan s ?_) (chanStep_dateReleases _ _)
  exact getChan_ident s x

theorem arrivals_countArrival (s : State) (x : ChanId) (c : Nat) :
    arrivals (getChan (countArrival s x c) x) c = arrivals (getChan s x) c + 1 := by
  rw [countArrival, arrivals, arrived_dateReleases, getChan_setChan_of_ident, alGet_alPut_same]
  exact getChan_ident s x

/-! A barrier trigger's effect on its own core. -/

/-- The wait of the running core is set, all else of it is as before. -/
theorem arch_setWait {s : State} (h : (arch s).seq.wait = none) (w : Wait) :
    arch (setWait s w) = { arch s with seq := { (arch s).seq with wait := some w } } := by
  rw [setWait_of_none h, modSeq_eq, arch_setArch]

theorem getCore_setWait_other (s : State) (w : Wait) {c : Nat} (h : c ≠ s.cur) : getCore (setWait s w) c = getCore s c :=
  getCore_setArch_other s _ (Ne.symm h)

/-- The state in which an arrival is decided. -/
def arriving (s : State) (x : ChanId) : State := openWindow (noteObserved s x s.cur) s.cur 5

theorem getChan_arriving (s : State) (x d : ChanId) : getChan (arriving s x) d = getChan (noteObserved s x s.cur) d := rfl

theorem arch_arriving (s : State) (x : ChanId) : arch (arriving s x) = arch s := by
  rw [arriving, arch_openWindow, (chanStep_noteObserved s x s.cur).rest.arch]

theorem sparesChannels_arriving (s : State) (x : ChanId) : sparesChannels s x (arriving s x) :=
  ⟨(chanStep_noteObserved s x s.cur).others, fun k hk => getCore_openWindow_other _ 5 (Ne.symm hk), rfl, rfl, rfl⟩

theorem sparesChannels_trans {s t u : State} {x : ChanId} (hcur : t.cur = s.cur) (h : sparesChannels s x t) (k : sparesChannels t x u) :
    sparesChannels s x u := by
  obtain ⟨h1, h2, h3, h4, h5⟩ := h
  obtain ⟨k1, k2, k3, k4, k5⟩ := k
  exact ⟨fun d hd => (k1 d hd).trans (h1 d hd), fun c hc => (k2 c (by rw [hcur]; exact hc)).trans (h2 c hc), k3.trans h3, k4.trans h4,
    k5.trans h5⟩

theorem ChanStep.sparesChannels {s t : State} {x : ChanId} (h : ChanStep s x t) : sparesChannels s x t :=
  ⟨h.others, fun k _ => h.rest.getCore k, h.rest.quads, h.rest.stash, h.rest.far⟩

theorem sparesChannels_setWait (s : State) (x : ChanId) (w : Wait) : sparesChannels s x (setWait s w) :=
  ⟨fun _ _ => rfl, fun _ hk => getCore_setWait_other s w hk, rfl, rfl, rfl⟩

theorem arriveAt_eq (s : State) (x : ChanId) (sync : Bool) : arriveAt s x sync =
    if counterFree (arriving s x) (getChan (arriving s x) x) (arrivals (getChan (arriving s x) x) s.cur) then
      if sync then setWait (countArrival (arriving s x) x s.cur) (.release x (arrivals (getChan (arriving s x) x) s.cur))
      else countArrival (arriving s x) x s.cur
    else setWait (arriving s x) (.blocked x (arrivals (getChan (arriving s x) x) s.cur) sync) := rfl

/-- An arrival whose counter is free is counted, and one that is not waits for it. -/
theorem arriveAt_claim (s : State) (x : ChanId) (sync : Bool) (hw : (arch s).seq.wait = none) :
    let n := arrivals (getChan s x) s.cur
    let u := arriveAt s x sync
    (counterFree (arriving s x) (getChan (arriving s x) x) n = true → arrivals (getChan u x) s.cur = n + 1 ∧
      (arch u).seq.wait = (if sync then some (.release x n) else none)) ∧
    (counterFree (arriving s x) (getChan (arriving s x) x) n = false → arrivals (getChan u x) s.cur = n ∧
      (arch u).seq.wait = some (.blocked x n sync)) ∧
    { arch u with seq := (arch s).seq } = arch s ∧ { (arch u).seq with wait := none } = { (arch s).seq with wait := none } ∧
    sparesChannels s x u := by
  intro n u
  have hn : arrivals (getChan (arriving s x) x) s.cur = n := by rw [getChan_arriving, arrivals_noteObserved]
  have hcount := chanStep_countArrival (arriving s x) x s.cur
  have hcounted : arrivals (getChan (countArrival (arriving s x) x s.cur) x) s.cur = n + 1 := by rw [arrivals_countArrival, hn]
  have harch : arch (countArrival (arriving s x) x s.cur) = arch s := by rw [hcount.rest.arch, arch_arriving]
  have hspares : sparesChannels s x (countArrival (arriving s x) x s.cur) :=
    sparesChannels_trans (t := arriving s x) rfl (sparesChannels_arriving s x) hcount.sparesChannels
  have hcur : (countArrival (arriving s x) x s.cur).cur = s.cur := hcount.rest.cur
  have hu : u = _ := arriveAt_eq s x sync
  rw [hn] at hu
  by_cases hfree : counterFree (arriving s x) (getChan (arriving s x) x) n = true
  · rw [if_pos hfree] at hu
    cases sync with
    | true =>
      rw [if_pos rfl] at hu
      have hset := arch_setWait (s := countArrival (arriving s x) x s.cur) (by rw [harch]; exact hw) (.release x n)
      rw [harch] at hset
      rw [hu, hset]
      exact ⟨fun _ => ⟨hcounted, rfl⟩, fun h => absurd (hfree.symm.trans h) (by decide), rfl, rfl,
        sparesChannels_trans hcur hspares (sparesChannels_setWait ..)⟩
    | false =>
      rw [if_neg (by decide)] at hu
      rw [hu, harch]
      exact ⟨fun _ => ⟨hcounted, hw⟩, fun h => absurd (hfree.symm.trans h) (by decide), rfl, rfl, hspares⟩
  · rw [if_neg hfree] at hu
    have hset := arch_setWait (s := arriving s x) (by rw [arch_arriving]; exact hw) (.blocked x n sync)
    rw [arch_arriving] at hset
    rw [hu, hset]
    exact ⟨fun h => absurd h hfree, fun _ => ⟨hn, rfl⟩, rfl, rfl,
      sparesChannels_trans (t := arriving s x) rfl (sparesChannels_arriving s x) (sparesChannels_setWait ..)⟩

/-! The triggers. -/

theorem holdsChan_markGuard (s : State) (g : Guard) (src : Src) (c scope ch : Nat) :
    holdsChan (markGuard s g src) c scope ch = holdsChan s c scope ch :=
  markGuard_blind (fun t => holdsChan t c scope ch) (fun a => by rw [holdsChan, gang_setArch]; rfl) g src

theorem barOk_markGuard (s : State) (g : Guard) (src : Src) (c : Nat) (x : SVal) : barOk (markGuard s g src) c x = barOk s c x := by
  rw [barOk, holdsChan_markGuard, barOk]

theorem descChan_markGuard (s : State) (g : Guard) (src : Src) (t : Word) : descChan (markGuard s g src) t = descChan s t := by
  rw [descChan, descChan, chanIdOf, chanIdOf, gang_markGuard, markGuard_cur]

theorem getChan_markGuard (s : State) (g : Guard) (src : Src) (x : ChanId) : getChan (markGuard s g src) x = getChan s x :=
  getChan_of_chans (by rw [markGuard_hub]) x

theorem exec_arrival_of_moves {sync : Bool} {g : Guard} {src : Src} {s : State} {x : Val} (i : Instr)
    (hi : i = if sync then .barSync g src else .barArrive g src) (h : Moves i g src s x) : exec i s = .next (
      if barOk s s.cur x.scalar then arriveAt (markGuard s g src) (descChan s x.scalar.v) sync else raise (markGuard s g src) i cOperand) := by
  cases sync with
  | true =>
    rw [if_pos rfl] at hi
    subst hi
    refine congrArg Host.Outcome.next ((runMove_of_moves h _).trans ?_)
    rw [barOk_markGuard, descChan_markGuard, markGuard_cur]
  | false =>
    rw [if_neg (by decide)] at hi
    subst hi
    refine congrArg Host.Outcome.next ((runMove_of_moves h _).trans ?_)
    rw [barOk_markGuard, descChan_markGuard, markGuard_cur]

/-- What a last-read mark leaves is left of `s` too. -/
theorem sparesChannels_markGuard {s : State} {g : Guard} {src : Src} {x : ChanId} {u : State} (h : sparesChannels (markGuard s g src) x u) :
    sparesChannels s x u := by
  refine sparesChannels_trans (markGuard_cur s g src) ⟨fun d _ => getChan_markGuard s g src d, fun k hk => ?_, markGuard_quads s g src,
    markGuard_stash s g src, markGuard_far s g src⟩ h
  exact markGuard_getCore_other s g src (Ne.symm hk)

theorem exec_barWait_of_moves {g : Guard} {src : Src} {s : State} {x : Val} (h : Moves (.barWait g src) g src s x) :
    let s1 := markGuard s g src
    let c := descChan s x.scalar.v
    let n := arrivals (getChan s c) s.cur
    exec (.barWait g src) s = .next (
      if barOk s s.cur x.scalar then
        if n = 0 then deliver (noteObserved s1 c s.cur) .barR 1 false (cleanV (wordToVec (BitVec.allOnes 64)))
        else setWait (noteObserved s1 c s.cur) (.release c (n - 1))
      else raise s1 (.barWait g src) cOperand) := by
  intro s1 c n
  have hcur : ∀ c, (noteObserved s1 c s.cur).cur = s.cur := fun _ => markGuard_cur s g src
  refine congrArg Host.Outcome.next ((runMove_of_moves h _).trans ?_)
  simp only [barOk_markGuard, descChan_markGuard, markGuard_cur, arrivals_noteObserved, getChan_markGuard]
  rw [show (noteObserved (markGuard s g src) (descChan s x.scalar.v) s.cur).cur = s.cur from hcur c]

theorem exec_barDrain_of_moves {g : Guard} {src : Src} {s : State} {x : Val} (h : Moves (.barDrain g src) g src s x) :
    exec (.barDrain g src) s = .next (setWait (openWindow (commitEvent (markGuard s g src)) (markGuard s g src).cur 1) .drain) :=
  congrArg Host.Outcome.next (runMove_of_moves h _)

theorem barWait_claim {g : Guard} {src : Src} {s : State} {x : Val} (hx : Moves (.barWait g src) g src s x) :
    let s1 := markGuard s g src
    let c := descChan s x.scalar.v
    let n := arrivals (getChan s c) s.cur
    (barOk s s.cur x.scalar = false → exec (.barWait g src) s = .next (raise s1 (.barWait g src) cOperand)) ∧
    (barOk s s.cur x.scalar = true → n = 0 → ∃ u, exec (.barWait g src) s = .next u ∧ sparesChannels s c u ∧
      arch u = { arch s1 with due := (arch s).due ++ [longDue s .barR 1 { v := wordToVec (BitVec.allOnes 64), t := 0, p := false }] }) ∧
    (barOk s s.cur x.scalar = true → 0 < n → (arch s).seq.wait = none → ∃ u, exec (.barWait g src) s = .next u ∧
      arch u = { arch s1 with seq := { (arch s1).seq with wait := some (.release c (n - 1)) } } ∧ arrivals (getChan u c) s.cur = n ∧
      sparesChannels s c u) := by
  intro s1 c n
  have hstep := chanStep_noteObserved s1 c s.cur
  have hspares := hstep.sparesChannels
  rw [exec_barWait_of_moves hx]
  refine ⟨fun hno => by rw [if_neg (by simp [hno])], fun hok h0 => ?_, fun hok hn hw => ?_⟩
  · refine ⟨_, by rw [if_pos hok, if_pos h0], ?_, ?_⟩
    · refine sparesChannels_markGuard (sparesChannels_trans hstep.rest.cur hspares ?_)
      exact ⟨fun _ _ => rfl, fun k hk => getCore_setArch_other _ _ (Ne.symm hk), rfl, rfl, rfl⟩
    · rw [deliver_eq, arch_setArch, hstep.rest.arch, markGuard_due, longDue, ← shortDue_markGuard s g src]
      rfl
  · have hset := arch_setWait (s := noteObserved s1 c s.cur) (by rw [hstep.rest.arch, markGuard_seq_wait]; exact hw) (.release c (n - 1))
    rw [hstep.rest.arch] at hset
    refine ⟨_, by rw [if_pos hok, if_neg (Nat.ne_of_gt hn)], hset, ?_, ?_⟩
    · exact (arrivals_noteObserved s1 c s.cur s.cur).trans (by rw [getChan_markGuard])
    · exact sparesChannels_markGuard (sparesChannels_trans hstep.rest.cur hspares (sparesChannels_setWait ..))

theorem windowOpen_openWindow (s : State) (why : Nat) : (getCore (openWindow s s.cur why) s.cur).jn.windowOpen = true := by
  rw [openWindow, getCore_modCore_same]
  split
  next h => exact h
  next => rfl

theorem commitEvent_of_some {s : State} {y : Issue} (h : s.issue = some y) : commitEvent s = { s with issue := some { y with commit := true } } := by
  rw [commitEvent, h]

theorem commitEvent_of_none {s : State} (h : s.issue = none) : commitEvent s = releaseStores s s.cur := by rw [commitEvent, h]

theorem arch_releaseStores (s : State) : arch (releaseStores s s.cur) = { arch s with order :=
    { (arch s).order with released := (arch s).order.released ++ (arch s).order.sbuf, sbuf := [], sinceCommit := 0 } } := by
  rw [arch, releaseStores, modCore_cur, getCore_modCore_same]
  rfl

theorem barDrain_claim {g : Guard} {src : Src} {s : State} {x : Val} (hx : Moves (.barDrain g src) g src s x) (hw : (arch s).seq.wait = none) :
    let s1 := markGuard s g src
    ∃ u, exec (.barDrain g src) s = .next u ∧ (getCore u s.cur).jn.windowOpen = true ∧
      { arch u with order := (arch s1).order } = { arch s1 with seq := { (arch s1).seq with wait := some .drain } } ∧
      (∀ k, k ≠ s.cur → getCore u k = getCore s k) ∧ u.stash = s.stash ∧ u.far = s.far ∧ u.hub = s.hub ∧
      (s.issue = none → (arch u).order.sbuf = [] ∧ (arch u).order.released = (arch s).order.released ++ (arch s).order.sbuf) ∧
      (∀ y, s.issue = some y → ∃ z, u.issue = some z ∧ z.commit = true) := by
  intro s1
  have hcur : (commitEvent s1).cur = s1.cur := (orderStep_commitEvent s1).cur
  have hstep : OrderStep s1 (openWindow (commitEvent s1) s1.cur 1) := by
    rw [← hcur]
    exact (orderStep_commitEvent s1).trans (orderStep_openWindow _ 1)
  have hseq : (arch (openWindow (commitEvent s1) s1.cur 1)).seq = (arch s1).seq := (congrArg CoreArch.seq hstep.archEq :)
  have hset := arch_setWait (s := openWindow (commitEvent s1) s1.cur 1) (by rw [hseq, markGuard_seq_wait]; exact hw) .drain
  have horder : (arch (setWait (openWindow (commitEvent s1) s1.cur 1) .drain)).order = (arch (commitEvent s1)).order := by
    rw [hset, arch_openWindow]
  refine ⟨_, exec_barDrain_of_moves hx, ?_, ?_, fun k hk => ?_, hstep.stash.trans (markGuard_stash s g src), hstep.far.trans (markGuard_far s g src),
    ((congrArg State.hub hstep.rest :) : _ = s1.hub).trans (markGuard_hub s g src), fun hnone => ?_, fun y hy => ?_⟩
  · have hwin := windowOpen_openWindow (commitEvent s1) 1
    rw [hcur, markGuard_cur] at hwin
    rw [setWait, modSeq, modArch, setArch]
    have hc : (openWindow (commitEvent s1) s1.cur 1).cur = s.cur := hstep.cur.trans (markGuard_cur s g src)
    rw [hc, getCore_setCore_same, ← markGuard_cur s g src]
    rw [← markGuard_cur s g src] at hwin
    exact hwin
  · rw [hset]
    exact congrArg (fun a : CoreArch => { a with seq := { a.seq with wait := some Wait.drain } }) hstep.archEq
  · rw [getCore_setWait_other _ _ (by rw [hstep.cur, markGuard_cur]; exact hk), hstep.others k (by rw [markGuard_cur]; exact hk)]
    exact markGuard_getCore_other s g src (Ne.symm hk)
  · rw [horder, commitEvent_of_none ((markGuard_issue s g src).trans hnone), arch_releaseStores, markGuard_order]
    exact ⟨rfl, rfl⟩
  · refine ⟨{ y with commit := true }, ?_, rfl⟩
    exact congrArg State.issue (commitEvent_of_some ((markGuard_issue s g src).trans hy))

/-- Settles O44: each trigger passes the descriptor's check, then changes its channel and its own core's wait. -/
theorem barrierTriggers : Obligations.BarrierTriggers := by
  refine ⟨fun sync g src s x => ?_, fun g src s x hx => barWait_claim hx, fun g src s x hx hw => barDrain_claim hx hw, fun s c hc hdue => ?_⟩
  · intro i hx s1 c n s2
    rw [exec_arrival_of_moves i rfl hx]
    refine ⟨fun hno => by rw [if_neg (by simp [hno])], fun hok hw => ⟨_, by rw [if_pos hok], ?_⟩⟩
    have hclaim := arriveAt_claim s1 c sync (by rw [markGuard_seq_wait]; exact hw)
    simp only [getChan_markGuard, markGuard_cur, s1] at hclaim
    obtain ⟨hfree, hblocked, harch, hseq, hspares⟩ := hclaim
    have harr : arriving (markGuard s g src) c = s2 := by
      rw [arriving, markGuard_cur]
    rw [harr] at hfree hblocked
    exact ⟨hfree, hblocked, harch, hseq, sparesChannels_markGuard hspares⟩
  · have hexec : exec (.barrierRelease c.ident) s = .next (releasePhase s c.ident) := by
      change execBarrierRelease c.ident s = _
      rw [execBarrierRelease, hc]
      simp only [hdue, if_true]
    have hget : getChan s c.ident = c := by rw [getChan, hc, Option.getD_some]
    refine ⟨_, hexec, ?_, fun d hd => ?_, rfl⟩
    · rw [releasePhase, getChan_setChan_of_ident, hget]
      exact getChan_ident s _
    · exact getChan_setChan_other s (by rw [getChan_ident]; exact hd)

end Sys2Proof.Proofs
end

section
/-! PROOF. Engine triggers and the control of the engine queues (R158, R160, R170, R171, R173). -/

namespace Sys2Proof.Proofs

open Sys2Proof.Machine Sys2Proof.Claims

/-! A result that commits and opens the window (R158, R225, R310). -/

/-- A ticket or a poll's word on its way, with the commit event and the window that go with it. -/
def ticketed (s : State) (v : Vec) : State := openWindow (commitEvent (deliver s .engR 2 false (cleanV v))) s.cur 1

/-- The order of memory accesses after a commit event. -/
def committed (s : State) : Order :=
  match s.issue with
  | some _ => (arch s).order
  | none => { (arch s).order with released := (arch s).order.released ++ (arch s).order.sbuf, sbuf := [], sinceCommit := 0 }

theorem arch_commitEvent (s : State) : arch (commitEvent s) = { arch s with order := committed s } := by
  cases h : s.issue with
  | none => rw [commitEvent_of_none h, arch_releaseStores, committed, h]
  | some y => rw [commitEvent_of_some h, committed, h]; rfl

theorem delivers_long (s : State) (port : PortId) (lat : Nat) (v : VVal) :
    deliver s port lat false v = setArch s { arch s with due := (arch s).due ++ [longDue s port lat v] } := rfl

theorem arch_ticketed (s : State) (v : Vec) : arch (ticketed s v) =
    { arch s with due := (arch s).due ++ [longDue s .engR 2 { v := v, t := 0, p := false }], order := committed s } := by
  have hissue : (deliver s .engR 2 false (cleanV v)).issue = s.issue := rfl
  rw [ticketed, arch_openWindow, arch_commitEvent, committed, hissue, delivers_long, arch_setArch, committed]
  rfl

theorem orderStep_ticketed_tail (s : State) (v : Vec) : OrderStep (deliver s .engR 2 false (cleanV v)) (ticketed s v) := by
  have hstep := orderStep_commitEvent (deliver s .engR 2 false (cleanV v))
  have hcur : s.cur = (commitEvent (deliver s .engR 2 false (cleanV v))).cur := hstep.cur.symm
  rw [ticketed, hcur]
  exact hstep.trans (orderStep_openWindow _ 1)

theorem getCore_ticketed_other (s : State) (v : Vec) {c : Nat} (hc : c ≠ s.cur) : getCore (ticketed s v) c = getCore s c :=
  ((orderStep_ticketed_tail s v).others c hc).trans (getCore_setArch_other s _ (Ne.symm hc))

/-- All but the cores and the commit of the bundle is as before. -/
theorem ticketed_rest (s : State) (v : Vec) : { ticketed s v with cores := s.cores, issue := s.issue, uid := s.uid } = s :=
  (congrArg (fun a : State => { a with cores := s.cores }) (orderStep_ticketed_tail s v).rest :)

theorem windowOpen_ticketed (s : State) (v : Vec) : (getCore (ticketed s v) s.cur).jn.windowOpen = true := by
  have hcur : (commitEvent (deliver s .engR 2 false (cleanV v))).cur = s.cur := (orderStep_commitEvent _).cur
  have h := windowOpen_openWindow (commitEvent (deliver s .engR 2 false (cleanV v))) 1
  rw [hcur] at h
  exact h

theorem committed_order_rest (s : State) : { committed s with sbuf := [], released := [], sinceCommit := 0 } =
    { (arch s).order with sbuf := [], released := [], sinceCommit := 0 } := by
  unfold committed
  split <;> rfl

/-- What a ticket leaves of its core and of the module. -/
theorem sparesQueuer_ticketed {s1 s2 : State} (v : Vec) (hq : ∃ q f, s2 = setArch s1 { arch s1 with q := q, fences := f }) :
    sparesQueuer s1 (ticketed s2 v) := by
  obtain ⟨q, f, rfl⟩ := hq
  have hrest := ticketed_rest (setArch s1 { arch s1 with q := q, fences := f }) v
  refine ⟨?_, ?_, fun c hc => ?_, (congrArg State.quads hrest :),
    (congrArg State.hub hrest :), (congrArg State.edge hrest :), (congrArg State.stash hrest :), (congrArg State.far hrest :)⟩
  · rw [arch_ticketed, arch_setArch]
  · rw [arch_ticketed]
    exact (committed_order_rest _).trans (by rw [arch_setArch])
  · rw [getCore_ticketed_other (setArch s1 { arch s1 with q := q, fences := f }) v hc]
    exact getCore_setArch_other s1 _ (Ne.symm hc)

theorem longDue_markGuard (s : State) (g : Guard) (src : Src) (port : PortId) (lat : Nat) (v : VVal) :
    longDue (markGuard s g src) port lat v = longDue s port lat v := by rw [longDue, shortDue_markGuard, longDue]

/-! Joining a queue. -/

/-- A queue with a command at its end, under the next sequence number. -/
def joined (u : EngQueue) (c : EngCmd) : EngQueue := { u with cmds := u.cmds ++ [{ c with seq := u.issued }], issued := u.issued + 1 }

def queued (s : State) (c : EngCmd) : State :=
  setArch s { arch s with q := vset (arch s).q (queueOf c.op) (joined (vget (arch s).q (queueOf c.op)) c) }

theorem enqueue_eq (s : State) (c : EngCmd) :
    enqueue s c = ticketed (queued s c) (wordToVec (ticket (queueOf c.op).val (vget (arch s).q (queueOf c.op)).issued)) := rfl

theorem arch_queued (s : State) (c : EngCmd) : arch (queued s c) =
    { arch s with q := vset (arch s).q (queueOf c.op) (joined (vget (arch s).q (queueOf c.op)) c) } := arch_setArch s _

/-- Joining a queue (R158). -/
theorem enqueue_claim (u : State) (c : EngCmd) :
    let q := queueOf c.op
    let t := enqueue u c
    queueOfCore t q = { queueOfCore u q with cmds := (queueOfCore u q).cmds ++ [{ c with seq := (queueOfCore u q).issued }],
                                             issued := (queueOfCore u q).issued + 1 } ∧
    (∀ k, k ≠ q → queueOfCore t k = queueOfCore u k) ∧
    (arch t).due = (arch u).due ++
      [longDue u .engR 2 { v := wordToVec (BitVec.ofNat 64 (q.val + 8 * (queueOfCore u q).issued)), t := 0, p := false }] ∧
    (arch t).regs = (arch u).regs ∧ (arch t).ops = (arch u).ops ∧ (arch t).csr = (arch u).csr ∧ (getCore t u.cur).jn.windowOpen = true ∧
    (∀ x, u.issue = some x → t.issue = some { x with commit := true }) ∧
    (u.issue = none → (arch t).order.sbuf = [] ∧ (arch t).order.released = (arch u).order.released ++ (arch u).order.sbuf) ∧
    t.stash = u.stash ∧ t.far = u.far ∧ (∀ k, k ≠ u.cur → getCore t k = getCore u k) := by
  intro q t
  have hrest := ticketed_rest (queued u c) (wordToVec (ticket q.val (vget (arch u).q q).issued))
  have harch : arch t = _ := arch_ticketed (queued u c) (wordToVec (ticket q.val (vget (arch u).q q).issued))
  rw [arch_queued] at harch
  refine ⟨?_, fun k hk => ?_, ?_, by rw [harch], by rw [harch], by rw [harch], windowOpen_ticketed (queued u c) _, fun x hx => ?_,
    fun hnone => ?_, (congrArg State.stash hrest :), (congrArg State.far hrest :), fun k hk => ?_⟩
  · rw [queueOfCore, harch]
    exact vget_vset_same ..
  · rw [queueOfCore, harch]
    exact vget_vset_other _ _ (Ne.symm hk)
  · rw [harch]
    simp only [longDue, shortDue, arch_queued]
    rfl
  · exact congrArg State.issue (commitEvent_of_some (s := deliver (queued u c) .engR 2 false _) hx)
  · rw [harch, committed, show (queued u c).issue = none from hnone, arch_queued]
    exact ⟨rfl, rfl⟩
  · exact (getCore_ticketed_other (queued u c) _ hk).trans (getCore_setArch_other u _ (Ne.symm hk))

theorem exec_commandTriggers : ∀ r ∈ commandTriggers, ∀ (g : Guard) (src : Src) (s : State),
    exec (r.1 g src) s = .next (engTrigger r.2 (r.1 g src) g src s) := by
  simp only [commandTriggers, List.forall_mem_cons]
  exact ⟨fun _ _ _ => rfl, fun _ _ _ => rfl, fun _ _ _ => rfl, fun _ _ _ => rfl, fun _ _ _ => rfl, fun _ _ _ => rfl, fun _ _ _ => rfl,
    fun _ _ _ => rfl, fun _ _ _ => rfl, fun _ _ _ => rfl, fun _ _ _ => rfl, fun _ _ _ => rfl, fun _ _ _ => rfl, fun _ _ _ => rfl,
    fun _ _ _ => rfl, fun _ _ _ => rfl, fun _ _ _ => rfl, fun _ _ _ => rfl, fun _ _ _ => rfl, fun _ h => nomatch h⟩

/-- A command once t and the ports it reads are known not to be poisoned. -/
def issued (op : EngOp) (i : Instr) (s : State) (t : SVal) : State :=
  match issueOfOp s (makeCmd s op t) with
  | .bad k => raiseChk s i (rankChk (cmdEarly s (makeCmd s op t)) k)
  | .await keys => holdFor s keys
  | .ok c s1 =>
    if 32 ≤ (vget (arch s).q (queueOf op)).cmds.length then holdIssue s
    else if isColl op then arriveAt (enqueue s1 c) (collChan (enqueue s1 c) (enqueue s1 c).cur c) false else enqueue s1 c

theorem engTrigger_of_moves {op : EngOp} {i : Instr} {g : Guard} {src : Src} {s : State} {x : Val} (h : Moves i g src s x) :
    engTrigger op i g src s = if commandPoisoned s op x.scalar then raise (markGuard s g src) i cPoison
      else issued op i (markGuard s g src) x.scalar := by
  refine (runMovePre_of_moves h _ _).trans ?_
  simp only [commandPoisoned, ← getOpS_markGuard s g src]
  rfl

/-- Settles O40: the trigger decides by its poison, then by what the issue of its command answers. -/
theorem engineTriggers : Obligations.EngineTriggers := by
  refine ⟨fun r hr g src s x hx => ?_, fun u c => enqueue_claim u c⟩
  intro i s1 cmd
  have hexec : exec i s = _ := (exec_commandTriggers r hr g src s).trans (congrArg Host.Outcome.next (engTrigger_of_moves hx))
  have hq : queueOfCore s (queueOf r.2) = vget (arch s1).q (queueOf r.2) := by rw [queueOfCore, markGuard_q]
  rw [hexec]
  refine ⟨fun hp => by rw [if_pos hp], fun hp => ?_⟩
  rw [if_neg (by simp [hp])]
  refine ⟨fun k hk => ?_, fun l hl => ?_, fun c u hok hfull => ?_, fun c u hok hroom => ?_⟩
  · simp only [issued, show issueOfOp (markGuard s g src) (makeCmd (markGuard s g src) r.2 x.scalar) = _ from hk]
    rfl
  · simp only [issued, show issueOfOp (markGuard s g src) (makeCmd (markGuard s g src) r.2 x.scalar) = _ from hl]
    rfl
  · simp only [issued, show issueOfOp (markGuard s g src) (makeCmd (markGuard s g src) r.2 x.scalar) = _ from hok]
    rw [if_pos (by rw [← hq]; exact hfull)]
  · simp only [issued, show issueOfOp (markGuard s g src) (makeCmd (markGuard s g src) r.2 x.scalar) = _ from hok]
    rw [if_neg (by rw [← hq]; exact Nat.not_le.mpr hroom)]

/-! The masks of queues (R171, R173). -/

theorem mem_maskQueues {m : BitVec 5} {k : Fin 5} : k ∈ maskQueues m ↔ m.getLsbD k.val = true := by
  rw [maskQueues, List.mem_filter]
  exact and_iff_right (List.mem_finRange k)

theorem maskQueues_nodup (m : BitVec 5) : (maskQueues m).Nodup := (List.nodup_finRange 5).filter _

/-- An entry added to each queue of a list. -/
def pushAll (e : EngCmd) (l : List (Fin 5)) (v : Vector EngQueue 5) : Vector EngQueue 5 :=
  l.foldl (fun v q => vset v q { vget v q with cmds := (vget v q).cmds ++ [e] }) v

theorem vget_pushAll (e : EngCmd) {l : List (Fin 5)} (hl : l.Nodup) (v : Vector EngQueue 5) (k : Fin 5) :
    vget (pushAll e l v) k = if k ∈ l then { vget v k with cmds := (vget v k).cmds ++ [e] } else vget v k := by
  induction l generalizing v with
  | nil => rfl
  | cons q l ih =>
    obtain ⟨hq, hl⟩ := List.nodup_cons.mp hl
    rw [pushAll, List.foldl_cons]
    refine (ih hl _).trans ?_
    by_cases hk : q = k
    · subst hk
      rw [if_neg hq, if_pos List.mem_cons_self, vget_vset_same]
    · rw [vget_vset_other _ _ hk]
      simp only [List.mem_cons, Ne.symm hk, false_or]

/-- The entry that a fence puts in the queues of its mask. -/
def fenceEntry (s : State) (m : BitVec 5) (t : SVal) : EngCmd := { makeCmd s (.fence (arch s).fences m) t with seq := (arch s).fences }

/-- The engine queues with a fence in those of its mask. -/
def fenced (s : State) (m : BitVec 5) (t : SVal) : State :=
  setArch s { arch s with fences := (arch s).fences + 1, q := pushAll (fenceEntry s m t) (maskQueues m) (arch s).q }

theorem exec_engQfence_of_moves {g : Guard} {src : Src} {s : State} {x : Val} (h : Moves (.engQfence g src) g src s x) :
    let s1 := markGuard s g src
    let m : BitVec 5 := x.scalar.v.setWidth 5
    exec (.engQfence g src) s = .next (
      if x.scalar.p then raise s1 (.engQfence g src) cPoison
      else if m = 0 then raise s1 (.engQfence g src) cOperand
      else if (maskQueues m).any (fun q => decide (32 ≤ (vget (arch s).q q).cmds.length)) then holdIssue s1
      else ticketed (fenced s1 m x.scalar) (wordToVec (ticket 7 (arch s).fences))) := by
  intro s1 m
  refine congrArg Host.Outcome.next ((runMove_of_moves h _).trans ?_)
  rw [← markGuard_q s g src, ← markGuard_fences s g src]
  rfl

theorem exec_engQwait_of_moves {g : Guard} {src : Src} {s : State} {x : Val} (h : Moves (.engQwait g src) g src s x) :
    let s1 := markGuard s g src
    let q := x.scalar.v.toNat % 8
    let n := x.scalar.v.toNat / 8
    exec (.engQwait g src) s = .next (
      if x.scalar.p then raise s1 (.engQwait g src) cPoison
      else if q = 7 then
        (if (startArch s1).fences ≤ n then raise s1 (.engQwait g src) cOperand
         else setWait (openWindow (commitEvent s1) s1.cur 1) (.fence n))
      else if h : q < 5 then
        (if (vget (startArch s1).q ⟨q, h⟩).issued ≤ n then raise s1 (.engQwait g src) cOperand
         else setWait (openWindow (commitEvent s1) s1.cur 1) (.command ⟨q, h⟩ n))
      else raise s1 (.engQwait g src) cOperand) := by
  intro s1 q n
  have hv := x.scalar.v.isLt
  have hq : natField x.scalar.v.toNat 0 3 = q := by rw [natField_eq]; omega
  have hn : natField x.scalar.v.toNat 3 61 = n := by rw [natField_eq]; omega
  refine congrArg Host.Outcome.next ((runMove_of_moves h _).trans ?_)
  simp only [hq, hn]
  rfl

theorem exec_engQpoll_of_moves {g : Guard} {src : Src} {s : State} {x : Val} (h : Moves (.engQpoll g src) g src s x) :
    let s1 := markGuard s g src
    let m : BitVec 5 := x.scalar.v.setWidth 5
    exec (.engQpoll g src) s = .next (
      if x.scalar.p then raise s1 (.engQpoll g src) cPoison
      else if m = 0 then raise s1 (.engQpoll g src) cOperand
      else ticketed s1 (wordToVec (pollWord (startArch s1) m))) := congrArg Host.Outcome.next (runMove_of_moves h _)

/-! The word of a poll (R171). -/

/-- The bits of the queues of `m` that are empty. -/
def idleBits (m : BitVec 5) (empty : Fin 5 → Bool) : Nat :=
  ((maskQueues m).map (fun q => if empty q then 2 ^ q.val else 0)).foldl (· + ·) 0

theorem idleBits_finite : ∀ m e : Fin 32, idleBits (.ofFin m) (fun q => (BitVec.ofFin e : BitVec 5).getLsbD q.val) =
    m.val &&& e.val := by decide +kernel

theorem idleBits_eq (m : BitVec 5) (empty : Fin 5 → Bool) : idleBits m empty = (m &&& BitVec.ofFnLE empty).toNat := by
  have h := idleBits_finite m.toFin (BitVec.ofFnLE empty).toFin
  have hbit : ∀ q : Fin 5, (BitVec.ofFnLE empty).getLsbD q.val = empty q := fun q => by simp
  simp only [BitVec.ofFin_toFin, hbit] at h
  rw [h, BitVec.toNat_and]
  rfl

theorem first_maskQueues_finite : ∀ m : Fin 32, m ≠ 0 → ∃ low : Fin 5, (maskQueues (.ofFin m)).head? = some low ∧
    (BitVec.ofFin m : BitVec 5).getLsbD low.val = true ∧ ∀ k : Fin 5, k.val < low.val → (BitVec.ofFin m : BitVec 5).getLsbD k.val = false := by
  decide +kernel

theorem first_maskQueues {m : BitVec 5} (h : m ≠ 0) : ∃ low : Fin 5, (∃ rest, maskQueues m = low :: rest) ∧ m.getLsbD low.val = true ∧
    ∀ k, k < low.val → m.getLsbD k = false := by
  obtain ⟨low, hhead, hbit, hlow⟩ := first_maskQueues_finite m.toFin fun h0 => h (BitVec.eq_of_toFin_eq h0)
  rw [BitVec.ofFin_toFin] at hhead hbit hlow
  exact ⟨low, List.head?_eq_some_iff.mp hhead, hbit, fun k hk => hlow ⟨k, by omega⟩ hk⟩

theorem pollWord_claim (a : CoreArch) {m : BitVec 5} (h : m ≠ 0) : ∃ low : Fin 5, m.getLsbD low.val = true ∧
    (∀ k, k < low.val → m.getLsbD k = false) ∧
    (∀ k : Fin 5, (pollWord a m).getLsbD k.val = (m.getLsbD k.val && (vget a.q k).cmds.isEmpty)) ∧
    (pollWord a m).toNat / 32 % 2048 = 0 ∧ (pollWord a m).toNat / 65536 = (vget a.q low).completed % 2 ^ 48 := by
  obtain ⟨low, ⟨rest, hqs⟩, hbit, hlow⟩ := first_maskQueues h
  have hword : pollWord a m = BitVec.ofNat 64 ((m &&& BitVec.ofFnLE (fun k => (vget a.q k).cmds.isEmpty)).toNat +
      65536 * ((vget a.q low).completed % 2 ^ 48)) := by
    rw [← idleBits_eq, pollWord, hqs, idleBits, hqs]
  have hidle : (m &&& BitVec.ofFnLE (fun k => (vget a.q k).cmds.isEmpty)).toNat < 32 := BitVec.isLt _
  have hdone : (vget a.q low).completed % 2 ^ 48 < 2 ^ 48 := Nat.mod_lt _ (by decide)
  have hnat : (pollWord a m).toNat = (m &&& BitVec.ofFnLE (fun k => (vget a.q k).cmds.isEmpty)).toNat +
      65536 * ((vget a.q low).completed % 2 ^ 48) := by
    rw [hword, BitVec.toNat_ofNat, Nat.mod_eq_of_lt (by omega)]
  refine ⟨low, hbit, hlow, fun k => ?_, by rw [hnat]; omega, by rw [hnat]; omega⟩
  have hk5 := k.isLt
  have hmod : (pollWord a m).toNat % 2 ^ 5 = (m &&& BitVec.ofFnLE (fun k => (vget a.q k).cmds.isEmpty)).toNat := by rw [hnat]; omega
  have htest : (pollWord a m).toNat.testBit k.val = ((pollWord a m).toNat % 2 ^ 5).testBit k.val := by
    rw [Nat.testBit_mod_two_pow, decide_eq_true hk5, Bool.true_and]
  rw [BitVec.getLsbD, htest, hmod, ← BitVec.getLsbD, BitVec.getLsbD_and]
  simp

/-- Settles O41: a fence enters every queue of its mask; a wait and a poll look at the queues as the cycle began. -/
theorem queueControl : Obligations.QueueControl := by
  intro g src s x s1 t m q n
  refine ⟨fun hx => ?_, fun hx => ?_, fun hx => ?_⟩
  · rw [exec_engQfence_of_moves hx]
    refine ⟨fun hp => by rw [if_pos hp], fun hp hm => ?_, fun hp hm hfull => ?_, fun hp hm hroom => ?_⟩
    · rw [if_neg (by simp [show x.scalar.p = false from hp]), if_pos hm]
    · obtain ⟨k, hk, hlen⟩ := hfull
      rw [if_neg (by simp [show x.scalar.p = false from hp]), if_neg hm,
        if_pos (List.any_eq_true.mpr ⟨k, mem_maskQueues.mpr hk, decide_eq_true hlen⟩)]
    · have hnone : ¬ (maskQueues m).any (fun q => decide (32 ≤ (vget (arch s).q q).cmds.length)) = true := by
        simp only [List.any_eq_true, decide_eq_true_eq, not_exists, not_and]
        exact fun k hk => Nat.not_le.mpr (hroom k (mem_maskQueues.mp hk))
      refine ⟨_, fenceEntry s1 m t,
        by rw [if_neg (by simp [show x.scalar.p = false from hp]), if_neg hm, if_neg hnone], ?_, ?_, fun k => ?_, ?_, ?_, ?_⟩
      · rw [← markGuard_fences s g src]
        rfl
      · rw [arch_ticketed, fenced, arch_setArch, markGuard_fences]
      · rw [queueOfCore, queueOfCore, arch_ticketed, fenced, arch_setArch]
        refine (vget_pushAll _ (maskQueues_nodup m) _ k).trans ?_
        simp only [mem_maskQueues, markGuard_q, s1]
        rfl
      · rw [arch_ticketed, fenced, ← longDue_markGuard s g src, ← markGuard_due s g src]
        simp only [longDue, shortDue, arch_setArch]
        rfl
      · rw [arch_ticketed, fenced, arch_setArch]
      · exact sparesQueuer_ticketed _ ⟨_, _, rfl⟩
  · rw [exec_engQwait_of_moves hx, markGuard_cur]
    refine ⟨fun hp => by rw [if_pos hp], fun hp hq => ?_, fun hp hq hn => ?_, fun hp hq hn => ?_, fun k hp hk => ⟨fun hn => ?_, fun hn => ?_⟩⟩
    · rw [if_neg (by simp [show x.scalar.p = false from hp]), if_neg (show ¬ q = 7 by omega), dif_neg (show ¬ q < 5 by omega)]
    · rw [if_neg (by simp [show x.scalar.p = false from hp]), if_pos hq, if_pos hn]
    · rw [if_neg (by simp [show x.scalar.p = false from hp]), if_pos hq, if_neg (Nat.not_le.mpr hn)]
    · have hlt : q < 5 := by rw [hk]; exact k.isLt
      have hkq : (⟨q, hlt⟩ : Fin 5) = k := Fin.ext hk
      rw [if_neg (by simp [show x.scalar.p = false from hp]), if_neg (show ¬ q = 7 by omega), dif_pos hlt, hkq, if_pos hn]
    · have hlt : q < 5 := by rw [hk]; exact k.isLt
      have hkq : (⟨q, hlt⟩ : Fin 5) = k := Fin.ext hk
      rw [if_neg (by simp [show x.scalar.p = false from hp]), if_neg (show ¬ q = 7 by omega), dif_pos hlt, hkq, if_neg (Nat.not_le.mpr hn)]
  · rw [exec_engQpoll_of_moves hx]
    refine ⟨fun hp => by rw [if_pos hp], fun hp hm => ?_, fun hp hm => ?_⟩
    · rw [if_neg (by simp [show x.scalar.p = false from hp]), if_pos hm]
    · obtain ⟨low, hbit, hlow, hbits, hzero, hdone⟩ := pollWord_claim (startArch s1) hm
      refine ⟨_, _, low, by rw [if_neg (by simp [show x.scalar.p = false from hp]), if_neg hm], hbit, hlow, hbits, hzero, hdone, ?_, ?_, ?_, ?_, ?_⟩
      · rw [arch_ticketed, longDue_markGuard, markGuard_due]
      · rw [arch_ticketed, ← markGuard_q s g src]
      · rw [arch_ticketed, ← markGuard_fences s g src]
      · rw [arch_ticketed]
      · have hrest := ticketed_rest (markGuard s g src) (wordToVec (pollWord (startArch s1) m))
        refine ⟨by rw [arch_ticketed], by rw [arch_ticketed]; exact committed_order_rest _, fun c hc => ?_, (congrArg State.quads hrest :),
          (congrArg State.hub hrest :), (congrArg State.edge hrest :), (congrArg State.stash hrest :), (congrArg State.far hrest :)⟩
        exact getCore_ticketed_other (markGuard s g src) _ hc

end Sys2Proof.Proofs
end

section
/-! PROOF. Taking a fault: the deciding one, the handler, the end of a task and its gang (R57, R301 to R305, R307). -/

namespace Sys2Proof.Proofs

open Sys2Proof.Machine Sys2Proof.Claims

/-! The deciding fault (R57). -/

/-- Fault `f` decides over `g`: by rank, then by slot. -/
def decidesOver (f g : SlotFault) : Prop := f.rank < g.rank ∨ (f.rank = g.rank ∧ f.slot ≤ g.slot)

theorem bestFault_cons (f : SlotFault) (l : List SlotFault) : bestFault (f :: l) =
    match bestFault l with
    | none => some f
    | some g => if g.rank < f.rank ∨ (g.rank = f.rank ∧ g.slot < f.slot) then some g else some f := rfl

theorem bestFault_eq_none_iff {l : List SlotFault} : bestFault l = none ↔ l = [] := by
  cases l with
  | nil => exact ⟨fun _ => rfl, fun _ => rfl⟩
  | cons f l =>
    rw [bestFault_cons]
    constructor
    · intro h
      split at h
      · exact nomatch h
      · split at h <;> exact nomatch h
    · exact fun h => nomatch h

theorem bestFault_decides {l : List SlotFault} {f : SlotFault} (h : bestFault l = some f) : f ∈ l ∧ ∀ g ∈ l, decidesOver f g := by
  induction l generalizing f with
  | nil => exact nomatch h
  | cons e l ih =>
    rw [bestFault_cons] at h
    cases hb : bestFault l with
    | none =>
      rw [hb] at h
      obtain rfl := Option.some.inj h
      rw [bestFault_eq_none_iff] at hb
      subst hb
      exact ⟨List.mem_cons_self, fun g hg => by rw [List.mem_singleton.mp hg]; exact .inr ⟨rfl, Nat.le_refl _⟩⟩
    | some b =>
      rw [hb] at h
      obtain ⟨hmem, hbest⟩ := ih hb
      by_cases hlt : b.rank < e.rank ∨ (b.rank = e.rank ∧ b.slot < e.slot)
      · simp only [if_pos hlt] at h
        obtain rfl := Option.some.inj h
        refine ⟨List.mem_cons_of_mem _ hmem, fun g hg => ?_⟩
        rcases List.mem_cons.mp hg with rfl | hg
        · exact hlt.imp_right fun hs => ⟨hs.1, Nat.le_of_lt hs.2⟩
        · exact hbest g hg
      · simp only [if_neg hlt] at h
        obtain rfl := Option.some.inj h
        refine ⟨List.mem_cons_self, fun g hg => ?_⟩
        rcases List.mem_cons.mp hg with rfl | hg
        · exact .inr ⟨rfl, Nat.le_refl _⟩
        · have := hbest g hg
          unfold decidesOver at this ⊢
          omega

/-! The handler (R304, R305). -/

theorem inHandler_eq_false {a : CoreArch} (h : a.seq.handler = none) : inHandler a = false := by rw [inHandler, h]; rfl

theorem takeFault_hrev {s : State} (info : Nat) (h : (arch s).seq.handler = none) : takeFault s 0x21 info =
    setArch s (enterHandler (arch s) 0x21 0 info (arch s).seq.pc ((arch s).csr.cyc + 1)) := by
  rw [takeFault, if_pos (show (0x21 : Nat) = cHrev from rfl), inHandler_eq_false h, if_neg (by decide)]

theorem takeFault_double {s : State} (info : Nat) (h : (arch s).seq.handler ≠ none) : takeFault s 0x21 info = endTask s s.cur 0x34 := by
  have hin : inHandler (arch s) = true := by
    rw [inHandler]
    exact Option.isSome_iff_ne_none.mpr h
  rw [takeFault, if_pos (show (0x21 : Nat) = cHrev from rfl), hin, if_pos rfl]
  rfl

theorem takeFault_other {s : State} {cause : Nat} (info : Nat) (h : cause ≠ 0x21) :
    takeFault s cause info = endTask s s.cur cause (endInfo cause info) := if_neg h

theorem vget_ofFn {α : Type} {n : Nat} (f : Fin n → α) (k : Fin n) : vget (Vector.ofFn f) k = f k := by
  simp [vget]

theorem enterHandler_claim (s : State) (info : Nat) (h : (arch s).seq.handler = none) :
    let t := takeFault s 0x21 info
    let a := arch s
    (arch t).csr = { a.csr with uepc := a.seq.pc, ucause := 0x21, uinfo := BitVec.ofNat 64 info } ∧
    (arch t).seq.handler = some (a.seq.loops.length, a.seq.calls.length) ∧ (arch t).seq.pc = a.csr.uiv ∧
    (arch t).seq.loops = a.seq.loops ∧ (arch t).seq.calls = a.seq.calls ∧
    (∀ k : Fin 8, vget (arch t).seq.shadow.g k = vget a.regs.g (Fin.ofNat 32 (24 + k.val))) ∧
    (∀ k : Fin 2, vget (arch t).seq.shadow.s k = vget a.regs.s (Fin.ofNat 12 (10 + k.val))) ∧
    (arch t).regs = a.regs ∧ (arch t).ops = a.ops ∧ (arch t).res = a.res ∧ (arch t).due = a.due ∧ (arch t).order = a.order ∧
    (∀ c, c ≠ s.cur → getCore t c = getCore s c) ∧ t.stash = s.stash ∧ t.far = s.far ∧ t.hub = s.hub := by
  intro t a
  have ht : t = setArch s (enterHandler (arch s) 0x21 0 info (arch s).seq.pc ((arch s).csr.cyc + 1)) := takeFault_hrev info h
  have harch : arch t = enterHandler a 0x21 0 info a.seq.pc (a.csr.cyc + 1) := by rw [ht, arch_setArch]
  rw [harch]
  refine ⟨rfl, rfl, rfl, rfl, rfl, fun k => ?_, fun k => ?_, rfl, rfl, rfl, rfl, rfl, fun c hc => ?_, by rw [ht]; rfl, by rw [ht]; rfl,
    by rw [ht]; rfl⟩
  · exact (vget_ofFn _ k).trans (readG_outside h _)
  · exact (vget_ofFn _ k).trans (readS_outside h _)
  · rw [ht]
    exact getCore_setArch_other s _ (Ne.symm hc)

/-! The end of one task (R307). -/

/-- Of `s` only the cores, the quads, the hub and the counter of free values have changed. -/
def EndStep (s t : State) : Prop := { t with cores := s.cores, quads := s.quads, hub := s.hub, freeCtr := s.freeCtr } = s

theorem EndStep.refl (s : State) : EndStep s s := rfl

theorem EndStep.trans {s t u : State} (h : EndStep s t) (k : EndStep t u) : EndStep s u := by
  unfold EndStep at h k ⊢
  exact Eq.trans (congrArg (fun a : State => { a with cores := s.cores, quads := s.quads, hub := s.hub, freeCtr := s.freeCtr }) k) h

theorem EndStep.stash {s t : State} (h : EndStep s t) : t.stash = s.stash := (congrArg State.stash h :)
theorem EndStep.far {s t : State} (h : EndStep s t) : t.far = s.far := (congrArg State.far h :)
theorem EndStep.cur {s t : State} (h : EndStep s t) : t.cur = s.cur := (congrArg State.cur h :)

theorem endStep_modCore (s : State) (c : Nat) (f : Core → Core) : EndStep s (modCore s c f) := rfl
theorem endStep_modQuad (s : State) (q : Nat) (f : Quad → Quad) : EndStep s (modQuad s q f) := rfl

/-- A core whose task has ended with a cause. -/
def endedCore (x : Core) (cause : Nat) (r : TaskEnd) : Core :=
  { x with status := .ended cause, arch := loseTask (dropCommands x.arch), mark := none, freezeDog := 0, waitDog := 0, report := some r,
           rerun := none }

/-- The state before the task of a member ends: a free value is taken for the address of a fatal cause. -/
def beforeEnd (s : State) (cause : Nat) : State := if isFatal cause then (takeFree s).2 else s

theorem getCore_beforeEnd (s : State) (cause c : Nat) : getCore (beforeEnd s cause) c = getCore s c := by
  unfold beforeEnd
  split <;> rfl

theorem endStep_beforeEnd (s : State) (cause : Nat) : EndStep s (beforeEnd s cause) := by
  unfold beforeEnd
  split <;> rfl

theorem hub_beforeEnd (s : State) (cause : Nat) : (beforeEnd s cause).hub = s.hub := by
  unfold beforeEnd
  split <;> rfl

theorem getCore_discardCommands_same (s : State) (c : Nat) :
    getCore (discardCommands s c) c = { getCore s c with arch := dropCommands (getCore s c).arch } := getCore_modCore_same _ _ _

theorem getCore_discardCommands_other (s : State) {c d : Nat} (h : d ≠ c) : getCore (discardCommands s c) d = getCore s d :=
  getCore_modCore_other _ _ (Ne.symm h)

theorem endStep_discardCommands (s : State) (c : Nat) : EndStep s (discardCommands s c) := rfl

/-- A core whose commands are discarded, as its task ends. -/
def endCore (x : Core) (cause : Nat) (r : TaskEnd) : Core :=
  { x with status := .ended cause, arch := loseTask x.arch, mark := none, freezeDog := 0, waitDog := 0, report := some r, rerun := none }

theorem endMember_eq (s : State) (c cause : Nat) (info : Option Nat) : endMember s c cause info =
    modQuad (modCore (discardCommands (beforeEnd s cause) c) c (fun x => endCore x cause (taskEnd s c cause info))) (quadOf c)
      (fun q => if q.hold = some c then { q with hold := none } else q) := rfl

theorem getCore_endMember_same (s : State) (c cause : Nat) (info : Option Nat) :
    getCore (endMember s c cause info) c = endedCore (getCore s c) cause (taskEnd s c cause info) := by
  rw [endMember_eq, modQuad, getCore_setQuad, getCore_modCore_same, getCore_discardCommands_same, getCore_beforeEnd]
  rfl

theorem getCore_endMember_other (s : State) {c d : Nat} (cause : Nat) (info : Option Nat) (h : d ≠ c) :
    getCore (endMember s c cause info) d = getCore s d := by
  rw [endMember_eq, modQuad, getCore_setQuad, getCore_modCore_other _ _ (Ne.symm h), getCore_discardCommands_other _ h, getCore_beforeEnd]

theorem endStep_endMember (s : State) (c cause : Nat) (info : Option Nat) : EndStep s (endMember s c cause info) := by
  rw [endMember_eq]
  exact (((endStep_beforeEnd s cause).trans (endStep_discardCommands _ c)).trans (endStep_modCore _ _ _)).trans (endStep_modQuad _ _ _)

theorem gangs_endMember (s : State) (c cause : Nat) (info : Option Nat) : (endMember s c cause info).hub.gangs = s.hub.gangs := by
  have h : (endMember s c cause info).hub.gangs = (beforeEnd s cause).hub.gangs := by
    rw [endMember_eq]
    rfl
  rw [h, hub_beforeEnd]

/-! The end of a gang (R307). -/

/-- The end of one other member of the gang. -/
def endOther (g : Gang) (c : Nat) (s : State) (d : Nat) : State :=
  if d = c ∨ (getCore s d).gang ≠ some g.ctx then s
  else if isLive (getCore s d) then endMember s d cGangEnded
  else discardCommands s d

theorem endGang_eq (s : State) (g : Gang) (c cause : Nat) (info : Option Nat) : endGang s g c cause info =
    let s2 := (gangCores g).foldl (endOther g c) (endMember s c cause info)
    setGang { s2 with hub := { s2.hub with chans := s2.hub.chans.map (fun x =>
                { x with parts := x.parts.filter (fun p => !(gangCores g).contains p.core) }) } }
      { g with st := .finishing, image := none, cause := match g.cause with | some k => some k | none => some (cause, rankOf g c) } := rfl

theorem endStep_endOther (g : Gang) (c : Nat) (s : State) (d : Nat) : EndStep s (endOther g c s d) := by
  unfold endOther
  split
  · exact EndStep.refl s
  · split
    · exact endStep_endMember ..
    · exact endStep_discardCommands ..

theorem getCore_endOther_other (g : Gang) (c : Nat) (s : State) {d e : Nat} (h : e ≠ d) : getCore (endOther g c s d) e = getCore s e := by
  unfold endOther
  split
  · rfl
  · split
    · exact getCore_endMember_other _ _ _ h
    · exact getCore_discardCommands_other _ h

theorem endOther_self (g : Gang) (c : Nat) (s : State) : endOther g c s c = s := if_pos (.inl rfl)

theorem endStep_endOthers (g : Gang) (c : Nat) (l : List Nat) (s : State) : EndStep s (l.foldl (endOther g c) s) := by
  induction l generalizing s with
  | nil => exact EndStep.refl s
  | cons d l ih => exact (endStep_endOther g c s d).trans (ih _)

/-- The core that ended first, and the cores that are not listed, stay. -/
theorem getCore_endOthers_kept (g : Gang) (c : Nat) (l : List Nat) {e : Nat} (h : e = c ∨ e ∉ l) (s : State) :
    getCore (l.foldl (endOther g c) s) e = getCore s e := by
  induction l generalizing s with
  | nil => rfl
  | cons d l ih =>
    rw [List.foldl_cons, ih (h.imp_right fun hn hm => hn (List.mem_cons_of_mem _ hm))]
    rcases h with rfl | h
    · by_cases hd : d = e
      · rw [hd, endOther_self]
      · exact getCore_endOther_other g e s (Ne.symm hd)
    · exact getCore_endOther_other g c s fun he => h (he ▸ List.mem_cons_self)

/-- A member that has ended stays so. -/
theorem status_endOther_ended (g : Gang) (c : Nat) (s : State) (d : Nat) {e n : Nat} (h : (getCore s e).status = .ended n) :
    (getCore (endOther g c s d) e).status = .ended n := by
  by_cases hde : e = d
  · subst hde
    unfold endOther
    split
    · exact h
    · rw [if_neg (by rw [isLive, h]; exact Bool.false_ne_true), getCore_discardCommands_same]
      exact h
  · rw [getCore_endOther_other g c s hde, h]

theorem status_endOthers_ended (g : Gang) (c : Nat) (l : List Nat) {e n : Nat} (s : State) (h : (getCore s e).status = .ended n) :
    (getCore (l.foldl (endOther g c) s) e).status = .ended n := by
  induction l generalizing s with
  | nil => exact h
  | cons d l ih => exact ih _ (status_endOther_ended g c s d h)

/-- Every other live member of the list ends with cause 0x37. -/
theorem status_endOthers (g : Gang) (c : Nat) (l : List Nat) {d : Nat} (hd : d ∈ l) (hne : d ≠ c) (s : State)
    (hlive : isLive (getCore s d) = true) (hgang : (getCore s d).gang = some g.ctx) :
    (getCore (l.foldl (endOther g c) s) d).status = .ended 0x37 := by
  induction l generalizing s with
  | nil => exact absurd hd List.not_mem_nil
  | cons e l ih =>
    rw [List.foldl_cons]
    by_cases hed : e = d
    · subst hed
      refine status_endOthers_ended g c l _ ?_
      have hnot : ¬ (e = c ∨ (getCore s e).gang ≠ some g.ctx) := fun h => h.elim hne fun h => h hgang
      rw [endOther, if_neg hnot, if_pos hlive, getCore_endMember_same]
      rfl
    · have hkeep := getCore_endOther_other g c s (Ne.symm hed)
      exact ih ((List.mem_cons.mp hd).resolve_left (Ne.symm hed)) _ (by rw [hkeep]; exact hlive) (by rw [hkeep]; exact hgang)

theorem find?_alPut_same {α : Type} (l : List (Nat × α)) (n : Nat) (x : α) : (alPut l n x).find? (fun e => e.1 = n) = some (n, x) := by
  induction l with
  | nil => simp [alPut]
  | cons e l ih =>
    obtain ⟨k, v⟩ := e
    simp only [alPut]
    split
    · simp
    · split
      · simp
      · next hne =>
        rw [List.find?_cons, decide_eq_false (Ne.symm hne)]
        exact ih

theorem getGang_setGang_same (s : State) (g : Gang) : getGang (setGang s g) g.ctx = some g := by
  rw [getGang, setGang, find?_alPut_same]
  rfl

theorem endTask_of_gang {s : State} {c : Nat} {g : Gang} (h : gangOf s c = some g) (cause : Nat) (info : Option Nat) :
    endTask s c cause info = endGang s g c cause info := by rw [endTask, h]

theorem endTask_of_none {s : State} {c : Nat} (h : gangOf s c = none) (cause : Nat) (info : Option Nat) :
    endTask s c cause info = endMember s c cause info := by rw [endTask, h]

theorem getCore_endGang (s : State) (g : Gang) (c cause : Nat) (info : Option Nat) (d : Nat) : getCore (endGang s g c cause info) d =
    getCore ((gangCores g).foldl (endOther g c) (endMember s c cause info)) d := rfl

theorem endStep_endGang (s : State) (g : Gang) (c cause : Nat) (info : Option Nat) : EndStep s (endGang s g c cause info) := by
  refine ((endStep_endMember s c cause info).trans (endStep_endOthers g c (gangCores g) _)).trans ?_
  rfl

theorem endStep_endTask (s : State) (c cause : Nat) (info : Option Nat) : EndStep s (endTask s c cause info) := by
  unfold endTask
  split
  · exact endStep_endGang ..
  · exact endStep_endMember ..

/-- The core whose task ends stands as ended, whatever happens to its gang. -/
theorem getCore_endTask_same (s : State) (c cause : Nat) (info : Option Nat) :
    getCore (endTask s c cause info) c = endedCore (getCore s c) cause (taskEnd s c cause info) := by
  cases h : gangOf s c with
  | none => rw [endTask_of_none h, getCore_endMember_same]
  | some g => rw [endTask_of_gang h, getCore_endGang, getCore_endOthers_kept g c _ (.inl rfl), getCore_endMember_same]

theorem endGang_claim {s : State} {c : Nat} {g : Gang} (h : gangOf s c = some g) (cause : Nat) (info : Option Nat) :
    let t := endTask s c cause info
    (∀ d ∈ gangCores g, d ≠ c → isLive (getCore s d) = true → (getCore s d).gang = some g.ctx → (getCore t d).status = .ended 0x37) ∧
    (∀ d, d ∉ gangCores g → d ≠ c → getCore t d = getCore s d) ∧
    (g.cause = none → ∃ h, getGang t g.ctx = some h ∧ h.st = .finishing ∧ h.cause = some (cause, rankOf g c)) := by
  intro t
  have ht : t = endGang s g c cause info := endTask_of_gang h cause info
  rw [ht]
  refine ⟨fun d hd hne hlive hgang => ?_, fun d hd hne => ?_, fun hnone => ?_⟩
  · have hkeep := getCore_endMember_other s cause info hne
    rw [getCore_endGang]
    exact status_endOthers g c _ hd hne _ (by rw [hkeep]; exact hlive) (by rw [hkeep]; exact hgang)
  · rw [getCore_endGang, getCore_endOthers_kept g c _ (.inr hd), getCore_endMember_other _ _ _ hne]
  · refine ⟨_, (congrArg (getGang · g.ctx) (endGang_eq s g c cause info)).trans (getGang_setGang_same _ _), rfl, ?_⟩
    simp only [hnone]

theorem taskEnd_epc {s : State} {c cause : Nat} (info : Option Nat) (h : cause < 0x35) :
    (taskEnd s c cause info).epc = (getCore s c).arch.seq.pc := by
  have hf : isFatal cause = false := decide_eq_false (by omega)
  rw [taskEnd, hf, if_neg (by decide)]

/-- Settles O45: the deciding fault by induction on the list; the rest by what ending a member does to each core. -/
theorem faultEntry : Obligations.FaultEntry := by
  refine ⟨fun l f h => bestFault_decides h, fun s i cause y hy => ⟨_, raise_in_bundle hy cause, rfl, rfl, rfl⟩,
    fun s info h => enterHandler_claim s info h, fun s info h => takeFault_double info h, fun s cause info h => takeFault_other info h,
    fun s c cause info => ?_⟩
  intro t
  have hstep : EndStep s t := endStep_endTask s c cause info
  have hsame : getCore t c = endedCore (getCore s c) cause (taskEnd s c cause info) := getCore_endTask_same s c cause info
  refine ⟨by rw [hsame]; rfl, hstep.stash, hstep.far, ⟨taskEnd s c cause info, by rw [hsame]; rfl, rfl, rfl, taskEnd_epc info⟩,
    fun g hg => endGang_claim hg cause info, fun hnone d hd => ?_⟩
  exact (congrArg (getCore · d) (endTask_of_none hnone cause info)).trans (getCore_endMember_other s cause info hd)

end Sys2Proof.Proofs
end

section
/-! PROOF. The delivery of results (R30, R58, R115). -/

namespace Sys2Proof.Proofs

open Sys2Proof.Machine Sys2Proof.Claims

/-! Results in the order in which they reach their ports (R58). -/

/-- Result `d` reaches its port no later than `e`. -/
def noLater (d e : Due) : Prop := d.at_ < e.at_ ∨ (d.at_ = e.at_ ∧ d.ord ≤ e.ord)

theorem mem_insertDue {d e : Due} {l : List Due} : e ∈ insertDue d l ↔ e = d ∨ e ∈ l := by
  induction l with
  | nil => simp [insertDue]
  | cons x l ih =>
    rw [insertDue]
    split
    · rw [List.mem_cons]
    · rw [List.mem_cons, ih, List.mem_cons]
      exact or_left_comm

theorem insertDue_sorted (d : Due) {l : List Due} (h : l.Pairwise noLater) : (insertDue d l).Pairwise noLater := by
  induction l with
  | nil => exact List.pairwise_singleton _ _
  | cons x l ih =>
    obtain ⟨hx, hl⟩ := List.pairwise_cons.mp h
    rw [insertDue]
    split
    next hd =>
      refine List.pairwise_cons.mpr ⟨fun e he => ?_, h⟩
      rcases List.mem_cons.mp he with rfl | he
      · exact hd
      · have := hx e he
        unfold noLater at this ⊢
        omega
    next hd =>
      refine List.pairwise_cons.mpr ⟨fun e he => ?_, ih hl⟩
      rcases mem_insertDue.mp he with rfl | he
      · unfold noLater
        omega
      · exact hx e he

theorem mem_sortDues {e : Due} {l : List Due} : e ∈ sortDues l ↔ e ∈ l := by
  induction l with
  | nil => rfl
  | cons d l ih => rw [sortDues, List.foldr_cons, mem_insertDue, List.mem_cons, ← ih]; rfl

theorem sortDues_sorted (l : List Due) : (sortDues l).Pairwise noLater := by
  induction l with
  | nil => exact List.Pairwise.nil
  | cons d l ih => exact insertDue_sorted d ih

/-- Results laid into their ports one after another. -/
def layDues (l : List Due) (a : CoreArch) : CoreArch := l.foldl (fun a d => setRes a d.port { val := d.val, empty := false }) a

theorem layDues_res (l : List Due) (a : CoreArch) : ∃ r, layDues l a = { a with res := r } := by
  induction l generalizing a with
  | nil => exact ⟨a.res, rfl⟩
  | cons d l ih =>
    obtain ⟨r, hr⟩ := ih (setRes a d.port { val := d.val, empty := false })
    exact ⟨r, hr⟩

theorem getRes_layDues_other {l : List Due} {r : PortId} (h : ∀ d ∈ l, d.port ≠ r) (a : CoreArch) : getRes (layDues l a) r = getRes a r := by
  induction l generalizing a with
  | nil => rfl
  | cons d l ih =>
    refine (ih (fun e he => h e (List.mem_cons_of_mem _ he)) _).trans ?_
    exact getRes_setRes_other _ _ (Ne.symm (h d List.mem_cons_self))

/-- A port holds the last of the results that name it. -/
theorem getRes_layDues {l : List Due} (hl : l.Pairwise noLater) {r : PortId} (h : ∃ d ∈ l, d.port = r) (a : CoreArch) :
    ∃ d ∈ l, d.port = r ∧ getRes (layDues l a) r = { val := d.val, empty := false } ∧ ∀ e ∈ l, e.port = r → noLater e d := by
  induction l generalizing a with
  | nil =>
    obtain ⟨d, hd, -⟩ := h
    exact absurd hd List.not_mem_nil
  | cons x l ih =>
    obtain ⟨hx, hl⟩ := List.pairwise_cons.mp hl
    by_cases hlater : ∃ d ∈ l, d.port = r
    · obtain ⟨d, hd, hport, hget, hlast⟩ := ih hl hlater (setRes a x.port { val := x.val, empty := false })
      refine ⟨d, List.mem_cons_of_mem _ hd, hport, hget, fun e he hep => ?_⟩
      rcases List.mem_cons.mp he with rfl | he
      · exact hx d hd
      · exact hlast e he hep
    · have hnone : ∀ d ∈ l, d.port ≠ r := fun d hd hp => hlater ⟨d, hd, hp⟩
      obtain ⟨d, hd, hport⟩ := h
      obtain rfl : d = x := (List.mem_cons.mp hd).resolve_right fun hd => hnone d hd hport
      refine ⟨d, List.mem_cons_self, hport, ?_, fun e he hep => ?_⟩
      · refine (getRes_layDues_other hnone _).trans ?_
        rw [← hport]
        exact getRes_setRes_same ..
      · rcases List.mem_cons.mp he with rfl | he
        · exact .inr ⟨rfl, Nat.le_refl _⟩
        · exact absurd hep (hnone e he)

/-! The journal (R309). -/

/-- A journal record changes the journal of its core. -/
theorem journal_eq (s : State) (c : Nat) (r : JRec) (n : Nat) : ∃ j, journal s c r n = modCore s c (fun x => { x with jn := j }) := by
  unfold journal
  dsimp only
  split
  · exact ⟨_, rfl⟩
  · exact openWindow_eq s c _

theorem journals_eq (s : State) (c : Nat) (f : FarOp → JRec × Nat) (l : List FarOp) :
    (getCore (l.foldl (fun s x => journal s c (f x).1 (f x).2) s) c).arch = (getCore s c).arch ∧
      sparesOthers s c (l.foldl (fun s x => journal s c (f x).1 (f x).2) s) := by
  induction l generalizing s with
  | nil => exact ⟨rfl, fun _ _ => rfl, rfl, rfl⟩
  | cons x l ih =>
    obtain ⟨j, hj⟩ := journal_eq s c (f x).1 (f x).2
    obtain ⟨harch, hothers, hstash, hfar⟩ := ih (journal s c (f x).1 (f x).2)
    rw [hj] at harch hothers hstash hfar
    rw [List.foldl_cons, hj]
    refine ⟨harch.trans (by rw [getCore_modCore_same]), fun k hk => (hothers k hk).trans (getCore_modCore_other s _ (Ne.symm hk)), hstash, hfar⟩

/-! The delivery itself. -/

/-- The far loads and atomics that have arrived by cycle `n`, as the model finds them. -/
theorem arrived_eq (n : Nat) (f : FarOp) : (decide (f.kind ≠ .prefetch ∧ f.due ≤ n) && farArrived f) = hasArrived n f := by
  rw [hasArrived, farArrived, Bool.decide_and]

theorem farDue_eq (f : FarOp) : farDue f = farResult f := rfl

/-- A core with its results delivered. -/
def delivered (a : CoreArch) : CoreArch :=
  layDues (sortDues (a.due.filter (fun d => decide (d.at_ ≤ a.csr.cyc)) ++ (a.order.far.filter (hasArrived a.csr.cyc)).map farResult))
    { a with due := a.due.filter (fun d => decide (a.csr.cyc < d.at_)),
             order := { a.order with far := a.order.far.filter (fun f => !hasArrived a.csr.cyc f) } }

theorem filter_not_arrived (n : Nat) (l : List FarOp) :
    l.filter (fun f => !(l.filter (hasArrived n)).contains f) = l.filter (fun f => !hasArrived n f) := by
  refine List.filter_congr fun f hf => ?_
  congr 1
  rw [Bool.eq_iff_iff, List.contains_iff_mem, List.mem_filter]
  exact and_iff_right hf

theorem getCore_modArchOf_same (s : State) (c : Nat) (f : CoreArch → CoreArch) :
    getCore (modArchOf s c f) c = { getCore s c with arch := f (getCore s c).arch } := getCore_modCore_same _ _ _

theorem exec_resultDelivery (c : Nat) (s : State) : ∃ t, exec (.resultDelivery c) s = .next t ∧
    coreArch t c = delivered (coreArch (deliverHandles s c) c) ∧ sparesOthers (deliverHandles s c) c t := by
  obtain ⟨harch, hothers, hstash, hfar⟩ := journals_eq (modArchOf (deliverHandles s c) c delivered) c
    (fun f => (.load (loadRec f), if f.kind = .load then 16 + ceilDiv f.size 8 * 8 else 0))
    ((coreArch (deliverHandles s c) c).order.far.filter (hasArrived (coreArch (deliverHandles s c) c).csr.cyc))
  refine ⟨_, ?_, harch.trans (by rw [getCore_modArchOf_same]; rfl),
    fun k hk => (hothers k hk).trans (getCore_modCore_other _ _ (Ne.symm hk)), hstash, hfar⟩
  change execResultDelivery c s = _
  simp only [execResultDelivery, arrived_eq, modArchOf, modCore, filter_not_arrived, delivered, coreArch]
  rfl

theorem deliverHandles_none {s : State} {c : Nat} (h : (coreArch s c).hdue = []) : deliverHandles s c = s := by
  have h' : (getCore s c).arch.hdue = [] := h
  simp only [deliverHandles, h', List.filter_nil, List.foldl_nil]

/-- A core with a translation that is due laid into its handle, its status on the way. -/
def handed (a : CoreArch) (d : HDue) : CoreArch :=
  { a with hdue := a.hdue.erase d,
           regs := if d.live then { a.regs with h := vset a.regs.h d.k d.hnd } else a.regs,
           due := a.due ++ [{ port := .xlR, at_ := d.at_, ord := d.ord, val := cleanV (wordToVec (handleStatus d.hnd)), short := true }] }

theorem deliverHandles_one {s : State} {c : Nat} {d : HDue} (h : (coreArch s c).hdue = [d]) (hdue : d.at_ ≤ (coreArch s c).csr.cyc)
    (hmade : d.hnd.made = true) : deliverHandles s c = modArchOf s c (fun a => handed a d) := by
  have h' : (getCore s c).arch.hdue = [d] := h
  have hready : (decide (d.at_ ≤ (getCore s c).arch.csr.cyc) && (d.hnd.made || pageReady s (((getCore s c).gang).getD 0) d.va)) = true := by
    rw [hmade, Bool.true_or, Bool.and_true]
    exact decide_eq_true hdue
  have hhandle : arrivedHandle s c d = d.hnd := if_pos hmade
  simp only [deliverHandles, h', List.filter_cons, hready, if_true, List.filter_nil, List.foldl_cons, List.foldl_nil, hhandle]
  rfl

theorem delivered_frame (a : CoreArch) : (delivered a).due = a.due.filter (fun d => decide (a.csr.cyc < d.at_)) ∧
    (delivered a).order = { a.order with far := a.order.far.filter (fun f => !hasArrived a.csr.cyc f) } ∧ (delivered a).regs = a.regs ∧
    (delivered a).ops = a.ops ∧ (delivered a).csr = a.csr ∧ (delivered a).hdue = a.hdue := by
  unfold delivered
  obtain ⟨r, hr⟩ := layDues_res
    (sortDues (a.due.filter (fun d => decide (d.at_ ≤ a.csr.cyc)) ++ (a.order.far.filter (hasArrived a.csr.cyc)).map farResult))
    { a with due := a.due.filter (fun d => decide (a.csr.cyc < d.at_)),
             order := { a.order with far := a.order.far.filter (fun f => !hasArrived a.csr.cyc f) } }
  rw [hr]
  exact ⟨rfl, rfl, rfl, rfl, rfl, rfl⟩

/-- Settles O46: the due results are laid into their ports in the order of their dues, so that the last one stays. -/
theorem resultDelivery : Obligations.ResultDelivery := by
  refine ⟨fun s c hnone => ?_, fun s c d hone hdue hfar hat hmade => ?_⟩
  · intro n far ready
    obtain ⟨t, hexec, harch, hspares⟩ := exec_resultDelivery c s
    rw [deliverHandles_none hnone] at harch hspares
    obtain ⟨hd, ho, hr, hop, hcsr, -⟩ := delivered_frame (coreArch s c)
    refine ⟨t, hexec, hspares, by rw [harch, hd], by rw [harch, ho], fun r hno => ?_, fun r hyes => ?_, by rw [harch, hr],
      by rw [harch, hop], by rw [harch, hcsr]⟩
    · rw [harch]
      exact getRes_layDues_other (fun d hd => hno d (mem_sortDues.mp hd)) _
    · obtain ⟨d, hd, hport⟩ := hyes
      obtain ⟨e, he, hep, hget, hlast⟩ := getRes_layDues (sortDues_sorted ready) ⟨d, mem_sortDues.mpr hd, hport⟩
        { coreArch s c with
          due := (coreArch s c).due.filter (fun d => decide ((coreArch s c).csr.cyc < d.at_)),
          order := { (coreArch s c).order with far := (coreArch s c).order.far.filter (fun f => !hasArrived (coreArch s c).csr.cyc f) } }
      refine ⟨e, mem_sortDues.mp he, hep, by rw [harch]; exact hget, fun x hx hxp => hlast x (mem_sortDues.mpr hx) hxp⟩
  · obtain ⟨t, hexec, harch, hspares⟩ := exec_resultDelivery c s
    have hhanded := deliverHandles_one hone hat hmade
    have hcore : coreArch (deliverHandles s c) c = handed (coreArch s c) d := by
      rw [hhanded, coreArch, getCore_modArchOf_same]
      rfl
    rw [hcore] at harch
    obtain ⟨hothers, hstash, hfarmem⟩ := hspares
    rw [hhanded] at hothers hstash hfarmem
    obtain ⟨-, -, hregs, -, -, hh⟩ := delivered_frame (handed (coreArch s c) d)
    have hnofar : (coreArch s c).order.far.filter (hasArrived (coreArch s c).csr.cyc) = [] :=
      List.filter_eq_nil_iff.mpr fun f hf => by rw [hfar f hf]; exact Bool.false_ne_true
    refine ⟨t, hexec, ⟨fun k hk => (hothers k hk).trans (getCore_modCore_other s _ (Ne.symm hk)), hstash, hfarmem⟩, ?_, ?_, fun k hk => ?_, ?_⟩
    · rw [harch, hh, handed, hone, List.erase_cons_head]
    · rw [harch, hregs, handed]
      cases d.live
      · rfl
      · exact vget_vset_same ..
    · rw [harch, hregs, handed]
      cases d.live
      · rfl
      · exact vget_vset_other _ _ (Ne.symm hk)
    · have hready : (handed (coreArch s c) d).due.filter (fun e => decide (e.at_ ≤ (coreArch s c).csr.cyc)) =
          [{ port := .xlR, at_ := d.at_, ord := d.ord, val := cleanV (wordToVec (handleStatus d.hnd)), short := true }] := by
        simp only [handed, hdue, List.nil_append, List.filter_cons, hat, decide_true, if_true, List.filter_nil]
      rw [harch, delivered]
      have hcsr : (handed (coreArch s c) d).csr = (coreArch s c).csr := rfl
      have horder : (handed (coreArch s c) d).order = (coreArch s c).order := rfl
      rw [hcsr, horder, hready, hnofar]
      exact getRes_setRes_same ..

end Sys2Proof.Proofs
end

section
/-! PROOF. Near accesses whose chunks stand ready: what is read, and what the access leaves as it was (R81, R110, R111, R113, R119, R201,
R206, R221). -/

namespace Sys2Proof.Proofs

open Sys2Proof.Machine Sys2Proof.Claims

/-! The checks of a near access. -/

theorem nearAddr_eq (x : AddrIn) (o : BitVec 6) (size : Nat) : nearAddr x.a.v o size = effective x o size := by
  rw [nearAddr, effective, BitVec.toNat_ofInt]
  rfl

theorem mem_chunkRange {a n k : Nat} (hn : 0 < n) :
    k ∈ range' (a / 64) (if n = 0 then 0 else (a + n - 1) / 64 - a / 64 + 1) ↔ a / 64 ≤ k ∧ k ≤ (a + n - 1) / 64 := by
  rw [if_neg (by omega), mem_range']
  have : a / 64 ≤ (a + n - 1) / 64 := Nat.div_le_div_right (by omega)
  omega

theorem spanAssigned_iff (s : State) (q a : Nat) {n : Nat} (hn : 0 < n) : spanAssigned s q a n = true ↔
    a + n ≤ 4161536 ∧ ∀ k, a / 64 ≤ k → k ≤ (a + n - 1) / 64 → regionOf s q (64 * k) ≠ .unassigned := by
  rw [spanAssigned, Bool.and_eq_true, decide_eq_true_eq, List.all_eq_true]
  refine and_congr Iff.rfl ⟨fun h k h1 h2 => ?_, fun h k hk => ?_⟩
  · exact of_decide_eq_true (h k ((mem_chunkRange hn).mpr ⟨h1, h2⟩))
  · obtain ⟨h1, h2⟩ := (mem_chunkRange hn).mp hk
    exact decide_eq_true (h k h1 h2)

theorem spanAssigned_eq_not {s : State} {a n : Nat} (hn : 0 < n) (h : ¬ assigned s a n) : spanAssigned s (quadOf s.cur) a n = false :=
  Bool.of_not_eq_true fun ht => h ((spanAssigned_iff s _ a hn).mp ht)

theorem spanAssigned_eq {s : State} {a n : Nat} (hn : 0 < n) (h : assigned s a n) : spanAssigned s (quadOf s.cur) a n = true :=
  (spanAssigned_iff s _ a hn).mpr h

theorem leaseWritable_eq_false (g : Option Gang) (va : Nat) : leaseWritable g va = false ↔
    ∃ x, g = some x ∧ ∀ r ∈ x.lease, r.rw = true → ¬ (r.vpage ≤ va / 2097152 ∧ va / 2097152 < r.vpage + r.pages) := by
  cases g with
  | none => simp [leaseWritable]
  | some x => simp [leaseWritable, List.any_eq_false]

/-- R206: a chunk of a quad that its cores may not write. -/
theorem chunkProtected_iff (s : State) (k : Nat) : chunkProtected s (quadOf s.cur) (64 * k) = true ↔ readOnlyChunk s k := by
  have hk : 64 * k / 64 * 64 = 64 * k := by omega
  rw [chunkProtected, hk]
  constructor
  · intro h
    split at h
    next n w hr =>
      refine ⟨n, w, hr, ?_⟩
      simp only [Bool.or_eq_true, Bool.and_eq_true, Bool.not_eq_true', leaseWritable_eq_false] at h
      rwa [or_assoc] at h
    next => exact nomatch h
  · rintro ⟨n, w, hr, h⟩
    rw [Claims.myQuad] at hr
    rw [quadOf, hr]
    simp only [Bool.or_eq_true, Bool.and_eq_true, Bool.not_eq_true', leaseWritable_eq_false, or_assoc]
    exact h

theorem spanProtected_iff (s : State) (a : Nat) {n : Nat} (hn : 0 < n) : spanProtected s (quadOf s.cur) a n = true ↔
    ∃ k, (a / 64 ≤ k ∧ k ≤ (a + n - 1) / 64) ∧ readOnlyChunk s k := by
  rw [spanProtected, List.any_eq_true]
  exact exists_congr fun k => and_congr (mem_chunkRange hn) (chunkProtected_iff s k)

theorem isMapped_iff (s : State) (a : Nat) : isMapped s s.cur a = true ↔ ∃ n w, regionOf s (myQuad s) a = .mapped n w := by
  rw [isMapped, quadOf, myQuad]
  cases regionOf s (s.cur / 4) a <;> simp

/-! Chunks that stand ready (R204, R230). -/

theorem mem_spanChunks {l : List (Nat × Nat)} {k : Nat} :
    k ∈ spanChunks l ↔ ∃ p ∈ l, p.2 ≠ 0 ∧ p.1 / 64 ≤ k ∧ k ≤ (p.1 + p.2 - 1) / 64 := by
  rw [spanChunks, List.mem_eraseDups, List.mem_flatMap]
  refine exists_congr fun p => and_congr Iff.rfl ?_
  by_cases hp : p.2 = 0
  · simp [hp]
  · have : p.1 / 64 ≤ (p.1 + p.2 - 1) / 64 := Nat.div_le_div_right (by omega)
    rw [if_neg hp, mem_range']
    omega

theorem foldl_max_le {α : Type} (p : α → Bool) (f : α → Nat) (l : List α) (a n : Nat) :
    l.foldl (fun m i => if p i then max m (f i) else m) a ≤ n ↔ a ≤ n ∧ ∀ i ∈ l, p i = true → f i ≤ n := by
  induction l generalizing a with
  | nil => simp
  | cons x l ih =>
    rw [List.foldl_cons, ih, List.forall_mem_cons]
    by_cases hx : p x = true
    · rw [if_pos hx, Nat.max_le, and_assoc]
      exact and_congr Iff.rfl (and_congr ⟨fun h _ => h, fun h => h hx⟩ Iff.rfl)
    · rw [if_neg hx]
      exact and_congr Iff.rfl ⟨fun h => ⟨fun hp => absurd hp hx, h⟩, fun h => h.2⟩

theorem stMax_le_iff (o : Order) (e : TSet) (n : Nat) : stMax o e ≤ n ↔ ∀ i : Fin 16, e.getLsbD i.val = true → vget o.st i ≤ n := by
  refine (foldl_max_le (fun i : Fin 16 => e.getLsbD i.val) (fun i => vget o.st i) (List.finRange 16) 0 n).trans ?_
  exact ⟨fun h i hi => h.2 i (List.mem_finRange i) hi, fun h => ⟨Nat.zero_le n, fun i _ hi => h i hi⟩⟩

theorem readyRead_of_readReady {s : State} {e : TSet} {k : Nat} (h : readReady s e k) (ident : Nat) (colour : Option (Fin 16)) (got : List Nat) :
    readyRead s.cur ident colour e got k s = (true, false, s) := by
  unfold readyRead
  rcases h with h | ⟨n, w, ch, h, hx, hch, hok⟩
  · have h' : regionOf s (quadOf s.cur) (64 * k) = .temp := h
    rw [h']
  · have hstamp : (ch.dirty || got.contains k || decide (stMax (getCore s s.cur).arch.order e ≤ ch.stamp)) = true := by
      rcases hok with hd | hst
      · simp [hd]
      · have : stMax (getCore s s.cur).arch.order e ≤ ch.stamp := (stMax_le_iff _ e ch.stamp).mpr hst
        rw [decide_eq_true this, Bool.or_true]
    have hx' : xferPending s 1 (quadOf s.cur * 65536 + k) = false := hx
    have hch' : getChunk s (quadOf s.cur * 65536 + k) = some ch := hch
    have h' : regionOf s (quadOf s.cur) (64 * k) = .mapped n w := h
    rw [h']
    dsimp only
    rw [hx', if_neg (by decide), hch']
    dsimp only
    rw [if_pos hstamp]

theorem readyAll_of_ready {f : List Nat → Nat → State → Bool × Bool × State} {ks got : List Nat} {s : State}
    (h : ∀ k ∈ ks, f got k s = (true, false, s)) : readyAll f ks got s = (true, got, s) := by
  induction ks with
  | nil => rfl
  | cons k ks ih => simp only [readyAll, h k List.mem_cons_self, ih fun k hk => h k (List.mem_cons_of_mem _ hk), Bool.true_and,
      Bool.false_eq_true, if_false]

/-- An access once its chunks were made ready for its writes. -/
def tryWritten (c : Nat) (op : NearOp) (got : List Nat) (r : Bool × List Nat × State) : Option NearOp × State :=
  let op1 := { op with got := got }
  if !r.1 then (some op1, r.2.2)
  else if !banksFree r.2.2 (quadOf c) (nearRows op) then (some op1, r.2.2)
  else (none, performNear c op1 (spanBytes r.2.2 (quadOf c) op.spans) (op.spans.any (fun p => stashBad r.2.2 (quadOf c) p.1 p.2))
    (serveBanks r.2.2 (quadOf c) (nearRows op)))

/-- An access once its chunks were made ready for its reads. -/
def tryChecked (c : Nat) (op : NearOp) (r : Bool × List Nat × State) : Option NearOp × State :=
  let op1 := { op with got := r.2.1 }
  if !r.1 then (some op1, r.2.2)
  else if writeWaits r.2.2 c op then (some op1, r.2.2)
  else tryWritten c op r.2.1 (readyAll (fun _ k s => readyWrite c op.ident k s) (writeChunks op) r.2.1 r.2.2)

/-- The chunks of an access made ready for its reads. -/
def readChunks (c : Nat) (op : NearOp) (s : State) : Bool × List Nat × State :=
  readyAll (fun got k s => readyRead c op.ident (some op.colour) op.e got k s) (spanChunks op.spans) op.got s

theorem tryNear_eq (c : Nat) (op : NearOp) (s : State) : tryNear c op s = tryChecked c op (readChunks c op s) := rfl

/-- The state in which an access performs whose chunks are ready, with the chunks that it has filled, and whose banks are free. -/
def readDone (s : State) (op : NearOp) : State :=
  performNear s.cur op (spanBytes s (quadOf s.cur) op.spans) (op.spans.any (fun p => stashBad s (quadOf s.cur) p.1 p.2))
    (serveBanks s (quadOf s.cur) (nearRows op))

theorem readChunks_of_ready {s : State} {op : NearOp} (hr : ∀ k ∈ spanChunks op.spans, readReady s op.e k) :
    readChunks s.cur op s = (true, op.got, s) := readyAll_of_ready fun k hk => readyRead_of_readReady (hr k hk) _ _ _

theorem tryChecked_done {c : Nat} {op : NearOp} {s : State} {got : List Nat} (hwait : writeWaits s c op = false)
    (hw : ∀ k ∈ writeChunks op, readyWrite c op.ident k s = (true, false, s)) (hb : banksFree s (quadOf c) (nearRows op) = true) :
    tryChecked c op (true, got, s) = (none, performNear c { op with got := got } (spanBytes s (quadOf c) op.spans)
      (op.spans.any (fun p => stashBad s (quadOf c) p.1 p.2)) (serveBanks s (quadOf c) (nearRows op))) := by
  rw [tryChecked]
  dsimp only
  rw [if_neg (by decide), hwait, if_neg (by decide), readyAll_of_ready hw, tryWritten]
  dsimp only
  rw [if_neg (by decide), hb, if_neg (by decide)]

theorem tryNear_of_ready {s : State} {op : NearOp} (hr : ∀ k ∈ spanChunks op.spans, readReady s op.e k)
    (hwait : writeWaits s s.cur op = false)
    (hw : ∀ k ∈ writeChunks op, readyWrite s.cur op.ident k s = (true, false, s))
    (hb : banksFree s (quadOf s.cur) (nearRows op) = true) : tryNear s.cur op s = (none, readDone s op) := by
  rw [tryNear_eq, readChunks_of_ready hr, tryChecked_done hwait hw hb, readDone]

theorem submitNear_of_done {s t : State} {op : NearOp} (hq : (arch s).order.nearq = []) (h : tryNear s.cur op s = (none, t)) :
    submitNear s op = t := by
  simp only [submitNear, hq, List.isEmpty_nil, if_true, h]

theorem submitNear_behind {s : State} {op : NearOp} (hq : (arch s).order.nearq ≠ []) :
    submitNear s op = modOrder s (fun o => { o with nearq := o.nearq ++ [op] }) := by
  have : (arch s).order.nearq.isEmpty = false := List.isEmpty_eq_false_iff.mpr hq
  simp only [submitNear, this, Bool.false_eq_true, if_false]

/-! What an access of this core leaves as it was. -/

/-- Of the cores only the running one has changed, and of that one only its order and the results under way. -/
structure LoadStep (s t : State) : Prop where
  cur : t.cur = s.cur
  others : ∀ c, c ≠ s.cur → getCore t c = getCore s c
  archEq : { arch t with order := (arch s).order, due := (arch s).due } = arch s

theorem LoadStep.refl (s : State) : LoadStep s s := ⟨rfl, fun _ _ => rfl, rfl⟩

theorem LoadStep.trans {s t u : State} (h : LoadStep s t) (k : LoadStep t u) : LoadStep s u where
  cur := k.cur.trans h.cur
  others c hc := (k.others c (by rw [h.cur]; exact hc)).trans (h.others c hc)
  archEq := (congrArg (fun a : CoreArch => { a with order := (arch s).order, due := (arch s).due }) k.archEq).trans h.archEq

theorem LoadStep.of_cores {s t : State} (h : t.cores = s.cores) (hc : t.cur = s.cur) : LoadStep s t := by
  have hget : ∀ c, getCore t c = getCore s c := fun c => by rw [getCore, getCore, h]
  refine ⟨hc, fun c _ => hget c, ?_⟩
  rw [arch, arch, hc, hget]

theorem OrderStep.loadStep {s t : State} (h : OrderStep s t) : LoadStep s t :=
  ⟨h.cur, h.others, congrArg (fun a : CoreArch => { a with due := (arch s).due }) h.archEq⟩

theorem loadStep_deliverTo (s : State) (port : PortId) (due ord : Nat) (short : Bool) (x : VVal) :
    LoadStep s (deliverTo s s.cur port due ord short x) := by
  refine ⟨rfl, fun c hc => getCore_modCore_other s _ (Ne.symm hc), ?_⟩
  simp only [deliverTo, arch, modCore, setCore, getCore, alGet_alPut_same]

theorem LoadStep.regs {s t : State} (h : LoadStep s t) : (arch t).regs = (arch s).regs := (congrArg CoreArch.regs h.archEq :)

theorem LoadStep.sparesRegs {s t : State} (h : LoadStep s t) : sparesRegs s t :=
  ⟨(congrArg CoreArch.ops h.archEq :), (congrArg CoreArch.res h.archEq :), (congrArg CoreArch.csr h.archEq :),
    (congrArg CoreArch.seq h.archEq :), congrArg (fun a => { a.regs with a := (arch s).regs.a }) h.archEq,
    (congrArg CoreArch.hdue h.archEq :), congrArg (fun a => anvilOf a.anv) h.archEq, (congrArg CoreArch.q h.archEq :),
    (congrArg CoreArch.fences h.archEq :)⟩

theorem stepped_of_regs {s t : State} (h : (arch t).regs = (arch s).regs) {x : AddrIn} (hf : x.mFree = false) (u : Bool) (j : Fin 16) :
    stepped s u j x (postUpdate t u j x) := by
  have hp := stepped_postUpdate (s := t) (u := u) (j := j) hf
  unfold Claims.stepped at hp ⊢
  rw [h] at hp
  exact hp

theorem LoadStep.sparesCores {s t : State} (h : LoadStep s t) (u : Bool) (j : Fin 16) (x : AddrIn) :
    sparesCores s (postUpdate t u j x) := by
  refine ⟨fun c hc => ?_, ?_⟩
  · rw [getCore_postUpdate_other t u j x (by rw [h.cur]; exact Ne.symm hc), h.others c hc]
  · rw [Claims.sparesRegs, arch_postUpdate]
    exact h.sparesRegs

theorem due_deliverTo (s : State) (port : PortId) (due ord : Nat) (short : Bool) (x : VVal) :
    (arch (deliverTo s s.cur port due ord short x)).due =
      (arch s).due ++ [{ port := port, at_ := due, ord := ord, val := x, short := short }] := by
  simp only [deliverTo, arch, modCore, setCore, getCore, alGet_alPut_same]

theorem postUpdate_quads (s : State) (u : Bool) (j : Fin 16) (x : AddrIn) : (postUpdate s u j x).quads = s.quads :=
  (congrArg State.quads (postUpdate_but_cores s u j x) :)
theorem postUpdate_hub (s : State) (u : Bool) (j : Fin 16) (x : AddrIn) : (postUpdate s u j x).hub = s.hub :=
  (congrArg State.hub (postUpdate_but_cores s u j x) :)
theorem postUpdate_edge (s : State) (u : Bool) (j : Fin 16) (x : AddrIn) : (postUpdate s u j x).edge = s.edge :=
  (congrArg State.edge (postUpdate_but_cores s u j x) :)

theorem sparesQuads_serveBanks (s : State) (q : Nat) (rows : List (Nat × Nat)) : sparesQuads s (serveBanks s q rows) := by
  intro d
  by_cases hd : q = d
  · rw [serveBanks, ← hd, getQuad_modQuad_same]
  · rw [serveBanks, getQuad_modQuad_other s _ hd]

/-! The near loads (R81, R111, R113). -/

section
variable {i : Instr} {g : Guard} {j : Fin 16} {u : Bool} {s : State} {x : AddrIn}

/-- The access that a near load submits. -/
def nearLoadOp (s : State) (x : AddrIn) (ea size lat : Nat) (kind : NearKind) : NearOp :=
  nearOp s kind [(ea, size)] [] lat (accessTaint s x) x.a.t x.a.p

theorem nearLoad_poison (h : Addresses i g j u s x) (o : BitVec 6) (size align lat : Nat) (kind : NearKind) (hp : x.a.p = true) :
    nearLoad i g j u o size align lat kind s = raise s i cPoison := by
  rw [nearLoad, runAddr_of_addresses h, if_pos hp]

variable (h : Addresses i g j u s x) (hp : x.a.p = false) {o : BitVec 6} {size align lat : Nat} {kind : NearKind}
include h hp

theorem nearLoad_eq : nearLoad i g j u o size align lat kind s =
    if updateBad u x then raise s i cModifier
    else if effective x o size % align ≠ 0 then raise s i cAlign
    else if !spanAssigned s (quadOf s.cur) (effective x o size) size then raise s i cNearBound
    else if decide (kind = .loadTag) && isMapped s s.cur (effective x o size) then raise s i cMapping
    else issueNear s (nearLoadOp s x (effective x o size) size lat kind) u j x := by
  rw [nearLoad, runAddr_of_addresses h, if_neg (by rw [hp]; decide)]
  simp only [nearAddr_eq]
  rfl

theorem nearLoad_modifier (hm : ¬ modifierOk u x) : nearLoad i g j u o size align lat kind s = raise s i cModifier := by
  rw [nearLoad_eq h hp, if_pos (updateBad_of_not_ok (mFree_of_addresses h) hm)]

theorem nearLoad_align (hm : modifierOk u x) (ha : effective x o size % align ≠ 0) :
    nearLoad i g j u o size align lat kind s = raise s i cAlign := by
  rw [nearLoad_eq h hp, (updateBad_eq_false_iff (mFree_of_addresses h)).mpr hm, if_neg (by decide), if_pos ha]

theorem nearLoad_bound (hm : modifierOk u x) (ha : effective x o size % align = 0) (hs : 0 < size) (hb : ¬ assigned s (effective x o size) size) :
    nearLoad i g j u o size align lat kind s = raise s i cNearBound := by
  rw [nearLoad_eq h hp, (updateBad_eq_false_iff (mFree_of_addresses h)).mpr hm, if_neg (by decide), if_neg (not_not_intro ha),
    spanAssigned_eq_not hs hb, if_pos (by decide)]

theorem nearLoad_mapping (hm : modifierOk u x) (ha : effective x o size % align = 0)
    (hb : spanAssigned s (quadOf s.cur) (effective x o size) size = true) (hk : kind = .loadTag)
    (hmap : ∃ n w, regionOf s (myQuad s) (effective x o size) = .mapped n w) :
    nearLoad i g j u o size align lat kind s = raise s i cMapping := by
  rw [nearLoad_eq h hp, (updateBad_eq_false_iff (mFree_of_addresses h)).mpr hm, if_neg (by decide), if_neg (not_not_intro ha), hb,
    if_neg (by decide), hk, (isMapped_iff s _).mpr hmap, if_pos (by decide)]

theorem nearLoad_issues (hm : modifierOk u x) (ha : effective x o size % align = 0) (hs : 0 < size) (hb : assigned s (effective x o size) size)
    (hk : kind = .loadTag → ¬ ∃ n w, regionOf s (myQuad s) (effective x o size) = .mapped n w) :
    nearLoad i g j u o size align lat kind s = issueNear s (nearLoadOp s x (effective x o size) size lat kind) u j x := by
  have hmap : (decide (kind = .loadTag) && isMapped s s.cur (effective x o size)) = false := by
    by_cases hkind : kind = .loadTag
    · rw [Bool.and_eq_false_iff]
      exact .inr (Bool.of_not_eq_true fun ht => hk hkind ((isMapped_iff s _).mp ht))
    · simp [hkind]
  rw [nearLoad_eq h hp, (updateBad_eq_false_iff (mFree_of_addresses h)).mpr hm, if_neg (by decide), if_neg (not_not_intro ha),
    spanAssigned_eq hs hb, if_neg (by decide), hmap, if_neg (by decide)]

end

theorem exec_nearLoads : ∀ r ∈ nearLoads, ∀ (g : Guard) (j : Fin 16) (u : Bool) (o : BitVec 6) (s : State),
    exec (r.1 g j u o) s = .next (nearLoad (r.1 g j u o) g j u o r.2.1 r.2.2.1 r.2.2.2 .load s) := by
  intro r hr g j u o s
  simp only [nearLoads, List.mem_cons, List.not_mem_nil, or_false] at hr
  rcases hr with rfl | rfl | rfl | rfl | rfl <;> rfl

theorem nearLoads_size : ∀ r ∈ nearLoads, 0 < r.2.1 := by decide

theorem assigned_of_readable {s : State} {e : TSet} {a n : Nat} (h : readable s e a n) : assigned s a n := by
  refine ⟨h.1, fun k h1 h2 => ?_⟩
  rcases h.2 k h1 h2 with hr | ⟨m, w, -, hr, -⟩ <;> rw [hr] <;> exact fun hc => nomatch hc

theorem readable_of_temp {s : State} {a n : Nat} (h : inTemp s a n) (e : TSet) : readable s e a n := ⟨h.1, fun k h1 h2 => .inl (h.2 k h1 h2)⟩

theorem mem_spanChunks_one {a n k : Nat} : k ∈ spanChunks [(a, n)] → a / 64 ≤ k ∧ k ≤ (a + n - 1) / 64 := by
  intro h
  obtain ⟨p, hp, -, h1, h2⟩ := mem_spanChunks.mp h
  rw [List.mem_singleton] at hp
  subst hp
  exact ⟨h1, h2⟩

end Sys2Proof.Proofs
end

section
/-! PROOF. Near loads: the plain read, the fill that comes first, the wait, the faults (R81, R110, R111, R121, R204, R205, R221, R229,
R230). -/

namespace Sys2Proof.Proofs

open Sys2Proof.Machine Sys2Proof.Claims

/-! A load whose chunks are ready (R111). -/

theorem writeWaits_of_no_chunks {s : State} {op : NearOp} (h : writeChunks op = []) : writeWaits s s.cur op = false := by
  rw [writeWaits, h, List.any_nil, Bool.false_and]

/-- What a load delivers (R111, R113, R230). -/
def loadValue (s : State) (op : NearOp) : VVal :=
  { v := BitVec.ofNat 2048 (leNat (spanBytes s (quadOf s.cur) op.spans)),
    t := if op.got.isEmpty then op.taint else op.taint ||| colourSet op.colour,
    p := op.poison || op.spans.any (fun p => stashBad s (quadOf s.cur) p.1 p.2) }

/-- The state after the read of a load: its result is under way, its banks are served. -/
def loaded (s : State) (op : NearOp) : State :=
  deliverTo (serveBanks s (quadOf s.cur) (nearRows op)) s.cur op.port op.due op.ord true (loadValue s op)

theorem readDone_of_load {s : State} {op : NearOp} (h : op.kind = .load) : readDone s op = loaded s op := by
  rw [readDone, performNear, h, loaded, loadValue]

theorem submitNear_load {s : State} {op : NearOp} (hk : op.kind = .load) (hw : op.writes = []) (hq : (arch s).order.nearq = [])
    (hr : ∀ k ∈ spanChunks op.spans, readReady s op.e k) (hb : banksFree s (quadOf s.cur) (nearRows op) = true) :
    submitNear s op = loaded s op := by
  have hchunks : writeChunks op = [] := by rw [writeChunks, hk, hw]; rfl
  refine (submitNear_of_done hq (tryNear_of_ready hr (writeWaits_of_no_chunks hchunks) (fun k hk => ?_) hb)).trans (readDone_of_load hk)
  rw [hchunks] at hk
  exact absurd hk List.not_mem_nil

theorem loadStep_serveBanks (s : State) (q : Nat) (rows : List (Nat × Nat)) : LoadStep s (serveBanks s q rows) := LoadStep.of_cores rfl rfl

theorem loadStep_loaded (s : State) (op : NearOp) : LoadStep s (loaded s op) :=
  (loadStep_serveBanks s _ _).trans (loadStep_deliverTo (serveBanks s _ _) _ _ _ _ _)

theorem due_loaded (s : State) (op : NearOp) : (arch (loaded s op)).due = (arch s).due ++
    [{ port := op.port, at_ := op.due, ord := op.ord, val := loadValue s op, short := true }] :=
  due_deliverTo (serveBanks s (quadOf s.cur) (nearRows op)) _ _ _ _ _

theorem order_loaded (s : State) (op : NearOp) : (arch (loaded s op)).order = (arch s).order := by
  simp only [loaded, deliverTo, arch, modCore, setCore, getCore, alGet_alPut_same, serveBanks, modQuad, setQuad]

theorem sparesQuads_loaded (s : State) (op : NearOp) : sparesQuads s (loaded s op) := sparesQuads_serveBanks s _ _

theorem spanBytes_one (s : State) (q a n : Nat) : spanBytes s q [(a, n)] = memReadN s.stash (stashKey q a) n := List.append_nil _

theorem any_one {α : Type} (f : α → Bool) (a : α) : [a].any f = f a := Bool.or_false _

theorem nearRows_load {op : NearOp} (hw : op.writes = []) : nearRows op = spanRows op.spans := by
  rw [nearRows, hw, List.map_nil, List.append_nil]

/-- The running core with the next number given out. -/
def numbered (s : State) : State := { s with uid := s.uid + 1 }

theorem loadStep_numbered (s : State) : LoadStep s (numbered s) := ⟨rfl, fun _ _ => rfl, rfl⟩

theorem sparesQuads_postUpdate {s t : State} (h : sparesQuads s t) (u : Bool) (j : Fin 16) (x : AddrIn) : sparesQuads s (postUpdate t u j x) := by
  intro q
  rw [getQuad, postUpdate_quads]
  exact h q

/-- An access that waits behind others. -/
def queuedNear (s : State) (op : NearOp) : State := modOrder (numbered s) (fun o => { o with nearq := o.nearq ++ [op] })

theorem nearq_queuedNear (s : State) (op : NearOp) : (arch (queuedNear s op)).order.nearq = (arch s).order.nearq ++ [op] := by
  rw [queuedNear, arch_modOrder]
  rfl

/-! A chunk that is being filled (R205). -/

theorem spanChunks_of_fits {a n : Nat} (hn : 0 < n) (h : a % 64 + n ≤ 64) : spanChunks [(a, n)] = [a / 64] := by
  have h1 : (a + n - 1) / 64 = a / 64 := by omega
  simp only [spanChunks, List.flatMap_cons, List.flatMap_nil, List.append_nil]
  rw [if_neg (by omega), h1, Nat.sub_self]
  rfl

theorem nearLoads_fit : ∀ r ∈ nearLoads, r.2.1 ≤ 8 → r.2.2.1 = r.2.1 ∧ (r.2.1 = 1 ∨ r.2.1 = 2 ∨ r.2.1 = 4 ∨ r.2.1 = 8) := by decide

theorem fits_line {a n : Nat} (hn : n = 1 ∨ n = 2 ∨ n = 4 ∨ n = 8) (ha : a % n = 0) : a % 64 + n ≤ 64 := by
  rcases hn with rfl | rfl | rfl | rfl <;> omega

theorem readyRead_of_fill {s : State} {k : Nat} (hx : xferPending s 1 (chunkAt s k) = true)
    (hr : ∃ n w, regionOf s (myQuad s) (64 * k) = .mapped n w) (ident : Nat) (colour : Option (Fin 16)) (e : TSet) (got : List Nat) :
    readyRead s.cur ident colour e got k s = (false, false, s) := by
  obtain ⟨n, w, hr⟩ := hr
  have hr' : regionOf s (quadOf s.cur) (64 * k) = .mapped n w := hr
  have hx' : xferPending s 1 (quadOf s.cur * 65536 + k) = true := hx
  rw [readyRead, hr']
  dsimp only
  rw [if_pos hx']

theorem submitNear_waits {s : State} {op : NearOp} {k : Nat} (hs : spanChunks op.spans = [k]) (hq : (arch s).order.nearq = [])
    (hr : readyRead s.cur op.ident (some op.colour) op.e op.got k s = (false, false, s)) :
    submitNear s op = modOrder s (fun o => { o with nearq := o.nearq ++ [op] }) := by
  have htry : tryNear s.cur op s = (some op, s) := by
    rw [tryNear_eq, readChunks, hs]
    simp only [readyAll, hr, Bool.false_and, Bool.false_eq_true, if_false, tryChecked, Bool.not_false, if_true]
  simp only [submitNear, hq, List.isEmpty_nil, if_true, htry]

section
variable {r : (Guard → Fin 16 → Bool → BitVec 6 → Instr) × Nat × Nat × Nat} (hr : r ∈ nearLoads) {g : Guard} {j : Fin 16} {u : Bool} {o : BitVec 6}
  {s : State} {x : AddrIn} (hx : Addresses (r.1 g j u o) g j u s x) (hm : modifierOk u x) (hp : x.a.p = false)
  (ha : effective x o r.2.1 % r.2.2.1 = 0)
include hr hx hm hp ha

theorem exec_nearLoad_submits (hin : assigned s (effective x o r.2.1) r.2.1) : exec (r.1 g j u o) s =
    .next (postUpdate (submitNear (numbered s) (nearLoadOp s x (effective x o r.2.1) r.2.1 r.2.2.2 .load)) u j x) := by
  rw [exec_nearLoads r hr, nearLoad_issues (kind := .load) hx hp hm ha (nearLoads_size r hr) hin (fun h => nomatch h)]
  rfl

theorem nearLoad_ready (hread : readable s (accessTaint s x) (effective x o r.2.1) r.2.1) (hq : (arch s).order.nearq = [])
    (hb : banksIdle s [(effective x o r.2.1, r.2.1)]) :
    ∃ t, exec (r.1 g j u o) s = .next t ∧
      (arch t).due = (arch s).due ++ [shortDue s (addrResult s) r.2.2.2
        { v := BitVec.ofNat 2048 (leNat (memReadN s.stash (stashByte s (effective x o r.2.1)) r.2.1)), t := x.a.t,
          p := stashBad s (myQuad s) (effective x o r.2.1) r.2.1 }] ∧
      stepped s u j x t ∧ sparesCores s t ∧ t.stash = s.stash ∧ t.far = s.far ∧ sparesQuads s t ∧ t.hub = s.hub ∧ t.edge = s.edge := by
  set op := nearLoadOp s x (effective x o r.2.1) r.2.1 r.2.2.2 .load with hop
  have hstep : LoadStep s (loaded (numbered s) op) := (loadStep_numbered s).trans (loadStep_loaded _ _)
  refine ⟨postUpdate (loaded (numbered s) op) u j x, ?_, ?_, stepped_of_regs hstep.regs (mFree_of_addresses hx) u j, hstep.sparesCores u j x,
    postUpdate_stash .., postUpdate_far .., sparesQuads_postUpdate (sparesQuads_loaded (numbered s) op) u j x, postUpdate_hub ..,
    postUpdate_edge ..⟩
  · rw [exec_nearLoad_submits hr hx hm hp ha (assigned_of_readable hread)]
    refine congrArg (fun t => Host.Outcome.next (postUpdate t u j x)) (submitNear_load rfl rfl hq (fun k hk => ?_) ?_)
    · obtain ⟨h1, h2⟩ := mem_spanChunks_one hk
      exact hread.2 k h1 h2
    · rw [nearRows_load (by rfl)]
      exact hb
  · rw [postUpdate_due, due_loaded]
    refine congrArg (fun v => (arch s).due ++ [shortDue s (addrResult s) r.2.2.2 v]) ?_
    simp only [loadValue, hop, nearLoadOp, nearOp, spanBytes_one, any_one, hp, Bool.false_or, List.isEmpty_nil, if_true]
    rfl

theorem nearLoad_waits (hin : assigned s (effective x o r.2.1) r.2.1)
    (hw : (arch s).order.nearq ≠ [] ∨ (r.2.1 ≤ 8 ∧ xferPending s 1 (chunkAt s (effective x o r.2.1 / 64)) = true ∧
      ∃ n w, regionOf s (myQuad s) (64 * (effective x o r.2.1 / 64)) = .mapped n w)) :
    exec (r.1 g j u o) s =
      .next (postUpdate (queuedNear s (nearLoadOp s x (effective x o r.2.1) r.2.1 r.2.2.2 .load)) u j x) := by
  rw [exec_nearLoad_submits hr hx hm hp ha hin]
  refine congrArg (fun t => Host.Outcome.next (postUpdate t u j x)) ?_
  by_cases hq : (arch s).order.nearq = []
  · obtain ⟨hsize, hxfer, hmap⟩ := hw.resolve_left (not_not_intro hq)
    obtain ⟨halign, hn⟩ := nearLoads_fit r hr hsize
    rw [halign] at ha
    exact submitNear_waits (spanChunks_of_fits (nearLoads_size r hr) (fits_line hn ha)) hq (readyRead_of_fill (s := numbered s) hxfer hmap _ _ _ _)
  · exact submitNear_behind hq

end

/-! A fill from this module's home (R204, R229, R230). -/

/-- Of `s` nothing has changed that a fill does not change on its way: the dies, the failed lines, the log, the clock. -/
structure Fetch (s t : State) : Prop where
  eq : { t with dies := s.dies, bad := s.bad, edge := s.edge, clock := s.clock } = s
  clock : s.clock ≤ t.clock

theorem Fetch.trans {s t u : State} (h : Fetch s t) (k : Fetch t u) : Fetch s u where
  eq := (congrArg (fun a : State => { a with dies := s.dies, bad := s.bad, edge := s.edge, clock := s.clock }) k.eq).trans h.eq
  clock := h.clock.trans k.clock

/-- Only the buckets and the queues of the dies have changed. -/
structure TokenStep (s t : State) : Prop where
  eq : { t with dies := s.dies } = s
  dir : ∀ n, (getDie t n).dir = (getDie s n).dir

theorem TokenStep.fetch {s t : State} (h : TokenStep s t) : Fetch s t where
  eq := congrArg (fun a : State => { a with bad := s.bad, edge := s.edge, clock := s.clock }) h.eq
  clock := (congrArg State.clock h.eq :).ge

theorem tokenStep_setDie {s : State} {n : Nat} {d : Die} (h : d.dir = (getDie s n).dir) : TokenStep s (setDie s n d) := by
  refine ⟨rfl, fun m => ?_⟩
  by_cases hm : n = m
  · rw [← hm, getDie_setDie_same, h]
  · rw [getDie_setDie_other s d hm]

theorem TokenStep.refl (s : State) : TokenStep s s := ⟨rfl, fun _ => rfl⟩

theorem TokenStep.trans {s t u : State} (h : TokenStep s t) (k : TokenStep t u) : TokenStep s u where
  eq := (congrArg (fun a : State => { a with dies := s.dies }) k.eq).trans h.eq
  dir n := (k.dir n).trans (h.dir n)

theorem tokenStep_choice {s : State} {n : Nat} (p : Prop) [Decidable p] {d e : Die} (hd : d.dir = (getDie s n).dir)
    (he : e.dir = (getDie s n).dir) : TokenStep s (if p then (true, setDie s n d) else (false, setDie s n e)).2 := by
  by_cases hp : p
  · rw [if_pos hp]
    exact tokenStep_setDie hd
  · rw [if_neg hp]
    exact tokenStep_setDie he

theorem tokenStep_takeTokensOf (s : State) (dn t core ident n : Nat) : TokenStep s (takeTokensOf s dn t core ident n).2 := by
  have hpaid : ∀ (k : Nat) (b : Bucket), (if k = 0 then getDie s dn else setBucket (getDie s dn) t b).dir = (getDie s dn).dir := by
    intro k b
    split <;> rfl
  rw [takeTokensOf]
  dsimp only
  by_cases hgrant : (getDie s dn).granted.contains ident = true
  · rw [if_pos hgrant]
    exact tokenStep_setDie rfl
  · rw [if_neg hgrant]
    by_cases hwait : ((getDie s dn).waitq.any fun w => w.core = core && w.ident = ident) = true
    · rw [if_pos hwait]
      exact .refl s
    · rw [if_neg hwait]
      exact tokenStep_choice _ (hpaid _ _) (hpaid _ _)

theorem tokenStep_takeToken (s : State) (core ident : Nat) : TokenStep s (takeToken s core ident).2 := tokenStep_takeTokensOf s _ _ _ _ _

theorem TokenStep.registered {s t : State} (h : TokenStep s t) (pa : Nat) : registered t pa = registered s pa := by
  rw [Machine.registered, Machine.registered, h.dir]

theorem TokenStep.readLine {s t : State} (h : TokenStep s t) (g : Option Gang) (pa : Nat) : readLine t g pa = readLine s g pa := by
  have ht : t = { s with dies := t.dies } := (congrArg (fun a : State => { a with dies := t.dies }) h.eq :)
  rw [Machine.readLine, Machine.readLine, h.registered]
  cases Machine.registered s pa <;> rw [ht] <;> rfl

theorem memReadN_length (m : Memory) (a n : Nat) : (memReadN m a n).length = n := by
  induction n generalizing a with
  | zero => rfl
  | succ n ih => rw [memReadN, List.length_cons, ih]

theorem range'_length (a n : Nat) : (range' a n).length = n := by
  induction n generalizing a with
  | zero => rfl
  | succ n ih => rw [range', List.length_cons, ih]

theorem readLine_length (s : State) (g : Option Gang) (pa : Nat) : (readLine s g pa).1.length = 64 := by
  unfold Machine.readLine
  split
  · exact memReadN_length _ _ _
  · unfold homeBytes
    dsimp only
    split
    · rw [List.length_map, range'_length]
    · exact memReadN_length _ _ _

theorem fetch_touchL2 (s : State) (pa : Nat) : Fetch s (touchL2 s pa) := by
  unfold touchL2
  split <;> exact ⟨rfl, Nat.le_refl _⟩

theorem fetch_markBad (s : State) (pa : Nat) : Fetch s (markBad s pa) := by
  unfold markBad
  split <;> exact ⟨rfl, Nat.le_refl _⟩

theorem fetch_noteRead (s : State) (g : Option Gang) (pa : Nat) : Fetch s (noteRead s g pa) := by
  unfold noteRead
  split
  · exact ⟨rfl, Nat.le_refl _⟩
  · split
    · exact (fetch_markBad s pa).trans (fetch_touchL2 _ pa)
    · exact fetch_touchL2 s pa

theorem nextStamp_lt (s : State) : s.clock < (nextStamp s).1 := by
  rw [nextStamp]
  exact lt_of_lt_of_le (Nat.lt_succ_self _) (le_max_left _ _)

/-- The state at a stamp of the perform clock. -/
def stamped (s : State) (n : Nat) : State := { s with clock := n }

theorem nextStamp_snd (s : State) : (nextStamp s).2 = stamped s (nextStamp s).1 := by rw [nextStamp, stamped]

theorem fetch_stamped {s : State} {n : Nat} (h : s.clock ≤ n) : Fetch s (stamped s n) := ⟨rfl, h⟩

theorem Fetch.stash {s t : State} (h : Fetch s t) : t.stash = s.stash := (congrArg State.stash h.eq :)
theorem Fetch.far {s t : State} (h : Fetch s t) : t.far = s.far := (congrArg State.far h.eq :)
theorem Fetch.hub {s t : State} (h : Fetch s t) : t.hub = s.hub := (congrArg State.hub h.eq :)
theorem Fetch.chunks {s t : State} (h : Fetch s t) : t.chunks = s.chunks := (congrArg State.chunks h.eq :)
theorem Fetch.sbad {s t : State} (h : Fetch s t) : t.sbad = s.sbad := (congrArg State.sbad h.eq :)
theorem Fetch.quads {s t : State} (h : Fetch s t) : t.quads = s.quads := (congrArg State.quads h.eq :)
theorem Fetch.cores {s t : State} (h : Fetch s t) : t.cores = s.cores := (congrArg State.cores h.eq :)
theorem Fetch.cur {s t : State} (h : Fetch s t) : t.cur = s.cur := (congrArg State.cur h.eq :)
theorem Fetch.loadStep {s t : State} (h : Fetch s t) : LoadStep s t := LoadStep.of_cores h.cores h.cur

theorem getQuad_of_quads {s t : State} (h : t.quads = s.quads) (q : Nat) : getQuad t q = getQuad s q := by rw [getQuad, getQuad, h]
theorem getChunk_of_chunks {s t : State} (h : t.chunks = s.chunks) (k : Nat) : getChunk t k = getChunk s k := by rw [getChunk, getChunk, h]

theorem find?_alPut_other {α : Type} (l : List (Nat × α)) {n m : Nat} (x : α) (h : n ≠ m) :
    (alPut l n x).find? (fun e => e.1 = m) = l.find? (fun e => e.1 = m) := by
  induction l with
  | nil => simp [alPut, h]
  | cons e l ih =>
    obtain ⟨k, v⟩ := e
    rw [alPut]
    split
    · rw [List.find?_cons, decide_eq_false h]
    · split
      next hk =>
        subst hk
        rw [List.find?_cons, List.find?_cons, decide_eq_false h]
      next =>
        rw [List.find?_cons, List.find?_cons, ih]

theorem getChunk_putChunk_same (s : State) (key : Nat) (c : Chunk) : getChunk (putChunk s key c) key = some c := by
  rw [getChunk, putChunk, find?_alPut_same]
  rfl

theorem getChunk_putChunk_other (s : State) {key k : Nat} (c : Chunk) (h : k ≠ key) : getChunk (putChunk s key c) k = getChunk s k := by
  rw [getChunk, putChunk, find?_alPut_other _ _ (Ne.symm h)]
  rfl

end Sys2Proof.Proofs
end

section
/-! PROOF. Near loads that fill their chunk first (R204, R229, R230, R234). -/

namespace Sys2Proof.Proofs

open Sys2Proof.Machine Sys2Proof.Claims

/-! Bytes of a memory. -/

theorem getElem?_memReadN (m : Memory) (a n i : Nat) : (memReadN m a n)[i]? = if i < n then some (memRead m (a + i)) else none := by
  induction n generalizing a i with
  | zero => simp [memReadN]
  | succ n ih =>
    cases i with
    | zero => simp [memReadN]
    | succ i =>
      rw [memReadN, List.getElem?_cons_succ, ih, Nat.add_assoc, Nat.add_comm 1 i]
      simp only [Nat.add_lt_add_iff_right]

/-- A byte that was written. -/
theorem memRead_memWriteN_in {m : Memory} (h : memWf m = true) {a i : Nat} {bs : List Byte} (hi : i < bs.length) :
    bs[i]? = some (memRead (memWriteN m a bs) (a + i)) := by
  rw [memRead_memWriteN h, if_pos (by omega), nthD, Nat.add_sub_cancel_left, List.getElem?_eq_getElem hi]
  rfl

theorem memRead_memWriteN_out {m : Memory} (h : memWf m = true) {a k : Nat} {bs : List Byte} (hk : k < a ∨ a + bs.length ≤ k) :
    memRead (memWriteN m a bs) k = memRead m k := by rw [memRead_memWriteN h, if_neg (by omega)]

/-- A part of what was written reads back as that part. -/
theorem memReadN_memWriteN {m : Memory} (h : memWf m = true) (a d n : Nat) {bs : List Byte} (hn : d + n ≤ bs.length) :
    memReadN (memWriteN m a bs) (a + d) n = (bs.drop d).take n := by
  refine List.ext_getElem? fun i => ?_
  rw [getElem?_memReadN, List.getElem?_take, List.getElem?_drop]
  split
  · rw [memRead_memWriteN_in h (by omega), Nat.add_assoc]
  · rfl

/-! Poison of stash bytes. -/

theorem alGet_foldl_alPut {α : Type} (d x : α) (l : List Nat) (m : List (Nat × α)) (k : Nat) :
    alGet d (l.foldl (fun m i => alPut m i x) m) k = if k ∈ l then x else alGet d m k := by
  induction l generalizing m with
  | nil => simp
  | cons i l ih =>
    rw [List.foldl_cons, ih, alGet_alPut]
    by_cases hl : k ∈ l
    · simp [hl]
    · by_cases hk : i = k
      · simp [hk]
      · simp [hl, hk, Ne.symm hk]

theorem alGet_filter_out {α : Type} (d : α) (l : List (Nat × α)) (p : Nat × α → Bool) {k : Nat} (h : ∀ v, p (k, v) = false) :
    alGet d (l.filter p) k = d := by
  induction l with
  | nil => rfl
  | cons e l ih =>
    obtain ⟨i, v⟩ := e
    rw [List.filter_cons]
    split
    next hp =>
      have hik : i ≠ k := fun hik => by rw [hik, h] at hp; exact nomatch hp
      rw [alGet, if_neg hik, ih]
    next => exact ih

/-! A line placed in a chunk (R204). -/

/-- The bytes of the line written, poisoned where the line was. -/
def linePlaced (s : State) (key : Nat) (bytes : List Byte) (bad : Bool) : State :=
  if bad then stashPoison (stashWrite s (key / 65536) (key % 65536 * 64) bytes) (key / 65536) (key % 65536 * 64) 64
  else stashWrite s (key / 65536) (key % 65536 * 64) bytes

theorem placeLine_eq (s : State) (key n : Nat) (bytes : List Byte) (bad : Bool) : placeLine s key n bytes bad =
    putChunk (linePlaced s key bytes bad) key { dirty := false, stamp := n, mask := 0 } := rfl

theorem linePlaced_rest (s : State) (key : Nat) (bytes : List Byte) (bad : Bool) :
    { linePlaced s key bytes bad with stash := s.stash, sbad := s.sbad, tags := s.tags } = s := by
  cases bad with
  | true => rw [linePlaced, if_pos rfl, stashPoison, stashWrite]
  | false => rw [linePlaced, if_neg (by decide), stashWrite]

theorem placeLine_stash (s : State) (key n : Nat) (bytes : List Byte) (bad : Bool) :
    (placeLine s key n bytes bad).stash = memWriteN s.stash (stashKey (key / 65536) (key % 65536 * 64)) bytes := by
  rw [placeLine_eq, putChunk_stash, linePlaced]
  split <;> rfl

theorem placeLine_sbad (s : State) (key n : Nat) (bytes : List Byte) (bad : Bool) : (placeLine s key n bytes bad).sbad =
    if bad then (stashPoison (stashWrite s (key / 65536) (key % 65536 * 64) bytes) (key / 65536) (key % 65536 * 64) 64).sbad
    else (stashWrite s (key / 65536) (key % 65536 * 64) bytes).sbad := by
  rw [placeLine_eq, putChunk_sbad, linePlaced]
  split <;> rfl

/-- What `placeLine` does not touch. -/
theorem placeLine_rest (s : State) (key n : Nat) (bytes : List Byte) (bad : Bool) :
    { placeLine s key n bytes bad with stash := s.stash, sbad := s.sbad, tags := s.tags, chunks := s.chunks } = s :=
  congrArg (fun a : State => { a with chunks := s.chunks }) (linePlaced_rest s key bytes bad)

theorem getChunk_placeLine_same (s : State) (key n : Nat) (bytes : List Byte) (bad : Bool) :
    getChunk (placeLine s key n bytes bad) key = some { dirty := false, stamp := n, mask := 0 } := getChunk_putChunk_same _ _ _

theorem getChunk_placeLine_other (s : State) {key k : Nat} (n : Nat) (bytes : List Byte) (bad : Bool) (h : k ≠ key) :
    getChunk (placeLine s key n bytes bad) k = getChunk s k := by
  rw [placeLine_eq, getChunk_putChunk_other _ _ h]
  exact getChunk_of_chunks (congrArg State.chunks (linePlaced_rest s key bytes bad) :) k

/-- The bytes of a chunk that a line was placed in are poisoned just where the line was. -/
theorem stashBad_placeLine (s : State) (key n : Nat) {bytes : List Byte} (hlen : bytes.length = 64) (bad : Bool) {d m : Nat} (hm : 0 < m)
    (hd : d + m ≤ 64) : stashBad (placeLine s key n bytes bad) (key / 65536) (key % 65536 * 64 + d) m = bad := by
  have hkey : stashKey (key / 65536) (key % 65536 * 64 + d) = stashKey (key / 65536) (key % 65536 * 64) + d := by
    simp only [stashKey, Nat.add_assoc]
  have hget : ∀ i, stashKey (key / 65536) (key % 65536 * 64) + d ≤ i → i < stashKey (key / 65536) (key % 65536 * 64) + d + m →
      alGet false (placeLine s key n bytes bad).sbad i = bad := by
    intro i h1 h2
    rw [placeLine_sbad]
    cases bad with
    | true =>
      rw [if_pos rfl, stashPoison, alGet_foldl_alPut, if_pos (mem_range'.mpr (by omega))]
    | false =>
      rw [if_neg (by decide)]
      exact alGet_filter_out _ _ _ fun v => decide_eq_false (by dsimp only; omega)
  rw [stashBad, hkey]
  cases bad with
  | true => exact List.any_eq_true.mpr ⟨_, mem_range'.mpr ⟨le_refl _, by omega⟩, hget _ (le_refl _) (by omega)⟩
  | false =>
    refine List.any_eq_false.mpr fun i hi => ?_
    rw [mem_range'] at hi
    rw [hget i hi.1 hi.2]
    decide

/-! A fill from this module's home. -/

/-- The state after the tokens of a fill of line `l` and its read for a gang. -/
def fetched (s : State) (c ident : Nat) (g : Option Gang) (l : Loc) : State := noteRead (takeToken s c ident).2 g l.pa

/-- The stamp of the fill. -/
def fillStamp (s : State) (c ident : Nat) (g : Option Gang) (l : Loc) : Nat := (nextStamp (fetched s c ident g l)).1

/-- The state after a fill of a chunk. -/
def filledChunk (s : State) (c ident : Nat) (g : Option Gang) (key : Nat) (l : Loc) : State :=
  placeLine (stamped (fetched s c ident g l) (fillStamp s c ident g l)) key (fillStamp s c ident g l)
    (readLine s g l.pa).1 (readLine s g l.pa).2

theorem gangOf_takeToken (s : State) (c ident d : Nat) : gangOf (takeToken s c ident).2 d = gangOf s d := by
  have h := (tokenStep_takeToken s c ident).fetch
  rw [gangOf, gangOf, getCore, getCore, h.cores, h.hub]

theorem startFill_local {s : State} {c ident key : Nat} {colour : Fin 16} {w : Window} {l : Loc}
    (hl : chunkLoc s w (key % 65536 * 64) = some l) (hheld : lineHeld s l = false) (hpeer : l.peer = none)
    (htok : (takeToken s c ident).1 = true) : startFill s c ident (some colour) w key =
      (true, true, noteStamp (filledChunk s c ident (gangOf s c) key l) c colour (fillStamp s c ident (gangOf s c) l)) := by
  have hok : takeToken s c ident = (true, (takeToken s c ident).2) := Prod.ext htok rfl
  unfold startFill
  rw [hl]
  dsimp only
  rw [hheld, if_neg (by decide), hpeer]
  dsimp only [Option.bind_none]
  rw [hok]
  dsimp only
  rw [if_neg (by decide), (tokenStep_takeToken s c ident).readLine, gangOf_takeToken]
  simp only [fillChunk, nextStamp_snd, filledChunk, fillStamp, fetched]

theorem fetch_fetched (s : State) (c ident : Nat) (g : Option Gang) (l : Loc) : Fetch s (fetched s c ident g l) :=
  (tokenStep_takeToken s c ident).fetch.trans (fetch_noteRead _ _ _)

theorem lt_fillStamp (s : State) (c ident : Nat) (g : Option Gang) (l : Loc) : s.clock < fillStamp s c ident g l :=
  lt_of_le_of_lt (fetch_fetched s c ident g l).clock (nextStamp_lt _)

theorem fetch_filling (s : State) (c ident : Nat) (g : Option Gang) (l : Loc) :
    Fetch s (stamped (fetched s c ident g l) (fillStamp s c ident g l)) :=
  (fetch_fetched s c ident g l).trans (fetch_stamped (nextStamp_lt _).le)

section
variable (s : State) (c ident : Nat) (g : Option Gang) (key : Nat) (l : Loc)

/-- The parts of a state that a fill does not touch. -/
def fillFrame (s t : State) : State :=
  let u := { t with stash := s.stash, sbad := s.sbad, tags := s.tags, chunks := s.chunks }
  { u with dies := s.dies, bad := s.bad, edge := s.edge, clock := s.clock }

theorem filledChunk_rest : fillFrame s (filledChunk s c ident g key l) = s :=
  have h := congrArg (fillFrame s) (placeLine_rest (stamped (fetched s c ident g l) (fillStamp s c ident g l)) key
      (fillStamp s c ident g l) (readLine s g l.pa).1 (readLine s g l.pa).2)
  h.trans (congrArg (fun a : State => { a with stash := s.stash, sbad := s.sbad, tags := s.tags, chunks := s.chunks })
    (fetch_filling s c ident g l).eq)

theorem filledChunk_stash : (filledChunk s c ident g key l).stash =
    memWriteN s.stash (stashKey (key / 65536) (key % 65536 * 64)) (readLine s g l.pa).1 := by
  rw [filledChunk, placeLine_stash, (fetch_filling s c ident g l).stash]

theorem getChunk_filledChunk_same :
    getChunk (filledChunk s c ident g key l) key = some { dirty := false, stamp := fillStamp s c ident g l, mask := 0 } :=
  getChunk_placeLine_same _ _ _ _ _

theorem getChunk_filledChunk_other {k : Nat} (h : k ≠ key) : getChunk (filledChunk s c ident g key l) k = getChunk s k :=
  (getChunk_placeLine_other _ _ _ _ h).trans (getChunk_of_chunks (fetch_filling s c ident g l).chunks k)

theorem filledChunk_cores : (filledChunk s c ident g key l).cores = s.cores := (congrArg State.cores (filledChunk_rest s c ident g key l) :)
theorem filledChunk_cur : (filledChunk s c ident g key l).cur = s.cur := (congrArg State.cur (filledChunk_rest s c ident g key l) :)
theorem filledChunk_quads : (filledChunk s c ident g key l).quads = s.quads := (congrArg State.quads (filledChunk_rest s c ident g key l) :)
theorem filledChunk_far : (filledChunk s c ident g key l).far = s.far := (congrArg State.far (filledChunk_rest s c ident g key l) :)
theorem filledChunk_hub : (filledChunk s c ident g key l).hub = s.hub := (congrArg State.hub (filledChunk_rest s c ident g key l) :)

end

theorem loadStep_filledChunk (s : State) (c ident : Nat) (g : Option Gang) (key : Nat) (l : Loc) : LoadStep s (filledChunk s c ident g key l) :=
  LoadStep.of_cores (filledChunk_cores s c ident g key l) (filledChunk_cur s c ident g key l)

theorem loadStep_noteStamp (s : State) (colour : Fin 16) (n : Nat) : LoadStep s (noteStamp s s.cur colour n) := by
  refine ⟨rfl, fun c hc => getCore_modCore_other s _ (Ne.symm hc), ?_⟩
  simp only [noteStamp, arch, modCore, setCore, getCore, alGet_alPut_same]

theorem order_noteStamp (s : State) (colour : Fin 16) (n : Nat) : (arch (noteStamp s s.cur colour n)).order =
    { (arch s).order with st := vset (arch s).order.st colour (max (vget (arch s).order.st colour) n) } := by
  simp only [noteStamp, arch, modCore, setCore, getCore, alGet_alPut_same]

/-- A chunk filled for a load of a colour, the stamp noted (R229). -/
def fillFor (s : State) (ident : Nat) (colour : Fin 16) (k : Nat) (l : Loc) : State :=
  noteStamp (filledChunk s s.cur ident (gangOf s s.cur) (chunkAt s k) l) s.cur colour (fillStamp s s.cur ident (gangOf s s.cur) l)

/-- The chunk of a load is not ready: it is filled (R204). -/
theorem readyRead_fills {s : State} {k ident : Nat} {colour : Fin 16} {e : TSet} {l : Loc} (hk : k < 65536)
    (hline : ∃ n w, regionOf s (myQuad s) (64 * k) = .mapped n w ∧ chunkLoc s w (64 * k) = some l) (hpeer : l.peer = none)
    (hx : xferPending s 1 (chunkAt s k) = false) (hclean : ∀ ch, getChunk s (chunkAt s k) = some ch → ch.dirty = false)
    (htok : (takeToken s s.cur ident).1 = true) (hheld : lineHeld s l = false) (hnot : ¬ readReady s e k) :
    readyRead s.cur ident (some colour) e [] k s =
      (true, true, fillFor s ident colour k l) := by
  obtain ⟨n, w, hr, hl⟩ := hline
  have hr' : regionOf s (quadOf s.cur) (64 * k) = .mapped n w := hr
  have hkey : quadOf s.cur * 65536 + k = chunkAt s k := rfl
  have hmod : chunkAt s k % 65536 * 64 = 64 * k := by
    rw [chunkAt]
    omega
  have hfill : startFill s s.cur ident (some colour) w (chunkAt s k) =
      (true, true, fillFor s ident colour k l) :=
    startFill_local (by rw [hmod]; exact hl) hheld hpeer htok
  unfold readyRead
  rw [hr']
  dsimp only
  rw [hkey, hx, if_neg (by decide)]
  cases hch : getChunk s (chunkAt s k) with
  | none => exact hfill
  | some ch =>
    have hold : ¬ stMax (getCore s s.cur).arch.order e ≤ ch.stamp := fun hst =>
      hnot (.inr ⟨n, w, ch, hr, hx, hch, .inr ((stMax_le_iff _ _ _).mp hst)⟩)
    have hno : (ch.dirty || ([] : List Nat).contains k || decide (stMax (getCore s s.cur).arch.order e ≤ ch.stamp)) = false := by
      rw [hclean ch hch, decide_eq_false hold]
      rfl
    dsimp only
    rw [hno, if_neg (by decide)]
    exact hfill

/-- A load of one chunk that is filled first. -/
theorem submitNear_fills {s : State} {op : NearOp} {k : Nat} (hk : op.kind = .load) (hw : op.writes = []) (hgot : op.got = [])
    (hs : spanChunks op.spans = [k]) (hq : (arch s).order.nearq = []) {t : State} (hcur : t.cur = s.cur) (hquads : t.quads = s.quads)
    (hr : readyRead s.cur op.ident (some op.colour) op.e [] k s = (true, true, t)) (hb : banksFree s (quadOf s.cur) (nearRows op) = true) :
    submitNear s op = loaded t { op with got := [k] } := by
  have hchunks : writeChunks op = [] := by rw [writeChunks, hk, hw]; rfl
  have hread : readChunks s.cur op s = (true, [k], t) := by
    rw [readChunks, hs, hgot]
    simp only [readyAll, hr, if_true, Bool.and_true]
  have hbanks : banksFree t (quadOf s.cur) (nearRows op) = true := by
    rw [← hb, banksFree, banksFree]
    simp only [getQuad_of_quads hquads]
  refine submitNear_of_done hq ?_
  rw [tryNear_eq, hread, tryChecked_done (by rw [writeWaits, hchunks, List.any_nil, Bool.false_and])
    (fun i hi => by rw [hchunks] at hi; exact absurd hi List.not_mem_nil) hbanks, ← hcur]
  exact congrArg (Prod.mk none) (readDone_of_load (s := t) (op := { op with got := [k] }) hk)

section
variable (s : State) (ident : Nat) (colour : Fin 16) (k : Nat) (l : Loc)

theorem arch_filledChunk (key : Nat) : arch (filledChunk s s.cur ident (gangOf s s.cur) key l) = arch s := by
  rw [arch, getCore, filledChunk_cur, filledChunk_cores]
  rfl

theorem loadStep_fillFor : LoadStep s (fillFor s ident colour k l) := by
  have h := loadStep_noteStamp (filledChunk s s.cur ident (gangOf s s.cur) (chunkAt s k) l) colour (fillStamp s s.cur ident (gangOf s s.cur) l)
  rw [filledChunk_cur] at h
  exact (loadStep_filledChunk s s.cur ident (gangOf s s.cur) (chunkAt s k) l).trans h

theorem order_fillFor : (arch (fillFor s ident colour k l)).order = { (arch s).order with
    st := vset (arch s).order.st colour (max (vget (arch s).order.st colour) (fillStamp s s.cur ident (gangOf s s.cur) l)) } := by
  have h := order_noteStamp (filledChunk s s.cur ident (gangOf s s.cur) (chunkAt s k) l) colour (fillStamp s s.cur ident (gangOf s s.cur) l)
  rw [filledChunk_cur, arch_filledChunk] at h
  exact h

theorem due_fillFor : (arch (fillFor s ident colour k l)).due = (arch s).due := by
  have h : (arch (noteStamp (filledChunk s s.cur ident (gangOf s s.cur) (chunkAt s k) l)
      (filledChunk s s.cur ident (gangOf s s.cur) (chunkAt s k) l).cur colour
      (fillStamp s s.cur ident (gangOf s s.cur) l))).due = (arch (filledChunk s s.cur ident (gangOf s s.cur) (chunkAt s k) l)).due := by
    simp only [noteStamp, arch, modCore, setCore, getCore, alGet_alPut_same]
  rw [filledChunk_cur, arch_filledChunk] at h
  exact h

theorem fillFor_stash : (fillFor s ident colour k l).stash =
    memWriteN s.stash (stashKey (chunkAt s k / 65536) (chunkAt s k % 65536 * 64)) (readLine s (gangOf s s.cur) l.pa).1 :=
  filledChunk_stash s s.cur ident (gangOf s s.cur) (chunkAt s k) l

end

/-- A load of one chunk that is filled first. -/
theorem submitNear_fillFor {s : State} {op : NearOp} {k : Nat} {l : Loc} (hkind : op.kind = .load) (hw : op.writes = []) (hgot : op.got = [])
    (hs : spanChunks op.spans = [k]) (hq : (arch s).order.nearq = []) (hk : k < 65536)
    (hline : ∃ n w, regionOf s (myQuad s) (64 * k) = .mapped n w ∧ chunkLoc s w (64 * k) = some l) (hpeer : l.peer = none)
    (hx : xferPending s 1 (chunkAt s k) = false) (hclean : ∀ ch, getChunk s (chunkAt s k) = some ch → ch.dirty = false)
    (htok : (takeToken s s.cur op.ident).1 = true) (hheld : lineHeld s l = false) (hnot : ¬ readReady s op.e k)
    (hb : banksFree s (quadOf s.cur) (nearRows op) = true) :
    submitNear s op = loaded (fillFor s op.ident op.colour k l) { op with got := [k] } :=
  submitNear_fills hkind hw hgot hs hq (loadStep_fillFor s op.ident op.colour k l).cur
    (filledChunk_quads s s.cur op.ident (gangOf s s.cur) (chunkAt s k) l) (readyRead_fills hk hline hpeer hx hclean htok hheld hnot) hb

/-- What a load that fills its chunk delivers. -/
theorem loadValue_fillFor {s : State} {op : NearOp} {a n : Nat} (l : Loc) (hspans : op.spans = [(a, n)]) (hgot : op.got = [a / 64])
    (hpoison : op.poison = false) (hpos : 0 < n) (hfit : a % 64 + n ≤ 64) (ha : a / 64 < 65536) (hwf : memWf s.stash = true)
    (ident : Nat) (colour : Fin 16) :
    loadValue (fillFor s ident colour (a / 64) l) op =
      { v := BitVec.ofNat 2048 (leNat (((readLine s (gangOf s s.cur) l.pa).1.drop (a % 64)).take n)), t := op.taint ||| colourSet op.colour,
        p := (readLine s (gangOf s s.cur) l.pa).2 } := by
  have hcur : (fillFor s ident colour (a / 64) l).cur = s.cur := (loadStep_fillFor s ident colour (a / 64) l).cur
  have hkdiv : chunkAt s (a / 64) / 65536 = quadOf s.cur := by
    rw [chunkAt, quadOf, ← myQuad]
    omega
  have hkmod : chunkAt s (a / 64) % 65536 = a / 64 := by
    rw [chunkAt]
    omega
  have haddr : a / 64 * 64 + a % 64 = a := Nat.div_add_mod' a 64
  have hbytes : memReadN (fillFor s ident colour (a / 64) l).stash (stashKey (quadOf s.cur) a) n =
      ((readLine s (gangOf s s.cur) l.pa).1.drop (a % 64)).take n := by
    have hkey : stashKey (quadOf s.cur) a = stashKey (quadOf s.cur) (a / 64 * 64) + a % 64 := by rw [stashKey, stashKey, Nat.add_assoc, haddr]
    rw [fillFor_stash, hkdiv, hkmod, hkey]
    refine memReadN_memWriteN hwf _ _ _ ?_
    rw [readLine_length]
    exact hfit
  have hbad : stashBad (fillFor s ident colour (a / 64) l) (quadOf s.cur) a n = (readLine s (gangOf s s.cur) l.pa).2 := by
    have h := stashBad_placeLine
      (stamped (fetched s s.cur ident (gangOf s s.cur) l) (fillStamp s s.cur ident (gangOf s s.cur) l)) (chunkAt s (a / 64))
      (fillStamp s s.cur ident (gangOf s s.cur) l) (readLine_length s (gangOf s s.cur) l.pa) (readLine s (gangOf s s.cur) l.pa).2 hpos hfit
    rw [hkdiv, hkmod, haddr] at h
    exact h
  rw [loadValue, hspans, hgot, hpoison, hcur, spanBytes_one, any_one, hbytes, hbad, Bool.false_or, List.isEmpty_cons, if_neg (by decide)]

theorem getChunk_postUpdate (s : State) (u : Bool) (j : Fin 16) (x : AddrIn) (k : Nat) : getChunk (postUpdate s u j x) k = getChunk s k :=
  getChunk_of_chunks (t := postUpdate s u j x) (congrArg State.chunks (postUpdate_but_cores s u j x) :) k

/-! The near loads. -/

section
variable {r : (Guard → Fin 16 → Bool → BitVec 6 → Instr) × Nat × Nat × Nat} (hr : r ∈ nearLoads) {g : Guard} {j : Fin 16} {u : Bool} {o : BitVec 6}
  {s : State} {x : AddrIn} (hx : Addresses (r.1 g j u o) g j u s x) (hm : modifierOk u x) (hp : x.a.p = false)
  (ha : effective x o r.2.1 % r.2.2.1 = 0) (hsize : r.2.1 ≤ 8) (hin : effective x o r.2.1 + r.2.1 ≤ 4161536) {l : Loc}
  (hl : lineAt s (effective x o r.2.1 / 64) l) (hheld : lineHeld s l = false)
  (hnot : ¬ readReady s (accessTaint s x) (effective x o r.2.1 / 64)) (hq : (arch s).order.nearq = [])
  (hb : banksIdle s [(effective x o r.2.1, r.2.1)])

/-- The state after a load that fills its chunk, before the post-update. -/
def loadFilled (s : State) (x : AddrIn) (ea size lat : Nat) (l : Loc) : State :=
  loaded (fillFor (numbered s) s.uid (startArch s).order.tcol (ea / 64) l) { nearLoadOp s x ea size lat .load with got := [ea / 64] }

theorem loadStep_loadFilled (s : State) (x : AddrIn) (ea size lat : Nat) (l : Loc) : LoadStep s (loadFilled s x ea size lat l) :=
  ((loadStep_numbered s).trans (loadStep_fillFor (numbered s) _ _ _ _)).trans (loadStep_loaded _ _)

/-- What a load that fills its chunk delivers: bytes of the line, with the colour of the fill. -/
def filledValue (s : State) (x : AddrIn) (ea size : Nat) (l : Loc) : VVal :=
  { v := BitVec.ofNat 2048 (leNat (((readLine s (gangOf s s.cur) l.pa).1.drop (ea % 64)).take size)),
    t := x.a.t ||| (1#16 <<< (startArch s).order.tcol.val),
    p := (readLine s (gangOf s s.cur) l.pa).2 }

theorem due_loadFilled {s : State} {x : AddrIn} {ea size : Nat} (hpos : 0 < size) (hfit : ea % 64 + size ≤ 64) (ha : ea / 64 < 65536)
    (hwf : memWf s.stash = true) (hp : x.a.p = false) (lat : Nat) (l : Loc) : (arch (loadFilled s x ea size lat l)).due =
      (arch s).due ++ [shortDue s (addrResult s) lat (filledValue s x ea size l)] := by
  have hv := loadValue_fillFor (s := numbered s) (op := { nearLoadOp s x ea size lat .load with got := [ea / 64] }) l rfl rfl hp hpos hfit ha hwf
    s.uid (startArch s).order.tcol
  rw [loadFilled, due_loaded, due_fillFor, hv]
  rfl

theorem loaded_chunks (s : State) (op : NearOp) : (loaded s op).chunks = s.chunks := rfl
theorem loaded_far (s : State) (op : NearOp) : (loaded s op).far = s.far := rfl
theorem loaded_hub (s : State) (op : NearOp) : (loaded s op).hub = s.hub := rfl
theorem loaded_stash (s : State) (op : NearOp) : (loaded s op).stash = s.stash := rfl

theorem getChunk_loadFilled (s : State) (x : AddrIn) (ea size lat : Nat) (l : Loc) (key : Nat) : getChunk (loadFilled s x ea size lat l) key =
    getChunk (filledChunk (numbered s) s.cur s.uid (gangOf s s.cur) (chunkAt s (ea / 64)) l) key := by
  rw [loadFilled, getChunk_of_chunks (loaded_chunks _ _)]
  rfl

theorem order_loadFilled (s : State) (x : AddrIn) (ea size lat : Nat) (l : Loc) : (arch (loadFilled s x ea size lat l)).order.st =
    vset (arch s).order.st (startArch s).order.tcol (max (vget (arch s).order.st (startArch s).order.tcol)
      (fillStamp (numbered s) s.cur s.uid (gangOf s s.cur) l)) := by
  rw [loadFilled, order_loaded, order_fillFor]
  rfl

include hr hx hm hp ha hsize hin hl hheld hnot hq hb in
theorem exec_nearLoad_fills : exec (r.1 g j u o) s =
    .next (postUpdate (loadFilled s x (effective x o r.2.1) r.2.1 r.2.2.2 l) u j x) := by
  obtain ⟨halign, hn⟩ := nearLoads_fit r hr hsize
  have hpos := nearLoads_size r hr
  obtain ⟨⟨n, w, hreg, hloc⟩, hpeer, hxfer, hclean, htok⟩ := hl
  have hassigned : assigned s (effective x o r.2.1) r.2.1 := by
    refine ⟨hin, fun k h1 h2 => ?_⟩
    have hfit := fits_line hn (halign ▸ ha)
    obtain rfl : k = effective x o r.2.1 / 64 := by omega
    rw [hreg]
    exact fun h => nomatch h
  rw [exec_nearLoad_submits hr hx hm hp ha hassigned]
  refine congrArg (fun t => Host.Outcome.next (postUpdate t u j x)) ?_
  exact submitNear_fillFor (s := numbered s) (op := nearLoadOp s x (effective x o r.2.1) r.2.1 r.2.2.2 .load) rfl rfl rfl
    (spanChunks_of_fits hpos (fits_line hn (halign ▸ ha))) hq (by omega) ⟨n, w, hreg, hloc⟩ hpeer hxfer hclean htok hheld hnot hb

include hr hx hm hp ha hsize hin hl hheld hnot hq hb in
theorem nearLoad_fills (hwf : memWf s.stash = true) :
    let ea := effective x o r.2.1
    let k := ea / 64
    let line := readLine s (gangOf s s.cur) l.pa
    let colour := (startArch s).order.tcol
    ∃ t n, exec (r.1 g j u o) s = .next t ∧ s.clock < n ∧
      (arch t).due = (arch s).due ++ [shortDue s (addrResult s) r.2.2.2
        { v := BitVec.ofNat 2048 (leNat ((line.1.drop (ea % 64)).take r.2.1)), t := x.a.t ||| (1#16 <<< colour.val), p := line.2 }] ∧
      getChunk t (chunkAt s k) = some { dirty := false, stamp := n, mask := 0 } ∧
      (∀ key, key ≠ chunkAt s k → getChunk t key = getChunk s key) ∧
      (∀ i, i < 64 → line.1[i]? = some (memRead t.stash (stashByte s (64 * k) + i))) ∧
      (∀ y, (y < stashByte s (64 * k) ∨ stashByte s (64 * k) + 64 ≤ y) → memRead t.stash y = memRead s.stash y) ∧
      (arch t).order.st = vset (arch s).order.st colour (max (vget (arch s).order.st colour) n) ∧
      stepped s u j x t ∧ sparesCores s t ∧ t.far = s.far ∧ t.hub = s.hub := by
  intro ea k line colour
  obtain ⟨halign, hn⟩ := nearLoads_fit r hr hsize
  have hfit : ea % 64 + r.2.1 ≤ 64 := fits_line hn (halign ▸ ha)
  have hpos := nearLoads_size r hr
  have hk : k < 65536 := by omega
  have hstep := loadStep_loadFilled s x ea r.2.1 r.2.2.2 l
  have hlen : line.1.length = 64 := readLine_length s _ _
  have hstash : (postUpdate (loadFilled s x ea r.2.1 r.2.2.2 l) u j x).stash = memWriteN s.stash (stashByte s (64 * k)) line.1 := by
    have hkey : stashKey (chunkAt s k / 65536) (chunkAt s k % 65536 * 64) = stashByte s (64 * k) := by
      rw [stashByte, chunkAt, stashKey, stashKey]
      omega
    rw [postUpdate_stash, loadFilled, loaded_stash, ← hkey]
    exact fillFor_stash (numbered s) s.uid colour k l
  refine ⟨postUpdate (loadFilled s x ea r.2.1 r.2.2.2 l) u j x, fillStamp (numbered s) s.cur s.uid (gangOf s s.cur) l,
    exec_nearLoad_fills hr hx hm hp ha hsize hin hl hheld hnot hq hb,
    lt_fillStamp (numbered s) s.cur s.uid (gangOf s s.cur) l, ?_, ?_, fun key hkey => ?_,
    fun i hi => ?_, fun y hy => ?_, ?_, stepped_of_regs hstep.regs (mFree_of_addresses hx) u j, hstep.sparesCores u j x, ?_, ?_⟩
  · rw [postUpdate_due]
    exact due_loadFilled hpos hfit hk hwf hp r.2.2.2 l
  · rw [getChunk_postUpdate, getChunk_loadFilled]
    exact getChunk_filledChunk_same (numbered s) s.cur s.uid (gangOf s s.cur) (chunkAt s k) l
  · rw [getChunk_postUpdate, getChunk_loadFilled]
    exact getChunk_filledChunk_other (numbered s) s.cur s.uid (gangOf s s.cur) (chunkAt s k) l hkey
  · rw [hstash]
    exact memRead_memWriteN_in hwf (by rw [hlen]; exact hi)
  · rw [hstash]
    exact memRead_memWriteN_out hwf (by rw [hlen]; exact hy)
  · rw [postUpdate_order]
    exact order_loadFilled s x ea r.2.1 r.2.2.2 l
  · rw [postUpdate_far, loadFilled, loaded_far]
    exact filledChunk_far (numbered s) s.cur s.uid (gangOf s s.cur) (chunkAt s k) l
  · rw [postUpdate_hub, loadFilled, loaded_hub]
    exact filledChunk_hub (numbered s) s.cur s.uid (gangOf s s.cur) (chunkAt s k) l

end

/-- Settles O29. -/
theorem nearReads : Obligations.NearReads := by
  refine ⟨fun r hr g j u o s x hx hm hp ha hread hq hb => nearLoad_ready hr hx hm hp ha hread hq hb, ?_, ?_, ?_⟩
  · intro r hr hsize g j u o s x l hx hm hp ea k line colour ha hin hl hheld hnot hq hwf hb
    exact nearLoad_fills hr hx hm hp ha hsize hin hl hheld hnot hq hb hwf
  · intro r hr g j u o s x hx hm hp ea ha hin hw
    have hstep : LoadStep s (queuedNear s (nearLoadOp s x ea r.2.1 r.2.2.2 .load)) :=
      (orderStep_modOrder s (s.uid + 1) _).loadStep
    refine ⟨_, nearLoadOp s x ea r.2.1 r.2.2.2 .load, nearLoad_waits hr hx hm hp ha hin hw, ?_, rfl, rfl, rfl, rfl, rfl, rfl, ?_,
      stepped_of_regs hstep.regs (mFree_of_addresses hx) u j, hstep.sparesCores u j x, ?_, ?_⟩
    · rw [postUpdate_order, nearq_queuedNear]
    · rw [postUpdate_due]
      exact (orderStep_modOrder s (s.uid + 1) _).due
    · rw [postUpdate_stash]
      rfl
    · rw [postUpdate_far]
      rfl
  · intro r hr g j u o s x hx i
    have he := exec_nearLoads r hr g j u o s
    refine ⟨fun hp => ?_, fun hp hm => ?_, fun hp hm ha => ?_, fun hp hm ha hin => ?_⟩
    · rw [he, nearLoad_poison hx o _ _ _ _ hp]
    · rw [he, nearLoad_modifier hx hp hm]
    · rw [he, nearLoad_align hx hp hm ha]
    · rw [he, nearLoad_bound hx hp hm ha (nearLoads_size r hr) hin]

end Sys2Proof.Proofs
end

section
/-! PROOF. What a near store writes, and what it leaves as it was (R112, R120, R152, R203, R309). -/

namespace Sys2Proof.Proofs

open Sys2Proof.Machine Sys2Proof.Claims

/-! The bytes and the chunks of a list of runs. -/

theorem mem_runBytes {runs : List (Nat × List Byte)} {a : Nat} {b : Byte} :
    (a, b) ∈ runBytes runs ↔ ∃ r ∈ runs, ∃ i, a = r.1 + i ∧ r.2[i]? = some b := by
  rw [runBytes, List.mem_flatMap]
  refine exists_congr fun r => and_congr Iff.rfl ⟨fun h => le_of_mem_run h, ?_⟩
  rintro ⟨i, rfl, hi⟩
  exact mem_run.mpr hi

/-- A chunk that a run reaches holds one of its bytes. -/
theorem exists_byte_of_chunk {r : Nat × List Byte} {k : Nat} (h0 : 0 < r.2.length) (h1 : r.1 / 64 ≤ k) (h2 : k ≤ (r.1 + r.2.length - 1) / 64) :
    ∃ i b, (r.1 + i) / 64 = k ∧ r.2[i]? = some b := by
  have hlt : max r.1 (64 * k) - r.1 < r.2.length := by omega
  exact ⟨max r.1 (64 * k) - r.1, _, by omega, List.getElem?_eq_getElem hlt⟩

theorem mem_spanChunks_runs {runs : List (Nat × List Byte)} {k : Nat} (h : k ∈ spanChunks (runs.map (fun r => (r.1, r.2.length)))) :
    ∃ a b, (a, b) ∈ runBytes runs ∧ a / 64 = k := by
  obtain ⟨p, hp, hne, h1, h2⟩ := mem_spanChunks.mp h
  obtain ⟨r, hr, rfl⟩ := List.mem_map.mp hp
  obtain ⟨i, b, hk, hb⟩ := exists_byte_of_chunk (Nat.pos_of_ne_zero hne) h1 h2
  exact ⟨r.1 + i, b, mem_runBytes.mpr ⟨r, hr, i, rfl, hb⟩, hk⟩

/-- A store is stopped where one of its bytes lies in a protected chunk (R206). -/
theorem protected_runs_iff (s : State) (runs : List (Nat × List Byte)) :
    runs.any (fun r => spanProtected s (quadOf s.cur) r.1 r.2.length) = true ↔ ∃ a b, (a, b) ∈ runBytes runs ∧ readOnlyChunk s (a / 64) := by
  rw [List.any_eq_true]
  constructor
  · rintro ⟨r, hr, hp⟩
    by_cases h0 : r.2.length = 0
    · rw [h0] at hp
      exact nomatch hp
    · obtain ⟨k, ⟨h1, h2⟩, hk⟩ := (spanProtected_iff s r.1 (Nat.pos_of_ne_zero h0)).mp hp
      obtain ⟨i, b, rfl, hb⟩ := exists_byte_of_chunk (Nat.pos_of_ne_zero h0) h1 h2
      exact ⟨r.1 + i, b, mem_runBytes.mpr ⟨r, hr, i, rfl, hb⟩, hk⟩
  · rintro ⟨a, b, hab, hk⟩
    obtain ⟨r, hr, i, rfl, hb⟩ := mem_runBytes.mp hab
    have hi : i < r.2.length := (List.getElem?_eq_some_iff.mp hb).1
    exact ⟨r, hr, (spanProtected_iff s r.1 (by omega)).mpr ⟨(r.1 + i) / 64, ⟨by omega, by omega⟩, hk⟩⟩

/-! Bytes written through a quad (R203). -/

theorem testBit_runMask {off len b : Nat} : ((2 ^ len - 1) * 2 ^ off).testBit b = decide (off ≤ b ∧ b < off + len) := by
  rw [Nat.testBit_mul_two_pow, Nat.testBit_two_pow_sub_one]
  by_cases h : off ≤ b <;> simp [h]
  omega

theorem getLsbD_runMask {off len b : Nat} (hb : b < 64) : (runMask off len).getLsbD b = decide (off ≤ b ∧ b < off + len) := by
  rw [runMask, BitVec.getLsbD_ofNat, decide_eq_true hb, Bool.true_and, testBit_runMask]

/-- The chunk marked with the bytes of a write that lie in it, if it is D. -/
def markChunk (q a n : Nat) (s : State) (k : Nat) : State :=
  let key := q * 65536 + k
  match getChunk s key with
  | some ch =>
    if ch.dirty then
      let lo := max a (64 * k) - 64 * k
      let hi := min (a + n) (64 * k + 64) - 64 * k
      putChunk s key { ch with mask := ch.mask ||| runMask lo (hi - lo) }
    else s
  | none => s

theorem quadWrite_eq (s : State) (q a : Nat) (bs : List Byte) :
    quadWrite s q a bs = (spanChunks [(a, bs.length)]).foldl (markChunk q a bs.length) (stashWrite s q a bs) := rfl

/-- The chunk map alone has changed. -/
def ChunksStep (s t : State) : Prop := { t with chunks := s.chunks } = s

theorem chunksStep_markChunk (q a n : Nat) (s : State) (k : Nat) : ChunksStep s (markChunk q a n s k) := by
  unfold markChunk
  dsimp only
  split
  · split
    · exact rfl
    · exact rfl
  · exact rfl

theorem chunksStep_markChunks (q a n : Nat) (l : List Nat) (s : State) : ChunksStep s (l.foldl (markChunk q a n) s) := by
  induction l generalizing s with
  | nil => exact rfl
  | cons k l ih =>
    have h := ih (markChunk q a n s k)
    have h1 : { markChunk q a n s k with chunks := s.chunks } = s := chunksStep_markChunk q a n s k
    exact (congrArg (fun t : State => { t with chunks := s.chunks }) h).trans h1

/-- What a write through a quad does not touch. -/
theorem quadWrite_rest (s : State) (q a : Nat) (bs : List Byte) :
    { quadWrite s q a bs with chunks := s.chunks, stash := s.stash, sbad := s.sbad, tags := s.tags } = s := by
  have h := chunksStep_markChunks q a bs.length (spanChunks [(a, bs.length)]) (stashWrite s q a bs)
  exact (congrArg (fun t : State => { t with stash := s.stash, sbad := s.sbad, tags := s.tags }) h :)

theorem quadWrite_stash (s : State) (q a : Nat) (bs : List Byte) : (quadWrite s q a bs).stash = memWriteN s.stash (stashKey q a) bs :=
  (congrArg State.stash (chunksStep_markChunks q a bs.length (spanChunks [(a, bs.length)]) (stashWrite s q a bs)) :)

theorem quadWrite_tags (s : State) (q a : Nat) (bs : List Byte) : (quadWrite s q a bs).tags = (stashWrite s q a bs).tags :=
  (congrArg State.tags (chunksStep_markChunks q a bs.length (spanChunks [(a, bs.length)]) (stashWrite s q a bs)) :)

/-- A chunk with the marks of more of its bytes. -/
def marked (ch : Chunk) (m : BitVec 64) : Chunk := { ch with mask := m }

theorem getChunk_markChunk {q a n : Nat} {s : State} {k key : Nat} {ch : Chunk} (hk : k < 65536) (h : getChunk s key = some ch) :
    ∃ m, getChunk (markChunk q a n s k) key = some (marked ch m) ∧ ∀ b, b < 64 → (m.getLsbD b = true ↔
      ch.mask.getLsbD b = true ∨ (ch.dirty = true ∧ key / 65536 = q ∧ key % 65536 = k ∧ a ≤ 64 * k + b ∧ 64 * k + b < a + n)) := by
  have hkey : key = q * 65536 + k ↔ key / 65536 = q ∧ key % 65536 = k := by omega
  unfold markChunk
  dsimp only
  by_cases he : key = q * 65536 + k
  · rw [← he, h]
    dsimp only
    by_cases hd : ch.dirty = true
    · rw [if_pos hd, getChunk_putChunk_same]
      refine ⟨_, rfl, fun b hb => ?_⟩
      obtain ⟨hq, hk'⟩ := hkey.mp he
      rw [BitVec.getLsbD_or, getLsbD_runMask hb, Bool.or_eq_true, decide_eq_true_eq]
      refine or_congr Iff.rfl ⟨fun hr => ⟨hd, hq, hk', by omega, by omega⟩, ?_⟩
      rintro ⟨-, -, -, h3, h4⟩
      omega
    · rw [if_neg hd, h]
      exact ⟨ch.mask, rfl, fun b _ => ⟨.inl, fun hor => hor.resolve_right fun hr => hd hr.1⟩⟩
  · have hsame : ∀ b, b < 64 → (ch.mask.getLsbD b = true ↔ ch.mask.getLsbD b = true ∨
        (ch.dirty = true ∧ key / 65536 = q ∧ key % 65536 = k ∧ a ≤ 64 * k + b ∧ 64 * k + b < a + n)) := fun b _ =>
      ⟨.inl, fun hor => hor.resolve_right fun hr => he (hkey.mpr ⟨hr.2.1, hr.2.2.1⟩)⟩
    split
    · split
      · rw [getChunk_putChunk_other _ _ he]
        exact ⟨ch.mask, h, hsame⟩
      · exact ⟨ch.mask, h, hsame⟩
    · exact ⟨ch.mask, h, hsame⟩

theorem getChunk_markChunks {q a n : Nat} (hn : 0 < n) (hin : a + n ≤ 4161536) {l : List Nat} (hl : ∀ k ∈ l, a / 64 ≤ k ∧ k ≤ (a + n - 1) / 64)
    {s : State} {key : Nat} {ch : Chunk} (h : getChunk s key = some ch) :
    ∃ m, getChunk (l.foldl (markChunk q a n) s) key = some (marked ch m) ∧ ∀ b, b < 64 → (m.getLsbD b = true ↔
      ch.mask.getLsbD b = true ∨ (ch.dirty = true ∧ key / 65536 = q ∧ key % 65536 ∈ l ∧ a ≤ 64 * (key % 65536) + b ∧
        64 * (key % 65536) + b < a + n)) := by
  induction l generalizing s ch with
  | nil => exact ⟨ch.mask, h, fun b _ => by simp⟩
  | cons k l ih =>
    obtain ⟨h1, h2⟩ := hl k List.mem_cons_self
    obtain ⟨m, hm, hbits⟩ := getChunk_markChunk (q := q) (a := a) (n := n) (k := k) (by omega) h
    obtain ⟨m', hm', hbits'⟩ := ih (fun k hk => hl k (List.mem_cons_of_mem _ hk)) hm
    refine ⟨m', hm', fun b hb => (hbits' b hb).trans ?_⟩
    rw [show (marked ch m).mask = m from rfl, show (marked ch m).dirty = ch.dirty from rfl, hbits b hb, List.mem_cons]
    constructor
    · rintro ((hc | ⟨hd, hq, hk, h3, h4⟩) | ⟨hd, hq, hk, h3, h4⟩)
      · exact .inl hc
      · exact .inr ⟨hd, hq, .inl hk, hk ▸ h3, hk ▸ h4⟩
      · exact .inr ⟨hd, hq, .inr hk, h3, h4⟩
    · rintro (hc | ⟨hd, hq, hk | hk, h3, h4⟩)
      · exact .inl (.inl hc)
      · exact .inl (.inr ⟨hd, hq, hk, hk ▸ h3, hk ▸ h4⟩)
      · exact .inr ⟨hd, hq, hk, h3, h4⟩

/-- A write through a quad marks its bytes in the D chunks that it touches, and changes nothing else of a chunk (R203). -/
theorem getChunk_quadWrite {s : State} {q a : Nat} {bs : List Byte} (hin : a + bs.length ≤ 4161536) {key : Nat} {ch : Chunk}
    (h : getChunk s key = some ch) : ∃ m, getChunk (quadWrite s q a bs) key = some (marked ch m) ∧ ∀ b, b < 64 → (m.getLsbD b = true ↔
      ch.mask.getLsbD b = true ∨ (ch.dirty = true ∧ key / 65536 = q ∧ a ≤ 64 * (key % 65536) + b ∧ 64 * (key % 65536) + b < a + bs.length)) := by
  rw [quadWrite_eq]
  by_cases hn : bs.length = 0
  · have hnil : spanChunks [(a, bs.length)] = [] := by rw [hn]; rfl
    rw [hnil]
    exact ⟨ch.mask, h, fun b _ => ⟨.inl, fun hor => hor.resolve_right fun hr => by omega⟩⟩
  · obtain ⟨m, hm, hbits⟩ := getChunk_markChunks (q := q) (Nat.pos_of_ne_zero hn) hin (l := spanChunks [(a, bs.length)])
      (fun k hk => mem_spanChunks_one hk) (s := stashWrite s q a bs) (key := key) (ch := ch) h
    refine ⟨m, hm, fun b hb => (hbits b hb).trans (or_congr Iff.rfl (and_congr Iff.rfl (and_congr Iff.rfl (and_iff_right_of_imp ?_))))⟩
    rintro ⟨h3, h4⟩
    refine mem_spanChunks.mpr ⟨(a, bs.length), List.mem_singleton_self _, hn, ?_, ?_⟩ <;> dsimp only <;> omega

/-- A chunk that none of the marked chunks is stays as it is. -/
theorem getChunk_markChunks_other {q a n : Nat} {l : List Nat} {key : Nat} (h : ∀ k ∈ l, key ≠ q * 65536 + k) (s : State) :
    getChunk (l.foldl (markChunk q a n) s) key = getChunk s key := by
  induction l generalizing s with
  | nil => rfl
  | cons k l ih =>
    rw [List.foldl_cons, ih fun k hk => h k (List.mem_cons_of_mem _ hk)]
    unfold markChunk
    dsimp only
    split
    · split
      · exact getChunk_putChunk_other _ _ (h k List.mem_cons_self)
      · rfl
    · rfl

/-! Several runs. -/

/-- Runs of bytes written through a quad. -/
def writeRuns (s : State) (q : Nat) (runs : List (Nat × List Byte)) : State := runs.foldl (fun s r => quadWrite s q r.1 r.2) s

theorem writeRuns_rest (s : State) (q : Nat) (runs : List (Nat × List Byte)) :
    { writeRuns s q runs with chunks := s.chunks, stash := s.stash, sbad := s.sbad, tags := s.tags } = s := by
  induction runs generalizing s with
  | nil => rfl
  | cons r runs ih =>
    have h := ih (quadWrite s q r.1 r.2)
    exact (congrArg (fun t : State => { t with chunks := s.chunks, stash := s.stash, sbad := s.sbad, tags := s.tags }) h).trans
      (quadWrite_rest s q r.1 r.2)

theorem memWf_writeRuns {s : State} (h : memWf s.stash = true) (q : Nat) (runs : List (Nat × List Byte)) :
    memWf (writeRuns s q runs).stash = true := by
  induction runs generalizing s with
  | nil => exact h
  | cons r runs ih =>
    refine ih (s := quadWrite s q r.1 r.2) ?_
    rw [quadWrite_stash]
    exact memWf_memWriteN h _ _

theorem stashKey_add (q a i : Nat) : stashKey q (a + i) = stashKey q a + i := by rw [stashKey, stashKey, Nat.add_assoc]

/-- A byte that no run writes stays. -/
theorem memRead_writeRuns_out {s : State} (hwf : memWf s.stash = true) {q : Nat} {runs : List (Nat × List Byte)} {k : Nat}
    (h : ∀ a b, (a, b) ∈ runBytes runs → k ≠ stashKey q a) : memRead (writeRuns s q runs).stash k = memRead s.stash k := by
  induction runs generalizing s with
  | nil => rfl
  | cons r runs ih =>
    have hout : k < stashKey q r.1 ∨ stashKey q r.1 + r.2.length ≤ k := by
      by_contra hin
      have hlt : k - stashKey q r.1 < r.2.length := by omega
      refine h (r.1 + (k - stashKey q r.1)) _ (mem_runBytes.mpr ⟨r, List.mem_cons_self, _, rfl, List.getElem?_eq_getElem hlt⟩) ?_
      rw [stashKey_add]
      omega
    refine (ih (s := quadWrite s q r.1 r.2) (by rw [quadWrite_stash]; exact memWf_memWriteN hwf _ _) fun a b hab => h a b ?_).trans ?_
    · obtain ⟨r', hr', rest⟩ := mem_runBytes.mp hab
      exact mem_runBytes.mpr ⟨r', List.mem_cons_of_mem _ hr', rest⟩
    · rw [quadWrite_stash, memRead_memWriteN_out hwf hout]

/-- Of several runs that write a byte the last one decides. -/
theorem memRead_writeRuns_last {s : State} (hwf : memWf s.stash = true) {q : Nat} {before after : List (Nat × List Byte)} {r : Nat × List Byte}
    {i : Nat} {b : Byte} (hb : r.2[i]? = some b) (hlast : ∀ c, (r.1 + i, c) ∉ runBytes after) :
    memRead (writeRuns s q (before ++ r :: after)).stash (stashKey q (r.1 + i)) = b := by
  have hsplit : writeRuns s q (before ++ r :: after) = writeRuns (quadWrite (writeRuns s q before) q r.1 r.2) q after := by
    rw [writeRuns, List.foldl_append]
    rfl
  have hwf' := memWf_writeRuns hwf q before
  have hi : i < r.2.length := (List.getElem?_eq_some_iff.mp hb).1
  rw [hsplit, memRead_writeRuns_out (by rw [quadWrite_stash]; exact memWf_memWriteN hwf' _ _), quadWrite_stash, stashKey_add]
  · have h := memRead_memWriteN_in hwf' (a := stashKey q r.1) hi
    rw [hb] at h
    exact (Option.some.inj h).symm
  · intro a c hac heq
    have : r.1 + i = a := by
      simp only [stashKey] at heq
      omega
    exact hlast c (this ▸ hac)

/-- A byte that some run writes, and that every run that writes it writes alike. -/
theorem memRead_writeRuns_in {s : State} (hwf : memWf s.stash = true) {q : Nat} {runs : List (Nat × List Byte)} {a : Nat} {b : Byte}
    (h : (a, b) ∈ runBytes runs) (hfun : ∀ c, (a, c) ∈ runBytes runs → c = b) : memRead (writeRuns s q runs).stash (stashKey q a) = b := by
  induction runs generalizing s with
  | nil => exact absurd h (by simp [runBytes])
  | cons r runs ih =>
    have hsub : ∀ c, (a, c) ∈ runBytes runs → (a, c) ∈ runBytes (r :: runs) := by
      intro c hc
      obtain ⟨r', hr', rest⟩ := mem_runBytes.mp hc
      exact mem_runBytes.mpr ⟨r', List.mem_cons_of_mem _ hr', rest⟩
    by_cases hlater : ∃ c, (a, c) ∈ runBytes runs
    · obtain ⟨c, hc⟩ := hlater
      obtain rfl := hfun c (hsub c hc)
      exact ih (s := quadWrite s q r.1 r.2) (by rw [quadWrite_stash]; exact memWf_memWriteN hwf _ _) hc fun c hc => hfun c (hsub c hc)
    · obtain ⟨r', hr', i, rfl, hi⟩ := mem_runBytes.mp h
      have hr : r' = r := (List.mem_cons.mp hr').resolve_right fun hr => hlater ⟨b, mem_runBytes.mpr ⟨r', hr, i, rfl, hi⟩⟩
      subst hr
      exact memRead_writeRuns_last (before := []) hwf hi fun c hc => hlater ⟨c, hc⟩

/-- The marks of several runs. -/
theorem getChunk_writeRuns {s : State} {q : Nat} {runs : List (Nat × List Byte)} (hin : ∀ r ∈ runs, r.1 + r.2.length ≤ 4161536) {key : Nat}
    {ch : Chunk} (h : getChunk s key = some ch) : ∃ m, getChunk (writeRuns s q runs) key = some (marked ch m) ∧ ∀ b, b < 64 →
      (m.getLsbD b = true ↔ ch.mask.getLsbD b = true ∨ (ch.dirty = true ∧ key / 65536 = q ∧ ∃ v, (64 * (key % 65536) + b, v) ∈ runBytes runs)) := by
  induction runs generalizing s ch with
  | nil => exact ⟨ch.mask, h, fun b _ => by simp [runBytes]⟩
  | cons r runs ih =>
    obtain ⟨m, hm, hbits⟩ := getChunk_quadWrite (q := q) (hin r List.mem_cons_self) h
    obtain ⟨m', hm', hbits'⟩ := ih (fun r hr => hin r (List.mem_cons_of_mem _ hr)) hm
    refine ⟨m', hm', fun b hb => (hbits' b hb).trans ?_⟩
    rw [show (marked ch m).mask = m from rfl, show (marked ch m).dirty = ch.dirty from rfl, hbits b hb]
    constructor
    · rintro ((hc | ⟨hd, hq, h3, h4⟩) | ⟨hd, hq, v, hv⟩)
      · exact .inl hc
      · have hlt : 64 * (key % 65536) + b - r.1 < r.2.length := by omega
        exact .inr ⟨hd, hq, _, mem_runBytes.mpr ⟨r, List.mem_cons_self, _, by omega, List.getElem?_eq_getElem hlt⟩⟩
      · obtain ⟨r', hr', rest⟩ := mem_runBytes.mp hv
        exact .inr ⟨hd, hq, v, mem_runBytes.mpr ⟨r', List.mem_cons_of_mem _ hr', rest⟩⟩
    · rintro (hc | ⟨hd, hq, v, hv⟩)
      · exact .inl (.inl hc)
      · obtain ⟨r', hr', i, hi, hv'⟩ := mem_runBytes.mp hv
        rcases List.mem_cons.mp hr' with rfl | hr'
        · have := (List.getElem?_eq_some_iff.mp hv').1
          exact .inl (.inr ⟨hd, hq, by omega, by omega⟩)
        · exact .inr ⟨hd, hq, v, mem_runBytes.mpr ⟨r', hr', i, hi, hv'⟩⟩

end Sys2Proof.Proofs
end

section
/-! PROOF. Near stores and scatters to chunks that can be written as they stand; their faults and waits (R110, R112, R119, R121, R203,
R206, R221). -/

namespace Sys2Proof.Proofs

open Sys2Proof.Machine Sys2Proof.Claims

/-! Before the bytes of a store are written (R120, R152, R309, R311). -/

/-- Of the running core only the order and the images of its anvil have changed, of every other core only such images. -/
structure StoreStep (s t : State) : Prop where
  cur : t.cur = s.cur
  others : ∀ c, c ≠ s.cur → withoutImages (getCore t c) = withoutImages (getCore s c)
  archEq : { arch t with order := (arch s).order, anv := (arch s).anv } = arch s
  anv : anvilOf (arch t).anv = anvilOf (arch s).anv

theorem StoreStep.trans {s t u : State} (h : StoreStep s t) (k : StoreStep t u) : StoreStep s u where
  cur := k.cur.trans h.cur
  others c hc := (k.others c (by rw [h.cur]; exact hc)).trans (h.others c hc)
  archEq := (congrArg (fun a : CoreArch => { a with order := (arch s).order, anv := (arch s).anv }) k.archEq).trans h.archEq
  anv := k.anv.trans h.anv

theorem OrderStep.storeStep {s t : State} (h : OrderStep s t) : StoreStep s t :=
  ⟨h.cur, fun c hc => congrArg withoutImages (h.others c hc), congrArg (fun a : CoreArch => { a with anv := (arch s).anv }) h.archEq,
    (congrArg (fun a : CoreArch => anvilOf a.anv) h.archEq :)⟩

theorem StoreStep.of_cores {s t : State} (h : t.cores = s.cores) (hc : t.cur = s.cur) : StoreStep s t := by
  have hget : ∀ c, getCore t c = getCore s c := fun c => by rw [getCore, getCore, h]
  have harch : arch t = arch s := by rw [arch, arch, hc, hget]
  exact ⟨hc, fun c _ => by rw [hget], by rw [harch], by rw [harch]⟩

theorem StoreStep.regs {s t : State} (h : StoreStep s t) : (arch t).regs = (arch s).regs := (congrArg CoreArch.regs h.archEq :)
theorem StoreStep.due {s t : State} (h : StoreStep s t) : (arch t).due = (arch s).due := (congrArg CoreArch.due h.archEq :)

theorem StoreStep.sparesStores {s t : State} (h : StoreStep s t) (u : Bool) (j : Fin 16) (x : AddrIn) :
    sparesStores s (postUpdate t u j x) := by
  refine ⟨fun c hc => ?_, ?_⟩
  · rw [getCore_postUpdate_other t u j x (by rw [h.cur]; exact Ne.symm hc), h.others c hc]
  · rw [Claims.sparesRegs, arch_postUpdate]
    exact ⟨(congrArg CoreArch.ops h.archEq :), (congrArg CoreArch.res h.archEq :), (congrArg CoreArch.csr h.archEq :),
      (congrArg CoreArch.seq h.archEq :), congrArg (fun a => { a.regs with a := (arch s).regs.a }) h.archEq,
      (congrArg CoreArch.hdue h.archEq :), h.anv, (congrArg CoreArch.q h.archEq :), (congrArg CoreArch.fences h.archEq :)⟩

/-- What a store does before it writes: nothing beside the cores. -/
structure StorePrep (s t : State) : Prop extends StoreStep s t where
  rest : { t with cores := s.cores, issue := s.issue, uid := s.uid } = s

theorem StorePrep.trans {s t u : State} (h : StorePrep s t) (k : StorePrep t u) : StorePrep s u where
  toStoreStep := h.toStoreStep.trans k.toStoreStep
  rest := (congrArg (fun a : State => { a with cores := s.cores, issue := s.issue, uid := s.uid }) k.rest).trans h.rest

theorem OrderStep.storePrep {s t : State} (h : OrderStep s t) : StorePrep s t := ⟨h.storeStep, h.rest⟩

theorem StorePrep.refl (s : State) : StorePrep s s := (OrderStep.refl s).storePrep

/-- A change of the running core that leaves all but the order of its architectural state. -/
theorem orderStep_modCore (s : State) (f : Core → Core) (h : { (f (getCore s s.cur)).arch with order := (arch s).order } = arch s) :
    OrderStep s (modCore s s.cur f) := by
  refine ⟨rfl, fun c hc => getCore_modCore_other s _ (Ne.symm hc), ?_, rfl⟩
  rw [← h, arch, modCore_cur, getCore_modCore_same, h]

theorem storePrep_standOver (s : State) (ord : Nat) (runs : List (Nat × List Byte)) : StorePrep s (standOver s s.cur ord runs) := by
  unfold standOver
  split
  · exact (orderStep_modCore s _ rfl).storePrep
  · exact .refl s

theorem orderStep_signWrite (s : State) (ord : Nat) (bytes : List Byte) : OrderStep s (signWrite s s.cur ord bytes) := by
  unfold signWrite
  split
  · exact OrderStep.refl s
  · exact orderStep_modCore s _ rfl

theorem storePrep_signWrites {c : Nat} (ord : Nat) (l : List (Nat × List Byte)) {s : State} (hc : s.cur = c) :
    StorePrep s (l.foldl (fun s r => signWrite s c ord (leBytes r.1 8 ++ r.2)) s) := by
  induction l generalizing s with
  | nil => exact .refl s
  | cons r l ih =>
    subst hc
    have h := (orderStep_signWrite s ord (leBytes r.1 8 ++ r.2)).storePrep
    exact h.trans (ih h.cur)

theorem orderStep_journal (s : State) (r : JRec) (n : Nat) : OrderStep s (journal s s.cur r n) := by
  obtain ⟨j, hj⟩ := journal_eq s s.cur r n
  rw [hj]
  exact orderStep_modCore s _ rfl

/-- The images that an operation of the anvil keeps change nothing else of a core (R152). -/
theorem keepImage_eq (s : State) (d : Nat) (chunks : List Nat) : ∃ a, anvilOf a = anvilOf (getCore s d).arch.anv ∧
    (keepImage s d chunks = s ∨ keepImage s d chunks = modCore s d (fun x => { x with arch := { x.arch with anv := a } })) := by
  unfold keepImage
  split
  next op rest hq =>
    split
    · refine ⟨{ (getCore s d).arch.anv with queue := { op with pre := op.pre ++ chunks.map (fun k => (k, chunkImage s (quadOf d) k)) } :: rest },
        ?_, .inr rfl⟩
      simp only [anvilOf, hq, List.map_cons]
    · exact ⟨_, rfl, .inl rfl⟩
  next => exact ⟨_, rfl, .inl rfl⟩

theorem storePrep_keepImage (s : State) (d : Nat) (chunks : List Nat) : StorePrep s (keepImage s d chunks) := by
  obtain ⟨a, ha, h | h⟩ := keepImage_eq s d chunks
  · rw [h]
    exact .refl s
  · rw [h]
    have hself : withoutImages { getCore s d with arch := { (getCore s d).arch with anv := a } } = withoutImages (getCore s d) := by
      rw [withoutImages, withoutImages]
      simp only [ha]
    by_cases hd : d = s.cur
    · subst hd
      refine ⟨⟨rfl, fun c hc => by rw [getCore_modCore_other s _ (Ne.symm hc)], ?_, ?_⟩, rfl⟩
      · rw [arch, modCore_cur, getCore_modCore_same]
        rfl
      · rw [arch, modCore_cur, getCore_modCore_same]
        exact ha
    · have harch : arch (modCore s d (fun x => { x with arch := { x.arch with anv := a } })) = arch s := by
        rw [arch, modCore_cur, getCore_modCore_other s _ hd]
        rfl
      refine ⟨⟨rfl, fun c _ => ?_, by rw [harch], by rw [harch]⟩, rfl⟩
      by_cases hc : d = c
      · subst hc
        rw [getCore_modCore_same]
        exact hself
      · rw [getCore_modCore_other s _ hc]

theorem storePrep_keepImages (s : State) (c : Nat) (chunks : List Nat) : StorePrep s (keepImages s c chunks) := by
  unfold keepImages
  generalize range' (4 * quadOf c) 4 = l
  induction l generalizing s with
  | nil => exact .refl s
  | cons d l ih => exact (storePrep_keepImage s d chunks).trans (ih (keepImage s d chunks))

/-- A near store: nothing beside the cores changes before its runs are written. -/
theorem nearStore_eq (s : State) (ord : Nat) (lanes : Bool) (runs : List (Nat × List Byte)) :
    ∃ t, StorePrep s t ∧ nearStore s s.cur ord lanes runs = writeRuns t (quadOf s.cur) runs := by
  unfold nearStore
  dsimp only
  split
  next h =>
    have hnil : runs = [] := List.isEmpty_iff.mp h
    exact ⟨s, .refl s, by rw [hnil]; rfl⟩
  next =>
    have h1 := storePrep_standOver s ord runs
    have h2 := h1.trans (storePrep_keepImages (standOver s s.cur ord runs) s.cur (spanChunks (runs.map (fun r => (r.1, r.2.length)))))
    have h3 := h2.trans (storePrep_signWrites ord runs h2.cur)
    have h4 := orderStep_journal (runs.foldl (fun t r => signWrite t s.cur ord (leBytes r.1 8 ++ r.2))
      (keepImages (standOver s s.cur ord runs) s.cur (spanChunks (runs.map (fun r => (r.1, r.2.length))))))
      (oldRecord (standOver s s.cur ord runs) (quadOf s.cur) runs) (nearRecord lanes runs)
    rw [h3.cur] at h4
    exact ⟨_, h3.trans h4.storePrep, rfl⟩

theorem StorePrep.stash {s t : State} (h : StorePrep s t) : t.stash = s.stash := (congrArg State.stash h.rest :)
theorem StorePrep.far {s t : State} (h : StorePrep s t) : t.far = s.far := (congrArg State.far h.rest :)
theorem StorePrep.chunks {s t : State} (h : StorePrep s t) : t.chunks = s.chunks := (congrArg State.chunks h.rest :)
theorem StorePrep.dies {s t : State} (h : StorePrep s t) : t.dies = s.dies := (congrArg State.dies h.rest :)
theorem StorePrep.tags {s t : State} (h : StorePrep s t) : t.tags = s.tags := (congrArg State.tags h.rest :)

theorem writeRuns_cores (s : State) (q : Nat) (runs : List (Nat × List Byte)) : (writeRuns s q runs).cores = s.cores :=
  (congrArg State.cores (writeRuns_rest s q runs) :)
theorem writeRuns_cur (s : State) (q : Nat) (runs : List (Nat × List Byte)) : (writeRuns s q runs).cur = s.cur :=
  (congrArg State.cur (writeRuns_rest s q runs) :)
theorem writeRuns_far (s : State) (q : Nat) (runs : List (Nat × List Byte)) : (writeRuns s q runs).far = s.far :=
  (congrArg State.far (writeRuns_rest s q runs) :)
theorem writeRuns_dies (s : State) (q : Nat) (runs : List (Nat × List Byte)) : (writeRuns s q runs).dies = s.dies :=
  (congrArg State.dies (writeRuns_rest s q runs) :)

/-- What a near store leaves: its runs written, nothing else but what the store keeps for the anvils, the journal and the order. -/
structure Stored (s t : State) (runs : List (Nat × List Byte)) : Prop extends StoreStep s t where
  writes : ∃ u, u.stash = s.stash ∧ u.chunks = s.chunks ∧ t.stash = (writeRuns u (quadOf s.cur) runs).stash ∧
    t.chunks = (writeRuns u (quadOf s.cur) runs).chunks
  far : t.far = s.far
  dies : t.dies = s.dies

theorem stored_nearStore (s : State) (ord : Nat) (lanes : Bool) (runs : List (Nat × List Byte)) :
    Stored s (nearStore s s.cur ord lanes runs) runs := by
  obtain ⟨t, h, he⟩ := nearStore_eq s ord lanes runs
  rw [he]
  refine ⟨h.toStoreStep.trans (.of_cores (writeRuns_cores ..) (writeRuns_cur ..)), ⟨t, h.stash, h.chunks, rfl, rfl⟩, ?_, ?_⟩
  · rw [writeRuns_far, h.far]
  · rw [writeRuns_dies, h.dies]

/-- A step before the store that does not touch the stash. -/
theorem Stored.after {s t u : State} {runs : List (Nat × List Byte)} (h : Stored t u runs) (hc : t.cores = s.cores) (hcur : t.cur = s.cur)
    (hs : t.stash = s.stash) (hk : t.chunks = s.chunks) (hf : t.far = s.far) (hd : t.dies = s.dies) : Stored s u runs := by
  obtain ⟨v, h1, h2, h3, h4⟩ := h.writes
  rw [hcur] at h3 h4
  exact ⟨(StoreStep.of_cores hc hcur).trans h.toStoreStep, ⟨v, h1.trans hs, h2.trans hk, h3, h4⟩, h.far.trans hf, h.dies.trans hd⟩

section
variable {s t : State} {runs : List (Nat × List Byte)} (h : Stored s t runs)
include h

theorem Stored.memRead_in (hwf : memWf s.stash = true) {a : Nat} {b : Byte} (hb : (a, b) ∈ runBytes runs)
    (hfun : ∀ c, (a, c) ∈ runBytes runs → c = b) : memRead t.stash (stashByte s a) = b := by
  obtain ⟨u, hu, -, ht, -⟩ := h.writes
  rw [ht]
  exact memRead_writeRuns_in (by rw [hu]; exact hwf) hb hfun

theorem Stored.memRead_out (hwf : memWf s.stash = true) {k : Nat} (hk : ∀ a b, (a, b) ∈ runBytes runs → k ≠ stashByte s a) :
    memRead t.stash k = memRead s.stash k := by
  obtain ⟨u, hu, -, ht, -⟩ := h.writes
  rw [ht, memRead_writeRuns_out (q := quadOf s.cur) (by rw [hu]; exact hwf) hk, hu]

theorem Stored.getChunk {key : Nat} {ch : Chunk} (hin : ∀ r ∈ runs, r.1 + r.2.length ≤ 4161536) (hch : getChunk s key = some ch) :
    ∃ m, getChunk t key = some (marked ch m) ∧ ∀ b, b < 64 → (m.getLsbD b = true ↔
      ch.mask.getLsbD b = true ∨ (ch.dirty = true ∧ key / 65536 = myQuad s ∧ ∃ v, (64 * (key % 65536) + b, v) ∈ runBytes runs)) := by
  obtain ⟨u, -, hu, -, ht⟩ := h.writes
  rw [getChunk_of_chunks ht]
  exact getChunk_writeRuns hin ((getChunk_of_chunks hu key).trans hch)

end

/-! Chunks that can be written as they stand (R204, R206). -/

theorem readyWrite_of_writeReady {s : State} {k : Nat} (h : writeReady s k) (ident : Nat) : readyWrite s.cur ident k s = (true, false, s) := by
  unfold readyWrite
  rcases h with h | ⟨n, w, ch, h, -, -, hx, hch, hd⟩
  · have h' : regionOf s (quadOf s.cur) (64 * k) = .temp := h
    rw [h']
  · have h' : regionOf s (quadOf s.cur) (64 * k) = .mapped n w := h
    have hx' : xferPending s 1 (quadOf s.cur * 65536 + k) = false := hx
    have hch' : getChunk s (quadOf s.cur * 65536 + k) = some ch := hch
    rw [h']
    dsimp only
    rw [hx', if_neg (by decide), hch', Option.map_some, Option.getD_some, hd, if_pos rfl]

theorem not_readOnly_of_writeReady {s : State} {k : Nat} (h : writeReady s k) : ¬ readOnlyChunk s k := by
  rcases h with h | ⟨n, w, ch, -, hro, -⟩
  · rintro ⟨n, w, hr, -⟩
    rw [h] at hr
    exact nomatch hr
  · exact hro

theorem any_far_false {s : State} (hfar : noFarBeside s) (f : FarOp → Bool) :
    (getCore s s.cur).arch.order.far.any (fun x => decide (x.ord / 8 = orderNo s (arch s) / 8) && f x) = false := by
  refine List.any_eq_false.mpr fun x hx => ?_
  rw [decide_eq_false (hfar x hx)]
  exact Bool.false_ne_true

theorem writeWaits_of_beside {s : State} {op : NearOp} (hord : op.ord = orderNo s (arch s)) (hfar : noFarBeside s) :
    writeWaits s s.cur op = false := by
  rw [writeWaits, Bool.and_eq_false_iff, hord]
  simp only [Bool.and_assoc]
  exact .inr (any_far_false hfar _)

/-- A write to chunks that stand ready waits for no far access of its bundle. -/
theorem writeWaits_of_ready {s : State} {op : NearOp} (hord : op.ord = orderNo s (arch s)) (h : ∀ k ∈ writeChunks op, writeReady s k) :
    writeWaits s s.cur op = false := by
  by_cases hmap : ∃ k ∈ writeChunks op, ∃ n w, regionOf s (quadOf s.cur) (64 * k) = .mapped n w
  · obtain ⟨k, hk, n, w, hr⟩ := hmap
    rcases h k hk with ht | ⟨-, -, -, -, -, hfar, -⟩
    · have ht' : regionOf s (quadOf s.cur) (64 * k) = .temp := ht
      exact nomatch ht'.symm.trans hr
    · exact writeWaits_of_beside hord hfar
  · rw [writeWaits, Bool.and_eq_false_iff]
    refine .inl (List.any_eq_false.mpr fun k hk => ?_)
    cases hr : regionOf s (quadOf s.cur) (64 * k) with
    | mapped n w => exact absurd ⟨k, hk, n, w, hr⟩ hmap
    | temp => exact Bool.false_ne_true
    | unassigned => exact Bool.false_ne_true

/-- The access of a store or a scatter. -/
structure IsStore (s : State) (op : NearOp) : Prop where
  kind : (∃ lanes, op.kind = .store lanes) ∨ ∃ t p, op.kind = .storeTag t p
  spans : op.spans = []
  ord : op.ord = orderNo s (arch s)
  banks : banksIdle s (op.writes.map (fun r => (r.1, r.2.length)))

theorem IsStore.writeChunks {s : State} {op : NearOp} (h : IsStore s op) :
    writeChunks op = spanChunks (op.writes.map (fun r => (r.1, r.2.length))) := by
  rcases h.kind with ⟨lanes, hk⟩ | ⟨t, p, hk⟩ <;> rw [Machine.writeChunks, hk]

/-- A store whose chunks stand ready performs at once. -/
theorem submitNear_store {s : State} {op : NearOp} (h : IsStore s op) (hq : (arch s).order.nearq = [])
    (hready : ∀ a b, (a, b) ∈ runBytes op.writes → writeReady s (a / 64)) : submitNear s op = readDone s op := by
  have hchunks : ∀ k ∈ writeChunks op, writeReady s k := by
    intro k hk
    rw [h.writeChunks] at hk
    obtain ⟨a, b, hab, rfl⟩ := mem_spanChunks_runs hk
    exact hready a b hab
  refine submitNear_of_done hq (tryNear_of_ready (fun k hk => ?_) (writeWaits_of_ready h.ord hchunks)
    (fun k hk => readyWrite_of_writeReady (hchunks k hk) _) ?_)
  · rw [h.spans] at hk
    exact absurd hk List.not_mem_nil
  · rw [nearRows, h.spans]
    exact h.banks

theorem stored_readDone {s : State} {op : NearOp} {lanes : Bool} (hk : op.kind = .store lanes) : Stored s (readDone s op) op.writes := by
  have he : readDone s op = nearStore (serveBanks s (quadOf s.cur) (nearRows op)) s.cur op.ord lanes op.writes := by
    rw [readDone, performNear, hk]
  rw [he]
  exact (stored_nearStore (serveBanks s (quadOf s.cur) (nearRows op)) op.ord lanes op.writes).after rfl rfl rfl rfl rfl rfl

/-! The near stores (R112). -/

section
variable {i : Instr} {g : Guard} {j : Fin 16} {u : Bool} {s : State} {x : AddrIn} (h : Addresses i g j u s x)
include h

/-- The access that a near store submits. -/
def nearStored (s : State) (x : AddrIn) (kind : NearKind) (runs : List (Nat × List Byte)) : NearOp :=
  nearOp s kind [] runs 0 (accessTaint s x ||| (addrData s).t) 0 false

theorem nearStoreOp_poison {o : BitVec 6} {size align : Nat} {tagged : Bool} (hp : (x.a.p || ((addrData s).p && !tagged)) = true) :
    nearStoreOp i g j u o size align tagged s = raise s i cPoison := by
  rw [nearStoreOp, runAddr_of_addresses h, if_pos hp]

variable {o : BitVec 6} {size align : Nat} {tagged : Bool} (hp : (x.a.p || ((addrData s).p && !tagged)) = false)
include hp

theorem nearStoreOp_eq : nearStoreOp i g j u o size align tagged s =
    if updateBad u x then raise s i cModifier
    else if effective x o size % align ≠ 0 then raise s i cAlign
    else if !spanAssigned s (quadOf s.cur) (effective x o size) size then raise s i cNearBound
    else if tagged && isMapped s s.cur (effective x o size) then raise s i cMapping
    else if (storeRuns (effective x o size) size (addrData s).v (storeMask s g)).any
        (fun r => spanProtected s (quadOf s.cur) r.1 r.2.length) then raise s i cWriteProtect
    else issueNear s (nearStored s x (if tagged then .storeTag (addrData s).t (addrData s).p else .store false)
      (storeRuns (effective x o size) size (addrData s).v (storeMask s g))) u j x := by
  rw [nearStoreOp, runAddr_of_addresses h, if_neg (by rw [hp]; decide)]
  simp only [nearAddr_eq]
  rfl

theorem nearStoreOp_modifier (hm : ¬ modifierOk u x) : nearStoreOp i g j u o size align tagged s = raise s i cModifier := by
  rw [nearStoreOp_eq h hp, if_pos (updateBad_of_not_ok (mFree_of_addresses h) hm)]

variable (hm : modifierOk u x)
include hm

theorem nearStoreOp_align (ha : effective x o size % align ≠ 0) : nearStoreOp i g j u o size align tagged s = raise s i cAlign := by
  rw [nearStoreOp_eq h hp, (updateBad_eq_false_iff (mFree_of_addresses h)).mpr hm, if_neg (by decide), if_pos ha]

variable (ha : effective x o size % align = 0)
include ha

theorem nearStoreOp_bound (hs : 0 < size) (hb : ¬ assigned s (effective x o size) size) :
    nearStoreOp i g j u o size align tagged s = raise s i cNearBound := by
  rw [nearStoreOp_eq h hp, (updateBad_eq_false_iff (mFree_of_addresses h)).mpr hm, if_neg (by decide), if_neg (not_not_intro ha),
    spanAssigned_eq_not hs hb, if_pos (by decide)]

variable (hb : spanAssigned s (quadOf s.cur) (effective x o size) size = true)
include hb

theorem nearStoreOp_mapping (ht : tagged = true) (hmap : ∃ n w, regionOf s (myQuad s) (effective x o size) = .mapped n w) :
    nearStoreOp i g j u o size align tagged s = raise s i cMapping := by
  rw [nearStoreOp_eq h hp, (updateBad_eq_false_iff (mFree_of_addresses h)).mpr hm, if_neg (by decide), if_neg (not_not_intro ha),
    hb, if_neg (by decide), ht, (isMapped_iff s _).mpr hmap, if_pos (by decide)]

theorem nearStoreOp_checked (ht : tagged = true → ¬ ∃ n w, regionOf s (myQuad s) (effective x o size) = .mapped n w) :
    nearStoreOp i g j u o size align tagged s =
      if (storeRuns (effective x o size) size (addrData s).v (storeMask s g)).any (fun r => spanProtected s (quadOf s.cur) r.1 r.2.length)
      then raise s i cWriteProtect
      else issueNear s (nearStored s x (if tagged then .storeTag (addrData s).t (addrData s).p else .store false)
        (storeRuns (effective x o size) size (addrData s).v (storeMask s g))) u j x := by
  have hmap : (tagged && isMapped s s.cur (effective x o size)) = false := by
    rw [Bool.and_eq_false_imp]
    exact fun htag => Bool.of_not_eq_true fun hmapped => ht htag ((isMapped_iff s _).mp hmapped)
  rw [nearStoreOp_eq h hp, (updateBad_eq_false_iff (mFree_of_addresses h)).mpr hm, if_neg (by decide), if_neg (not_not_intro ha), hb,
    if_neg (by decide), hmap, if_neg (by decide)]

end

theorem exec_nearStores : ∀ r ∈ nearStores, ∀ (g : Guard) (j : Fin 16) (u : Bool) (o : BitVec 6) (s : State),
    exec (r.1 g j u o) s = .next (nearStoreOp (r.1 g j u o) g j u o r.2.1 r.2.2 false s) := by
  intro r hr g j u o s
  simp only [nearStores, List.mem_cons, List.not_mem_nil, or_false] at hr
  rcases hr with rfl | rfl | rfl | rfl | rfl <;> rfl

theorem nearStores_size : ∀ r ∈ nearStores, 0 < r.2.1 := by decide

end Sys2Proof.Proofs
end

section
/-! PROOF. Near stores: those that find their chunks D, those that register a line first, the waits, the faults (R110, R112, R121, R203, R204,
R206, R210, R221). -/

namespace Sys2Proof.Proofs

open Sys2Proof.Machine Sys2Proof.Claims

/-! A registration of a line that no chunk holds (R204, R210). -/

/-- The chunk of a line returned by its home, D, nothing of it written yet; the home's directory names it. -/
def registeredChunk (s : State) (c ident key : Nat) (l : Loc) : State :=
  modDie (putChunk (filledChunk s c ident (chunkGang s key) key l) key
    { dirty := true, stamp := fillStamp s c ident (chunkGang s key) l, mask := 0 }) (homeOf l.pa) (fun d => { d with dir := d.dir ++ [(l.pa / 64, key)] })

theorem TokenStep.evictedLine {s t : State} (h : TokenStep s t) (pa : Nat) : evictedLine t pa = evictedLine s pa := by
  rw [Machine.evictedLine, Machine.evictedLine, h.dir]

theorem TokenStep.chunkGang {s t : State} (h : TokenStep s t) (key : Nat) : chunkGang t key = chunkGang s key := by
  have ht : t = { s with dies := t.dies } := (congrArg (fun a : State => { a with dies := t.dies }) h.eq :)
  rw [ht]
  rfl

theorem recallLine_of_none {s : State} {pa : Nat} (h : registered s pa = none) : recallLine s pa = s := by rw [recallLine, h]

theorem registerChunk_alone {s : State} {c ident key : Nat} {l : Loc} (hreg : registered s l.pa = none) (hev : evictedLine s l.pa = none) :
    (registerChunk (takeToken s c ident).2 key l.pa).2 = registeredChunk s c ident key l := by
  have htok := tokenStep_takeToken s c ident
  have h1 : recallLine (takeToken s c ident).2 l.pa = (takeToken s c ident).2 := recallLine_of_none ((htok.registered _).trans hreg)
  have h2 : evictedLine (takeToken s c ident).2 l.pa = none := (htok.evictedLine _).trans hev
  unfold registerChunk
  rw [h1]
  dsimp only
  rw [h2]
  dsimp only
  rw [htok.chunkGang, htok.readLine]
  simp only [fillChunk, nextStamp_snd, registeredChunk, filledChunk, fillStamp, fetched]

theorem takeWithRecalls_one {s : State} {c ident : Nat} {l : Loc} (h : holderOf s l = none) (htok : (takeToken s c ident).1 = true) :
    takeWithRecalls s c ident [l] = (true, (takeToken s c ident).2) := by
  have hok : takeToken s c ident = (true, (takeToken s c ident).2) := Prod.ext htok rfl
  rw [takeWithRecalls, takeRecalls, recallToken, h]
  dsimp only [takeRecalls]
  rw [hok]

/-- The chunk of a write is not D, and no chunk holds its line: the line is registered (R204). -/
theorem readyWrite_registers {s : State} {k ident : Nat} {l : Loc}
    (hline : ∃ n w, regionOf s (myQuad s) (64 * k) = .mapped n w ∧ chunkLoc s w (64 * k) = some l) (hpeer : l.peer = none)
    (hx : xferPending s 1 (chunkAt s k) = false) (hclean : ∀ ch, getChunk s (chunkAt s k) = some ch → ch.dirty = false)
    (htok : (takeToken s s.cur ident).1 = true) (hreg : registered s l.pa = none) (hev : evictedLine s l.pa = none) :
    readyWrite s.cur ident k s = (true, false, registeredChunk s s.cur ident (chunkAt s k) l) := by
  obtain ⟨n, w, hr, hl⟩ := hline
  have hr' : regionOf s (quadOf s.cur) (64 * k) = .mapped n w := hr
  have hkey : quadOf s.cur * 65536 + k = chunkAt s k := rfl
  have hdirty : ((getChunk s (chunkAt s k)).map (·.dirty)).getD false = false := by
    cases hch : getChunk s (chunkAt s k) with
    | none => rfl
    | some ch => exact hclean ch hch
  have hholder : holderOf s { peer := none, pa := l.pa } = none := hreg
  have hrecalls : recallsFor s l.pa = [{ peer := none, pa := l.pa }] := by
    rw [recallsFor, recallLine_of_none hreg, hev]
  have hheld : ([{ peer := none, pa := l.pa }] : List Loc).any (recallHeld s) = false := by
    rw [any_one, recallHeld, lineHeld, hholder]
    rfl
  unfold readyWrite
  rw [hr']
  dsimp only
  rw [hkey, hx, if_neg (by decide), hdirty, if_neg (by decide), hl]
  dsimp only
  rw [hpeer]
  dsimp only
  rw [hrecalls, hheld, if_neg (by decide), takeWithRecalls_one hholder htok]
  dsimp only
  rw [if_pos rfl, registerChunk_alone hreg hev]

section
variable (s : State) (c ident key : Nat) (l : Loc)

theorem registeredChunk_cores : (registeredChunk s c ident key l).cores = s.cores := filledChunk_cores s c ident (chunkGang s key) key l
theorem registeredChunk_cur : (registeredChunk s c ident key l).cur = s.cur := filledChunk_cur s c ident (chunkGang s key) key l
theorem registeredChunk_quads : (registeredChunk s c ident key l).quads = s.quads := filledChunk_quads s c ident (chunkGang s key) key l
theorem registeredChunk_far : (registeredChunk s c ident key l).far = s.far := filledChunk_far s c ident (chunkGang s key) key l

theorem registeredChunk_stash : (registeredChunk s c ident key l).stash =
    memWriteN s.stash (stashKey (key / 65536) (key % 65536 * 64)) (readLine s (chunkGang s key) l.pa).1 :=
  filledChunk_stash s c ident (chunkGang s key) key l

theorem getChunk_registeredChunk_same : getChunk (registeredChunk s c ident key l) key =
    some { dirty := true, stamp := fillStamp s c ident (chunkGang s key) l, mask := 0 } := getChunk_putChunk_same _ _ _

theorem getChunk_registeredChunk_other {k : Nat} (h : k ≠ key) : getChunk (registeredChunk s c ident key l) k = getChunk s k :=
  (getChunk_putChunk_other _ _ h).trans (getChunk_filledChunk_other s c ident (chunkGang s key) key l h)

end

theorem dir_touchL2 (s : State) (pa n : Nat) : (getDie (touchL2 s pa) n).dir = (getDie s n).dir := by
  unfold touchL2
  split
  · by_cases h : homeOf pa = n
    · rw [← h, modDie, getDie_setDie_same]
    · rw [modDie, getDie_setDie_other _ _ h]
  · rfl

theorem markBad_dies (s : State) (pa : Nat) : (markBad s pa).dies = s.dies := by
  rw [markBad]
  split <;> rfl

theorem dir_noteRead (s : State) (g : Option Gang) (pa n : Nat) : (getDie (noteRead s g pa) n).dir = (getDie s n).dir := by
  unfold noteRead
  split
  · rfl
  · rw [dir_touchL2]
    split
    · rw [getDie, getDie, markBad_dies]
    · rfl

theorem placeLine_dies (s : State) (key n : Nat) (bytes : List Byte) (bad : Bool) : (placeLine s key n bytes bad).dies = s.dies :=
  (congrArg State.dies (placeLine_rest s key n bytes bad) :)

theorem stamped_dies (s : State) (n : Nat) : (stamped s n).dies = s.dies := rfl

theorem filledChunk_dies (s : State) (c ident : Nat) (g : Option Gang) (key : Nat) (l : Loc) :
    (filledChunk s c ident g key l).dies = (fetched s c ident g l).dies := by rw [filledChunk, placeLine_dies, stamped_dies]

/-- The home's directory names the chunk. -/
theorem registered_registeredChunk {s : State} {c ident key : Nat} {l : Loc} (h : registered s l.pa = none) :
    registered (registeredChunk s c ident key l) l.pa = some key := by
  have hdir : (getDie (filledChunk s c ident (chunkGang s key) key l) (homeOf l.pa)).dir = (getDie s (homeOf l.pa)).dir := by
    rw [getDie, filledChunk_dies]
    exact (dir_noteRead _ _ _ _).trans ((tokenStep_takeToken s c ident).dir _)
  have hnone : (getDie s (homeOf l.pa)).dir.find? (fun e => e.1 = l.pa / 64) = none := by
    rw [registered, Option.map_eq_none_iff] at h
    exact h
  have hput : getDie (putChunk (filledChunk s c ident (chunkGang s key) key l) key
      { dirty := true, stamp := fillStamp s c ident (chunkGang s key) l, mask := 0 }) (homeOf l.pa) =
      getDie (filledChunk s c ident (chunkGang s key) key l) (homeOf l.pa) := rfl
  rw [registered, registeredChunk, modDie, getDie_setDie_same, hput, hdir, List.find?_append, hnone, List.find?_singleton]
  simp

theorem registered_of_dies {s t : State} (h : t.dies = s.dies) (pa : Nat) : registered t pa = registered s pa := by
  rw [registered, registered, getDie, getDie, h]

/-- A store of one chunk that registers its line first. -/
theorem submitNear_registers {s t : State} {op : NearOp} {k : Nat} (h : IsStore s op) (hq : (arch s).order.nearq = [])
    (hs : writeChunks op = [k]) (hfar : noFarBeside s) (hw : readyWrite s.cur op.ident k s = (true, false, t)) (hcur : t.cur = s.cur)
    (hquads : t.quads = s.quads) : submitNear s op = readDone t op := by
  have hread : readChunks s.cur op s = (true, op.got, s) := readChunks_of_ready fun k hk => by
    rw [h.spans] at hk
    exact absurd hk List.not_mem_nil
  have hwrite : readyAll (fun _ k s => readyWrite s.cur op.ident k s) (writeChunks op) op.got s = (true, op.got, t) := by
    rw [hs]
    simp only [readyAll, hw, Bool.and_true, Bool.false_eq_true, if_false]
  have hwrite' : readyAll (fun _ i v => readyWrite s.cur op.ident i v) (writeChunks op) op.got s = (true, op.got, t) := by
    rw [hs]
    simp only [readyAll, hw, Bool.and_true, Bool.false_eq_true, if_false]
  have hbanks : banksFree t (quadOf s.cur) (nearRows op) = true := by
    have hb := h.banks
    rw [nearRows, h.spans]
    rw [banksIdle, banksFree] at hb
    rw [banksFree]
    simp only [getQuad_of_quads hquads]
    exact hb
  refine submitNear_of_done hq ?_
  rw [tryNear_eq, hread, tryChecked]
  dsimp only
  rw [if_neg (by decide), writeWaits_of_beside h.ord hfar, if_neg (by decide), hwrite', tryWritten]
  dsimp only
  rw [if_neg (by decide), hbanks, if_neg (by decide), readDone, hcur]

/-! The near stores. -/

theorem storeRuns_within {ea size : Nat} {d : Vec} {k : Word} : ∀ r ∈ storeRuns ea size d k, r.1 + r.2.length ≤ ea + size := by
  intro r hr
  rw [storeRuns] at hr
  split at hr
  next h =>
    obtain ⟨n, hn, rfl⟩ := List.mem_map.mp hr
    obtain ⟨hlt, -⟩ := mem_maskedLanes.mp hn
    rw [laneBytes, leBytes_length]
    dsimp only
    omega
  next =>
    rw [List.mem_singleton] at hr
    subst hr
    rw [leBytes_length]

theorem storeRuns_narrow {size : Nat} (h : size ≤ 8) (ea : Nat) (d : Vec) (k : Word) : storeRuns ea size d k = [(ea, leBytes d.toNat size)] := by
  rw [storeRuns, if_neg (by omega)]

theorem nearStores_fit : ∀ r ∈ nearStores, r.2.1 ≤ 8 → r.2.2 = r.2.1 ∧ (r.2.1 = 1 ∨ r.2.1 = 2 ∨ r.2.1 = 4 ∨ r.2.1 = 8) := by decide

/-- The bytes of a store, each of them once. -/
theorem mem_runBytes_stored {s : State} {g : Guard} {ea size i : Nat} {b : Byte} :
    (ea + i, b) ∈ runBytes (storeRuns ea size (addrData s).v (storeMask s g)) ↔ storedByte s g size i = some b := by
  rw [mem_runBytes_storeRuns, storedByte_eq]
  constructor
  · rintro ⟨n, hn, h⟩
    obtain rfl : i = n := by omega
    exact h
  · exact fun h => ⟨i, rfl, h⟩

theorem exists_of_mem_runBytes {s : State} {g : Guard} {ea size a : Nat} {b : Byte}
    (h : (a, b) ∈ runBytes (storeRuns ea size (addrData s).v (storeMask s g))) : ∃ i, a = ea + i ∧ storedByte s g size i = some b := by
  rw [mem_runBytes_storeRuns] at h
  exact h

theorem protected_stored_iff {s : State} {g : Guard} {ea size : Nat} :
    (storeRuns ea size (addrData s).v (storeMask s g)).any (fun r => spanProtected s (quadOf s.cur) r.1 r.2.length) = true ↔
      ∃ n b, storedByte s g size n = some b ∧ readOnlyChunk s ((ea + n) / 64) := by
  rw [protected_runs_iff]
  constructor
  · rintro ⟨a, b, hab, hk⟩
    obtain ⟨n, rfl, hn⟩ := exists_of_mem_runBytes hab
    exact ⟨n, b, hn, hk⟩
  · rintro ⟨n, b, hn, hk⟩
    exact ⟨ea + n, b, mem_runBytes_stored.mpr hn, hk⟩

section
variable {r : (Guard → Fin 16 → Bool → BitVec 6 → Instr) × Nat × Nat} (hr : r ∈ nearStores) {g : Guard} {j : Fin 16} {u : Bool} {o : BitVec 6}
  {s : State} {x : AddrIn} (hx : Addresses (r.1 g j u o) g j u s x) (hm : modifierOk u x) (hp : x.a.p = false) (hd : (addrData s).p = false)
  (ha : effective x o r.2.1 % r.2.2 = 0) (hin : assigned s (effective x o r.2.1) r.2.1)
include hr hx hm hp hd ha hin

/-- The access that the store submits. -/
def storeSubmitted (s : State) (x : AddrIn) (g : Guard) (ea size : Nat) : NearOp :=
  nearStored s x (.store false) (storeRuns ea size (addrData s).v (storeMask s g))

theorem exec_nearStore_stops (hstop : ∃ n b, storedByte s g r.2.1 n = some b ∧ readOnlyChunk s ((effective x o r.2.1 + n) / 64)) :
    exec (r.1 g j u o) s = .next (raise s (r.1 g j u o) cWriteProtect) := by
  rw [exec_nearStores r hr, nearStoreOp_checked (tagged := false) hx (by rw [hp, hd]; rfl) hm ha (spanAssigned_eq (nearStores_size r hr) hin) nofun,
    if_pos (protected_stored_iff.mpr hstop)]

theorem exec_nearStore_submits (hgo : ¬ ∃ n b, storedByte s g r.2.1 n = some b ∧ readOnlyChunk s ((effective x o r.2.1 + n) / 64)) :
    exec (r.1 g j u o) s =
      .next (postUpdate (submitNear (numbered s) (storeSubmitted s x g (effective x o r.2.1) r.2.1)) u j x) := by
  rw [exec_nearStores r hr, nearStoreOp_checked (tagged := false) hx (by rw [hp, hd]; rfl) hm ha (spanAssigned_eq (nearStores_size r hr) hin) nofun,
    if_neg fun h => hgo (protected_stored_iff.mp h)]
  rfl

theorem nearStore_ready (hready : ∀ i b, storedByte s g r.2.1 i = some b → writeReady s ((effective x o r.2.1 + i) / 64))
    (hq : (arch s).order.nearq = []) (hwf : memWf s.stash = true)
    (hb : banksIdle s ((storeRuns (effective x o r.2.1) r.2.1 (addrData s).v (storeMask s g)).map (fun w => (w.1, w.2.length)))) :
    ∃ t, exec (r.1 g j u o) s = .next t ∧
      (∀ i b, storedByte s g r.2.1 i = some b → memRead t.stash (stashByte s (effective x o r.2.1 + i)) = b) ∧
      (∀ k, (∀ i b, storedByte s g r.2.1 i = some b → k ≠ stashByte s (effective x o r.2.1 + i)) →
        memRead t.stash k = memRead s.stash k) ∧
      (∀ key ch, getChunk s key = some ch → ∃ m, getChunk t key = some { ch with mask := m } ∧ ∀ b, b < 64 →
        (m.getLsbD b = true ↔ ch.mask.getLsbD b = true ∨ (ch.dirty = true ∧ key / 65536 = myQuad s ∧
          ∃ i v, storedByte s g r.2.1 i = some v ∧ effective x o r.2.1 + i = 64 * (key % 65536) + b))) ∧
      (∀ p, memRead t.far p = memRead s.far p) ∧ stepped s u j x t ∧ sparesStores s t ∧ (arch t).due = (arch s).due := by
  set ea := effective x o r.2.1 with hea
  have hsub := submitNear_store (s := numbered s) (op := storeSubmitted s x g ea r.2.1) ⟨.inl ⟨false, rfl⟩, rfl, rfl, hb⟩ hq fun a b hab => by
    obtain ⟨i, rfl, hi⟩ := exists_of_mem_runBytes hab
    exact hready i b hi
  have hst : Stored s (readDone (numbered s) (storeSubmitted s x g ea r.2.1)) (storeRuns ea r.2.1 (addrData s).v (storeMask s g)) :=
    (stored_readDone (s := numbered s) (op := storeSubmitted s x g ea r.2.1) (lanes := false) rfl).after rfl rfl rfl rfl rfl rfl
  refine ⟨postUpdate (readDone (numbered s) (storeSubmitted s x g ea r.2.1)) u j x, ?_, fun i b hi => ?_, fun k hk => ?_, fun key ch hch => ?_,
    fun p => ?_, stepped_of_regs hst.regs (mFree_of_addresses hx) u j, hst.sparesStores u j x, ?_⟩
  · rw [exec_nearStore_submits hr hx hm hp hd ha hin fun ⟨n, b, hn, hro⟩ => not_readOnly_of_writeReady (hready n b hn) hro, ← hea, hsub]
  · rw [postUpdate_stash]
    refine hst.memRead_in hwf (mem_runBytes_stored.mpr hi) fun c hc => ?_
    rw [mem_runBytes_stored, hi] at hc
    exact (Option.some.inj hc).symm
  · rw [postUpdate_stash]
    refine hst.memRead_out hwf fun a b hab => ?_
    obtain ⟨i, rfl, hi⟩ := exists_of_mem_runBytes hab
    exact hk i b hi
  · obtain ⟨m, hm, hbits⟩ := hst.getChunk (fun w hw => (storeRuns_within w hw).trans hin.1) hch
    refine ⟨m, (getChunk_postUpdate ..).trans hm, fun b hb => (hbits b hb).trans (or_congr Iff.rfl (and_congr Iff.rfl (and_congr Iff.rfl ?_)))⟩
    constructor
    · rintro ⟨v, hv⟩
      obtain ⟨i, hi, hb⟩ := exists_of_mem_runBytes hv
      exact ⟨i, v, hb, hi.symm⟩
    · rintro ⟨i, v, hv, hi⟩
      exact ⟨v, hi ▸ mem_runBytes_stored.mpr hv⟩
  · rw [postUpdate_far, hst.far]
  · rw [postUpdate_due, hst.due]

end

/-! A store that registers its line. -/

theorem Stored.getChunk_other {s t : State} {a : Nat} {bs : List Byte} (h : Stored s t [(a, bs)]) {k key : Nat}
    (hs : spanChunks [(a, bs.length)] = [k]) (hkey : key ≠ chunkAt s k) : Machine.getChunk t key = Machine.getChunk s key := by
  obtain ⟨u, -, hu, -, ht⟩ := h.writes
  have hwrite : writeRuns u (quadOf s.cur) [(a, bs)] = (spanChunks [(a, bs.length)]).foldl (markChunk (quadOf s.cur) a bs.length)
    (stashWrite u (quadOf s.cur) a bs) := rfl
  rw [getChunk_of_chunks ht, hwrite, hs, getChunk_markChunks_other fun i hi => ?_]
  · exact getChunk_of_chunks (t := stashWrite u (quadOf s.cur) a bs) hu key
  · rw [List.mem_singleton] at hi
    subst hi
    exact hkey

section
variable {s : State} {g : Guard} {ea size : Nat}

/-- The bytes of a store within its line. -/
theorem mem_runBytes_narrow (h8 : size ≤ 8) {i : Nat} {b : Byte} :
    (64 * (ea / 64) + i, b) ∈ runBytes (storeRuns ea size (addrData s).v (storeMask s g)) ↔
      (ea % 64 ≤ i ∧ i < ea % 64 + size) ∧ (addrData s).v.extractLsb' (8 * (i - ea % 64)) 8 = b := by
  rw [mem_runBytes_storeRuns]
  constructor
  · rintro ⟨n, hn, hb⟩
    rw [byteStored, Option.ite_none_right_eq_some] at hb
    obtain ⟨⟨hlt, -⟩, hb⟩ := hb
    obtain rfl : n = i - ea % 64 := by omega
    exact ⟨by omega, Option.some.inj hb⟩
  · rintro ⟨hi, rfl⟩
    refine ⟨i - ea % 64, by omega, ?_⟩
    rw [byteStored, if_pos ⟨by omega, fun h => by omega⟩]

end

section
variable {r : (Guard → Fin 16 → Bool → BitVec 6 → Instr) × Nat × Nat} (hr : r ∈ nearStores) {g : Guard} {j : Fin 16} {u : Bool} {o : BitVec 6}
  {s : State} {x : AddrIn} (hx : Addresses (r.1 g j u o) g j u s x) (hm : modifierOk u x) (hp : x.a.p = false) (hd : (addrData s).p = false)
  (ha : effective x o r.2.1 % r.2.2 = 0) (h8 : r.2.1 ≤ 8) (hin : effective x o r.2.1 + r.2.1 ≤ 4161536) {l : Loc}
  (hl : lineAt s (effective x o r.2.1 / 64) l) (hreg : registered s l.pa = none) (hev : evictedLine s l.pa = none)
  (hro : ¬ readOnlyChunk s (effective x o r.2.1 / 64)) (hfar : noFarBeside s) (hq : (arch s).order.nearq = [])
  (hb : banksIdle s [(effective x o r.2.1, r.2.1)])

/-- The state in which the store writes. -/
def storeRegistered (s : State) (k : Nat) (l : Loc) : State := registeredChunk (numbered s) s.cur s.uid (chunkAt s k) l

include hr hx hm hp hd ha h8 hin hl hreg hev hro hfar hq hb in
theorem exec_nearStore_registers : exec (r.1 g j u o) s =
    .next (postUpdate (readDone (storeRegistered s (effective x o r.2.1 / 64) l) (storeSubmitted s x g (effective x o r.2.1) r.2.1)) u j x) := by
  obtain ⟨halign, hn⟩ := nearStores_fit r hr h8
  have hfit := fits_line hn (halign ▸ ha)
  have hpos := nearStores_size r hr
  obtain ⟨⟨n, w, hmap, hloc⟩, hpeer, hxfer, hclean, htok⟩ := hl
  have hassigned : assigned s (effective x o r.2.1) r.2.1 := by
    refine ⟨hin, fun k h1 h2 => ?_⟩
    obtain rfl : k = effective x o r.2.1 / 64 := by omega
    rw [hmap]
    exact fun h => nomatch h
  have hruns := storeRuns_narrow h8 (effective x o r.2.1) (addrData s).v (storeMask s g)
  have hspans : (storeRuns (effective x o r.2.1) r.2.1 (addrData s).v (storeMask s g)).map (fun w => (w.1, w.2.length)) =
      [(effective x o r.2.1, r.2.1)] := by
    rw [hruns, List.map_singleton, leBytes_length]
  have hstore : IsStore (numbered s) (storeSubmitted s x g (effective x o r.2.1) r.2.1) :=
    ⟨.inl ⟨false, rfl⟩, rfl, rfl, by rw [storeSubmitted, nearStored, nearOp, hspans]; exact hb⟩
  have hchunk : writeChunks (storeSubmitted s x g (effective x o r.2.1) r.2.1) = [effective x o r.2.1 / 64] := by
    rw [hstore.writeChunks]
    exact (congrArg spanChunks hspans).trans (spanChunks_of_fits hpos hfit)
  rw [exec_nearStore_submits hr hx hm hp hd ha hassigned fun ⟨n, b, hn, hstop⟩ => ?_]
  · refine congrArg (fun t => Host.Outcome.next (postUpdate t u j x)) ?_
    exact submitNear_registers hstore hq hchunk hfar
      (readyWrite_registers (s := numbered s) (ident := s.uid) ⟨n, w, hmap, hloc⟩ hpeer hxfer hclean htok hreg hev)
      (registeredChunk_cur (numbered s) _ _ _ _) (registeredChunk_quads (numbered s) _ _ _ _)
  · have hlt : n < r.2.1 := lt_of_byteStored (storedByte_eq s g r.2.1 n ▸ hn)
    rw [show (effective x o r.2.1 + n) / 64 = effective x o r.2.1 / 64 by omega] at hstop
    exact hro hstop

include hr hx hm hp hd ha h8 hin hl hreg hev hro hfar hq hb in
theorem nearStore_registers (hwf : memWf s.stash = true) :
    let ea := effective x o r.2.1
    let k := ea / 64
    let line := readLine s (chunkGang s (chunkAt s k)) l.pa
    ∃ t ch, exec (r.1 g j u o) s = .next t ∧ getChunk t (chunkAt s k) = some ch ∧ ch.dirty = true ∧ s.clock < ch.stamp ∧
      registered t l.pa = some (chunkAt s k) ∧ (∀ key, key ≠ chunkAt s k → getChunk t key = getChunk s key) ∧
      (∀ i, i < 64 → let mine := ea % 64 ≤ i ∧ i < ea % 64 + r.2.1
        (ch.mask.getLsbD i = true ↔ mine) ∧
        (mine → memRead t.stash (stashByte s (64 * k) + i) = (addrData s).v.extractLsb' (8 * (i - ea % 64)) 8) ∧
        (¬ mine → line.1[i]? = some (memRead t.stash (stashByte s (64 * k) + i)))) ∧
      (∀ y, (y < stashByte s (64 * k) ∨ stashByte s (64 * k) + 64 ≤ y) → memRead t.stash y = memRead s.stash y) ∧
      t.far = s.far ∧ stepped s u j x t ∧ sparesStores s t ∧ (arch t).due = (arch s).due := by
  intro ea k line
  obtain ⟨halign, hn⟩ := nearStores_fit r hr h8
  have hfit : ea % 64 + r.2.1 ≤ 64 := fits_line hn (halign ▸ ha)
  have hpos := nearStores_size r hr
  have hcur : (storeRegistered s k l).cur = s.cur := registeredChunk_cur (numbered s) s.cur s.uid (chunkAt s k) l
  have hst := stored_readDone (s := storeRegistered s k l) (op := storeSubmitted s x g ea r.2.1) (lanes := false) rfl
  have hruns : (storeSubmitted s x g ea r.2.1).writes = storeRuns ea r.2.1 (addrData s).v (storeMask s g) := rfl
  rw [hruns] at hst
  have hstep : StoreStep s (readDone (storeRegistered s k l) (storeSubmitted s x g ea r.2.1)) :=
    (StoreStep.of_cores (s := s) (t := storeRegistered s k l) (registeredChunk_cores (numbered s) s.cur s.uid (chunkAt s k) l) hcur).trans hst.toStoreStep
  have hlen : line.1.length = 64 := readLine_length s _ _
  have hstash : (storeRegistered s k l).stash = memWriteN s.stash (stashByte s (64 * k)) line.1 := by
    have h := registeredChunk_stash (numbered s) s.cur s.uid (chunkAt s k) l
    have hkey : stashKey (chunkAt s k / 65536) (chunkAt s k % 65536 * 64) = stashByte s (64 * k) := by
      rw [stashByte, chunkAt, stashKey, stashKey]
      omega
    rw [hkey] at h
    exact h
  have hwf' : memWf (storeRegistered s k l).stash = true := by
    rw [hstash]
    exact memWf_memWriteN hwf _ _
  have hbyte : ∀ a, stashByte (storeRegistered s k l) a = stashByte s a := fun a => by rw [stashByte, stashByte, myQuad, hcur, myQuad]
  have hout : ∀ y, (∀ i, ea % 64 ≤ i → i < ea % 64 + r.2.1 → y ≠ stashByte s (64 * k) + i) →
      memRead (readDone (storeRegistered s k l) (storeSubmitted s x g ea r.2.1)).stash y = memRead (storeRegistered s k l).stash y := by
    intro y hy
    refine hst.memRead_out hwf' fun a b hab => ?_
    obtain ⟨n, rfl, hn⟩ := exists_of_mem_runBytes hab
    have hlt : n < r.2.1 := lt_of_byteStored (storedByte_eq s g r.2.1 n ▸ hn)
    have hsplit : ea + n = 64 * k + (ea % 64 + n) := by omega
    rw [hbyte, hsplit, stashByte, stashKey_add]
    exact hy (ea % 64 + n) (by omega) (by omega)
  have hkq : chunkAt s k / 65536 = myQuad s ∧ chunkAt s k % 65536 = k := by
    rw [chunkAt]
    omega
  obtain ⟨m, hm', hbits⟩ := hst.getChunk (fun w hw => (storeRuns_within w hw).trans hin)
    (getChunk_registeredChunk_same (numbered s) s.cur s.uid (chunkAt s k) l)
  refine ⟨postUpdate (readDone (storeRegistered s k l) (storeSubmitted s x g ea r.2.1)) u j x, _,
    exec_nearStore_registers hr hx hm hp hd ha h8 hin hl hreg hev hro hfar hq hb, (getChunk_postUpdate ..).trans hm', rfl,
    lt_fillStamp (numbered s) _ _ _ _, ?_, fun key hkey => ?_, fun i hi => ⟨?_, fun hmine => ?_, fun hmine => ?_⟩, fun y hy => ?_, ?_,
    stepped_of_regs hstep.regs (mFree_of_addresses hx) u j, hstep.sparesStores u j x, ?_⟩
  · have hdies : (postUpdate (readDone (storeRegistered s k l) (storeSubmitted s x g ea r.2.1)) u j x).dies = (storeRegistered s k l).dies :=
      (congrArg State.dies (postUpdate_but_cores _ u j x) :).trans hst.dies
    rw [registered_of_dies hdies]
    exact registered_registeredChunk (s := numbered s) hreg
  · rw [getChunk_postUpdate]
    rw [storeRuns_narrow h8] at hst
    refine (hst.getChunk_other (k := k) (by rw [leBytes_length]; exact spanChunks_of_fits hpos hfit) ?_).trans
      (getChunk_registeredChunk_other (numbered s) s.cur s.uid (chunkAt s k) l hkey)
    rw [chunkAt, myQuad, hcur]
    exact hkey
  · rw [show (marked _ m).mask = m from rfl, hbits i hi]
    have hmine : (∃ v, (64 * (chunkAt s k % 65536) + i, v) ∈ runBytes (storeRuns ea r.2.1 (addrData s).v (storeMask s g))) ↔
        ea % 64 ≤ i ∧ i < ea % 64 + r.2.1 := by
      rw [hkq.2]
      exact ⟨fun ⟨v, hv⟩ => ((mem_runBytes_narrow h8).mp hv).1, fun h => ⟨_, (mem_runBytes_narrow h8).mpr ⟨h, rfl⟩⟩⟩
    rw [hmine]
    refine ⟨fun h => ?_, fun h => .inr ⟨rfl, by rw [myQuad, hcur]; exact hkq.1, h⟩⟩
    rcases h with h0 | ⟨-, -, h⟩
    · simp at h0
    · exact h
  · rw [postUpdate_stash]
    have h := hst.memRead_in hwf' ((mem_runBytes_narrow h8).mpr ⟨hmine, rfl⟩) fun c hc => ((mem_runBytes_narrow h8).mp hc).2.symm
    rw [hbyte, stashByte, stashKey_add] at h
    exact h
  · rw [postUpdate_stash, hout, hstash]
    · exact memRead_memWriteN_in hwf (by rw [hlen]; exact hi)
    · intro n h1 h2 heq
      exact hmine (by omega)
  · rw [postUpdate_stash, hout, hstash, memRead_memWriteN_out hwf (by rw [hlen]; exact hy)]
    intro n h1 h2 heq
    omega
  · rw [postUpdate_far, hst.far]
    exact registeredChunk_far (numbered s) s.cur s.uid (chunkAt s k) l
  · rw [postUpdate_due, hstep.due]

end

/-- Settles O30. -/
theorem nearStores : Obligations.NearStores := by
  refine ⟨fun r hr g j u o s x hx hm hp hd ha hin hready hq hwf hb => nearStore_ready hr hx hm hp hd ha hin hready hq hwf hb, ?_, ?_⟩
  · intro r hr h8 g j u o s x l hx hm hp hd ea k line ha hin hl hreg hev hro hfar hq hwf hb
    exact nearStore_registers hr hx hm hp hd ha h8 hin hl hreg hev hro hfar hq hb hwf
  · intro r hr g j u o s x hx i ea stops
    have he := exec_nearStores r hr g j u o s
    refine ⟨fun hbad => ?_, fun hp hd => ?_⟩
    · rw [he, nearStoreOp_poison hx]
      rcases hbad with h | h <;> simp [h]
    · have hlive : (x.a.p || ((addrData s).p && !false)) = false := by rw [hp, hd]; rfl
      refine ⟨fun hm => ?_, fun hm ha => ?_, fun hm ha hin => ?_, fun hm ha hin hstop => exec_nearStore_stops hr hx hm hp hd ha hin hstop,
        fun hm ha hin hgo hq => ?_⟩
      · rw [he, nearStoreOp_modifier hx hlive hm]
      · rw [he, nearStoreOp_align hx hlive hm ha]
      · rw [he, nearStoreOp_bound hx hlive hm ha (nearStores_size r hr) hin]
      · have hstep : OrderStep s (queuedNear s (storeSubmitted s x g ea r.2.1)) := orderStep_modOrder s (s.uid + 1) _
        refine ⟨postUpdate (queuedNear s (storeSubmitted s x g ea r.2.1)) u j x, storeSubmitted s x g ea r.2.1, ?_, ?_, rfl, rfl, ?_,
          hstep.stepped (mFree_of_addresses hx) u j, hstep.sparesCores u j x, ?_, ?_⟩
        · rw [exec_nearStore_submits hr hx hm hp hd ha hin hgo]
          exact congrArg (fun t => Host.Outcome.next (postUpdate t u j x)) (submitNear_behind (s := numbered s) hq)
        · rw [postUpdate_order, nearq_queuedNear]
        · rw [postUpdate_due, hstep.due]
        · rw [postUpdate_stash, hstep.stash]
        · rw [postUpdate_far, hstep.far]

end Sys2Proof.Proofs
end

section
/-! PROOF. The tagged store (R113) to a word of a chunk whose first byte alone is temporary. -/

namespace Sys2Proof.Proofs

open Sys2Proof.Machine Sys2Proof.Claims

theorem exec_stnT (g : Guard) (j : Fin 16) (u : Bool) (o : BitVec 6) (s : State) :
    exec (.stnT g j u o) s = .next (nearStoreOp (.stnT g j u o) g j u o 8 8 true s) := rfl

/-- A window over the first 64 bytes of a stash. -/
def firstWindow : Window :=
  { base := 0, vbase := 0, rowBytes := 64, rows := 1, rowStride := 64, ro := false, ctx := 5, byCp := true, versions := [] }

/-- A quad whose stash begins with one temporary byte, the rest of its first chunk mapped. -/
def splitQuad : Quad := { Quad.reset 0 with windows := [(3, firstWindow)], temps := [{ base := 0, len := 1, owner := 0 }] }

/-- The core of a quad with such a chunk, address 8 in a1. -/
def splitAccess : State :=
  { State.reset with
    quads := [(0, splitQuad)],
    cores := [(0, { Core.reset with arch := { CoreArch.reset with regs := { CoreArch.reset.regs with
      a := vset CoreArch.reset.regs.a 1 { v := 8, t := 0, p := false, dead := false } } } })] }

def atEight : AddrIn := { a := { v := 8, t := 0, p := false }, m := { v := 0, t := 0, p := false }, mFree := false, guard := 0 }

theorem addresses_splitAccess : Addresses (.stnT .always 1 false 0) .always 1 false splitAccess atEight :=
  ⟨rfl, rfl, fun _ => rfl, rfl, rfl, rfl, rfl⟩

theorem effective_atEight : effective atEight 0 8 = 8 := by decide +kernel

theorem inTemp_splitAccess : inTemp splitAccess 8 8 := by
  refine ⟨by decide, fun k h1 h2 => ?_⟩
  obtain rfl : k = 0 := by omega
  decide +kernel

/-- The store finds its word mapped. -/
theorem exec_splitAccess :
    exec (.stnT .always 1 false 0) splitAccess = .next (raise splitAccess (.stnT .always 1 false 0) cMapping) := by
  rw [exec_stnT, nearStoreOp_mapping addresses_splitAccess]
  · rfl
  · exact fun h => nomatch h
  · rw [effective_atEight]
  · rw [effective_atEight]
    decide +kernel
  · rfl
  · rw [effective_atEight]
    exact ⟨3, firstWindow, by decide +kernel⟩

/-- Refutes O31: a region is checked by the first bytes of its chunks (`inTemp`), while `stn.t` asks for the region of the word itself; where a
temporary region ends within a chunk, the word can be mapped, and the store raises the mapping fault and leaves no tag. -/
theorem not_taggedWords : ¬ Obligations.TaggedWords := by
  rintro ⟨hstore, -⟩
  obtain ⟨t, ht, -, -, htag, -⟩ := hstore .always 1 false 0 splitAccess atEight addresses_splitAccess (fun h => nomatch h) rfl
    (by rw [effective_atEight]) (by rw [effective_atEight]; exact inTemp_splitAccess) rfl rfl
    (by rw [effective_atEight, banksIdle]; decide +kernel)
  rw [exec_splitAccess] at ht
  obtain rfl := Host.Outcome.next.inj ht
  have hnone : (raise splitAccess (.stnT .always 1 false 0) cMapping).tags = [] := by decide +kernel
  rw [hnone] at htag
  exact nomatch htag

end Sys2Proof.Proofs
end

section
/-! PROOF. Gathers and scatters (R119, R121, R206). -/

namespace Sys2Proof.Proofs

open Sys2Proof.Machine Sys2Proof.Claims

/-! The lanes of an access. -/

/-- The address of a lane (R119). -/
def laneAddr (s : State) (x : AddrIn) (o : BitVec 6) (i : Nat) : Nat := effective x o 4 + 4 * (laneOf (addrSecond s).v i).toNat

theorem getElem?_range' (a n i : Nat) : (range' a n)[i]? = if i < n then some (a + i) else none := by
  induction n generalizing a i with
  | zero => simp [range']
  | succ n ih =>
    cases i with
    | zero => simp [range']
    | succ i =>
      rw [range', List.getElem?_cons_succ, ih, Nat.add_assoc, Nat.add_comm 1 i]
      simp only [Nat.add_lt_add_iff_right]

theorem range'_eq_range (n : Nat) : range' 0 n = List.range n := by
  refine List.ext_getElem? fun i => ?_
  rw [getElem?_range']
  by_cases h : i < n
  · rw [if_pos h, List.getElem?_range h, Nat.zero_add]
  · rw [if_neg h, List.getElem?_eq_none (by rw [List.length_range]; omega)]

theorem nthD_laneAddrs {s : State} {x : AddrIn} {o : BitVec 6} {n : Nat} (h : n < 64) :
    nthD (laneAddrs (effective x o 4) (addrSecond s).v) n 0 = laneAddr s x o n := by
  rw [nthD, laneAddrs, List.getElem?_map, getElem?_range', if_pos h, Nat.zero_add]
  rfl

/-- The lowest number of a run of numbers that passes a test. -/
theorem find?_range'_eq_some {f : Nat → Bool} {a m n : Nat} (h1 : a ≤ n) (h2 : n < a + m) (hn : f n = true)
    (hlow : ∀ k, a ≤ k → k < n → f k = false) : (range' a m).find? f = some n := by
  induction m generalizing a with
  | zero => omega
  | succ m ih =>
    rw [range', List.find?_cons]
    by_cases ha : a = n
    · rw [ha, hn]
    · rw [hlow a (le_refl a) (by omega)]
      exact ih (by omega) (by omega) fun k hk => hlow k (by omega)

theorem find?_range'_eq_none {f : Nat → Bool} {a m : Nat} (h : ∀ k, a ≤ k → k < a + m → f k = false) : (range' a m).find? f = none := by
  rw [List.find?_eq_none]
  intro k hk
  obtain ⟨h1, h2⟩ := mem_range'.mp hk
  rw [h k h1 h2]
  exact Bool.false_ne_true

theorem firstLane_aligned {s : State} {x : AddrIn} {o : BitVec 6} (ha : ∀ k, k < 64 → laneAddr s x o k % 4 = 0) :
    firstLane (range' 0 64) (fun m => decide (nthD (laneAddrs (effective x o 4) (addrSecond s).v) m 0 % 4 ≠ 0)) = none :=
  find?_range'_eq_none fun k _ hk => by
    rw [nthD_laneAddrs (by omega)]
    exact decide_eq_false (not_not_intro (ha k (by omega)))

section
variable {i : Instr} {g : Guard} {j : Fin 16} {u : Bool} {s : State} {x : AddrIn} (h : Addresses i g j u s x) {o : BitVec 6} {store : Bool}
include h

theorem laneAccess_poison (hp : (x.a.p || (addrSecond s).p || (store && (addrData s).p)) = true) :
    laneAccess i g j u o store s = raise s i cPoison := by
  rw [laneAccess, runAddr_of_addresses h, if_pos hp]

variable (hp : (x.a.p || (addrSecond s).p || (store && (addrData s).p)) = false)
include hp

/-- The lanes after the checks that a gather and a scatter share. -/
def laneTail (i : Instr) (j : Fin 16) (u : Bool) (x : AddrIn) (s : State) (g : Guard) (store : Bool) (as : List Nat) : State :=
  if store then
    match firstLane (maskedLanes (storeMask s g)) (fun n => spanProtected s (quadOf s.cur) (nthD as n 0) 4) with
    | some n => raiseWith s i cWriteProtect (portDetail i) n
    | none =>
      issueNear s (nearOp s (.store true) [] ((maskedLanes (storeMask s g)).map (fun n => (nthD as n 0, laneBytes (addrData s).v n))) 0
        (accessTaint s x ||| (addrSecond s).t ||| (addrData s).t) 0 false) u j x
  else
    issueNear s (nearOp s .load (as.map (fun b => (b, 4))) [] 12 (accessTaint s x ||| (addrSecond s).t) (x.a.t ||| (addrSecond s).t) false) u j x

/-- The checks of the lanes, and what follows them. -/
def laneChecks (i : Instr) (j : Fin 16) (u : Bool) (x : AddrIn) (s : State) (g : Guard) (store : Bool) (as : List Nat) : State :=
  match firstLane (range' 0 64) (fun n => decide (nthD as n 0 % 4 ≠ 0)) with
  | some n => raiseWith s i cAlign (portDetail i) n
  | none =>
    match firstLane (range' 0 64) (fun n => !spanAssigned s (quadOf s.cur) (nthD as n 0) 4) with
    | some n => raiseWith s i cNearBound (portDetail i) n
    | none => laneTail i j u x s g store as

theorem laneAccess_eq : laneAccess i g j u o store s =
    if updateBad u x then raise s i cModifier
    else laneChecks i j u x s g store (laneAddrs (effective x o 4) (addrSecond s).v) := by
  rw [laneAccess, runAddr_of_addresses h, if_neg (by rw [hp]; decide)]
  simp only [nearAddr_eq]
  rfl

theorem laneAccess_modifier (hm : ¬ modifierOk u x) : laneAccess i g j u o store s = raise s i cModifier := by
  rw [laneAccess_eq h hp, if_pos (updateBad_of_not_ok (mFree_of_addresses h) hm)]

variable (hm : modifierOk u x)
include hm

theorem laneAccess_checked : laneAccess i g j u o store s = laneChecks i j u x s g store (laneAddrs (effective x o 4) (addrSecond s).v) := by
  rw [laneAccess_eq h hp, (updateBad_eq_false_iff (mFree_of_addresses h)).mpr hm, if_neg (by decide)]

theorem laneAccess_align {n : Nat} (hn : n < 64) (hbad : laneAddr s x o n % 4 ≠ 0) (hlow : ∀ k, k < n → laneAddr s x o k % 4 = 0) :
    laneAccess i g j u o store s = raiseWith s i cAlign (portDetail i) n := by
  have hfirst : firstLane (range' 0 64) (fun m => decide (nthD (laneAddrs (effective x o 4) (addrSecond s).v) m 0 % 4 ≠ 0)) = some n := by
    refine find?_range'_eq_some (Nat.zero_le n) (by omega) ?_ fun k _ hk => ?_
    · rw [nthD_laneAddrs hn]
      exact decide_eq_true hbad
    · rw [nthD_laneAddrs (by omega)]
      exact decide_eq_false (not_not_intro (hlow k hk))
  rw [laneAccess_checked h hp hm, laneChecks, hfirst]

variable (ha : ∀ k, k < 64 → laneAddr s x o k % 4 = 0)
include ha

theorem laneAccess_bound {n : Nat} (hn : n < 64) (hbad : ¬ assigned s (laneAddr s x o n) 4)
    (hlow : ∀ k, k < n → assigned s (laneAddr s x o k) 4) : laneAccess i g j u o store s = raiseWith s i cNearBound (portDetail i) n := by
  have hfirst : firstLane (range' 0 64)
      (fun m => !spanAssigned s (quadOf s.cur) (nthD (laneAddrs (effective x o 4) (addrSecond s).v) m 0) 4) = some n := by
    refine find?_range'_eq_some (Nat.zero_le n) (by omega) ?_ fun k _ hk => ?_
    · rw [nthD_laneAddrs hn, spanAssigned_eq_not (by decide) hbad]
      rfl
    · rw [nthD_laneAddrs (by omega), spanAssigned_eq (by decide) (hlow k hk)]
      rfl
  rw [laneAccess_checked h hp hm, laneChecks, firstLane_aligned ha, hfirst]

theorem laneAccess_lanes (hin : ∀ k, k < 64 → assigned s (laneAddr s x o k) 4) :
    laneAccess i g j u o store s = laneTail i j u x s g store (laneAddrs (effective x o 4) (addrSecond s).v) := by
  have hfirst : firstLane (range' 0 64)
      (fun m => !spanAssigned s (quadOf s.cur) (nthD (laneAddrs (effective x o 4) (addrSecond s).v) m 0) 4) = none :=
    find?_range'_eq_none fun k _ hk => by
      rw [nthD_laneAddrs (by omega), spanAssigned_eq (by decide) (hin k (by omega))]
      rfl
  rw [laneAccess_checked h hp hm, laneChecks, firstLane_aligned ha, hfirst]

end

theorem laneFaults_of_exec {s : State} {i : Instr} {g : Guard} {j : Fin 16} {u : Bool} {x : AddrIn} {o : BitVec 6} {store : Bool}
    (he : exec i s = .next (laneAccess i g j u o store s)) (hx : Addresses i g j u s x)
    (hp : (x.a.p || (addrSecond s).p || (store && (addrData s).p)) = false) (hm : modifierOk u x) : laneFaults s i (laneAddr s x o) :=
  ⟨fun n hn hbad hlow => by rw [he, laneAccess_align hx hp hm hn hbad hlow],
    fun n hn ha hbad hlow => by rw [he, laneAccess_bound hx hp hm ha hn hbad hlow]⟩

/-! The gather. -/

theorem leNat_lt (l : List Byte) : leNat l < 256 ^ l.length := by
  induction l with
  | nil => exact Nat.one_pos
  | cons b l ih =>
    rw [leNat, List.length_cons, Nat.pow_succ]
    have := b.isLt
    omega

theorem leNat_append (l m : List Byte) : leNat (l ++ m) = leNat l + 256 ^ l.length * leNat m := by
  induction l with
  | nil => simp [leNat]
  | cons b l ih =>
    rw [List.cons_append, leNat, ih, leNat, List.length_cons, Nat.pow_succ, Nat.mul_comm (256 ^ l.length) 256]
    ring

/-- A word of a concatenation of words. -/
theorem leNat_flatMap_word {α : Type} (f : α → List Byte) (l : List α) (hf : ∀ a ∈ l, (f a).length = 4) {i : Nat} {a : α} (hi : l[i]? = some a) :
    leNat (l.flatMap f) / 2 ^ (32 * i) % 2 ^ 32 = leNat (f a) := by
  induction l generalizing i with
  | nil => simp at hi
  | cons b l ih =>
    have hb := hf b List.mem_cons_self
    have hlt := leNat_lt (f b)
    rw [hb] at hlt
    rw [List.flatMap_cons, leNat_append, hb]
    cases i with
    | zero =>
      obtain rfl : b = a := by simpa using hi
      rw [Nat.mul_zero, Nat.pow_zero, Nat.div_one]
      omega
    | succ i =>
      rw [List.getElem?_cons_succ] at hi
      have hpow : 2 ^ (32 * (i + 1)) = 2 ^ 32 * 2 ^ (32 * i) := by rw [Nat.mul_succ, Nat.add_comm, Nat.pow_add]
      rw [← ih (fun a ha => hf a (List.mem_cons_of_mem _ ha)) hi, hpow, ← Nat.div_div_eq_div_mul]
      refine congrArg (fun n => n / 2 ^ (32 * i) % 2 ^ 32) ?_
      omega

theorem laneOf_ofNat {n i : Nat} (h : i < 64) : laneOf (BitVec.ofNat 2048 n) i = BitVec.ofNat 32 (n / 2 ^ (32 * i)) := by
  refine BitVec.eq_of_getLsbD_eq fun k hk => ?_
  rw [laneOf, BitVec.getLsbD_extractLsb', BitVec.getLsbD_ofNat, BitVec.getLsbD_ofNat, Nat.testBit_div_two_pow, decide_eq_true hk,
    decide_eq_true (by omega), Nat.add_comm, Bool.true_and]

theorem laneAddrs_eq (s : State) (x : AddrIn) (o : BitVec 6) :
    (laneAddrs (effective x o 4) (addrSecond s).v).map (fun b => (b, 4)) = (List.range 64).map (fun i => (laneAddr s x o i, 4)) := by
  rw [laneAddrs, range'_eq_range, List.map_map]
  rfl

/-- The access of a gather. -/
def gatherOp (s : State) (x : AddrIn) (o : BitVec 6) : NearOp :=
  nearOp s .load ((List.range 64).map (fun i => (laneAddr s x o i, 4))) [] 12 (accessTaint s x ||| (addrSecond s).t) (x.a.t ||| (addrSecond s).t) false

theorem laneTail_gather (i : Instr) (j : Fin 16) (u : Bool) (x : AddrIn) (s : State) (g : Guard) (o : BitVec 6) :
    laneTail i j u x s g false (laneAddrs (effective x o 4) (addrSecond s).v) = issueNear s (gatherOp s x o) u j x := by
  rw [laneTail, if_neg (by decide), laneAddrs_eq, gatherOp]

theorem spanBytes_range (s : State) (q : Nat) (f : Nat → Nat) (n : Nat) : spanBytes s q ((List.range n).map (fun i => (f i, 4))) =
    (List.range n).flatMap (fun i => memReadN s.stash (stashKey q (f i)) 4) := by
  rw [spanBytes, List.flatMap_map]

theorem exec_ldnGv (g : Guard) (j : Fin 16) (u : Bool) (o : BitVec 6) (s : State) :
    exec (.ldnGv g j u o) s = .next (laneAccess (.ldnGv g j u o) g j u o false s) := rfl
theorem exec_stnSv (g : Guard) (j : Fin 16) (u : Bool) (o : BitVec 6) (s : State) :
    exec (.stnSv g j u o) s = .next (laneAccess (.stnSv g j u o) g j u o true s) := rfl

theorem gather_ready {g : Guard} {j : Fin 16} {u : Bool} {o : BitVec 6} {s : State} {x : AddrIn} (hx : Addresses (.ldnGv g j u o) g j u s x)
    (hm : modifierOk u x) (hp : (x.a.p || (addrSecond s).p || (false && (addrData s).p)) = false)
    (hready : ∀ i, i < 64 → laneAddr s x o i % 4 = 0 ∧ readable s (accessTaint s x ||| (addrSecond s).t) (laneAddr s x o i) 4)
    (hq : (arch s).order.nearq = []) (hb : banksIdle s ((List.range 64).map (fun i => (laneAddr s x o i, 4)))) :
    ∃ t v p, exec (.ldnGv g j u o) s = .next t ∧
      (∀ i, i < 64 → laneOf v i = BitVec.ofNat 32 (leNat (memReadN s.stash (stashByte s (laneAddr s x o i)) 4))) ∧
      (arch t).due = (arch s).due ++ [shortDue s (addrResult s) 12 { v := v, t := x.a.t ||| (addrSecond s).t, p := p }] ∧
      stepped s u j x t ∧ sparesCores s t ∧ t.stash = s.stash ∧ t.far = s.far := by
  have hstep : LoadStep s (loaded (numbered s) (gatherOp s x o)) := (loadStep_numbered s).trans (loadStep_loaded _ _)
  have hsub : submitNear (numbered s) (gatherOp s x o) = loaded (numbered s) (gatherOp s x o) := by
    refine submitNear_load rfl rfl hq (fun k hk => ?_) ?_
    · obtain ⟨p, hp, -, h1, h2⟩ := mem_spanChunks.mp hk
      obtain ⟨i, hi, rfl⟩ := List.mem_map.mp hp
      exact (hready i (List.mem_range.mp hi)).2.2 k h1 h2
    · rw [nearRows_load (by rfl)]
      exact hb
  refine ⟨postUpdate (loaded (numbered s) (gatherOp s x o)) u j x, (loadValue (numbered s) (gatherOp s x o)).v,
    (loadValue (numbered s) (gatherOp s x o)).p, ?_, fun i hi => ?_, ?_, stepped_of_regs hstep.regs (mFree_of_addresses hx) u j,
    hstep.sparesCores u j x, postUpdate_stash .., postUpdate_far ..⟩
  · rw [exec_ldnGv, laneAccess_lanes hx hp hm (fun k hk => (hready k hk).1) fun k hk => assigned_of_readable (hready k hk).2, laneTail_gather]
    exact congrArg (fun t => Host.Outcome.next (postUpdate t u j x)) hsub
  · have hv : (loadValue (numbered s) (gatherOp s x o)).v =
        BitVec.ofNat 2048 (leNat ((List.range 64).flatMap (fun i => memReadN s.stash (stashByte s (laneAddr s x o i)) 4))) :=
      congrArg (fun l => BitVec.ofNat 2048 (leNat l)) (spanBytes_range (numbered s) (quadOf s.cur) (laneAddr s x o) 64)
    rw [hv, laneOf_ofNat hi, ← leNat_flatMap_word (fun i => memReadN s.stash (stashByte s (laneAddr s x o i)) 4) (List.range 64)
      (fun _ _ => memReadN_length _ _ _) (List.getElem?_range hi)]
    refine BitVec.eq_of_toNat_eq ?_
    simp
  · rw [postUpdate_due, due_loaded]
    rfl

/-! The scatter. -/

/-- The runs of a scatter, in lane order. -/
def scatterRuns (s : State) (x : AddrIn) (o : BitVec 6) (g : Guard) : List (Nat × List Byte) :=
  (maskedLanes (storeMask s g)).map (fun n => (laneAddr s x o n, laneBytes (addrData s).v n))

def scatterOp (s : State) (x : AddrIn) (o : BitVec 6) (g : Guard) : NearOp :=
  nearOp s (.store true) [] (scatterRuns s x o g) 0 (accessTaint s x ||| (addrSecond s).t ||| (addrData s).t) 0 false

theorem scatterRuns_eq (s : State) (x : AddrIn) (o : BitVec 6) (g : Guard) :
    (maskedLanes (storeMask s g)).map (fun n => (nthD (laneAddrs (effective x o 4) (addrSecond s).v) n 0, laneBytes (addrData s).v n)) =
      scatterRuns s x o g :=
  List.map_congr_left fun n hn => by rw [nthD_laneAddrs (mem_maskedLanes.mp hn).1]

/-- A word lies in one chunk. -/
theorem spanProtected_word {s : State} {a : Nat} (ha : a % 4 = 0) : spanProtected s (quadOf s.cur) a 4 = true ↔ readOnlyChunk s (a / 64) := by
  rw [spanProtected_iff s a (by decide)]
  constructor
  · rintro ⟨k, ⟨h1, h2⟩, hk⟩
    obtain rfl : k = a / 64 := by omega
    exact hk
  · exact fun h => ⟨a / 64, ⟨le_refl _, by omega⟩, h⟩

theorem find?_maskedLanes {k : Word} {f : Nat → Bool} : (maskedLanes k).find? f = (range' 0 64).find? (fun n => k.getLsbD n && f n) := by
  rw [maskedLanes, List.find?_filter]
  refine congrArg (fun p => (range' 0 64).find? p) (funext fun n => ?_)
  rw [Bool.decide_and, Bool.decide_eq_true, Bool.decide_eq_true]

section
variable {g : Guard} {j : Fin 16} {u : Bool} {o : BitVec 6} {s : State} {x : AddrIn} (hx : Addresses (.stnSv g j u o) g j u s x)
  (hm : modifierOk u x) (hp : (x.a.p || (addrSecond s).p || (true && (addrData s).p)) = false)
  (hin : ∀ k, k < 64 → laneAddr s x o k % 4 = 0 ∧ assigned s (laneAddr s x o k) 4)
include hx hm hp hin

theorem scatter_protected {n : Nat} (hn : n < 64) (hmask : (storeMask s g).getLsbD n = true) (hro : readOnlyChunk s (laneAddr s x o n / 64))
    (hlow : ∀ k, k < n → (storeMask s g).getLsbD k = true → ¬ readOnlyChunk s (laneAddr s x o k / 64)) :
    exec (.stnSv g j u o) s = .next (raiseWith s (.stnSv g j u o) cWriteProtect (portDetail (.stnSv g j u o)) n) := by
  have hfirst : firstLane (maskedLanes (storeMask s g))
      (fun m => spanProtected s (quadOf s.cur) (nthD (laneAddrs (effective x o 4) (addrSecond s).v) m 0) 4) = some n := by
    rw [firstLane, find?_maskedLanes]
    refine find?_range'_eq_some (Nat.zero_le n) (by omega) ?_ fun k _ hk => ?_
    · rw [nthD_laneAddrs hn, hmask, Bool.true_and]
      exact (spanProtected_word (hin n hn).1).mpr hro
    · rw [nthD_laneAddrs (by omega), Bool.and_eq_false_imp]
      exact fun hbit => Bool.of_not_eq_true fun hsp => hlow k hk hbit ((spanProtected_word (hin k (by omega)).1).mp hsp)
  rw [exec_stnSv, laneAccess_lanes hx hp hm (fun k hk => (hin k hk).1) fun k hk => (hin k hk).2, laneTail, if_pos rfl, hfirst]

theorem exec_scatter (hro : ∀ k, k < 64 → (storeMask s g).getLsbD k = true → ¬ readOnlyChunk s (laneAddr s x o k / 64)) :
    exec (.stnSv g j u o) s = .next (postUpdate (submitNear (numbered s) (scatterOp s x o g)) u j x) := by
  have hfirst : firstLane (maskedLanes (storeMask s g))
      (fun m => spanProtected s (quadOf s.cur) (nthD (laneAddrs (effective x o 4) (addrSecond s).v) m 0) 4) = none := by
    rw [firstLane, find?_maskedLanes]
    refine find?_range'_eq_none fun k _ hk => ?_
    rw [nthD_laneAddrs (by omega), Bool.and_eq_false_imp]
    exact fun hbit => Bool.of_not_eq_true fun hsp => hro k (by omega) hbit ((spanProtected_word (hin k (by omega)).1).mp hsp)
  rw [exec_stnSv, laneAccess_lanes hx hp hm (fun k hk => (hin k hk).1) fun k hk => (hin k hk).2, laneTail, if_pos rfl, hfirst]
  dsimp only
  rw [scatterRuns_eq]
  rfl

end

theorem Stored.memRead_last {s t : State} {before after : List (Nat × List Byte)} {r : Nat × List Byte} (h : Stored s t (before ++ r :: after))
    (hwf : memWf s.stash = true) {i : Nat} {b : Byte} (hb : r.2[i]? = some b) (hlast : ∀ c, (r.1 + i, c) ∉ runBytes after) :
    memRead t.stash (stashByte s (r.1 + i)) = b := by
  obtain ⟨u, hu, -, ht, -⟩ := h.writes
  rw [ht]
  exact memRead_writeRuns_last (by rw [hu]; exact hwf) hb hlast

theorem pairwise_range' (a n : Nat) : (range' a n).Pairwise (· < ·) := by
  induction n generalizing a with
  | zero => exact List.Pairwise.nil
  | succ n ih =>
    refine List.pairwise_cons.mpr ⟨fun k hk => ?_, ih (a + 1)⟩
    have := mem_range'.mp hk
    omega

/-- The lanes after a lane of the mask are higher ones of the mask. -/
theorem maskedLanes_split {k : Word} {i : Nat} (hi : i < 64) (hbit : k.getLsbD i = true) :
    ∃ before after, maskedLanes k = before ++ i :: after ∧ ∀ n ∈ after, i < n ∧ n < 64 ∧ k.getLsbD n = true := by
  obtain ⟨before, after, hsplit⟩ := List.append_of_mem (mem_maskedLanes.mpr ⟨hi, hbit⟩)
  refine ⟨before, after, hsplit, fun n hn => ?_⟩
  have hpair : (maskedLanes k).Pairwise (· < ·) := (pairwise_range' 0 64).filter _
  rw [hsplit, List.pairwise_append] at hpair
  have hmem : n ∈ maskedLanes k := by
    rw [hsplit]
    exact List.mem_append_right _ (List.mem_cons_of_mem _ hn)
  exact ⟨(List.pairwise_cons.mp hpair.2.1).1 n hn, mem_maskedLanes.mp hmem⟩

theorem mem_runBytes_lanes {s : State} {x : AddrIn} {o : BitVec 6} {l : List Nat} {a : Nat} {c : Byte}
    (h : (a, c) ∈ runBytes (l.map (fun n => (laneAddr s x o n, laneBytes (addrData s).v n)))) :
    ∃ n ∈ l, ∃ b, b < 4 ∧ a = laneAddr s x o n + b := by
  obtain ⟨r, hr, b, rfl, hb⟩ := mem_runBytes.mp h
  obtain ⟨n, hn, rfl⟩ := List.mem_map.mp hr
  have hlt := (List.getElem?_eq_some_iff.mp hb).1
  rw [laneBytes, leBytes_length] at hlt
  exact ⟨n, hn, b, hlt, rfl⟩

theorem scatter_ready {g : Guard} {j : Fin 16} {u : Bool} {o : BitVec 6} {s : State} {x : AddrIn} (hx : Addresses (.stnSv g j u o) g j u s x)
    (hm : modifierOk u x) (hp : (x.a.p || (addrSecond s).p || (true && (addrData s).p)) = false)
    (hready : ∀ i, i < 64 → laneAddr s x o i % 4 = 0 ∧ assigned s (laneAddr s x o i) 4 ∧
      ((storeMask s g).getLsbD i = true → writeReady s (laneAddr s x o i / 64)))
    (hq : (arch s).order.nearq = []) (hwf : memWf s.stash = true)
    (hb : banksIdle s (((List.range 64).filter (fun i => (storeMask s g).getLsbD i)).map (fun i => (laneAddr s x o i, 4)))) :
    ∃ t, exec (.stnSv g j u o) s = .next t ∧
      (∀ i b, i < 64 → b < 4 → (storeMask s g).getLsbD i = true →
        (∀ k, i < k → k < 64 → (storeMask s g).getLsbD k = true → laneAddr s x o k ≠ laneAddr s x o i) →
        memRead t.stash (stashByte s (laneAddr s x o i + b)) = (addrData s).v.extractLsb' (32 * i + 8 * b) 8) ∧
      (∀ k, (∀ i b, i < 64 → b < 4 → (storeMask s g).getLsbD i = true → k ≠ stashByte s (laneAddr s x o i + b)) →
        memRead t.stash k = memRead s.stash k) ∧
      stepped s u j x t ∧ sparesStores s t ∧ t.far = s.far ∧ (arch t).due = (arch s).due := by
  have hspans : (scatterRuns s x o g).map (fun r => (r.1, r.2.length)) =
      ((List.range 64).filter (fun i => (storeMask s g).getLsbD i)).map (fun i => (laneAddr s x o i, 4)) := by
    rw [scatterRuns, List.map_map, maskedLanes, range'_eq_range]
    exact List.map_congr_left fun n _ => by rw [Function.comp_apply, laneBytes, leBytes_length]
  have hsub : submitNear (numbered s) (scatterOp s x o g) = readDone (numbered s) (scatterOp s x o g) := by
    refine submitNear_store ⟨.inl ⟨true, rfl⟩, rfl, rfl, ?_⟩ hq fun a b hab => ?_
    · exact hspans ▸ hb
    · obtain ⟨n, hn, b, hb4, rfl⟩ := mem_runBytes_lanes hab
      obtain ⟨hlt, hbit⟩ := mem_maskedLanes.mp hn
      have ha := (hready n hlt).1
      rw [show (laneAddr s x o n + b) / 64 = laneAddr s x o n / 64 by omega]
      exact (hready n hlt).2.2 hbit
  have hst : Stored s (readDone (numbered s) (scatterOp s x o g)) (scatterRuns s x o g) :=
    (stored_readDone (s := numbered s) (op := scatterOp s x o g) (lanes := true) rfl).after rfl rfl rfl rfl rfl rfl
  refine ⟨postUpdate (readDone (numbered s) (scatterOp s x o g)) u j x, ?_, fun i b hi hb4 hbit hlast => ?_, fun k hk => ?_,
    stepped_of_regs hst.regs (mFree_of_addresses hx) u j, hst.sparesStores u j x, ?_, ?_⟩
  · rw [exec_scatter hx hm hp (fun k hk => ⟨(hready k hk).1, (hready k hk).2.1⟩) fun k hk hbit => not_readOnly_of_writeReady ((hready k hk).2.2 hbit),
      hsub]
  · rw [postUpdate_stash]
    obtain ⟨before, after, hsplit, hafter⟩ := maskedLanes_split hi hbit
    have hbyte : (laneBytes (addrData s).v i)[b]? = some ((addrData s).v.extractLsb' (32 * i + 8 * b) 8) := by
      rw [laneBytes, getElem?_leBytes, if_pos hb4, laneOf_toNat_div _ _ _ hb4, Nat.mul_add, ← Nat.mul_assoc]
    rw [scatterRuns, hsplit, List.map_append, List.map_cons] at hst
    refine hst.memRead_last hwf hbyte fun c hc => ?_
    obtain ⟨n, hn, b', hb', heq⟩ := mem_runBytes_lanes hc
    obtain ⟨h1, h2, h3⟩ := hafter n hn
    have ha := (hready i hi).1
    have hn4 := (hready n h2).1
    exact hlast n h1 h2 h3 (by dsimp only at heq; omega)
  · rw [postUpdate_stash]
    refine hst.memRead_out hwf fun a b hab => ?_
    obtain ⟨n, hn, b', hb', rfl⟩ := mem_runBytes_lanes hab
    obtain ⟨hlt, hbit⟩ := mem_maskedLanes.mp hn
    exact hk n b' hlt hb' hbit
  · rw [postUpdate_far, hst.far]
  · rw [postUpdate_due, hst.due]

/-- Settles O32. -/
theorem gatherScatter : Obligations.GatherScatter := by
  refine ⟨fun g j u o s x hx => ⟨fun hbad => ?_, fun hp hs hm => ?_⟩, fun g j u o s x hx => ⟨fun hbad => ?_, fun hp hs hd hm => ?_⟩, ?_, ?_⟩
  · rw [exec_ldnGv, laneAccess_poison hx]
    rcases hbad with h | h <;> simp [h]
  · rw [exec_ldnGv, laneAccess_modifier hx (by rw [hp, hs]; rfl) hm]
  · rw [exec_stnSv, laneAccess_poison hx]
    rcases hbad with h | h | h <;> simp [h]
  · rw [exec_stnSv, laneAccess_modifier hx (by rw [hp, hs, hd]; rfl) hm]
  · intro g j u o s x hx hm hp hs at_
    have hlive : (x.a.p || (addrSecond s).p || (false && (addrData s).p)) = false := by rw [hp, hs]; rfl
    exact ⟨fun hready hq hb => gather_ready hx hm hlive hready hq hb, laneFaults_of_exec (exec_ldnGv g j u o s) hx hlive hm⟩
  · intro g j u o s x hx hm hp hs hd at_
    have hlive : (x.a.p || (addrSecond s).p || (true && (addrData s).p)) = false := by rw [hp, hs, hd]; rfl
    exact ⟨fun hready hq hwf hb => scatter_ready hx hm hlive hready hq hwf hb, laneFaults_of_exec (exec_stnSv g j u o s) hx hlive hm,
      fun n hn hin hmask hro hlow => scatter_protected hx hm hlive hin hn hmask hro hlow⟩

end Sys2Proof.Proofs
end

section
/-! PROOF. The atomics (R117, R121, R228). -/

namespace Sys2Proof.Proofs

open Sys2Proof.Machine Sys2Proof.Claims

/-! The functions (R117). -/

theorem ofInt_min_toInt (a b : Word) : BitVec.ofInt 64 (min a.toInt b.toInt) = if b.slt a then b else a := by
  by_cases h : b.toInt < a.toInt
  · rw [min_eq_right h.le, BitVec.ofInt_toInt, if_pos (BitVec.slt_iff_toInt_lt.mpr h)]
  · rw [min_eq_left (not_lt.mp h), BitVec.ofInt_toInt, if_neg fun hs => h (BitVec.slt_iff_toInt_lt.mp hs)]

theorem ofInt_max_toInt (a b : Word) : BitVec.ofInt 64 (max a.toInt b.toInt) = if a.slt b then b else a := by
  by_cases h : a.toInt < b.toInt
  · rw [max_eq_right h.le, BitVec.ofInt_toInt, if_pos (BitVec.slt_iff_toInt_lt.mpr h)]
  · rw [max_eq_left (not_lt.mp h), BitVec.ofInt_toInt, if_neg fun hs => h (BitVec.slt_iff_toInt_lt.mp hs)]

theorem ofNat_min_toNat (a b : Word) : BitVec.ofNat 64 (min a.toNat b.toNat) = if b.ult a then b else a := by
  by_cases h : b.toNat < a.toNat
  · rw [min_eq_right h.le, BitVec.ofNat_toNat, BitVec.setWidth_eq, if_pos (BitVec.ult_iff_lt.mpr h)]
  · rw [min_eq_left (not_lt.mp h), BitVec.ofNat_toNat, BitVec.setWidth_eq, if_neg fun hs => h (BitVec.ult_iff_lt.mp hs)]

theorem ofNat_max_toNat (a b : Word) : BitVec.ofNat 64 (max a.toNat b.toNat) = if a.ult b then b else a := by
  by_cases h : a.toNat < b.toNat
  · rw [max_eq_right h.le, BitVec.ofNat_toNat, BitVec.setWidth_eq, if_pos (BitVec.ult_iff_lt.mpr h)]
  · rw [max_eq_left (not_lt.mp h), BitVec.ofNat_toNat, BitVec.setWidth_eq, if_neg fun hs => h (BitVec.ult_iff_lt.mp hs)]

theorem ofNat_add_toNat (a b : Word) : BitVec.ofNat 64 (a.toNat + b.toNat) = a + b := BitVec.eq_of_toNat_eq (by simp)

/-- The table's function of an atomic is the model's. -/
theorem atomFn_of_mem : ∀ r ∈ Claims.atomics, ∀ old d c : Word, atomFn r.2.1 old d c = r.2.2 old d c := by
  simp only [Claims.atomics, List.forall_mem_cons]
  refine ⟨fun old d c => (ofNat_add_toNat old d).symm, fun _ _ _ => rfl, fun _ _ _ => rfl, fun _ _ _ => rfl,
    fun old d c => (ofInt_min_toInt old d).symm, fun old d c => (ofInt_max_toInt old d).symm, fun old d c => (ofNat_min_toNat old d).symm,
    fun old d c => (ofNat_max_toNat old d).symm, fun _ _ _ => rfl, fun _ _ _ => rfl, fun _ h => nomatch h⟩

/-- An atomic that does not write leaves the word as it was. -/
theorem atomFn_unwritten {fn : Nat} {old d c : Word} (h : atomWrites fn old c = false) : atomFn fn old d c = old := by
  rw [atomWrites, Bool.or_eq_false_iff, decide_eq_false_iff_not, decide_eq_false_iff_not, not_not] at h
  obtain ⟨rfl, hne⟩ := h
  exact if_neg hne

theorem exec_atomics : ∀ r ∈ Claims.atomics, ∀ (g : Guard) (j k : Fin 16) (c : BitVec 3) (s : State),
    exec (r.1 g j k c) s = .next (atomOp (r.1 g j k c) g j k c r.2.1 s) := by
  simp only [Claims.atomics, List.forall_mem_cons]
  exact ⟨fun _ _ _ _ _ => rfl, fun _ _ _ _ _ => rfl, fun _ _ _ _ _ => rfl, fun _ _ _ _ _ => rfl, fun _ _ _ _ _ => rfl,
    fun _ _ _ _ _ => rfl, fun _ _ _ _ _ => rfl, fun _ _ _ _ _ => rfl, fun _ _ _ _ _ => rfl, fun _ _ _ _ _ => rfl, fun _ h => nomatch h⟩

/-! The checks (R121). -/

/-- The taint sets of an atomic. -/
def atomTaint (s : State) (x : AddrIn) (fn : Nat) : TSet :=
  accessTaint s x ||| (addrData s).t ||| (if fn = 9 then (addrSecond s).t else 0)

/-- The access that an atomic at quad scope submits. -/
def atomNearOp (s : State) (x : AddrIn) (fn : Nat) : NearOp :=
  nearOp s (.atom fn (vecToWord (addrData s).v) (vecToWord (addrSecond s).v)) [(x.a.v.toNat, 8)] [] 12 (atomTaint s x fn) x.a.t false

/-- The entry of an atomic through a handle among the far accesses. -/
def atomFarOp (s : State) (k : Fin 16) (x : AddrIn) (c : BitVec 3) (fn : Nat) : FarOp :=
  let h := fetchHandle s k
  let colour := (startArch s).order.tcol
  { kind := .atom fn (vecToWord (addrData s).v) (vecToWord (addrSecond s).v) c.toNat, port := addrResult s, size := 8,
    due := (arch s).csr.cyc + atomLatency c.toNat, ord := orderNo s (arch s), e := atomTaint s x fn ||| handleTaint h,
    taint := x.a.t ||| colourSet colour, colour := colour, poison := false, parts := farParts s.uid (handleLoc h.h x.a.v.toNat) 8,
    overlay := [], after := ((arch s).order.sbuf ++ (arch s).order.released).map (·.ident) }

/-- A far atomic joins the far accesses. -/
def atomJoined (s : State) (op : FarOp) : State := modOrder (numbered s) (fun r => { r with far := r.far ++ [op] })

/-- An atomic through a handle whose handle has passed its checks. -/
def atomFarDone (i : Instr) (s : State) (k : Fin 16) (x : AddrIn) (c : BitVec 3) (fn : Nat) : State :=
  if !atomInScope s.cur c.toNat (farPlace s k x) then raise s i cAtomicScope
  else openWindow (commitEvent (atomJoined s (atomFarOp s k x c fn))) s.cur 1

/-- An atomic at quad scope. -/
def atomNear (i : Instr) (s : State) (x : AddrIn) (fn : Nat) : State :=
  if x.a.v.toNat % 8 ≠ 0 then raise s i cAlign
  else if !spanAssigned s (quadOf s.cur) x.a.v.toNat 8 then raise s i cNearBound
  else if spanProtected s (quadOf s.cur) x.a.v.toNat 8 then raise s i cWriteProtect
  else openWindow (submitNear (numbered s) (atomNearOp s x fn)) s.cur 5

/-- An operand of the atomic is poisoned. -/
def atomPoison (s : State) (x : AddrIn) (fn : Nat) : Bool := x.a.p || (addrData s).p || (decide (fn = 9) && (addrSecond s).p)

theorem atomPoison_iff (s : State) (x : AddrIn) (fn : Nat) :
    atomPoison s x fn = true ↔ x.a.p = true ∨ (addrData s).p = true ∨ (fn = 9 ∧ (addrSecond s).p = true) := by
  simp only [atomPoison, Bool.or_eq_true, Bool.and_eq_true, decide_eq_true_eq, or_assoc]

theorem atomOp_eq {i : Instr} {g : Guard} {j k : Fin 16} {c : BitVec 3} {s : State} {x : AddrIn} (h : Addresses i g j false s x) (fn : Nat) :
    atomOp i g j k c fn s = if atomPoison s x fn then raise s i cPoison
      else if c.toNat = 2 then atomNear i s x fn else farGate i k false x 8 8 true s (atomFarDone i s k x c fn) := by
  rw [farGate_eq]
  exact runAddr_of_addresses h _ _

section
variable {i : Instr} {g : Guard} {j k : Fin 16} {c : BitVec 3} {s : State} {x : AddrIn} (h : Addresses i g j false s x) {fn : Nat}
  (hp : atomPoison s x fn = false)
include h hp

theorem atomOp_near (hc : c = 2) : atomOp i g j k c fn s = atomNear i s x fn := by
  rw [atomOp_eq h, hp, if_neg (by decide), if_pos (by rw [hc]; rfl)]

theorem atomOp_far (hc : c ≠ 2) : atomOp i g j k c fn s = farGate i k false x 8 8 true s (atomFarDone i s k x c fn) := by
  have hne : c.toNat ≠ 2 := fun heq => hc (BitVec.eq_of_toNat_eq heq)
  rw [atomOp_eq h, hp, if_neg (by decide), if_neg hne]

end

theorem modifierOk_false (x : AddrIn) : modifierOk false x := fun h => nomatch h

section
variable {i : Instr} {s : State} {x : AddrIn} {fn : Nat}

theorem atomNear_align (ha : x.a.v.toNat % 8 ≠ 0) : atomNear i s x fn = raise s i cAlign := by rw [atomNear, if_pos ha]

variable (ha : x.a.v.toNat % 8 = 0)
include ha

theorem atomNear_bound (hin : ¬ assigned s x.a.v.toNat 8) : atomNear i s x fn = raise s i cNearBound := by
  rw [atomNear, if_neg (not_not_intro ha), spanAssigned_eq_not (by decide) hin, if_pos (by decide)]

theorem spanProtected_atom : spanProtected s (quadOf s.cur) x.a.v.toNat 8 = true ↔ readOnlyChunk s (x.a.v.toNat / 64) := by
  rw [spanProtected_iff s _ (by decide)]
  constructor
  · rintro ⟨k, ⟨h1, h2⟩, hk⟩
    obtain rfl : k = x.a.v.toNat / 64 := by omega
    exact hk
  · exact fun h => ⟨x.a.v.toNat / 64, ⟨le_refl _, by omega⟩, h⟩

variable (hin : assigned s x.a.v.toNat 8)
include hin

theorem atomNear_protected (hro : readOnlyChunk s (x.a.v.toNat / 64)) : atomNear i s x fn = raise s i cWriteProtect := by
  rw [atomNear, if_neg (not_not_intro ha), spanAssigned_eq (by decide) hin, if_neg (by decide), (spanProtected_atom ha).mpr hro, if_pos rfl]

theorem atomNear_submits (hro : ¬ readOnlyChunk s (x.a.v.toNat / 64)) :
    atomNear i s x fn = openWindow (submitNear (numbered s) (atomNearOp s x fn)) s.cur 5 := by
  rw [atomNear, if_neg (not_not_intro ha), spanAssigned_eq (by decide) hin, if_neg (by decide),
    if_neg fun h => hro ((spanProtected_atom ha).mp h)]

end

/-! An atomic at quad scope whose chunk stands ready. -/

theorem readReady_of_writeReady {s : State} {k : Nat} (h : writeReady s k) (e : TSet) : readReady s e k := by
  rcases h with h | ⟨n, w, ch, h, -, -, hx, hch, hd⟩
  · exact .inl h
  · exact .inr ⟨n, w, ch, h, hx, hch, .inl hd⟩

/-- The word that an atomic finds. -/
def oldWord (s : State) (a : Nat) : Word := BitVec.ofNat 64 (leNat (memReadN s.stash (stashByte s a) 8))

theorem loadStep_quadWrite (s : State) (q a : Nat) (bs : List Byte) : LoadStep s (quadWrite s q a bs) :=
  LoadStep.of_cores (congrArg State.cores (quadWrite_rest s q a bs) :) (congrArg State.cur (quadWrite_rest s q a bs) :)

theorem leBytes_leNat (l : List Byte) : leBytes (leNat l) l.length = l := by
  induction l with
  | nil => rfl
  | cons b l ih =>
    rw [leNat, List.length_cons, leBytes]
    have h1 : (b.toNat + 256 * leNat l) / 256 = leNat l := by
      have := b.isLt
      omega
    rw [h1, ih]
    refine congrArg (· :: l) (BitVec.eq_of_toNat_eq ?_)
    rw [BitVec.toNat_ofNat]
    have := b.isLt
    omega

theorem memReadN_of_bytes (m : Memory) (a n : Nat) : leBytes (leNat (memReadN m a n)) n = memReadN m a n := by
  have h := leBytes_leNat (memReadN m a n)
  rwa [memReadN_length] at h

/-- The state after the write of an atomic at quad scope. -/
def atomWritten (s : State) (a fn : Nat) (d c : Word) : State :=
  if atomWrites fn (oldWord s a) c then quadWrite s (quadOf s.cur) a (leBytes (atomFn fn (oldWord s a) d c).toNat 8) else s

theorem loadStep_atomWritten (s : State) (a fn : Nat) (d c : Word) : LoadStep s (atomWritten s a fn d c) := by
  unfold atomWritten
  split
  · exact loadStep_quadWrite s _ _ _
  · exact .refl s

theorem arch_atomWritten (s : State) (a fn : Nat) (d c : Word) : arch (atomWritten s a fn d c) = arch s := by
  unfold atomWritten
  split
  · have hrest := quadWrite_rest s (quadOf s.cur) a (leBytes (atomFn fn (oldWord s a) d c).toNat 8)
    rw [arch, arch, getCore, getCore, (congrArg State.cores hrest :), (congrArg State.cur hrest :)]
  · rfl

theorem atomWritten_far (s : State) (a fn : Nat) (d c : Word) : (atomWritten s a fn d c).far = s.far := by
  unfold atomWritten
  split
  · exact (congrArg State.far (quadWrite_rest s (quadOf s.cur) a _) :)
  · rfl

/-- The word holds the new value, no other byte has changed. -/
theorem atomWritten_stash {s : State} (hwf : memWf s.stash = true) (a fn : Nat) (d c : Word) :
    memReadN (atomWritten s a fn d c).stash (stashByte s a) 8 = leBytes (atomFn fn (oldWord s a) d c).toNat 8 ∧
      ∀ n, (n < stashByte s a ∨ stashByte s a + 8 ≤ n) → memRead (atomWritten s a fn d c).stash n = memRead s.stash n := by
  unfold atomWritten
  by_cases h : atomWrites fn (oldWord s a) c = true
  · have hlen := leBytes_length (atomFn fn (oldWord s a) d c).toNat 8
    have hkey : stashKey (quadOf s.cur) a = stashByte s a := rfl
    rw [if_pos h, quadWrite_stash, hkey]
    refine ⟨?_, fun n hn => memRead_memWriteN_out hwf (by rw [hlen]; exact hn)⟩
    have hread := memReadN_memWriteN hwf (stashByte s a) 0 8 (bs := leBytes (atomFn fn (oldWord s a) d c).toNat 8) (by rw [hlen])
    rwa [Nat.add_zero, List.drop_zero, List.take_of_length_le hlen.le] at hread
  · rw [if_neg h, atomFn_unwritten (Bool.of_not_eq_true h)]
    refine ⟨?_, fun _ _ => rfl⟩
    have hlt := leNat_lt (memReadN s.stash (stashByte s a) 8)
    rw [memReadN_length] at hlt
    rw [oldWord, BitVec.toNat_ofNat, Nat.mod_eq_of_lt (by rw [show 2 ^ 64 = 256 ^ 8 by norm_num]; exact hlt), memReadN_of_bytes]

/-- The state after an atomic at quad scope. -/
def atomPerformed (s : State) (x : AddrIn) (fn : Nat) (op : NearOp) : State :=
  deliverTo (atomWritten (serveBanks s (quadOf s.cur) (nearRows op)) x.a.v.toNat fn (vecToWord (addrData s).v) (vecToWord (addrSecond s).v))
    s.cur op.port op.due op.ord true
    { v := wordToVec (oldWord s x.a.v.toNat), t := x.a.t, p := stashBad s (quadOf s.cur) x.a.v.toNat 8 }

theorem setWidth_ofNat_2048 (n : Nat) : (BitVec.ofNat 2048 n).setWidth 64 = BitVec.ofNat 64 n :=
  BitVec.setWidth_ofNat_of_le (by decide) n

theorem readDone_of_atom (s : State) (x : AddrIn) (fn : Nat) : readDone (numbered s) (atomNearOp s x fn) =
    atomPerformed (numbered s) x fn (atomNearOp s x fn) := by
  have hbytes : (BitVec.ofNat 2048 (leNat (spanBytes (numbered s) (quadOf (numbered s).cur) (atomNearOp s x fn).spans))).setWidth 64 =
      oldWord (numbered s) x.a.v.toNat := by
    rw [setWidth_ofNat_2048, oldWord]
    exact congrArg (fun l => BitVec.ofNat 64 (leNat l)) (spanBytes_one _ _ _ _)
  have hbad : (atomNearOp s x fn).spans.any (fun p => stashBad (numbered s) (quadOf (numbered s).cur) p.1 p.2) =
      stashBad (numbered s) (quadOf s.cur) x.a.v.toNat 8 := any_one _ _
  rw [readDone, performNear]
  dsimp only [atomNearOp, nearOp] at hbytes hbad ⊢
  rw [hbytes, hbad]
  rfl

theorem atom_ready {r : (Guard → Fin 16 → Fin 16 → BitVec 3 → Instr) × Nat × (Word → Word → Word → Word)} (hr : r ∈ Claims.atomics) {g : Guard}
    {j k : Fin 16} {c : BitVec 3} {s : State} {x : AddrIn} (hx : Addresses (r.1 g j k c) g j false s x) (hp : atomPoison s x r.2.1 = false)
    (hc : c = 2) (ha : x.a.v.toNat % 8 = 0) (hin : assigned s x.a.v.toNat 8) (hready : writeReady s (x.a.v.toNat / 64))
    (hq : (arch s).order.nearq = []) (hwf : memWf s.stash = true) (hb : banksIdle s [(x.a.v.toNat, 8)]) :
    let old : Word := BitVec.ofNat 64 (leNat (memReadN s.stash (stashByte s x.a.v.toNat) 8))
    ∃ t, exec (r.1 g j k c) s = .next t ∧
      (arch t).due = (arch s).due ++ [shortDue s (addrResult s) 12
        { v := old.setWidth 2048, t := x.a.t, p := stashBad s (myQuad s) x.a.v.toNat 8 }] ∧
      memReadN t.stash (stashByte s x.a.v.toNat) 8 = leBytes (r.2.2 old (vecToWord (addrData s).v) (vecToWord (addrSecond s).v)).toNat 8 ∧
      (∀ n, (n < stashByte s x.a.v.toNat ∨ stashByte s x.a.v.toNat + 8 ≤ n) → memRead t.stash n = memRead s.stash n) ∧
      sparesCores s t ∧ (arch t).regs = (arch s).regs ∧ t.far = s.far := by
  intro old
  set op := atomNearOp s x r.2.1 with hop
  have hchunks : spanChunks [(x.a.v.toNat, 8)] = [x.a.v.toNat / 64] := spanChunks_of_fits (by decide) (by omega)
  have hready' : ∀ k ∈ spanChunks [(x.a.v.toNat, 8)], writeReady s k := by
    intro k hk
    rw [hchunks, List.mem_singleton] at hk
    exact hk ▸ hready
  have hsub : submitNear (numbered s) op = atomPerformed (numbered s) x r.2.1 op := by
    refine (submitNear_of_done (s := numbered s) (op := op) hq (tryNear_of_ready (op := op) (fun k hk => readReady_of_writeReady (s := numbered s) (hready' k hk) _)
      (writeWaits_of_ready (s := numbered s) (op := op) rfl fun k hk => hready' k hk)
      (fun k hk => readyWrite_of_writeReady (s := numbered s) (hready' k hk) op.ident) ?_)).trans (readDone_of_atom s x r.2.1)
    rw [nearRows_load (by rfl)]
    exact hb
  set w := atomWritten (serveBanks (numbered s) (quadOf s.cur) (nearRows op)) x.a.v.toNat r.2.1 (vecToWord (addrData s).v)
    (vecToWord (addrSecond s).v) with hw
  have hserve : LoadStep s (serveBanks (numbered s) (quadOf s.cur) (nearRows op)) := (loadStep_numbered s).trans (loadStep_serveBanks _ _ _)
  have hcur : w.cur = s.cur := (loadStep_atomWritten _ _ _ _ _).cur
  have hdeliver := loadStep_deliverTo w op.port op.due op.ord true
    { v := wordToVec (oldWord s x.a.v.toNat), t := x.a.t, p := stashBad s (quadOf s.cur) x.a.v.toNat 8 }
  have hdue := due_deliverTo w op.port op.due op.ord true
    { v := wordToVec (oldWord s x.a.v.toNat), t := x.a.t, p := stashBad s (quadOf s.cur) x.a.v.toNat 8 }
  rw [hcur] at hdeliver hdue
  have hstep : LoadStep s (atomPerformed (numbered s) x r.2.1 op) := (hserve.trans (loadStep_atomWritten _ _ _ _ _)).trans hdeliver
  have hwin := (orderStep_openWindow (atomPerformed (numbered s) x r.2.1 op) 5)
  rw [hstep.cur] at hwin
  obtain ⟨hnew, hkeep⟩ := atomWritten_stash (s := serveBanks (numbered s) (quadOf s.cur) (nearRows op)) hwf x.a.v.toNat r.2.1
    (vecToWord (addrData s).v) (vecToWord (addrSecond s).v)
  refine ⟨openWindow (atomPerformed (numbered s) x r.2.1 op) s.cur 5, ?_, ?_, ?_, fun n hn => ?_, (hstep.trans hwin.loadStep).sparesCores false j x,
    (hstep.trans hwin.loadStep).regs, ?_⟩
  · rw [exec_atomics r hr, atomOp_near hx hp hc, atomNear_submits ha hin (not_readOnly_of_writeReady hready), ← hop, hsub]
  · rw [hwin.due]
    refine hdue.trans ?_
    rw [hw, arch_atomWritten]
    rfl
  · rw [hwin.stash, ← atomFn_of_mem r hr]
    exact hnew
  · rw [hwin.stash]
    exact hkeep n hn
  · rw [hwin.far]
    exact atomWritten_far (serveBanks (numbered s) (quadOf s.cur) (nearRows op)) _ _ _ _

/-! Atomics through a handle (R228). -/

theorem atomLatency_eq {c : BitVec 3} (hc : c ≠ 2) : atomLatency c.toNat = if c = 3 then 160 else if c = 4 then 256 else 3072 := by
  revert c
  decide

theorem atomFarOp_parts {s : State} {k : Fin 16} {x : AddrIn} (ha : x.a.v.toNat % 8 = 0) (c : BitVec 3) (fn : Nat) :
    (atomFarOp s k x c fn).parts.map (·.loc) = [farPlace s k x] := by
  refine farParts_one _ _ (by decide) ?_
  rw [handleLoc]
  dsimp only
  omega

theorem far_committed (s : State) : (committed s).far = (arch s).order.far := by
  rw [committed]
  split <;> rfl

/-- The step of an atomic that joins the far accesses: a commit event, and the window of R314. -/
def atomSent (s : State) (op : FarOp) : State := openWindow (commitEvent (atomJoined s op)) s.cur 1

theorem orderStep_atomSent (s : State) (op : FarOp) : OrderStep s (atomSent s op) := by
  have h1 : OrderStep s (commitEvent (atomJoined s op)) := (orderStep_modOrder s (s.uid + 1) _).trans (orderStep_commitEvent _)
  have h2 := orderStep_openWindow (commitEvent (atomJoined s op)) 1
  rw [h1.cur] at h2
  exact h1.trans h2

theorem order_atomSent (s : State) (op : FarOp) : (arch (atomSent s op)).order = committed (atomJoined s op) := by
  rw [atomSent, arch_openWindow, arch_commitEvent]

theorem order_atomJoined (s : State) (op : FarOp) :
    (arch (atomJoined s op)).order = { (arch s).order with far := (arch s).order.far ++ [op] } := by
  rw [atomJoined, arch_modOrder]
  rfl

theorem far_atomSent (s : State) (op : FarOp) : (arch (atomSent s op)).order.far = (arch s).order.far ++ [op] := by
  rw [order_atomSent, far_committed, order_atomJoined]

theorem issue_atomSent {s : State} {op : FarOp} {y : Issue} (h : s.issue = some y) : (atomSent s op).issue = some { y with commit := true } := by
  have hsome : (atomJoined s op).issue = some y := h
  rw [atomSent, commitEvent_of_some hsome]
  rfl

theorem release_atomSent {s : State} {op : FarOp} (h : s.issue = none) : (arch (atomSent s op)).order.sbuf = [] ∧
    (arch (atomSent s op)).order.released = (arch s).order.released ++ (arch s).order.sbuf := by
  have hnone : (atomJoined s op).issue = none := h
  rw [order_atomSent, committed, hnone, order_atomJoined]
  exact ⟨rfl, rfl⟩

theorem atom_far {r : (Guard → Fin 16 → Fin 16 → BitVec 3 → Instr) × Nat × (Word → Word → Word → Word)} (hr : r ∈ Claims.atomics) {g : Guard}
    {j k : Fin 16} {c : BitVec 3} {s : State} {x : AddrIn} (hx : Addresses (r.1 g j k c) g j false s x) (hp : atomPoison s x r.2.1 = false)
    (hc : c ≠ 2) (hok : farOk s k x 8 8 true) : exec (r.1 g j k c) s = .next (
      if atomInScope s.cur c.toNat (farPlace s k x) then atomSent s (atomFarOp s k x c r.2.1) else raise s (r.1 g j k c) cAtomicScope) := by
  rw [exec_atomics r hr, atomOp_far hx hp hc, farGate_of_farOk (mFree_of_addresses hx) (modifierOk_false x) hok, atomFarDone]
  cases atomInScope s.cur c.toNat (farPlace s k x) <;> rfl

theorem atom_joins {r : (Guard → Fin 16 → Fin 16 → BitVec 3 → Instr) × Nat × (Word → Word → Word → Word)} (hr : r ∈ Claims.atomics) {g : Guard}
    {j k : Fin 16} {c : BitVec 3} {s : State} {x : AddrIn} (hx : Addresses (r.1 g j k c) g j false s x) (hp : atomPoison s x r.2.1 = false)
    (hc : c ≠ 2) (hok : farOk s k x 8 8 true) (hscope : atomInScope s.cur c.toNat (farPlace s k x) = true) :
    ∃ t op, exec (r.1 g j k c) s = .next t ∧ (arch t).order.far = (arch s).order.far ++ [op] ∧
      op.kind = .atom r.2.1 (vecToWord (addrData s).v) (vecToWord (addrSecond s).v) c.toNat ∧ op.port = addrResult s ∧
      op.parts.map (·.loc) = [farPlace s k x] ∧ op.due = (arch s).csr.cyc + (if c = 3 then 160 else if c = 4 then 256 else 3072) ∧
      op.after = ((arch s).order.sbuf ++ (arch s).order.released).map (·.ident) ∧
      (∀ y, s.issue = some y → t.issue = some { y with commit := true }) ∧
      (s.issue = none → (arch t).order.sbuf = [] ∧ (arch t).order.released = (arch s).order.released ++ (arch s).order.sbuf) ∧
      sparesCores s t ∧ (arch t).regs = (arch s).regs ∧ t.stash = s.stash ∧ t.far = s.far := by
  have hstep := orderStep_atomSent s (atomFarOp s k x c r.2.1)
  refine ⟨atomSent s (atomFarOp s k x c r.2.1), atomFarOp s k x c r.2.1, ?_, far_atomSent .., rfl, rfl, atomFarOp_parts hok.2.1 c r.2.1, ?_, rfl,
    fun y hy => issue_atomSent hy, fun hn => release_atomSent hn, hstep.sparesCores false j x, hstep.regs, hstep.stash, hstep.far⟩
  · rw [atom_far hr hx hp hc hok, if_pos hscope]
  · rw [← atomLatency_eq hc]
    rfl

theorem atomFaults {r : (Guard → Fin 16 → Fin 16 → BitVec 3 → Instr) × Nat × (Word → Word → Word → Word)} (hr : r ∈ Claims.atomics) {g : Guard}
    {j k : Fin 16} {c : BitVec 3} {s : State} {x : AddrIn} (hx : Addresses (r.1 g j k c) g j false s x) :
    let i := r.1 g j k c
    let off := x.a.v.toNat
    let h := vget (startArch s).regs.h k
    let bad := x.a.p = true ∨ (addrData s).p = true ∨ (r.2.1 = 9 ∧ (addrSecond s).p = true)
    (bad → exec i s = .next (raise s i cPoison)) ∧
    (¬ bad → c = 2 → off % 8 ≠ 0 → exec i s = .next (raise s i cAlign)) ∧
    (¬ bad → c = 2 → off % 8 = 0 → ¬ assigned s off 8 → exec i s = .next (raise s i cNearBound)) ∧
    (¬ bad → c = 2 → off % 8 = 0 → assigned s off 8 → readOnlyChunk s (off / 64) → exec i s = .next (raise s i cWriteProtect)) ∧
    (¬ bad → c ≠ 2 → (fetchHandle s k).early = false →
      (off % 8 ≠ 0 → exec i s = .next (raise s i cAlign)) ∧
      (off % 8 = 0 → 2 ^ 21 < off + 8 → exec i s = .next (raise s i cHandleBound)) ∧
      (off % 8 = 0 → off + 8 ≤ 2 ^ 21 → (h.made = false ∨ h.valid = false) → exec i s = .next (raise s i cHandleInvalid)) ∧
      (off % 8 = 0 → off + 8 ≤ 2 ^ 21 → h.made = true → h.valid = true → h.revoked = true → exec i s = .next (raise s i cHrev)) ∧
      (off % 8 = 0 → off + 8 ≤ 2 ^ 21 → h.made = true → h.valid = true → h.revoked = false → h.wr = false →
        exec i s = .next (raise s i cWriteProtect))) := by
  intro i off h bad
  have he : exec i s = .next (atomOp i g j k c r.2.1 s) := exec_atomics r hr g j k c s
  have hlive : ¬ bad → atomPoison s x r.2.1 = false := fun hb => Bool.of_not_eq_true fun ht => hb ((atomPoison_iff s x r.2.1).mp ht)
  refine ⟨fun hb => ?_, fun hb hc ha => ?_, fun hb hc ha hin => ?_, fun hb hc ha hin hro => ?_, fun hb hc hearly => ?_⟩
  · rw [he, atomOp_eq hx, (atomPoison_iff s x r.2.1).mpr hb, if_pos rfl]
  · rw [he, atomOp_near hx (hlive hb) hc, atomNear_align ha]
  · rw [he, atomOp_near hx (hlive hb) hc, atomNear_bound ha hin]
  · rw [he, atomOp_near hx (hlive hb) hc, atomNear_protected ha hin hro]
  · have hgate : exec i s = .next (farGate i k false x 8 8 true s (atomFarDone i s k x c r.2.1)) := by rw [he, atomOp_far hx (hlive hb) hc]
    obtain ⟨halign, hbound, hinvalid, hrev, hwrite⟩ := (farGate_faults hgate (mFree_of_addresses hx) hearly).2 (modifierOk_false x)
    exact ⟨halign, hbound, hinvalid, hrev, hwrite rfl⟩

/-- Settles O36. -/
theorem atomics : Obligations.Atomics := by
  refine ⟨fun r hr g j k c s x hx => atomFaults hr hx, ?_⟩
  intro r hr g j k c s x hx hpa hpd hps d cw
  have hp : atomPoison s x r.2.1 = false := Bool.of_not_eq_true fun ht => by
    rcases (atomPoison_iff s x r.2.1).mp ht with h | h | ⟨h9, h⟩
    · exact nomatch hpa.symm.trans h
    · exact nomatch hpd.symm.trans h
    · exact nomatch (hps h9).symm.trans h
  refine ⟨fun hc ha hin hready hq hwf hb => atom_ready hr hx hp hc ha hin hready hq hwf hb,
    fun hc hok hscope => atom_joins hr hx hp hc hok hscope, fun hc hok hscope => ?_⟩
  rw [atom_far hr hx hp hc hok, hscope, if_neg (by decide)]

end Sys2Proof.Proofs
end

section
/-! PROOF. A step: an event is executed, a core's turn begins its cycle and issues its bundle, and a bundle of one slot in use runs that
slot's instruction (R30, R45, R55). -/

namespace Sys2Proof.Proofs

open Sys2Proof.Machine Sys2Proof.Claims Sys2Proof.Laws

/-! The guard of a slot's fields is the guard of the instruction it decodes to. -/

theorem saTable_guard : ∀ f ∈ saTable, ∀ g s b, guardOf (f g s b) = guardCode g := by
  simp only [saTable, List.forall_mem_cons]
  repeat (refine And.intro (fun _ _ _ => rfl) ?_)
  simp

theorem skTable_guard : ∀ f ∈ skTable, ∀ g s k, guardOf (f g s k) = guardCode g := by
  simp only [skTable, List.forall_mem_cons]
  repeat (refine And.intro (fun _ _ _ => rfl) ?_)
  simp

theorem seqTable_guard : ∀ o ∈ seqTable, ∀ f, o = some f → ∀ g s, guardOf (f g s) = guardCode g := by
  simp only [seqTable, List.forall_mem_cons]
  repeat (refine And.intro (by intro f h g s; cases h <;> rfl) ?_)
  simp

theorem vuTable_guard : ∀ f ∈ vuTable, ∀ g s, guardOf (f g s) = guardCode g := by
  intro f hf
  simp only [vuTable, List.mem_append] at hf
  rcases hf with (hf | hf) | hf <;> revert f
  · simp only [vuTable0, List.forall_mem_cons]
    repeat (refine And.intro (fun _ _ => rfl) ?_)
    simp
  · simp only [vuTable1, List.forall_mem_cons]
    repeat (refine And.intro (fun _ _ => rfl) ?_)
    simp
  · simp only [vuTable2, List.forall_mem_cons]
    repeat (refine And.intro (fun _ _ => rfl) ?_)
    simp

theorem anvTable_guard : ∀ f ∈ anvTable, ∀ g s, guardOf (f g s) = guardCode g := by
  simp only [anvTable, List.forall_mem_cons]
  repeat (refine And.intro (fun _ _ => rfl) ?_)
  simp

theorem engTable_guard : ∀ f ∈ engTable, ∀ g s, guardOf (f g s) = guardCode g := by
  simp only [engTable, List.forall_mem_cons]
  repeat (refine And.intro (fun _ _ => rfl) ?_)
  simp

theorem tntTable_guard : ∀ f ∈ tntTable, ∀ g s, guardOf (f g s) = guardCode g := by
  simp only [tntTable, List.forall_mem_cons]
  repeat (refine And.intro (fun _ _ => rfl) ?_)
  simp

theorem barTable_guard : ∀ f ∈ barTable, ∀ g s, guardOf (f g s) = guardCode g := by
  simp only [barTable, List.forall_mem_cons]
  repeat (refine And.intro (fun _ _ => rfl) ?_)
  simp

theorem nearTable_guard : ∀ f ∈ nearTable, ∀ g a u o, guardOf (f g a u o) = guardCode g := by
  simp only [nearTable, List.forall_mem_cons]
  repeat (refine And.intro (fun _ _ _ _ => rfl) ?_)
  simp

theorem gatherTable_guard : ∀ f ∈ gatherTable, ∀ g a u o, guardOf (f g a u o) = guardCode g := by
  simp only [gatherTable, List.forall_mem_cons]
  repeat (refine And.intro (fun _ _ _ _ => rfl) ?_)
  simp

theorem farTable_guard : ∀ f ∈ farTable, ∀ g a k u l, guardOf (f g a k u l) = guardCode g := by
  simp only [farTable, List.forall_mem_cons]
  repeat (refine And.intro (fun _ _ _ _ _ => rfl) ?_)
  simp

theorem atomTable_guard : ∀ f ∈ atomTable, ∀ g a k c, guardOf (f g a k c) = guardCode g := by
  simp only [atomTable, List.forall_mem_cons]
  repeat (refine And.intro (fun _ _ _ _ => rfl) ?_)
  simp

/-- A trigger has the guard of its slot. -/
theorem guardOf_of_trigger {n : Nat} {g : Guard} {s : Src} {i : Instr} (h : decodeTrigger n g s = some i) : guardOf i = guardCode g := by
  have pick {α : Type} {l : List α} {k : Nat} {f : α → Instr} (hl : l[k]?.map f = some i) (ht : ∀ a ∈ l, guardOf (f a) = guardCode g) :
      guardOf i = guardCode g := by
    obtain ⟨a, ha, rfl⟩ := mem_of_map hl
    exact ht a ha
  have seq {k : Nat} (hl : (seqTable[k]?.join).map (fun f => f g s) = some i) : guardOf i = guardCode g := by
    obtain ⟨f, hf, rfl⟩ := Option.map_eq_some_iff.mp hl
    exact seqTable_guard _ (List.mem_of_getElem? (Option.join_eq_some_iff.mp hf)) f rfl _ _
  have one {j : Instr} (hj : guardOf j = guardCode g) (e : some j = some i) : guardOf i = guardCode g := by cases e; exact hj
  have no {x : Prop} (e : none = some i) : x := by cases e
  unfold decodeTrigger at h
  refine ite_elim h no fun h => ite_elim h (fun h => pick h fun f hf => saTable_guard f hf _ _ _) fun h => ite_elim h no fun h =>
    ite_elim h (fun h => pick h fun f hf => saTable_guard f hf _ _ _) fun h => ite_elim h no fun h =>
    dite_elim h (fun _ h => pick h fun f hf => skTable_guard f hf _ _ _) fun _ h => dite_elim h (fun _ h => one rfl h) fun _ h =>
    ite_elim h seq fun h => ite_elim h no fun h => ite_elim h (fun h => pick h fun f hf => vuTable_guard f hf _ _) fun h =>
    ite_elim h no fun h => ite_elim h (fun h => pick h fun f hf => anvTable_guard f hf _ _) fun h => ite_elim h no fun h =>
    ite_elim h (fun h => pick h fun f hf => engTable_guard f hf _ _) fun h => ite_elim h no fun h =>
    dite_elim h (fun _ h => one rfl h) fun _ h => ite_elim h (one rfl) fun h => ite_elim h no fun h =>
    ite_elim h (fun h => pick h fun f hf => tntTable_guard f hf _ _) fun h => ite_elim h no fun h =>
    ite_elim h (fun h => pick h fun f hf => barTable_guard f hf _ _) no

theorem decodeGuard_of_moveFields {g s d : Nat} {i : Instr} (h : decodeMoveFields g s d = .op i) :
    decodeGuard (guardOf i) = decodeGuard g := by
  unfold decodeMoveFields at h
  rcases hs : decodeSrc s with _ | src
  · simp [hs] at h
  simp only [hs] at h
  by_cases hg : g = 14
  · subst hg
    simp only [if_true] at h
    split at h
    · cases h
    · cases h; rfl
  · simp only [hg, if_false] at h
    rcases hd : decodeDst d with _ | x
    · rcases ht : decodeTrigger d (decodeGuard g) src with _ | y
      · simp [hd, ht] at h
      · simp only [hd, ht] at h
        cases h
        rw [guardOf_of_trigger ht, decodeGuard_guardCode]
    · simp only [hd] at h
      cases h
      exact decodeGuard_guardCode _

theorem guardOf_of_addrFields {g o m : Nat} {a k : Fin 16} {i : Instr} (h : decodeAddrFields g o a k m = .op i) :
    guardOf i = guardCode (decodeGuard g) := by
  unfold decodeAddrFields at h
  dsimp only at h
  split at h
  · cases h
  split at h
  · split at h
    · cases h
    split at h
    · next f hf =>
      cases h
      split at hf
      · exact nearTable_guard f (List.mem_of_getElem? hf) _ _ _ _
      · exact gatherTable_guard f (List.mem_of_getElem? hf) _ _ _ _
    · cases h
  split at h
  · split at h
    · cases h
    split at h
    · next f hf => cases h; exact farTable_guard f (List.mem_of_getElem? hf) _ _ _ _ _
    · cases h
  split at h
  · split at h
    · next f hf => cases h; exact atomTable_guard f (List.mem_of_getElem? hf) _ _ _ _
    · cases h
  split at h
  · split at h <;> cases h; rfl
  split at h
  · split at h <;> cases h; rfl
  split at h
  · split at h <;> cases h; rfl
  · cases h

theorem guardField_slotFields (k w : Nat) : guardField (slotFields k w) = w / 2 ^ 20 % 16 := by
  unfold slotFields
  split <;> rfl

theorem decodeMoveFields_ne_empty (g x d : Nat) : decodeMoveFields g x d ≠ .empty := by
  unfold decodeMoveFields
  rcases decodeSrc x with _ | src
  · simp
  · dsimp only
    split <;> rcases decodeDst d with _ | dst
    · rcases decodeTrigger d .always src <;> simp
    · simp
    · rcases decodeTrigger d (decodeGuard g) src <;> simp
    · simp

theorem decodeAddrFields_ne_empty (g o : Nat) (a k : Fin 16) (m : Nat) : decodeAddrFields g o a k m ≠ .empty := by
  unfold decodeAddrFields
  dsimp only
  split_ifs
  all_goals try split
  all_goals nofun

theorem guardField_of_empty {k w : Nat} (h : decodeSlot k w = .empty) : guardField (slotFields k w) = 15 := by
  rw [guardField_slotFields]
  by_contra hg
  unfold decodeSlot decodeMove decodeAddr at h
  dsimp only at h
  rw [if_neg hg, if_neg hg] at h
  split at h
  · exact decodeMoveFields_ne_empty _ _ _ h
  · exact decodeAddrFields_ne_empty _ _ _ _ _ h

theorem guardField_of_op {k w : Nat} {i : Instr} (h : decodeSlot k w = .op i) :
    guardField (slotFields k w) ≠ 15 ∧ decodeGuard (guardOf i) = decodeGuard (guardField (slotFields k w)) := by
  rw [guardField_slotFields]
  unfold decodeSlot decodeMove decodeAddr at h
  dsimp only at h
  by_cases hg : w / 2 ^ 20 % 16 = 15
  · rw [if_pos hg, if_pos hg] at h
    split at h <;> split at h <;> cases h
  · rw [if_neg hg, if_neg hg] at h
    refine ⟨hg, ?_⟩
    split at h
    · exact decodeGuard_of_moveFields h
    · rw [guardOf_of_addrFields h, decodeGuard_guardCode]

/-! A bundle that holds one instruction. -/

theorem filter_range_eq {k : Nat} (hk : k < 8) : (List.range 8).filter (fun j => decide (j = k)) = [k] := by
  revert k
  decide

section
variable {b : BitVec 256} {k : Nat} {i : Instr} {a : CoreArch}

theorem slot_of_holdsAlone (h : holdsAlone b k i) {j : Nat} (hj : j < 8) :
    decodeSlot j (bundleSlot b j) = if j = k then .op i else .empty := by
  obtain ⟨_, _, hs⟩ := h
  have := congrArg (fun l => l[j]?) hs
  simpa [bundleSlots, hj, range'_eq_range] using this

theorem op_of_holdsAlone (h : holdsAlone b k i) : decodeSlot k (bundleSlot b k) = .op i := by
  rw [slot_of_holdsAlone h h.1, if_pos rfl]

theorem bundleFields_of_holdsAlone (h : holdsAlone b k i) : bundleFields b = [(k, slotFields k (bundleSlot b k))] := by
  have hused : ∀ j ∈ List.range 8, decide (guardField (slotFields j (bundleSlot b j)) ≠ 15) = decide (j = k) := by
    intro j hj
    have hs := slot_of_holdsAlone h (List.mem_range.mp hj)
    by_cases hjk : j = k
    · rw [if_pos hjk] at hs
      simpa [hjk] using (guardField_of_op (op_of_holdsAlone h)).1
    · rw [if_neg hjk] at hs
      simpa [hjk] using guardField_of_empty hs
  unfold bundleFields
  rw [range'_eq_range, List.filter_map, Function.comp_def, List.filter_congr hused, filter_range_eq h.1, List.map_singleton]

theorem liveFields_of_holdsAlone (h : holdsAlone b k i) (hl : isLiveSlot a i = true) :
    liveFields a b = [(k, slotFields k (bundleSlot b k))] := by
  have hg : guardLive a (guardField (slotFields k (bundleSlot b k))) = true := by
    unfold isLiveSlot guardLive at hl
    rw [(guardField_of_op (op_of_holdsAlone h)).2] at hl
    exact hl
  simp [liveFields, bundleFields_of_holdsAlone h, hg]

theorem liveSlots_of_holdsAlone (h : holdsAlone b k i) (hw : wellFormed i = true) (hl : isLiveSlot a i = true) :
    liveSlots a b = [(k, i)] := by
  obtain ⟨hk, _, hs⟩ := h
  unfold liveSlots
  rw [hs, List.filterMap_map]
  interval_cases k <;> simp [List.range_succ, hw, hl]

theorem decodeFaults_of_holdsAlone (h : holdsAlone b k i) (hw : wellFormed i = true) : decodeFaults b = [] := by
  obtain ⟨_, hh, hs⟩ := h
  unfold decodeFaults
  rw [if_pos hh, hs, List.nil_append, List.flatMap_eq_nil_iff]
  intro e he
  obtain ⟨j, _, rfl⟩ := List.mem_map.mp he
  by_cases hj : j = k
  · simp [hj, slotFaults, encodingFault_wf hw]
  · simp [hj, slotFaults]

theorem phaseOf_lt (h : encFields i ≠ .none) : phaseOf i < 6 := by
  unfold phaseOf
  split
  · split <;> omega
  · split_ifs <;> omega
  · contradiction

theorem inOrder_singleton (h : encFields i ≠ .none) : inOrder [(k, i)] = [(k, i)] := by
  have hp := phaseOf_lt h
  unfold inOrder
  simp only [List.filter_cons, List.filter_nil]
  interval_cases phaseOf i <;> rfl

/-- The faults decided before the slots run (R55, R56). -/
theorem no_early_faults {x : CoreArch} (h : holdsAlone b k i) (hw : wellFormed i = true) (hl : isLiveSlot x i = true)
    (hg : guardFaults x b = []) (hsafe : safeFaults x b [(k, i)] = []) (hfall : fallsOff x [slotFields k (bundleSlot b k)] = false) :
    decodeFaults b ++ conflictFaults x b ++ guardFaults x b ++ safeFaults x b (liveSlots x b) ++
      (if fallsOff x ((liveFields x b).map (·.2)) then [{ rank := 1, slot := 0, cause := cIllegalBundle, uinfo := 0 }] else []) = [] := by
  simp [decodeFaults_of_holdsAlone h hw, conflictFaults, liveFields_of_holdsAlone h hl, fieldConflicts, hg, liveSlots_of_holdsAlone h hw hl, hsafe,
    hfall]

end

/-- The issue context of slot `k` of the bundle at the running core's address. -/
def loneIssue (s : State) (k : Nat) : State :=
  { s with issue := some { issueOf (arch s) (curCore s).jn (fetchBundle (curCore s) (arch s).seq.pc.toNat) with slot := k } }

/-- What a bundle comes to whose one slot has run and left `t`. -/
def afterLone (s : State) (k : Nat) (i : Instr) (t : State) : IssueRes :=
  match heldBy t with
  | some r => r
  | none =>
    match bestFault ((t.issue.map (·.faults)).getD []) with
    | some f => .done (.next (takeBundleFault s f))
    | none =>
      match endBundle (signSlots t [(k, i)]) (fetchBundle (curCore s) (arch s).seq.pc.toNat)
        (boundarySafe (fetchBundle (curCore s) (arch s).seq.pc.toNat) [(k, i)]) with
      | some o => .done o
      | none => .done (.next (takeBundleFault s { rank := 1, slot := 0, cause := cIllegalBundle, uinfo := 0 }))

theorem heldBy_of_hold {t : State} (h : (t.issue.map (·.hold)).getD false = true) :
    heldBy t = some (.held ((t.issue.map (·.need)).getD []) ((t.issue.map (·.drain)).getD false)) := by
  unfold heldBy
  rcases hi : t.issue with _ | x
  · simp [hi] at h
  · simpa [hi] using h

theorem heldBy_of_not_hold {t : State} (h : (t.issue.map (·.hold)).getD false = false) : heldBy t = none := by
  unfold heldBy
  rcases hi : t.issue with _ | x
  · rfl
  · simpa [hi] using h

/-- A bundle of one live, well-formed slot runs that slot's instruction, and then ends unless it is held or faults. -/
theorem issueBundle_of_holdsAlone {s : State} {k : Nat} {i : Instr} (h : holdsAlone (fetchBundle (curCore s) (arch s).seq.pc.toNat) k i)
    (hw : wellFormed i = true) (hl : isLiveSlot (arch s) i = true)
    (hg : guardFaults (arch s) (fetchBundle (curCore s) (arch s).seq.pc.toNat) = [])
    (hsafe : safeFaults (arch s) (fetchBundle (curCore s) (arch s).seq.pc.toNat) [(k, i)] = [])
    (hfall : fallsOff (arch s) [slotFields k (bundleSlot (fetchBundle (curCore s) (arch s).seq.pc.toNat) k)] = false) :
    issueBundle s =
      match exec i (loneIssue s k) with
      | .next t => afterLone s k i t
      | .fault r => .done (.fault r)
      | .refused r => .done (.refused r) := by
  have hone : ∀ u, runSlots [(k, i)] u = exec i { u with issue := u.issue.map (fun x => { x with slot := k }) } := by
    intro u
    unfold runSlots
    rcases exec i { u with issue := u.issue.map (fun x => { x with slot := k }) } <;> rfl
  unfold issueBundle
  dsimp only
  rw [no_early_faults h hw hl hg hsafe hfall, liveSlots_of_holdsAlone h hw hl, inOrder_singleton (encFields_of_decode (op_of_holdsAlone h))]
  simp only [bestFault, hone]
  change (match exec i (loneIssue s k) with | .next t => _ | o => _) = _
  rcases exec i (loneIssue s k) <;> rfl

/-! The step. -/

/-- A bound core that does not wait and that nothing freezes has a core cycle (R30). -/
theorem boundPeriod_eq_coreCycle {v : State} (hwait : (arch v).seq.wait = none)
    (hpower : withheld (((gangOf v v.cur).map (·.duty)).getD 16) v.now = false) (hdroop : (atIssue (arch v).seq && droopHolds v) = false)
    (hheld : heldOut v v.cur = false) (hlate : lateReply v = false) (hfetch : (arch v).seq.fetchWait = 0) :
    boundPeriod v = coreCycle v := by
  have hclass : classify v = coreCycle v := by
    simp [classify, hpower, hdroop, hheld, hlate, hfetch, hwait]
  simp [boundPeriod, hwait, hclass]

theorem serveNear_of_nil {s : State} {c n : Nat} (h : (getCore s c).arch.order.nearq = []) : serveNear c n s = s := by
  cases n with
  | zero => rfl
  | succ n => simp only [serveNear, h]

/-- The turn of a bound core that is not rerunning and has no near access waiting. -/
theorem corePeriod_of_bound {s : State} {c : Nat} (hheld : heldOut { s with cur := c, issue := none } c = false)
    (hnear : (getCore s c).arch.order.nearq = []) (hbound : (getCore s c).status = .bound) (hrerun : (getCore s c).rerun = none) :
    corePeriod c s = boundPeriod { s with cur := c, issue := none } := by
  have hserve : serveNear c (getCore { s with cur := c, issue := none } c).arch.order.nearq.length { s with cur := c, issue := none } =
      { s with cur := c, issue := none } := serveNear_of_nil hnear
  have hcore : curCore { s with cur := c, issue := none } = getCore s c := rfl
  unfold corePeriod
  dsimp only
  rw [hheld, hserve]
  simp only [Bool.false_eq_true, if_false, hcore, hbound, if_true, hrerun]

theorem step_of_issuing {s v u : State} {c : Nat} {rest : List Nat} (h : issuing s c rest v) (hb : beginCycle v = .next u)
    (hstall : (arch u).seq.stall = 0) :
    step s = match issueBundle u with
      | .held need drain => heldPeriod v need drain
      | .done o => andThen o (fun t => andThen (endCycle t) restDogs) := by
  obtain ⟨hv, hagenda, hpick, htodo, hbound, hrerun, hwait, hnear, hpower, hdroop, hheld, hlate, hfetch⟩ := h
  have hcur : v.cur = c := by rw [hv]
  have hturn : step s = boundPeriod v := by
    have hstep : step s = corePeriod c { s with todo := rest } := by simp only [step, hagenda, hpick, clockStep, htodo]
    rw [hstep, hv]
    subst hv
    rw [corePeriod_of_bound (s := { s with todo := rest }) hheld hnear hbound hrerun]
  rw [hturn, boundPeriod_eq_coreCycle hwait (hcur.symm ▸ hpower) hdroop (hcur.symm ▸ hheld) hlate hfetch]
  unfold coreCycle
  rw [hb, andThen, if_neg (by omega)] <;> rfl

/-- Settles O57. -/
theorem stepRunsInstruction : Obligations.StepRunsInstruction := by
  refine fun s => ⟨fun i rest h => by simp only [step, h], fun i ha hp => by simp only [step, ha, hp],
    fun c rest v u h hb hs => step_of_issuing h hb hs, ?_⟩
  intro k i b halone hw hl hg hsafe hfall
  have hissue := issueBundle_of_holdsAlone halone hw hl hg hsafe hfall
  intro o
  have ho : o = exec i (loneIssue s k) := rfl
  clear_value o
  subst ho
  refine ⟨fun t ht => ?_, fun r hr => ?_, fun r hr => ?_⟩
  · have hrun : issueBundle s = afterLone s k i t := by rw [hissue, ht]
    refine ⟨fun hold => ?_, fun hold => ⟨fun f hf => ?_, fun hf r hr => ?_⟩⟩
    · rw [hrun, afterLone, heldBy_of_hold hold]
    · rw [hrun, afterLone, heldBy_of_not_hold hold, hf]
    · rw [hrun, afterLone, heldBy_of_not_hold hold, hf]
      dsimp only
      rw [hr]
  · rw [hissue, hr]
  · rw [hissue, hr]

end Sys2Proof.Proofs
end

section
/-! PROOF. The anvil: how it changes its core, what its reads of temporary chunks give, when its head starts, reads and ends, and the
row that a run writes (R144 to R155). -/

namespace Sys2Proof.Proofs

open Sys2Proof.Machine Sys2Proof.Claims Sys2Proof.Laws

/-- Core `c`'s anvil has changed, to `v`: no other part of its architectural state, and no memory. -/
structure AnvilEffect (s : State) (c : Nat) (v : Anvil) (t : State) : Prop where
  arch : (getCore t c).arch = { (getCore s c).arch with anv := v }
  cur : t.cur = s.cur
  stash : t.stash = s.stash
  far : t.far = s.far

section
variable {s t u : State} {c : Nat} {v w : Anvil}

theorem AnvilEffect.anv (h : AnvilEffect s c v t) : (getCore t c).arch.anv = v := by rw [h.arch]

theorem AnvilEffect.cyc (h : AnvilEffect s c v t) : (getCore t c).arch.csr = (getCore s c).arch.csr := by rw [h.arch]

theorem AnvilEffect.due (h : AnvilEffect s c v t) : (getCore t c).arch.due = (getCore s c).arch.due := by rw [h.arch]

theorem AnvilEffect.regs (h : AnvilEffect s c v t) : (getCore t c).arch.regs = (getCore s c).arch.regs := by rw [h.arch]

theorem AnvilEffect.refl (s : State) (c : Nat) : AnvilEffect s c (getCore s c).arch.anv s := ⟨rfl, rfl, rfl, rfl⟩

theorem AnvilEffect.trans (h : AnvilEffect s c v t) (k : AnvilEffect t c w u) : AnvilEffect s c w u where
  arch := by rw [k.arch, h.arch]
  cur := k.cur.trans h.cur
  stash := k.stash.trans h.stash
  far := k.far.trans h.far

end

theorem anvilEffect_modAnvOf (s : State) (c : Nat) (f : Anvil → Anvil) : AnvilEffect s c (f (getCore s c).arch.anv) (modAnvOf s c f) :=
  ⟨by simp [modAnvOf], rfl, rfl, rfl⟩

theorem anvilEffect_signWrite (s : State) (c ord : Nat) (bytes : List Byte) :
    AnvilEffect s c (getCore s c).arch.anv (signWrite s c ord bytes) := by
  unfold signWrite
  split
  · exact AnvilEffect.refl s c
  · exact ⟨by simp, rfl, rfl, rfl⟩

theorem anvilEffect_journal (s : State) (c : Nat) (r : JRec) (n : Nat) : AnvilEffect s c (getCore s c).arch.anv (journal s c r n) := by
  obtain ⟨j, hj⟩ := journal_eq s c r n
  rw [hj]
  exact ⟨by simp, rfl, rfl, rfl⟩

theorem AnvilEffect.journal {s t : State} {c : Nat} {v : Anvil} (h : AnvilEffect s c v t) (r : JRec) (n : Nat) :
    AnvilEffect s c v (journal t c r n) := by
  have hj := h.trans (anvilEffect_journal t c r n)
  rwa [h.anv] at hj

theorem AnvilEffect.modAnvOf {s t : State} {c : Nat} {v : Anvil} (h : AnvilEffect s c v t) (f : Anvil → Anvil) :
    AnvilEffect s c (f v) (modAnvOf t c f) := by
  have hm := h.trans (anvilEffect_modAnvOf t c f)
  rwa [h.anv] at hm

theorem anvilEffect_putRow (s : State) (c ord row : Nat) (x : VVal) :
    AnvilEffect s c { (getCore s c).arch.anv with rows := alPut (getCore s c).arch.anv.rows row x } (putRow s c ord row x) := by
  have hs := anvilEffect_signWrite s c ord (leBytes row 2 ++ leBytes x.v.toNat 256)
  unfold putRow
  dsimp only
  split
  · exact (hs.journal _ _).modAnvOf fun v => { v with rows := alPut v.rows row x }
  · exact hs.modAnvOf fun v => { v with rows := alPut v.rows row x }

theorem AnvilEffect.putRow {s t : State} {c : Nat} {v : Anvil} (h : AnvilEffect s c v t) (ord row : Nat) (x : VVal) :
    AnvilEffect s c { v with rows := alPut v.rows row x } (putRow t c ord row x) := by
  have hp := h.trans (anvilEffect_putRow t c ord row x)
  rwa [h.anv] at hp

/-! Rows of the accumulator store. -/

theorem accRow_alPut (v : Anvil) (row r : Nat) (x : VVal) :
    accRow { v with rows := alPut v.rows row x } r = if r = row then x else accRow v r := by
  unfold accRow
  dsimp only
  by_cases h : r = row
  · rw [if_pos h, h, find?_alPut_same]
  · rw [if_neg h, find?_alPut_other _ _ (Ne.symm h)]

theorem accOf_putRow (s : State) (c ord row r : Nat) (x : VVal) :
    accOf (putRow s c ord row x) c r = if r = row then x else accOf s c r := by
  unfold accOf
  rw [(anvilEffect_putRow s c ord row x).anv, accRow_alPut]

/-- A number of rows set to +0. -/
theorem anvilEffect_clearRows (c ord : Nat) (l : List Nat) (s : State) :
    ∃ rows, AnvilEffect s c { (getCore s c).arch.anv with rows := rows } (l.foldl (fun s r => putRow s c ord r VVal.zero) s) ∧
      ∀ r, accRow { (getCore s c).arch.anv with rows := rows } r = if r ∈ l then VVal.zero else accOf s c r := by
  induction l generalizing s with
  | nil => exact ⟨_, AnvilEffect.refl s c, fun r => by simp [accOf]⟩
  | cons a l ih =>
    have hput := anvilEffect_putRow s c ord a VVal.zero
    obtain ⟨rows, heff, hrow⟩ := ih (putRow s c ord a VVal.zero)
    rw [hput.anv] at heff hrow
    refine ⟨rows, hput.trans heff, fun r => ?_⟩
    rw [hrow r, accOf_putRow]
    by_cases hr : r = a <;> simp [hr]

/-! Reads of the stash. -/

section
variable {s : State} {q : Nat} {o : AnvOp}

theorem anvChunk_of_pre (hpre : o.pre = []) (k : Nat) : anvChunk s q o k = (chunkImage s q k, s) := by
  simp [anvChunk, hpre, pickImage]

/-- What an operation has read already is what the chunks hold. -/
def takenHere (s : State) (q : Nat) (o : AnvOp) : Prop := ∀ e ∈ o.taken, e.2 = chunkImage s q e.1

theorem anvChunks_eq (hpre : o.pre = []) (htaken : takenHere s q o) (ks : List Nat) :
    anvChunks s q o ks = (ks.flatMap (chunkImage s q), s) := by
  induction ks with
  | nil => rfl
  | cons k ks ih =>
    unfold anvChunks
    split
    next x s1 hx =>
    have hread : (x, s1) = (chunkImage s q k, s) := by
      rw [← hx]
      split
      · next e hf =>
        have hk : e.1 = k := by simpa using List.find?_some hf
        rw [htaken e (List.mem_of_find?_eq_some hf), hk]
      · exact anvChunk_of_pre hpre k
    obtain ⟨rfl, rfl⟩ := Prod.mk.inj hread
    simp only [ih, List.flatMap_cons]

theorem getElem?_chunkImage (s : State) (q k i : Nat) : (chunkImage s q k)[i]? =
    if i < 64 then some (memRead s.stash (stashKey q (64 * k) + i), alGet false s.sbad (stashKey q (64 * k) + i)) else none := by
  unfold chunkImage
  rw [List.getElem?_map, getElem?_range']
  split <;> rfl

theorem chunkImage_length (s : State) (q k : Nat) : (chunkImage s q k).length = 64 := by
  rw [chunkImage, List.length_map, range'_length]

theorem getElem?_chunkImages (s : State) (q m n i : Nat) :
    ((range' m n).flatMap (chunkImage s q))[i]? =
      if i < 64 * n then some (memRead s.stash (stashKey q (64 * m) + i), alGet false s.sbad (stashKey q (64 * m) + i)) else none := by
  induction n generalizing m i with
  | zero => simp [range']
  | succ n ih =>
    rw [range', List.flatMap_cons]
    by_cases hi : i < 64
    · rw [List.getElem?_append_left (by rwa [chunkImage_length]), getElem?_chunkImage, if_pos hi, if_pos (by omega)]
    · have hnext : stashKey q (64 * (m + 1)) + (i - 64) = stashKey q (64 * m) + i := by unfold stashKey; omega
      rw [List.getElem?_append_right (by rw [chunkImage_length]; omega), chunkImage_length, ih, hnext]
      exact if_congr (by omega) rfl rfl

theorem eraseDups_range' (m n : Nat) : (range' m n).eraseDups = range' m n := by
  induction n generalizing m with
  | zero => rfl
  | succ n ih =>
    have hrest : (range' (m + 1) n).filter (fun b => !b == m) = range' (m + 1) n := by
      refine List.filter_eq_self.mpr fun k hk => ?_
      have := mem_range'.mp hk
      simp only [Bool.not_eq_true', beq_eq_false_iff_ne]
      omega
    rw [range', List.eraseDups_cons, hrest, ih]

theorem spanChunks_one (a n : Nat) (hn : n ≠ 0) : spanChunks [(a, n)] = range' (a / 64) ((a + n - 1) / 64 - a / 64 + 1) := by
  simp only [spanChunks, List.flatMap_cons, List.flatMap_nil, List.append_nil]
  rw [if_neg hn, eraseDups_range']

/-- The bytes of a span and their poison, from its chunks. -/
theorem images_of_span (s : State) (q a n : Nat) :
    (((spanChunks [(a, n)]).flatMap (chunkImage s q)).drop (a % 64)).take n =
      (range' (stashKey q a) n).map (fun i => (memRead s.stash i, alGet false s.sbad i)) := by
  rcases Nat.eq_zero_or_pos n with rfl | hn
  · simp [range']
  rw [spanChunks_one a n (by omega)]
  refine List.ext_getElem? fun i => ?_
  rw [List.getElem?_map, getElem?_range', List.getElem?_take]
  by_cases hi : i < n
  · have hplace : stashKey q (64 * (a / 64)) + (a % 64 + i) = stashKey q a + i := by unfold stashKey; omega
    rw [if_pos hi, if_pos hi, List.getElem?_drop, getElem?_chunkImages, if_pos (by omega), hplace, Option.map_some]
  · rw [if_neg hi, if_neg hi, Option.map_none]

theorem map_memRead_range' (m : Memory) (a n : Nat) : (range' a n).map (memRead m) = memReadN m a n := by
  refine List.ext_getElem? fun i => ?_
  rw [List.getElem?_map, getElem?_range', getElem?_memReadN]
  split <;> rfl

theorem anvSpan_eq (hpre : o.pre = []) (htaken : takenHere s q o) (p : Nat × Nat) :
    anvSpan s q o p = (memReadN s.stash (stashKey q p.1) p.2, stashBad s q p.1 p.2, s) := by
  obtain ⟨a, n⟩ := p
  unfold anvSpan
  simp only [anvChunks_eq hpre htaken, images_of_span, List.map_map, List.any_map, Function.comp_def]
  rw [← map_memRead_range']
  rfl

end

/-! Chunks of temporary regions. -/

section
variable {s : State} {c : Nat}

theorem readyRead_of_temp {k ident : Nat} {colour : Option (Fin 16)} {e : TSet} {got : List Nat}
    (h : regionOf s (quadOf c) (64 * k) = .temp) : readyRead c ident colour e got k s = (true, false, s) := by
  unfold readyRead
  rw [h]

/-- Every chunk of the spans lies in a temporary region. -/
theorem temp_of_spans {q : Nat} {l : List (Nat × Nat)} (h : ∀ p ∈ l, tempIn s q p.1 p.2) :
    ∀ k ∈ spanChunks l, regionOf s q (64 * k) = .temp := by
  intro k hk
  obtain ⟨p, hp, -, h1, h2⟩ := mem_spanChunks.mp hk
  exact (h p hp).2 k h1 h2

theorem anvReady_of_temp {o : AnvOp} {spans : List (Nat × Nat)} (hq : (getCore s c).arch.order.nearq = [])
    (h : ∀ p ∈ spans, tempIn s (c / 4) p.1 p.2) : anvReady c o spans s = (true, o.got, s) := by
  have hseen : storesSeen s c o = true := by simp [storesSeen, hq]
  unfold anvReady
  rw [if_pos hseen]
  exact readyAll_of_ready fun k hk => readyRead_of_temp (temp_of_spans h k hk)

theorem takeChunks_of_temp {o : AnvOp} (hpre : o.pre = []) {ks : List Nat} (h : ∀ k ∈ ks, regionOf s (quadOf c) (64 * k) = .temp) :
    takeChunks c ks o s = ({ o with taken := o.taken ++ ks.map (fun k => (k, chunkImage s (quadOf c) k)) }, s) := by
  induction ks generalizing o with
  | nil => simp [takeChunks]
  | cons k ks ih =>
    simp only [takeChunks, readyRead_of_temp (h k List.mem_cons_self), Bool.false_eq_true, if_false, if_true, anvChunk_of_pre hpre]
    rw [ih (o := { o with taken := o.taken ++ [(k, chunkImage s (quadOf c) k)] }) hpre fun k hk => h k (List.mem_cons_of_mem _ hk)]
    simp

end

/-! The head of the queue. -/

theorem one_le_rateOf (x w : Nat) : 1 ≤ rateOf x w := by
  unfold rateOf
  split <;> omega

theorem two_le_anvLatency (o : AnvOp) (w : Nat) : 2 ≤ anvLatency o w := by
  unfold anvLatency
  split <;> (try split) <;> omega

theorem dataSpans_of_ne {o : AnvOp} (h1 : o.kind ≠ .ldw) (h2 : o.kind ≠ .mpb) : dataSpans o = [] := by
  unfold dataSpans
  split <;> simp_all

theorem dataSpans_of_run {o : AnvOp} (h : isRun o.kind = true) : dataSpans o = [] :=
  dataSpans_of_ne (fun h1 => by rw [h1] at h; cases h) (fun h1 => by rw [h1] at h; cases h)

theorem dataSpans_ne_nil {o : AnvOp} (h : o.kind = .ldw ∨ o.kind = .mpb) : dataSpans o ≠ [] := by
  unfold dataSpans
  rcases h with h | h <;> rw [h]
  · dsimp only
    split <;> simp
  · simp

theorem rowAt_eq (s : State) (c : Nat) (o : AnvOp) (st : Nat) :
    rowAt s c o st = st + 16 + (o.rows + 1) * rateOf o.xfmt (getCore s c).arch.anv.active.wfmt.toNat := by
  have hw : (getCore s c).arch.anv.active.wfmt = 3 ↔ (getCore s c).arch.anv.active.wfmt.toNat = 3 :=
    (BitVec.toNat_inj (y := (3 : BitVec 2))).symm
  simp only [rowAt, rateOf, hw]

section
variable {s : State} {c : Nat} {o : AnvOp} {rest : List AnvOp} {st : Nat}

/-- Nothing is written while no row of the head is due. -/
theorem anvilRows_waits (h : headOp s c o rest st)
    (hw : ¬ (isRun o.kind = true ∧ o.rows < o.count ∧ rowAt s c o st ≤ anvilCycle (getCore s c).arch)) (n : Nat) : anvilRows c n s = s := by
  rw [rowAt_eq] at hw
  cases n with
  | zero => rfl
  | succ n =>
    unfold anvilRows
    simp only [h.1, h.2]
    exact if_neg hw

theorem anvilData_waits (h : headOp s c o rest st) (hd : dataSpans o = [] ∨ o.read = true) : anvilData c s = s := by
  unfold anvilData
  simp only [h.1]
  refine if_neg fun hc => ?_
  obtain ⟨_, hne, hread, _⟩ := hc
  rcases hd with hd | hd
  · simp [hd] at hne
  · exact hread hd

/-- The head of a run is done when its rows are, another's when its data are read, by the cycle in which it is done. -/
theorem headDone_eq (s : State) (c : Nat) (o : AnvOp) (st : Nat) : headDone (getCore s c).arch o st =
    (decide (doneAt s c o st ≤ anvilCycle (getCore s c).arch) &&
      (if isRun o.kind then decide (o.count ≤ o.rows) else (dataSpans o).isEmpty || o.read)) := rfl

/-- A head without a start takes the present cycle. -/
theorem anvilRun_starts (hq : (getCore s c).arch.anv.queue = o :: rest) (hs : o.start = none) (n : Nat) :
    anvilRun c (n + 1) s =
      anvilRun c (n + 1) (setHead s c { o with start := some (anvilCycle (getCore s c).arch) }) := by
  have hq' : (getCore (setHead s c { o with start := some (anvilCycle (getCore s c).arch) }) c).arch.anv.queue =
      { o with start := some (anvilCycle (getCore s c).arch) } :: rest := by
    simp [setHead, modAnvOf, hq]
  conv_lhs => unfold anvilRun
  conv_rhs => unfold anvilRun
  rw [hq, hq']
  simp only [hs]
  rfl

/-- What stands behind the head, its first operation started in cycle `fin`. -/
def nextStarted (fin : Nat) : List AnvOp → List AnvOp
  | [] => []
  | p :: ps => { p with start := some fin } :: ps

/-- What the end of the head leaves: its effect, its value on the way, the next operation started. -/
def endOp (c : Nat) (o : AnvOp) (rest : List AnvOp) (st : Nat) (s : State) : State :=
  let fin := st + anvLatency o (getCore s c).arch.anv.active.wfmt.toNat
  let r := finishOp c o s
  modAnvOf (deliverTo r.1 c .anvR (fin - (getCore r.1 c).arch.anv.slip) o.ord false r.2) c (fun v => { v with queue := nextStarted fin rest })

/-- A step of the anvil: the head works, and stays while it is not done. -/
theorem anvilRun_stays (h : headOp s c o rest st) {t : State} {u : AnvOp} {rest' : List AnvOp}
    (ht : anvilData c (anvilRows c (o.count - o.rows) s) = t) (hu : (getCore t c).arch.anv.queue = u :: rest')
    (hd : headDone (getCore t c).arch u st = false) (n : Nat) : anvilRun c (n + 1) s = t := by
  unfold anvilRun
  simp only [h.1, h.2, Option.isSome_some, if_true, Option.getD_some, ht, hu, hd, Bool.false_eq_true, if_false]

theorem anvilRun_ends (h : headOp s c o rest st) (ht : anvilData c (anvilRows c (o.count - o.rows) s) = s)
    (hd : headDone (getCore s c).arch o st = true) (n : Nat) : anvilRun c (n + 1) s = anvilRun c n (endOp c o rest st s) := by
  rw [anvilRun]
  simp only [h.1, h.2, Option.isSome_some, if_true, Option.getD_some, ht, hd]
  rfl

end

/-! The data of `ldw` and `mpb`. -/

/-- The operation once it has read every chunk of its spans as it stands. -/
def allTaken (s : State) (c : Nat) (o : AnvOp) : AnvOp :=
  { o with taken := (spanChunks (dataSpans o)).map (fun k => (k, chunkImage s (quadOf c) k)) }

theorem takenHere_allTaken (s : State) (c : Nat) (o : AnvOp) : takenHere s (quadOf c) (allTaken s c o) := by
  intro e he
  obtain ⟨k, _, rfl⟩ := List.mem_map.mp he
  rfl

/-- The operation after its read. -/
def readHead (s : State) (c : Nat) (o : AnvOp) : AnvOp :=
  { o with read := true, taken := [], code := (readData c (allTaken s c o) s).2 }

section
variable {s : State} {c : Nat} {o : AnvOp} {rest : List AnvOp} {st : Nat}

theorem anvilData_reads (h : headOp s c o rest st) (hk : o.kind = .ldw ∨ o.kind = .mpb) (hread : o.read = false) (htaken : o.taken = [])
    (hpre : o.pre = []) (hq : (getCore s c).arch.order.nearq = []) (htemp : ∀ p ∈ dataSpans o, tempIn s (c / 4) p.1 p.2) :
    anvilData c s = setHead (readData c (allTaken s c o) s).1 c (readHead s c o) := by
  have hcond : o.start.isSome ∧ ¬ (dataSpans o).isEmpty ∧ ¬ o.read ∧ storesSeen s c o := by
    refine ⟨by rw [h.2]; rfl, by simpa using dataSpans_ne_nil hk, by simp [hread], by simp [storesSeen, hq]⟩
  have htake : takeChunks c ((spanChunks (dataSpans o)).filter (fun k => !o.taken.any (fun e => e.1 = k))) o s = (allTaken s c o, s) := by
    rw [List.filter_eq_self.mpr (by simp [htaken]), takeChunks_of_temp hpre (temp_of_spans htemp), htaken, List.nil_append]
    rfl
  have hall : (spanChunks (dataSpans o)).all (fun k => (allTaken s c o).taken.any (fun e => e.1 = k)) = true := by
    simp only [List.all_eq_true, List.any_eq_true]
    exact fun k hk => ⟨_, List.mem_map_of_mem hk, by simp⟩
  unfold anvilData
  rw [h.1]
  dsimp only
  rw [if_pos hcond, htake]
  dsimp only
  rw [if_pos hall]
  rfl

theorem dataSpans_ldw (hk : o.kind = .ldw) : dataSpans o =
    if o.ldfmt = 3 then [(o.waddr, 8192)] else [(o.waddr, 4096), (o.wsaddr, 4 * depthOf o.ldfmt)] := by
  unfold dataSpans
  rw [hk]

theorem readData_ldw (hk : o.kind = .ldw) (hpre : o.pre = []) : readData c (allTaken s c o) s =
    (modAnvOf s c (fun v => { v with shadow := tileLoaded s c o }), if (tileLoaded s c o).poison then 1 else 0) := by
  have hspan := anvSpan_eq (s := s) (q := quadOf c) (o := allTaken s c o) hpre (takenHere_allTaken s c o)
  have hk' : (allTaken s c o).kind = .ldw := hk
  unfold readData
  simp only [hk', hspan]
  by_cases hf : o.ldfmt = 3
  · have hd : dataSpans (allTaken s c o) = [(o.waddr, 8192)] := by
      rw [dataSpans_ldw hk']
      exact if_pos hf
    have ht : tileLoaded s c o = loadTile o.ldfmt (allTaken s c o) (spanOf s c (o.waddr, 8192)) [] (spanBad s c (o.waddr, 8192) || false) := by
      simp only [tileLoaded, if_pos hf]
      rfl
    rw [hd, ht]
    rfl
  · have hd : dataSpans (allTaken s c o) = [(o.waddr, 4096), (o.wsaddr, if o.ldfmt = 2 then 512 else 256)] := by
      have hn : 4 * depthOf o.ldfmt = if o.ldfmt = 2 then 512 else 256 := by unfold depthOf; split <;> rfl
      rw [dataSpans_ldw hk', ← hn]
      exact if_neg hf
    have ht : tileLoaded s c o = loadTile o.ldfmt (allTaken s c o) (spanOf s c (o.waddr, 4096))
        (spanOf s c (o.wsaddr, if o.ldfmt = 2 then 512 else 256))
        (spanBad s c (o.waddr, 4096) || spanBad s c (o.wsaddr, if o.ldfmt = 2 then 512 else 256)) := by
      simp only [tileLoaded, if_neg hf]
      rfl
    rw [hd, ht]
    rfl

theorem readData_mpb (hk : o.kind = .mpb) (hpre : o.pre = []) : readData c (allTaken s c o) s =
    (modAnvOf s c (fun v => { v with mask := (maskLoaded s c o).1 }), (maskLoaded s c o).2) := by
  have hspan := anvSpan_eq (s := s) (q := quadOf c) (o := allTaken s c o) hpre (takenHere_allTaken s c o)
  have hk' : (allTaken s c o).kind = .mpb := hk
  unfold readData
  simp only [hk', hspan]
  rfl

end

/-! A row of a run. -/

theorem anvChunks_state (s : State) (q : Nat) (o : AnvOp) (ks : List Nat) : ∃ n, (anvChunks s q o ks).2 = { s with freeCtr := n } := by
  induction ks generalizing s with
  | nil => exact ⟨s.freeCtr, rfl⟩
  | cons k ks ih =>
    unfold anvChunks
    split
    next x s1 hx =>
    have hs1 : ∃ n, s1 = { s with freeCtr := n } := by
      split at hx
      · cases hx; exact ⟨s.freeCtr, rfl⟩
      · cases hx; exact ⟨_, rfl⟩
    obtain ⟨n, rfl⟩ := hs1
    obtain ⟨m, hm⟩ := ih { s with freeCtr := n }
    exact ⟨m, hm⟩

theorem anvilEffect_anvSpan (s : State) (c q : Nat) (o : AnvOp) (p : Nat × Nat) :
    AnvilEffect s c (getCore s c).arch.anv (anvSpan s q o p).2.2 := by
  obtain ⟨n, hn⟩ := anvChunks_state s q o (spanChunks [p])
  have : (anvSpan s q o p).2.2 = { s with freeCtr := n } := hn
  rw [this]
  exact ⟨rfl, rfl, rfl, rfl⟩

/-- A row of a run changes the accumulator store alone. -/
theorem anvilEffect_runRow (c : Nat) (o : AnvOp) (r : Nat) (s : State) :
    ∃ rows, AnvilEffect s c { (getCore s c).arch.anv with rows := rows } (runRow c o r s).1 := by
  unfold runRow
  dsimp only
  have h1 := anvilEffect_anvSpan s c (quadOf c) o (nthD (rowSpans o (depthOf (getCore s c).arch.anv.active.wfmt.toNat) r) 0 (0, 0))
  generalize anvSpan s (quadOf c) o (nthD (rowSpans o (depthOf (getCore s c).arch.anv.active.wfmt.toNat) r) 0 (0, 0)) = x at h1
  have h2 := anvilEffect_anvSpan x.2.2 c (quadOf c) o (nthD (rowSpans o (depthOf (getCore s c).arch.anv.active.wfmt.toNat) r) 1 (0, 0))
  rw [h1.anv] at h2
  generalize anvSpan x.2.2 (quadOf c) o (nthD (rowSpans o (depthOf (getCore s c).arch.anv.active.wfmt.toNat) r) 1 (0, 0)) = y at h2
  have h3 := h1.trans h2
  exact ⟨_, h3.putRow _ _ _⟩

theorem AnvilEffect.cycle {s t : State} {c : Nat} {v : Anvil} (h : AnvilEffect s c v t) (hslip : v.slip = (getCore s c).arch.anv.slip) :
    anvilCycle (getCore t c).arch = anvilCycle (getCore s c).arch := by
  unfold anvilCycle
  rw [h.cyc, h.anv, hslip]

theorem AnvilEffect.doneAt {s t : State} {c : Nat} {v : Anvil} (h : AnvilEffect s c v t) (hact : v.active = (getCore s c).arch.anv.active)
    (o : AnvOp) (st : Nat) : doneAt t c o st = doneAt s c o st := by
  unfold Claims.doneAt
  rw [h.anv, hact]

theorem AnvilEffect.rowAt {s t : State} {c : Nat} {v : Anvil} (h : AnvilEffect s c v t) (hact : v.active = (getCore s c).arch.anv.active)
    (o : AnvOp) (st : Nat) : rowAt t c o st = rowAt s c o st := by
  unfold Claims.rowAt
  rw [h.anv, hact]

/-- The head's operation replaced. -/
theorem AnvilEffect.setHead {s t : State} {c : Nat} {v : Anvil} (h : AnvilEffect s c v t) {o : AnvOp} {rest : List AnvOp}
    (hq : v.queue = o :: rest) (u : AnvOp) : AnvilEffect s c { v with queue := u :: rest } (setHead t c u) := by
  have hm := h.modAnvOf fun v => { v with queue := u :: v.queue.drop 1 }
  rwa [hq] at hm

end Sys2Proof.Proofs
end

section
/-! PROOF. The anvil's triggers, the starts and ends of its operations, and the rows of a run (R147 to R155). -/

namespace Sys2Proof.Proofs

open Sys2Proof.Machine Sys2Proof.Claims Sys2Proof.Laws

/-! The rows of a run. -/

section
variable {s : State} {c : Nat} {o : AnvOp} {rest : List AnvOp} {st : Nat}

/-- The operation once its next row is written. -/
def rowHead (s : State) (c : Nat) (o : AnvOp) : AnvOp :=
  { o with rows := o.rows + 1, code := (runRow c { o with ready := true } o.rows s).2, got := [], ready := false }

/-- The state once the head's next row is written. -/
def rowWritten (s : State) (c : Nat) (o : AnvOp) : State := setHead (runRow c { o with ready := true } o.rows s).1 c (rowHead s c o)

theorem anvilEffect_rowWritten (h : headOp s c o rest st) :
    ∃ rows, AnvilEffect s c { (getCore s c).arch.anv with rows := rows, queue := rowHead s c o :: rest } (rowWritten s c o) := by
  obtain ⟨rows, hrow⟩ := anvilEffect_runRow c { o with ready := true } o.rows s
  exact ⟨rows, hrow.setHead h.1 (rowHead s c o)⟩

theorem anvilRows_writes (h : headOp s c o rest st) (hrun : isRun o.kind = true) (hr : o.rows < o.count)
    (htemp : ∀ p ∈ rowSpans o (depthOf (getCore s c).arch.anv.active.wfmt.toNat) o.rows, tempIn s (c / 4) p.1 p.2)
    (hq : (getCore s c).arch.order.nearq = []) (hdue : rowAt s c o st ≤ anvilCycle (getCore s c).arch) (n : Nat) :
    anvilRows c (n + 1) s = anvilRows c n (rowWritten s c o) := by
  rw [rowAt_eq] at hdue
  have hcond : isRun o.kind = true ∧ o.rows < o.count ∧
      st + 16 + (o.rows + 1) * rateOf o.xfmt (getCore s c).arch.anv.active.wfmt.toNat ≤ anvNow (getCore s c).arch := ⟨hrun, hr, hdue⟩
  conv_lhs => unfold anvilRows
  simp only [h.1, h.2, anvReady_of_temp hq htemp, if_true]
  rw [if_pos hcond]
  unfold rowWritten rowHead
  rw [h.2]

/-- A run whose row is written stays, while the row after it is not due. -/
theorem anvilRun_row (h : headOp s c o rest st) (hrun : isRun o.kind = true)
    (htemp : ∀ p ∈ rowSpans o (depthOf (getCore s c).arch.anv.active.wfmt.toNat) o.rows, tempIn s (c / 4) p.1 p.2)
    (hq : (getCore s c).arch.order.nearq = []) (hdue : rowAt s c o st ≤ anvilCycle (getCore s c).arch) (hr : o.rows + 1 < o.count)
    (hnext : anvilCycle (getCore s c).arch < rowAt s c { o with rows := o.rows + 1 } st) (n : Nat) :
    anvilRun c (n + 1) s = rowWritten s c o := by
  obtain ⟨rows, heff⟩ := anvilEffect_rowWritten h
  have hhead : headOp (rowWritten s c o) c (rowHead s c o) rest st := ⟨by rw [heff.anv], h.2⟩
  have hlater : anvilCycle (getCore (rowWritten s c o) c).arch < rowAt (rowWritten s c o) c (rowHead s c o) st := by
    rw [heff.cycle rfl, heff.rowAt rfl]
    exact hnext
  have hrows : anvilRows c (o.count - o.rows) s = rowWritten s c o := by
    obtain ⟨m, hm⟩ : ∃ m, o.count - o.rows = m + 1 := ⟨o.count - o.rows - 1, by omega⟩
    rw [hm, anvilRows_writes h hrun (by omega) htemp hq hdue, anvilRows_waits hhead (fun hc => by omega)]
  have hdata : anvilData c (rowWritten s c o) = rowWritten s c o := anvilData_waits hhead (.inl (dataSpans_of_run (o := rowHead s c o) hrun))
  refine anvilRun_stays h (by rw [hrows, hdata]) hhead.1 ?_ n
  have hrun' : isRun (rowHead s c o).kind = true := hrun
  rw [headDone_eq, hrun', if_pos rfl, decide_eq_false (p := (rowHead s c o).count ≤ (rowHead s c o).rows) (by
    change ¬ o.count ≤ o.rows + 1
    omega), Bool.and_false]

end

/-- The spans of a row's activations, and of its scales unless the activations are BF16. -/
def actSpan (o : AnvOp) (d r : Nat) : Nat × Nat := (o.xaddr + r * o.xstride, (if o.xfmt = 2 then 2 else 1) * d)
def scaleSpan (o : AnvOp) (d r : Nat) : Nat × Nat := if o.xfmt = 2 then (0, 0) else (o.saddr + 2 * (d / 32) * r, 2 * (d / 32))

/-- The value of a row of a run. -/
def rowValue (s : State) (c : Nat) (o : AnvOp) (r : Nat) : VVal :=
  let v := (getCore s c).arch.anv
  let d := depthOf v.active.wfmt.toNat
  let base := accRow v (o.acc + r)
  let sx := if o.xfmt = 2 then List.replicate (d / 32) (some dyOne) else bf16s (spanOf s c (scaleSpan o d r))
  { v := ofLanes (runOutput v o r (actElems o.xfmt (spanOf s c (actSpan o d r))) sx base),
    t := o.e ||| (if o.got.isEmpty then 0 else colourSet o.colour) ||| (if o.kind = .runz then 0 else base.t),
    p := v.active.poison || spanBad s c (actSpan o d r) || spanBad s c (scaleSpan o d r) || (o.kind != .runz && base.p) }

section
variable {s : State} {c : Nat} {o : AnvOp}

theorem nthD_rowSpans (o : AnvOp) (d r : Nat) :
    nthD (rowSpans o d r) 0 (0, 0) = actSpan o d r ∧ nthD (rowSpans o d r) 1 (0, 0) = scaleSpan o d r := by
  refine ⟨rfl, ?_⟩
  have hr : rowSpans o d r = actSpan o d r :: (if o.xfmt = 2 then [] else [(o.saddr + 2 * (d / 32) * r, 2 * (d / 32))]) := rfl
  rw [hr]
  unfold scaleSpan
  split <;> rfl

theorem runRow_eq (hpre : o.pre = []) (htaken : o.taken = []) (r : Nat) :
    (runRow c o r s).1 = putRow s c o.ord (o.acc + r) (rowValue s c o r) := by
  have hspan := anvSpan_eq (s := s) (q := quadOf c) hpre (fun e he => by simp [htaken] at he)
  unfold runRow
  simp only [hspan, nthD_rowSpans]
  rfl

end

/-- Settles O39: a row of temporary chunks is written in its cycle, with the value that the spans as they stand give. -/
theorem anvilRows : Obligations.AnvilRows := by
  refine ⟨?_, ?_⟩
  · intro s c o rest st h hrun hr htemp hq
    refine ⟨fun hnow n => anvilRows_waits h (fun hc => by omega) n, fun hnow n => anvilRows_writes h hrun hr htemp hq hnow n,
      fun hnow hmore hnext => ?_⟩
    exact congrArg Host.Outcome.next (anvilRun_row h hrun htemp hq hnow hmore hnext 8)
  · intro s c o r hrun hpre htaken v d q bytes bad acts scales sx old t
    have ht : t = putRow s c o.ord (o.acc + r) (rowValue s c o r) := runRow_eq hpre htaken r
    have hacc : ∀ k, accOf t c k = if k = o.acc + r then rowValue s c o r else accOf s c k := fun k => by rw [ht, accOf_putRow]
    have heff := anvilEffect_putRow s c o.ord (o.acc + r) (rowValue s c o r)
    rw [← ht] at heff
    rw [hacc, if_pos rfl]
    refine ⟨fun j hj => ?_, ?_, fun hgot => ?_, fun k hk => by rw [hacc, if_neg hk], heff.stash, heff.far, by rw [heff.anv], heff.regs⟩
    · have hsx : (if o.xfmt = 2 then List.replicate (d / 32) (some dyOne) else bf16s (spanOf s c (scaleSpan o d r))) = sx := by
        simp only [sx, scaleSpan]
        split <;> rfl
      have hlane : laneOf (rowValue s c o r).v j = runOutput v o r (actElems o.xfmt (bytes acts)) sx old j := by
        rw [← hsx]
        exact laneOf_ofLanes _ hj
      rw [hlane]
      unfold runOutput
      simp only [Bool.and_eq_true]
    · have hbad : spanBad s c (scaleSpan o d r) = (!decide (o.xfmt = 2) && bad scales) := by
        unfold scaleSpan
        by_cases hf : o.xfmt = 2
        · simp [hf, spanBad, stashBad, range']
        · simp only [hf, decide_false, Bool.not_false, Bool.true_and]
          rfl
      rw [← hbad]
      rfl
    · have hnone : (o.e ||| 0 : TSet) = o.e := BitVec.or_zero
      change o.e ||| (if o.got.isEmpty then 0 else colourSet o.colour) ||| _ = _
      simp only [hgot, List.isEmpty_nil, if_true, hnone]
      rfl

/-! The ends of operations. -/

section
variable {s : State} {c : Nat} {o : AnvOp} {rest : List AnvOp} {st : Nat}

/-- The end of the head, by what its finish leaves and delivers. -/
theorem anvilEffect_endOp (h : headOp s c o rest st) {v : Anvil} {x : VVal} (hf : AnvilEffect s c v (finishOp c o s).1)
    (hx : (finishOp c o s).2 = x) (hslip : v.slip = (getCore s c).arch.anv.slip) :
    endsWith s (endOp c o rest st s) c o rest st x ∧
      ∃ q, (getCore (endOp c o rest st s) c).arch.anv = { v with queue := q } := by
  have hdue : (getCore (endOp c o rest st s) c).arch.due = (getCore (finishOp c o s).1 c).arch.due ++
      [{ port := .anvR, at_ := doneAt s c o st - (getCore (finishOp c o s).1 c).arch.anv.slip, ord := o.ord, val := (finishOp c o s).2,
         short := false }] := by
    simp only [endOp, modAnvOf, deliverTo, getCore_modCore_same]
    rfl
  have hanv : (getCore (endOp c o rest st s) c).arch.anv =
      { (getCore (finishOp c o s).1 c).arch.anv with queue := nextStarted (doneAt s c o st) rest } := by
    simp only [endOp, modAnvOf, deliverTo, getCore_modCore_same]
    rfl
  refine ⟨⟨?_, ?_⟩, ⟨_, by rw [hanv, hf.anv]⟩⟩
  · rw [hanv]
    cases rest <;> rfl
  · rw [hdue, hf.due, hf.anv, hslip, hx]

/-- An operation that is done ends, and the anvil goes on. -/
theorem run_of_lastOp (h : lastOp s c o rest st) (hrows : isRun o.kind = true → o.count ≤ o.rows)
    (hdata : dataSpans o = [] ∨ o.read = true) :
    exec (.anvilOperationStart c) s = .next (anvilRun c 8 (endOp c o rest st s)) := by
  have hstay : anvilData c (Machine.anvilRows c (o.count - o.rows) s) = s := by
    rw [anvilRows_waits h.1 (fun hc => by have := hrows hc.1; omega), anvilData_waits h.1 hdata]
  have hdone : headDone (getCore s c).arch o st = true := by
    rw [headDone_eq, decide_eq_true h.2, Bool.true_and]
    by_cases hr : isRun o.kind = true
    · rw [if_pos hr]
      exact decide_eq_true (hrows hr)
    · rw [if_neg hr]
      rcases hdata with hd | hd
      · simp [hd]
      · simp [hd]
  exact congrArg Host.Outcome.next (anvilRun_ends h.1 hstay hdone 8)

end

/-- The rows that the accumulator store holds do not hang on the queue, the buffers or the mask. -/
theorem accRow_congr {v w : Anvil} (hr : v.rows = w.rows) (hl : v.lost = w.lost) (r : Nat) : accRow v r = accRow w r := by
  simp only [accRow, hr, hl]

section
variable {s : State} {c : Nat} {o : AnvOp} {rest : List AnvOp} {st : Nat}

theorem dataSpans_of_kind (h : o.kind ≠ .ldw ∧ o.kind ≠ .mpb ∨ o.read = true) : dataSpans o = [] ∨ o.read = true :=
  h.imp_left fun ⟨h1, h2⟩ => dataSpans_of_ne h1 h2

/-- The head stays as it is while it has nothing to do. -/
theorem run_of_waiting (h : headOp s c o rest st)
    (hw : ¬ (isRun o.kind = true ∧ o.rows < o.count ∧ rowAt s c o st ≤ anvilCycle (getCore s c).arch))
    (hdata : dataSpans o = [] ∨ o.read = true)
    (hd : anvilCycle (getCore s c).arch < doneAt s c o st ∨ isRun o.kind = true ∧ o.rows < o.count) :
    exec (.anvilOperationStart c) s = .next s := by
  have hstay : anvilData c (Machine.anvilRows c (o.count - o.rows) s) = s := by rw [anvilRows_waits h hw, anvilData_waits h hdata]
  have hdone : headDone (getCore s c).arch o st = false := by
    rw [headDone_eq]
    rcases hd with hd | ⟨hr, hd⟩
    · rw [decide_eq_false (by omega), Bool.false_and]
    · rw [if_pos hr, decide_eq_false (p := o.count ≤ o.rows) (by omega), Bool.and_false]
  exact congrArg Host.Outcome.next (anvilRun_stays h hstay h.1 hdone 8)

/-- A started `ldw` or `mpb` over temporary chunks reads its data and stays. -/
theorem anvilRun_reads (h : headOp s c o rest st) (hk : o.kind = .ldw ∨ o.kind = .mpb) (hread : o.read = false) (htaken : o.taken = [])
    (hpre : o.pre = []) (hq : (getCore s c).arch.order.nearq = []) (htemp : ∀ p ∈ dataSpans o, tempIn s (c / 4) p.1 p.2)
    (hnow : anvilCycle (getCore s c).arch < doneAt s c o st) (n : Nat) :
    ∃ v, (o.kind = .ldw → v = { (getCore s c).arch.anv with shadow := tileLoaded s c o }) ∧
      (o.kind = .mpb → v = { (getCore s c).arch.anv with mask := (maskLoaded s c o).1 }) ∧
      AnvilEffect s c { v with queue := readHead s c o :: rest } (anvilRun c (n + 1) s) := by
  have hno : isRun o.kind = false := by rcases hk with hk | hk <;> rw [hk] <;> rfl
  have hdata : anvilData c (Machine.anvilRows c (o.count - o.rows) s) = setHead (readData c (allTaken s c o) s).1 c (readHead s c o) := by
    rw [anvilRows_waits h (fun hc => by simp [hno] at hc), anvilData_reads h hk hread htaken hpre hq htemp]
  obtain ⟨v, hldw, hmpb, hact, hqueue, hslip, heff⟩ : ∃ v : Anvil, (o.kind = .ldw → v = { (getCore s c).arch.anv with shadow := tileLoaded s c o }) ∧
      (o.kind = .mpb → v = { (getCore s c).arch.anv with mask := (maskLoaded s c o).1 }) ∧
      v.active = (getCore s c).arch.anv.active ∧ v.queue = (getCore s c).arch.anv.queue ∧ v.slip = (getCore s c).arch.anv.slip ∧
      AnvilEffect s c v (readData c (allTaken s c o) s).1 := by
    rcases hk with hk | hk
    · rw [readData_ldw hk hpre]
      exact ⟨_, fun _ => rfl, (fun hm => by rw [hk] at hm; cases hm), rfl, rfl, rfl,
        anvilEffect_modAnvOf s c fun v => { v with shadow := tileLoaded s c o }⟩
    · rw [readData_mpb hk hpre]
      exact ⟨_, (fun hm => by rw [hk] at hm; cases hm), fun _ => rfl, rfl, rfl, rfl,
        anvilEffect_modAnvOf s c fun v => { v with mask := (maskLoaded s c o).1 }⟩
  have hset := heff.setHead (hqueue.trans h.1) (readHead s c o)
  refine ⟨v, hldw, hmpb, ?_⟩
  have hdone : headDone (getCore (setHead (readData c (allTaken s c o) s).1 c (readHead s c o)) c).arch (readHead s c o) st = false := by
    have hlater : anvilCycle (getCore s c).arch < doneAt s c (readHead s c o) st := hnow
    rw [headDone_eq, hset.doneAt hact, hset.cycle hslip, decide_eq_false (by omega), Bool.false_and]
  rw [anvilRun_stays h hdata (by rw [hset.anv]) hdone]
  exact hset

end

/-- Settles O38, by what the finish of each operation leaves in the anvil. -/
theorem anvilOperations : Obligations.AnvilOperations := by
  intro s c o rest st v now run ends
  have hends : ∀ {x : VVal} {w : Anvil}, lastOp s c o rest st → (isRun o.kind = true → o.count ≤ o.rows) →
      (dataSpans o = [] ∨ o.read = true) → AnvilEffect s c w (finishOp c o s).1 → (finishOp c o s).2 = x → w.slip = v.slip →
      ends (endOp c o rest st s) x ∧ ∃ q, (getCore (endOp c o rest st s) c).arch.anv = { w with queue := q } := by
    intro x w h hrows hdata hf hx hslip
    obtain ⟨hend, hanv⟩ := anvilEffect_endOp h.1 hf hx hslip
    exact ⟨⟨run_of_lastOp h hrows hdata, hend⟩, hanv⟩
  have hrow : ∀ {t : State} {w : Anvil} {q : List AnvOp}, (getCore t c).arch.anv = { w with queue := q } → ∀ r, accOf t c r = accRow w r :=
    fun {t w q} ht r => by rw [accOf, ht]; rfl
  refine ⟨fun hq => ?_, fun hq hs h1 h2 => ?_, fun h hk hread htaken hpre hq htemp hnow => ?_, fun h hnow hr hd => ?_, fun h hr hd => ?_,
    fun h hk => ?_, fun h hk => ?_, fun h hk => ?_, fun h hk => ?_, fun h hk hread => ?_, fun h hr hrows => ?_⟩
  · have hstay : ∀ n, anvilRun c n s = s := by
      intro n
      cases n with
      | zero => rfl
      | succ n => unfold anvilRun; rw [hq]
    exact ⟨congrArg Host.Outcome.next (hstay 9), hstay⟩
  · have heff := (AnvilEffect.refl s c).setHead hq { o with start := some now }
    have hhead : headOp (setHead s c { o with start := some now }) c { o with start := some now } rest now := ⟨by rw [heff.anv], rfl⟩
    have hset : setHead s c { o with start := some now } =
        modAnvOf s c (fun v => { v with queue := { o with start := some now } :: rest }) := by
      have hq' : (getCore s c).arch.anv.queue = o :: rest := hq
      simp only [setHead, modAnvOf, modCore, hq', List.drop_succ_cons, List.drop_zero]
    have hstart : anvilRun c 9 s = anvilRun c 9 (setHead s c { o with start := some now }) := anvilRun_starts hq hs 8
    have hlat := two_le_anvLatency { o with start := some now } v.active.wfmt.toNat
    have hnow : anvilCycle (getCore (setHead s c { o with start := some now }) c).arch = now := heff.cycle rfl
    have hwait := run_of_waiting hhead (fun hc => by rw [rowAt_eq, hnow] at hc; omega) (.inl (dataSpans_of_ne h1 h2))
      (.inl (by rw [hnow, heff.doneAt rfl]; exact Nat.lt_add_of_pos_right (Nat.lt_of_lt_of_le Nat.two_pos hlat)))
    rw [← hset]
    exact (congrArg Host.Outcome.next hstart).trans hwait
  · obtain ⟨w, hldw, hmpb, heff⟩ := anvilRun_reads h hk hread htaken hpre hq htemp hnow 8
    refine ⟨anvilRun c 9 s, readHead s c o, rfl, by rw [heff.anv], rfl, h.2, rfl, fun hl => ⟨?_, ?_⟩, fun hm => ⟨?_, ?_⟩, heff.stash, heff.far⟩
    · rw [heff.anv, hldw hl]
    · exact congrArg Prod.snd (readData_ldw hl hpre)
    · rw [heff.anv, hmpb hm]
    · exact congrArg Prod.snd (readData_mpb hm hpre)
  · exact run_of_waiting h (fun hc => by simp [hr] at hc) (dataSpans_of_kind hd) (.inl hnow)
  · exact run_of_waiting h (fun hc => by omega) (.inl (dataSpans_of_run hr)) (hd.elim (fun hd => .inr ⟨hr, hd.1⟩) fun hd => .inl hd.2)
  · have hfin : finishOp c o s = (modAnvOf s c (fun v => { v with active := v.shadow, shadow := v.active }), anvStatus o) := by
      unfold finishOp
      rw [hk]
    obtain ⟨he, q, hanv⟩ := hends (w := { v with active := v.shadow, shadow := v.active }) h (fun hr => by rw [hk] at hr; cases hr)
      (.inl (dataSpans_of_ne (by rw [hk]; nofun) (by rw [hk]; nofun)))
      (by rw [hfin]; exact anvilEffect_modAnvOf s c fun v => { v with active := v.shadow, shadow := v.active }) (congrArg Prod.snd hfin) rfl
    exact ⟨_, he, by rw [hanv], by rw [hanv], fun r => hrow hanv r⟩
  · have hfin : finishOp c o s = (s, { accOf s c (o.trig.v.toNat % 16384) with t := (accOf s c (o.trig.v.toNat % 16384)).t ||| o.taint }) := by
      unfold finishOp
      rw [hk]
      rfl
    obtain ⟨he, q, hanv⟩ := hends (w := v) h (fun hr => by rw [hk] at hr; cases hr)
      (.inl (dataSpans_of_ne (by rw [hk]; nofun) (by rw [hk]; nofun))) (by rw [hfin]; exact AnvilEffect.refl s c) (congrArg Prod.snd hfin) rfl
    exact ⟨_, fun r => hrow hanv r, he⟩
  · have hfin : finishOp c o s = (putRow s c o.ord o.acc { v := o.trig.v, t := o.taint, p := false }, anvStatus o) := by
      unfold finishOp
      rw [hk]
    obtain ⟨he, q, hanv⟩ := hends (w := { v with rows := alPut v.rows o.acc { v := o.trig.v, t := o.taint, p := false } }) h
      (fun hr => by rw [hk] at hr; cases hr) (.inl (dataSpans_of_ne (by rw [hk]; nofun) (by rw [hk]; nofun)))
      (by rw [hfin]; exact anvilEffect_putRow s c o.ord o.acc _) (congrArg Prod.snd hfin) rfl
    exact ⟨_, he, fun r => (hrow hanv r).trans (accRow_alPut v o.acc r _)⟩
  · have hfin : finishOp c o s = ((range' o.acc o.n).foldl (fun s r => putRow s c o.ord r VVal.zero) s, anvStatus o) := by
      unfold finishOp
      rw [hk]
    obtain ⟨rows, heff, hzero⟩ := anvilEffect_clearRows c o.ord (range' o.acc o.n) s
    obtain ⟨he, q, hanv⟩ := hends (w := { v with rows := rows }) h (fun hr => by rw [hk] at hr; cases hr)
      (.inl (dataSpans_of_ne (by rw [hk]; nofun) (by rw [hk]; nofun))) (by rw [hfin]; exact heff) (congrArg Prod.snd hfin) rfl
    refine ⟨_, he, fun r => (hrow hanv r).trans ((hzero r).trans (if_congr ?_ rfl rfl))⟩
    rw [mem_range']
  · have hfin : finishOp c o s = (s, anvStatus o) := by
      unfold finishOp
      rcases hk with hk | hk <;> rw [hk]
    obtain ⟨he, q, hanv⟩ := hends (w := v) h (fun hr => by rcases hk with hk | hk <;> rw [hk] at hr <;> cases hr)
      (.inr hread) (by rw [hfin]; exact AnvilEffect.refl s c) (congrArg Prod.snd hfin) rfl
    exact ⟨_, he, by rw [hanv], by rw [hanv], fun r => hrow hanv r⟩
  · have hfin : finishOp c o s =
        (s, if o.kind = .runv then accOf s c o.acc else anvStatus { o with code := if v.active.poison then 1 else o.code }) := by
      unfold finishOp
      cases hk : o.kind with
      | runv => rfl
      | run => rfl
      | runz => rfl
      | ldw => rw [hk] at hr; cases hr
      | swap => rw [hk] at hr; cases hr
      | mpb => rw [hk] at hr; cases hr
      | rd => rw [hk] at hr; cases hr
      | wr => rw [hk] at hr; cases hr
      | clr => rw [hk] at hr; cases hr
    obtain ⟨he, q, hanv⟩ := hends (w := v) h (fun _ => hrows) (.inl (dataSpans_of_run hr))
      (by rw [hfin]; exact AnvilEffect.refl s c) (congrArg Prod.snd hfin) rfl
    exact ⟨_, fun r => hrow hanv r, he⟩

/-! Triggers. -/

/-- What a trigger does with the operation it makes. -/
def anvTriggered (i : Instr) (o : AnvOp) (s : State) : State :=
  match anvFault s o with
  | some c => raise s i c
  | none =>
    if 8 ≤ (arch s).anv.queue.length then holdAnvil s
    else if (arch s).anv.queue.isEmpty then anvilRun s.cur 1 (modAnv s (fun v => { v with queue := v.queue ++ [o] }))
    else modAnv s (fun v => { v with queue := v.queue ++ [o] })

theorem exec_anvilTrigger : ∀ r ∈ anvilTriggers, ∀ {g : Guard} {src : Src} {s : State} {x : Val}, Moves (r.1 g src) g src s x →
    exec (r.1 g src) s = .next (anvTriggered (r.1 g src) (anvOpOf (markGuard s g src) r.2.1 (r.2.2 x)) (markGuard s g src)) := by
  simp only [anvilTriggers, List.forall_mem_cons]
  refine ⟨?_, ?_, ?_, ?_, ?_, ?_, ?_, ?_, ?_, by simp⟩
  all_goals
    intro g src s x h
    exact congrArg Host.Outcome.next (runMovePre_of_moves h _ _)

section
variable {s : State} {o : AnvOp}

/-- The running core's anvil with `o` alone in its queue, started in the present cycle. -/
def aloneStarted (s : State) (o : AnvOp) : State :=
  setArch s { arch s with anv := { (arch s).anv with queue := [{ o with start := some (anvilCycle (arch s)) }] } }

theorem setHead_of_alone (v : Anvil) (rest : List AnvOp) (u : AnvOp) (hv : v.queue = o :: rest) :
    setHead (setArch s { arch s with anv := v }) s.cur u = setArch s { arch s with anv := { v with queue := u :: rest } } := by
  simp [setHead, modAnvOf, modCore, setArch, hv, arch]

theorem anvilRun_of_empty (hq : (arch s).anv.queue = []) (hs : o.start = none) :
    anvilRun s.cur 1 (modAnv s (fun v => { v with queue := v.queue ++ [o] })) = anvilRun s.cur 1 (aloneStarted s o) := by
  have hmod : modAnv s (fun v => { v with queue := v.queue ++ [o] }) =
      setArch s { arch s with anv := { (arch s).anv with queue := [o] } } := by
    simp only [modAnv, modArch, hq, List.nil_append]
  have harch : (getCore (setArch s { arch s with anv := { (arch s).anv with queue := [o] } }) s.cur).arch =
      { arch s with anv := { (arch s).anv with queue := [o] } } := by rw [getCore_setArch_same]
  rw [hmod, anvilRun_starts (by rw [harch]) hs, setHead_of_alone _ [] _ rfl, harch]
  rfl

theorem arch_aloneStarted (s : State) (o : AnvOp) : (getCore (aloneStarted s o) s.cur).arch =
    { arch s with anv := { (arch s).anv with queue := [{ o with start := some (anvilCycle (arch s)) }] } } := by
  rw [aloneStarted, getCore_setArch_same]

theorem headOp_aloneStarted : headOp (aloneStarted s o) s.cur { o with start := some (anvilCycle (arch s)) } [] (anvilCycle (arch s)) :=
  ⟨by rw [arch_aloneStarted], rfl⟩

theorem cycle_aloneStarted : anvilCycle (getCore (aloneStarted s o) s.cur).arch = anvilCycle (arch s) := by
  rw [arch_aloneStarted]
  rfl

/-- A start is before the first row and before the end. -/
theorem not_done_at_start (t : State) (c : Nat) (u : AnvOp) (st : Nat) : st < rowAt t c u st ∧ st < doneAt t c u st := by
  have hlat := two_le_anvLatency u (getCore t c).arch.anv.active.wfmt.toNat
  unfold doneAt
  rw [rowAt_eq]
  omega

theorem anvilRun_of_aloneStarted (h1 : o.kind ≠ .ldw) (h2 : o.kind ≠ .mpb) : anvilRun s.cur 1 (aloneStarted s o) = aloneStarted s o := by
  have hstart := not_done_at_start (aloneStarted s o) s.cur { o with start := some (anvilCycle (arch s)) } (anvilCycle (arch s))
  have hrows := anvilRows_waits (headOp_aloneStarted (s := s) (o := o)) (fun hc => by rw [cycle_aloneStarted] at hc; omega) (o.count - o.rows)
  have hdata := anvilData_waits (headOp_aloneStarted (s := s) (o := o)) (.inl (dataSpans_of_ne h1 h2))
  refine anvilRun_stays (headOp_aloneStarted (s := s) (o := o)) (u := { o with start := some (anvilCycle (arch s)) }) (rest' := []) ?_
    headOp_aloneStarted.1 ?_ 0
  · exact (congrArg (anvilData s.cur) hrows).trans hdata
  · rw [headDone_eq, cycle_aloneStarted, decide_eq_false (by omega), Bool.false_and]

/-- A region of a quad depends on the quad's regions alone. -/
theorem regionOf_congr {s t : State} (h : t.quads = s.quads) (q n : Nat) : regionOf t q n = regionOf s q n := by
  have hq : getQuad t q = getQuad s q := by rw [getQuad, getQuad, h]
  unfold regionOf
  rw [hq]

theorem tempIn_congr {s t : State} (h : t.quads = s.quads) {q a n : Nat} (ht : tempIn s q a n) : tempIn t q a n :=
  ⟨ht.1, fun k h1 h2 => (regionOf_congr h q _).trans (ht.2 k h1 h2)⟩

end

/-- Settles O37, by the one form of the triggers and by what the anvil does with a single operation. -/
theorem anvilTriggers : Obligations.AnvilTriggers := by
  refine ⟨?_, ?_⟩
  · intro r hr g src s x hm i s1 o q
    have hexec : exec i s = .next (anvTriggered i o s1) := exec_anvilTrigger r hr hm
    have hanv : (arch s1).anv = (arch s).anv := markGuard_anv s g src
    have hcycle : anvilCycle (arch s1) = anvilCycle (arch s) := by
      simp only [anvilCycle, s1, markGuard_csr, markGuard_anv]
    have hnone : anvFault s1 o = none → anvTriggered i o s1 =
        if 8 ≤ q.length then holdAnvil s1
        else if q.isEmpty then anvilRun s1.cur 1 (modAnv s1 (fun v => { v with queue := v.queue ++ [o] }))
        else modAnv s1 (fun v => { v with queue := v.queue ++ [o] }) := by
      intro hf
      unfold anvTriggered
      rw [hf, hanv]
    have halone : anvFault s1 o = none → q = [] → exec i s = .next (anvilRun s1.cur 1 (aloneStarted s1 o)) := by
      intro hf hq
      have hq1 : (arch s1).anv.queue = [] := (congrArg Anvil.queue hanv).trans hq
      rw [hexec, hnone hf, hq, ← anvilRun_of_empty hq1 rfl]
      rfl
    refine ⟨fun c hf => ?_, fun hf hfull => ?_, fun hf hroom hne => ?_, fun hf hq h1 h2 => ?_, fun hf hq hk htemp hnear => ?_⟩
    · rw [hexec]
      unfold anvTriggered
      rw [hf]
    · rw [hexec, hnone hf, if_pos hfull]
    · rw [hexec, hnone hf, if_neg (by omega), if_neg (by simpa using hne)]
      refine ⟨_, rfl, ?_⟩
      have hmod : modAnv s1 (fun v => { v with queue := v.queue ++ [o] }) =
          setArch s1 { arch s1 with anv := { (arch s1).anv with queue := q ++ [o] } } := by
        simp only [modAnv, modArch, hanv, q]
      rw [hmod]
      exact onlyArch_setArch s1 _
    · rw [halone hf hq, anvilRun_of_aloneStarted h1 h2]
      refine ⟨_, rfl, ?_⟩
      rw [← hcycle]
      exact onlyArch_setArch s1 _
    · have hspans : ∀ p ∈ dataSpans o, tempIn (aloneStarted s1 o) (s1.cur / 4) p.1 p.2 := fun p hp => by
        have hquads : (aloneStarted s1 o).quads = s.quads := markGuard_quads s g src
        have hcur : s1.cur = s.cur := markGuard_cur s g src
        exact hcur ▸ tempIn_congr hquads (htemp p hp)
      have hnear1 : (getCore (aloneStarted s1 o) s1.cur).arch.order.nearq = [] := by
        rw [arch_aloneStarted]
        exact (congrArg Order.nearq (markGuard_order s g src)).trans hnear
      obtain ⟨w, -, -, heff⟩ := anvilRun_reads (headOp_aloneStarted (s := s1) (o := o)) hk rfl rfl rfl hnear1 hspans
        (cycle_aloneStarted.trans_lt (not_done_at_start _ _ _ _).2) 0
      have hcur : (anvilRun s1.cur 1 (aloneStarted s1 o)).cur = s1.cur := heff.cur
      have hrest : arch (anvilRun s1.cur 1 (aloneStarted s1 o)) =
          { arch (aloneStarted s1 o) with anv := (arch (anvilRun s1.cur 1 (aloneStarted s1 o))).anv } := by
        rw [arch, hcur, heff.arch]
        rfl
      have hstart : arch (aloneStarted s1 o) = _ := arch_aloneStarted s1 o
      have hq1 : (arch (anvilRun s1.cur 1 (aloneStarted s1 o))).anv.queue = [readHead (aloneStarted s1 o) s1.cur
          { o with start := some (anvilCycle (arch s1)) }] := by
        rw [arch, hcur, heff.anv]
      refine ⟨_, _, halone hf hq, hq1, rfl, congrArg some hcycle, rfl, ?_, ?_, ?_, ?_, ?_⟩
      · rw [hrest, hstart]
      · rw [hrest, hstart]
        exact markGuard_ops s g src
      · rw [hrest, hstart]
        exact markGuard_due s g src
      · exact heff.stash.trans (markGuard_stash s g src)
      · exact heff.far.trans (markGuard_far s g src)
  · intro g src s x hm
    refine ⟨_, congrArg Host.Outcome.next (runMove_of_moves hm _), ?_⟩
    rw [delivers_long, longDue_markGuard]
    exact onlyArch_setArch _ _

end Sys2Proof.Proofs
end

section
/-! PROOF. Droops and bandwidth windows, the power governor, boot, the connector's signals, resets (R14, R293, R295, R297, R333, R350,
R354 to R356). -/

namespace Sys2Proof.Proofs

open Sys2Proof.Machine Sys2Proof.Claims Sys2Proof.Laws

/-! Dies. -/

theorem onlyDie_setDie (s : State) (d : Nat) (x : Die) : onlyDie s d x (setDie s d x) :=
  ⟨by simp, fun k hk => by simp [Ne.symm hk], rfl, rfl, rfl⟩

theorem onlyDie_modDie (s : State) (d : Nat) (f : Die → Die) : onlyDie s d (f (getDie s d)) (modDie s d f) := onlyDie_setDie s d _

/-- No bucket was idle: each takes its own share. -/
theorem refill_of_took {d : Die} (h : ∀ e ∈ d.buckets, e.2.took = true) :
    refill d = d.buckets.map (fun e => (e.1, { e.2 with tokens := d.grant * e.2.share / 65536, took := false })) := by
  have hidle : ∀ e ∈ d.buckets, wasIdle d e = false := fun e he => by simp [wasIdle, h e he]
  have hnone : d.buckets.filter (wasIdle d) = [] := List.filter_eq_nil_iff.mpr fun e he => by simp [hidle e he]
  unfold refill
  simp only [hnone, List.map_nil, List.foldl_nil, Nat.zero_mul, Nat.zero_div, Nat.add_zero, ite_self]

theorem bucketWindow_onlyDie {s : State} {d : Nat} (hnow : s.now % 1024 = 0) (hwin : (getDie s d).window ≤ s.now / 1024)
    (hq : (getDie s d).waitq = []) (ht : ∀ e ∈ (getDie s d).buckets, e.2.took = true) :
    ∃ t, exec (.bucketWindowStart d) s = .next t ∧ onlyDie s d
      { getDie s d with window := s.now / 1024 + 1,
                        buckets := (getDie s d).buckets.map (fun e =>
                          (e.1, { e.2 with tokens := (getDie s d).grant * e.2.share / 65536, took := false })) } t := by
  refine ⟨setDie s d { getDie s d with buckets := refill (getDie s d), waitq := [], window := s.now / 1024 + 1 }, ?_, ?_⟩
  · change execBucketWindowStart d s = _
    unfold execBucketWindowStart
    dsimp only
    rw [if_pos ⟨hnow, hwin⟩, hq]
    rfl
  · rw [refill_of_took ht, ← hq]
    exact onlyDie_setDie s d _

/-! The power governor. -/

theorem stepDuty_alone {s : State} {g : Gang} (before : Gang → Gang → Bool) (up : Bool) (p : Gang → Bool) (hr : runningGangs s = [g])
    (hp : p g = true) : stepDuty s up (firstGang before (((s.hub.gangs.map (·.2)).filter (fun g => decide (g.st = .running))).filter p)) =
      setGang s { g with nextDuty := if up then g.nextDuty + 1 else g.nextDuty - 1 } := by
  have hrun : (s.hub.gangs.map (·.2)).filter (fun g => decide (g.st = .running)) = [g] := hr
  rw [hrun, List.filter_cons_of_pos hp]
  rfl

/-! Boot and the ports. -/

theorem comeUp_cores (s : State) : (comeUp s).cores = s.cores := by
  unfold comeUp certify
  dsimp only
  split
  · split <;> rfl
  · rfl

theorem comeUp_of_low {s : State} (h : s.edge.pins.perstN = false) : comeUp s = s := by
  unfold comeUp
  rw [if_neg (by simp [h])]

/-- What coming up changes: the links and the boot state. -/
theorem comeUp_eq (s : State) : ∃ l b, comeUp s = { s with edge := { s.edge with links := l, boot := b } } ∧
    b.count = s.edge.boot.count ∧ b.imageB = s.edge.boot.imageB := by
  unfold comeUp certify
  dsimp only
  split
  · split <;> exact ⟨_, _, rfl, rfl, rfl⟩
  · exact ⟨_, _, rfl, rfl, rfl⟩

/-- With perst_n high after the third step of boot, the ports come up and the functions answer; the session key is certified while
signatures are left. -/
theorem comeUp_of_high {s : State} (hs : s.edge.boot.stage = 1) (hp : s.edge.pins.perstN = true) :
    (comeUp s).edge.links = BitVec.allOnes 8 ∧
      (s.edge.boot.longIndex < 2 ^ 20 → (comeUp s).edge.boot.stage = 3 ∧ (comeUp s).edge.boot.sigsLeft = 65536 ∧
        (comeUp s).edge.boot.longIndex = s.edge.boot.longIndex + 1) ∧
      (2 ^ 20 ≤ s.edge.boot.longIndex → (comeUp s).edge.boot.stage = 2) := by
  unfold comeUp certify
  rw [if_pos ⟨hs, hp⟩]
  dsimp only
  by_cases hl : s.edge.boot.longIndex < 2 ^ 20
  · rw [if_pos ⟨rfl, hp, hl⟩]
    exact ⟨rfl, fun _ => ⟨rfl, rfl, rfl⟩, fun h => absurd hl (by omega)⟩
  · rw [if_neg (fun h => hl h.2.2)]
    exact ⟨rfl, fun h => absurd h hl, fun _ => rfl⟩

/-- A core that a number of dies leave: they are withdrawn. -/
theorem down_foldl {l : List Nat} {s : State} {d : Nat} (h : d ∈ l ∨ (getDie s d).down = true) :
    (getDie (l.foldl (fun s d => modDie s d (fun x => { x with down := true })) s) d).down = true := by
  induction l generalizing s with
  | nil => exact h.resolve_left (List.not_mem_nil)
  | cons n l ih =>
    refine ih ?_
    by_cases hn : n = d
    · exact .inr (hn ▸ congrArg Die.down (onlyDie_modDie s n _).1)
    · refine h.imp (fun h => (List.mem_cons.mp h).resolve_left (Ne.symm hn)) fun h => ?_
      exact (congrArg Die.down ((onlyDie_modDie s n _).2.1 d (Ne.symm hn))).trans h

/-! The end of every world. -/

theorem alGet_map {α β : Type} (f : Nat → α → β) (d : α) (k : Nat) (l : List (Nat × α)) :
    alGet (f k d) (l.map (fun e => (e.1, f e.1 e.2))) k = f k (alGet d l k) := by
  induction l with
  | nil => rfl
  | cons e l ih =>
    simp only [List.map_cons, alGet]
    by_cases he : e.1 = k
    · rw [if_pos he, if_pos he, he]
    · rw [if_neg he, if_neg he, ih]

/-- A remap changes cores and quads alone, and keeps the cores' load epochs. -/
structure Remap (s t : State) : Prop where
  epoch : ∀ c, (getCore t c).epoch = (getCore s c).epoch
  rest : { t with cores := s.cores, quads := s.quads } = s

theorem Remap.refl (s : State) : Remap s s := ⟨fun _ => rfl, rfl⟩

theorem Remap.trans {s t u : State} (h : Remap s t) (k : Remap t u) : Remap s u where
  epoch c := (k.epoch c).trans (h.epoch c)
  rest := (congrArg (fun x : State => { x with cores := s.cores, quads := s.quads }) k.rest).trans h.rest

theorem Remap.foldl {α : Type} {f : State → α → State} (h : ∀ s x, Remap s (f s x)) (l : List α) (s : State) : Remap s (l.foldl f s) := by
  induction l generalizing s with
  | nil => exact Remap.refl s
  | cons x l ih => exact (h s x).trans (ih (f s x))

theorem remap_modCore (s : State) (c : Nat) (f : Core → Core) (h : ∀ x, (f x).epoch = x.epoch) : Remap s (modCore s c f) where
  epoch d := by
    by_cases hd : c = d
    · rw [← hd, getCore_modCore_same, h]
    · rw [getCore_modCore_other _ _ hd]
  rest := rfl

theorem remap_modQuad (s : State) (q : Nat) (f : Quad → Quad) : Remap s (modQuad s q f) := ⟨fun _ => rfl, rfl⟩

theorem remap_remapQuad (s : State) (q site : Nat) : Remap s (remapQuad s q site) := by
  have hcores := Remap.foldl (f := fun s c => modCore s c (fun x => { x with imem := [], covered := [], loadedFor := none }))
    (fun s c => remap_modCore s c _ fun _ => rfl) (range' (4 * q) 4) s
  exact hcores.trans (remap_modQuad _ q fun x => { x with site := site })

theorem remap_remapAll (s : State) (g : Gang) : Remap s (remapAll s g) :=
  Remap.foldl (fun s (e : Nat × Nat) => remap_remapQuad s e.1 e.2) g.remap s

/-- The state after the worlds have ended, before the ports come up. -/
def worldless (s0 : State) : State :=
  let s := (s0.hub.gangs.map (·.2)).foldl remapAll s0
  let b := s.edge.boot
  { s with
    todo := [], served := false, waiting := [], issue := none,
    cores := s.cores.map (fun e => (e.1, emptyCore e.2)), quads := s.quads.map (fun e => (e.1, emptyQuad e.1 e.2)),
    dies := s.dies.map (fun e => (e.1, emptyDie e.2)), stash := [], tags := [], sbad := [], chunks := [],
    far := s.far.filter (fun e => !isHbm e.1), lineVer := [], bad := [], frames := [], xlat := [], hub := emptyHub s.hub,
    edge := { s.edge with links := 0, held := [], podKey := none, ide := [], hostPages := [], stackPages := [], invalidating := [], revoking := [], migrating := [],
                          boot := { b with stage := min 1 b.stage, count := b.count + 1, sigsLeft := 0 } } }

theorem endWorlds_eq (s : State) : endWorlds s = comeUp (worldless s) := rfl

theorem memRead_without_hbm (m : Memory) {a : Nat} (h : isHbm a = true) : memRead (m.filter (fun e => !isHbm e.1)) a = memDefault :=
  alGet_filter_out _ _ _ fun _ => by simp [h]

section
variable (s : State)

theorem remap_gangs : Remap s ((s.hub.gangs.map (·.2)).foldl remapAll s) := Remap.foldl remap_remapAll _ s

theorem worldless_edge : (worldless s).edge = { s.edge with
    links := 0, held := [], podKey := none, ide := [], hostPages := [], stackPages := [], invalidating := [], revoking := [], migrating := [],
    boot := { s.edge.boot with stage := min 1 s.edge.boot.stage, count := s.edge.boot.count + 1, sigsLeft := 0 } } := by
  have hedge : ((s.hub.gangs.map (·.2)).foldl remapAll s).edge = s.edge := (congrArg State.edge (remap_gangs s).rest :)
  simp only [worldless, hedge]

theorem worldless_hub : (worldless s).hub = emptyHub s.hub :=
  congrArg emptyHub (congrArg State.hub (remap_gangs s).rest :)

theorem getCore_worldless (c : Nat) : getCore (worldless s) c = { Core.reset with epoch := (getCore s c).epoch } :=
  (alGet_map (fun _ x => emptyCore x) Core.reset c _).trans
    (congrArg (fun n => { Core.reset with epoch := n }) ((remap_gangs s).epoch c))

theorem getQuad_worldless (q : Nat) :
    getQuad (worldless s) q = emptyQuad q (getQuad ((s.hub.gangs.map (·.2)).foldl remapAll s) q) :=
  alGet_map emptyQuad (Quad.reset q) q _

theorem stage_endWorlds : (endWorlds s).edge.boot.stage = if s.edge.boot.stage = 0 then 0 else
    if s.edge.pins.perstN then (if s.edge.boot.longIndex < 2 ^ 20 then 3 else 2) else 1 := by
  have hstage : (worldless s).edge.boot.stage = min 1 s.edge.boot.stage := by rw [worldless_edge]
  have hpins : (worldless s).edge.pins = s.edge.pins := by rw [worldless_edge]
  have hlong : (worldless s).edge.boot.longIndex = s.edge.boot.longIndex := by rw [worldless_edge]
  rw [endWorlds_eq]
  by_cases h0 : s.edge.boot.stage = 0
  · have hstay : comeUp (worldless s) = worldless s := if_neg fun h => by rw [hstage] at h; omega
    rw [if_pos h0, hstay, hstage, h0]
    rfl
  rw [if_neg h0]
  by_cases hp : s.edge.pins.perstN = true
  · obtain ⟨_, hlow, hhigh⟩ := comeUp_of_high (s := worldless s) (by rw [hstage]; omega) (by rw [hpins, hp])
    rw [hlong] at hlow hhigh
    rw [if_pos hp]
    split
    · next hl => exact (hlow hl).1
    · next hl => exact hhigh (by omega)
  · rw [if_neg hp, comeUp_of_low (by rw [hpins]; simpa using hp), hstage]
    omega

/-- The end of every world leaves what `worldsGone` says, and the pins. -/
theorem worldsGone_endWorlds : worldsGone s (endWorlds s) ∧ (endWorlds s).edge.pins = s.edge.pins := by
  obtain ⟨l, b, hup, hcount, _⟩ := comeUp_eq (worldless s)
  have h : endWorlds s = _ := (endWorlds_eq s).trans hup
  have hpins : (endWorlds s).edge.pins = s.edge.pins := by rw [h, worldless_edge]
  have hhub : (endWorlds s).hub = emptyHub s.hub := by rw [h]; exact worldless_hub s
  refine ⟨⟨fun c => ?_, fun q => ?_, by rw [hhub]; rfl, by rw [hhub]; rfl, by rw [hhub]; rfl, by rw [hhub]; rfl, by rw [h]; rfl, by rw [h]; rfl,
    by rw [h]; rfl, ?_, by rw [hhub]; rfl, ?_, by rw [hhub]; rfl, by rw [h]; rfl, ?_, fun a ha => ?_, by rw [hhub]; rfl, by rw [hhub]; rfl, ?_⟩, hpins⟩
  · rw [h]
    exact getCore_worldless s c
  · have hq : getQuad (endWorlds s) q = getQuad (worldless s) q := by rw [h]; rfl
    rw [hq, getQuad_worldless]
    exact ⟨rfl, rfl, rfl, rfl⟩
  · rw [h, worldless_edge]
  · rw [h, worldless_edge]
  · rw [hpins]
    exact stage_endWorlds s
  · rw [h]
    exact memRead_without_hbm _ ha
  · rw [h]
    exact hcount.trans (by rw [worldless_edge])

end

/-! Events of dies and of the governor. -/

theorem dieEvents (s : State) (d : Nat) : let x := getDie s d
    (∃ t, exec (.droopDetection d) s = .next t ∧ onlyDie s d
      { x with nextLimit := if x.nextLimit = 6 then 2 else 1, quiet := 0, droop := true } t) ∧
    (1024 ≤ x.quiet → ∃ t, exec (.droopRecovery d) s = .next t ∧
      onlyDie s d { x with limit := if x.nextLimit = 1 then 2 else 6, nextLimit := if x.nextLimit = 1 then 2 else 6, quiet := 0 } t) ∧
    ∃ t, exec (.ucieLinkFailure d) s = .next t ∧ onlyDie s d { x with down := true } t ∧ t.edge.logs = s.edge.logs ++ [(5, d, 0)] := by
  intro x
  refine ⟨⟨_, rfl, onlyDie_modDie s d _⟩, fun hq => ⟨_, rfl, ?_⟩, ⟨_, rfl, onlyDie_modDie (logEntry s 5 d 0) d _, rfl⟩⟩
  have h := onlyDie_modDie s d (fun d =>
    if 1024 ≤ d.quiet then
      let l := if d.nextLimit = 1 then 2 else 6
      { d with limit := l, nextLimit := l, quiet := 0 }
    else d)
  rw [if_pos (show 1024 ≤ (getDie s d).quiet from hq)] at h
  exact h

/-- The governor's count set. -/
def governed (s : State) (n : Nat) : State := { s with edge := { s.edge with governor := n } }

theorem governorReading_eq (w : Nat) (s : State) : exec (.governorReading w) s =
    let run := (s.hub.gangs.map (·.2)).filter (fun g => decide (g.st = .running))
    if 2350 < w then .next (governed (stepDuty s false (firstGang (lowerFirst s) (run.filter (fun g => decide (1 < g.nextDuty))))) 0)
    else if 2250 ≤ w then .next (governed s 0)
    else if 10 ≤ s.edge.governor + 1 then
      .next (governed (stepDuty s true (firstGang (raiseFirst s) (run.filter (fun g => decide (g.nextDuty < 16))))) 0)
    else .next (governed s (s.edge.governor + 1)) := rfl

/-- A reading that steps the only running gang. -/
theorem governed_setGang (s : State) (g u : Gang) (hu : u.ctx = g.ctx) :
    (governed (setGang s u) 0).edge.governor = 0 ∧ getGang (governed (setGang s u) 0) g.ctx = some u ∧
      (governed (setGang s u) 0).cores = s.cores :=
  ⟨rfl, hu ▸ getGang_setGang_same s u, rfl⟩

theorem governorEvents (s : State) (w : Nat) :
    (2350 < w → ∀ g, runningGangs s = [g] → 1 < g.nextDuty → ∃ t, exec (.governorReading w) s = .next t ∧ t.edge.governor = 0 ∧
      getGang t g.ctx = some { g with nextDuty := g.nextDuty - 1 } ∧ t.cores = s.cores) ∧
    (2250 ≤ w → w ≤ 2350 → exec (.governorReading w) s = .next (governed s 0)) ∧
    (w < 2250 → s.edge.governor < 9 → exec (.governorReading w) s = .next (governed s (s.edge.governor + 1))) ∧
    (w < 2250 → 9 ≤ s.edge.governor → ∀ g, runningGangs s = [g] → g.nextDuty < 16 → ∃ t, exec (.governorReading w) s = .next t ∧
      t.edge.governor = 0 ∧ getGang t g.ctx = some { g with nextDuty := g.nextDuty + 1 } ∧ t.cores = s.cores) := by
  simp only [governorReading_eq]
  refine ⟨fun hw g hg hd => ?_, fun h1 h2 => ?_, fun hw hc => ?_, fun hw hc g hg hd => ?_⟩
  · rw [if_pos hw, stepDuty_alone _ _ _ hg (by simpa using hd)]
    exact ⟨_, rfl, governed_setGang s g { g with nextDuty := g.nextDuty - 1 } rfl⟩
  · rw [if_neg (by omega), if_pos h1]
  · rw [if_neg (by omega), if_neg (by omega), if_neg (by omega)]
  · rw [if_neg (by omega), if_neg (by omega), if_pos (by omega), stepDuty_alone _ _ _ hg (by simpa using hd)]
    exact ⟨_, rfl, governed_setGang s g { g with nextDuty := g.nextDuty + 1 } rfl⟩

/-! Boot. -/

/-- Neither image loads: the module stays in reset and holds alert_n low. -/
def unbooted (s : State) : State :=
  { s with edge := { s.edge with boot := { s.edge.boot with dead := true }, pins := { s.edge.pins with alertN := false } } }

/-- Boot's third step is done. -/
def booted (r : BootReport) (s : State) : State :=
  let s1 := r.deadDies.foldl (fun s d => modDie s d (fun x => { x with down := true })) s
  { s1 with edge := { s1.edge with boot := { s.edge.boot with stage := 1, count := s.edge.boot.count + 1, imageB := !r.imageA },
                                   pins := { s1.edge.pins with pwrgd := true, thermN := true } } }

theorem edge_deadDies (l : List Nat) (s : State) : (l.foldl (fun s d => modDie s d (fun x => { x with down := true })) s).edge = s.edge := by
  induction l generalizing s with
  | nil => rfl
  | cons d l ih => exact (ih _).trans rfl

theorem booted_edge (r : BootReport) (s : State) : (booted r s).edge = { s.edge with
    boot := { s.edge.boot with stage := 1, count := s.edge.boot.count + 1, imageB := !r.imageA },
    pins := { s.edge.pins with pwrgd := true, thermN := true } } := by
  simp only [booted, edge_deadDies]

theorem boot_of_image {r : BootReport} {s : State} (h0 : s.edge.boot.stage = 0) (hdead : s.edge.boot.dead = false)
    (hi : r.imageA = true ∨ r.imageB = true) : exec (.boot r) s = .next (comeUp (booted r s)) := by
  change execBoot r s = _
  unfold execBoot
  dsimp only
  rw [if_neg (by simp [h0, hdead]), if_neg (by rcases hi with hi | hi <;> simp [hi])]
  rfl

theorem getDie_comeUp (s : State) (d : Nat) : getDie (comeUp s) d = getDie s d := by
  obtain ⟨l, b, hup, _⟩ := comeUp_eq s
  rw [hup]
  rfl

theorem bootEvents (s : State) (r : BootReport) (h0 : s.edge.boot.stage = 0) (hdead : s.edge.boot.dead = false)
    (hi : r.imageA = true ∨ r.imageB = true) :
    ∃ t, exec (.boot r) s = .next t ∧ t.edge.boot.imageB = !r.imageA ∧
      t.edge.boot.count = s.edge.boot.count + 1 ∧ t.edge.pins.pwrgd = true ∧ (∀ d ∈ r.deadDies, (getDie t d).down = true) ∧
      (s.edge.pins.perstN = true → t.edge.links = BitVec.allOnes 8 ∧
        t.edge.boot.stage = if s.edge.boot.longIndex < 2 ^ 20 then 3 else 2) ∧
      (s.edge.pins.perstN = false → t.edge.links = s.edge.links ∧ t.edge.boot.stage = 1) := by
  have hedge := booted_edge r s
  obtain ⟨l, b, hup, hcount, himage⟩ := comeUp_eq (booted r s)
  refine ⟨_, boot_of_image h0 hdead hi, ?_, ?_, ?_, fun d hd => ?_, fun hp => ?_, fun hp => ?_⟩
  · rw [hup]
    exact himage.trans (by rw [hedge])
  · rw [hup]
    exact hcount.trans (by rw [hedge])
  · rw [hup, hedge]
  · rw [getDie_comeUp]
    exact down_foldl (s := s) (.inl hd)
  · obtain ⟨hl, hlow, hhigh⟩ := comeUp_of_high (s := booted r s) (by rw [hedge]) (by rw [hedge]; exact hp)
    rw [hedge] at hlow hhigh
    refine ⟨hl, ?_⟩
    split
    · next h => exact (hlow h).1
    · next h => exact hhigh (Nat.le_of_not_lt h)
  · rw [comeUp_of_low (by rw [hedge]; exact hp), hedge]
    exact ⟨rfl, rfl⟩

/-- Settles O55: the events one by one, perst_n and the reset of function 0 through the end of every world. -/
theorem signalEvents : Obligations.SignalEvents := by
  intro s
  refine ⟨fun d => ?_, governorEvents s, fun r h0 hdead => ⟨fun hA hB => ?_, bootEvents s r h0 hdead⟩, ?_, ?_, fun ha => ?_, rfl, ?_, ?_⟩
  · obtain ⟨hdroop, hrec, hucie⟩ := dieEvents s d
    exact ⟨hdroop, hrec, bucketWindow_onlyDie, hucie⟩
  · have hx : exec (.boot r) s = .next (unbooted s) := by
      change execBoot r s = _
      unfold execBoot
      dsimp only
      rw [if_neg (by simp [h0, hdead]), if_pos (by simp [hA, hB])]
      rfl
    exact ⟨_, hx, rfl, h0, rfl⟩
  · refine ⟨_, rfl, ?_, comeUp_cores _, fun h1 => comeUp_of_high h1 rfl⟩
    obtain ⟨l, b, hup, _⟩ := comeUp_eq { s with edge := { s.edge with pins := { s.edge.pins with perstN := true } } }
    rw [hup]
  · have h := worldsGone_endWorlds { s with edge := { s.edge with pins := { s.edge.pins with perstN := false } } }
    exact ⟨_, rfl, h.1, congrArg Pins.perstN h.2⟩
  · obtain ⟨hgone, hpins⟩ := worldsGone_endWorlds s
    refine ⟨_, ?_, hgone, hpins⟩
    change execFlrVirtualFunction 0 s = _
    unfold execFlrVirtualFunction
    rw [if_neg (by simp [ha]), if_pos rfl]
  · refine ⟨_, rfl, rfl, rfl, rfl, rfl, rfl, fun a ha => memRead_without_hbm _ ha, rfl⟩
  · refine ⟨_, rfl, rfl, ?_, rfl, rfl, rfl⟩
    have hn : (s.edge.alerts - 1 = 0) ↔ s.edge.alerts ≤ 1 := by omega
    change (decide (s.edge.alerts - 1 = 0) && !s.edge.boot.dead) = true ↔ _
    simp [hn]

end Sys2Proof.Proofs
end

section
/-! PROOF. The canonical form of the memories and of the lists of lines, and what an operation on memory leaves unchanged: the layer that
the events of far memory, of the engines and of the firmware share (R201 to R231, R318 to R323, R344, R360). -/

namespace Sys2Proof.Proofs

open Sys2Proof.Machine Sys2Proof.Claims Sys2Proof.Laws

/-- The canonical forms of the memories and of the lists of lines are kept. -/
structure Canon (s t : State) : Prop where
  memories : memoriesOk s = true → memoriesOk t = true
  lines : linesOk s = true → linesOk t = true

section
variable {s t u : State}

theorem Canon.refl (s : State) : Canon s s := ⟨id, id⟩

theorem Canon.trans (h : Canon s t) (k : Canon t u) : Canon s u := ⟨fun hs => k.memories (h.memories hs), fun hs => k.lines (h.lines hs)⟩

/-- The memories and the lists of lines stand. -/
theorem canon_of_eq (h1 : t.stash = s.stash) (h2 : t.far = s.far) (h3 : t.lineVer = s.lineVer) (h4 : t.bad = s.bad) : Canon s t :=
  ⟨by simp only [memoriesOk, h1, h2, imp_self], by simp only [linesOk, h3, h4, imp_self]⟩

/-- Far memory written, its canonical form kept. -/
theorem canon_of_far (h1 : t.stash = s.stash) (h2 : memWf s.far = true → memWf t.far = true) (h3 : t.lineVer = s.lineVer)
    (h4 : t.bad = s.bad) : Canon s t :=
  ⟨by simp only [memoriesOk, h1, Bool.and_eq_true]; exact And.imp_right h2, by simp only [linesOk, h3, h4, imp_self]⟩

theorem canon_of_stash (h1 : memWf s.stash = true → memWf t.stash = true) (h2 : t.far = s.far) (h3 : t.lineVer = s.lineVer)
    (h4 : t.bad = s.bad) : Canon s t :=
  ⟨by simp only [memoriesOk, h2, Bool.and_eq_true]; exact And.imp_left h1, by simp only [linesOk, h3, h4, imp_self]⟩

theorem canon_of_lines (h1 : t.stash = s.stash) (h2 : t.far = s.far) (h3 : alWf 0 s.lineVer = true → alWf 0 t.lineVer = true)
    (h4 : alWf false s.bad = true → alWf false t.bad = true) : Canon s t :=
  ⟨by simp only [memoriesOk, h1, h2, imp_self], by simp only [linesOk, Bool.and_eq_true]; exact And.imp h3 h4⟩

theorem Canon.foldl {α : Type} {f : State → α → State} (h : ∀ s x, Canon s (f s x)) (l : List α) (s : State) : Canon s (l.foldl f s) := by
  induction l generalizing s with
  | nil => exact Canon.refl s
  | cons x l ih => exact (h s x).trans (ih (f s x))

end

/-- An operation on memory: it changes dies, memories, chunks, lines, frames, the hub, the edge and the clock of accesses alone, and keeps
the canonical forms. -/
structure MemStep (s t : State) : Prop extends Canon s t where
  frame : { t with dies := s.dies, stash := s.stash, tags := s.tags, sbad := s.sbad, chunks := s.chunks, far := s.far, lineVer := s.lineVer,
                   bad := s.bad, frames := s.frames, hub := s.hub, edge := s.edge, clock := s.clock } = s

section
variable {s t u : State}

theorem MemStep.refl (s : State) : MemStep s s := ⟨Canon.refl s, rfl⟩

theorem MemStep.trans (h : MemStep s t) (k : MemStep t u) : MemStep s u where
  toCanon := h.toCanon.trans k.toCanon
  frame := (congrArg (fun a : State =>
    { a with dies := s.dies, stash := s.stash, tags := s.tags, sbad := s.sbad, chunks := s.chunks, far := s.far, lineVer := s.lineVer,
             bad := s.bad, frames := s.frames, hub := s.hub, edge := s.edge, clock := s.clock }) k.frame).trans h.frame

theorem MemStep.cores (h : MemStep s t) : t.cores = s.cores := (congrArg State.cores h.frame :)
theorem MemStep.quads (h : MemStep s t) : t.quads = s.quads := (congrArg State.quads h.frame :)
theorem MemStep.cur (h : MemStep s t) : t.cur = s.cur := (congrArg State.cur h.frame :)
theorem MemStep.now (h : MemStep s t) : t.now = s.now := (congrArg State.now h.frame :)
theorem MemStep.xlat (h : MemStep s t) : t.xlat = s.xlat := (congrArg State.xlat h.frame :)
theorem MemStep.freeCtr (h : MemStep s t) : t.freeCtr = s.freeCtr := (congrArg State.freeCtr h.frame :)

theorem MemStep.getCore (h : MemStep s t) (c : Nat) : getCore t c = getCore s c := by rw [Machine.getCore, Machine.getCore, h.cores]

theorem MemStep.getQuad (h : MemStep s t) (q : Nat) : getQuad t q = getQuad s q := by rw [Machine.getQuad, Machine.getQuad, h.quads]

theorem MemStep.foldl {α : Type} {f : State → α → State} (h : ∀ s x, MemStep s (f s x)) (l : List α) (s : State) :
    MemStep s (l.foldl f s) := by
  induction l generalizing s with
  | nil => exact MemStep.refl s
  | cons x l ih => exact (h s x).trans (ih (f s x))

theorem MemStep.ite {p : Prop} [Decidable p] (ht : MemStep s t) (hu : MemStep s u) : MemStep s (if p then t else u) := by
  split
  · exact ht
  · exact hu

end

/-! Dies, tokens and keys. -/

theorem memStep_setDie (s : State) (n : Nat) (d : Die) : MemStep s (setDie s n d) := ⟨canon_of_eq rfl rfl rfl rfl, rfl⟩

theorem memStep_modDie (s : State) (n : Nat) (f : Die → Die) : MemStep s (modDie s n f) := memStep_setDie s n _

theorem TokenStep.memStep {s t : State} (h : TokenStep s t) : MemStep s t where
  toCanon := canon_of_eq (congrArg State.stash h.eq :) (congrArg State.far h.eq :) (congrArg State.lineVer h.eq :) (congrArg State.bad h.eq :)
  frame := congrArg (fun a : State =>
    { a with dies := s.dies, stash := s.stash, tags := s.tags, sbad := s.sbad, chunks := s.chunks, far := s.far, lineVer := s.lineVer,
             bad := s.bad, frames := s.frames, hub := s.hub, edge := s.edge, clock := s.clock }) h.eq

theorem memStep_takeTokensOf (s : State) (dn t core ident n : Nat) : MemStep s (takeTokensOf s dn t core ident n).2 :=
  (tokenStep_takeTokensOf s dn t core ident n).memStep

theorem memStep_takeToken (s : State) (core ident : Nat) : MemStep s (takeToken s core ident).2 := (tokenStep_takeToken s core ident).memStep

theorem memStep_chargeTokens (s : State) (core n : Nat) : MemStep s (chargeTokens s core n) :=
  MemStep.ite (memStep_setDie s _ _) (MemStep.refl s)

theorem memStep_touchL2 (s : State) (pa : Nat) : MemStep s (touchL2 s pa) := by
  unfold touchL2
  exact MemStep.ite (memStep_modDie s _ _) (MemStep.refl s)

/-- A change of the hub alone. -/
theorem memStep_hub (s : State) (h : Hub) : MemStep s { s with hub := h } := ⟨canon_of_eq rfl rfl rfl rfl, rfl⟩

/-- A change of the edge alone. -/
theorem memStep_edge (s : State) (e : Edge) : MemStep s { s with edge := e } := ⟨canon_of_eq rfl rfl rfl rfl, rfl⟩

theorem memStep_clock (s : State) (n : Nat) : MemStep s { s with clock := n } := ⟨canon_of_eq rfl rfl rfl rfl, rfl⟩

theorem memStep_nextStamp (s : State) : MemStep s (nextStamp s).2 := memStep_clock s _

theorem memStep_countSeals (s : State) (world lines : Nat) : MemStep s (countSeals s world lines) := by
  unfold countSeals
  split
  · exact MemStep.refl s
  · exact memStep_hub s _

theorem memStep_countSeal (s : State) (pa : Nat) : MemStep s (countSeal s pa) := by
  unfold countSeal
  split
  · exact memStep_countSeals s _ _
  · exact MemStep.refl s

/-! Lines of far memory. -/

theorem memStep_markBad (s : State) (pa : Nat) : MemStep s (markBad s pa) := by
  unfold markBad
  split
  · exact MemStep.refl s
  · exact ⟨canon_of_lines rfl rfl id fun h => alWf_alSet false h (pa / 64) true, rfl⟩

theorem memStep_openForMerge (s : State) (g : Option Gang) (pa : Nat) (mask : BitVec 64) : MemStep s (openForMerge s g pa mask) :=
  MemStep.ite (memStep_markBad s pa) (MemStep.refl s)

/-- The masked bytes of a line written to a memory. -/
def lineWritten (m : Memory) (pa : Nat) (mask : BitVec 64) (data : BitVec 512) : Memory :=
  (range' 0 64).foldl (fun m i => if mask.getLsbD i then memWrite m (pa + i) (data.extractLsb' (8 * i) 8) else m) m

theorem memWf_lineWritten {m : Memory} (h : memWf m = true) (pa : Nat) (mask : BitVec 64) (data : BitVec 512) :
    memWf (lineWritten m pa mask data) = true := by
  refine memWf_foldl _ (fun m i hm => ?_) h _
  split
  · exact memWf_memWrite hm _ _
  · exact hm

/-- A line written at its home, before it is sealed. -/
def lineStored (s : State) (pa : Nat) (mask : BitVec 64) (data : BitVec 512) : State :=
  { s with far := lineWritten s.far pa mask data, bad := alSet false s.bad (pa / 64) false }

/-- A line of HBM sealed under the version of its write. -/
def lineSealed (s : State) (g : Option Gang) (pa : Nat) : State :=
  { s with lineVer := alSet 0 s.lineVer (pa / 64) (writeVersion s g pa),
           frames := s.frames.map (fun e => if e.1 = frameOf pa then (e.1, { e.2 with changed := true }) else e) }

theorem memStep_lineStored (s : State) (pa : Nat) (mask : BitVec 64) (data : BitVec 512) : MemStep s (lineStored s pa mask data) where
  memories h := by
    simp only [memoriesOk, lineStored, Bool.and_eq_true] at h ⊢
    exact ⟨h.1, memWf_lineWritten h.2 _ _ _⟩
  lines h := by
    simp only [linesOk, lineStored, Bool.and_eq_true] at h ⊢
    exact ⟨h.1, alWf_alSet false h.2 _ _⟩
  frame := rfl

theorem memStep_lineSealed (s : State) (g : Option Gang) (pa : Nat) : MemStep s (lineSealed s g pa) :=
  ⟨canon_of_lines rfl rfl (fun h => alWf_alSet 0 h _ _) id, rfl⟩

theorem homeWrite_eq (s : State) (g : Option Gang) (pa : Nat) (mask : BitVec 64) (data : BitVec 512) : homeWrite s g pa mask data =
    if isBad (openForMerge s g pa mask) pa ∧ mask ≠ BitVec.allOnes 64 then openForMerge s g pa mask
    else if isHbm pa then touchL2 (countSeal (lineSealed (lineStored (openForMerge s g pa mask) pa mask data) g pa) pa) pa
    else lineStored (openForMerge s g pa mask) pa mask data := rfl

theorem memStep_homeWrite (s : State) (g : Option Gang) (pa : Nat) (mask : BitVec 64) (data : BitVec 512) :
    MemStep s (homeWrite s g pa mask data) := by
  rw [homeWrite_eq]
  have hopen := memStep_openForMerge s g pa mask
  generalize openForMerge s g pa mask = s1 at hopen
  have hstored := hopen.trans (memStep_lineStored s1 pa mask data)
  refine MemStep.ite hopen (MemStep.ite ?_ hstored)
  exact ((hstored.trans (memStep_lineSealed _ g pa)).trans (memStep_countSeal _ pa)).trans (memStep_touchL2 _ pa)

theorem memStep_noteRead (s : State) (g : Option Gang) (pa : Nat) : MemStep s (noteRead s g pa) := by
  unfold noteRead
  split
  · exact MemStep.refl s
  · exact (MemStep.ite (memStep_markBad s pa) (MemStep.refl s)).trans (memStep_touchL2 _ pa)

/-! Chunks. -/

theorem memStep_putChunk (s : State) (key : Nat) (c : Chunk) : MemStep s (putChunk s key c) := ⟨canon_of_eq rfl rfl rfl rfl, rfl⟩

theorem memStep_dropChunk (s : State) (key : Nat) : MemStep s (dropChunk s key) := ⟨canon_of_eq rfl rfl rfl rfl, rfl⟩

theorem memStep_unregister (s : State) (pa : Nat) : MemStep s (unregister s pa) := memStep_modDie s _ _

theorem memStep_writebackChunk (s : State) (key pa : Nat) : MemStep s (writebackChunk s key pa) := by
  unfold writebackChunk
  split
  · exact memStep_unregister s pa
  · next c _ =>
    have hstamp := memStep_nextStamp s
    dsimp only
    have hhome := hstamp.trans (MemStep.ite (p := c.dirty = true) (memStep_homeWrite (nextStamp s).2 (chunkGang (nextStamp s).2 key) pa c.mask
      (lineOfBytes (chunkBytes (nextStamp s).2 key))) (MemStep.refl _))
    exact (hhome.trans (memStep_unregister _ pa)).trans (memStep_putChunk _ key _)

theorem memStep_recallLine (s : State) (pa : Nat) : MemStep s (recallLine s pa) := by
  unfold recallLine
  split
  · exact memStep_writebackChunk s _ pa
  · exact MemStep.refl s

theorem tokenStep_recallToken (s : State) (l : Loc) : TokenStep s (recallToken s l).2 := by
  unfold recallToken
  split
  · exact TokenStep.refl s
  · exact tokenStep_takeToken s _ _

theorem tokenStep_keepGrant (s : State) (l : Loc) : TokenStep s (keepGrant s l) := by
  unfold keepGrant
  split
  · exact TokenStep.refl s
  · exact tokenStep_setDie rfl

theorem TokenStep.foldl {α : Type} {f : State → α → State} (h : ∀ s x, TokenStep s (f s x)) (l : List α) (s : State) :
    TokenStep s (l.foldl f s) := by
  induction l generalizing s with
  | nil => exact TokenStep.refl s
  | cons x l ih => exact (h s x).trans (ih (f s x))

theorem tokenStep_takeRecalls (l : List Loc) (s : State) : TokenStep s (takeRecalls l s).2 := by
  induction l generalizing s with
  | nil => exact TokenStep.refl s
  | cons x l ih =>
    have htoken := tokenStep_recallToken s x
    simp only [takeRecalls]
    rcases hr : recallToken s x with ⟨_ | _, s1⟩ <;> rw [hr] at htoken
    · exact htoken
    · have hrest := htoken.trans (ih s1)
      dsimp only
      rcases hl : takeRecalls l s1 with ⟨_ | _, s2⟩ <;> rw [hl] at hrest
      · exact hrest.trans (tokenStep_keepGrant s2 x)
      · exact hrest

theorem tokenStep_takeWithRecalls (s : State) (core ident : Nat) (l : List Loc) : TokenStep s (takeWithRecalls s core ident l).2 := by
  have hrecalls := tokenStep_takeRecalls l s
  unfold takeWithRecalls
  rcases hr : takeRecalls l s with ⟨_ | _, s1⟩ <;> rw [hr] at hrecalls
  · exact hrecalls
  · have htoken := hrecalls.trans (tokenStep_takeToken s1 core ident)
    dsimp only
    rcases ht : takeToken s1 core ident with ⟨_ | _, s2⟩ <;> rw [ht] at htoken
    · exact htoken.trans (TokenStep.foldl tokenStep_keepGrant l s2)
    · exact htoken

theorem memStep_recallToken (s : State) (l : Loc) : MemStep s (recallToken s l).2 := (tokenStep_recallToken s l).memStep

theorem memStep_takeRecalls (l : List Loc) (s : State) : MemStep s (takeRecalls l s).2 := (tokenStep_takeRecalls l s).memStep

theorem memStep_takeWithRecalls (s : State) (core ident : Nat) (l : List Loc) : MemStep s (takeWithRecalls s core ident l).2 :=
  (tokenStep_takeWithRecalls s core ident l).memStep

theorem memStep_writeLine (s : State) (g : Option Gang) (pa : Nat) (mask : BitVec 64) (data : BitVec 512) :
    MemStep s (writeLine s g pa mask data) := (memStep_recallLine s pa).trans (memStep_homeWrite _ g pa mask data)

theorem memStep_stashWrite (s : State) (q a : Nat) (bs : List Byte) : MemStep s (stashWrite s q a bs) :=
  ⟨canon_of_stash (fun h => memWf_memWriteN h _ _) rfl rfl rfl, rfl⟩

theorem memStep_stashPoison (s : State) (q a n : Nat) : MemStep s (stashPoison s q a n) := ⟨canon_of_eq rfl rfl rfl rfl, rfl⟩

theorem memStep_placeLine (s : State) (key n : Nat) (bytes : List Byte) (bad : Bool) : MemStep s (placeLine s key n bytes bad) := by
  unfold placeLine
  exact ((memStep_stashWrite s _ _ bytes).trans (MemStep.ite (memStep_stashPoison _ _ _ 64) (MemStep.refl _))).trans (memStep_putChunk _ key _)

theorem memStep_fillChunk (s : State) (key : Nat) (bytes : List Byte) (bad : Bool) : MemStep s (fillChunk s key bytes bad).2 :=
  (memStep_nextStamp s).trans (memStep_placeLine _ key _ bytes bad)

/-- The state once the registrations are recalled that a registration gives way for. -/
def recalledFor (s : State) (pa : Nat) : State :=
  match evictedLine (recallLine s pa) pa with
  | some p => recallLine (recallLine s pa) p
  | none => recallLine s pa

theorem memStep_recalledFor (s : State) (pa : Nat) : MemStep s (recalledFor s pa) := by
  unfold recalledFor
  split
  · exact (memStep_recallLine s pa).trans (memStep_recallLine _ _)
  · exact memStep_recallLine s pa

theorem registerChunk_eq (s : State) (key pa : Nat) :
    let s1 := recalledFor s pa
    let x := readLine s1 (chunkGang s1 key) pa
    let f := fillChunk (noteRead s1 (chunkGang s1 key) pa) key x.1 x.2
    registerChunk s key pa = (f.1, modDie (putChunk f.2 key { dirty := true, stamp := f.1, mask := 0 }) (homeOf pa)
      (fun d => { d with dir := d.dir ++ [(pa / 64, key)] })) := rfl

theorem memStep_registerChunk (s : State) (key pa : Nat) : MemStep s (registerChunk s key pa).2 := by
  rw [registerChunk_eq]
  have hread := (memStep_recalledFor s pa).trans (memStep_noteRead _ (chunkGang (recalledFor s pa) key) pa)
  dsimp only
  refine MemStep.trans (MemStep.trans ?_ (memStep_putChunk _ key _)) (memStep_modDie _ _ _)
  exact hread.trans (memStep_fillChunk _ key _ _)

/-! Transfers to peers. -/

theorem memStep_emit (s : State) (o : Outgoing) : MemStep s (emit s o) := memStep_edge s _

theorem memStep_setPeer (s : State) (m : Nat) (x : SeqState) : MemStep s (setPeer s m x) := memStep_hub s _

theorem memStep_setSession (s : State) (n : Nat) (x : Session) : MemStep s (setSession s n x) := memStep_hub s _

theorem memStep_takeSeq (s : State) (n : Nat) : MemStep s (takeSeq s n).2 := by
  unfold takeSeq
  split
  · exact MemStep.refl s
  · exact memStep_setSession s n _

theorem memStep_sendFrame (s : State) (port cls ctx session rid seq status modid : Nat) (body : List Byte) (way : Way) :
    MemStep s (sendFrame s port cls ctx session rid seq status modid body way) := memStep_edge s _

theorem memStep_sendPod (s : State) (cls dest rid : Nat) (body : List Byte) : MemStep s (sendPod s cls dest rid body) := by
  unfold sendPod
  split
  · exact memStep_emit s _
  · split
    · exact memStep_emit s _
    · split
      · exact (memStep_setPeer s dest _).trans (memStep_sendFrame _ _ _ _ _ _ _ _ _ _ _)
      · exact memStep_emit s _

theorem memStep_startXfer (s : State) (core ident kind cls fn : Nat) (l : Loc) (mask : BitVec 64) (data : List Byte) :
    MemStep s (startXfer s core ident kind cls fn l mask data).2 := by
  unfold startXfer
  dsimp only
  exact ((memStep_nextStamp s).trans (memStep_hub _ _)).trans (memStep_sendPod _ _ _ _ _)

theorem memStep_unregisterPeer (s : State) (key : Nat) : MemStep s (unregisterPeer s key) := memStep_hub s _

theorem memStep_registerPeer (s : State) (key : Nat) (l : Loc) : MemStep s (registerPeer s key l) :=
  (memStep_unregisterPeer s key).trans (memStep_hub _ _)

theorem memStep_flushChunk (s : State) (core key : Nat) (l : Loc) : MemStep s (flushChunk s core key l) := by
  unfold flushChunk
  split
  · exact memStep_writebackChunk s key l.pa
  · split
    · next c _ =>
      refine MemStep.ite ?_ (MemStep.refl s)
      have hsent := (memStep_nextStamp s).trans (MemStep.ite (p := c.mask = 0) (MemStep.refl _)
        (memStep_startXfer (nextStamp s).2 core key 5 0x41 0 (lineLoc l) c.mask (chunkBytes (nextStamp s).2 key)))
      exact (hsent.trans (memStep_unregisterPeer _ key)).trans (memStep_putChunk _ key _)
    · exact MemStep.refl s

theorem memStep_recallPeer (s : State) (core : Nat) (l : Loc) : MemStep s (recallPeer s core l) := by
  unfold recallPeer
  split
  · exact MemStep.refl s
  · split
    · exact memStep_flushChunk s core _ l
    · exact MemStep.refl s

theorem memStep_recallPaid (s : State) (core : Nat) (l : Loc) : MemStep s (recallPaid s core l) := by
  have htoken := memStep_recallToken s l
  unfold recallPaid
  rcases hr : recallToken s l with ⟨_ | _, s1⟩ <;> rw [hr] at htoken
  · exact htoken
  · exact htoken.trans (memStep_recallPeer s1 core l)

theorem memStep_flushWindow (s : State) (core q : Nat) (w : Window) : MemStep s (flushWindow s core q w) := by
  refine MemStep.foldl (fun s key => ?_) _ s
  split
  · refine MemStep.ite ?_ (MemStep.refl s)
    split
    · exact memStep_flushChunk s core key _
    · exact MemStep.refl s
  · exact MemStep.refl s

theorem memStep_invalidateWindow (s : State) (q : Nat) (w : Window) : MemStep s (invalidateWindow s q w) := by
  refine MemStep.foldl (fun s key => ?_) _ s
  split
  · exact MemStep.ite (MemStep.refl s) (memStep_dropChunk s key)
  · exact MemStep.refl s

theorem memStep_quadWrite (s : State) (q a : Nat) (bs : List Byte) : MemStep s (quadWrite s q a bs) := by
  rw [quadWrite_eq]
  refine (memStep_stashWrite s q a bs).trans (MemStep.foldl (fun s k => ?_) _ _)
  unfold markChunk
  dsimp only
  split
  · exact MemStep.ite (memStep_putChunk s _ _) (MemStep.refl s)
  · exact MemStep.refl s

end Sys2Proof.Proofs
end

section
/-! PROOF. Commits, colours, checkpoints, watchdogs, detected errors and rollbacks of a core (R33, R37, R225, R226, R229, R308, R310 to
R313). -/

namespace Sys2Proof.Proofs

open Sys2Proof.Machine Sys2Proof.Claims Sys2Proof.Laws

theorem sparesOthers_modCore (s : State) (c : Nat) (f : Core → Core) : sparesOthers s c (modCore s c f) :=
  ⟨fun _ hk => getCore_modCore_other s f (Ne.symm hk), rfl, rfl⟩

theorem sparesOthers_setCore (s : State) (c : Nat) (x : Core) : sparesOthers s c (setCore s c x) :=
  ⟨fun _ hk => getCore_setCore_other s x (Ne.symm hk), rfl, rfl⟩

theorem SparesOthers.trans {s t u : State} {c : Nat} (h : sparesOthers s c t) (k : sparesOthers t c u) : sparesOthers s c u :=
  ⟨fun d hd => (k.1 d hd).trans (h.1 d hd), k.2.1.trans h.2.1, k.2.2.trans h.2.2⟩

/-! Commits, colours and checkpoints. -/

theorem forcedCommit_event {s : State} {c : Nat} (h : 65536 ≤ (getCore s c).arch.order.sinceCommit) :
    ∃ t, exec (.forcedCommit c) s = .next t ∧ (coreArch t c).order.sbuf = [] ∧
      (coreArch t c).order.released = (getCore s c).arch.order.released ++ (getCore s c).arch.order.sbuf ∧
      (coreArch t c).order.sinceCommit = 0 ∧ (getCore t c).jn.windowOpen = true ∧
      (coreArch t c).regs = (getCore s c).arch.regs ∧ sparesOthers s c t := by
  have hopen : (getCore (openWindow (releaseStores s c) c 2) c).jn.windowOpen = true := by
    rw [openWindow, getCore_modCore_same]
    split
    · next hw => exact hw
    · rfl
  have harch : coreArch (openWindow (releaseStores s c) c 2) c = { (getCore s c).arch with order :=
      { (getCore s c).arch.order with released := (getCore s c).arch.order.released ++ (getCore s c).arch.order.sbuf, sbuf := [],
                                      sinceCommit := 0 } } := by
    obtain ⟨j, hj⟩ := openWindow_eq (releaseStores s c) c 2
    rw [hj, coreArch, getCore_modCore_same, releaseStores, getCore_modCore_same]
  refine ⟨openWindow (releaseStores s c) c 2, congrArg Host.Outcome.next (if_pos h), by rw [harch], by rw [harch], by rw [harch], hopen,
    by rw [harch], ?_⟩
  exact SparesOthers.trans (sparesOthers_modCore s c _) (sparesOthers_modCore _ c _)

theorem tcolAdvance_event {s : State} {c : Nat} (h : 64 ≤ (getCore s c).arch.order.farCount) :
    ∃ t, exec (.tcolAdvance c) s = .next t ∧
      (coreArch t c).order = { (getCore s c).arch.order with tcol := (getCore s c).arch.order.tcol + 1, farCount := 0 } ∧
      (coreArch t c).regs = (getCore s c).arch.regs ∧ sparesOthers s c t := by
  refine ⟨modArchOf s c (fun a => { a with order := { a.order with tcol := a.order.tcol + 1, farCount := 0 } }),
    congrArg Host.Outcome.next (if_pos h), ?_, ?_, sparesOthers_modCore s c _⟩
  · rw [coreArch, getCore_modArchOf_same]
  · rw [coreArch, getCore_modArchOf_same]

theorem checkpoint_event {s : State} {c : Nat} (h1 : (getCore s c).arch.seq.atCk = true) (h2 : (getCore s c).arch.seq.stall = 0)
    (h3 : (getCore s c).arch.seq.wait = none) :
    exec (.checkpoint c) s = .next (takeCheckpoint s c (getCore s c).arch.seq.last) :=
  congrArg Host.Outcome.next (if_pos (by simp [h1, h2, h3]))

theorem getCore_takeCheckpoint (s : State) (c : Nat) (addr : BAddr) : getCore (takeCheckpoint s c addr) c =
    { getCore s c with arch := { (getCore s c).arch with seq := { (getCore s c).arch.seq with atCk := false } },
                       ck := { (getCore s c).arch with seq := { (getCore s c).arch.seq with atCk := false } },
                       jn := { Journal.reset with ckaddr := addr, rolls := (getCore s c).jn.rolls, periodAt := s.now } } :=
  getCore_modCore_same s c _

/-! Watchdogs. -/

theorem ended_endTask (s : State) (c cause : Nat) : (getCore (endTask s c cause) c).status = .ended cause := by
  rw [getCore_endTask_same]
  rfl

/-! Errors on a hop outside the core. -/

theorem isBad_markBad (s : State) (pa a : Nat) : isBad (markBad s pa) a = if pa / 64 = a / 64 then true else isBad s a := by
  unfold markBad
  split
  · next hb =>
    split
    · next ha => rw [isBad, ← ha]; exact hb
    · rfl
  · have hset : alSet false s.bad (pa / 64) true = alPut s.bad (pa / 64) true := if_neg (by decide)
    simp only [isBad, hset, alGet_alPut]

theorem markBad_stash (s : State) (pa : Nat) : (markBad s pa).stash = s.stash := by
  unfold markBad
  split <;> rfl

theorem markBad_far (s : State) (pa : Nat) : (markBad s pa).far = s.far := by
  unfold markBad
  split <;> rfl

/-- Part `e.2` of an access whose data are poisoned, with free bytes from `n` on. -/
def poisonedPart (n : Nat) (e : FarPart × Nat) : FarPart :=
  { e.1 with done := e.1.done.map (fun d => (d.1, (range' (n + 64 * e.2) d.2.1.length).map Config.freeByte, true)) }

/-- An access with the data of the one of issue order `ord` poisoned. -/
def poisonedFar (n ord : Nat) (f : FarOp) : FarOp := if f.ord = ord then { f with parts := f.parts.zipIdx.map (poisonedPart n) } else f

theorem getCore_poisonFar (s : State) (c ord : Nat) : getCore (poisonFar s c ord) c =
    { getCore s c with arch := { (getCore s c).arch with order :=
      { (getCore s c).arch.order with far := (getCore s c).arch.order.far.map (poisonedFar s.freeCtr ord) } } } :=
  getCore_modCore_same _ c _

theorem done_poisonedPart (n : Nat) (e : FarPart × Nat) : (poisonedPart n e).done.isSome = e.1.done.isSome ∧
    ∀ d, (poisonedPart n e).done = some d → d.2.2 = true := by
  unfold poisonedPart
  rcases e.1.done with _ | d
  · exact ⟨rfl, nofun⟩
  · exact ⟨rfl, fun _ hd => by cases hd; rfl⟩

theorem parts_poisonedFar {n ord : Nat} {f : FarOp} (hf : f.ord = ord) :
    (poisonedFar n ord f).parts.map (fun p => p.done.isSome) = f.parts.map (fun p => p.done.isSome) ∧
      ∀ p ∈ (poisonedFar n ord f).parts, ∀ d, p.done = some d → d.2.2 = true := by
  rw [poisonedFar, if_pos hf]
  refine ⟨List.ext_getElem? fun i => ?_, fun p hp => ?_⟩
  · rcases hi : f.parts[i]? with _ | p
    · simp [hi]
    · simp [hi, (done_poisonedPart n _).1]
  · obtain ⟨e, -, rfl⟩ := List.mem_map.mp hp
    exact (done_poisonedPart n e).2

/-! Rollbacks. -/

/-- Only the stamps of core `c`'s colours have changed. -/
structure StampStep (s : State) (c : Nat) (t : State) : Prop where
  core : ∃ st, getCore t c = { getCore s c with arch := { (getCore s c).arch with order := { (getCore s c).arch.order with st := st } } }
  others : ∀ d, d ≠ c → getCore t d = getCore s d
  rest : { t with cores := s.cores } = s

theorem StampStep.refl (s : State) (c : Nat) : StampStep s c s := ⟨⟨_, rfl⟩, fun _ _ => rfl, rfl⟩

theorem StampStep.trans {s t u : State} {c : Nat} (h : StampStep s c t) (k : StampStep t c u) : StampStep s c u where
  core := by
    obtain ⟨st, ht⟩ := h.core
    obtain ⟨st', hu⟩ := k.core
    exact ⟨st', by rw [hu, ht]⟩
  others d hd := (k.others d hd).trans (h.others d hd)
  rest := (congrArg (fun x : State => { x with cores := s.cores }) k.rest).trans h.rest

theorem StampStep.foldl {α : Type} {c : Nat} {f : State → α → State} (h : ∀ s x, StampStep s c (f s x)) (l : List α) (s : State) :
    StampStep s c (l.foldl f s) := by
  induction l generalizing s with
  | nil => exact StampStep.refl s c
  | cons x l ih => exact (h s x).trans (ih (f s x))

theorem stampStep_noteStamp (s : State) (c : Nat) (colour : Fin 16) (n : Nat) : StampStep s c (noteStamp s c colour n) :=
  ⟨⟨_, getCore_modCore_same s c _⟩, fun _ hd => getCore_modCore_other s _ (Ne.symm hd), rfl⟩

theorem stampStep_noteDone (c : Nat) (l : List FarOp) (s : State) : StampStep s c (noteDone c l s) := by
  refine StampStep.foldl (fun s f => ?_) l s
  split
  · exact StampStep.refl s c
  · refine StampStep.foldl (fun s p => ?_) _ s
    split
    · exact stampStep_noteStamp s c _ _
    · exact StampStep.refl s c

theorem memStep_undoReady (c : Nat) (s : State) (k : Nat) : MemStep s (undoReady c s k) := by
  unfold undoReady
  dsimp only
  split
  · refine MemStep.ite (MemStep.refl s) ?_
    split
    · exact MemStep.refl s
    · split
      · exact memStep_registerChunk s _ _
      · exact ((memStep_nextStamp s).trans (memStep_putChunk _ _ _)).trans (memStep_registerPeer _ _ _)
  · exact MemStep.refl s

theorem memStep_undoRun (c : Nat) (s : State) (r : Nat × List Byte) : MemStep s (undoRun c s r) :=
  (MemStep.foldl (memStep_undoReady c) _ s).trans (memStep_quadWrite _ _ _ _)

/-- The tags and poison marks of an undone store put back. -/
def marksPut (s : State) (tags : List (Nat × Tag)) (bad : List (Nat × Bool)) : State :=
  { s with tags := tags.foldl (fun l e => alPut l e.1 e.2) s.tags, sbad := bad.foldl (fun l e => alPut l e.1 e.2) s.sbad }

theorem memStep_marksPut (s : State) (tags : List (Nat × Tag)) (bad : List (Nat × Bool)) : MemStep s (marksPut s tags bad) :=
  ⟨canon_of_eq rfl rfl rfl rfl, rfl⟩

theorem memStep_undoNear (c : Nat) (l : List JRec) (s : State) : MemStep s (undoNear c l s) := by
  induction l generalizing s with
  | nil => exact MemStep.refl s
  | cons r l ih =>
    cases r with
    | near runs tags bad =>
      have hruns := MemStep.foldl (memStep_undoRun c) runs s
      exact (hruns.trans (memStep_marksPut _ tags bad)).trans (ih (marksPut (runs.foldl (undoRun c) s) tags bad))
    | row n old => exact ih s
    | load x => exact ih s

section
variable (s : State) (c : Nat)

/-- The core at its checkpoint: its journal empty, its watchdogs at rest. -/
def atCheckpoint (x : Core) (loads : List LoadRec) (base : Nat) : Core :=
  { x with arch := rolledBack x loads base, freezeDog := 0, waitDog := 0, droopHeld := 0, jn := { x.jn with recs := [], bytes := 0, took := [] } }

/-- A restore changes core `c`, to its checkpoint but for the stamps of its colours, and what its journal undoes. -/
theorem restoreCk_claim (loads : List LoadRec) :
    (∃ st, let y := atCheckpoint (getCore s c) loads s.freeCtr
      getCore (restoreCk s c loads) c = { y with arch := { y.arch with order := { y.arch.order with st := st } } }) ∧
    (∀ d, d ≠ c → getCore (restoreCk s c loads) d = getCore s d) ∧ (restoreCk s c loads).quads = s.quads ∧
    Canon s (restoreCk s c loads) := by
  have hundo := memStep_undoNear c (getCore s c).jn.recs { s with freeCtr := s.freeCtr + 12288 }
  have hcore := hundo.getCore
  have hquads := hundo.quads
  have hcanon := hundo.toCanon
  have hdone := stampStep_noteDone c (rolledBack (getCore s c) loads s.freeCtr).order.far
    (modCore (undoNear c (getCore s c).jn.recs { s with freeCtr := s.freeCtr + 12288 }) c (fun y =>
      { y with arch := rolledBack (getCore s c) loads s.freeCtr, freezeDog := 0, waitDog := 0, droopHeld := 0,
               jn := { y.jn with recs := [], bytes := 0, took := [] } }))
  obtain ⟨⟨st, hst⟩, hothers, hrest⟩ := hdone
  refine ⟨⟨st, ?_⟩, fun d hd => ?_, ?_, ?_⟩
  · refine hst.trans ?_
    rw [getCore_modCore_same, hcore]
    rfl
  · exact ((hothers d hd).trans (getCore_modCore_other _ _ (Ne.symm hd))).trans (hcore d)
  · exact (congrArg State.quads hrest :).trans hquads
  · refine Canon.trans (t := { s with freeCtr := s.freeCtr + 12288 }) (canon_of_eq rfl rfl rfl rfl) (hcanon.trans ?_)
    exact canon_of_eq (congrArg State.stash hrest :) (congrArg State.far hrest :) (congrArg State.lineVer hrest :) (congrArg State.bad hrest :)

end

/-- The rerun that a rollback begins with. -/
def firstRerun (s : State) (c : Nat) (e : ErrorReport) : Rerun :=
  let x := getCore s c
  let last := if s.todo.contains c then s.now - 1 else s.now
  { first := none, left := 0, stop := x.arch.csr.cyc, spent := last + (if x.ck.seq.entered then 0 else 1) - x.jn.periodAt,
    loads := loadRecs x.jn.recs e.refetch, writes := [], errs := e.again }

theorem startRollback_claim (s : State) (c : Nat) (e : ErrorReport) :
    let x := getCore s c
    let t := startRollback s c e
    ∃ r, (getCore t c).rerun = some r ∧ r.first = none ∧
      r.stop = x.arch.csr.cyc ∧ r.left = 16 + (journaled x.jn.recs).length ∧ (getQuad t (c / 4)).hold = some c ∧
      (coreArch t c).regs = x.ck.regs ∧ (coreArch t c).csr = { x.ck.csr with frzMem := x.ck.csr.frzMem + r.spent } ∧
      (coreArch t c).seq = x.ck.seq ∧ (getCore t c).jn.recs = [] ∧
      (coreArch t c).q = x.arch.q ∧ (coreArch t c).order.released = x.arch.order.released ∧ (coreArch t c).order.sbuf = [] ∧
      (∀ d, d ≠ c → getCore t d = getCore s d) := by
  obtain ⟨⟨st, hst⟩, hothers, -, -⟩ := restoreCk_claim s c (firstRerun s c e).loads
  intro x t
  have ht : ∀ d, getCore t d = getCore (beginRerun s c (firstRerun s c e)) d := fun _ => rfl
  have hc : getCore t c = _ := (ht c).trans ((getCore_modCore_same _ c _).trans (by rw [hst]))
  have ha : coreArch t c = _ := congrArg Core.arch hc
  refine ⟨{ firstRerun s c e with left := restorePeriods (getCore s c), writes := [] }, by rw [hc], rfl, rfl, rfl, ?_, by rw [ha]; rfl,
    by rw [ha]; rfl, by rw [ha]; rfl, by rw [hc]; rfl, by rw [ha]; rfl, by rw [ha]; rfl, by rw [ha]; rfl, fun d hd => ?_⟩
  · exact congrArg Quad.hold (getQuad_modQuad_same _ (c / 4) _)
  · exact (ht d).trans ((getCore_modCore_other _ _ (Ne.symm hd)).trans (hothers d hd))

/-- The end of the second of two reruns that agree. -/
theorem endRerun_agreed {s : State} {c : Nat} {r : Rerun} (hr : (getCore s c).rerun = some r) (hleft : r.left = 0)
    (hstop : r.stop ≤ (getCore s c).arch.csr.cyc) (hw : (getCore s c).jn.windowOpen = false)
    (hfirst : r.first = some ((getCore s c).arch.csr.cyc, signature r.writes)) (herr : r.errs = false) :
    endRerun s c = (true, agreedRollback s c) := by
  have hdone : rerunDone (getCore s c) = true := by simp [rerunDone, hr, hleft, hstop, hw]
  unfold endRerun
  dsimp only
  rw [hr]
  simp only [hdone, Bool.not_true, Bool.false_eq_true, if_false, hfirst, herr, and_self, if_true]

/-- A quad without the hold of a rollback that has ended (R311). -/
def holdReleased (s : State) (x : Quad) : Quad :=
  if x.hold.isNone then x else { x with hold := x.hold.filter (fun c => (getCore s c).rerun.isSome) }

theorem getQuad_releaseHolds (s : State) (q : Nat) : getQuad (releaseHolds s) q = holdReleased s (getQuad s q) := by
  have hmap : (releaseHolds s).quads = s.quads.map (fun e => (e.1, holdReleased s e.2)) := by
    refine List.map_congr_left fun e _ => ?_
    unfold holdReleased
    split <;> rfl
  rw [getQuad, hmap]
  exact alGet_map (fun _ x => holdReleased s x) (Quad.reset q) q s.quads

theorem engineCompletion_event {s : State} {c q : Nat} {w : Word} {rest : List (Nat × Word)}
    (hev : (getCore s c).arch.order.engEvents = (q, w) :: rest) (hb : (getCore s c).status = .bound) (hr : (getCore s c).rerun = none)
    (hu : (getCore s c).arch.csr.uie = true) (hh : (getCore s c).arch.seq.handler = none) (hsafe : (getCore s c).arch.seq.atSafe = true)
    (hstall : (getCore s c).arch.seq.stall = 0) (hwait : (getCore s c).arch.seq.wait = none) :
    exec (.engineCompletionEvent c) s = .next (setCore s c { getCore s c with
      arch := enterHandler { (getCore s c).arch with order := { (getCore s c).arch.order with engEvents := rest } } cEngine q w.toNat
        (getCore s c).arch.seq.pc ((getCore s c).arch.csr.cyc + 1),
      jn := { (getCore s c).jn with took := (getCore s c).jn.took ++ [(q, w)] } }) := by
  change execEngineCompletionEvent c s = _
  unfold execEngineCompletionEvent
  dsimp only
  rw [hev]
  exact if_pos ⟨hb, by rw [hr]; rfl, hu, by simp [inHandler, hh], by simp [atSafePoint, hsafe, hstall, hwait]⟩

/-- Settles O48, event by event; a rollback by what the restore of its checkpoint leaves. -/
theorem coreEvents : Obligations.CoreEvents := by
  intro s c x o
  refine ⟨forcedCommit_event, tcolAdvance_event, fun h1 h2 h3 => ?_, fun hb hd => ?_, fun hb hd => ?_, fun m hb hm hp hr => ?_,
    fun e pa he => ?_, fun e ord he => ?_, fun e he hb hr => ⟨fun hw => ?_, fun hw => ?_⟩,
    fun r hr hleft hstop hw hfirst herr hhold => ?_, fun q w rest hev hb hr hu hh hsafe hstall hwait => ?_⟩
  · have hc := getCore_takeCheckpoint s c x.arch.seq.last
    have ha : coreArch (takeCheckpoint s c x.arch.seq.last) c = _ := congrArg Core.arch hc
    refine ⟨_, checkpoint_event h1 h2 h3, by rw [hc], by rw [hc]; rfl, by rw [hc]; rfl, by rw [hc]; rfl, by rw [hc], by rw [ha], by rw [ha],
      by rw [ha], by rw [ha], sparesOthers_modCore s c _⟩
  · exact ⟨_, congrArg Host.Outcome.next (if_pos ⟨hb, hd⟩), ended_endTask s c _⟩
  · exact ⟨_, congrArg Host.Outcome.next (if_pos ⟨hb, hd⟩), ended_endTask s c _⟩
  · refine ⟨endTask s c cPreempt, ?_, ended_endTask s c _⟩
    change execPreemptionTimeout c s = _
    unfold execPreemptionTimeout
    rw [show (getCore s c).mark = some m from hm]
    exact congrArg Host.Outcome.next (if_pos ⟨hb, hp, by rw [show (getCore s c).rerun = none from hr]; rfl⟩)
  · have hx : exec (.detectedError c e) s = .next (hopError s c (.stored pa)) := by
      change execDetectedError c e s = _
      unfold execDetectedError
      dsimp only
      rw [he]
      rfl
    refine ⟨_, hx, ?_⟩
    by_cases hh : isHbm pa = true
    · have hs : hopError s c (.stored pa) = markBad s (pa / 64 * 64) := if_pos hh
      have hm := memStep_markBad s (pa / 64 * 64)
      have hbad : ∀ a, isBad (markBad s (pa / 64 * 64)) a = if pa / 64 = a / 64 then true else isBad s a := fun a => by
        rw [isBad_markBad, Nat.mul_div_cancel _ (by omega)]
      rw [hs]
      refine ⟨hm.cores, markBad_stash s _, markBad_far s _, fun _ => by rw [hbad, if_pos rfl], fun a ha => by rw [hbad, if_neg (Ne.symm ha)]⟩
    · have hs : hopError s c (.stored pa) = s := if_neg hh
      rw [hs]
      exact ⟨rfl, rfl, rfl, fun h => absurd h hh, fun _ _ => rfl⟩
  · have hx : exec (.detectedError c e) s = .next (poisonFar s c ord) := by
      change execDetectedError c e s = _
      unfold execDetectedError
      dsimp only
      rw [he]
      rfl
    have ha : coreArch (poisonFar s c ord) c = _ := congrArg Core.arch (getCore_poisonFar s c ord)
    refine ⟨_, hx, sparesOthers_modCore { s with freeCtr := s.freeCtr + 512 } c _, by rw [ha, List.length_map], by rw [ha], fun i f h hf hh => ?_⟩
    rw [ha, List.getElem?_map, hf] at hh
    cases hh
    exact ⟨fun hne => if_neg hne, parts_poisonedFar⟩
  · refine ⟨_, ?_, ended_endTask s c cUncorrectable⟩
    change execDetectedError c e s = _
    unfold execDetectedError
    dsimp only
    rw [he, if_neg (by nofun), if_neg (by simp [show (getCore s c).status = .bound from hb, show (getCore s c).rerun = none from hr]), if_pos hw]
  · obtain ⟨r, h⟩ := startRollback_claim s c e
    refine ⟨_, r, ?_, h⟩
    change execDetectedError c e s = _
    unfold execDetectedError
    dsimp only
    rw [he, if_neg (by nofun), if_neg (by simp [show (getCore s c).status = .bound from hb, show (getCore s c).rerun = none from hr]),
      if_neg (by simp [show (getCore s c).jn.windowOpen = false from hw])]
  · have hc : getCore (agreedRollback s c) c = { getCore s c with rerun := none, jn := { (getCore s c).jn with rolls := (getCore s c).jn.rolls + 1 } } :=
      getCore_modCore_same s c _
    refine ⟨_, endRerun_agreed hr hleft hstop hw hfirst herr, by rw [hc], by rw [hc], by rw [coreArch, hc], hhold, ?_,
      sparesOthers_modCore s c _⟩
    have hq : (getQuad (agreedRollback s c) (c / 4)).hold = some c := hhold
    rw [getQuad_releaseHolds, holdReleased, hq]
    simp [hc]
  · have hx := engineCompletion_event hev hb hr hu hh hsafe hstall hwait
    refine ⟨_, hx, ?_⟩
    simp only [coreArch, getCore_setCore_same]
    exact ⟨rfl, rfl, rfl, rfl, by simp [enterHandler], rfl, rfl, sparesOthers_setCore s c _⟩

end Sys2Proof.Proofs
end

section
/-! PROOF. The result of a collective (R168): a member that receives it writes it to its destination, so that the stash does not stand. -/

namespace Sys2Proof.Proofs

open Sys2Proof.Machine Sys2Proof.Claims

/-- The gang of block 5 on quad 0. -/
def summingGang : Gang :=
  { ctx := 5, world := 1, tenant := 1, launch := 0, ix := 0, record := 0, recIx := 0, path := [], quads := [0], lease := [],
    duty := 16, nextDuty := 16, elapsed := 0, st := .running, stoppedAt := 0, image := none, cause := none, saves := 0, remap := [] }

/-- Channel 1 of quad 0. -/
def summingChan : ChanId := { ctx := 5, scope := 2, inst := 0, ch := 1 }

/-- Every member's part for phase 0: the integer 1. -/
def summingPart (c : Nat) : CollPart :=
  { phase := 0, core := c, rank := c, op := 0, fn := 0, fmt := 1, root := 0, bytes := [1, 0, 0, 0], bad := false }

/-- A `callred` that has taken its source; its result goes to address 64. -/
def summingCmd : EngCmd :=
  { makeCmd State.reset .callred SVal.zero with dst := 64, len := 4, word := BitVec.ofNat 64 (2 * 2 ^ 16 + 2 ^ 19), started := true }

/-- Collectives in queue 3. -/
def summingArch (l : List EngCmd) : CoreArch := { CoreArch.reset with q := vset CoreArch.reset.q 3 { EngQueue.reset with cmds := l } }

/-- A member of the gang, its collectives in queue 3. -/
def summingCore (l : List EngCmd) : Core := { Core.reset with status := .bound, gang := some 5, arch := summingArch l }

/-- Phase 0 of the channel is released and every part is there; core 0 has still to form its result. The stash is temporary, and zero. -/
def summing : State :=
  { State.reset with
    todo := [], served := true,
    cores := [(0, summingCore [summingCmd]), (1, summingCore []), (2, summingCore []), (3, summingCore [])],
    quads := [(0, { Quad.reset 0 with temps := [{ base := 0, len := 4161536, owner := 0 }] })],
    hub := { Hub.reset with gangs := [(5, summingGang)],
                            chans := [{ emptyChan summingChan with released := 1, parts := [0, 1, 2, 3].map summingPart }] } }

theorem collOutcome_summing : collOutcome summing 0 summingCmd = some ((0, 0), some [4, 0, 0, 0]) := by decide +kernel

theorem stashIdle_summing : stashIdle summing 0 64 4 := by
  refine ⟨by decide +kernel, by decide, fun k h1 h2 => ?_⟩
  obtain rfl : k = 1 := by omega
  decide +kernel

/-- Refutes O49: `CollectiveRuns` has a completing collective write its result to its destination and asks in the same clause that the stash
stands (`sparesOthers`); four members that sum 1 receive 4 where the stash holds 0. -/
theorem not_commandEvents : ¬ Obligations.CommandEvents := by
  rintro ⟨-, -, -, -, -, ⟨-, -, hcompletes⟩, -⟩
  obtain ⟨-, hwrites⟩ := hcompletes summing 0 3 summingCmd [] (by decide +kernel) rfl rfl rfl rfl (by decide +kernel) rfl rfl rfl
  obtain ⟨t, -, -, -, -, ⟨hbytes, -⟩, -, ⟨-, hstands, -⟩, -⟩ := hwrites (0, 0) (some [4, 0, 0, 0]) collOutcome_summing
    (fun bs hbs => by obtain rfl := Option.some.inj hbs; exact stashIdle_summing) rfl
  have hread : memRead t.stash (stashKey 0 64 + 0) = 4#8 := hbytes 0 4#8 rfl
  rw [hstands] at hread
  exact absurd hread (by decide +kernel)

end Sys2Proof.Proofs
end

section
/-! PROOF. What an access of a line at its home leaves unchanged, by the hub, by the firmware or by a peer: its reads, its writes, the recalls
that they force, and the ring entries written with them (R204, R210, R282, R298, R319 to R323). -/

namespace Sys2Proof.Proofs

open Sys2Proof.Machine Sys2Proof.Claims Sys2Proof.Laws

/-- A frame without the mark that its contents have changed. -/
def stillFrame (e : Nat × Frame) : Nat × Frame := (e.1, { e.2 with changed := false })

/-- State t with the parts of s that an access of a line at its home may change. -/
def homeErased (s t : State) : State :=
  { t with dies := s.dies, chunks := s.chunks, far := s.far, lineVer := s.lineVer, bad := s.bad, frames := s.frames, clock := s.clock,
           freeCtr := s.freeCtr, hub := s.hub, edge := s.edge }

/-- Hub t with the keys of hub s. -/
def keysErased (s t : Hub) : Hub := { t with keys := s.keys }

/-- Edge t with the logs, the alerts and the pins of edge s. -/
def noticeErased (s t : Edge) : Edge := { t with logs := s.logs, alerts := s.alerts, pins := s.pins }

/-- Accesses of lines at their homes: dies, chunks, far memory, versions, failed lines and the marks of frames have changed, the uses of keys,
the log and what reports it, the clock of accesses and the counter of free values; nothing else. -/
structure HomeStep (s t : State) : Prop extends Canon s t where
  eq : homeErased s t = s
  hub : keysErased s.hub t.hub = s.hub
  edge : noticeErased s.edge t.edge = s.edge
  frames : t.frames.map stillFrame = s.frames.map stillFrame

section
variable {s t u : State}

theorem HomeStep.refl (s : State) : HomeStep s s := ⟨Canon.refl s, rfl, rfl, rfl, rfl⟩

theorem HomeStep.trans (h : HomeStep s t) (k : HomeStep t u) : HomeStep s u where
  toCanon := h.toCanon.trans k.toCanon
  eq := (congrArg (homeErased s) k.eq :).trans h.eq
  hub := (congrArg (keysErased s.hub) k.hub :).trans h.hub
  edge := (congrArg (noticeErased s.edge) k.edge :).trans h.edge
  frames := k.frames.trans h.frames

theorem HomeStep.foldl {α : Type} {f : State → α → State} (h : ∀ s x, HomeStep s (f s x)) (l : List α) (s : State) :
    HomeStep s (l.foldl f s) := by
  induction l generalizing s with
  | nil => exact HomeStep.refl s
  | cons x l ih => exact (h s x).trans (ih (f s x))

theorem HomeStep.ite {p : Prop} [Decidable p] (ht : HomeStep s t) (hu : HomeStep s u) : HomeStep s (if p then t else u) := by
  split
  · exact ht
  · exact hu

theorem HomeStep.cores (h : HomeStep s t) : t.cores = s.cores := (congrArg State.cores h.eq :)
theorem HomeStep.quads (h : HomeStep s t) : t.quads = s.quads := (congrArg State.quads h.eq :)
theorem HomeStep.stash (h : HomeStep s t) : t.stash = s.stash := (congrArg State.stash h.eq :)
theorem HomeStep.now (h : HomeStep s t) : t.now = s.now := (congrArg State.now h.eq :)
theorem HomeStep.xlat (h : HomeStep s t) : t.xlat = s.xlat := (congrArg State.xlat h.eq :)
theorem HomeStep.waiting (h : HomeStep s t) : t.waiting = s.waiting := (congrArg State.waiting h.eq :)
theorem HomeStep.blocks (h : HomeStep s t) : t.hub.blocks = s.hub.blocks := (congrArg Hub.blocks h.hub :)
theorem HomeStep.gangs (h : HomeStep s t) : t.hub.gangs = s.hub.gangs := (congrArg Hub.gangs h.hub :)
theorem HomeStep.reqs (h : HomeStep s t) : t.hub.reqs = s.hub.reqs := (congrArg Hub.reqs h.hub :)
theorem HomeStep.replies (h : HomeStep s t) : t.hub.replies = s.hub.replies := (congrArg Hub.replies h.hub :)
theorem HomeStep.sends (h : HomeStep s t) : t.hub.sends = s.hub.sends := (congrArg Hub.sends h.hub :)
theorem HomeStep.outbox (h : HomeStep s t) : t.edge.outbox = s.edge.outbox := (congrArg Edge.outbox h.edge :)

theorem HomeStep.getCore (h : HomeStep s t) (c : Nat) : getCore t c = getCore s c := by rw [Machine.getCore, Machine.getCore, h.cores]
theorem HomeStep.getQuad (h : HomeStep s t) (q : Nat) : getQuad t q = getQuad s q := by rw [Machine.getQuad, Machine.getQuad, h.quads]
theorem HomeStep.getBlock (h : HomeStep s t) (n : Nat) : getBlock t n = getBlock s n := by rw [Machine.getBlock, Machine.getBlock, h.blocks]
theorem HomeStep.getGang (h : HomeStep s t) (n : Nat) : getGang t n = getGang s n := by rw [Machine.getGang, Machine.getGang, h.gangs]

end

/-! Tokens, marks and counts. -/

/-- A change of the dies alone. -/
theorem homeStep_dies (s : State) (d : List (Nat × Die)) : HomeStep s { s with dies := d } := ⟨canon_of_eq rfl rfl rfl rfl, rfl, rfl, rfl, rfl⟩

theorem TokenStep.eq_dies {s t : State} (h : TokenStep s t) : t = { s with dies := t.dies } :=
  (congrArg (fun a : State => { a with dies := t.dies }) h.eq :)

theorem homeStep_of_eq_dies {s t : State} {d : List (Nat × Die)} (h : t = { s with dies := d }) : HomeStep s t := h ▸ homeStep_dies s d

theorem TokenStep.homeStep {s t : State} (h : TokenStep s t) : HomeStep s t := homeStep_of_eq_dies h.eq_dies

theorem homeStep_touchL2 (s : State) (pa : Nat) : HomeStep s (touchL2 s pa) := by
  unfold touchL2
  exact HomeStep.ite (homeStep_dies s _) (HomeStep.refl s)

theorem homeStep_clock (s : State) (n : Nat) : HomeStep s { s with clock := n } := ⟨canon_of_eq rfl rfl rfl rfl, rfl, rfl, rfl, rfl⟩

theorem homeStep_nextStamp (s : State) : HomeStep s (nextStamp s).2 := homeStep_clock s _

theorem homeStep_countSeals (s : State) (world lines : Nat) : HomeStep s (countSeals s world lines) := by
  unfold countSeals
  split
  · exact HomeStep.refl s
  · exact ⟨canon_of_eq rfl rfl rfl rfl, rfl, rfl, rfl, rfl⟩

theorem homeStep_countSeal (s : State) (pa : Nat) : HomeStep s (countSeal s pa) := by
  unfold countSeal
  split
  · exact homeStep_countSeals s _ _
  · exact HomeStep.refl s

theorem homeStep_markBad (s : State) (pa : Nat) : HomeStep s (markBad s pa) := by
  refine ⟨(memStep_markBad s pa).toCanon, ?_, ?_, ?_, ?_⟩ <;> unfold markBad <;> split <;> rfl

/-! Reads and writes of lines. -/

theorem homeStep_openForMerge (s : State) (g : Option Gang) (pa : Nat) (mask : BitVec 64) : HomeStep s (openForMerge s g pa mask) :=
  HomeStep.ite (homeStep_markBad s pa) (HomeStep.refl s)

theorem homeStep_lineStored (s : State) (pa : Nat) (mask : BitVec 64) (data : BitVec 512) : HomeStep s (lineStored s pa mask data) :=
  ⟨(memStep_lineStored s pa mask data).toCanon, rfl, rfl, rfl, rfl⟩

theorem homeStep_lineSealed (s : State) (g : Option Gang) (pa : Nat) : HomeStep s (lineSealed s g pa) where
  toCanon := (memStep_lineSealed s g pa).toCanon
  eq := rfl
  hub := rfl
  edge := rfl
  frames := by
    rw [lineSealed, List.map_map]
    refine List.map_congr_left fun e _ => ?_
    simp only [Function.comp_apply]
    split <;> rfl

theorem homeStep_homeWrite (s : State) (g : Option Gang) (pa : Nat) (mask : BitVec 64) (data : BitVec 512) :
    HomeStep s (homeWrite s g pa mask data) := by
  rw [homeWrite_eq]
  have hopen := homeStep_openForMerge s g pa mask
  generalize openForMerge s g pa mask = s1 at hopen
  have hstored := hopen.trans (homeStep_lineStored s1 pa mask data)
  refine HomeStep.ite hopen (HomeStep.ite ?_ hstored)
  exact ((hstored.trans (homeStep_lineSealed _ g pa)).trans (homeStep_countSeal _ pa)).trans (homeStep_touchL2 _ pa)

theorem homeStep_noteRead (s : State) (g : Option Gang) (pa : Nat) : HomeStep s (noteRead s g pa) := by
  unfold noteRead
  split
  · exact HomeStep.refl s
  · exact (HomeStep.ite (homeStep_markBad s pa) (HomeStep.refl s)).trans (homeStep_touchL2 _ pa)

/-- A change of the chunks alone. -/
theorem homeStep_chunks (s : State) (l : List (Nat × Chunk)) : HomeStep s { s with chunks := l } :=
  ⟨canon_of_eq rfl rfl rfl rfl, rfl, rfl, rfl, rfl⟩

theorem homeStep_writebackChunk (s : State) (key pa : Nat) : HomeStep s (writebackChunk s key pa) := by
  unfold writebackChunk
  split
  · exact homeStep_dies s _
  · dsimp only
    refine HomeStep.trans ?_ (homeStep_chunks _ _)
    refine HomeStep.trans ?_ (homeStep_dies _ _)
    refine (homeStep_nextStamp s).trans ?_
    split
    · exact homeStep_homeWrite _ _ _ _ _
    · exact HomeStep.refl _

theorem homeStep_recallLine (s : State) (pa : Nat) : HomeStep s (recallLine s pa) := by
  unfold recallLine
  split
  · exact homeStep_writebackChunk s _ pa
  · exact HomeStep.refl s

theorem homeStep_writeLine (s : State) (g : Option Gang) (pa : Nat) (mask : BitVec 64) (data : BitVec 512) :
    HomeStep s (writeLine s g pa mask data) := (homeStep_recallLine s pa).trans (homeStep_homeWrite _ g pa mask data)

theorem homeStep_recallFrames (s : State) (frames : List Nat) : HomeStep s (recallFrames s frames) :=
  HomeStep.foldl (f := fun (s : State) (e : Nat × Loc) => writebackChunk s e.1 e.2.pa) (fun s e => homeStep_writebackChunk s e.1 e.2.pa) _ s

/-! The hub's accesses. -/

theorem homeStep_hubLine (s : State) (l : Loc) : HomeStep s (hubLine s l).2 := by
  unfold hubLine
  dsimp only
  split
  · exact (homeStep_noteRead s none l.pa).trans ⟨canon_of_eq rfl rfl rfl rfl, rfl, rfl, rfl, rfl⟩
  · exact homeStep_noteRead s none l.pa

theorem homeStep_hubPieces (ctx : Nat) (ps : List (Nat × Nat × Nat)) (s : State) : HomeStep s (hubPieces ctx ps s).2 := by
  induction ps generalizing s with
  | nil => exact HomeStep.refl s
  | cons p ps ih =>
    unfold hubPieces
    dsimp only
    split
    · exact (homeStep_hubLine s _).trans (ih _)
    · exact ih s

theorem homeStep_hubFetch (s : State) (ctx va n : Nat) : HomeStep s (hubFetch s ctx va n).2 := homeStep_hubPieces ctx _ s

theorem homeStep_hubRecalls (s : State) (ctx va n : Nat) : HomeStep s (hubRecalls s ctx va n).2 := (tokenStep_takeRecalls _ s).homeStep

theorem homeStep_hubWritePieces (ctx : Nat) (ps : List (Nat × Nat × Nat)) (bs : List Byte) (s : State) :
    HomeStep s (hubWritePieces ctx ps bs s) := by
  induction ps generalizing bs s with
  | nil => exact HomeStep.refl s
  | cons p ps ih =>
    unfold hubWritePieces
    dsimp only
    split
    · exact ((homeStep_nextStamp s).trans (homeStep_writeLine _ _ _ _ _)).trans (ih _ _)
    · exact ih _ s

theorem homeStep_hubWrite (s : State) (ctx va : Nat) (bs : List Byte) : HomeStep s (hubWrite s ctx va bs) :=
  homeStep_hubWritePieces ctx _ bs s

theorem homeStep_makeReply (s : State) (r : Request) (status code rank : Nat) (path : List Nat) :
    HomeStep s (makeReply s r status code rank path).2 := by
  unfold makeReply
  dsimp only
  split
  · exact HomeStep.refl s
  · split
    · exact HomeStep.refl s
    · split
      · exact homeStep_hubFetch s _ _ _
      · exact (homeStep_hubFetch s _ _ _).trans (homeStep_hubFetch _ _ _ _)

/-! Ring entries written. -/

/-- A request whose ring entry has been written, or has still to be. -/
def SameRequest (a b : Request) : Prop := b = { a with entry := b.entry }

end Sys2Proof.Proofs
end

section
/-! PROOF. What the work on the windows and the stash of a quad leaves unchanged: writebacks, removals, the drain of a world and the near
image of a launch (R204, R241, R284, R286, R317, R344). -/

namespace Sys2Proof.Proofs

open Sys2Proof.Machine Sys2Proof.Claims Sys2Proof.Laws

/-- Hub t with the parts of hub s that a writeback may change: keys, transfers and the numbers of frames to peers. -/
def xfersErased (s t : Hub) : Hub :=
  { t with keys := s.keys, xfers := s.xfers, nextXfer := s.nextXfer, peers := s.peers, peerDir := s.peerDir }

/-- Work on windows, stashes, quads and cores: of the hub the keys and the transfers have changed, and the marks of frames; translations and
the time stand, and so do the canonical forms. -/
structure WindowStep (s t : State) : Prop extends Canon s t where
  hub : xfersErased s.hub t.hub = s.hub
  frames : t.frames.map stillFrame = s.frames.map stillFrame
  now : t.now = s.now
  xlat : t.xlat = s.xlat

section
variable {s t u : State}

theorem WindowStep.refl (s : State) : WindowStep s s := ⟨Canon.refl s, rfl, rfl, rfl, rfl⟩

theorem WindowStep.trans (h : WindowStep s t) (k : WindowStep t u) : WindowStep s u where
  toCanon := h.toCanon.trans k.toCanon
  hub := (congrArg (xfersErased s.hub) k.hub :).trans h.hub
  frames := k.frames.trans h.frames
  now := k.now.trans h.now
  xlat := k.xlat.trans h.xlat

theorem WindowStep.foldl {α : Type} {f : State → α → State} (h : ∀ s x, WindowStep s (f s x)) (l : List α) (s : State) :
    WindowStep s (l.foldl f s) := by
  induction l generalizing s with
  | nil => exact WindowStep.refl s
  | cons x l ih => exact (h s x).trans (ih (f s x))

theorem WindowStep.ite {p : Prop} [Decidable p] (ht : WindowStep s t) (hu : WindowStep s u) : WindowStep s (if p then t else u) := by
  split
  · exact ht
  · exact hu

theorem WindowStep.gangs (h : WindowStep s t) : t.hub.gangs = s.hub.gangs := (congrArg Hub.gangs h.hub :)
theorem WindowStep.blocks (h : WindowStep s t) : t.hub.blocks = s.hub.blocks := (congrArg Hub.blocks h.hub :)
theorem WindowStep.reqs (h : WindowStep s t) : t.hub.reqs = s.hub.reqs := (congrArg Hub.reqs h.hub :)
theorem WindowStep.replies (h : WindowStep s t) : t.hub.replies = s.hub.replies := (congrArg Hub.replies h.hub :)
theorem WindowStep.bind (h : WindowStep s t) : t.hub.bind = s.hub.bind := (congrArg Hub.bind h.hub :)
theorem WindowStep.staged (h : WindowStep s t) : t.hub.staged = s.hub.staged := (congrArg Hub.staged h.hub :)
theorem WindowStep.getBlock (h : WindowStep s t) (n : Nat) : getBlock t n = getBlock s n := by rw [Machine.getBlock, Machine.getBlock, h.blocks]
theorem WindowStep.getGang (h : WindowStep s t) (n : Nat) : getGang t n = getGang s n := by rw [Machine.getGang, Machine.getGang, h.gangs]

theorem HomeStep.windowStep (h : HomeStep s t) : WindowStep s t where
  toCanon := h.toCanon
  hub := (congrArg (xfersErased s.hub) h.hub :)
  frames := h.frames
  now := h.now
  xlat := h.xlat

theorem TokenStep.windowStep (h : TokenStep s t) : WindowStep s t := h.homeStep.windowStep

end

/-! Cores, quads, chunks and stash bytes. -/

theorem windowStep_setCore (s : State) (c : Nat) (x : Core) : WindowStep s (setCore s c x) := ⟨canon_of_eq rfl rfl rfl rfl, rfl, rfl, rfl, rfl⟩

theorem windowStep_modCore (s : State) (c : Nat) (f : Core → Core) : WindowStep s (modCore s c f) := windowStep_setCore s c _

theorem windowStep_modQuad (s : State) (q : Nat) (f : Quad → Quad) : WindowStep s (modQuad s q f) :=
  ⟨canon_of_eq rfl rfl rfl rfl, rfl, rfl, rfl, rfl⟩

theorem windowStep_chunks (s : State) (l : List (Nat × Chunk)) : WindowStep s { s with chunks := l } :=
  (homeStep_chunks s l).windowStep

theorem windowStep_edge (s : State) (e : Edge) : WindowStep s { s with edge := e } := ⟨canon_of_eq rfl rfl rfl rfl, rfl, rfl, rfl, rfl⟩

theorem windowStep_stashWrite (s : State) (q a : Nat) (bs : List Byte) : WindowStep s (stashWrite s q a bs) :=
  ⟨(memStep_stashWrite s q a bs).toCanon, rfl, rfl, rfl, rfl⟩

theorem windowStep_stashPoison (s : State) (q a n : Nat) : WindowStep s (stashPoison s q a n) :=
  ⟨canon_of_eq rfl rfl rfl rfl, rfl, rfl, rfl, rfl⟩

theorem windowStep_stashKeep (s : State) (q : Nat) (keep : Nat → Bool) : WindowStep s (stashKeep s q keep) :=
  ⟨canon_of_stash (fun h => memWf_filter h _) rfl rfl rfl, rfl, rfl, rfl, rfl⟩

theorem windowStep_chargeTokens (s : State) (core n : Nat) : WindowStep s (chargeTokens s core n) :=
  WindowStep.ite ⟨canon_of_eq rfl rfl rfl rfl, rfl, rfl, rfl, rfl⟩ (WindowStep.refl s)

/-! Frames to peers and transfers. -/

theorem windowStep_sendFrame (s : State) (port cls ctx session rid seq status modid : Nat) (body : List Byte) (way : Way) :
    WindowStep s (sendFrame s port cls ctx session rid seq status modid body way) := windowStep_edge s _

theorem windowStep_setPeer (s : State) (m : Nat) (x : SeqState) : WindowStep s (setPeer s m x) :=
  ⟨canon_of_eq rfl rfl rfl rfl, rfl, rfl, rfl, rfl⟩

theorem windowStep_sendPod (s : State) (cls dest rid : Nat) (body : List Byte) : WindowStep s (sendPod s cls dest rid body) := by
  unfold sendPod
  split
  · exact windowStep_edge s _
  · split
    · exact windowStep_edge s _
    · split
      · exact (windowStep_setPeer s _ _).trans (windowStep_sendFrame _ _ _ _ _ _ _ _ _ _ _)
      · exact windowStep_edge s _

/-- Transfers entered, with their numbers, at a time of the clock. -/
theorem windowStep_xfers (s : State) (l : List PodXfer) (n c : Nat) :
    WindowStep s { s with hub := { s.hub with xfers := l, nextXfer := n }, clock := c } :=
  ⟨canon_of_eq rfl rfl rfl rfl, rfl, rfl, rfl, rfl⟩

theorem windowStep_startXfer (s : State) (core ident kind cls fn : Nat) (l : Loc) (mask : BitVec 64) (data : List Byte) :
    WindowStep s (startXfer s core ident kind cls fn l mask data).2 := by
  unfold startXfer
  exact (windowStep_xfers s _ _ _).trans (windowStep_sendPod _ _ _ _ _)

theorem windowStep_unregisterPeer (s : State) (key : Nat) : WindowStep s (unregisterPeer s key) :=
  ⟨canon_of_eq rfl rfl rfl rfl, rfl, rfl, rfl, rfl⟩

theorem windowStep_putChunk (s : State) (key : Nat) (c : Chunk) : WindowStep s (putChunk s key c) := windowStep_chunks s _

/-! Windows. -/

theorem windowStep_flushChunk (s : State) (core key : Nat) (l : Loc) : WindowStep s (flushChunk s core key l) := by
  unfold flushChunk
  split
  · exact (homeStep_writebackChunk s key l.pa).windowStep
  · split
    · dsimp only
      refine WindowStep.ite (WindowStep.trans ?_ (windowStep_putChunk _ _ _)) (WindowStep.refl s)
      refine WindowStep.trans ?_ (windowStep_unregisterPeer _ _)
      refine (homeStep_nextStamp s).windowStep.trans ?_
      exact WindowStep.ite (WindowStep.refl _) (windowStep_startXfer _ _ _ _ _ _ _ _ _)
    · exact WindowStep.refl s

theorem windowStep_flushWindow (s : State) (core q : Nat) (w : Window) : WindowStep s (flushWindow s core q w) := by
  unfold flushWindow
  refine WindowStep.foldl (fun s key => ?_) _ s
  split
  · refine WindowStep.ite ?_ (WindowStep.refl s)
    split
    · exact windowStep_flushChunk s core key _
    · exact WindowStep.refl s
  · exact WindowStep.refl s

theorem windowStep_dropChunk (s : State) (key : Nat) : WindowStep s (dropChunk s key) := windowStep_chunks s _

theorem windowStep_dropWindow (s : State) (core q n : Nat) : WindowStep s (dropWindow s core q n) := by
  unfold dropWindow
  split
  · exact WindowStep.refl s
  · refine WindowStep.trans ?_ (windowStep_modQuad _ _ _)
    exact (windowStep_flushWindow s core q _).trans (WindowStep.foldl windowStep_dropChunk _ _)

theorem windowStep_invalidateWindow (s : State) (q : Nat) (w : Window) : WindowStep s (invalidateWindow s q w) := by
  unfold invalidateWindow
  refine WindowStep.foldl (fun s key => ?_) _ s
  split
  · exact WindowStep.ite (WindowStep.refl s) (windowStep_dropChunk s key)
  · exact WindowStep.refl s

theorem windowStep_installWindows (s : State) (ctx q : Nat) (r : BitVec 8192) : WindowStep s (installWindows s ctx q r) := by
  unfold installWindows
  dsimp only
  refine WindowStep.trans (WindowStep.foldl (f := fun (s : State) (e : Nat × Window) => dropWindow s (4 * q) q e.1)
    (fun s e => windowStep_dropWindow s _ q e.1) _ s) (WindowStep.foldl (fun s e => ?_) _ _)
  split
  · exact WindowStep.ite ((windowStep_invalidateWindow s q _).trans (windowStep_modQuad _ q _)) (WindowStep.refl s)
  · exact windowStep_modQuad s q _

theorem windowStep_dropWindows (s : State) (q : Nat) (pick : Window → Bool) : WindowStep s (dropWindows s q pick) :=
  WindowStep.foldl (f := fun (s : State) (e : Nat × Window) => dropWindow (chargeTokens s (4 * q) (dirtyChunks s q e.2).length) (4 * q) q e.1)
    (fun s e => (windowStep_chargeTokens s _ _).trans (windowStep_dropWindow _ _ q e.1)) _ s

/-! A quad that a world leaves, and one that a launch enters. -/

theorem windowStep_leaveWorld (s : State) (q : Nat) : WindowStep s (leaveWorld s q) := by
  unfold leaveWorld
  refine WindowStep.trans ?_ (windowStep_modQuad _ q _)
  refine WindowStep.trans ?_ (WindowStep.foldl (fun s c => windowStep_modCore s c _) _ _)
  refine WindowStep.trans ?_ (windowStep_chunks _ _)
  exact (windowStep_dropWindows s q _).trans (windowStep_stashKeep _ q _)

theorem windowStep_gateQuad (s : State) (q : Nat) : WindowStep s (gateQuad s q) :=
  (windowStep_leaveWorld s q).trans (windowStep_modQuad _ q _)

theorem windowStep_drainQuad (s : State) (q : Nat) : WindowStep s (drainQuad s q) := by
  unfold drainQuad
  refine WindowStep.trans ?_ (windowStep_modQuad _ q _)
  exact (WindowStep.foldl (fun s c => windowStep_modCore s c drainedCore) _ s).trans (windowStep_stashKeep _ q _)

theorem windowStep_loadNear (q : Nat) (ts : List Temp) (bs : List (Byte × Bool)) (s : State) : WindowStep s (loadNear q ts bs s) := by
  induction ts generalizing bs s with
  | nil => exact WindowStep.refl s
  | cons t ts ih =>
    unfold loadNear
    refine WindowStep.trans ?_ (ih _ _)
    refine WindowStep.trans ?_ (WindowStep.foldl (f := fun (s : State) (e : (Byte × Bool) × Nat) => stashPoison s q (t.base + e.2) 1)
      (fun s e => windowStep_stashPoison s q _ 1) _ _)
    exact windowStep_stashWrite s q t.base _

theorem windowStep_enterQuad (s : State) (ctx ri world : Nat) (rc : BitVec 8192) (q : Nat) : WindowStep s (enterQuad s ctx ri world rc q) := by
  unfold enterQuad
  refine WindowStep.trans ?_ (windowStep_loadNear q _ _ _)
  refine WindowStep.trans ?_ (windowStep_modQuad _ q _)
  exact (windowStep_installWindows s ctx q rc).trans (windowStep_stashKeep _ q _)

theorem windowStep_changeWorld (s : State) (world : Nat) (quads : List Nat) : WindowStep s (changeWorld s world quads) := by
  unfold changeWorld
  refine WindowStep.foldl (fun s q => ?_) _ s
  split
  · exact WindowStep.ite (WindowStep.refl s) (windowStep_leaveWorld s q)
  · exact WindowStep.refl s

theorem windowStep_openQuads (s : State) (ctx i : Nat) (rc : BitVec 8192) (quads : List Nat) : WindowStep s (openQuads s ctx i rc quads) := by
  unfold openQuads
  refine WindowStep.ite (WindowStep.refl s) (WindowStep.foldl (fun s q => ?_) _ s)
  exact (windowStep_modQuad s q _).trans (WindowStep.foldl (fun s c => windowStep_modCore s c _) _ _)

theorem windowStep_openSchedule (s : State) (ctx : Nat) (b : Binding) (rc : BitVec 8192) (quads : List Nat) :
    WindowStep s (openSchedule s ctx b rc quads) :=
  (windowStep_openQuads s ctx b.recIx rc quads).trans (WindowStep.foldl (fun s q => windowStep_modQuad s q _) _ _)

end Sys2Proof.Proofs
end

section
/-! PROOF. Placement and the steps of a launch (R286, R288, R289, R357). -/

namespace Sys2Proof.Proofs

open Sys2Proof.Machine Sys2Proof.Claims Sys2Proof.Laws

/-! Fields of a block's registers. -/

theorem blkField_blkSet_same (b : BitVec 2048) {off len : Nat} (v : Nat) (h : 8 * off + 8 * len ≤ 2048) :
    blkField (blkSet b off len v) off len = v % 2 ^ (8 * len) := by
  refine Nat.eq_of_testBit_eq fun i => ?_
  rw [blkField, natField, Nat.testBit_mod_two_pow, Nat.testBit_mod_two_pow, Nat.testBit_shiftRight, BitVec.testBit_toNat, blkSet,
    BitVec.getLsbD_or, BitVec.getLsbD_and, BitVec.getLsbD_not, BitVec.getLsbD_ofNat, BitVec.getLsbD_ofNat, Nat.testBit_mul_two_pow,
    Nat.testBit_mul_two_pow, Nat.testBit_two_pow_sub_one, Nat.testBit_mod_two_pow, Nat.add_sub_cancel_left]
  by_cases hi : i < 8 * len
  · have hlt : 8 * off + i < 2048 := by omega
    simp [hi, hlt]
  · simp [hi]

theorem blkField_lt (b : BitVec 2048) (off len : Nat) : blkField b off len < 2 ^ (8 * len) := Nat.mod_lt _ (Nat.two_pow_pos _)

theorem blkState_setBlkState (b : BitVec 2048) {v : Nat} (h : v < 16) : blkState (setBlkState b v) = v := by
  have hlt := blkField_lt b 0 4
  rw [blkState, setBlkState, blkField_blkSet_same b _ (by omega)]
  omega

/-- A block whose registers are not all 0 is found as it was set. -/
theorem getBlock_setBlock_same (s : State) (ctx : Nat) {b : BitVec 2048} (h : b ≠ 0) : getBlock (setBlock s ctx b) ctx = b := by
  rw [getBlock, setBlock, alSet, if_neg h, alGet_alPut_same]

theorem blkState_setState (s : State) (ctx : Nat) {v : Nat} (h : v < 16) (hv : v ≠ 0) : blkState (getBlock (setState s ctx v) ctx) = v := by
  have hb : setBlkState (getBlock s ctx) v ≠ 0 := by
    intro h0
    have hz := blkState_setBlkState (getBlock s ctx) h
    rw [h0, blkState_zero] at hz
    exact hv hz.symm
  rw [setState, getBlock_setBlock_same s ctx hb, blkState_setBlkState _ h]

/-! Bindings. -/

theorem getBind_setBind_same (s : State) (ctx : Nat) (b : Binding) : getBind (setBind s ctx b) ctx = some b := by
  simp only [getBind, setBind, find?_alPut_same, Option.map_some]

theorem stageAt_setBind (s : State) (ctx : Nat) (b : Binding) : stageAt (setBind s ctx b) ctx b.stage := ⟨b, getBind_setBind_same s ctx b, rfl⟩

/-! Placement. -/

/-- The state whose next placement begins so many periods from now. -/
def placedIn (t : Nat) (s : State) : State := { s with hub := { s.hub with placeAt := s.now + t } }

theorem stageAt_bindTo (s : State) (w : Want) (b : Binding) (c : Cand) (t : Nat) : ∃ up, stageAt (bindTo s w b c t) w.ctx
    (.broadcast c.quads (s.now + t) c.victims (if c.kind = 2 then 9024 else 0) up) :=
  ⟨if c.kind = 0 then startW s c.quads else 0, stageAt_setBind _ _ _⟩

theorem now_enterBuffer (s : State) (world n : Nat) : (enterBuffer s world n).now = s.now := by
  unfold enterBuffer
  split <;> rfl

theorem now_enterBuffers (world : Nat) (l : List Nat) (s : State) : (l.foldl (fun s b => enterBuffer s world b) s).now = s.now := by
  induction l generalizing s with
  | nil => rfl
  | cons n l ih => exact (ih _).trans (now_enterBuffer s world n)

theorem now_bindTo (s : State) (w : Want) (b : Binding) (c : Cand) (t : Nat) : (bindTo s w b c t).now = s.now := now_enterBuffers w.world _ s

/-- A placement through its hint. -/
theorem placeRequest_hint {s : State} {w : Want} {b : Binding} {q : List Nat} (h : hintQuads s w (blkHint (getBlock s w.ctx)) = some q) :
    placeRequest s w b = placedIn 20 (bindTo s w b { start := 0, kind := 0, busy := 0, quads := q, victims := [] } 68) := by
  rw [placeRequest, h]
  rfl

theorem placeRequest_bound {s : State} {w : Want} {b : Binding} {c : Cand} (h : hintQuads s w (blkHint (getBlock s w.ctx)) = none)
    (hc : bestCand (candidates s w 112) = some c) (hk : c.kind ≠ 1) :
    placeRequest s w b = placedIn 64 (bindTo s w b c 112) := by
  rw [placeRequest, h]
  dsimp only
  rw [hc]
  dsimp only
  rw [if_neg hk]
  rfl

theorem placeRequest_deferred {s : State} {w : Want} {b : Binding} (h : hintQuads s w (blkHint (getBlock s w.ctx)) = none)
    (hc : bestCand (candidates s w 112) = none ∨ ∃ c, bestCand (candidates s w 112) = some c ∧ c.kind = 1) :
    placeRequest s w b = placedIn 64 (setBind s w.ctx { b with stage := .deferred }) := by
  rw [placeRequest, h]
  dsimp only
  rcases hc with hc | ⟨c, hc, hk⟩
  · rw [hc]
    rfl
  · rw [hc]
    dsimp only
    rw [if_pos hk]
    rfl

section
variable {s : State} {ctx : Nat} {b : Binding} (hnext : nextToPlace s = some (ctx, b)) (htime : s.hub.placeAt ≤ s.now)
include hnext htime

/-- The placement of a stopped gang (R289). -/
theorem exec_placement_resume {g : Gang} (hr : b.resume = true) (hg : getGang s ctx = some g) : exec (.placement ctx) s =
    .next (placedIn 64 (setBind s ctx { b with stage := if resumable s g then .reserved g.quads else .deferred, visible := s.now + 64 })) := by
  have hno : ¬ (ctx ≠ ctx ∨ s.now < s.hub.placeAt) := by omega
  show execPlacement ctx s = _
  rw [execPlacement, hnext]
  dsimp only
  rw [if_neg hno, if_pos hr, hg]
  rfl

/-- The placement of a request (R286, R288). -/
theorem exec_placement_request {rc : BitVec 8192} (hr : b.resume = false) (hrc : routeRec s ctx b.recIx = some rc)
    (hfree : buffersFree s (wantOf ctx (getBlock s ctx) b.recIx rc).world rc = true) (hn : (wantOf ctx (getBlock s ctx) b.recIx rc).n ≠ 0) :
    exec (.placement ctx) s = .next (placeRequest s (wantOf ctx (getBlock s ctx) b.recIx rc) b) := by
  have hno : ¬ (ctx ≠ ctx ∨ s.now < s.hub.placeAt) := by omega
  have hnr : ¬ b.resume = true := by rw [hr]; decide
  show execPlacement ctx s = _
  rw [execPlacement, hnext]
  dsimp only
  rw [if_neg hno, if_neg hnr, hrc]
  dsimp only
  rw [if_neg hn, hfree]
  rfl

end

/-! Launches withdrawn and steps that begin. -/

/-- A launch whose quads are withdrawn (R14). -/
theorem exec_launchStart_gone {s : State} {r : LoadCheck} {b : Binding} (hb : getBind s r.ctx = some b) (hgone : quadsGone s b = true) :
    exec (.launchStart r) s = .next (placeAgain s r.ctx b) := by
  show execLaunchStart r s = _
  rw [execLaunchStart]
  rw [hb]
  dsimp only
  rw [if_pos hgone]

theorem placeAgain_claim (s : State) (ctx : Nat) (b : Binding) :
    (∃ d, getBind (placeAgain s ctx b) ctx = some d ∧ d.stage = .waiting ∧ d.ix = b.ix ∧ d.recIx = b.recIx) ∧
      blkState (getBlock (placeAgain s ctx b) ctx) = stReady ∧ (placeAgain s ctx b).cores = s.cores :=
  ⟨⟨_, getBind_setBind_same _ ctx _, rfl, rfl, rfl⟩, blkState_setState (forgetLaunch s b.launch) ctx (by decide) (by decide), rfl⟩

section
variable {s : State} {ctx : Nat} {b : Binding} {rc : BitVec 8192} (hb : getBind s ctx = some b) (hrc : routeRec s ctx b.recIx = some rc)
  (hgone : quadsGone s b = false)
include hb hrc hgone

theorem exec_launchStart_broadcast {quads : List Nat} {end_ wake up : Nat} (hst : b.stage = .broadcast quads end_ [] wake up)
    (ht : end_ ≤ s.now) (ok : Bool) :
    exec (.launchStart { ctx := ctx, intact := ok }) s = .next (beginAt s ctx b rc quads (s.now + wake) up) := by
  show execLaunchStart _ s = _
  rw [execLaunchStart]
  simp only [hb, hgone, hst, hrc, Nat.not_lt.mpr ht, Bool.false_eq_true, if_false, List.isEmpty_nil, if_true]

theorem exec_launchStart_waking {quads : List Nat} {end_ up : Nat} (hst : b.stage = .waking quads end_ up) (ht : end_ ≤ s.now) (ok : Bool) :
    exec (.launchStart { ctx := ctx, intact := ok }) s = .next (beginCold s ctx b rc quads up) := by
  show execLaunchStart _ s = _
  rw [execLaunchStart]
  simp only [hb, hgone, hst, hrc, Nat.not_lt.mpr ht, Bool.false_eq_true, if_false]

theorem exec_launchStart_victims {quads : List Nat} {end_ v : Nat} {vs : List Nat} {wake up : Nat}
    (hst : b.stage = .broadcast quads end_ (v :: vs) wake up) (ht : end_ ≤ s.now) (ok : Bool) :
    exec (.launchStart { ctx := ctx, intact := ok }) s =
      .next (setBind (markVictims s (v :: vs)) ctx { b with stage := .stopping quads (v :: vs) }) := by
  show execLaunchStart _ s = _
  rw [execLaunchStart]
  simp only [hb, hgone, hst, hrc, Nat.not_lt.mpr ht, Bool.false_eq_true, if_false, List.isEmpty_cons]

theorem exec_launchStart_stopping {quads vs : List Nat} (hst : b.stage = .stopping quads vs) (hsaved : victimsSaved s vs = true)
    (hidle : ∀ q ∈ quads, (getQuad s q).busy = none) (ok : Bool) :
    exec (.launchStart { ctx := ctx, intact := ok }) s = .next (beginAt s ctx b rc quads (saveEnd s vs) 0) := by
  have hall : quads.all (fun q => (getQuad s q).busy.isNone) = true :=
    List.all_eq_true.mpr fun q hq => Option.isNone_iff_eq_none.mpr (hidle q hq)
  show execLaunchStart _ s = _
  rw [execLaunchStart]
  simp only [hb, hgone, hst, hrc, hsaved, hall, Bool.false_eq_true, if_false, and_self, if_true]

theorem exec_launchStart_unsealing {quads : List Nat} {end_ up : Nat} (hst : b.stage = .unsealing quads end_ up) (ht : end_ ≤ s.now)
    (hright : measuredRight s ctx b.recIx = true ∨ quads.all (quadWarm s (blkWorld (getBlock s ctx)) ctx b.recIx rc) = true) :
    exec (.launchStart { ctx := ctx, intact := true }) s = .next (beginImage (openSchedule s ctx b rc quads) ctx b rc quads up) := by
  have hno : ¬ (!(true && measuredRight s ctx b.recIx) && !quads.all (quadWarm s (blkWorld (getBlock s ctx)) ctx b.recIx rc)) = true := by
    rcases hright with h | h <;> rw [h] <;> simp
  show execLaunchStart _ s = _
  rw [execLaunchStart]
  dsimp only
  rw [hb]
  dsimp only
  rw [hgone, if_neg Bool.false_ne_true, hst]
  dsimp only
  rw [hrc]
  dsimp only
  rw [if_neg (Nat.not_lt.mpr ht), if_neg hno]

theorem exec_launchStart_unmeasured {quads : List Nat} {end_ up : Nat} {ok : Bool} (hst : b.stage = .unsealing quads end_ up)
    (ht : end_ ≤ s.now) (hwrong : ok = false ∨ measuredRight s ctx b.recIx = false)
    (hcold : quads.all (quadWarm s (blkWorld (getBlock s ctx)) ctx b.recIx rc) = false) :
    exec (.launchStart { ctx := ctx, intact := ok }) s = .next (failLaunch s ctx b quads) := by
  have hyes : (!(ok && measuredRight s ctx b.recIx) && !quads.all (quadWarm s (blkWorld (getBlock s ctx)) ctx b.recIx rc)) = true := by
    rcases hwrong with h | h <;> rw [h, hcold] <;> simp
  show execLaunchStart _ s = _
  rw [execLaunchStart]
  dsimp only
  rw [hb]
  dsimp only
  rw [hgone, if_neg Bool.false_ne_true, hst]
  dsimp only
  rw [hrc]
  dsimp only
  rw [if_neg (Nat.not_lt.mpr ht), if_pos hyes]

theorem exec_launchStart_imaging {quads : List Nat} {end_ up : Nat} (hst : b.stage = .imaging quads end_ up) (ht : end_ ≤ s.now) (ok : Bool) :
    exec (.launchStart { ctx := ctx, intact := ok }) s = .next (beginStart (endImage s ctx b rc) ctx b rc quads up) := by
  show execLaunchStart _ s = _
  rw [execLaunchStart]
  simp only [hb, hgone, hst, hrc, Nat.not_lt.mpr ht, Bool.false_eq_true, if_false]

theorem exec_launchStart_starting {quads : List Nat} {end_ : Nat} (hst : b.stage = .starting quads end_) (ht : end_ ≤ s.now)
    (hready : entryReady s ctx b rc quads = true) (ok : Bool) :
    exec (.launchStart { ctx := ctx, intact := ok }) s = .next (enterGang s ctx b rc quads) := by
  show execLaunchStart _ s = _
  rw [execLaunchStart]
  simp only [hb, hgone, hst, hrc, ht, hready, Bool.false_eq_true, if_false, and_self, if_true]

end

/-! The image and the start step. -/

theorem WindowStep.coldImage {s t : State} (h : WindowStep s t) (ctx i : Nat) (rc : BitVec 8192) :
    coldImage t ctx i rc = coldImage s ctx i rc := by
  have hfor : stagedFor t ctx i = stagedFor s ctx i := by
    funext x
    rw [stagedFor, stagedFor, h.getBlock]
  rw [Machine.coldImage, Machine.coldImage, imageStaged, imageStaged, hfor, h.staged]

theorem stageAt_beginStart (s : State) (ctx : Nat) (b : Binding) (rc : BitVec 8192) (quads : List Nat) (up : Nat) :
    ∃ x, s.now + ceilDiv (recNearLen rc) 512 + 12 ≤ x ∧ stageAt (beginStart s ctx b rc quads up) ctx (.starting quads x) := by
  refine ⟨_, ?_, stageAt_setBind _ ctx _⟩
  have hle := Nat.le_max_left (up + ceilDiv (recNearLen rc) 512 + 12) (invalidationTime s ctx quads rc)
  show s.now + _ + 12 ≤ s.now + max _ _
  omega

/-- The schedule is there, and the near image is staged. -/
theorem stageAt_beginImage_staged (s : State) {ctx : Nat} {b : Binding} {rc : BitVec 8192} (quads : List Nat) (up : Nat)
    (h : coldImage s ctx b.recIx rc = 0) : ∃ x, s.now + ceilDiv (recNearLen rc) 512 + 12 ≤ x ∧
      stageAt (beginImage s ctx b rc quads up) ctx (.starting quads x) := by
  rw [beginImage, if_pos h]
  exact stageAt_beginStart s ctx b rc quads up

theorem stageAt_beginImage_read (s : State) {ctx : Nat} {b : Binding} {rc : BitVec 8192} (quads : List Nat) (up : Nat)
    (h : coldImage s ctx b.recIx rc ≠ 0) : stageAt (beginImage s ctx b rc quads up) ctx (.imaging quads (s.now + coldImage s ctx b.recIx rc) up) := by
  rw [beginImage, if_neg h]
  exact stageAt_setBind _ ctx _

theorem homeStep_imagePieces (ctx : Nat) (ps : List (Nat × Nat × Nat)) (s : State) : HomeStep s (imagePieces ctx ps s).2 := by
  induction ps generalizing s with
  | nil => exact HomeStep.refl s
  | cons p ps ih =>
    unfold imagePieces
    dsimp only
    split
    · exact (homeStep_hubFetch s _ _ _).trans (ih _)
    · exact ih s

theorem homeStep_imageCells (s : State) (ctx i : Nat) : HomeStep s (imageCells s ctx i).2 := by
  unfold imageCells
  split
  · exact HomeStep.refl s
  · split
    · exact homeStep_imagePieces ctx _ s
    · exact HomeStep.refl s

theorem now_endImage (s : State) (ctx : Nat) (b : Binding) (rc : BitVec 8192) : (endImage s ctx b rc).now = s.now := by
  unfold endImage
  split
  · rfl
  · exact (homeStep_imageCells s ctx b.recIx).now

/-! The end of a request. -/

/-- An error reply reads nothing: an error record with its code. -/
theorem makeReply_error (s : State) (r : Request) (code rank : Nat) (path : List Nat) :
    ∃ d, makeReply s r 2 code rank path = (d, s) ∧ d.req = r ∧ d.status = 2 ∧ d.body.take 1 = leBytes code 1 :=
  ⟨_, rfl, rfl, rfl, rfl⟩

theorem nextRequest_frame (s : State) (ctx : Nat) : (nextRequest s ctx).cores = s.cores ∧ (nextRequest s ctx).hub.gangs = s.hub.gangs ∧
    (nextRequest s ctx).hub.reqs = s.hub.reqs ∧ (nextRequest s ctx).hub.replies = s.hub.replies := by
  unfold nextRequest
  dsimp only
  split
  · exact ⟨rfl, rfl, rfl, rfl⟩
  · split <;> exact ⟨rfl, rfl, rfl, rfl⟩

/-- A block whose request ends, its AGED bit cleared. -/
def unaged (s : State) (ctx : Nat) : State := setBlock s ctx (setBlkAged (getBlock s ctx) false)

/-- A request taken from the ring with its reply due. -/
def replied (s : State) (r : Request) (d : ReplyDue) : State :=
  { s with hub := { s.hub with reqs := s.hub.reqs.erase r, replies := s.hub.replies ++ [d] } }

theorem endRequest_eq {s : State} {ctx ix : Nat} {r : Request} (h : reqOf s ctx ix = some r) (status code rank : Nat) (path : List Nat) :
    endRequest s ctx ix status code rank path = nextRequest
      (if (makeReply (unaged s ctx) r status code rank path).1.status = 2 then
        bumpBlk (replied (makeReply (unaged s ctx) r status code rank path).2 r (makeReply (unaged s ctx) r status code rank path).1) ctx 0x58 4
      else replied (makeReply (unaged s ctx) r status code rank path).2 r (makeReply (unaged s ctx) r status code rank path).1) ctx := by
  have h1 : reqOf (unaged s ctx) ctx ix = some r := h
  rw [endRequest]
  show nextRequest (match reqOf (unaged s ctx) ctx ix with | some r => _ | none => _) ctx = _
  rw [h1]
  rfl

/-- A request that ends leaves its ring with a reply due. -/
theorem endRequest_claim {s : State} {ctx ix : Nat} {r : Request} (h : reqOf s ctx ix = some r) (status code rank : Nat) (path : List Nat) :
    (endRequest s ctx ix status code rank path).cores = s.cores ∧ (endRequest s ctx ix status code rank path).hub.gangs = s.hub.gangs ∧
      (endRequest s ctx ix status code rank path).hub.reqs = s.hub.reqs.erase r ∧
      (endRequest s ctx ix status code rank path).hub.replies =
        s.hub.replies ++ [(makeReply (unaged s ctx) r status code rank path).1] := by
  have hreply := homeStep_makeReply (unaged s ctx) r status code rank path
  have hcores := hreply.cores
  have hgangs := hreply.gangs
  have hreqs := hreply.reqs
  have hreplies := hreply.replies
  rw [endRequest_eq h]
  generalize makeReply (unaged s ctx) r status code rank path = p at hcores hgangs hreqs hreplies
  obtain ⟨d, u⟩ := p
  have htaken : (replied u r d).cores = s.cores ∧ (replied u r d).hub.gangs = s.hub.gangs ∧ (replied u r d).hub.reqs = s.hub.reqs.erase r ∧
      (replied u r d).hub.replies = s.hub.replies ++ [d] :=
    ⟨hcores, hgangs, congrArg (·.erase r) hreqs, congrArg (· ++ [d]) hreplies⟩
  obtain ⟨kcores, kgangs, kreqs, kreplies⟩ := nextRequest_frame
    (if d.status = 2 then bumpBlk (replied u r d) ctx 0x58 4 else replied u r d) ctx
  have hbump : ∀ v : State, (if d.status = 2 then bumpBlk v ctx 0x58 4 else v).cores = v.cores ∧
      (if d.status = 2 then bumpBlk v ctx 0x58 4 else v).hub.gangs = v.hub.gangs ∧
      (if d.status = 2 then bumpBlk v ctx 0x58 4 else v).hub.reqs = v.hub.reqs ∧
      (if d.status = 2 then bumpBlk v ctx 0x58 4 else v).hub.replies = v.hub.replies := by
    intro v
    split <;> exact ⟨rfl, rfl, rfl, rfl⟩
  obtain ⟨bcores, bgangs, breqs, breplies⟩ := hbump (replied u r d)
  exact ⟨kcores.trans (bcores.trans htaken.1), kgangs.trans (bgangs.trans htaken.2.1), kreqs.trans (breqs.trans htaken.2.2.1),
    kreplies.trans (breplies.trans htaken.2.2.2)⟩

/-! A schedule that is not the one sealed. -/

/-- Quads that are clock-gated: nothing but the quads has changed. -/
theorem gatedQuads_frame (quads : List Nat) (f : State → Quad → Quad) (s : State) :
    (quads.foldl (fun s q => modQuad s q (f s)) s).cores = s.cores ∧ (quads.foldl (fun s q => modQuad s q (f s)) s).hub = s.hub := by
  induction quads generalizing s with
  | nil => exact ⟨rfl, rfl⟩
  | cons q quads ih => exact ih (modQuad s q (f s))

theorem failLaunch_claim {s : State} {ctx : Nat} {b : Binding} {r : Request} (h : reqOf s ctx b.ix = some r) (quads : List Nat) :
    ∃ d, (failLaunch s ctx b quads).cores = s.cores ∧ (failLaunch s ctx b quads).hub.replies = s.hub.replies ++ [d] ∧ d.req = r ∧
      d.status = 2 ∧ d.body.take 1 = [0x82#8] := by
  obtain ⟨hcores, hhub⟩ := gatedQuads_frame quads (fun s x => { x with power := .clockGated, idleSince := s.now }) (forgetLaunch s b.launch)
  rw [failLaunch]
  generalize quads.foldl _ (forgetLaunch s b.launch) = s1 at hcores hhub
  have hs2 : ∀ p : Prop, [Decidable p] → ∃ s2, (if p then setBlock s1 ctx (blkSet (getBlock s1 ctx) 0x10 4 (b.ix + 1)) else s1) = s2 ∧
      s2.cores = s.cores ∧ s2.hub.reqs = s.hub.reqs ∧ s2.hub.replies = s.hub.replies := by
    intro p _
    have hreqs : s1.hub.reqs = s.hub.reqs := (congrArg Hub.reqs hhub :)
    have hreplies : s1.hub.replies = s.hub.replies := (congrArg Hub.replies hhub :)
    refine ⟨_, rfl, ?_⟩
    split <;> exact ⟨hcores, hreqs, hreplies⟩
  obtain ⟨s2, heq, hcores2, hreqs2, hreplies2⟩ := hs2 (b.path.isEmpty = true)
  rw [heq]
  have hreq : reqOf s2 ctx b.ix = some r := by rw [reqOf, hreqs2]; exact h
  obtain ⟨d, hd, hdreq, hdst, hdbody⟩ := makeReply_error (unaged s2 ctx) r 0x82 0 b.path
  obtain ⟨ecores, -, -, ereplies⟩ := endRequest_claim hreq 2 0x82 0 b.path
  rw [hd] at ereplies
  refine ⟨d, ecores.trans hcores2, ereplies.trans (by rw [hreplies2]), hdreq, hdst, hdbody.trans rfl⟩

/-! The entry of a gang. -/

/-- What the entry binds a core of the gang to. -/
def entered (ctx : Nat) (rc : BitVec 8192) (x : Core) : Prop :=
  x.status = .bound ∧ x.gang = some ctx ∧ x.arch.seq.pc = BitVec.ofNat 13 (recEntry rc) ∧ x.arch.csr.cyc = 0

theorem entered_bindCore (ctx period : Nat) (b : BitVec 2048) (ix rank : Nat) (rc : BitVec 8192) (rolls : Nat) (ck : BAddr) (x : Core) :
    entered ctx rc (bindCore ctx period (entryArch b ctx ix rank rc) rolls ck x) := by
  refine ⟨rfl, rfl, rfl, ?_⟩
  show (entryArch b ctx ix rank rc).csr.cyc = 0
  simp only [entryArch, CoreArch.reset]
  rfl

/-- Every core of a list is bound by the entry, the last time that it is listed. -/
theorem entered_foldl {ctx : Nat} {rc : BitVec 8192} {f : State → Nat × Nat → Core → Core} (hf : ∀ u e x, entered ctx rc (f u e x))
    (l : List (Nat × Nat)) (s : State) (c : Nat) (h : c ∈ l.map (·.1) ∨ entered ctx rc (getCore s c)) :
    entered ctx rc (getCore (l.foldl (fun s e => modCore s e.1 (f s e)) s) c) := by
  induction l generalizing s with
  | nil => exact h.resolve_left List.not_mem_nil
  | cons e l ih =>
    refine ih _ ?_
    by_cases hc : e.1 = c
    · subst hc
      rw [getCore_modCore_same]
      exact .inr (hf s e _)
    · rw [getCore_modCore_other _ _ hc]
      refine h.imp_left fun hmem => ?_
      exact (List.mem_cons.mp hmem).resolve_left (Ne.symm hc)

theorem mem_gangCores (g : Gang) (c : Nat) : c ∈ gangCores g ↔ c / 4 ∈ g.quads := by
  simp only [gangCores, List.mem_flatMap, List.mem_cons, List.not_mem_nil, or_false]
  constructor
  · rintro ⟨q, hq, h⟩
    have : c / 4 = q := by omega
    rwa [this]
  · intro h
    exact ⟨c / 4, h, by omega⟩

theorem setChans_frame (f : Nat → Chan) (l : List Nat) (s : State) : (l.foldl (fun s c => setChan s (f c)) s).cores = s.cores ∧
    (l.foldl (fun s c => setChan s (f c)) s).hub.gangs = s.hub.gangs := by
  induction l generalizing s with
  | nil => exact ⟨rfl, rfl⟩
  | cons c l ih => exact ih (setChan s (f c))

/-- The pod channels of a gang change the channels alone. -/
theorem podChannels_frame (s : State) (ctx : Nat) : (podChannels s ctx).cores = s.cores ∧ (podChannels s ctx).hub.gangs = s.hub.gangs := by
  unfold podChannels
  dsimp only
  split
  · exact setChans_frame _ _ s
  · exact ⟨rfl, rfl⟩

theorem noteBound_frame (p : Prop) [Decidable p] (s : State) (ctx ix : Nat) :
    (if p then noteBound s ctx ix else s).cores = s.cores ∧ (if p then noteBound s ctx ix else s).hub.gangs = s.hub.gangs := by
  split <;> exact ⟨rfl, rfl⟩

/-- The gang that a launch makes (R285). -/
def launched (s : State) (ctx : Nat) (b : Binding) (rc : BitVec 8192) (quads : List Nat) : Gang :=
  { ctx := ctx, world := blkWorld (getBlock s ctx), tenant := blkTenant (getBlock s ctx), launch := b.launch, ix := b.ix, record := rc,
    recIx := b.recIx, path := b.path ++ [b.recIx], quads := quads, lease := leaseSet s ctx b.recIx rc, duty := 16, nextDuty := 16,
    elapsed := 0, st := .running, stoppedAt := 0, image := none, cause := none, saves := 0, remap := [] }

/-- The quads of a launch, entered. -/
def quadsEntered (s : State) (ctx : Nat) (b : Binding) (rc : BitVec 8192) (quads : List Nat) : State :=
  quads.foldl (fun s' q => enterQuad s' ctx b.recIx (blkWorld (getBlock s ctx)) rc q)
    (setGang (leaseFrames s ctx (leaseSet s ctx b.recIx rc)) (launched s ctx b rc quads))

/-- The members of a launch, bound at the record's ENTRY. -/
def membersBound (s : State) (ctx : Nat) (b : Binding) (rc : BitVec 8192) (quads : List Nat) : State :=
  (gangCores (launched s ctx b rc quads)).zipIdx.foldl (fun s' e =>
    modCore s' e.1 (bindCore ctx s'.now (entryArch (getBlock s ctx) ctx b.ix e.2 rc) 0 (BitVec.ofNat 13 (recEntry rc))))
    (quadsEntered s ctx b rc quads)

theorem enterGang_eq (s : State) (ctx : Nat) (b : Binding) (rc : BitVec 8192) (quads : List Nat) : enterGang s ctx b rc quads =
    addTodo (podChannels (delBind (setState (if b.path.isEmpty = true then noteBound (membersBound s ctx b rc quads) ctx b.ix
      else membersBound s ctx b rc quads) ctx stRunning) ctx) ctx) (gangCores (launched s ctx b rc quads)) := rfl

theorem enterGang_frame (s : State) (ctx : Nat) (b : Binding) (rc : BitVec 8192) (quads : List Nat) :
    (enterGang s ctx b rc quads).cores = (membersBound s ctx b rc quads).cores ∧
      (enterGang s ctx b rc quads).hub.gangs = (membersBound s ctx b rc quads).hub.gangs := by
  obtain ⟨bcores, bgangs⟩ := noteBound_frame (b.path.isEmpty = true) (membersBound s ctx b rc quads) ctx b.ix
  rw [enterGang_eq]
  generalize (if b.path.isEmpty = true then noteBound (membersBound s ctx b rc quads) ctx b.ix else membersBound s ctx b rc quads) = u
    at bcores bgangs
  obtain ⟨pcores, pgangs⟩ := podChannels_frame (delBind (setState u ctx stRunning) ctx) ctx
  exact ⟨pcores.trans bcores, pgangs.trans bgangs⟩

theorem enterGang_claim (s : State) (ctx : Nat) (b : Binding) (rc : BitVec 8192) (quads : List Nat) :
    gangAt (enterGang s ctx b rc quads) ctx (launched s ctx b rc quads) ∧
      ∀ c, c / 4 ∈ quads → entered ctx rc (getCore (enterGang s ctx b rc quads) c) := by
  obtain ⟨hcores, hgangs⟩ := enterGang_frame s ctx b rc quads
  have hentered : WindowStep (setGang (leaseFrames s ctx (leaseSet s ctx b.recIx rc)) (launched s ctx b rc quads)) (quadsEntered s ctx b rc quads) :=
    WindowStep.foldl (fun s' q => windowStep_enterQuad s' ctx b.recIx _ rc q) quads _
  have hbound : WindowStep (quadsEntered s ctx b rc quads) (membersBound s ctx b rc quads) :=
    WindowStep.foldl (fun s' (e : Nat × Nat) => windowStep_modCore s' e.1 _) _ _
  constructor
  · refine ⟨?_, rfl⟩
    rw [getGang, hgangs]
    refine ((hentered.trans hbound).getGang ctx).trans ?_
    exact getGang_setGang_same _ (launched s ctx b rc quads)
  · intro c hc
    have hmem : c ∈ (gangCores (launched s ctx b rc quads)).zipIdx.map (·.1) := by
      rw [List.zipIdx_map_fst]
      exact (mem_gangCores _ c).mpr hc
    have hcore : getCore (enterGang s ctx b rc quads) c = getCore (membersBound s ctx b rc quads) c := by rw [getCore, getCore, hcores]
    rw [hcore]
    exact entered_foldl (fun u e x => entered_bindCore ctx u.now _ b.ix e.2 rc 0 _ x) _ _ c (.inl hmem)

/-! The obligation. -/

section
variable {s : State} {ctx : Nat} {b : Binding}

/-- The clause of a request's placement. -/
theorem placement_claim {rc : BitVec 8192} (hnext : nextToPlace s = some (ctx, b)) (htime : s.hub.placeAt ≤ s.now) (hr : b.resume = false)
    (hrc : routeRec s ctx b.recIx = some rc) (hfree : buffersFree s (wantOf ctx (getBlock s ctx) b.recIx rc).world rc = true)
    {w : Want} (hw : w = wantOf ctx (getBlock s ctx) b.recIx rc) (hn : w.n ≠ 0) :
    (∀ q, hintQuads s w (blkHint (getBlock s ctx)) = some q → ∃ t up, exec (.placement ctx) s = .next t ∧ t.hub.placeAt = s.now + 20 ∧
      stageAt t ctx (.broadcast q (s.now + 68) [] 0 up)) ∧
    (hintQuads s w (blkHint (getBlock s ctx)) = none →
      (∀ c, bestCand (candidates s w 112) = some c → c.kind ≠ 1 → ∃ t up, exec (.placement ctx) s = .next t ∧
        t.hub.placeAt = s.now + 64 ∧ stageAt t ctx (.broadcast c.quads (s.now + 112) c.victims (if c.kind = 2 then 9024 else 0) up)) ∧
      ((bestCand (candidates s w 112) = none ∨ ∃ c, bestCand (candidates s w 112) = some c ∧ c.kind = 1) →
        ∃ t, exec (.placement ctx) s = .next t ∧ t.hub.placeAt = s.now + 64 ∧ stageAt t ctx .deferred)) := by
  subst hw
  have hexec := exec_placement_request hnext htime hr hrc hfree hn
  generalize hw : wantOf ctx (getBlock s ctx) b.recIx rc = w at hexec
  have hctx : w.ctx = ctx := by rw [← hw]; rfl
  subst hctx
  refine ⟨fun q hq => ?_, fun hq => ⟨fun c hc hk => ?_, fun hc => ?_⟩⟩
  · obtain ⟨up, hup⟩ := stageAt_bindTo s w b { start := 0, kind := 0, busy := 0, quads := q, victims := [] } 68
    exact ⟨_, up, hexec.trans (congrArg Host.Outcome.next (placeRequest_hint hq)), congrArg (· + 20) (now_bindTo s w b { start := 0, kind := 0, busy := 0, quads := q, victims := [] } 68), hup⟩
  · obtain ⟨up, hup⟩ := stageAt_bindTo s w b c 112
    exact ⟨_, up, hexec.trans (congrArg Host.Outcome.next (placeRequest_bound hq hc hk)), congrArg (· + 64) (now_bindTo s w b c 112), hup⟩
  · exact ⟨_, hexec.trans (congrArg Host.Outcome.next (placeRequest_deferred hq hc)), rfl, stageAt_setBind s w.ctx { b with stage := .deferred }⟩

/-- The clause of the end of the schedule step. -/
theorem unsealing_claim {rc : BitVec 8192} (hb : getBind s ctx = some b) (hrc : routeRec s ctx b.recIx = some rc)
    (hgone : quadsGone s b = false) {quads : List Nat} {end_ up : Nat} (hst : b.stage = .unsealing quads end_ up) (ht : end_ ≤ s.now)
    (hright : measuredRight s ctx b.recIx = true ∨ quads.all (quadWarm s (blkWorld (getBlock s ctx)) ctx b.recIx rc) = true) :
    ∃ t, exec (.launchStart { ctx := ctx, intact := true }) s = .next t ∧
      (coldImage s ctx b.recIx rc = 0 → ∃ x, s.now + ceilDiv (recNearLen rc) 512 + 12 ≤ x ∧ stageAt t ctx (.starting quads x)) ∧
      (coldImage s ctx b.recIx rc ≠ 0 → stageAt t ctx (.imaging quads (s.now + coldImage s ctx b.recIx rc) up)) := by
  have hopen := windowStep_openSchedule s ctx b rc quads
  have himage := hopen.coldImage ctx b.recIx rc
  have hnow := hopen.now
  refine ⟨_, exec_launchStart_unsealing hb hrc hgone hst ht hright, fun h => ?_, fun h => ?_⟩
  · rw [← hnow]
    exact stageAt_beginImage_staged _ quads up (himage.trans h)
  · rw [← hnow, ← himage]
    exact stageAt_beginImage_read _ quads up (by rwa [himage])

end

/-- Settles O51, step by step of a launch: its placement, the broadcast, the cold steps, the start step, and its failures. -/
theorem launchEvents : Obligations.LaunchEvents := by
  unfold Obligations.LaunchEvents
  intro s
  refine ⟨fun ctx b hnext htime => ⟨fun g hr hg => ?_, ?_⟩, fun ctx b r hb hgone hctx => ?_,
    fun ctx b rc hb hrc hgone => ⟨?_, ?_, ?_, ?_, ?_, ?_, ?_, ?_⟩⟩
  · exact ⟨_, exec_placement_resume hnext htime hr hg, rfl, stageAt_setBind s ctx _⟩
  · intro rc hr hrc hfree w hn
    exact placement_claim hnext htime hr hrc hfree rfl hn
  · subst hctx
    exact ⟨_, exec_launchStart_gone hb hgone, placeAgain_claim s r.ctx b⟩
  · exact fun quads end_ wake up hst ht => exec_launchStart_broadcast hb hrc hgone hst ht true
  · exact fun quads end_ up hst ht => exec_launchStart_waking hb hrc hgone hst ht true
  · exact fun quads end_ v vs wake up hst ht => ⟨_, exec_launchStart_victims hb hrc hgone hst ht true, stageAt_setBind _ ctx _⟩
  · exact fun quads vs hst hsaved hidle => exec_launchStart_stopping hb hrc hgone hst hsaved hidle true
  · exact fun quads end_ up hst ht hright => unsealing_claim hb hrc hgone hst ht hright
  · intro quads end_ up hst ht
    obtain ⟨x, hx, hstage⟩ := stageAt_beginStart (endImage s ctx b rc) ctx b rc quads up
    rw [now_endImage] at hx
    exact ⟨_, x, exec_launchStart_imaging hb hrc hgone hst ht true, hx, hstage⟩
  · intro quads end_ up r ok hst ht hreq hwrong hcold
    obtain ⟨d, hd⟩ := failLaunch_claim hreq quads
    exact ⟨_, d, exec_launchStart_unmeasured hb hrc hgone hst ht hwrong hcold, hd⟩
  · intro quads end_ hst ht hready
    obtain ⟨hgang, hcores⟩ := enterGang_claim s ctx b rc quads
    exact ⟨_, _, exec_launchStart_starting hb hrc hgone hst ht hready true, hgang, rfl, rfl, rfl, hcores⟩

end Sys2Proof.Proofs
end

section
/-! PROOF. What near accesses and the anvil leave of the tasks of cores: registers, sequencer, control registers, engine queues and status;
and of the hub all but the keys and the transfers (R147 to R155, R201 to R206, R221). -/

namespace Sys2Proof.Proofs

open Sys2Proof.Machine Sys2Proof.Claims Sys2Proof.Laws

/-- A core goes on with its task: status, gang, registers, sequencer, control registers and engine queues stand. -/
structure SameTask (x y : Core) : Prop where
  status : y.status = x.status
  gang : y.gang = x.gang
  regs : y.arch.regs = x.arch.regs
  seq : y.arch.seq = x.arch.seq
  csr : y.arch.csr = x.arch.csr
  q : y.arch.q = x.arch.q

theorem SameTask.refl (x : Core) : SameTask x x := ⟨rfl, rfl, rfl, rfl, rfl, rfl⟩

theorem SameTask.trans {x y z : Core} (h : SameTask x y) (k : SameTask y z) : SameTask x z :=
  ⟨k.status.trans h.status, k.gang.trans h.gang, k.regs.trans h.regs, k.seq.trans h.seq, k.csr.trans h.csr, k.q.trans h.q⟩

/-- Work on windows and stashes in which every core goes on with its task. -/
structure TaskStep (s t : State) : Prop extends WindowStep s t where
  task : ∀ d, SameTask (getCore s d) (getCore t d)

section
variable {s t u : State}

theorem TaskStep.refl (s : State) : TaskStep s s := ⟨WindowStep.refl s, fun _ => SameTask.refl _⟩

theorem TaskStep.trans (h : TaskStep s t) (k : TaskStep t u) : TaskStep s u :=
  ⟨h.toWindowStep.trans k.toWindowStep, fun d => (h.task d).trans (k.task d)⟩

theorem TaskStep.foldl {α : Type} {f : State → α → State} (h : ∀ s x, TaskStep s (f s x)) (l : List α) (s : State) :
    TaskStep s (l.foldl f s) := by
  induction l generalizing s with
  | nil => exact TaskStep.refl s
  | cons x l ih => exact (h s x).trans (ih (f s x))

theorem TaskStep.ite {p : Prop} [Decidable p] (ht : TaskStep s t) (hu : TaskStep s u) : TaskStep s (if p then t else u) := by
  split
  · exact ht
  · exact hu

/-- Cores that stand go on with their tasks. -/
theorem WindowStep.taskStep (h : WindowStep s t) (hc : t.cores = s.cores) : TaskStep s t :=
  ⟨h, fun d => by rw [getCore, getCore, hc]; exact SameTask.refl _⟩

theorem HomeStep.taskStep (h : HomeStep s t) : TaskStep s t := h.windowStep.taskStep h.cores

theorem TokenStep.taskStep (h : TokenStep s t) : TaskStep s t := h.homeStep.taskStep

end

theorem taskStep_setCore (s : State) (c : Nat) {x : Core} (h : SameTask (getCore s c) x) : TaskStep s (setCore s c x) where
  toWindowStep := windowStep_setCore s c x
  task d := by
    by_cases hd : c = d
    · subst hd
      rwa [getCore_setCore_same]
    · rw [getCore_setCore_other s x hd]
      exact SameTask.refl _

theorem taskStep_modCore (s : State) (c : Nat) {f : Core → Core} (h : ∀ x, SameTask x (f x)) : TaskStep s (modCore s c f) :=
  taskStep_setCore s c (h _)

/-! The parts of a core that its accesses change. -/

theorem taskStep_noteStamp (s : State) (c : Nat) (colour : Fin 16) (n : Nat) : TaskStep s (noteStamp s c colour n) :=
  taskStep_modCore s c fun _ => ⟨rfl, rfl, rfl, rfl, rfl, rfl⟩

theorem taskStep_modAnvOf (s : State) (c : Nat) (f : Anvil → Anvil) : TaskStep s (modAnvOf s c f) :=
  taskStep_modCore s c fun _ => ⟨rfl, rfl, rfl, rfl, rfl, rfl⟩

theorem taskStep_setHead (s : State) (c : Nat) (o : AnvOp) : TaskStep s (setHead s c o) := taskStep_modAnvOf s c _

theorem taskStep_deliverTo (s : State) (c : Nat) (port : PortId) (due ord : Nat) (short : Bool) (x : VVal) :
    TaskStep s (deliverTo s c port due ord short x) := taskStep_modCore s c fun _ => ⟨rfl, rfl, rfl, rfl, rfl, rfl⟩

theorem taskStep_signWrite (s : State) (c ord : Nat) (bytes : List Byte) : TaskStep s (signWrite s c ord bytes) := by
  unfold signWrite
  split
  · exact TaskStep.refl s
  · exact taskStep_modCore s c fun _ => ⟨rfl, rfl, rfl, rfl, rfl, rfl⟩

theorem taskStep_journal (s : State) (c : Nat) (r : JRec) (n : Nat) : TaskStep s (journal s c r n) := by
  obtain ⟨j, hj⟩ := journal_eq s c r n
  rw [hj]
  exact taskStep_setCore s c ⟨rfl, rfl, rfl, rfl, rfl, rfl⟩

theorem taskStep_standOver (s : State) (c ord : Nat) (runs : List (Nat × List Byte)) : TaskStep s (standOver s c ord runs) :=
  TaskStep.ite (taskStep_modCore s c fun _ => ⟨rfl, rfl, rfl, rfl, rfl, rfl⟩) (TaskStep.refl s)

theorem taskStep_keepImage (s : State) (d : Nat) (chunks : List Nat) : TaskStep s (keepImage s d chunks) := by
  unfold keepImage
  split
  · exact TaskStep.ite (taskStep_modCore s d fun _ => ⟨rfl, rfl, rfl, rfl, rfl, rfl⟩) (TaskStep.refl s)
  · exact TaskStep.refl s

theorem taskStep_keepImages (s : State) (c : Nat) (chunks : List Nat) : TaskStep s (keepImages s c chunks) :=
  TaskStep.foldl (fun s d => taskStep_keepImage s d chunks) _ s

theorem taskStep_serveBanks (s : State) (q : Nat) (rows : List (Nat × Nat)) : TaskStep s (serveBanks s q rows) :=
  (windowStep_modQuad s q _).taskStep rfl

/-- A change of the counter of free values alone. -/
theorem taskStep_freeCtr (s : State) (n : Nat) : TaskStep s { s with freeCtr := n } :=
  WindowStep.taskStep ⟨canon_of_eq rfl rfl rfl rfl, rfl, rfl, rfl, rfl⟩ rfl

/-! Chunks filled, registered and fetched. -/

theorem taskStep_putChunk (s : State) (key : Nat) (c : Chunk) : TaskStep s (putChunk s key c) := (windowStep_putChunk s key c).taskStep rfl

theorem taskStep_stashWrite (s : State) (q a : Nat) (bs : List Byte) : TaskStep s (stashWrite s q a bs) :=
  (windowStep_stashWrite s q a bs).taskStep rfl

theorem taskStep_placeLine (s : State) (key n : Nat) (bytes : List Byte) (bad : Bool) : TaskStep s (placeLine s key n bytes bad) := by
  unfold placeLine
  refine TaskStep.trans ?_ (taskStep_putChunk _ _ _)
  refine TaskStep.trans (taskStep_stashWrite s (key / 65536) (key % 65536 * 64) bytes) ?_
  exact TaskStep.ite ((windowStep_stashPoison _ _ _ _).taskStep rfl) (TaskStep.refl _)

theorem taskStep_fillChunk (s : State) (key : Nat) (bytes : List Byte) (bad : Bool) : TaskStep s (fillChunk s key bytes bad).2 :=
  (homeStep_nextStamp s).taskStep.trans (taskStep_placeLine _ _ _ _ _)

theorem taskStep_registerChunk (s : State) (key pa : Nat) : TaskStep s (registerChunk s key pa).2 := by
  have hrecalled : TaskStep s (recalledFor s pa) := by
    unfold recalledFor
    split
    · exact (homeStep_recallLine s pa).taskStep.trans (homeStep_recallLine _ _).taskStep
    · exact (homeStep_recallLine s pa).taskStep
  rw [registerChunk_eq]
  refine TaskStep.trans ?_ ((homeStep_dies _ _).taskStep)
  refine TaskStep.trans ?_ (taskStep_putChunk _ _ _)
  exact (hrecalled.trans (homeStep_noteRead _ _ _).taskStep).trans (taskStep_fillChunk _ _ _ _)

theorem cores_startXfer (s : State) (core ident kind cls fn : Nat) (l : Loc) (mask : BitVec 64) (data : List Byte) :
    (startXfer s core ident kind cls fn l mask data).2.cores = s.cores := (memStep_startXfer s core ident kind cls fn l mask data).cores

theorem taskStep_startXfer (s : State) (core ident kind cls fn : Nat) (l : Loc) (mask : BitVec 64) (data : List Byte) :
    TaskStep s (startXfer s core ident kind cls fn l mask data).2 := (windowStep_startXfer s _ _ _ _ _ _ _ _).taskStep (cores_startXfer s _ _ _ _ _ _ _ _)

theorem taskStep_flushChunk (s : State) (core key : Nat) (l : Loc) : TaskStep s (flushChunk s core key l) :=
  (windowStep_flushChunk s core key l).taskStep (memStep_flushChunk s core key l).cores

theorem taskStep_recallPeer (s : State) (core : Nat) (l : Loc) : TaskStep s (recallPeer s core l) := by
  unfold recallPeer
  split
  · exact TaskStep.refl s
  · split
    · exact taskStep_flushChunk s core _ l
    · exact TaskStep.refl s

theorem taskStep_recallPaid (s : State) (core : Nat) (l : Loc) : TaskStep s (recallPaid s core l) := by
  have htoken := (tokenStep_recallToken s l).taskStep
  unfold recallPaid
  split
  · rename_i s1 h
    rw [h] at htoken
    exact htoken.trans (taskStep_recallPeer s1 core l)
  · rename_i s1 h
    rwa [h] at htoken

theorem taskStep_registerPeer (s : State) (key : Nat) (l : Loc) : TaskStep s (registerPeer s key l) :=
  (windowStep_unregisterPeer s key).taskStep rfl |>.trans (WindowStep.taskStep ⟨canon_of_eq rfl rfl rfl rfl, rfl, rfl, rfl, rfl⟩ rfl)

theorem taskStep_peerFirst {s s1 : State} {c key : Nat} {l : Loc} (h : peerFirst s c key l = some s1) : TaskStep s s1 := by
  unfold peerFirst at h
  split at h
  · exact Option.some.inj h ▸ TaskStep.refl s
  · split at h
    · exact nomatch h
    · split at h
      · exact nomatch h
      · split at h
        · exact Option.some.inj h ▸ TaskStep.refl s
        · exact Option.some.inj h ▸ taskStep_recallPaid s c l

/-- The stamp of a fill noted for its colour, if it has one. -/
theorem taskStep_noteFill (s : State) (c : Nat) (colour : Option (Fin 16)) (n : Nat) :
    TaskStep s (match colour with | some k => noteStamp s c k n | none => s) := by
  cases colour with
  | none => exact TaskStep.refl s
  | some k => exact taskStep_noteStamp s c k n

theorem taskStep_startFill (s : State) (c ident : Nat) (colour : Option (Fin 16)) (w : Window) (key : Nat) :
    TaskStep s (startFill s c ident colour w key).2.2 := by
  unfold startFill
  split
  · exact TaskStep.refl s
  · rename_i l _
    split
    · exact TaskStep.refl s
    · split
      · rename_i s1 h
        obtain ⟨p, -, hp⟩ := Option.bind_eq_some_iff.mp h
        exact taskStep_peerFirst hp
      · have htoken := (tokenStep_takeToken s c ident).taskStep
        rcases h : takeToken s c ident with ⟨ok, s1⟩
        rw [h] at htoken
        dsimp only
        split
        · exact htoken
        · split
          · exact htoken.trans (taskStep_startXfer _ _ _ _ _ _ _ _ _)
          · refine htoken.trans (TaskStep.trans ?_ (taskStep_noteFill _ c colour _))
            exact (homeStep_noteRead s1 _ _).taskStep.trans (taskStep_fillChunk _ _ _ _)

theorem taskStep_readyRead (c ident : Nat) (colour : Option (Fin 16)) (e : TSet) (got : List Nat) (k : Nat) (s : State) :
    TaskStep s (readyRead c ident colour e got k s).2.2 := by
  unfold readyRead
  split
  · dsimp only
    split
    · exact TaskStep.refl s
    · split
      · split
        · exact TaskStep.refl s
        · exact taskStep_startFill s c ident colour _ _
      · exact taskStep_startFill s c ident colour _ _
  · exact TaskStep.refl s

/-- A fill for a write notes the line of the peer that it has started to fetch. -/
theorem taskStep_fetchFor {s : State} {r : Bool × Bool × State} (h : TaskStep s r.2.2) (key : Nat) (l : Loc) :
    TaskStep s (match r with | (a, true, s1) => (a, true, registerPeer s1 key l) | r => r).2.2 := by
  obtain ⟨a, _ | _, s1⟩ := r
  · exact h
  · exact h.trans (taskStep_registerPeer s1 key l)

theorem taskStep_readyWrite (c ident k : Nat) (s : State) : TaskStep s (readyWrite c ident k s).2.2 := by
  unfold readyWrite
  split
  · dsimp only
    split
    · exact TaskStep.refl s
    · split
      · exact TaskStep.refl s
      · split
        · exact TaskStep.refl s
        · rename_i l _
          split
          · split
            · exact taskStep_putChunk s _ _
            · exact taskStep_fetchFor (taskStep_startFill s c ident none _ _) _ l
          · split
            · exact TaskStep.refl s
            · have htoken := (tokenStep_takeWithRecalls s c ident (recallsFor s l.pa)).taskStep
              rcases h : takeWithRecalls s c ident (recallsFor s l.pa) with ⟨_ | _, s1⟩ <;> rw [h] at htoken
              · exact htoken
              · exact htoken.trans (taskStep_registerChunk s1 _ _)
  · exact TaskStep.refl s

theorem taskStep_readyAll {f : List Nat → Nat → State → Bool × Bool × State} (h : ∀ got k s, TaskStep s (f got k s).2.2) (ks got : List Nat)
    (s : State) : TaskStep s (readyAll f ks got s).2.2 := by
  induction ks generalizing got s with
  | nil => exact TaskStep.refl s
  | cons k ks ih => exact (h got k s).trans (ih _ _)

/-! Near accesses. -/

theorem taskStep_quadWrite (s : State) (q a : Nat) (bs : List Byte) : TaskStep s (quadWrite s q a bs) := by
  unfold quadWrite
  refine (taskStep_stashWrite s q a bs).trans (TaskStep.foldl (fun s k => ?_) _ _)
  dsimp only
  split
  · exact TaskStep.ite (taskStep_putChunk s _ _) (TaskStep.refl s)
  · exact TaskStep.refl s

theorem taskStep_nearStore (s : State) (c ord : Nat) (lanes : Bool) (runs : List (Nat × List Byte)) :
    TaskStep s (nearStore s c ord lanes runs) := by
  unfold nearStore
  refine TaskStep.ite (TaskStep.refl s) ?_
  refine TaskStep.trans ?_ (TaskStep.foldl (f := fun (s : State) (r : Nat × List Byte) => quadWrite s (quadOf c) r.1 r.2)
    (fun s r => taskStep_quadWrite s _ _ _) runs _)
  refine TaskStep.trans ?_ (taskStep_journal _ c _ _)
  refine TaskStep.trans ?_ (TaskStep.foldl (f := fun (s : State) (r : Nat × List Byte) => signWrite s c ord (leBytes r.1 8 ++ r.2))
    (fun s r => taskStep_signWrite s c ord _) runs _)
  exact (taskStep_standOver s c ord runs).trans (taskStep_keepImages _ c _)

/-- A change of the tags alone. -/
theorem taskStep_tags (s : State) (l : List (Nat × Tag)) : TaskStep s { s with tags := l } :=
  WindowStep.taskStep ⟨canon_of_eq rfl rfl rfl rfl, rfl, rfl, rfl, rfl⟩ rfl

theorem taskStep_performNear (c : Nat) (op : NearOp) (bytes : List Byte) (bad : Bool) (s : State) :
    TaskStep s (performNear c op bytes bad s) := by
  unfold performNear
  dsimp only
  split
  · exact taskStep_deliverTo s c _ _ _ _ _
  · split
    · split <;> exact taskStep_deliverTo s c _ _ _ _ _
    · exact taskStep_deliverTo s c _ _ _ _ _
  · exact taskStep_nearStore s c _ _ _
  · split
    · exact (taskStep_nearStore s c _ _ _).trans (taskStep_tags _ _)
    · exact taskStep_nearStore s c _ _ _
  · refine TaskStep.trans ?_ (taskStep_deliverTo _ c _ _ _ _ _)
    split
    · exact TaskStep.ite (taskStep_quadWrite s _ _ _) (TaskStep.refl s)
    · exact TaskStep.refl s

theorem taskStep_tryNear (c : Nat) (op : NearOp) (s : State) : TaskStep s (tryNear c op s).2 := by
  have hread := taskStep_readyAll (f := fun got k s => readyRead c op.ident (some op.colour) op.e got k s)
    (fun got k s => taskStep_readyRead c op.ident _ _ got k s) (spanChunks op.spans) op.got s
  unfold tryNear
  generalize readyAll (fun got k s => readyRead c op.ident (some op.colour) op.e got k s) (spanChunks op.spans) op.got s = r at hread
  obtain ⟨ready, got, s1⟩ := r
  have hwrite := taskStep_readyAll (f := fun _ k s => readyWrite c op.ident k s) (fun _ k s => taskStep_readyWrite c op.ident k s)
    (writeChunks op) got s1
  dsimp only
  split
  · exact hread
  · split
    · exact hread
    · generalize readyAll (fun _ k s => readyWrite c op.ident k s) (writeChunks op) got s1 = r at hwrite
      obtain ⟨ready2, got2, s2⟩ := r
      dsimp only
      split
      · exact hread.trans hwrite
      · split
        · exact hread.trans hwrite
        · exact ((hread.trans hwrite).trans (taskStep_serveBanks s2 _ _)).trans (taskStep_performNear c { op with got := got } _ _ _)

/-- The near accesses that a core awaits, set. -/
theorem taskStep_nearq (s : State) (c : Nat) (l : List NearOp) :
    TaskStep s (modCore s c (fun x => { x with arch := { x.arch with order := { x.arch.order with nearq := l } } })) :=
  taskStep_modCore s c fun _ => ⟨rfl, rfl, rfl, rfl, rfl, rfl⟩

theorem taskStep_serveNear (c n : Nat) (s : State) : TaskStep s (serveNear c n s) := by
  induction n generalizing s with
  | zero => exact TaskStep.refl s
  | succ n ih =>
    unfold serveNear
    split
    · exact TaskStep.refl s
    · rename_i op rest _
      have htry := taskStep_tryNear c op s
      dsimp only
      rcases h : tryNear c op s with ⟨_ | op1, s1⟩ <;> rw [h] at htry
      · exact (htry.trans (taskStep_nearq s1 c rest)).trans (ih _)
      · exact htry.trans (taskStep_nearq s1 c _)

theorem taskStep_submitNear (s : State) (op : NearOp) : TaskStep s (submitNear s op) := by
  unfold submitNear
  dsimp only
  split
  · have htry := taskStep_tryNear s.cur op s
    rcases h : tryNear s.cur op s with ⟨_ | op1, s1⟩ <;> rw [h] at htry
    · exact htry
    · exact htry.trans (taskStep_nearq s1 s1.cur _)
  · exact taskStep_nearq s s.cur _

/-! The anvil. -/

theorem taskStep_anvChunk (s : State) (q : Nat) (o : AnvOp) (k : Nat) : TaskStep s (anvChunk s q o k).2 := taskStep_freeCtr s _

theorem taskStep_anvChunks (q : Nat) (o : AnvOp) (ks : List Nat) (s : State) : TaskStep s (anvChunks s q o ks).2 := by
  induction ks generalizing s with
  | nil => exact TaskStep.refl s
  | cons k ks ih =>
    unfold anvChunks
    dsimp only
    split
    · exact ih s
    · exact (taskStep_anvChunk s q o k).trans (ih _)

theorem taskStep_anvSpan (s : State) (q : Nat) (o : AnvOp) (p : Nat × Nat) : TaskStep s (anvSpan s q o p).2.2 := taskStep_anvChunks q o _ s

theorem taskStep_anvReady (c : Nat) (o : AnvOp) (spans : List (Nat × Nat)) (s : State) : TaskStep s (anvReady c o spans s).2.2 := by
  unfold anvReady
  split
  · exact taskStep_readyAll (fun got k s => taskStep_readyRead c o.ord _ _ got k s) _ _ s
  · exact TaskStep.refl s

theorem taskStep_putRow (s : State) (c ord row : Nat) (x : VVal) : TaskStep s (putRow s c ord row x) := by
  unfold putRow
  refine TaskStep.trans ?_ (taskStep_modAnvOf _ c _)
  refine TaskStep.trans (taskStep_signWrite s c ord (leBytes row 2 ++ leBytes x.v.toNat 256)) ?_
  exact TaskStep.ite (taskStep_journal _ c _ _) (TaskStep.refl _)

theorem taskStep_readData (c : Nat) (o : AnvOp) (s : State) : TaskStep s (readData c o s).1 := by
  unfold readData
  dsimp only
  split <;> dsimp only
  · exact ((taskStep_anvSpan s _ o _).trans (taskStep_anvSpan _ _ o _)).trans (taskStep_modAnvOf _ c _)
  · exact (taskStep_anvSpan s _ o _).trans (taskStep_modAnvOf _ c _)

theorem taskStep_runRow (c : Nat) (o : AnvOp) (r : Nat) (s : State) : TaskStep s (runRow c o r s).1 := by
  unfold runRow
  dsimp only
  refine TaskStep.trans ?_ (taskStep_putRow _ c _ _ _)
  refine TaskStep.trans ?_ (taskStep_anvSpan _ _ o _)
  exact taskStep_anvSpan s _ o _

theorem taskStep_finishOp (c : Nat) (o : AnvOp) (s : State) : TaskStep s (finishOp c o s).1 := by
  unfold finishOp
  dsimp only
  split <;> dsimp only
  · exact taskStep_modAnvOf s c _
  · exact TaskStep.refl s
  · exact TaskStep.refl s
  · exact taskStep_putRow s c _ _ _
  · exact TaskStep.foldl (f := fun (s : State) (r : Nat) => putRow s c o.ord r VVal.zero) (fun s r => taskStep_putRow s c _ r _) _ s
  · exact TaskStep.refl s
  · exact TaskStep.refl s
  · exact TaskStep.refl s

theorem taskStep_takeChunks (c : Nat) (ks : List Nat) (o : AnvOp) (s : State) : TaskStep s (takeChunks c ks o s).2 := by
  induction ks generalizing o s with
  | nil => exact TaskStep.refl s
  | cons k ks ih =>
    have hready := taskStep_readyRead c o.ord (some o.colour) o.e o.got k s
    unfold takeChunks
    generalize readyRead c o.ord (some o.colour) o.e o.got k s = r at hready
    obtain ⟨ok, filled, s1⟩ := r
    dsimp only
    split
    · exact (hready.trans (taskStep_anvChunk s1 _ _ k)).trans (ih _ _)
    · exact hready.trans (ih _ s1)

theorem taskStep_anvilData (c : Nat) (s : State) : TaskStep s (anvilData c s) := by
  unfold anvilData
  split
  · exact TaskStep.refl s
  · rename_i o _ _
    split
    · have htake := taskStep_takeChunks c ((spanChunks (dataSpans o)).filter (fun k => !o.taken.any (fun e => e.1 = k))) o s
      generalize takeChunks c ((spanChunks (dataSpans o)).filter (fun k => !o.taken.any (fun e => e.1 = k))) o s = r at htake
      obtain ⟨o1, s1⟩ := r
      dsimp only
      split
      · exact (htake.trans (taskStep_readData c o1 s1)).trans (taskStep_setHead _ c _)
      · exact htake.trans (taskStep_setHead s1 c o1)
    · exact TaskStep.refl s

theorem taskStep_serveAnvil (c : Nat) (s : State) : TaskStep s (serveAnvil c s) := by
  unfold serveAnvil
  dsimp only
  split
  · exact TaskStep.refl s
  · rename_i o _ _
    split
    · exact taskStep_anvilData c s
    · have hready := taskStep_anvReady c o (headReads (getCore s c).arch.anv o (anvNow (getCore s c).arch + 1)) s
      generalize anvReady c o (headReads (getCore s c).arch.anv o (anvNow (getCore s c).arch + 1)) s = r at hready
      obtain ⟨ok, got, s1⟩ := r
      exact TaskStep.ite ((hready.trans (taskStep_serveBanks s1 _ _)).trans (taskStep_setHead _ c _)) (hready.trans (taskStep_setHead s1 c _))

theorem taskStep_anvilRows (c n : Nat) (s : State) : TaskStep s (Machine.anvilRows c n s) := by
  induction n generalizing s with
  | zero => exact TaskStep.refl s
  | succ n ih =>
    unfold Machine.anvilRows
    dsimp only
    split
    · exact TaskStep.refl s
    · rename_i o _ _
      split
      · exact TaskStep.refl s
      · split
        · have hready := taskStep_anvReady c o (rowSpans o (depthOf (getCore s c).arch.anv.active.wfmt.toNat) o.rows) s
          generalize anvReady c o (rowSpans o (depthOf (getCore s c).arch.anv.active.wfmt.toNat) o.rows) s = r at hready
          obtain ⟨ok, got, s1⟩ := r
          dsimp only
          split
          · exact ((hready.trans (taskStep_runRow c _ _ s1)).trans (taskStep_setHead _ c _)).trans (ih _)
          · exact hready.trans (taskStep_setHead s1 c _)
        · exact TaskStep.refl s

theorem taskStep_anvilRun (c n : Nat) (s : State) : TaskStep s (anvilRun c n s) := by
  induction n generalizing s with
  | zero => exact TaskStep.refl s
  | succ n ih =>
    unfold anvilRun
    split
    · exact TaskStep.refl s
    · rename_i o0 _ _
      have hdata : TaskStep s (anvilData c (Machine.anvilRows c (o0.count - o0.rows) (if o0.start.isSome then s else
          setHead s c { o0 with start := some (o0.start.getD (anvNow (getCore s c).arch)) }))) :=
        ((TaskStep.ite (TaskStep.refl s) (taskStep_setHead s c _)).trans (taskStep_anvilRows c _ _)).trans (taskStep_anvilData c _)
      dsimp only
      generalize anvilData c (Machine.anvilRows c (o0.count - o0.rows) _) = s2 at hdata
      split
      · exact hdata
      · split
        · refine hdata.trans (TaskStep.trans ?_ (ih _))
          exact ((taskStep_finishOp c _ s2).trans (taskStep_deliverTo _ c _ _ _ _ _)).trans (taskStep_modAnvOf _ c _)
        · exact hdata

end Sys2Proof.Proofs
end

section
/-! PROOF. The life of a gang: its members stop, it is saved, resumes, completes and is answered, its quads are gated (R36, R285, R291, R292,
R315, R341, R342, R359). -/

namespace Sys2Proof.Proofs

open Sys2Proof.Machine Sys2Proof.Claims Sys2Proof.Laws

/-! A member that stops. -/

/-- Core `x` stopped in a period, its mark, its watchdogs and its yield flag cleared. -/
def haltedCore (now : Nat) (x : Core) : Core :=
  { x with status := .stopped, stoppedAt := now, mark := none, freezeDog := 0, waitDog := 0,
           arch := { x.arch with seq := { x.arch.seq with yielded := false } } }

theorem trySave_unsavable {s : State} {ctx : Nat} {g : Gang} (hg : getGang s ctx = some g) (h : savable s g = false) : trySave s ctx = s := by
  rw [trySave, hg]
  exact if_neg (by rw [h]; decide)

/-- A gang with a member that runs cannot be saved. -/
theorem savable_of_bound {s : State} {g : Gang} {d : Nat} (hd : d ∈ gangCores g) (hb : (getCore s d).status = .bound) : savable s g = false := by
  have hrest : memberRests (getCore s d) = false := by rw [memberRests, hb]
  have hall : ((gangCores g).all fun c => memberRests (getCore s c)) = false :=
    List.all_eq_false.mpr ⟨d, hd, by rw [hrest]; decide⟩
  simp only [savable, hall, Bool.and_false, Bool.false_and]

/-- A marked member of a gang that still has a running member stops (R35, R36). -/
theorem stop_claim {s : State} {c d ctx : Nat} {g : Gang} (hb : (getCore s c).status = .bound) (hr : (getCore s c).rerun = none)
    (hm : (getCore s c).mark.isSome = true) (hc : (getCore s c).gang = some ctx) (hg : getGang s ctx = some g)
    (hsafe : atSafePoint (coreArch s c) = true ∨ (coreArch s c).seq.wait.isSome = true) (hd : d ∈ gangCores g) (hdc : d ≠ c)
    (hdb : (getCore s d).status = .bound) :
    ∃ t, exec (.preemptionStop c) s = .next t ∧ (getCore t c).status = .stopped ∧ (getCore t c).mark = none ∧
      (coreArch t c).order.sbuf = [] ∧ (coreArch t c).order.released = (coreArch s c).order.released ++ (coreArch s c).order.sbuf ∧
      (coreArch t c).regs = (coreArch s c).regs ∧ (coreArch t c).csr = (coreArch s c).csr ∧ sparesOthers s c t := by
  have hrn : (getCore s c).rerun.isNone = true := by rw [hr]; rfl
  have hctx : (getCore s c).gang.getD 0 = ctx := by rw [hc]; rfl
  have hspare : sparesOthers s c (modCore (releaseStores s c) c (haltedCore s.now)) :=
    SparesOthers.trans (sparesOthers_modCore s c _) (sparesOthers_modCore (releaseStores s c) c _)
  have hother : getCore (modCore (releaseStores s c) c (haltedCore s.now)) d = getCore s d := hspare.1 d hdc
  have hcore : getCore (modCore (releaseStores s c) c (haltedCore s.now)) c = haltedCore s.now (getCore (releaseStores s c) c) :=
    getCore_modCore_same _ c _
  have hrel : (getCore (releaseStores s c) c).arch = { (getCore s c).arch with order :=
      { (getCore s c).arch.order with released := (getCore s c).arch.order.released ++ (getCore s c).arch.order.sbuf, sbuf := [], sinceCommit := 0 } } := by
    rw [releaseStores, getCore_modCore_same]
  have hexec : exec (.preemptionStop c) s = .next (trySave (modCore (releaseStores s c) c (haltedCore s.now)) ((getCore s c).gang.getD 0)) :=
    if_pos ⟨hb, hm, hrn, hsafe⟩
  have hsave : trySave (modCore (releaseStores s c) c (haltedCore s.now)) ctx = modCore (releaseStores s c) c (haltedCore s.now) :=
    trySave_unsavable (g := g) hg (savable_of_bound hd (by rw [hother]; exact hdb))
  rw [hctx, hsave] at hexec
  refine ⟨_, hexec, ?_, ?_, ?_, ?_, ?_, ?_, hspare⟩
  · rw [hcore]; rfl
  · rw [hcore]; rfl
  all_goals rw [coreArch, hcore, haltedCore, hrel] <;> rfl

/-! A gang without windows to write back. -/

section
variable {s : State} {g : Gang}

theorem takeFlush_clean {quads : List Nat} (h : ∀ q ∈ quads, (getQuad s q).windows = []) : takeFlush quads s = (true, s) := by
  induction quads with
  | nil => rfl
  | cons q quads ih =>
    have hq : quadDirty s q = 0 := by rw [quadDirty, h q List.mem_cons_self]; rfl
    rw [takeFlush, if_pos hq]
    dsimp only
    rw [ih fun p hp => h p (List.mem_cons_of_mem _ hp)]

/-- The writeback of the windows of quads that have none. -/
theorem flushQuads_clean {quads : List Nat} (h : ∀ q ∈ quads, (getQuad s q).windows = []) :
    quads.foldl (fun s q => (getQuad s q).windows.foldl (fun s e => flushWindow s (4 * q) q e.2) s) s = s := by
  induction quads with
  | nil => rfl
  | cons q quads ih =>
    rw [List.foldl_cons, h q List.mem_cons_self]
    exact ih fun p hp => h p (List.mem_cons_of_mem _ hp)

theorem flushGang_clean (h : ∀ q ∈ g.quads, (getQuad s q).windows = []) (ha : flushAskable s g = true) : flushGang s g = (true, s) := by
  have hno : ¬ (!flushAskable s g) = true := by rw [ha]; decide
  rw [flushGang, if_neg hno, takeFlush_clean h]
  dsimp only
  rw [flushQuads_clean h]

end

/-! The save. -/

/-- A change of chunks, dies, memories and other parts that leaves every quad but one. -/
def onlyQuad (s : State) (q : Nat) (t : State) : Prop := ∀ p, p ≠ q → getQuad t p = getQuad s p

theorem onlyQuad_of_quads {s t : State} (h : t.quads = s.quads) (q : Nat) : onlyQuad s q t := fun p _ => by rw [getQuad, getQuad, h]

theorem OnlyQuad.trans {s t u : State} {q : Nat} (h : onlyQuad s q t) (k : onlyQuad t q u) : onlyQuad s q u :=
  fun p hp => (k p hp).trans (h p hp)

theorem OnlyQuad.foldl {α : Type} {q : Nat} {f : State → α → State} (h : ∀ s x, onlyQuad s q (f s x)) (l : List α) (s : State) :
    onlyQuad s q (l.foldl f s) := by
  induction l generalizing s with
  | nil => exact fun _ _ => rfl
  | cons x l ih => exact OnlyQuad.trans (h s x) (ih (f s x))

theorem onlyQuad_modQuad (s : State) (q : Nat) (f : Quad → Quad) : onlyQuad s q (modQuad s q f) :=
  fun _ hp => getQuad_modQuad_other s f (Ne.symm hp)

theorem quads_modCores (f : Core → Core) (l : List Nat) (s : State) : (l.foldl (fun s c => modCore s c f) s).quads = s.quads := by
  induction l generalizing s with
  | nil => rfl
  | cons c l ih => exact ih (modCore s c f)

theorem onlyQuad_dropWindow (s : State) (core q n : Nat) : onlyQuad s q (dropWindow s core q n) := by
  unfold dropWindow
  split
  · exact fun _ _ => rfl
  · refine OnlyQuad.trans (onlyQuad_of_quads ?_ q) (onlyQuad_modQuad _ q _)
    exact ((memStep_flushWindow s core q _).trans (MemStep.foldl memStep_dropChunk _ _)).quads

theorem onlyQuad_dropWindows (s : State) (q : Nat) (pick : Window → Bool) : onlyQuad s q (dropWindows s q pick) :=
  OnlyQuad.foldl (f := fun (s : State) (e : Nat × Window) => dropWindow (chargeTokens s (4 * q) (dirtyChunks s q e.2).length) (4 * q) q e.1)
    (fun s e => OnlyQuad.trans (onlyQuad_of_quads (memStep_chargeTokens s _ _).quads q) (onlyQuad_dropWindow _ _ q e.1)) _ s

theorem onlyQuad_vacateQuad (s : State) (q : Nat) : onlyQuad s q (vacateQuad s q) := by
  unfold vacateQuad
  refine OnlyQuad.trans (OnlyQuad.trans (onlyQuad_dropWindows s q (fun _ => true)) ?_) (onlyQuad_modQuad _ q _)
  exact onlyQuad_of_quads (quads_modCores drainedCore _ _) q

theorem busy_vacateQuad (s : State) (q : Nat) : (getQuad (vacateQuad s q) q).busy = none := by
  rw [vacateQuad, getQuad_modQuad_same]

/-- A quad that is vacated, or was free, is free. -/
theorem busy_vacateQuads {quads : List Nat} {s : State} {q : Nat} (h : q ∈ quads ∨ (getQuad s q).busy = none) :
    (getQuad (quads.foldl vacateQuad s) q).busy = none := by
  induction quads generalizing s with
  | nil => exact h.resolve_left List.not_mem_nil
  | cons p quads ih =>
    refine ih ?_
    by_cases hp : q = p
    · subst hp
      exact .inr (busy_vacateQuad s q)
    · rw [onlyQuad_vacateQuad s p q hp]
      exact h.imp_left fun hmem => (List.mem_cons.mp hmem).resolve_left hp

/-- The gang as its save leaves it. -/
def savedGang (s : State) (g : Gang) : Gang :=
  { g with st := .stopped, stoppedAt := ((gangCores g).map (fun c => (getCore s c).stoppedAt)).foldl max 0, image := some (makeImage s g),
           saves := g.saves + 1, remap := [] }

/-- The binding of a saved gang, which waits for its resumption. -/
def resumption (s : State) (g : Gang) : Binding :=
  { visible := s.now, stage := .waiting, ix := g.ix, recIx := g.recIx, path := g.path, launch := g.launch, resume := true }

/-- The quads vacated and the channels of the gang gone with its image. -/
def leftQuads (s : State) (g : Gang) : State :=
  { g.quads.foldl vacateQuad s with hub := { (g.quads.foldl vacateQuad s).hub with
      chans := (g.quads.foldl vacateQuad s).hub.chans.filter (fun x => !savedChan g x) } }

theorem saveGang_eq {s : State} {g : Gang} (h : g.remap = []) : saveGang s g = wakeDeferred (setBind (setGang (countSeals (leftQuads s g) g.world
    ((g.quads.map (fun q => ceilDiv (savedBytes s g q) 64)).foldl (· + ·) 64)) (savedGang s g)) g.ctx (resumption s g)) := by
  have hr : g.remap.isEmpty = true := by rw [h]; rfl
  rw [saveGang]
  exact if_pos hr

theorem getBind_wakeDeferred {s : State} {ctx : Nat} (h : (getBind s ctx).isSome = true) : (getBind (wakeDeferred s) ctx).isSome = true := by
  simp only [getBind, Option.isSome_map, List.find?_isSome] at h ⊢
  obtain ⟨e, he, hp⟩ := h
  exact ⟨_, List.mem_map_of_mem he, hp⟩

theorem saveGang_claim {s : State} {g : Gang} (h : g.remap = []) : gangAt (saveGang s g) g.ctx (savedGang s g) ∧
    (∀ q ∈ g.quads, (getQuad (saveGang s g) q).busy = none) ∧ (getBind (saveGang s g) g.ctx).isSome = true := by
  rw [saveGang_eq h]
  have hseals := homeStep_countSeals (leftQuads s g) g.world ((g.quads.map (fun q => ceilDiv (savedBytes s g q) 64)).foldl (· + ·) 64)
  generalize countSeals (leftQuads s g) g.world ((g.quads.map (fun q => ceilDiv (savedBytes s g q) 64)).foldl (· + ·) 64) = s1 at hseals
  refine ⟨⟨getGang_setGang_same s1 (savedGang s g), rfl⟩, fun q hq => ?_, getBind_wakeDeferred (by rw [getBind_setBind_same]; rfl)⟩
  have hquad : getQuad s1 q = getQuad (leftQuads s g) q := hseals.getQuad q
  show (getQuad s1 q).busy = none
  rw [hquad]
  exact busy_vacateQuads (.inl hq)

/-- A gang whose members rest, without windows, is saved (R36, R315). -/
theorem save_claim {s : State} {c ctx : Nat} {g : Gang} (hst : (getCore s c).status = .stopped) (hc : (getCore s c).gang = some ctx)
    (hg : gangAt s ctx g) (hs : savable s g = true) (hr : g.remap = []) (hw : ∀ q ∈ g.quads, (getQuad s q).windows = [])
    (ha : flushAskable s g = true) :
    ∃ t h, exec (.preemptionStop c) s = .next t ∧ gangAt t ctx h ∧ h.st = .stopped ∧ h.saves = g.saves + 1 ∧
      h.image = some (makeImage s g) ∧ (∀ q ∈ g.quads, (getQuad t q).busy = none) ∧ (getBind t ctx).isSome = true := by
  obtain ⟨hget, rfl⟩ := hg
  have hnb : ¬ ((getCore s c).status = .bound ∧ (getCore s c).mark.isSome = true ∧ (getCore s c).rerun.isNone = true ∧
      (atSafePoint (getCore s c).arch = true ∨ (getCore s c).arch.seq.wait.isSome = true)) := by
    rw [hst]
    exact fun h => nomatch h.1
  have hctx : (getCore s c).gang.getD 0 = g.ctx := by rw [hc]; rfl
  have hsends : ((gangCores g).any (sendsPending s)) = false := by
    have hall : (gangCores g).all (fun c => coreRests (getCore s c).arch && !sendsPending s c) = true := by
      simp only [savable, Bool.and_eq_true] at hs
      exact hs.1.2
    refine List.any_eq_false.mpr fun d hd => ?_
    have hd := List.all_eq_true.mp hall d hd
    rw [Bool.and_eq_true, Bool.not_eq_true'] at hd
    rw [hd.2]
    decide
  have hsave : trySave s g.ctx = saveGang s g := by
    rw [trySave, hget]
    dsimp only
    rw [if_pos hs, flushGang_clean hw ha]
    dsimp only
    rw [hsends, if_neg Bool.false_ne_true]
  have hexec : exec (.preemptionStop c) s = .next (trySave s ((getCore s c).gang.getD 0)) := by
    show execPreemptionStop c s = _
    rw [execPreemptionStop]
    dsimp only
    rw [if_neg hnb, if_pos hst]
  obtain ⟨hgang, hbusy, hbind⟩ := saveGang_claim (s := s) hr
  rw [hctx, hsave] at hexec
  exact ⟨_, savedGang s g, hexec, hgang, rfl, rfl, rfl, hbusy, hbind⟩

/-! The resumption. -/

/-- A core of a restored gang before it runs: registers, count of cycles and place of its image, buffers empty, no collective, its status
that of its image but that it stands. -/
structure Restored (x : SavedCore) (y : Core) : Prop where
  g : y.arch.regs.g = x.arch.regs.g
  cyc : y.arch.csr.cyc = x.arch.csr.cyc
  pc : y.arch.seq.pc = x.arch.seq.pc
  status : x.status = .bound ∨ x.status = .stopped → y.status = .stopped
  shadow : y.arch.anv.shadow.loaded = false
  active : y.arch.anv.active.loaded = false
  collectives : (vget y.arch.q 3).cmds = []

/-- The saved core without a loaded buffer or a collective. -/
def restsEmpty (x : SavedCore) : Prop :=
  x.arch.anv.shadow.loaded = false ∧ x.arch.anv.active.loaded = false ∧ (vget x.arch.q 3).cmds = []

/-- A core of a gang as its image restores it. -/
def restoreCore (ctx now : Nat) (a : CoreArch) (e : SavedCore) (x : Core) : Core :=
  match e.status with
  | .completed k => { bindCore ctx now a e.rolls e.ckaddr x with status := .completed k }
  | _ => { bindCore ctx now a e.rolls e.ckaddr x with status := .stopped }

theorem arch_restoreCore (ctx now : Nat) (a : CoreArch) (e : SavedCore) (x : Core) : (restoreCore ctx now a e x).arch = a := by
  unfold restoreCore
  split <;> rfl

theorem status_restoreCore {e : SavedCore} (h : e.status = .bound ∨ e.status = .stopped) (ctx now : Nat) (a : CoreArch) (x : Core) :
    (restoreCore ctx now a e x).status = .stopped := by
  unfold restoreCore
  rcases h with h | h <;> rw [h]

theorem restored_restoreCore {e : SavedCore} (h : restsEmpty e) (ctx now prio base : Nat) (x : Core) :
    Restored e (restoreCore ctx now (restoreArch prio base e.arch) e x) := by
  obtain ⟨hshadow, hactive, hcoll⟩ := h
  have hq : (vget (restoreArch prio base e.arch).q 3).cmds = [] := by
    have hmap : vget (restoreArch prio base e.arch).q 3 = restoreQueue (vget e.arch.q 3) := Vector.getElem_map _ _
    rw [hmap, restoreQueue, hcoll]
    rfl
  constructor
  · rw [arch_restoreCore]; rfl
  · rw [arch_restoreCore]; rfl
  · rw [arch_restoreCore]; rfl
  · exact fun h => status_restoreCore h ctx now _ x
  · rw [arch_restoreCore]; exact hshadow
  · rw [arch_restoreCore]; exact hactive
  · rw [arch_restoreCore]; exact hq

/-- One core of an image restored. -/
def restoreStep (ctx prio : Nat) (s : State) (e : Nat × SavedCore) : State :=
  { modCore s e.1 (restoreCore ctx s.now (restoreArch prio s.freeCtr e.2.arch) e.2) with freeCtr := s.freeCtr + 12288 }

theorem getCore_restoreStep_other (ctx prio : Nat) (s : State) (e : Nat × SavedCore) {c : Nat} (h : e.1 ≠ c) :
    getCore (restoreStep ctx prio s e) c = getCore s c := getCore_modCore_other s _ h

theorem getCore_restoreSteps_other (ctx prio : Nat) {c : Nat} (l : List (Nat × SavedCore)) (s : State) (h : c ∉ l.map (·.1)) :
    getCore (l.foldl (restoreStep ctx prio) s) c = getCore s c := by
  induction l generalizing s with
  | nil => rfl
  | cons e l ih =>
    obtain ⟨hne, hrest⟩ := not_or.mp (mt List.mem_cons.mpr h)
    exact (ih _ hrest).trans (getCore_restoreStep_other ctx prio s e (Ne.symm hne))

/-- Every core of an image without loaded buffers and collectives is restored. -/
theorem restored_restoreSteps (ctx prio : Nat) {l : List (Nat × SavedCore)} (hn : (l.map (·.1)).Nodup) (hempty : ∀ e ∈ l, restsEmpty e.2)
    (s : State) {e : Nat × SavedCore} (he : e ∈ l) : Restored e.2 (getCore (l.foldl (restoreStep ctx prio) s) e.1) := by
  induction l generalizing s with
  | nil => exact absurd he List.not_mem_nil
  | cons d l ih =>
    obtain ⟨hd, hl⟩ := List.nodup_cons.mp hn
    rcases List.mem_cons.mp he with rfl | hmem
    · have hcore : getCore (restoreStep ctx prio s e) e.1 = restoreCore ctx s.now (restoreArch prio s.freeCtr e.2.arch) e.2 (getCore s e.1) :=
        getCore_modCore_same s e.1 _
      rw [List.foldl_cons, getCore_restoreSteps_other ctx prio l _ hd, hcore]
      exact restored_restoreCore (hempty e he) ctx s.now prio s.freeCtr _
    · exact ih hl (fun d hd => hempty d (List.mem_cons_of_mem _ hd)) _ hmem

/-- Restoring a gang ends with the cores of its image. -/
theorem restoreGang_eq (s : State) (g : Gang) (m : Image) :
    ∃ s2, restoreGang s g m = m.cores.foldl (restoreStep g.ctx (curPrio (getBlock s g.ctx))) s2 := ⟨_, rfl⟩

/-- A buffer that holds nothing. -/
def emptyBuf : WeightBuf := { WeightBuf.reset with loaded := false }

/-- An anvil whose buffers hold nothing. -/
def emptied (v : Anvil) : Anvil := { v with shadow := emptyBuf, active := emptyBuf }

theorem reloadBuf_empty (x : EngRun) {w : WeightBuf} (h : w.loaded = false) : reloadBuf x w = (emptyBuf, x) := by
  rw [reloadBuf, if_neg (by rw [h]; decide)]
  rfl

theorem reloadCore_empty {x : EngRun} {c : Nat} (hs : (getCore x.st c).arch.anv.shadow.loaded = false)
    (ha : (getCore x.st c).arch.anv.active.loaded = false) :
    (reloadCore x c).held = x.held ∧ (reloadCore x c).st = modAnvOf x.st c emptied := by
  rw [reloadCore, reloadBuf_empty _ hs]
  dsimp only
  rw [reloadBuf_empty _ ha]
  exact ⟨rfl, rfl⟩

theorem Restored.emptied {e : SavedCore} {y : Core} (h : Restored e y) : Restored e { y with arch := { y.arch with anv := Proofs.emptied y.arch.anv } } :=
  { g := h.g, cyc := h.cyc, pc := h.pc, status := h.status, shadow := rfl, active := rfl, collectives := h.collectives }

/-- Reloading cores without loaded buffers holds nothing back. -/
theorem reloadCores_empty {m : List (Nat × SavedCore)} (l : List Nat) (x : EngRun) (hm : ∀ c ∈ l, ∃ e ∈ m, e.1 = c) (hx : x.held = false)
    (h : ∀ e ∈ m, Restored e.2 (getCore x.st e.1)) :
    (l.foldl reloadCore x).held = false ∧ ∀ e ∈ m, Restored e.2 (getCore (l.foldl reloadCore x).st e.1) := by
  induction l generalizing x with
  | nil => exact ⟨hx, h⟩
  | cons c l ih =>
    obtain ⟨d, hd, rfl⟩ := hm c List.mem_cons_self
    obtain ⟨hheld, hst⟩ := reloadCore_empty (h d hd).shadow (h d hd).active
    refine ih _ (fun c hc => hm c (List.mem_cons_of_mem _ hc)) (hheld.trans hx) fun e he => ?_
    rw [hst, modAnvOf]
    by_cases hde : d.1 = e.1
    · rw [hde, getCore_modCore_same]
      exact (h e he).emptied
    · rw [getCore_modCore_other _ _ hde]
      exact h e he

theorem formHeld_empty {s : State} {c : Nat} (h : (coreQueue s c 3).cmds = []) : formHeld s c = s := by rw [formHeld, h]

theorem resultHeld_empty {s : State} {c : Nat} (h : (coreQueue s c 3).cmds = []) : resultHeld s c = false := by rw [resultHeld, h]

theorem formHelds_empty {s : State} {l : List Nat} (h : ∀ c ∈ l, (coreQueue s c 3).cmds = []) : l.foldl formHeld s = s := by
  induction l with
  | nil => rfl
  | cons c l ih =>
    rw [List.foldl_cons, formHeld_empty (h c List.mem_cons_self)]
    exact ih fun d hd => h d (List.mem_cons_of_mem _ hd)

/-- Core `x` runs, from an implicit checkpoint. -/
def runCore (now : Nat) (x : Core) : Core :=
  { x with status := if x.status = .stopped then .bound else x.status, ck := x.arch, jn := { x.jn with periodAt := now } }

theorem status_runCore {now : Nat} {x : Core} (h : x.status = .stopped ∨ x.status = .bound) : (runCore now x).status = .bound := by
  rcases h with h | h <;> rw [runCore, h] <;> rfl

/-- Members that run keep their architectural state, and those that stood are bound. -/
theorem runMembers_core (l : List Nat) (s : State) (c : Nat) :
    (getCore (l.foldl (fun s c => modCore s c (runCore s.now)) s) c).arch = (getCore s c).arch ∧
      ((getCore s c).status = .bound ∨ c ∈ l ∧ (getCore s c).status = .stopped →
        (getCore (l.foldl (fun s c => modCore s c (runCore s.now)) s) c).status = .bound) := by
  induction l generalizing s with
  | nil => exact ⟨rfl, fun h => h.resolve_right fun h => absurd h.1 List.not_mem_nil⟩
  | cons d l ih =>
    obtain ⟨harch, hstatus⟩ := ih (modCore s d (runCore s.now))
    rw [List.foldl_cons]
    by_cases hd : d = c
    · subst hd
      rw [getCore_modCore_same] at harch hstatus
      exact ⟨harch, fun h => hstatus (.inl (status_runCore (h.elim .inr fun h => .inl h.2)))⟩
    · rw [getCore_modCore_other _ _ hd] at harch hstatus
      exact ⟨harch, fun h => hstatus (h.imp_right fun h => ⟨(List.mem_cons.mp h.1).resolve_left (Ne.symm hd), h.2⟩)⟩

/-- The last step of a resumption without buffers to reload and results to form: the members run. -/
theorem finishResume_empty {s : State} {g : Gang} {m : List (Nat × SavedCore)} (hcores : m.map (·.1) = gangCores g)
    (h : ∀ e ∈ m, Restored e.2 (getCore s e.1)) :
    ∃ s1 s2, (∀ e ∈ m, Restored e.2 (getCore s1 e.1)) ∧ TaskStep (setGang s1 { g with st := .running }) s2 ∧
      finishResume s g false = addTodo (setState (runMembers s2 g) g.ctx stRunning) (gangCores g) := by
  have hlisted : ∀ c ∈ gangCores g, ∃ e ∈ m, e.1 = c := fun c hc => List.mem_map.mp (hcores ▸ hc)
  obtain ⟨hheld, hres⟩ := reloadCores_empty (m := m) (gangCores g) (EngRun.start s (4 * nthD g.quads 0 0) 0 []) hlisted rfl h
  generalize hx : (gangCores g).foldl reloadCore (EngRun.start s (4 * nthD g.quads 0 0) 0 []) = x at hheld hres
  have hx' : (if false = true then [] else gangCores g).foldl reloadCore (EngRun.start s (4 * nthD g.quads 0 0) 0 []) = x := hx
  have hcoll : ∀ c ∈ gangCores g, (coreQueue x.st c 3).cmds = [] := by
    intro c hc
    obtain ⟨e, he, rfl⟩ := hlisted c hc
    exact (hres e he).collectives
  have hany : (gangCores g).any (resultHeld x.st) = false :=
    List.any_eq_false.mpr fun c hc => by rw [resultHeld_empty (hcoll c hc)]; decide
  refine ⟨x.st, _, hres, TaskStep.foldl (fun s c => taskStep_serveAnvil c s) (gangCores g) _, ?_⟩
  rw [finishResume]
  dsimp only
  rw [hx', hheld, if_neg Bool.false_ne_true, formHelds_empty hcoll, hany, if_neg Bool.false_ne_true]

theorem gangs_runMembers (l : List Nat) (s : State) : (l.foldl (fun s c => modCore s c (runCore s.now)) s).hub.gangs = s.hub.gangs := by
  induction l generalizing s with
  | nil => rfl
  | cons c l ih => exact ih (modCore s c (runCore s.now))

/-- What a gang is after its resumption (R315, R359). -/
theorem resumed_claim {s : State} {g : Gang} {m : List (Nat × SavedCore)} (hcores : m.map (·.1) = gangCores g)
    (h : ∀ e ∈ m, Restored e.2 (getCore s e.1)) :
    gangAt (finishResume s g false) g.ctx { g with st := .running } ∧
      ∀ e ∈ m, (coreArch (finishResume s g false) e.1).regs.g = e.2.arch.regs.g ∧
        (coreArch (finishResume s g false) e.1).csr.cyc = e.2.arch.csr.cyc ∧ (coreArch (finishResume s g false) e.1).seq.pc = e.2.arch.seq.pc ∧
        (e.2.status = .bound ∨ e.2.status = .stopped → (getCore (finishResume s g false) e.1).status = .bound) := by
  obtain ⟨s1, s2, hres, hserve, heq⟩ := finishResume_empty hcores h
  rw [heq]
  have hcore : ∀ c, getCore (addTodo (setState (runMembers s2 g) g.ctx stRunning) (gangCores g)) c =
      getCore ((gangCores g).foldl (fun s c => modCore s c (runCore s.now)) s2) c := fun _ => rfl
  constructor
  · refine ⟨?_, rfl⟩
    have hgangs : (addTodo (setState (runMembers s2 g) g.ctx stRunning) (gangCores g)).hub.gangs = s2.hub.gangs :=
      gangs_runMembers (gangCores g) s2
    rw [getGang, hgangs]
    exact (hserve.getGang g.ctx).trans (getGang_setGang_same s1 { g with st := .running })
  · intro e he
    have htask : SameTask (getCore s1 e.1) (getCore s2 e.1) := hserve.task e.1
    obtain ⟨harch, hstatus⟩ := runMembers_core (gangCores g) s2 e.1
    have hr := hres e he
    rw [coreArch, hcore, harch, htask.regs, htask.csr, htask.seq]
    refine ⟨hr.g, hr.cyc, hr.pc, fun hst => hstatus (.inr ⟨?_, htask.status.trans (hr.status hst)⟩)⟩
    rw [← hcores]
    exact List.mem_map_of_mem he

theorem exec_gangResume_unmeasured {s : State} {ctx t : Nat} {g : Gang} {m : Image} (hg : gangAt s ctx g) (hst : g.st = .resuming t)
    (hm : g.image = some m) (ht : t ≤ s.now) (h : measuredRight s ctx g.recIx = false) :
    exec (.gangResume { ctx := ctx, intact := true }) s = .next (endGangAll s g 0x82) := by
  show execGangResume _ s = _
  rw [execGangResume]
  dsimp only
  rw [hg.1]
  dsimp only
  rw [hst, hm]
  dsimp only
  rw [if_pos ht, h]
  rfl

theorem exec_gangResume_stale {s : State} {ctx t : Nat} {g : Gang} {m : Image} (hg : gangAt s ctx g) (hst : g.st = .resuming t)
    (hm : g.image = some m) (ht : t ≤ s.now) (h : measuredRight s ctx g.recIx = true) (hv : m.version ≠ g.saves) :
    exec (.gangResume { ctx := ctx, intact := true }) s = .next (endGangAll s g 0x36) := by
  have hstale : (!true || decide (m.version ≠ g.saves)) = true := decide_eq_true hv
  show execGangResume _ s = _
  rw [execGangResume]
  dsimp only
  rw [hg.1]
  dsimp only
  rw [hst, hm]
  dsimp only
  rw [if_pos ht, h, if_neg (by decide), if_pos hstale]
  rfl

/-- A gang whose image is the latest resumes. -/
theorem exec_gangResume_latest {s : State} {ctx t : Nat} {g : Gang} {m : Image} (hg : gangAt s ctx g) (hst : g.st = .resuming t)
    (hm : g.image = some m) (ht : t ≤ s.now) (h : measuredRight s ctx g.recIx = true) (hv : m.version = g.saves) :
    exec (.gangResume { ctx := ctx, intact := true }) s =
      .next (finishResume (setGang (restoreGang s g m) { g with st := .restored false s.now, image := none })
        { g with st := .restored false s.now, image := none } false) := by
  have hlatest : ¬ (!true || decide (m.version ≠ g.saves)) = true := by rw [decide_eq_false (not_not.mpr hv)]; decide
  show execGangResume _ s = _
  rw [execGangResume]
  dsimp only
  rw [hg.1]
  dsimp only
  rw [hst, hm]
  dsimp only
  rw [if_pos ht, h, if_neg (by decide), if_neg hlatest]

theorem resume_claim {s : State} {ctx t : Nat} {g : Gang} {m : Image} (hg : gangAt s ctx g) (hst : g.st = .resuming t)
    (hm : g.image = some m) (ht : t ≤ s.now) (hright : measuredRight s ctx g.recIx = true) (hcores : m.cores.map (·.1) = gangCores g)
    (hn : (gangCores g).Nodup) (hv : m.version = g.saves)
    (hempty : ∀ e ∈ m.cores, e.2.arch.anv.shadow.loaded = false ∧ e.2.arch.anv.active.loaded = false ∧ (vget e.2.arch.q 3).cmds = []) :
    ∃ u h, exec (.gangResume { ctx := ctx, intact := true }) s = .next u ∧ gangAt u ctx h ∧ h.st = .running ∧ h.image = none ∧
      (∀ e ∈ m.cores, (coreArch u e.1).regs.g = e.2.arch.regs.g ∧ (coreArch u e.1).csr.cyc = e.2.arch.csr.cyc ∧
        (coreArch u e.1).seq.pc = e.2.arch.seq.pc ∧ (e.2.status = .bound ∨ e.2.status = .stopped → (getCore u e.1).status = .bound)) := by
  obtain ⟨hget, rfl⟩ := hg
  obtain ⟨s2, hrestore⟩ := restoreGang_eq s g m
  have hres : ∀ e ∈ m.cores, Restored e.2
      (getCore (setGang (restoreGang s g m) { g with st := .restored false s.now, image := none }) e.1) := by
    intro e he
    have h := restored_restoreSteps g.ctx (curPrio (getBlock s g.ctx)) (hcores ▸ hn) hempty s2 he
    rw [← hrestore] at h
    exact h
  obtain ⟨hgang, hmembers⟩ := resumed_claim (g := { g with st := .restored false s.now, image := none }) hcores hres
  exact ⟨_, _, exec_gangResume_latest ⟨hget, rfl⟩ hst hm ht hright hv, hgang, rfl, rfl, hmembers⟩

/-! The end of a gang. -/

/-- Steps in which gangs, requests, replies and the time stand. -/
structure RingsStep (s t : State) : Prop extends Canon s t where
  gangs : t.hub.gangs = s.hub.gangs
  reqs : t.hub.reqs = s.hub.reqs
  replies : t.hub.replies = s.hub.replies
  now : t.now = s.now

section
variable {s t u : State}

theorem RingsStep.refl (s : State) : RingsStep s s := ⟨Canon.refl s, rfl, rfl, rfl, rfl⟩

theorem RingsStep.trans (h : RingsStep s t) (k : RingsStep t u) : RingsStep s u :=
  ⟨h.toCanon.trans k.toCanon, k.gangs.trans h.gangs, k.reqs.trans h.reqs, k.replies.trans h.replies, k.now.trans h.now⟩

theorem RingsStep.foldl {α : Type} {f : State → α → State} (h : ∀ s x, RingsStep s (f s x)) (l : List α) (s : State) :
    RingsStep s (l.foldl f s) := by
  induction l generalizing s with
  | nil => exact RingsStep.refl s
  | cons x l ih => exact (h s x).trans (ih (f s x))

theorem WindowStep.ringsStep (h : WindowStep s t) : RingsStep s t := ⟨h.toCanon, h.gangs, h.reqs, h.replies, h.now⟩

end

/-- A core without instruction memory. -/
def wiped (x : Core) : Core := { x with imem := [], covered := [], loadedFor := none }

theorem windowStep_remapAll (s : State) (g : Gang) : WindowStep s (remapAll s g) := by
  unfold remapAll
  refine WindowStep.foldl (fun s (e : Nat × Nat) => WindowStep.trans ?_ (windowStep_modQuad _ e.1 (fun x => { x with site := e.2 }))) _ s
  exact WindowStep.foldl (f := fun (s : State) (c : Nat) => modCore s c wiped) (fun s c => windowStep_modCore s c wiped) (range' (4 * e.1) 4) s

theorem ringsStep_releaseQuads (s : State) (g : Gang) : RingsStep s (releaseQuads s g) := by
  have hquad : ∀ (p : Prop) [Decidable p] (s : State) (q : Nat),
      WindowStep s (if p then gateQuad (drainQuad (dropWindows s q (fun w => !w.byCp)) q) q else drainQuad (dropWindows s q (fun w => !w.byCp)) q) := by
    intro p _ s q
    have hdrain := (windowStep_dropWindows s q (fun w => !w.byCp)).trans (windowStep_drainQuad _ q)
    exact WindowStep.ite (hdrain.trans (windowStep_gateQuad _ q)) hdrain
  unfold releaseQuads
  refine RingsStep.trans (WindowStep.ringsStep ((WindowStep.foldl (fun s q => ?_) _ s).trans (windowStep_remapAll _ g)))
    ⟨canon_of_eq rfl rfl rfl rfl, rfl, rfl, rfl, rfl⟩
  exact WindowStep.ite (hquad _ s q) (WindowStep.refl s)

theorem settleAll_settled {s : State} (g : Gang) (h : s.hub.unsettled = []) : RingsStep s (settleAll s g) := by
  have heq : settleAll s g = { s with hub := { s.hub with unsettled := [] } } := by
    simp only [settleAll, h, List.filter_nil, List.foldl_nil]
  rw [heq]
  exact ⟨canon_of_eq rfl rfl rfl rfl, rfl, rfl, rfl, rfl⟩

theorem ringsStep_dropRegistrations (s : State) (f : Nat) : RingsStep s (dropRegistrations s f) := by
  unfold dropRegistrations
  refine RingsStep.trans ?_ (WindowStep.foldl windowStep_dropChunk _ _).ringsStep
  exact (homeStep_dies s _).windowStep.ringsStep

theorem ringsStep_clearFrame (s : State) (f : Nat) : RingsStep s (clearFrame s f) where
  memories h := by
    rw [memoriesOk, Bool.and_eq_true] at h ⊢
    exact ⟨h.1, memWf_memClear h.2 _ _⟩
  lines h := by
    rw [linesOk, Bool.and_eq_true] at h ⊢
    exact ⟨alWf_filter 0 h.1 _, alWf_filter false h.2 _⟩
  gangs := rfl
  reqs := rfl
  replies := rfl
  now := rfl

theorem ringsStep_scrubFrame (s : State) (f : Nat) : RingsStep s (scrubFrame s f) := by
  unfold scrubFrame
  refine RingsStep.trans ((ringsStep_dropRegistrations s f).trans (ringsStep_clearFrame _ f)) ?_
  exact ⟨canon_of_eq rfl rfl rfl rfl, rfl, rfl, rfl, rfl⟩

theorem ringsStep_scrubMarked (s : State) : RingsStep s (scrubMarked s) :=
  RingsStep.foldl (f := fun (s : State) (e : Nat × Frame) => scrubFrame s e.1) (fun s e => ringsStep_scrubFrame s e.1) _ s

/-- The versions and the staged images after a launch. -/
theorem ringsStep_restage (s : State) (g : Gang) : RingsStep s (restage (stepVersions s g) g) :=
  ⟨canon_of_eq rfl rfl rfl rfl, rfl, rfl, rfl, rfl⟩

theorem ringsStep_warmFrames (s : State) (ctx : Nat) : RingsStep s (warmFrames s ctx) := ⟨canon_of_eq rfl rfl rfl rfl, rfl, rfl, rfl, rfl⟩

/-- What a gang's completion does before its request goes on. -/
def settled (s : State) (g : Gang) : State :=
  scrubMarked (warmFrames (delGang (releaseQuads (restage (stepVersions (settleAll s g) g) g) g) g.ctx) g.ctx)

theorem settled_frame {s : State} (g : Gang) (h : s.hub.unsettled = []) : (settled s g).hub.gangs = alDel s.hub.gangs g.ctx ∧
    (settled s g).hub.reqs = s.hub.reqs ∧ (settled s g).hub.replies = s.hub.replies ∧ (settled s g).now = s.now := by
  have hleft := ((settleAll_settled g h).trans (ringsStep_restage _ g)).trans (ringsStep_releaseQuads _ g)
  unfold settled
  generalize releaseQuads (restage (stepVersions (settleAll s g) g) g) g = s3 at hleft
  have hmark := (ringsStep_warmFrames (delGang s3 g.ctx) g.ctx).trans (ringsStep_scrubMarked _)
  exact ⟨hmark.gangs.trans (congrArg (alDel · g.ctx) hleft.gangs), hmark.reqs.trans hleft.reqs, hmark.replies.trans hleft.replies,
    hmark.now.trans hleft.now⟩

theorem gangs_endRequest (s : State) (ctx ix status code rank : Nat) (path : List Nat) :
    (endRequest s ctx ix status code rank path).hub.gangs = s.hub.gangs := by
  cases h : reqOf s ctx ix with
  | some r => exact (endRequest_claim h status code rank path).2.1
  | none =>
    have h1 : reqOf (unaged s ctx) ctx ix = none := h
    rw [endRequest]
    show (nextRequest (match reqOf (unaged s ctx) ctx ix with | some r => _ | none => unaged s ctx) ctx).hub.gangs = _
    rw [h1]
    exact (nextRequest_frame (unaged s ctx) ctx).2.1

theorem gangs_afterLaunch (s : State) (g : Gang) (code : Nat) : (afterLaunch s g code).hub.gangs = s.hub.gangs := by
  unfold afterLaunch
  split
  · exact gangs_endRequest _ _ _ _ _ _ _
  · dsimp only
    generalize (if recDyn g.record = true then code else recNext g.record) = next
    split
    · exact gangs_endRequest _ _ _ _ _ _ _
    · split
      · exact gangs_endRequest _ _ _ _ _ _ _
      · rfl

/-- The reply of a request that has ended well. -/
theorem makeReply_result (s : State) (r : Request) (path : List Nat) : (makeReply s r 0 0 0 path).1.req = r ∧
    (makeReply s r 0 0 0 path).1.since = s.now ∧ ((makeReply s r 0 0 0 path).1.status = 0 ∨ (makeReply s r 0 0 0 path).1.status = 2) := by
  unfold makeReply
  rw [if_neg (by decide), if_neg (by decide)]
  dsimp only
  split
  · exact ⟨rfl, rfl, .inr rfl⟩
  · exact ⟨rfl, rfl, .inl rfl⟩

/-- A launch at the end of its route. -/
theorem afterLaunch_last {s : State} {g : Gang} (code : Nat) (hc : g.cause = none) (hd : recDyn g.record = false) (hn : recNext g.record = 0xFFFF) :
    afterLaunch s g code = endRequest s g.ctx g.ix 0 0 0 g.path := by
  rw [afterLaunch, hc]
  dsimp only
  rw [if_neg (show ¬ recDyn g.record = true by rw [hd]; decide), hn]
  exact if_pos rfl

theorem exec_gangCompletion {s : State} {g : Gang} (hg : getGang s g.ctx = some g) (hd : gangDone s g = true)
    (hw : ∀ q ∈ g.quads, (getQuad s q).windows = []) (ha : flushAskable s g = true) (hx : s.hub.xfers = []) :
    exec (.gangCompletion g.ctx) s = .next (wakeDeferred (afterLaunch (settled s g) g (exitCode s g))) := by
  have hflush : (if g.image.isSome = true then (true, s) else flushGang s g) = (true, s) := by
    rw [flushGang_clean hw ha]
    exact ite_self _
  have hsends : ((gangCores g).any (fun c => decide ((getCore s c).gang = some g.ctx) && sendsPending s c)) = false :=
    List.any_eq_false.mpr fun c _ => by rw [sendsPending, hx, List.any_nil, Bool.and_false]; decide
  show execGangCompletion g.ctx s = _
  rw [execGangCompletion, hg]
  dsimp only
  rw [if_pos hd, hflush]
  dsimp only
  rw [hsends, if_neg (by decide)]
  rfl

theorem completion_claim {s : State} {ctx : Nat} {g : Gang} (hg : gangAt s ctx g) (hd : gangDone s g = true)
    (hw : ∀ q ∈ g.quads, (getQuad s q).windows = []) (ha : flushAskable s g = true) (hu : s.hub.unsettled = []) (hx : s.hub.xfers = []) :
    ∃ t, exec (.gangCompletion ctx) s = .next t ∧ t.hub.gangs = alDel s.hub.gangs ctx ∧
      (∀ r, g.cause = none → recDyn g.record = false → recNext g.record = 0xFFFF → reqOf s ctx g.ix = some r →
        t.hub.reqs = s.hub.reqs.erase r ∧
        ∃ d, t.hub.replies = s.hub.replies ++ [d] ∧ d.req = r ∧ d.since = s.now ∧ (d.status = 0 ∨ d.status = 2)) := by
  obtain ⟨hget, rfl⟩ := hg
  obtain ⟨hgangs, hreqs, hreplies, hnow⟩ := settled_frame g hu
  refine ⟨_, exec_gangCompletion hget hd hw ha hx, (gangs_afterLaunch _ g _).trans hgangs, fun r hc hdyn hnext hreq => ?_⟩
  rw [afterLaunch_last _ hc hdyn hnext]
  have hreq' : reqOf (settled s g) g.ctx g.ix = some r := by rw [reqOf, hreqs]; exact hreq
  obtain ⟨-, -, ereqs, ereplies⟩ := endRequest_claim hreq' 0 0 0 g.path
  obtain ⟨hreply, hsince, hstatus⟩ := makeReply_result (unaged (settled s g) g.ctx) r g.path
  exact ⟨ereqs.trans (congrArg (·.erase r) hreqs), _, ereplies.trans (congrArg (· ++ _) hreplies), hreply, hsince.trans hnow, hstatus⟩

/-! Ageing, gating and replies. -/

theorem ageing_claim {s : State} {ctx t : Nat} (h : headSince s ctx = some t) (ht : t + 9400000 ≤ s.now) :
    exec (.requestAgeing ctx) s = .next (setBlock s ctx (setBlkAged (getBlock s ctx) true)) := by
  show execRequestAgeing ctx s = _
  rw [execRequestAgeing, h]
  dsimp only
  rw [if_pos ht]

theorem wiped_foldl {l : List Nat} {s : State} {c : Nat}
    (h : c ∈ l ∨ (getCore s c).imem = [] ∧ (getCore s c).loadedFor = none) :
    (getCore (l.foldl (fun s c => modCore s c wiped) s) c).imem = [] ∧ (getCore (l.foldl (fun s c => modCore s c wiped) s) c).loadedFor = none := by
  induction l generalizing s with
  | nil => exact h.resolve_left List.not_mem_nil
  | cons d l ih =>
    refine ih ?_
    by_cases hd : d = c
    · subst hd
      rw [getCore_modCore_same]
      exact .inr ⟨rfl, rfl⟩
    · rw [getCore_modCore_other _ _ hd]
      exact h.imp_left fun hmem => (List.mem_cons.mp hmem).resolve_left (Ne.symm hd)

theorem stash_modCores (f : Core → Core) (l : List Nat) (s : State) : (l.foldl (fun s c => modCore s c f) s).stash = s.stash := by
  induction l generalizing s with
  | nil => rfl
  | cons c l ih => exact ih (modCore s c f)

/-- The state of a quad's world before the quad itself is left: windows and stash gone, the instruction memories empty. -/
def quadWiped (s : State) (q : Nat) : State :=
  let s2 := stashKeep (dropWindows s q (fun _ => true)) q (fun _ => false)
  (range' (4 * q) 4).foldl (fun s c => modCore s c wiped) { s2 with chunks := s2.chunks.filter (fun e => decide (e.1 / 65536 ≠ q)) }

theorem gateQuad_eq (s : State) (q : Nat) : gateQuad s q = modQuad (modQuad (quadWiped s q) q
    (fun x => { x with world := none, streams := [[], [], [], []] })) q (fun x => { x with power := .gated }) := rfl

theorem stash_quadWiped (s : State) (q : Nat) : (quadWiped s q).stash =
    (stashKeep (dropWindows s q (fun _ => true)) q (fun _ => false)).stash := stash_modCores wiped _ _

theorem gateQuad_claim (s : State) (q : Nat) : (getQuad (gateQuad s q) q).power = .gated ∧ (getQuad (gateQuad s q) q).world = none ∧
    (∀ c, c / 4 = q → (getCore (gateQuad s q) c).imem = [] ∧ (getCore (gateQuad s q) c).loadedFor = none) ∧
    (∀ a, a < 4194304 → memRead (gateQuad s q).stash (stashKey q a) = 0#8) := by
  rw [gateQuad_eq]
  refine ⟨?_, ?_, fun c hc => ?_, fun a ha => ?_⟩
  · rw [getQuad_modQuad_same]
  · rw [getQuad_modQuad_same, getQuad_modQuad_same]
  · have hmem : c ∈ range' (4 * q) 4 := by
      rw [mem_range']
      omega
    exact wiped_foldl (.inl hmem)
  · show memRead (quadWiped s q).stash _ = _
    have hkey : stashKey q a / 4194304 = q := by rw [stashKey]; omega
    rw [stash_quadWiped, memRead, stashKeep]
    exact alGet_filter_out _ _ _ fun x => by simp [hkey]

theorem powerGate_claim {s : State} {q : Nat} (hp : (getQuad s q).power ≠ .gated) (hb : (getQuad s q).busy = none)
    (ht : (getQuad s q).idleSince + 94000 ≤ s.now) (hh : heldForStopped s q = false) (hr : reservedFor s 16384 q = false) :
    ∃ t, exec (.quadPowerGate q) s = .next t ∧ (getQuad t q).power = .gated ∧ (getQuad t q).world = none ∧
      (∀ c, c / 4 = q → (getCore t c).imem = [] ∧ (getCore t c).loadedFor = none) ∧
      (∀ a, a < 4194304 → memRead t.stash (stashKey q a) = 0#8) := by
  have hbn : (getQuad s q).busy.isNone = true := by rw [hb]; rfl
  have hno : ∀ {b : Bool}, b = false → ¬ b = true := fun h => by rw [h]; decide
  exact ⟨gateQuad s q, congrArg Host.Outcome.next (if_pos ⟨hp, hbn, ht, hno hh, hno hr⟩), gateQuad_claim s q⟩

theorem takeSeq_some {s : State} {n : Nat} {x : Session} (h : getSession s n = some x) (hx : x.sq.out < 2 ^ 63) :
    takeSeq s n = (some x.sq.out, setSession s n { x with sq := { x.sq with out := x.sq.out + 1 } }) := by
  rw [takeSeq, h]
  dsimp only
  rw [SeqState.take, if_pos hx]

/-- A reply on a port with its link. -/
theorem sendReply_linked {s t : State} {r : ReplyDue} {n : Nat} (h : takeSeq s r.req.session = (some n, t))
    (hl : t.edge.links.getLsbD r.req.port = true) : sendReply s r =
      sendFrame t r.req.port r.cls r.req.ctx r.req.session r.req.rid n r.status (modIdent t) r.body (replyWay t r.req.port r.req.origin) := by
  rw [sendReply, h]
  exact if_pos hl

/-- A reply held for a port without its link. -/
theorem sendReply_unlinked {s t : State} {r : ReplyDue} {n : Nat} (h : takeSeq s r.req.session = (some n, t))
    (hl : t.edge.links.getLsbD r.req.port = false) : (sendReply s r).hub = t.hub ∧ (sendReply s r).edge.outbox = t.edge.outbox ∧
      ∃ d, (sendReply s r).edge.held = t.edge.held ++ [d] ∧ d.port = r.req.port ∧ d.since = t.now := by
  have hno : ¬ t.edge.links.getLsbD r.req.port = true := by rw [hl]; decide
  rw [sendReply, h]
  dsimp only
  rw [if_neg hno]
  exact ⟨rfl, rfl, _, rfl, rfl, rfl⟩

theorem reply_claim {s : State} {ctx : Nat} {r : ReplyDue} {x : Session} (hr : dueReply s ctx = some r)
    (hx : getSession s r.req.session = some x) (hout : x.sq.out < 2 ^ 63) :
    ∃ t, exec (.reply ctx) s = .next t ∧ t.hub.replies = s.hub.replies.erase r ∧
      (s.edge.links.getLsbD r.req.port = true → ∃ at_ way, s.now ≤ at_ ∧ way.ethDst = r.req.origin.mac ∧ way.tag = r.req.origin.tag ∧
        way.ipSrc = r.req.origin.dst ∧ way.ipDst = r.req.origin.src ∧ way.udpSrc = 47334 ∧ way.udpDst = r.req.origin.udp.toNat ∧
        sends s t (.frame r.req.port r.cls r.req.ctx r.req.session r.req.rid x.sq.out r.status (modIdent s) r.body way at_)) ∧
      (s.edge.links.getLsbD r.req.port = false → t.edge.outbox = s.edge.outbox ∧ ∃ h, t.edge.held = s.edge.held ++ [h] ∧
        h.port = r.req.port ∧ h.since = s.now) := by
  have hseq := takeSeq_some (s := { s with hub := { s.hub with replies := s.hub.replies.erase r } }) (n := r.req.session) hx hout
  have hexec : exec (.reply ctx) s = .next (sendReply { s with hub := { s.hub with replies := s.hub.replies.erase r } } r) := by
    show execReply ctx s = _
    rw [execReply, hr]
  refine ⟨_, hexec, ?_⟩
  by_cases hl : s.edge.links.getLsbD r.req.port = true
  · rw [sendReply_linked hseq hl]
    refine ⟨rfl, fun _ => ⟨_, _, Nat.le_max_left _ _, rfl, rfl, rfl, rfl, rfl, rfl, rfl⟩, fun h => ?_⟩
    rw [hl] at h
    exact nomatch h
  · obtain ⟨hhub, hout, hheld⟩ := sendReply_unlinked hseq (Bool.not_eq_true _ ▸ hl)
    exact ⟨(congrArg Hub.replies hhub).trans rfl, fun h => absurd h hl, fun _ => ⟨hout, hheld⟩⟩

/-- Settles O50: each event of a gang's life, from its members' stop to the reply that leaves. -/
theorem gangEvents : Obligations.GangEvents := by
  unfold Obligations.GangEvents
  intro s
  refine ⟨?_, ?_, ?_, ?_, ?_, ?_, ?_, ?_, ?_⟩
  · exact fun c d ctx g hb hr hm hc hg hsafe hd hdc hdb => stop_claim hb hr hm hc hg hsafe hd hdc hdb
  · exact fun c ctx g hst hc hg hs hr hw ha => save_claim hst hc hg hs hr hw ha
  · exact fun ctx g t m hg hst hm ht _ hright hcores hn hv hempty => resume_claim hg hst hm ht hright hcores hn hv hempty
  · exact fun ctx g t m hg hst hm ht => ⟨exec_gangResume_unmeasured hg hst hm ht, exec_gangResume_stale hg hst hm ht⟩
  · exact fun ctx g hg hd hw ha hu hx => completion_claim hg hd hw ha hu hx
  · exact fun ctx t h ht => ageing_claim h ht
  · exact fun q hp hb ht hh hr => powerGate_claim hp hb ht hh hr
  · exact fun ctx r x hr hx hout => reply_claim hr hx hout
  · exact fun port => ⟨_, rfl, rfl, rfl, rfl⟩

end Sys2Proof.Proofs
end

section
/-! PROOF. Lines of far memory: what a write at the home leaves, when it merges and when it finds the line failed, and the writeback of a
chunk that holds the line (R204, R210, R321 to R323, R360). -/

namespace Sys2Proof.Proofs

open Sys2Proof.Machine Sys2Proof.Claims Sys2Proof.Laws

/-- The lines, their marks and their holders stand: tokens, the L2, the clock of accesses, the cores and the edge may have changed. -/
structure SameLines (s t : State) : Prop where
  eq : { t with dies := s.dies, clock := s.clock, cores := s.cores, edge := s.edge } = s
  dir : ∀ n, (getDie t n).dir = (getDie s n).dir

section
variable {s t u : State}

theorem SameLines.refl (s : State) : SameLines s s := ⟨rfl, fun _ => rfl⟩

theorem SameLines.trans (h : SameLines s t) (k : SameLines t u) : SameLines s u where
  eq := (congrArg (fun a : State => { a with dies := s.dies, clock := s.clock, cores := s.cores, edge := s.edge }) k.eq).trans h.eq
  dir n := (k.dir n).trans (h.dir n)

theorem SameLines.stash (h : SameLines s t) : t.stash = s.stash := (congrArg State.stash h.eq :)
theorem SameLines.far (h : SameLines s t) : t.far = s.far := (congrArg State.far h.eq :)
theorem SameLines.chunks (h : SameLines s t) : t.chunks = s.chunks := (congrArg State.chunks h.eq :)
theorem SameLines.quads (h : SameLines s t) : t.quads = s.quads := (congrArg State.quads h.eq :)
theorem SameLines.hub (h : SameLines s t) : t.hub = s.hub := (congrArg State.hub h.eq :)
theorem SameLines.bad (h : SameLines s t) : t.bad = s.bad := (congrArg State.bad h.eq :)
theorem SameLines.lineVer (h : SameLines s t) : t.lineVer = s.lineVer := (congrArg State.lineVer h.eq :)
theorem SameLines.frames (h : SameLines s t) : t.frames = s.frames := (congrArg State.frames h.eq :)
theorem SameLines.now (h : SameLines s t) : t.now = s.now := (congrArg State.now h.eq :)

theorem SameLines.registered (h : SameLines s t) (pa : Nat) : registered t pa = registered s pa := by
  rw [Machine.registered, Machine.registered, h.dir]

theorem SameLines.getChunk (h : SameLines s t) (key : Nat) : getChunk t key = getChunk s key := by
  rw [Machine.getChunk, Machine.getChunk, h.chunks]

theorem SameLines.chunkGang (h : SameLines s t) (key : Nat) : chunkGang t key = chunkGang s key := by
  unfold Machine.chunkGang Machine.getQuad Machine.getGang
  rw [h.quads, h.hub]

theorem SameLines.isBad (h : SameLines s t) (pa : Nat) : isBad t pa = isBad s pa := by rw [Machine.isBad, Machine.isBad, h.bad]

end

theorem TokenStep.sameLines {s t : State} (h : TokenStep s t) : SameLines s t :=
  ⟨congrArg (fun a : State => { a with clock := s.clock, cores := s.cores, edge := s.edge }) h.eq, h.dir⟩

theorem sameLines_stamped (s : State) (n : Nat) : SameLines s (stamped s n) := ⟨rfl, fun _ => rfl⟩

/-! What a line's version hangs on. -/

/-- The buffers, blocks and pages that the version of a line hangs on stand. -/
structure SameBuffers (s t : State) : Prop where
  blocks : t.hub.blocks = s.hub.blocks
  segs : t.hub.segs = s.hub.segs
  buffers : t.hub.buffers = s.hub.buffers
  page : ∀ f, (t.frames.find? (fun e => e.1 = f)).map (fun e => e.2.page) = (s.frames.find? (fun e => e.1 = f)).map (fun e => e.2.page)

section
variable {s t u : State}

theorem SameBuffers.trans (h : SameBuffers s t) (k : SameBuffers t u) : SameBuffers s u :=
  ⟨k.blocks.trans h.blocks, k.segs.trans h.segs, k.buffers.trans h.buffers, fun f => (k.page f).trans (h.page f)⟩

theorem SameLines.sameBuffers (h : SameLines s t) : SameBuffers s t :=
  ⟨by rw [h.hub], by rw [h.hub], by rw [h.hub], fun f => by rw [h.frames]⟩

theorem vaOf_eq (s : State) (pa : Nat) : vaOf s pa =
    ((s.frames.find? (fun e => e.1 = frameOf pa)).map (fun e => e.2.page)).join.map (fun p => (p.1, p.2 * 2097152 + pa % 2097152)) := by
  unfold vaOf
  split
  · rename_i h
    rw [h]
    rfl
  · rename_i h
    rw [h]
    rfl

theorem SameBuffers.lineBuf (h : SameBuffers s t) (g : Option Gang) (pa : Nat) : lineBuf t g pa = lineBuf s g pa := by
  have hva : vaOf t pa = vaOf s pa := by rw [vaOf_eq, vaOf_eq, h.page]
  have hbufs : blockBufs t = blockBufs s := by
    funext ctx
    unfold blockBufs
    rw [h.blocks, h.segs]
  unfold Machine.lineBuf
  rw [hva, hbufs]

theorem SameBuffers.getBuf (h : SameBuffers s t) (n : Nat) : getBuf t n = getBuf s n := by rw [Machine.getBuf, Machine.getBuf, h.buffers]

theorem SameBuffers.writeVersion (h : SameBuffers s t) (g : Option Gang) (pa : Nat) : writeVersion t g pa = writeVersion s g pa := by
  unfold Machine.writeVersion
  rw [h.lineBuf]
  simp only [h.getBuf]

theorem SameBuffers.lineOpens (h : SameBuffers s t) (hv : t.lineVer = s.lineVer) (g : Option Gang) (pa : Nat) :
    lineOpens t g pa = lineOpens s g pa := by
  unfold Machine.lineOpens
  rw [hv, h.writeVersion, h.lineBuf]
  simp only [h.getBuf]

end

theorem SameLines.lineOpens {s t : State} (h : SameLines s t) (g : Option Gang) (pa : Nat) : lineOpens t g pa = lineOpens s g pa :=
  h.sameBuffers.lineOpens h.lineVer g pa

theorem SameLines.mergesAt {s t : State} (h : SameLines s t) {g : Option Gang} {pa : Nat} (hm : mergesAt s g pa) : mergesAt t g pa :=
  ⟨(h.isBad pa).trans hm.1, fun hh => (h.lineOpens g pa).trans (hm.2 hh)⟩

theorem SameLines.mergesAt_iff {s t : State} (h : SameLines s t) (g : Option Gang) (pa : Nat) : Claims.mergesAt t g pa ↔ Claims.mergesAt s g pa := by
  rw [Claims.mergesAt, Claims.mergesAt, h.isBad, h.lineOpens]

theorem SameLines.heldByte {s t : State} (h : SameLines s t) (pa key : Nat) (ch : Chunk) (i : Nat) :
    Claims.heldByte t pa key ch i = Claims.heldByte s pa key ch i := by
  rw [Claims.heldByte, Claims.heldByte, h.stash, h.far]

/-- A line sealed under the version of a gang's write opens for the gang. -/
theorem lineOpens_of_current {s : State} {g : Option Gang} {pa : Nat} (h : alGet 0 s.lineVer (pa / 64) = writeVersion s g pa)
    (hv : writeVersion s g pa < 2 ^ 32) : lineOpens s g pa = true := by
  have hbelow : versionBelow (writeVersion s g pa) (writeVersion s g pa) = writeVersion s g pa := by
    unfold versionBelow
    omega
  unfold lineOpens
  rw [h]
  simp only [hbelow, decide_true, Bool.true_and]
  split
  · simp
  · rfl

/-! A write at the home. -/

/-- Masked bytes of a run written one by one. -/
theorem memRead_maskedRun {m : Memory} (h : memWf m = true) (pa a : Nat) (mask : BitVec 64) (data : BitVec 512) (k n : Nat) :
    memRead ((range' k n).foldl (fun m i => if mask.getLsbD i then memWrite m (pa + i) (data.extractLsb' (8 * i) 8) else m) m) a =
      if pa + k ≤ a ∧ a < pa + k + n ∧ mask.getLsbD (a - pa) = true then data.extractLsb' (8 * (a - pa)) 8 else memRead m a := by
  induction n generalizing k m with
  | zero =>
    rw [if_neg (by omega)]
    rfl
  | succ n ih =>
    have hwf : memWf (if mask.getLsbD k then memWrite m (pa + k) (data.extractLsb' (8 * k) 8) else m) = true := by
      split
      · exact memWf_memWrite h _ _
      · exact h
    have hhead : memRead (if mask.getLsbD k then memWrite m (pa + k) (data.extractLsb' (8 * k) 8) else m) a =
        if pa + k = a ∧ mask.getLsbD k = true then data.extractLsb' (8 * k) 8 else memRead m a := by
      by_cases hk : mask.getLsbD k = true
      · rw [if_pos hk, memRead_memWrite h]
        simp only [hk, and_true]
      · rw [if_neg hk, if_neg fun h => hk h.2]
    rw [range', List.foldl_cons, ih hwf, hhead]
    by_cases ha : pa + k = a
    · subst ha
      rw [if_neg (by omega), Nat.add_sub_cancel_left]
      by_cases hk : mask.getLsbD k = true
      · rw [if_pos ⟨rfl, hk⟩, if_pos ⟨Nat.le_refl _, by omega, hk⟩]
      · rw [if_neg fun h => hk h.2, if_neg fun h => hk h.2.2]
    · rw [if_neg (show ¬ (pa + k = a ∧ mask.getLsbD k = true) from fun h => ha h.1)]
      by_cases hin : pa + (k + 1) ≤ a ∧ a < pa + (k + 1) + n ∧ mask.getLsbD (a - pa) = true
      · rw [if_pos hin, if_pos ⟨by omega, by omega, hin.2.2⟩]
      · rw [if_neg hin, if_neg fun h => hin ⟨by omega, by omega, h.2.2⟩]

theorem memRead_lineWritten {m : Memory} (h : memWf m = true) (pa a : Nat) (mask : BitVec 64) (data : BitVec 512) :
    memRead (lineWritten m pa mask data) a =
      if pa ≤ a ∧ a < pa + 64 ∧ mask.getLsbD (a - pa) = true then data.extractLsb' (8 * (a - pa)) 8 else memRead m a :=
  memRead_maskedRun h pa a mask data 0 64

/-! A write at the home. -/

/-- What a write at the home leaves of the holders of lines: chunks and directories stand. -/
structure SameHolders (s t : State) : Prop where
  chunks : t.chunks = s.chunks
  dir : ∀ n, (getDie t n).dir = (getDie s n).dir

section
variable {s t u : State}

theorem SameHolders.refl (s : State) : SameHolders s s := ⟨rfl, fun _ => rfl⟩

theorem SameHolders.trans (h : SameHolders s t) (k : SameHolders t u) : SameHolders s u :=
  ⟨k.chunks.trans h.chunks, fun n => (k.dir n).trans (h.dir n)⟩

theorem SameHolders.registered (h : SameHolders s t) (pa : Nat) : registered t pa = registered s pa := by
  rw [Machine.registered, Machine.registered, h.dir]

theorem SameHolders.getChunk (h : SameHolders s t) (key : Nat) : getChunk t key = getChunk s key := by
  rw [Machine.getChunk, Machine.getChunk, h.chunks]

end

/-- A state with the same dies and chunks. -/
theorem sameHolders_of_dies {s t : State} (hd : t.dies = s.dies) (hc : t.chunks = s.chunks) : SameHolders s t :=
  ⟨hc, fun n => by rw [getDie, getDie, hd]⟩

theorem sameHolders_touchL2 (s : State) (pa : Nat) : SameHolders s (touchL2 s pa) where
  chunks := by
    unfold touchL2
    split <;> rfl
  dir := dir_touchL2 s pa

theorem sameHolders_markBad (s : State) (pa : Nat) : SameHolders s (markBad s pa) := by
  refine sameHolders_of_dies ?_ ?_ <;> unfold markBad <;> split <;> rfl

theorem sameHolders_countSeal (s : State) (pa : Nat) : SameHolders s (countSeal s pa) := by
  have hseals : ∀ world, SameHolders s (countSeals s world 1) := by
    intro world
    refine sameHolders_of_dies ?_ ?_ <;> unfold countSeals <;> split <;> rfl
  unfold countSeal
  split
  · exact hseals _
  · exact SameHolders.refl s

theorem sameHolders_homeWrite (s : State) (g : Option Gang) (pa : Nat) (mask : BitVec 64) (data : BitVec 512) :
    SameHolders s (homeWrite s g pa mask data) := by
  have hopen : SameHolders s (openForMerge s g pa mask) := by
    unfold openForMerge
    split
    · exact sameHolders_markBad s pa
    · exact SameHolders.refl s
  rw [homeWrite_eq]
  generalize openForMerge s g pa mask = s1 at hopen
  split
  · exact hopen
  · split
    · refine hopen.trans ((SameHolders.trans ?_ (sameHolders_countSeal _ pa)).trans (sameHolders_touchL2 _ pa))
      exact sameHolders_of_dies rfl rfl
    · exact hopen.trans (sameHolders_of_dies rfl rfl)

section
variable {s : State} {g : Option Gang} {pa : Nat} {mask : BitVec 64} {data : BitVec 512}

theorem openForMerge_merges (h : mask = BitVec.allOnes 64 ∨ mergesAt s g pa) : openForMerge s g pa mask = s := by
  refine if_neg fun hc => ?_
  obtain ⟨hh, hm, ho⟩ := hc
  rcases h with h | h
  · exact hm h
  · rw [h.2 hh] at ho
    exact nomatch ho

/-- What a line of HBM sealed and touched leaves of memory, with the version it is sealed under. -/
theorem far_sealed (t : State) (g : Option Gang) (pa : Nat) : (touchL2 (countSeal (lineSealed t g pa) pa) pa).far = t.far ∧
    (touchL2 (countSeal (lineSealed t g pa) pa) pa).bad = t.bad ∧
    (touchL2 (countSeal (lineSealed t g pa) pa) pa).lineVer = alSet 0 t.lineVer (pa / 64) (writeVersion t g pa) := by
  have hseal : ∀ u : State, (countSeal u pa).far = u.far ∧ (countSeal u pa).bad = u.bad ∧ (countSeal u pa).lineVer = u.lineVer := by
    intro u
    unfold countSeal countSeals
    split
    · split <;> exact ⟨rfl, rfl, rfl⟩
    · exact ⟨rfl, rfl, rfl⟩
  have htouch : ∀ u : State, (touchL2 u pa).far = u.far ∧ (touchL2 u pa).bad = u.bad ∧ (touchL2 u pa).lineVer = u.lineVer := by
    intro u
    unfold touchL2
    split <;> exact ⟨rfl, rfl, rfl⟩
  obtain ⟨sfar, sbad, sver⟩ := hseal (lineSealed t g pa)
  obtain ⟨tfar, tbad, tver⟩ := htouch (countSeal (lineSealed t g pa) pa)
  exact ⟨tfar.trans sfar, tbad.trans sbad, tver.trans sver⟩

/-- A write of a whole line, or of bytes that can be merged, writes them and mends the line. -/
theorem homeWrite_merges (h : mask = BitVec.allOnes 64 ∨ mergesAt s g pa) :
    (homeWrite s g pa mask data).far = lineWritten s.far pa mask data ∧ (homeWrite s g pa mask data).bad = alSet false s.bad (pa / 64) false ∧
      (isHbm pa = true → (homeWrite s g pa mask data).lineVer = alSet 0 s.lineVer (pa / 64) (writeVersion s g pa)) := by
  have hno : ¬ (isBad s pa = true ∧ mask ≠ BitVec.allOnes 64) := by
    rintro ⟨hb, hm⟩
    rcases h with h | h
    · exact hm h
    · rw [h.1] at hb
      exact nomatch hb
  rw [homeWrite_eq, openForMerge_merges h, if_neg hno]
  split
  · obtain ⟨hfar, hbad, hver⟩ := far_sealed (lineStored s pa mask data) g pa
    exact ⟨hfar, hbad, fun _ => hver⟩
  · rename_i hh
    exact ⟨rfl, rfl, fun h => absurd h hh⟩

theorem memRead_homeWrite (h : mask = BitVec.allOnes 64 ∨ mergesAt s g pa) (hwf : memWf s.far = true) (a : Nat) :
    memRead (homeWrite s g pa mask data).far a =
      if pa ≤ a ∧ a < pa + 64 ∧ mask.getLsbD (a - pa) = true then data.extractLsb' (8 * (a - pa)) 8 else memRead s.far a := by
  rw [(homeWrite_merges h).1]
  exact memRead_lineWritten hwf pa a mask data

theorem isBad_homeWrite (h : mask = BitVec.allOnes 64 ∨ mergesAt s g pa) (hl : linesOk s = true) :
    isBad (homeWrite s g pa mask data) pa = false := by
  have hrising : alRising none s.bad = true := by
    rw [linesOk, Bool.and_eq_true, alWf, alWf, Bool.and_eq_true, Bool.and_eq_true] at hl
    exact hl.2.1
  rw [isBad, (homeWrite_merges h).2.1, alGet_alSet false hrising, if_pos rfl]

/-- A write of some bytes of a line that has failed, or that does not open, changes no byte: the line has failed. -/
theorem homeWrite_fails (hm : mask ≠ BitVec.allOnes 64) (h : ¬ mergesAt s g pa) :
    (homeWrite s g pa mask data).far = s.far ∧ isBad (homeWrite s g pa mask data) pa = true := by
  have hopen : (openForMerge s g pa mask).far = s.far ∧ isBad (openForMerge s g pa mask) pa = true := by
    unfold openForMerge
    split
    · refine ⟨?_, ?_⟩
      · unfold markBad
        split <;> rfl
      · exact (isBad_markBad s pa pa).trans (if_pos rfl)
    · rename_i hc
      refine ⟨rfl, by_contra fun hb => h ⟨Bool.not_eq_true _ ▸ hb, fun hh => by_contra fun ho => hc ⟨hh, hm, Bool.not_eq_true _ ▸ ho⟩⟩⟩
  rw [homeWrite_eq, if_pos ⟨hopen.2, hm⟩]
  exact hopen

end

/-! A read at the home. -/

section
variable {s : State} {g : Option Gang} {pa : Nat}

/-- A line that no chunk holds, read at its home. -/
theorem readLine_home (hr : registered s pa = none) (hm : mergesAt s g pa) : readLine s g pa = (homeBytes s pa, false) := by
  have hbad : (isBad s pa || (isHbm pa && !lineOpens s g pa)) = false := by
    rw [hm.1]
    cases hh : isHbm pa with
    | false => rfl
    | true => rw [hm.2 hh]; rfl
  rw [readLine, hr]
  dsimp only
  rw [hbad]

theorem readLine_held {key : Nat} (hr : registered s pa = some key) : readLine s g pa = (chunkBytes s key, chunkBad s key) := by
  rw [readLine, hr]

theorem homeBytes_closed (h : slotOpen s pa = false) : homeBytes s pa = memReadN s.far pa 64 := by
  rw [homeBytes, h, Bool.and_false]
  rfl

theorem noteRead_merges (hr : registered s pa = none) (hm : mergesAt s g pa) : noteRead s g pa = touchL2 s pa := by
  have hno : ¬ (isHbm pa = true ∧ ¬ lineOpens s g pa = true) := fun h => h.2 (hm.2 h.1)
  rw [noteRead, hr]
  dsimp only
  rw [if_neg hno]

theorem noteRead_held {key : Nat} (hr : registered s pa = some key) : noteRead s g pa = s := by rw [noteRead, hr]

theorem recallLine_home (hr : registered s pa = none) : recallLine s pa = s := by rw [recallLine, hr]

end

theorem sameLines_touchL2 (s : State) (pa : Nat) : SameLines s (touchL2 s pa) := by
  refine ⟨?_, dir_touchL2 s pa⟩
  unfold touchL2
  split <;> rfl

theorem sameLines_clock (s : State) (n : Nat) : SameLines s { s with clock := n } := ⟨rfl, fun _ => rfl⟩

theorem sameLines_nextStamp (s : State) : SameLines s (nextStamp s).2 := sameLines_clock s _

/-- Byte i of a line made of bytes. -/
theorem extract_lineOfBytes (bs : List Byte) {i : Nat} (hlen : bs.length ≤ 64) :
    (lineOfBytes bs).extractLsb' (8 * i) 8 = nthD bs i 0#8 := by
  have hlt : leNat bs < 2 ^ 512 :=
    (leNat_lt bs).trans_le ((Nat.pow_le_pow_right (by omega) hlen).trans (Nat.le_of_eq (Nat.pow_mul 2 8 64).symm))
  rw [← ofNat_div_eq_extract, lineOfBytes, bvOfBytes, BitVec.toNat_ofNat, Nat.mod_eq_of_lt hlt]
  have hbyte := getElem?_leBytes (leNat bs) bs.length i
  rw [leBytes_leNat] at hbyte
  rw [nthD, hbyte]
  by_cases h : i < bs.length
  · rw [if_pos h]
    rfl
  · have hle : 256 ^ bs.length ≤ 256 ^ i := Nat.pow_le_pow_right (by omega) (by omega)
    rw [if_neg h, Nat.div_eq_of_lt ((leNat_lt bs).trans_le hle)]
    rfl

/-! A line after a write at its home. -/

theorem find?_frames_page (l : List (Nat × Frame)) (f : Nat) : (l.find? (fun e => e.1 = f)).map (fun e => e.2.page) =
    ((l.map stillFrame).find? (fun e => e.1 = f)).map (fun e => e.2.page) := by
  rw [List.find?_map, Option.map_map]
  rfl

theorem HomeStep.sameBuffers {s t : State} (h : HomeStep s t) : SameBuffers s t where
  blocks := h.blocks
  segs := (congrArg Hub.segs h.hub :)
  buffers := (congrArg Hub.buffers h.hub :)
  page f := by rw [find?_frames_page, h.frames, ← find?_frames_page]

section
variable {s : State} {g : Option Gang} {pa : Nat} {mask : BitVec 64} {data : BitVec 512}

/-- A line written by a gang can be written by it again. -/
theorem mergesAt_homeWrite (h : mask = BitVec.allOnes 64 ∨ mergesAt s g pa) (hv : writeVersion s g pa < 2 ^ 32) (hl : linesOk s = true) :
    mergesAt (homeWrite s g pa mask data) g pa := by
  refine ⟨isBad_homeWrite h hl, fun hh => ?_⟩
  have hbufs := (homeStep_homeWrite s g pa mask data).sameBuffers
  have hrising : alRising none s.lineVer = true := by
    rw [linesOk, Bool.and_eq_true, alWf, alWf, Bool.and_eq_true, Bool.and_eq_true] at hl
    exact hl.1.1
  refine lineOpens_of_current ?_ (by rw [hbufs.writeVersion]; exact hv)
  rw [hbufs.writeVersion, (homeWrite_merges h).2.2 hh, alGet_alSet 0 hrising, if_pos rfl]

end

/-- What a merge hangs on. -/
theorem mergesAt_congr {s t : State} (hb : t.bad = s.bad) (hv : t.lineVer = s.lineVer) (h : SameBuffers s t) {g : Option Gang} {pa : Nat}
    (hm : mergesAt s g pa) : mergesAt t g pa :=
  ⟨by rw [isBad, hb]; exact hm.1, fun hh => (h.lineOpens hv g pa).trans (hm.2 hh)⟩

/-! The writeback of a line that a chunk holds. -/

theorem registered_unregister (s : State) (pa : Nat) : registered (unregister s pa) pa = none := by
  rw [registered, unregister, modDie, getDie_setDie_same, Option.map_eq_none_iff, List.find?_eq_none]
  intro e he
  have hne := (List.mem_filter.mp he).2
  exact fun h => (of_decide_eq_true hne) (of_decide_eq_true h)

/-- A line that a chunk of a gang holds in state D, given back to its home (R204). -/
structure GivenBack (s : State) (g : Option Gang) (pa key : Nat) (ch : Chunk) (t : State) : Prop where
  step : MemStep s t
  stash : t.stash = s.stash
  gave : gaveUp t pa key
  merges : mergesAt t g pa
  far : memWf t.far = true
  bytes : ∀ a, memRead t.far a = if pa ≤ a ∧ a < pa + 64 ∧ ch.mask.getLsbD (a - pa) = true then memRead s.stash (chunkBase key + (a - pa))
    else memRead s.far a

/-- Of a writeback nothing else is left than a line written at its home and a clean chunk. -/
theorem recallLine_held {s : State} {g : Option Gang} {pa key : Nat} {ch : Chunk} (hr : registered s pa = some key)
    (hc : getChunk s key = some ch) (hd : ch.dirty = true) (hg : chunkGang s key = g) :
    ∃ n s1, SameLines s s1 ∧ MemStep s s1 ∧ recallLine s pa = putChunk (unregister (homeWrite s1 g pa ch.mask (lineOfBytes (chunkBytes s1 key))) pa) key
      { dirty := false, stamp := n, mask := 0 } := by
  refine ⟨(nextStamp s).1, (nextStamp s).2, sameLines_nextStamp s, memStep_nextStamp s, ?_⟩
  rw [recallLine, hr]
  dsimp only
  rw [writebackChunk, hc]
  dsimp only
  rw [if_pos hd, (sameLines_nextStamp s).chunkGang, hg]

theorem givenBack_recallLine {s : State} {g : Option Gang} {pa key : Nat} {ch : Chunk} (hr : registered s pa = some key)
    (hc : getChunk s key = some ch) (hd : ch.dirty = true) (hg : chunkGang s key = g) (hm : mergesAt s g pa)
    (hv : writeVersion s g pa < 2 ^ 32) (hwf : memWf s.far = true) (hl : linesOk s = true) : GivenBack s g pa key ch (recallLine s pa) := by
  obtain ⟨n, s1, hsame, hmem, heq⟩ := recallLine_held hr hc hd hg
  have hm1 : mergesAt s1 g pa := hsame.mergesAt hm
  have hv1 : writeVersion s1 g pa < 2 ^ 32 := by rw [hsame.sameBuffers.writeVersion]; exact hv
  have hl1 : linesOk s1 = true := hmem.lines hl
  have hwf1 : memWf s1.far = true := by rw [hsame.far]; exact hwf
  have hlen : (chunkBytes s1 key).length ≤ 64 := Nat.le_of_eq (memReadN_length _ _ _)
  have hmerged := mergesAt_homeWrite (data := lineOfBytes (chunkBytes s1 key)) (mask := ch.mask) (.inr hm1) hv1 hl1
  have hread := memRead_homeWrite (data := lineOfBytes (chunkBytes s1 key)) (mask := ch.mask) (.inr hm1) hwf1
  have hwritten : memWf (homeWrite s1 g pa ch.mask (lineOfBytes (chunkBytes s1 key))).far = true := by
    rw [(homeWrite_merges (.inr hm1)).1]
    exact memWf_lineWritten hwf1 _ _ _
  have hstep := memStep_recallLine s pa
  have hstash := (homeStep_recallLine s pa).stash
  rw [heq] at hstep hstash ⊢
  generalize homeWrite s1 g pa ch.mask (lineOfBytes (chunkBytes s1 key)) = t at hmerged hread hwritten hstep hstash
  refine ⟨hstep, hstash, ⟨?_, n, getChunk_putChunk_same _ _ _⟩, mergesAt_congr rfl rfl ⟨rfl, rfl, rfl, fun _ => rfl⟩ hmerged, hwritten, fun a => ?_⟩
  · exact registered_unregister t pa
  · refine (hread a).trans ?_
    rw [hsame.far]
    by_cases h : pa ≤ a ∧ a < pa + 64 ∧ ch.mask.getLsbD (a - pa) = true
    · rw [if_pos h, if_pos h, extract_lineOfBytes _ hlen, nthD, chunkBytes, getElem?_memReadN, if_pos (by omega), hsame.stash]
      rfl
    · rw [if_neg h, if_neg h]

end Sys2Proof.Proofs
end

section
/-! PROOF. Far accesses at their homes: loads, stores and atomics of lines of this module, with the writebacks that they force, and the
transfers of those of peers (R204, R220, R224, R226, R228, R344, R360). -/

namespace Sys2Proof.Proofs

open Sys2Proof.Machine Sys2Proof.Claims Sys2Proof.Laws

/-! The tokens of an access. -/

section
variable {s u : State} {c ident : Nat} {l : Loc}

theorem takeWithRecalls_nil (h : takeToken s c ident = (true, u)) : takeWithRecalls s c ident [] = (true, u) := by
  rw [takeWithRecalls, takeRecalls]
  dsimp only
  rw [h]

/-- An access of a line that no chunk holds forces no writeback. -/
theorem takeWithRecalls_home (hl : holderOf s l = none) (h : takeToken s c ident = (true, u)) : takeWithRecalls s c ident [l] = (true, u) := by
  have hrecall : takeRecalls [l] s = (true, s) := by
    rw [takeRecalls, recallToken, hl]
    rfl
  rw [takeWithRecalls, hrecall]
  dsimp only
  rw [h]

theorem tokenStep_of_takeToken (h : takeToken s c ident = (true, u)) : TokenStep s u := by
  have ht := tokenStep_takeToken s c ident
  rwa [h] at ht

theorem tokenStep_of_takeWithRecalls {ls : List Loc} (h : takeWithRecalls s c ident ls = (true, u)) : TokenStep s u := by
  have ht := tokenStep_takeWithRecalls s c ident ls
  rwa [h] at ht

/-- A place and the line that it lies in have one holder. -/
theorem registered_line (s : State) (pa : Nat) : registered s (pa / 64 * 64) = registered s pa := by
  have hline : pa / 64 * 64 / 64 = pa / 64 := Nat.mul_div_cancel _ (by decide)
  have hhome : homeOf (pa / 64 * 64) = homeOf pa := by
    unfold homeOf isHbm
    have h1 : decide (pa / 64 * 64 < 0xC000000000) = decide (pa < 0xC000000000) := decide_eq_decide.mpr (by omega)
    have h2 : pa / 64 * 64 / 4096 = pa / 4096 := by omega
    rw [h1, h2]
  rw [registered, registered, hline, hhome]

theorem holderOf_home (h : l.peer = none) : holderOf s l = registered s l.pa := by rw [holderOf, h]

end

/-! The outcome of a part. -/

section
variable {s : State} {c : Nat} {op : FarOp} {p : FarPart}

theorem find?_far_one (hf : (coreArch s c).order.far = [op]) (hp : op.parts = [p]) :
    (getCore s c).arch.order.far.find? (fun f => f.parts.any (fun q => q.ident = p.ident)) = some op := by
  have h : (getCore s c).arch.order.far = [op] := hf
  rw [h, List.find?_cons_of_pos (by rw [hp]; simp)]

theorem find?_part_one (hp : op.parts = [p]) : op.parts.find? (fun q => q.ident = p.ident) = some p := by
  rw [hp, List.find?_cons_of_pos (by simp)]

theorem withPart_one (hp : op.parts = [p]) (r : Nat × List Byte × Bool) :
    op.withPart p.ident r = { op with parts := [{ p with done := some r }] } := by
  rw [FarOp.withPart, hp]
  simp only [List.map_cons, List.map_nil, if_true]

/-- Core section `a` with far accesses `l`. -/
def withFar (a : CoreArch) (l : List FarOp) : CoreArch := { a with order := { a.order with far := l } }

theorem coreArch_finishPart (s : State) (c ident : Nat) (r : Nat × List Byte × Bool) : coreArch (finishPart s c ident r) c =
    withFar (coreArch s c) (((coreArch s c).order.far.map (fun f => f.withPart ident r)).filter
      (fun f => !((!isLive (getCore s c) || decide (f.kind = .prefetch)) && farArrived f))) := by
  rw [finishPart, coreArch, modArchOf, getCore_modCore_same]
  rfl

/-- A load or an atomic of a live core keeps its outcome. -/
theorem coreArch_finishPart_kept (hf : (coreArch s c).order.far = [op]) (hp : op.parts = [p]) (hl : isLive (getCore s c) = true)
    (hk : op.kind ≠ .prefetch) (r : Nat × List Byte × Bool) : coreArch (finishPart s c p.ident r) c =
      withFar (coreArch s c) [{ op with parts := [{ p with done := some r }] }] := by
  rw [coreArch_finishPart, hf, List.map_cons, List.map_nil, withPart_one hp, hl, List.filter_cons_of_pos (by simp [hk]), List.filter_nil]

/-- A prefetch leaves nothing behind. -/
theorem coreArch_finishPart_prefetch (hf : (coreArch s c).order.far = [op]) (hp : op.parts = [p]) (hk : op.kind = .prefetch)
    (r : Nat × List Byte × Bool) : coreArch (finishPart s c p.ident r) c =
      withFar (coreArch s c) [] := by
  rw [coreArch_finishPart, hf, List.map_cons, List.map_nil, withPart_one hp, List.filter_cons_of_neg (by simp [hk, farArrived]), List.filter_nil]

end

/-! A load at its home. -/

theorem drop_take_memReadN (m : Memory) (a d n k : Nat) (h : d + n ≤ k) : ((memReadN m a k).drop d).take n = memReadN m (a + d) n := by
  refine List.ext_getElem? fun i => ?_
  rw [List.getElem?_take, List.getElem?_drop, getElem?_memReadN, getElem?_memReadN, Nat.add_assoc]
  by_cases hi : i < n
  · rw [if_pos hi, if_pos (show d + i < k by omega), if_pos hi]
  · rw [if_neg hi, if_neg hi]

theorem Fetch.getCore {s t : State} (h : Fetch s t) (c : Nat) : getCore t c = getCore s c := by
  rw [Machine.getCore, Machine.getCore, h.cores]

theorem Fetch.coreArch {s t : State} (h : Fetch s t) (c : Nat) : coreArch t c = coreArch s c := by
  rw [Claims.coreArch, Claims.coreArch, h.getCore]

theorem Fetch.gangOf {s t : State} (h : Fetch s t) (c : Nat) : gangOf t c = gangOf s c := by
  unfold Machine.gangOf
  rw [h.getCore, h.hub]

theorem coreArch_noteStamp (s : State) (c : Nat) (colour : Fin 16) (n : Nat) : coreArch (noteStamp s c colour n) c =
    { coreArch s c with order :=
      { (coreArch s c).order with st := vset (coreArch s c).order.st colour (max (vget (coreArch s c).order.st colour) n) } } := by
  rw [noteStamp, coreArch, getCore_modCore_same]
  rfl

theorem status_noteStamp (s : State) (c : Nat) (colour : Fin 16) (n : Nat) : (getCore (noteStamp s c colour n) c).status = (getCore s c).status := by
  rw [noteStamp, getCore_modCore_same]

/-- An access that its core performs at its home now: its turn has come, it is the only one, and its place is a place of this module. -/
structure AtHome (s : State) (c : Nat) (op : FarOp) (p : FarPart) : Prop where
  far : (coreArch s c).order.far = [op]
  parts : op.parts = [p]
  ready : partReady s c op p = true
  peer : p.loc.peer = none
  hole : isHole p.loc.pa = false

theorem exec_farLoadPerform_home {s u : State} {c : Nat} {op : FarOp} {p : FarPart} (h : AtHome s c op p)
    (ht : takeWithRecalls s c p.ident (farRecalls s c op p) = (true, u)) : exec (.farLoadPerform c p.ident) s =
      .next (match op.kind with | .atom fn d x scope => atomAtHome u c op p fn d x scope | _ => loadAtHome u c op p) := by
  have hready : ¬ (!partReady s c op p) = true := by rw [h.ready]; decide
  have hpeer : ¬ (p.loc.peer.isSome && (holderOf s p.loc).isSome) = true := by
    rw [h.peer, Option.isSome_none, Bool.false_and]
    decide
  have hhole : ¬ (p.loc.peer.isNone && isHole p.loc.pa) = true := by rw [h.hole, Bool.and_false]; decide
  show execFarLoadPerform c p.ident s = _
  rw [execFarLoadPerform, find?_far_one h.far h.parts]
  dsimp only
  rw [find?_part_one h.parts]
  dsimp only
  rw [if_neg hready, if_neg hpeer, if_neg hhole, ht, h.peer]
  dsimp only
  cases op.kind <;> rfl

/-- The stamp that a load leaves behind: none for a prefetch. -/
def afterLoad (s : State) (c : Nat) (op : FarOp) (n : Nat) : State := if op.kind = .prefetch then s else noteStamp s c op.colour n

theorem loadAtHome_eq (s : State) (c : Nat) (op : FarOp) (p : FarPart) : loadAtHome s c op p =
    finishPart (afterLoad (nextStamp (noteRead s (gangOf s c) (p.loc.pa / 64 * 64))).2 c op
      (nextStamp (noteRead s (gangOf s c) (p.loc.pa / 64 * 64))).1) c p.ident
      ((nextStamp (noteRead s (gangOf s c) (p.loc.pa / 64 * 64))).1,
        ((readLine s (gangOf s c) (p.loc.pa / 64 * 64)).1.drop (p.loc.pa % 64)).take p.len,
        (readLine s (gangOf s c) (p.loc.pa / 64 * 64)).2) := rfl

theorem clock_nextStamp (s : State) : (nextStamp s).2.clock = (nextStamp s).1 := by rw [nextStamp_snd]; rfl

theorem fetch_nextStamp (s : State) : Fetch s (nextStamp s).2 := by
  rw [nextStamp_snd]
  exact fetch_stamped (nextStamp_lt s).le

/-- A load's line read at its home: what it takes, with its stamp. -/
theorem load_claim {s u : State} {c : Nat} {op : FarOp} {p : FarPart} (h : AtHome s c op p) (hlive : isLive (getCore s c) = true)
    (ht : takeToken s c p.ident = (true, u)) (hk : op.kind = .load) :
    ∃ t n, exec (.farLoadPerform c p.ident) s = .next t ∧ t.stash = s.stash ∧ t.far = s.far ∧ s.clock < t.clock ∧ t.clock = n ∧
      (coreArch t c).order.far = [{ op with parts := [{ p with done := some (n,
        ((readLine s (gangOf s c) (p.loc.pa / 64 * 64)).1.drop (p.loc.pa % 64)).take p.len, (readLine s (gangOf s c) (p.loc.pa / 64 * 64)).2) }] }] ∧
      (coreArch t c).regs = (coreArch s c).regs ∧ vget (coreArch t c).order.st op.colour = max (vget (coreArch s c).order.st op.colour) n := by
  have hnil : farRecalls s c op p = [] := by rw [farRecalls, h.peer, hk]
  have hexec := exec_farLoadPerform_home (u := u) h (by rw [hnil]; exact takeWithRecalls_nil ht)
  have htoken := tokenStep_of_takeToken ht
  have hread : Fetch s (noteRead u (gangOf u c) (p.loc.pa / 64 * 64)) := htoken.fetch.trans (fetch_noteRead u _ _)
  have hline := htoken.readLine (gangOf s c) (p.loc.pa / 64 * 64)
  have hgang := htoken.fetch.gangOf c
  rw [hk] at hexec
  dsimp only at hexec
  rw [loadAtHome_eq, afterLoad, if_neg (by rw [hk]; nofun), hgang, hline] at hexec
  rw [hgang] at hread
  generalize noteRead u (gangOf s c) (p.loc.pa / 64 * 64) = v at hexec hread
  have hstamp : Fetch s (nextStamp v).2 := hread.trans (fetch_nextStamp v)
  have hn := clock_nextStamp v
  have hlt : s.clock < (nextStamp v).2.clock := hread.clock.trans_lt (by rw [hn]; exact nextStamp_lt v)
  generalize nextStamp v = w at hexec hstamp hlt hn
  obtain ⟨n, w⟩ := w
  have harch := coreArch_noteStamp w c op.colour n
  have hcore := hstamp.coreArch c
  have hfar : (coreArch (noteStamp w c op.colour n) c).order.far = [op] := by rw [harch, hcore]; exact h.far
  have hlive' : isLive (getCore (noteStamp w c op.colour n) c) = true := by
    rw [isLive, status_noteStamp, hstamp.getCore]
    exact hlive
  have hdone := coreArch_finishPart_kept hfar h.parts hlive' (by rw [hk]; nofun) (n,
    ((readLine s (gangOf s c) (p.loc.pa / 64 * 64)).1.drop (p.loc.pa % 64)).take p.len, (readLine s (gangOf s c) (p.loc.pa / 64 * 64)).2)
  refine ⟨_, n, hexec, hstamp.stash, hstamp.far, hlt, hn, ?_, ?_, ?_⟩
  · rw [hdone]; rfl
  · rw [hdone, harch, hcore]; rfl
  · rw [hdone, harch, hcore]
    exact vget_vset_same _ _ _

theorem prefetch_claim {s u : State} {c : Nat} {op : FarOp} {p : FarPart} (h : AtHome s c op p)
    (ht : takeToken s c p.ident = (true, u)) (hk : op.kind = .prefetch) :
    ∃ t, exec (.farLoadPerform c p.ident) s = .next t ∧ t.stash = s.stash ∧ t.far = s.far ∧ coreArch t c = withFar (coreArch s c) [] := by
  have hnil : farRecalls s c op p = [] := by rw [farRecalls, h.peer, hk]
  have hexec := exec_farLoadPerform_home (u := u) h (by rw [hnil]; exact takeWithRecalls_nil ht)
  have htoken := tokenStep_of_takeToken ht
  have hread : Fetch s (noteRead u (gangOf u c) (p.loc.pa / 64 * 64)) := htoken.fetch.trans (fetch_noteRead u _ _)
  rw [hk] at hexec
  dsimp only at hexec
  rw [loadAtHome_eq, afterLoad, if_pos hk] at hexec
  generalize noteRead u (gangOf u c) (p.loc.pa / 64 * 64) = v at hexec hread
  have hstamp : Fetch s (nextStamp v).2 := hread.trans (fetch_nextStamp v)
  generalize nextStamp v = w at hexec hstamp
  obtain ⟨n, w⟩ := w
  have hfar : (coreArch w c).order.far = [op] := by rw [hstamp.coreArch]; exact h.far
  refine ⟨_, hexec, hstamp.stash, hstamp.far, ?_⟩
  rw [coreArch_finishPart_prefetch hfar h.parts hk, hstamp.coreArch]

/-- The bytes of a part of a line that no chunk holds. -/
theorem homeBytes_part {s : State} {pa n : Nat} (h : slotOpen s (pa / 64 * 64) = false) (hn : pa % 64 + n ≤ 64) :
    ((homeBytes s (pa / 64 * 64)).drop (pa % 64)).take n = memReadN s.far pa n := by
  have ha : pa / 64 * 64 + pa % 64 = pa := by omega
  rw [homeBytes_closed h, drop_take_memReadN _ _ _ _ _ hn, ha]

/-! A store at its home. -/

/-- A line held by a chunk in state D that a gang's writes can give back and merge into. -/
structure HeldLine (s : State) (g : Option Gang) (pa key : Nat) (ch : Chunk) : Prop where
  holder : registered s pa = some key
  chunk : getChunk s key = some ch
  dirty : ch.dirty = true
  gang : chunkGang s key = g
  merges : mergesAt s g pa
  version : writeVersion s g pa < 2 ^ 32
  far : memWf s.far = true
  lines : linesOk s = true

theorem HeldLine.after {s t : State} {g : Option Gang} {pa key : Nat} {ch : Chunk} (h : HeldLine s g pa key ch) (hs : SameLines s t)
    (hm : Canon s t) : HeldLine t g pa key ch where
  holder := (hs.registered pa).trans h.holder
  chunk := (hs.getChunk key).trans h.chunk
  dirty := h.dirty
  gang := (hs.chunkGang key).trans h.gang
  merges := hs.mergesAt h.merges
  version := by rw [hs.sameBuffers.writeVersion]; exact h.version
  far := by rw [hs.far]; exact h.far
  lines := hm.lines h.lines

theorem heldLine_of_heldByChunk {s : State} {c pa key : Nat} {ch : Chunk} (h : heldByChunk s c pa key ch) :
    HeldLine s (gangOf s c) pa key ch := by
  obtain ⟨_, hholder, hchunk, hdirty, hgang, hmerges, hversion, hfar, hlines⟩ := h
  exact ⟨hholder, hchunk, hdirty, hgang, hmerges, hversion, hfar, hlines⟩

theorem writeLine_home {s : State} {g : Option Gang} {pa : Nat} {mask : BitVec 64} {data : BitVec 512} (hr : registered s pa = none) :
    writeLine s g pa mask data = homeWrite s g pa mask data := by rw [writeLine, recallLine_home hr]

theorem gaveUp_congr {s t : State} {pa key : Nat} (h : SameHolders s t) (hg : gaveUp s pa key) : gaveUp t pa key := by
  obtain ⟨hr, n, hc⟩ := hg
  exact ⟨(h.registered pa).trans hr, n, (h.getChunk key).trans hc⟩

/-- A write of a line that a chunk holds lies over the bytes that the chunk gave back. -/
theorem writeLine_held {s : State} {g : Option Gang} {pa key : Nat} {ch : Chunk} (h : HeldLine s g pa key ch) (mask : BitVec 64)
    (data : BitVec 512) : gaveUp (writeLine s g pa mask data) pa key ∧
      (∀ i, i < 64 → memRead (writeLine s g pa mask data).far (pa + i) =
        if mask.getLsbD i then data.extractLsb' (8 * i) 8 else heldByte s pa key ch i) ∧
      (∀ a, (a < pa ∨ pa + 64 ≤ a) → memRead (writeLine s g pa mask data).far a = memRead s.far a) := by
  have hgiven := givenBack_recallLine h.holder h.chunk h.dirty h.gang h.merges h.version h.far h.lines
  have hread := memRead_homeWrite (data := data) (mask := mask) (.inr hgiven.merges) hgiven.far
  refine ⟨gaveUp_congr (sameHolders_homeWrite _ g pa mask data) hgiven.gave, fun i hi => ?_, fun a ha => ?_⟩
  · have hsub : pa + i - pa = i := by omega
    rw [writeLine, hread, hgiven.bytes, hsub, heldByte]
    simp only [show pa ≤ pa + i by omega, show pa + i < pa + 64 by omega, true_and]
  · rw [writeLine, hread, hgiven.bytes, if_neg (by omega), if_neg (by omega)]

theorem coreArch_dropStore {s : State} {c : Nat} {x : StoreLine} (h : (coreArch s c).order.released = [x]) :
    (coreArch (dropStore s c x.ident) c).order.released = [] ∧ (coreArch (dropStore s c x.ident) c).regs = (coreArch s c).regs := by
  have h' : (getCore s c).arch.order.released = [x] := h
  rw [dropStore, coreArch, modArchOf, getCore_modCore_same]
  dsimp only
  rw [h', List.filter_cons_of_neg (by simp)]
  exact ⟨rfl, rfl⟩

section
variable {s u : State} {c : Nat} {x : StoreLine}

theorem find?_released_one (hx : (coreArch s c).order.released = [x]) :
    (getCore s c).arch.order.released.find? (fun y => y.ident = x.ident) = some x := by
  have h : (getCore s c).arch.order.released = [x] := hx
  rw [h, List.find?_cons_of_pos (by simp)]

theorem exec_farStorePerform_home (hx : (coreArch s c).order.released = [x]) (hready : storeReady s c x = true) (hp : x.loc.peer = none)
    (hh : isHole x.loc.pa = false) (ht : takeWithRecalls s c x.ident [x.loc] = (true, u)) : exec (.farStorePerform c x.ident) s =
      .next (dropStore (writeLine (nextStamp u).2 (gangOf s c) x.loc.pa x.mask x.data) c x.ident) := by
  have hready' : ¬ (!storeReady s c x) = true := by rw [hready]; decide
  have hpeer : ¬ (x.loc.peer.isSome && (holderOf s x.loc).isSome) = true := by
    rw [hp, Option.isSome_none, Bool.false_and]
    decide
  have hhole : ¬ (x.loc.peer.isNone && isHole x.loc.pa) = true := by rw [hh, Bool.and_false]; decide
  have hrecalls : (if x.loc.peer.isNone then [x.loc] else []) = [x.loc] := by rw [hp]; rfl
  have hgang : gangOf (nextStamp u).2 c = gangOf s c := ((tokenStep_of_takeWithRecalls ht).fetch.trans (fetch_nextStamp u)).gangOf c
  show execFarStorePerform c x.ident s = _
  rw [execFarStorePerform, find?_released_one hx]
  dsimp only
  rw [if_neg hready', if_neg hpeer, if_neg hhole, hrecalls, ht, hp, ← hgang]
  rfl

theorem performedStore_core (ht : takeWithRecalls s c x.ident [x.loc] = (true, u)) (hx : (coreArch s c).order.released = [x])
    (g : Option Gang) (t : State) (h : t = dropStore (writeLine (nextStamp u).2 g x.loc.pa x.mask x.data) c x.ident) :
    (coreArch t c).order.released = [] ∧ (coreArch t c).regs = (coreArch s c).regs ∧ t.stash = s.stash := by
  have hfetch := (tokenStep_of_takeWithRecalls ht).fetch.trans (fetch_nextStamp u)
  have hwrite := homeStep_writeLine (nextStamp u).2 g x.loc.pa x.mask x.data
  have harch : coreArch (writeLine (nextStamp u).2 g x.loc.pa x.mask x.data) c = coreArch s c := by
    rw [coreArch, hwrite.getCore, hfetch.getCore, coreArch]
  have hdrop := coreArch_dropStore (s := writeLine (nextStamp u).2 g x.loc.pa x.mask x.data) (c := c) (x := x) (by rw [harch]; exact hx)
  rw [harch] at hdrop
  subst h
  exact ⟨hdrop.1, hdrop.2, hwrite.stash.trans hfetch.stash⟩

/-- A released store to a line that no chunk holds. -/
theorem store_claim (hx : (coreArch s c).order.released = [x]) (hready : storeReady s c x = true) (hp : x.loc.peer = none)
    (hh : isHole x.loc.pa = false) (ht : takeToken s c x.ident = (true, u)) (hr : registered s x.loc.pa = none) (hwf : memWf s.far = true)
    (hl : linesOk s = true) :
    (x.mask = BitVec.allOnes 64 ∨ mergesAt s (gangOf s c) x.loc.pa →
      ∃ t, exec (.farStorePerform c x.ident) s = .next t ∧ (coreArch t c).order.released = [] ∧ t.stash = s.stash ∧
        (∀ i, i < 64 → memRead t.far (x.loc.pa + i) =
          if x.mask.getLsbD i then x.data.extractLsb' (8 * i) 8 else memRead s.far (x.loc.pa + i)) ∧
        (∀ a, (a < x.loc.pa ∨ x.loc.pa + 64 ≤ a) → memRead t.far a = memRead s.far a) ∧
        isBad t x.loc.pa = false ∧ (coreArch t c).regs = (coreArch s c).regs) ∧
    (x.mask ≠ BitVec.allOnes 64 → ¬ mergesAt s (gangOf s c) x.loc.pa →
      ∃ t, exec (.farStorePerform c x.ident) s = .next t ∧ (coreArch t c).order.released = [] ∧ t.stash = s.stash ∧ t.far = s.far ∧
        isBad t x.loc.pa = true ∧ (coreArch t c).regs = (coreArch s c).regs) := by
  have hrecalls := takeWithRecalls_home ((holderOf_home hp).trans hr) ht
  have hexec := exec_farStorePerform_home hx hready hp hh hrecalls
  obtain ⟨hreleased, hregs, hstash⟩ := performedStore_core hrecalls hx (gangOf s c) _ rfl
  have hsame : SameLines s (nextStamp u).2 := (tokenStep_of_takeToken ht).sameLines.trans (sameLines_nextStamp u)
  have hlines : linesOk (nextStamp u).2 = true := (memStep_nextStamp u).lines ((tokenStep_of_takeToken ht).memStep.lines hl)
  rw [writeLine_home ((hsame.registered _).trans hr)] at hexec hreleased hregs hstash
  have hwf' : memWf (nextStamp u).2.far = true := by rw [hsame.far]; exact hwf
  constructor
  · intro hm
    have hm' : x.mask = BitVec.allOnes 64 ∨ mergesAt (nextStamp u).2 (gangOf s c) x.loc.pa := hm.imp_right hsame.mergesAt
    have hread := memRead_homeWrite (data := x.data) hm' hwf'
    have hgood := isBad_homeWrite (data := x.data) hm' hlines
    simp only [hsame.far] at hread
    refine ⟨_, hexec, hreleased, hstash, fun i hi => (hread _).trans ?_, fun a ha => (hread a).trans (if_neg (by omega)), hgood, hregs⟩
    have hsub : x.loc.pa + i - x.loc.pa = i := by omega
    rw [hsub]
    simp only [show x.loc.pa ≤ x.loc.pa + i by omega, show x.loc.pa + i < x.loc.pa + 64 by omega, true_and]
  · intro hm hfails
    have hno : ¬ mergesAt (nextStamp u).2 (gangOf s c) x.loc.pa := fun h => hfails ((hsame.mergesAt_iff _ _).mp h)
    obtain ⟨hfar, hbad⟩ := homeWrite_fails (data := x.data) hm hno
    exact ⟨_, hexec, hreleased, hstash, hfar.trans hsame.far, hbad, hregs⟩

/-- A released store to a line that a chunk holds in state D. -/
theorem storeHeld_claim {key : Nat} {ch : Chunk} (hx : (coreArch s c).order.released = [x]) (hready : storeReady s c x = true)
    (hp : x.loc.peer = none) (hh : isHole x.loc.pa = false) (hheld : heldByChunk s c x.loc.pa key ch)
    (ht : takeWithRecalls s c x.ident [x.loc] = (true, u)) :
    ∃ t, exec (.farStorePerform c x.ident) s = .next t ∧ (coreArch t c).order.released = [] ∧ t.stash = s.stash ∧
      gaveUp t x.loc.pa key ∧
      (∀ i, i < 64 → memRead t.far (x.loc.pa + i) =
        if x.mask.getLsbD i then x.data.extractLsb' (8 * i) 8 else heldByte s x.loc.pa key ch i) ∧
      (∀ a, (a < x.loc.pa ∨ x.loc.pa + 64 ≤ a) → memRead t.far a = memRead s.far a) ∧ (coreArch t c).regs = (coreArch s c).regs := by
  have hexec := exec_farStorePerform_home hx hready hp hh ht
  obtain ⟨hreleased, hregs, hstash⟩ := performedStore_core ht hx (gangOf s c) _ rfl
  have htoken := tokenStep_of_takeWithRecalls ht
  have hsame : SameLines s (nextStamp u).2 := htoken.sameLines.trans (sameLines_nextStamp u)
  have hline := (heldLine_of_heldByChunk hheld).after hsame (htoken.memStep.toCanon.trans (memStep_nextStamp u).toCanon)
  obtain ⟨hgave, hbytes, hout⟩ := writeLine_held hline x.mask x.data
  simp only [hsame.heldByte] at hbytes
  simp only [hsame.far] at hout
  exact ⟨_, hexec, hreleased, hstash, hgave, hbytes, hout, hregs⟩

end

/-! An atomic at its home. -/

/-- The word that an atomic finds. -/
def foundWord (s : State) (g : Option Gang) (pa : Nat) : Word :=
  BitVec.ofNat 64 (leNat (((readLine s g (pa / 64 * 64)).1.drop (pa % 64)).take 8))

/-- The line of an atomic that found word `old`, after it. -/
def atomLeft (s : State) (g : Option Gang) (pa fn : Nat) (old d x : Word) : State :=
  if atomWrites fn old x then writeLine s g (pa / 64 * 64) (runMask (pa % 64) 8) ((atomFn fn old d x).setWidth 512 <<< (8 * (pa % 64))) else s

/-- The state in which an atomic takes its line: the line read, with the stamp of the read. -/
def atomRead (s : State) (c : Nat) (colour : Fin 16) (pa : Nat) : State :=
  noteStamp (nextStamp (noteRead s (gangOf s c) (pa / 64 * 64))).2 c colour (nextStamp (noteRead s (gangOf s c) (pa / 64 * 64))).1

theorem atomAtHome_eq (s : State) (c : Nat) (op : FarOp) (p : FarPart) (fn : Nat) (d x : Word) (scope : Nat) :
    atomAtHome s c op p fn d x scope = finishPart (ringBells
      (atomLeft (atomRead s c op.colour p.loc.pa) (gangOf s c) p.loc.pa fn (foundWord s (gangOf s c) p.loc.pa) d x) scope
        (p.loc.pa / 64 * 64)) c p.ident
      ((nextStamp (noteRead s (gangOf s c) (p.loc.pa / 64 * 64))).1, leBytes (foundWord s (gangOf s c) p.loc.pa).toNat 8,
        (readLine s (gangOf s c) (p.loc.pa / 64 * 64)).2) := rfl

theorem farRecalls_atom {s : State} {c : Nat} {op : FarOp} {p : FarPart} {fn scope : Nat} {d x : Word} (hp : p.loc.peer = none)
    (hk : op.kind = .atom fn d x scope) :
    farRecalls s c op p = if atomWrites fn (foundWord s (gangOf s c) p.loc.pa) x then [p.loc] else [] := by
  rw [farRecalls, hp, hk]
  rfl

theorem ringBells_eq (s : State) (scope pa : Nat) : ∃ h, ringBells s scope pa = { s with hub := h } := by
  unfold ringBells
  split
  · exact ⟨s.hub, rfl⟩
  · exact ⟨_, rfl⟩

theorem homeStep_atomLeft (s : State) (g : Option Gang) (pa fn : Nat) (old d x : Word) : HomeStep s (atomLeft s g pa fn old d x) := by
  unfold atomLeft
  split
  · exact homeStep_writeLine s g _ _ _
  · exact HomeStep.refl s

theorem sameLines_noteStamp (s : State) (c : Nat) (colour : Fin 16) (n : Nat) : SameLines s (noteStamp s c colour n) := ⟨rfl, fun _ => rfl⟩

theorem canon_noteStamp (s : State) (c : Nat) (colour : Fin 16) (n : Nat) : Canon s (noteStamp s c colour n) := canon_of_eq rfl rfl rfl rfl

/-- An access whose one part has this outcome. -/
def partDone (op : FarOp) (p : FarPart) (r : Nat × List Byte × Bool) : FarOp := { op with parts := [{ p with done := some r }] }

/-- What an atomic answers, and the state of the lines as it finds them and as it leaves them. -/
theorem atom_claim {s u : State} {c : Nat} {op : FarOp} {p : FarPart} {fn scope : Nat} {d x : Word} (h : AtHome s c op p)
    (hlive : isLive (getCore s c) = true) (hk : op.kind = .atom fn d x scope)
    (ht : takeWithRecalls s c p.ident (farRecalls s c op p) = (true, u))
    (hnote : SameLines u (noteRead u (gangOf s c) (p.loc.pa / 64 * 64))) :
    ∃ v, SameLines s v ∧ Canon s v ∧ ∃ t, exec (.farLoadPerform c p.ident) s = .next t ∧
      (∃ k, s.clock < k ∧ (coreArch t c).order.far = [partDone op p
        (k, leBytes (foundWord s (gangOf s c) p.loc.pa).toNat 8, (readLine s (gangOf s c) (p.loc.pa / 64 * 64)).2)]) ∧
      t.stash = s.stash ∧ t.far = (atomLeft v (gangOf s c) p.loc.pa fn (foundWord s (gangOf s c) p.loc.pa) d x).far ∧
      t.chunks = (atomLeft v (gangOf s c) p.loc.pa fn (foundWord s (gangOf s c) p.loc.pa) d x).chunks ∧
      t.dies = (atomLeft v (gangOf s c) p.loc.pa fn (foundWord s (gangOf s c) p.loc.pa) d x).dies := by
  have hexec := exec_farLoadPerform_home h ht
  have htoken := tokenStep_of_takeWithRecalls ht
  have hgang := htoken.fetch.gangOf c
  have hline := htoken.readLine (gangOf s c) (p.loc.pa / 64 * 64)
  have hfound : foundWord u (gangOf s c) p.loc.pa = foundWord s (gangOf s c) p.loc.pa := by rw [foundWord, foundWord, hline]
  rw [hk] at hexec
  dsimp only at hexec
  rw [atomAtHome_eq, atomRead, hgang, hline, hfound] at hexec
  have hread : Fetch s (noteRead u (gangOf s c) (p.loc.pa / 64 * 64)) := htoken.fetch.trans (fetch_noteRead u _ _)
  have hcanon : Canon s (noteRead u (gangOf s c) (p.loc.pa / 64 * 64)) := htoken.memStep.toCanon.trans (memStep_noteRead u _ _).toCanon
  have hsame := htoken.sameLines.trans hnote
  generalize noteRead u (gangOf s c) (p.loc.pa / 64 * 64) = w at hexec hread hsame hcanon
  have hstamp := hread.trans (fetch_nextStamp w)
  have hsame1 := hsame.trans (sameLines_nextStamp w)
  have hcanon1 := hcanon.trans (memStep_nextStamp w).toCanon
  have hlt : s.clock < (nextStamp w).1 := hread.clock.trans_lt (nextStamp_lt w)
  generalize nextStamp w = r at hexec hstamp hsame1 hcanon1 hlt
  obtain ⟨n, w1⟩ := r
  have hsame2 := hsame1.trans (sameLines_noteStamp w1 c op.colour n)
  have hcanon2 := hcanon1.trans (canon_noteStamp w1 c op.colour n)
  have hfar2 : (coreArch (noteStamp w1 c op.colour n) c).order.far = [op] := by
    rw [coreArch_noteStamp, hstamp.coreArch]
    exact h.far
  have hlive2 : isLive (getCore (noteStamp w1 c op.colour n) c) = true := by
    rw [isLive, status_noteStamp, hstamp.getCore]
    exact hlive
  refine ⟨noteStamp w1 c op.colour n, hsame2, hcanon2, _, hexec, ⟨n, hlt, ?_⟩, ?_⟩
  all_goals
    have hleft := homeStep_atomLeft (noteStamp w1 c op.colour n) (gangOf s c) p.loc.pa fn (foundWord s (gangOf s c) p.loc.pa) d x
    generalize atomLeft (noteStamp w1 c op.colour n) (gangOf s c) p.loc.pa fn (foundWord s (gangOf s c) p.loc.pa) d x = t at hleft
    obtain ⟨hub, hbells⟩ := ringBells_eq t scope (p.loc.pa / 64 * 64)
    dsimp only
    rw [hbells]
  · have hcore : getCore { t with hub := hub } c = getCore (noteStamp w1 c op.colour n) c := hleft.getCore c
    have hf : (coreArch { t with hub := hub } c).order.far = [op] := by rw [coreArch, hcore]; exact hfar2
    rw [coreArch_finishPart_kept hf h.parts (by rw [hcore]; exact hlive2) (by rw [hk]; nofun)]
    rfl
  · exact ⟨hleft.stash.trans hsame2.stash, rfl, rfl, rfl⟩

/-! The word of an atomic in its line. -/

theorem extract_shifted (v : Word) {off i : Nat} (h : off ≤ i) (hi : i < off + 8) (hoff : off + 8 ≤ 64) :
    ((v.setWidth 512 <<< (8 * off) : BitVec 512)).extractLsb' (8 * i) 8 = v.extractLsb' (8 * (i - off)) 8 := by
  apply BitVec.eq_of_getLsbD_eq
  intro j hj
  have h1 : 8 * i + j < 512 := by omega
  have h2 : ¬ 8 * i + j < 8 * off := by omega
  have h3 : 8 * i + j - 8 * off = 8 * (i - off) + j := by omega
  have h4 : 8 * (i - off) + j < 512 := by omega
  simp only [BitVec.getLsbD_extractLsb', hj, decide_true, Bool.true_and, BitVec.getLsbD_shiftLeft, BitVec.getLsbD_setWidth, h1, h2,
    decide_false, Bool.not_false, h3, h4]

/-- A word written into bytes `off` to `off + 7` of a line of bytes `f`. -/
theorem word_in_line {m : Memory} {pa : Nat} {v : Word} {f : Nat → Byte} (h8 : pa % 8 = 0)
    (hm : ∀ i, i < 64 → memRead m (pa / 64 * 64 + i) = if (runMask (pa % 64) 8).getLsbD i then
      ((v.setWidth 512 <<< (8 * (pa % 64)) : BitVec 512)).extractLsb' (8 * i) 8 else f i) :
    memReadN m pa 8 = leBytes v.toNat 8 ∧ ∀ i, i < 64 → (i < pa % 64 ∨ pa % 64 + 8 ≤ i) → memRead m (pa / 64 * 64 + i) = f i := by
  constructor
  · refine List.ext_getElem? fun i => ?_
    rw [getElem?_memReadN, getElem?_leBytes]
    by_cases hi : i < 8
    · have ha : pa + i = pa / 64 * 64 + (pa % 64 + i) := by omega
      rw [if_pos hi, if_pos hi, ha, hm _ (by omega), getLsbD_runMask (by omega), if_pos (decide_eq_true (by omega)),
        extract_shifted v (by omega) (by omega) (by omega), Nat.add_sub_cancel_left, ofNat_div_eq_extract]
    · rw [if_neg hi, if_neg hi]
  · intro i hi hout
    rw [hm i hi, getLsbD_runMask hi, if_neg (by rw [decide_eq_true_iff]; omega)]

theorem leBytes_foundBytes (bs : List Byte) (h : bs.length = 8) : leBytes (BitVec.ofNat 64 (leNat bs)).toNat 8 = bs := by
  have hlt : leNat bs < 2 ^ 64 := (leNat_lt bs).trans_le (by rw [h]; decide)
  have hbytes := leBytes_leNat bs
  rw [BitVec.toNat_ofNat, Nat.mod_eq_of_lt hlt]
  rwa [h] at hbytes

/-- An atomic at the home of a line that no chunk holds: its word is the new one, no other byte changes. -/
theorem atomLeft_home {v : State} {g : Option Gang} {pa fn : Nat} {old d x : Word} (h8 : pa % 8 = 0) (hr : registered v (pa / 64 * 64) = none)
    (hm : mergesAt v g (pa / 64 * 64)) (hwf : memWf v.far = true) (hold : leBytes old.toNat 8 = memReadN v.far pa 8) :
    memReadN (atomLeft v g pa fn old d x).far pa 8 = leBytes (atomFn fn old d x).toNat 8 ∧
      ∀ a, (a < pa ∨ pa + 8 ≤ a) → memRead (atomLeft v g pa fn old d x).far a = memRead v.far a := by
  by_cases hw : atomWrites fn old x = true
  · rw [atomLeft, if_pos hw, writeLine_home hr]
    have hread := memRead_homeWrite (data := (atomFn fn old d x).setWidth 512 <<< (8 * (pa % 64))) (mask := runMask (pa % 64) 8) (.inr hm) hwf
    generalize homeWrite v g (pa / 64 * 64) (runMask (pa % 64) 8) ((atomFn fn old d x).setWidth 512 <<< (8 * (pa % 64))) = t at hread
    obtain ⟨hword, hrest⟩ := word_in_line (m := t.far) (v := atomFn fn old d x) (f := fun i => memRead v.far (pa / 64 * 64 + i)) h8
      (fun i hi => by rw [hread, Nat.add_sub_cancel_left]; simp only [Nat.le_add_right, Nat.add_lt_add_iff_left, hi, true_and])
    refine ⟨hword, fun a ha => ?_⟩
    by_cases hin : pa / 64 * 64 ≤ a ∧ a < pa / 64 * 64 + 64
    · have hrow := hrest (a - pa / 64 * 64) (by omega) (by omega)
      rwa [Nat.add_sub_cancel' hin.1] at hrow
    · rw [hread, if_neg (fun hc => hin ⟨hc.1, hc.2.1⟩)]
  · rw [atomLeft, if_neg hw, atomFn_unwritten (Bool.eq_false_iff.mpr hw), hold]
    exact ⟨rfl, fun _ _ => rfl⟩

section
variable {s u : State} {c : Nat} {op : FarOp} {p : FarPart} {fn scope : Nat} {d x : Word}

/-- An atomic to a line that no chunk holds. -/
theorem atomHome_claim (h : AtHome s c op p) (hlive : isLive (getCore s c) = true) (hk : op.kind = .atom fn d x scope)
    (h8 : p.loc.pa % 8 = 0) (ht : takeToken s c p.ident = (true, u)) (hr : registered s (p.loc.pa / 64 * 64) = none)
    (hm : mergesAt s (gangOf s c) (p.loc.pa / 64 * 64)) (hopen : slotOpen s (p.loc.pa / 64 * 64) = false) (hwf : memWf s.far = true)
    {old : Word} (hold : old = BitVec.ofNat 64 (leNat (memReadN s.far p.loc.pa 8))) :
    ∃ t, (exec (.farLoadPerform c p.ident) s = .next t ∧ (∃ k, s.clock < k ∧
        (coreArch t c).order.far = [partDone op p (k, leBytes old.toNat 8, false)]) ∧ t.stash = s.stash) ∧
      memReadN t.far p.loc.pa 8 = leBytes (atomFn fn old d x).toNat 8 ∧
      (∀ a, (a < p.loc.pa ∨ p.loc.pa + 8 ≤ a) → memRead t.far a = memRead s.far a) := by
  have hfound : foundWord s (gangOf s c) p.loc.pa = old := by
    rw [foundWord, readLine_home hr hm]
    dsimp only
    rw [homeBytes_part hopen (by omega), hold]
  have htake : takeWithRecalls s c p.ident (farRecalls s c op p) = (true, u) := by
    rw [farRecalls_atom h.peer hk]
    split
    · exact takeWithRecalls_home ((holderOf_home h.peer).trans ((registered_line s _).symm.trans hr)) ht
    · exact takeWithRecalls_nil ht
  have htoken := (tokenStep_of_takeToken ht).sameLines
  have hnote : SameLines u (noteRead u (gangOf s c) (p.loc.pa / 64 * 64)) := by
    rw [noteRead_merges ((htoken.registered _).trans hr) (htoken.mergesAt hm)]
    exact sameLines_touchL2 u _
  obtain ⟨v, hv, -, t, hexec, hdone, hstash, hfar, -, -⟩ := atom_claim h hlive hk htake hnote
  rw [hfound] at hdone hfar
  rw [readLine_home hr hm] at hdone
  refine ⟨t, ⟨hexec, hdone, hstash⟩, ?_⟩
  have hleft := atomLeft_home (fn := fn) (d := d) (x := x) h8 ((hv.registered _).trans hr) (hv.mergesAt hm) (by rw [hv.far]; exact hwf)
    (old := old) (by rw [hv.far, hold, leBytes_foundBytes _ (memReadN_length _ _ _)])
  rwa [← hfar, hv.far] at hleft

/-- An atomic to a line that a chunk holds in state D: one that writes has the line given back, one that does not takes the word from the
chunk. -/
theorem atomHeld_claim {key : Nat} {ch : Chunk} (h : AtHome s c op p) (hlive : isLive (getCore s c) = true)
    (hk : op.kind = .atom fn d x scope) (h8 : p.loc.pa % 8 = 0) (hheld : heldByChunk s c (p.loc.pa / 64 * 64) key ch) {old : Word}
    (hold : old = BitVec.ofNat 64 (leNat (memReadN s.stash (chunkBase key + p.loc.pa % 64) 8))) :
    (atomWrites fn old x = true → takeWithRecalls s c p.ident [p.loc] = (true, u) →
      ∃ t, (exec (.farLoadPerform c p.ident) s = .next t ∧ (∃ k, s.clock < k ∧ (coreArch t c).order.far =
          [partDone op p (k, leBytes old.toNat 8, chunkBad s key)]) ∧ t.stash = s.stash) ∧
        gaveUp t (p.loc.pa / 64 * 64) key ∧ memReadN t.far p.loc.pa 8 = leBytes (atomFn fn old d x).toNat 8 ∧
        (∀ i, i < 64 → (i < p.loc.pa % 64 ∨ p.loc.pa % 64 + 8 ≤ i) →
          memRead t.far (p.loc.pa / 64 * 64 + i) = heldByte s (p.loc.pa / 64 * 64) key ch i) ∧
        (∀ a, (a < p.loc.pa / 64 * 64 ∨ p.loc.pa / 64 * 64 + 64 ≤ a) → memRead t.far a = memRead s.far a)) ∧
    (atomWrites fn old x = false → takeToken s c p.ident = (true, u) →
      ∃ t, (exec (.farLoadPerform c p.ident) s = .next t ∧ (∃ k, s.clock < k ∧ (coreArch t c).order.far =
          [partDone op p (k, leBytes old.toNat 8, chunkBad s key)]) ∧ t.stash = s.stash) ∧
        t.far = s.far ∧ t.chunks = s.chunks) := by
  have hline := heldLine_of_heldByChunk hheld
  have hread := readLine_held (g := gangOf s c) hline.holder
  have hfound : foundWord s (gangOf s c) p.loc.pa = old := by
    rw [foundWord, hread, hold, chunkBytes]
    dsimp only
    rw [drop_take_memReadN _ _ _ _ _ (by omega)]
  constructor
  · intro hw ht
    have htake : takeWithRecalls s c p.ident (farRecalls s c op p) = (true, u) := by
      rw [farRecalls_atom h.peer hk, hfound, if_pos hw]
      exact ht
    have hnote : SameLines u (noteRead u (gangOf s c) (p.loc.pa / 64 * 64)) := by
      rw [noteRead_held (((tokenStep_of_takeWithRecalls ht).sameLines.registered _).trans hline.holder)]
      exact SameLines.refl u
    obtain ⟨v, hv, hcanon, t, hexec, hdone, hstash, hfar, hchunks, hdies⟩ := atom_claim h hlive hk htake hnote
    rw [hfound] at hdone hfar hchunks hdies
    rw [hread] at hdone
    rw [atomLeft, if_pos hw] at hfar hchunks hdies
    obtain ⟨hgave, hbytes, hout⟩ := writeLine_held (hline.after hv hcanon) (runMask (p.loc.pa % 64) 8)
      ((atomFn fn old d x).setWidth 512 <<< (8 * (p.loc.pa % 64)))
    simp only [hv.heldByte, ← hfar] at hbytes
    simp only [hv.far, ← hfar] at hout
    obtain ⟨hword, hrest⟩ := word_in_line h8 hbytes
    exact ⟨t, ⟨hexec, hdone, hstash⟩, gaveUp_congr (sameHolders_of_dies hdies hchunks) hgave, hword, hrest, hout⟩
  · intro hw ht
    have htake : takeWithRecalls s c p.ident (farRecalls s c op p) = (true, u) := by
      rw [farRecalls_atom h.peer hk, hfound, if_neg (by rw [hw]; decide)]
      exact takeWithRecalls_nil ht
    have hnote : SameLines u (noteRead u (gangOf s c) (p.loc.pa / 64 * 64)) := by
      rw [noteRead_held (((tokenStep_of_takeToken ht).sameLines.registered _).trans hline.holder)]
      exact SameLines.refl u
    obtain ⟨v, hv, -, t, hexec, hdone, hstash, hfar, hchunks, -⟩ := atom_claim h hlive hk htake hnote
    rw [hfound] at hdone hfar hchunks
    rw [hread] at hdone
    rw [atomLeft, if_neg (by rw [hw]; decide)] at hfar hchunks
    exact ⟨t, ⟨hexec, hdone, hstash⟩, hfar.trans hv.far, hchunks.trans hv.chunks⟩

end

/-! Lines of peers. -/

/-- A frame to another module takes a sequence number and a place in the outbox. -/
theorem sendPod_frame (s : State) (cls dest rid : Nat) (body : List Byte) :
    ∃ e ps, sendPod s cls dest rid body = { s with edge := e, hub := { s.hub with peers := ps } } := by
  unfold sendPod
  split
  · exact ⟨_, s.hub.peers, rfl⟩
  · split
    · exact ⟨_, s.hub.peers, rfl⟩
    · split
      · exact ⟨_, _, rfl⟩
      · exact ⟨_, s.hub.peers, rfl⟩

/-- What a transfer that starts notes: itself, under the next number. -/
theorem startXfer_frame (s : State) (c ident kind cls fn : Nat) (l : Loc) (mask : BitVec 64) (data : List Byte) : ∃ x : PodXfer,
    (∃ e ps n k, (startXfer s c ident kind cls fn l mask data).2 =
      { s with clock := k, edge := e, hub := { s.hub with peers := ps, xfers := s.hub.xfers ++ [x], nextXfer := n } }) ∧
    x.num = s.hub.nextXfer ∧ x.core = c ∧ x.ident = ident ∧ x.kind = kind ∧ x.cls = cls ∧ x.fn = fn ∧ x.peer = l.peer.getD 0 ∧
    x.pa = l.pa ∧ x.mask = mask ∧ x.data = data ∧ x.sentAt = s.now ∧ x.resends = 0 ∧ x.stamp = (nextStamp s).1 := by
  let x : PodXfer :=
    { num := s.hub.nextXfer, core := c, ident := ident, kind := kind, peer := l.peer.getD 0, world := ((gangOf s c).map (·.world)).getD 0,
      cls := cls, fn := fn, pa := l.pa, mask := mask, data := data, stamp := (nextStamp s).1, sentAt := s.now, resends := 0 }
  refine ⟨x, ?_, rfl, rfl, rfl, rfl, rfl, rfl, rfl, rfl, rfl, rfl, rfl, rfl, rfl⟩
  let s1 : State := { (nextStamp s).2 with hub := { s.hub with xfers := s.hub.xfers ++ [x], nextXfer := (s.hub.nextXfer + 1) % 2 ^ 32 } }
  obtain ⟨e, ps, hsend⟩ := sendPod_frame s1 cls (s.edge.podid * 1024 + x.peer) s.hub.nextXfer (podBody x)
  exact ⟨e, ps, _, _, hsend⟩

/-- A state that differs in tokens, stamps and the edge alone. -/
theorem Fetch.now {s t : State} (h : Fetch s t) : t.now = s.now := (congrArg State.now h.eq :)

theorem leavesFor_startXfer {s u : State} (h : Fetch s u) {l : Loc} (hl : l.peer.isSome = true) (c ident kind cls fn : Nat) (mask : BitVec 64)
    (data : List Byte) : leavesFor s (startXfer u c ident kind cls fn l mask data).2 c ident kind cls fn l mask data := by
  obtain ⟨x, ⟨e, ps, n, k, heq⟩, hnum, hcore, hident, hkind, hcls, hfn, hpeer, hpa, hmask, hdata, hsent, hresends, hstamp⟩ :=
    startXfer_frame u c ident kind cls fn l mask data
  have hsome : some (l.peer.getD 0) = l.peer := by
    obtain ⟨v, hv⟩ := Option.isSome_iff_exists.mp hl
    rw [hv]
    rfl
  rw [heq]
  refine ⟨h.cores, h.stash, h.far, x, ?_, hnum.trans (by rw [h.hub]), hcore, hident, hkind, hcls, hfn, by rw [hpeer, hsome], hpa, hmask, hdata,
    hsent.trans h.now, hresends, by rw [hstamp]; exact h.clock.trans_lt (nextStamp_lt u)⟩
  dsimp only
  rw [h.hub]

section
variable {s u : State} {c : Nat}

theorem exec_farLoadPerform_peer {op : FarOp} {p : FarPart} (hf : (coreArch s c).order.far = [op]) (hp : op.parts = [p])
    (hready : partReady s c op p = true) {v : Nat} (hv : p.loc.peer = some v) (hn : holderOf s p.loc = none)
    (ht : takeToken s c p.ident = (true, u)) : exec (.farLoadPerform c p.ident) s = .next (match op.kind with
      | .atom fn d x _ => (startXfer u c p.ident 0 0x42 fn p.loc 0 (patomData d x)).2
      | _ => (startXfer u c p.ident 0 0x40 0 (lineLoc p.loc) 0 []).2) := by
  have hready' : ¬ (!partReady s c op p) = true := by rw [hready]; decide
  have hholder : ¬ (p.loc.peer.isSome && (holderOf s p.loc).isSome) = true := by
    rw [hn, Option.isSome_none, Bool.and_false]
    decide
  have hhole : ¬ (p.loc.peer.isNone && isHole p.loc.pa) = true := by
    rw [hv, Option.isNone_some, Bool.false_and]
    decide
  have htake : takeWithRecalls s c p.ident (farRecalls s c op p) = (true, u) := by
    rw [farRecalls, hv]
    exact takeWithRecalls_nil ht
  show execFarLoadPerform c p.ident s = _
  rw [execFarLoadPerform, find?_far_one hf hp]
  dsimp only
  rw [find?_part_one hp]
  dsimp only
  rw [if_neg hready', if_neg hholder, if_neg hhole, htake, hv]
  dsimp only
  cases op.kind <;> rfl

theorem exec_farLoadPerform_recall {op : FarOp} {p : FarPart} (hf : (coreArch s c).order.far = [op]) (hp : op.parts = [p])
    (hready : partReady s c op p = true) (hv : p.loc.peer.isSome = true) {key : Nat} (hn : holderOf s p.loc = some key) :
    exec (.farLoadPerform c p.ident) s = .next (recallPaid s c p.loc) := by
  have hready' : ¬ (!partReady s c op p) = true := by rw [hready]; decide
  show execFarLoadPerform c p.ident s = _
  rw [execFarLoadPerform, find?_far_one hf hp]
  dsimp only
  rw [find?_part_one hp]
  dsimp only
  rw [if_neg hready', if_pos (by rw [hv, hn]; rfl)]

theorem exec_farStorePerform_peer {x : StoreLine} (hx : (coreArch s c).order.released = [x]) (hready : storeReady s c x = true)
    {v : Nat} (hv : x.loc.peer = some v) (hn : holderOf s x.loc = none) (ht : takeToken s c x.ident = (true, u)) :
    exec (.farStorePerform c x.ident) s = .next (startXfer u c x.ident 3 0x41 0 x.loc x.mask (leBytes x.data.toNat 64)).2 := by
  have hready' : ¬ (!storeReady s c x) = true := by rw [hready]; decide
  have hholder : ¬ (x.loc.peer.isSome && (holderOf s x.loc).isSome) = true := by
    rw [hn, Option.isSome_none, Bool.and_false]
    decide
  have hhole : ¬ (x.loc.peer.isNone && isHole x.loc.pa) = true := by
    rw [hv, Option.isNone_some, Bool.false_and]
    decide
  have htake : takeWithRecalls s c x.ident (if x.loc.peer.isNone then [x.loc] else []) = (true, u) := by
    rw [hv]
    exact takeWithRecalls_nil ht
  show execFarStorePerform c x.ident s = _
  rw [execFarStorePerform, find?_released_one hx]
  dsimp only
  rw [if_neg hready', if_neg hholder, if_neg hhole, htake, hv]
  rfl

theorem exec_farStorePerform_recall {x : StoreLine} (hx : (coreArch s c).order.released = [x]) (hready : storeReady s c x = true)
    (hv : x.loc.peer.isSome = true) {key : Nat} (hn : holderOf s x.loc = some key) :
    exec (.farStorePerform c x.ident) s = .next (recallPaid s c x.loc) := by
  have hready' : ¬ (!storeReady s c x) = true := by rw [hready]; decide
  show execFarStorePerform c x.ident s = _
  rw [execFarStorePerform, find?_released_one hx]
  dsimp only
  rw [if_neg hready', if_pos (by rw [hv, hn]; rfl)]

theorem holderOf_unregisterPeer (s : State) (key : Nat) {l : Loc} (hl : l.peer.isSome = true) : holderOf (unregisterPeer s key) l ≠ some key := by
  obtain ⟨v, hv⟩ := Option.isSome_iff_exists.mp hl
  rw [holderOf, hv]
  dsimp only [unregisterPeer]
  intro h
  obtain ⟨e, he, hkey⟩ := Option.map_eq_some_iff.mp h
  have hmem := List.mem_filter.mp (List.mem_of_find?_eq_some he)
  exact of_decide_eq_true hmem.2 hkey

/-- A chunk that holds the line of a peer gives its bytes back by a PSTORE. -/
theorem recallPaid_claim {l : Loc} {key : Nat} {ch : Chunk} (hl : l.peer.isSome = true) (hh : holderOf s l = some key)
    (hc : getChunk s key = some ch) (hd : ch.dirty = true) (hm : ch.mask ≠ 0) (ht : recallToken s l = (true, u)) :
    leavesFor s (recallPaid s c l) c key 5 0x41 0 (lineLoc l) ch.mask (chunkBytes s key) ∧ holderOf (recallPaid s c l) l ≠ some key ∧
      ∃ n, getChunk (recallPaid s c l) key = some { dirty := false, stamp := n, mask := 0 } := by
  obtain ⟨v, hv⟩ := Option.isSome_iff_exists.mp hl
  have htoken : TokenStep s u := by
    have h := tokenStep_recallToken s l
    rwa [ht] at h
  have hhu : holderOf u l = some key := by
    rw [← hh, holderOf, holderOf, hv, htoken.fetch.hub]
  have hcu : getChunk u key = some ch := (htoken.sameLines.getChunk key).trans hc
  have hbytes : chunkBytes (nextStamp u).2 key = chunkBytes s key := by rw [chunkBytes, chunkBytes, (htoken.fetch.trans (fetch_nextStamp u)).stash]
  have heq : recallPaid s c l = putChunk (unregisterPeer (startXfer (nextStamp u).2 c key 5 0x41 0 (lineLoc l) ch.mask (chunkBytes s key)).2 key)
      key { dirty := false, stamp := (nextStamp u).1, mask := 0 } := by
    rw [recallPaid, ht]
    dsimp only
    rw [recallPeer, hhu, hv]
    dsimp only
    rw [flushChunk, hcu, hv]
    dsimp only
    rw [if_pos hd, if_neg hm, hbytes]
  rw [heq]
  have hleaves := leavesFor_startXfer (htoken.fetch.trans (fetch_nextStamp u)) (l := lineLoc l) hl c key 5 0x41 0 ch.mask (chunkBytes s key)
  refine ⟨hleaves, ?_, _, getChunk_putChunk_same _ _ _⟩
  have hput (t : State) (ch : Chunk) : holderOf (putChunk t key ch) l = holderOf t l := by
    rw [holderOf, holderOf, hv]
    rfl
  rw [hput]
  exact holderOf_unregisterPeer _ key hl

end

theorem atomWrites_iff {fn : Nat} {old x : Word} : atomWrites fn old x = true ↔ fn ≠ 9 ∨ old = x := by
  rw [atomWrites, Bool.or_eq_true, decide_eq_true_iff, decide_eq_true_iff]

theorem atomWrites_cas {old x : Word} (h : old ≠ x) : atomWrites 9 old x = false := by
  rw [atomWrites, decide_eq_false h]
  rfl

/-- Settles O47: a far access performs at its home as one event, after the writeback that it forces, or leaves for its peer. -/
theorem farPerforms : Obligations.FarPerforms := by
  unfold Obligations.FarPerforms
  refine ⟨?_, ?_, ?_, ?_, ?_, ?_, ?_⟩
  · intro s u c op p hf hp hlive hready hpeer hhole ht hlen line from_ bytes
    have h : AtHome s c op p := ⟨hf, hp, hready, hpeer, hhole⟩
    have hfrom : from_ = (readLine s (gangOf s c) line).1 := by
      unfold readLine
      cases hr : registered s line with
      | none => simp only [from_, hr]
      | some key => simp only [from_, hr, chunkBytes]
    refine ⟨fun hr hopen => ?_, fun hk => ?_, fun hk => prefetch_claim h ht hk⟩
    · simp only [bytes, from_, hr]
      exact homeBytes_part hopen hlen
    · have hload := load_claim h hlive ht hk
      rwa [← hfrom] at hload
  · intro s u c x hx hready hp hh ht hr hwf hl
    exact store_claim hx hready hp hh ht hr hwf hl
  · intro s u c x key ch hx hready hp hh hheld ht
    exact storeHeld_claim hx hready hp hh hheld ht
  · intro r hmem s u c op p d e n hf hp hk hlive hready hpeer hhole h8 line performs
    have h : AtHome s c op p := ⟨hf, hp, hready, hpeer, hhole⟩
    constructor
    · intro ht hr hm hopen hwf old
      rw [← atomFn_of_mem r hmem]
      exact atomHome_claim h hlive hk h8 ht hr hm hopen hwf rfl
    · intro key ch hheld old
      have hclaim := atomHeld_claim (u := u) h hlive hk h8 hheld (old := old) rfl
      refine ⟨fun hw ht => ?_, fun hcas hne ht => ?_⟩
      · rw [← atomFn_of_mem r hmem]
        exact hclaim.1 (atomWrites_iff.mpr hw) ht
      · exact hclaim.2 (by rw [hcas]; exact atomWrites_cas hne) ht
  · intro s u c op p hf hp hready hpeer hn ht
    obtain ⟨v, hv⟩ := Option.isSome_iff_exists.mp hpeer
    have hexec := exec_farLoadPerform_peer hf hp hready hv hn ht
    have hfetch := (tokenStep_of_takeToken ht).fetch
    refine ⟨fun hk => ?_, fun fn d e n hk => ?_⟩
    · rw [hk] at hexec
      exact ⟨_, hexec, leavesFor_startXfer (l := lineLoc p.loc) hfetch hpeer c p.ident 0 0x40 0 0 []⟩
    · rw [hk] at hexec
      exact ⟨_, hexec, leavesFor_startXfer hfetch hpeer c p.ident 0 0x42 fn 0 (patomData d e)⟩
  · intro s u c x hx hready hpeer hn ht
    obtain ⟨v, hv⟩ := Option.isSome_iff_exists.mp hpeer
    exact ⟨_, exec_farStorePerform_peer hx hready hv hn ht,
      leavesFor_startXfer (tokenStep_of_takeToken ht).fetch hpeer c x.ident 3 0x41 0 x.mask (leBytes x.data.toNat 64)⟩
  · intro s u c l key ch hl hh hc hd hm ht gives
    have hclaim := recallPaid_claim (c := c) hl hh hc hd hm ht
    refine ⟨fun op p hf hp hloc hready => ?_, fun x hx hloc hready => ?_⟩
    · subst hloc
      exact ⟨_, exec_farLoadPerform_recall hf hp hready hl hh, hclaim⟩
    · subst hloc
      exact ⟨_, exec_farStorePerform_recall hx hready hl hh, hclaim⟩

end Sys2Proof.Proofs
end

section
/-! PROOF. The operations that leave the memories and the lists of lines as they are, and those that keep their canonical form: the slots of
a bundle (R48 to R55, R70 to R142, R147 to R179). -/

namespace Sys2Proof.Proofs

open Sys2Proof.Machine Sys2Proof.Claims Sys2Proof.Laws

/-- The memories and the lists of lines, whose canonical form every step keeps. -/
def stored (s : State) : Memory × Memory × List (Nat × Nat) × List (Nat × Bool) := (s.stash, s.far, s.lineVer, s.bad)

section
variable {s t u : State}

theorem canon_of_stored (h : stored t = stored s) : Canon s t := by
  obtain ⟨hstash, hfar, hver, hbad⟩ : t.stash = s.stash ∧ t.far = s.far ∧ t.lineVer = s.lineVer ∧ t.bad = s.bad := by
    simpa only [stored, Prod.mk.injEq] using h
  exact canon_of_eq hstash hfar hver hbad

/-- What follows leaves the memories and the lists of lines as they are. -/
theorem Canon.upto (h : Canon s t) (e : stored u = stored t) : Canon s u := h.trans (canon_of_stored e)

theorem Canon.ite {p : Prop} [Decidable p] (ht : Canon s t) (hu : Canon s u) : Canon s (if p then t else u) := by
  split
  · exact ht
  · exact hu

theorem stored_foldl {α : Type} {f : State → α → State} (h : ∀ s x, stored (f s x) = stored s) (l : List α) (s : State) :
    stored (l.foldl f s) = stored s := by
  induction l generalizing s with
  | nil => rfl
  | cons x l ih => exact (ih (f s x)).trans (h s x)

theorem OrderStep.stored (h : OrderStep s t) : Proofs.stored t = Proofs.stored s := (congrArg Proofs.stored h.rest :)

end

/-! The end of a task, and the faults of a slot. -/

theorem stored_endMember (s : State) (c cause : Nat) (info : Option Nat) : stored (endMember s c cause info) = stored s := by
  unfold endMember
  dsimp only
  split <;> rfl

theorem stored_endGang (s : State) (g : Gang) (c cause : Nat) (info : Option Nat) : stored (endGang s g c cause info) = stored s := by
  refine (stored_foldl (fun s d => ?_) (gangCores g) (endMember s c cause info)).trans (stored_endMember s c cause info)
  split
  · rfl
  · split
    · exact stored_endMember s d _ _
    · rfl

theorem stored_endTask (s : State) (c cause : Nat) (info : Option Nat) : stored (endTask s c cause info) = stored s := by
  unfold endTask
  split
  · exact stored_endGang s _ c cause info
  · exact stored_endMember s c cause info

theorem stored_takeFault (s : State) (cause uinfo : Nat) : stored (takeFault s cause uinfo) = stored s := by
  unfold takeFault
  dsimp only
  split
  · split
    · exact stored_endTask s _ _ _
    · rfl
  · exact stored_endTask s _ _ _

theorem stored_raiseWith (s : State) (i : Instr) (cause port lane : Nat) : stored (raiseWith s i cause port lane) = stored s := by
  unfold raiseWith
  dsimp only
  split
  · rfl
  · exact stored_takeFault s cause _

theorem stored_raise (s : State) (i : Instr) (cause : Nat) : stored (raise s i cause) = stored s := stored_raiseWith s i cause _ 0

theorem stored_holdIssue (s : State) : stored (holdIssue s) = stored s := by
  unfold holdIssue
  split <;> rfl

theorem stored_markLast (s : State) (src : Src) : stored (markLast s src) = stored s := by
  unfold markLast
  split
  case h_6 | h_7 => rfl
  all_goals split <;> rfl

theorem stored_markGuard (s : State) (g : Guard) (src : Src) : stored (markGuard s g src) = stored s := by
  unfold markGuard
  split
  · exact stored_markLast s src
  · rfl

theorem stored_noteWritten (s : State) (d : Dst) : stored (noteWritten s d) = stored s := by
  unfold noteWritten
  split <;> rfl

theorem stored_earlyFault (i : Instr) (src : Src) (pre : Option Nat) (s : State) : stored (earlyFault i src pre s) = stored s := by
  unfold earlyFault
  split
  · exact stored_raise s i _
  · exact stored_raiseWith s i _ _ _

theorem stored_commitEvent (s : State) : stored (commitEvent s) = stored s := by
  unfold commitEvent
  split <;> rfl

theorem stored_openWindow (s : State) (c why : Nat) : stored (openWindow s c why) = stored s := rfl

theorem stored_deliver (s : State) (port : PortId) (lat : Nat) (short : Bool) (x : VVal) : stored (deliver s port lat short x) = stored s := rfl

/-! Move slots. -/

theorem stored_fetchSrc {i : Instr} {g : Guard} {t : TSet} {src : Src} {pre : Option Nat} {s : State} :
    (∀ u, fetchSrc i g t src pre s = .inl u → stored u = stored s) ∧ ∀ x u, fetchSrc i g t src pre s = .inr (x, u) → stored u = stored s := by
  have hfault : ∀ u, Sum.inl (β := Val × State) (earlyFault i src pre s) = .inl u → stored u = stored s := fun u h => by
    rw [← Sum.inl.inj h]
    exact stored_earlyFault i src pre s
  have hread : ∀ (v x : Val) (r u : State), stored r = stored s → Sum.inr (α := State) (v, markGuard r g src) = .inr (x, u) →
      stored u = stored s := fun v x r u hr h => by
    rw [← (Prod.mk.inj (Sum.inr.inj h)).2, stored_markGuard, hr]
  unfold fetchSrc
  split
  · exact ⟨fun _ h => absurd h Sum.inr_ne_inl, fun x u => hread _ x s u rfl⟩
  all_goals
    split
    · exact ⟨hfault, fun _ _ h => absurd h Sum.inl_ne_inr⟩
    · exact ⟨fun _ h => absurd h Sum.inr_ne_inl, fun x u => hread _ x (takeFree s).2 u rfl⟩

/-- A move slot keeps the canonical forms when its effect does. -/
theorem canon_runMovePre {i : Instr} {g : Guard} {src : Src} {pre : Option Nat} {f : Val → State → State} (hf : ∀ x s, Canon s (f x s))
    (s : State) : Canon s (runMovePre i g src pre s f) := by
  unfold runMovePre
  split
  · exact canon_of_stored (stored_raise s i _)
  · split
    · exact Canon.refl s
    · exact canon_of_stored (stored_raise s i _)
    · split
      next u h => exact canon_of_stored (stored_fetchSrc.1 u h)
      next x u h => exact (canon_of_stored (stored_fetchSrc.2 x u h)).trans (hf x u)

theorem canon_runMove {i : Instr} {g : Guard} {src : Src} {f : Val → State → State} (hf : ∀ x s, Canon s (f x s)) (s : State) :
    Canon s (runMove i g src s f) := canon_runMovePre hf s

/-- A move slot whose effect leaves the memories and the lists of lines. -/
theorem stored_move {i : Instr} {g : Guard} {src : Src} {f : Val → State → State} (hf : ∀ x s, stored (f x s) = stored s) (s : State) :
    Canon s (runMove i g src s f) := canon_runMove (fun x s => canon_of_stored (hf x s)) s

/-! Address slots. -/

theorem stored_fetchAddr (u : Bool) (j : Fin 16) (t : TSet) (s : State) : stored (fetchAddr u j t s).2 = stored s := by
  unfold fetchAddr
  dsimp only
  by_cases ha : (vget (startArch s).regs.a j).dead = true
  · rw [if_pos ha]
    split <;> rfl
  · rw [if_neg ha]
    split <;> rfl

theorem canon_runAddr {i : Instr} {g : Guard} {j : Fin 16} {u : Bool} {p : AddrIn → Bool} {f : AddrIn → State → State}
    (hf : ∀ x s, Canon s (f x s)) (s : State) : Canon s (runAddr i g j u p s f) := by
  unfold runAddr
  split
  · exact canon_of_stored (stored_raise s i _)
  · split
    · exact Canon.refl s
    · exact canon_of_stored (stored_raise s i _)
    · next t _ =>
      dsimp only
      split
      · exact canon_of_stored (stored_raise s i _)
      · split
        · exact canon_of_stored (stored_raise s i _)
        · exact (canon_of_stored (stored_fetchAddr u j t s)).trans (hf _ _)

theorem stored_postUpdate (s : State) (u : Bool) (j : Fin 16) (x : AddrIn) : stored (postUpdate s u j x) = stored s := by
  unfold postUpdate
  split
  · split <;> rfl
  · rfl

end Sys2Proof.Proofs
end

section
/-! PROOF. Every slot operation keeps the canonical forms: its faults and results are the core's own, and what it does to memory goes through
the near accesses, the anvil and the reads at issue (R48 to R55, R70 to R142, R147 to R179). -/

namespace Sys2Proof.Proofs

open Sys2Proof.Machine Sys2Proof.Claims Sys2Proof.Laws

/-- An outcome keeps the canonical forms: the next state does, if there is one. -/
def CanonOut (s : State) (o : Out) : Prop := ∀ t, o = .next t → Canon s t

theorem canonOut_next {s t : State} (h : Canon s t) : CanonOut s (.next t) := fun _ e => (Host.Outcome.next.inj e) ▸ h

/-! Scalar, sequencer and vector slots: a result, a fault, or the core's own registers. -/

section
variable {s : State} {i : Instr} {g : Guard} {src : Src}

/-- A fault, or what leaves the memories. -/
theorem stored_fault_or {t : State} {p : Prop} [Decidable p] {c : Nat} (h : stored t = stored s) :
    stored (if p then raise s i c else t) = stored s := by
  split
  · exact stored_raise s i c
  · exact h

theorem canon_scalarOp2 {sb : Bool} {lat : Nat} {f : Word → Word → Word} : Canon s (scalarOp2 i g src sb lat f s) :=
  stored_move (fun _ _ => by exact rfl) s

theorem canon_scalarOp1 {sb : Bool} {f : Word → Nat} : Canon s (scalarOp1 i g src sb f s) := stored_move (fun _ _ => by exact rfl) s

theorem canon_scalarWidthOp {sb : Bool} {width : Word → Nat} {f : Word → Word → Word} : Canon s (scalarWidthOp i g src sb width f s) := by
  refine stored_move (fun x s => ?_) s
  dsimp only
  split
  · rfl
  · split
    · rfl
    · exact stored_raise s i _

theorem canon_steerCompare {k : Fin 12} {f : Word → Word → Bool} : Canon s (steerCompare i g src k f s) := stored_move (fun _ _ => by exact rfl) s

theorem canon_vectorOp {port : PortId} {lat : Nat} {f : VVal → CoreArch → VVal} : Canon s (vectorOp i g src port lat f s) :=
  stored_move (fun _ _ => by exact rfl) s

theorem canon_branchOp {onSet : Bool} : Canon s (branchOp i g src onSet s) := by
  refine canon_runMovePre (fun x s => canon_of_stored ?_) s
  split
  · refine stored_fault_or (stored_fault_or ?_)
    split <;> rfl
  · exact stored_raise s i _

end

section
variable (s : State) (g : Guard) (src : Src)

theorem canonOut_mov (dst : Dst) : CanonOut s (execMov g src dst s) :=
  canonOut_next (stored_move (fun _ s => by exact stored_noteWritten (modArch s _) dst) s)

theorem canonOut_maskedVectorWrite (dst : BitVec 10) : CanonOut s (execMaskedVectorWrite src dst s) :=
  canonOut_next (stored_move (fun _ s => by exact stored_noteWritten (modRegs s _) _) s)

theorem canonOut_skPrep (k : Fin 12) : CanonOut s (execSkPrep g src k s) :=
  canonOut_next (stored_move (fun _ _ => by exact stored_fault_or (stored_fault_or rfl)) s)

theorem canonOut_seqJmp : CanonOut s (execSeqJmp g src s) :=
  canonOut_next (canon_runMovePre (fun _ _ => by exact canon_of_stored (stored_fault_or (stored_fault_or rfl))) s)

theorem canonOut_seqCall : CanonOut s (execSeqCall g src s) :=
  canonOut_next (canon_runMovePre (fun _ _ => by exact canon_of_stored (stored_fault_or (stored_fault_or (stored_fault_or (stored_fault_or rfl))))) s)

theorem canonOut_seqRet : CanonOut s (execSeqRet g src s) := by
  refine canonOut_next (canon_runMovePre (fun _ s => ?_) s)
  refine canon_of_stored (stored_fault_or ?_)
  split
  · exact stored_raise s _ _
  · rfl

theorem canonOut_seqLoop : CanonOut s (execSeqLoop g src s) := by
  refine canonOut_next (canon_runMovePre (fun _ s => ?_) s)
  refine canon_of_stored (stored_fault_or (stored_fault_or (stored_fault_or ?_)))
  dsimp only
  split
  · exact stored_fault_or rfl
  · rfl

theorem canonOut_seqLbrk : CanonOut s (execSeqLbrk g src s) := by
  refine canonOut_next (canon_runMovePre (fun _ s => canon_of_stored ?_) s)
  split
  · refine stored_fault_or ?_
    split
    · exact stored_raise s _ _
    · dsimp only
      split <;> rfl
  · exact stored_raise s _ _

theorem canonOut_seqExit : CanonOut s (execSeqExit g src s) :=
  canonOut_next (stored_move (fun _ s => by exact stored_fault_or (stored_commitEvent s)) s)

theorem canonOut_seqTrap : CanonOut s (execSeqTrap g src s) :=
  canonOut_next (stored_move (fun _ _ => by exact stored_fault_or (stored_fault_or rfl)) s)

theorem canonOut_seqWfe : CanonOut s (execSeqWfe g src s) :=
  canonOut_next (stored_move (fun _ _ => by exact stored_fault_or (stored_fault_or rfl)) s)

theorem canonOut_seqSev : CanonOut s (execSeqSev g src s) := canonOut_next (stored_move (fun _ _ => by exact stored_fault_or rfl) s)

theorem canonOut_seqReti : CanonOut s (execSeqReti g src s) := by
  refine canonOut_next (canon_runMovePre (fun _ s => canon_of_stored ?_) s)
  split
  · rfl
  · exact stored_raise s _ _

theorem canonOut_seqCsrr : CanonOut s (execSeqCsrr g src s) := by
  refine canonOut_next (stored_move (fun _ s => ?_) s)
  split
  · exact stored_raise s _ _
  · rfl

theorem canonOut_seqCsrw : CanonOut s (execSeqCsrw g src s) := by
  refine canonOut_next (canon_runMovePre (fun _ s => ?_) s)
  refine canon_of_stored (stored_fault_or ?_)
  split
  · exact stored_raise s _ _
  · rfl

theorem canonOut_seqYield : CanonOut s (execSeqYield g src s) := canonOut_next (stored_move (fun _ _ => by exact rfl) s)

theorem canonOut_vuCompress : CanonOut s (execVuCompress g src s) := canonOut_next (stored_move (fun _ _ => by exact rfl) s)

theorem canonOut_vuSpush : CanonOut s (execVuSpush g src s) :=
  canonOut_next (canon_runMovePre (fun _ _ => by exact canon_of_stored (stored_fault_or rfl)) s)

theorem canonOut_vuSpop : CanonOut s (execVuSpop g src s) := canonOut_next (stored_move (fun _ _ => by exact stored_fault_or (stored_fault_or rfl)) s)

/-! Translations, taints and barriers. -/

theorem canonOut_xlHk (k : Fin 16) : CanonOut s (execXlHk g src k s) := by
  refine canonOut_next (stored_move (fun _ s => ?_) s)
  refine stored_fault_or (stored_fault_or ?_)
  split
  · exact stored_raise s _ _
  · rfl

theorem canonOut_xlDrop : CanonOut s (execXlDrop g src s) := canonOut_next (stored_move (fun _ _ => by exact stored_fault_or rfl) s)

theorem canonOut_tntClr : CanonOut s (execTntClr g src s) := canonOut_next (stored_move (fun _ _ => by exact rfl) s)

theorem canonOut_tntJoin : CanonOut s (execTntJoin g src s) := canonOut_next (stored_move (fun _ _ => by exact rfl) s)

theorem canonOut_tntPclr : CanonOut s (execTntPclr g src s) := canonOut_next (stored_move (fun _ _ => by exact stored_fault_or rfl) s)

theorem canonOut_tntNext : CanonOut s (execTntNext g src s) := by
  refine canonOut_next (stored_move (fun _ s => ?_) s)
  dsimp only
  split <;> rfl

theorem canonOut_tntOf : CanonOut s (execTntOf g src s) := canonOut_next (stored_move (fun _ _ => by exact rfl) s)

end

/-! Arrivals, which may end a phase and send PCOLL frames. -/

theorem canon_sendPcoll (s : State) (dest : Nat) (x : PColl) : Canon s (sendPcoll s dest x) := by
  unfold sendPcoll
  refine Canon.trans ?_ (memStep_sendPod _ _ _ _ _).toCanon
  exact (memStep_hub s _).toCanon

theorem canon_podRelease (s : State) (n ch phase : Nat) : Canon s (podRelease s n ch phase) := by
  unfold podRelease
  split
  · exact Canon.refl s
  next g _ =>
    refine Canon.ite ?_ (Canon.refl s)
    exact (canon_of_eq rfl rfl rfl rfl : Canon s (setGroup s n _)).trans (Canon.foldl (fun s j => canon_sendPcoll s _ _) _ _)

theorem canon_podAdvance (s : State) (n ch phase : Nat) : Canon s (podAdvance s n ch phase) := by
  unfold podAdvance
  split
  · exact Canon.refl s
  · exact Canon.ite (Canon.ite (canon_podRelease s n ch phase) (canon_sendPcoll s _ _)) (Canon.refl s)

theorem canon_podArrive (s : State) (x : Chan) (full : Nat) : Canon s (podArrive s x full) := by
  unfold podArrive
  dsimp only
  split
  · exact Canon.refl s
  · refine Canon.foldl (fun s p => ?_) _ _
    split
    · exact (canon_of_eq rfl rfl rfl rfl : Canon s (setGroup s _ _)).trans (canon_podAdvance _ _ _ _)
    · exact Canon.refl s

theorem canon_dateReleases (s : State) (x : ChanId) : Canon s (dateReleases s x) := by
  unfold dateReleases
  exact Canon.ite (canon_podArrive s _ _) (canon_of_eq rfl rfl rfl rfl)

theorem canon_countArrival (s : State) (x : ChanId) (c : Nat) : Canon s (countArrival s x c) := by
  unfold countArrival
  refine Canon.trans ?_ (canon_dateReleases _ x)
  exact (memStep_hub s _).toCanon

theorem canon_dateGang (s : State) (ctx : Nat) : Canon s (dateGang s ctx) := Canon.foldl (f := fun (s : State) (c : Chan) => dateReleases s c.ident) (fun s c => canon_dateReleases s c.ident) _ _

theorem canon_arriveAt (s : State) (x : ChanId) (sync : Bool) : Canon s (arriveAt s x sync) := by
  have hopen : Canon s (openWindow (noteObserved s x s.cur) s.cur 5) := canon_of_eq rfl rfl rfl rfl
  unfold arriveAt
  dsimp only
  split
  · have hcount := hopen.trans (canon_countArrival _ x (openWindow (noteObserved s x s.cur) s.cur 5).cur)
    split
    · exact hcount.upto rfl
    · exact hcount
  · exact hopen.upto rfl

section
variable (s : State) (g : Guard) (src : Src)

theorem canonOut_barArrive : CanonOut s (execBarArrive g src s) :=
  canonOut_next (canon_runMove (fun _ s => by exact Canon.ite (canon_arriveAt s _ _) (canon_of_stored (stored_raise s _ _))) s)

theorem canonOut_barSync : CanonOut s (execBarSync g src s) :=
  canonOut_next (canon_runMove (fun _ s => by exact Canon.ite (canon_arriveAt s _ _) (canon_of_stored (stored_raise s _ _))) s)

theorem canonOut_barWait : CanonOut s (execBarWait g src s) := by
  refine canonOut_next (stored_move (fun _ s => ?_) s)
  split
  · dsimp only
    split <;> rfl
  · exact stored_raise s _ _

theorem canonOut_barDrain : CanonOut s (execBarDrain g src s) := canonOut_next (stored_move (fun _ s => by exact stored_commitEvent s) s)

end

/-! Anvil triggers. -/

theorem canon_anvTrigger (i : Instr) (k : AnvKind) (x : Val) (s : State) : Canon s (anvTrigger i k x s) := by
  unfold anvTrigger
  dsimp only
  split
  · exact canon_of_stored (stored_raise s i _)
  · refine Canon.ite (canon_of_stored (stored_holdIssue s)) (Canon.ite ?_ (canon_of_eq rfl rfl rfl rfl))
    exact (canon_of_eq rfl rfl rfl rfl : Canon s (modAnv s _)).trans (taskStep_anvilRun _ _ _).toCanon

theorem canonOut_anv {i : Instr} {g : Guard} {src : Src} {pre : Option Nat} (s : State) (k : AnvKind) :
    CanonOut s (.next (runMovePre i g src pre s (anvTrigger i k))) := canonOut_next (canon_runMovePre (canon_anvTrigger i k) s)

theorem canonOut_anvProg (s : State) (g : Guard) (src : Src) : CanonOut s (execAnvProg g src s) :=
  canonOut_next (stored_move (fun _ _ => by exact rfl) s)

/-! Engine triggers: the reads at issue. -/

/-- Whether an issue succeeds. -/
def issueSucceeds : EngIssue → Bool
  | .ok _ _ => true
  | _ => false

/-- An issue that succeeds keeps the canonical forms. -/
def CanonIssue (s : State) (r : EngIssue) : Prop := ∀ c t, r = .ok c t → Canon s t

section
variable {s t : State}

theorem canonIssue_bad (k : Nat × Nat) : CanonIssue s (.bad k) := fun _ _ h => absurd (congrArg issueSucceeds h) Bool.false_ne_true
theorem canonIssue_await (l : List Nat) : CanonIssue s (.await l) := fun _ _ h => absurd (congrArg issueSucceeds h) Bool.false_ne_true
theorem canonIssue_ok (c : EngCmd) : CanonIssue s (.ok c s) := fun _ _ h => (EngIssue.ok.inj h).2 ▸ Canon.refl s

theorem CanonIssue.after {r : EngIssue} (h : CanonIssue t r) (k : Canon s t) : CanonIssue s r := fun c u e => k.trans (h c u e)

theorem canonIssue_checked {c : Chk} {r : EngIssue} (h : CanonIssue s r) : CanonIssue s (checked c r) := by
  unfold checked
  split
  · exact canonIssue_bad _
  · exact h

end

theorem canon_issueFills (c : Nat) (e : TSet) (ks : List Nat) (s : State) : Canon s (issueFills c e ks s).2 := by
  induction ks generalizing s with
  | nil => exact Canon.refl s
  | cons k ks ih =>
    unfold issueFills
    split
    · exact ih s
    · split
      next w _ =>
        dsimp only
        refine Canon.trans ?_ (ih _)
        by_cases hp : xferPending s 1 (quadOf c * 65536 + k) = true
        · rw [if_pos hp]
          exact Canon.refl s
        · rw [if_neg hp]
          exact (taskStep_startFill s c _ none w _).toCanon
      · exact ih s

theorem canonIssue_withRead {s : State} {e : TSet} {a n : Nat} {f : List (Byte × Bool) → State → EngIssue}
    (hf : ∀ l s, CanonIssue s (f l s)) : CanonIssue s (withRead s e a n f) := by
  have hread : ∀ l u, issueRead s e a n = .got l u → Canon s u := by
    intro l u h
    unfold issueRead at h
    split at h
    · nomatch h
    · split at h
      next u' hfills =>
        have hcanon := canon_issueFills s.cur e (spanChunks [(a, n)]) s
        rw [hfills] at hcanon
        cases h
        exact hcanon
      · nomatch h
  unfold withRead
  split
  next l u h => exact (hf l u).after (hread l u h)
  · exact canonIssue_await _

theorem canonIssue_stack {s : State} {c : EngCmd} {n : Nat} {early align : Chk} {f : EngCmd → State → EngIssue}
    (hf : ∀ c s, CanonIssue s (f c s)) : CanonIssue s (stackIssue s c n early align f) := by
  unfold stackIssue
  refine canonIssue_checked ?_
  split
  · exact canonIssue_bad _
  · split
    · exact canonIssue_checked (canonIssue_bad _)
    · exact canonIssue_withRead (fun _ _ => hf _ _)

theorem canonIssue_readSpans {e : TSet} {f : List (Byte × Bool) → State → EngIssue} (hf : ∀ l s, CanonIssue s (f l s)) (l : List (Nat × Nat))
    (acc : List (Byte × Bool)) (s : State) : CanonIssue s (readSpans e f l acc s) := by
  induction l generalizing acc s with
  | nil => exact hf acc s
  | cons p l ih => exact canonIssue_withRead (fun _ _ => ih _ _)

theorem canonIssue_copy (mc : Bool) (s : State) (c : EngCmd) : CanonIssue s (issueCopy mc s c) := by
  unfold issueCopy
  refine canonIssue_checked ?_
  split
  · exact canonIssue_checked (canonIssue_ok c)
  · split
    · exact canonIssue_bad _
    · split
      · exact canonIssue_checked (canonIssue_bad _)
      · exact canonIssue_withRead (fun _ _ => canonIssue_checked (canonIssue_ok _))

theorem canonIssue_indexed (g : Bool) (s : State) (c : EngCmd) : CanonIssue s (issueIndexed g s c) := by
  unfold issueIndexed
  dsimp only
  split
  · exact canonIssue_bad _
  · exact canonIssue_checked (canonIssue_withRead (fun _ _ => canonIssue_ok _))

theorem canonIssue_coll (s : State) (c : EngCmd) : CanonIssue s (issueColl s c) := canonIssue_checked (canonIssue_ok _)

theorem canonIssue_kvapp (s : State) (c : EngCmd) : CanonIssue s (issueKvapp s c) := by
  unfold issueKvapp
  split
  · exact canonIssue_bad _
  · exact canonIssue_stack (fun _ _ => canonIssue_checked (canonIssue_readSpans (fun _ _ => canonIssue_ok _) _ _ _))

theorem canonIssue_kvcomp (s : State) (c : EngCmd) : CanonIssue s (issueKvcomp s c) := by
  unfold issueKvcomp
  split
  · exact canonIssue_bad _
  · exact canonIssue_stack (fun _ _ => canonIssue_checked (canonIssue_withRead (fun _ _ => canonIssue_ok _)))

theorem canonIssue_px (s : State) (c : EngCmd) : CanonIssue s (issuePx s c) := by
  unfold issuePx
  split
  · exact canonIssue_bad _
  · exact canonIssue_stack (fun _ _ => canonIssue_checked (canonIssue_withRead (fun _ _ => canonIssue_ok _)))

theorem canonIssue_pxrel (s : State) (c : EngCmd) : CanonIssue s (issuePxrel s c) := by
  unfold issuePxrel
  split
  · exact canonIssue_bad _
  · exact canonIssue_stack (fun _ _ => canonIssue_checked (canonIssue_ok _))

theorem canonIssue_ofOp (s : State) (c : EngCmd) : CanonIssue s (issueOfOp s c) := by
  unfold issueOfOp
  split
  · exact canonIssue_copy false s c
  · exact canonIssue_copy true s c
  · exact canonIssue_checked (canonIssue_ok c)
  · exact canonIssue_ok c
  · exact canonIssue_ok c
  · exact canonIssue_indexed true s c
  · exact canonIssue_indexed false s c
  · exact canonIssue_checked (canonIssue_ok c)
  · unfold issueGemv
    exact canonIssue_stack (fun _ _ => canonIssue_checked (canonIssue_ok _))
  · unfold issueAttn
    exact canonIssue_stack (fun _ _ => canonIssue_checked (canonIssue_ok _))
  · unfold issueBags
    exact canonIssue_stack (fun _ _ => canonIssue_checked (canonIssue_withRead (fun _ _ => canonIssue_ok _)))
  · exact canonIssue_coll s c
  · exact canonIssue_coll s c
  · exact canonIssue_coll s c
  · exact canonIssue_kvapp s c
  · exact canonIssue_kvcomp s c
  · exact canonIssue_px s c
  · exact canonIssue_px s c
  · exact canonIssue_pxrel s c
  · exact canonIssue_bad _

theorem stored_raiseChk (s : State) (i : Instr) (c : Nat × Nat) : stored (raiseChk s i c) = stored s := by
  unfold raiseChk
  split
  · rfl
  · exact stored_takeFault s _ _

theorem canon_holdFor (s : State) (keys : List Nat) : Canon s (holdFor s keys) := by
  unfold holdFor
  split
  · exact canon_of_eq rfl rfl rfl rfl
  · refine (canon_of_stored (stored_holdIssue s)).trans (Canon.foldl (fun s key => ?_) _ _)
    split
    · exact Canon.ite (Canon.refl s) (taskStep_startFill s s.cur _ none _ key).toCanon
    · exact Canon.refl s

theorem stored_enqueue (s : State) (c : EngCmd) : stored (enqueue s c) = stored s := stored_commitEvent (deliver (modArch s _) _ _ _ _)

theorem canon_engTrigger {op : EngOp} {i : Instr} {g : Guard} {src : Src} (s : State) : Canon s (engTrigger op i g src s) := by
  refine canon_runMovePre (fun x s => ?_) s
  dsimp only
  refine Canon.ite (canon_of_stored (stored_raise s i _)) ?_
  split
  · exact canon_of_stored (stored_raiseChk s i _)
  · exact canon_holdFor s _
  next c u hok =>
    have hread : Canon s u := canonIssue_ofOp s _ c u hok
    refine Canon.ite (canon_of_stored (stored_holdIssue s)) ?_
    have hqueued := hread.upto (stored_enqueue u c)
    exact Canon.ite (hqueued.trans (canon_arriveAt _ _ _)) hqueued

section
variable (s : State) (g : Guard) (src : Src)

theorem canonOut_engQfence : CanonOut s (execEngQfence g src s) := by
  refine canonOut_next (stored_move (fun _ s => ?_) s)
  refine stored_fault_or (stored_fault_or ?_)
  split
  · exact stored_holdIssue s
  · exact stored_commitEvent (deliver (modArch s _) _ _ _ _)

theorem canonOut_engQwait : CanonOut s (execEngQwait g src s) := by
  refine canonOut_next (stored_move (fun _ s => ?_) s)
  refine stored_fault_or ?_
  split
  · exact stored_fault_or (stored_commitEvent s)
  · split
    · exact stored_fault_or (stored_commitEvent s)
    · exact stored_raise s _ _

theorem canonOut_engQpoll : CanonOut s (execEngQpoll g src s) :=
  canonOut_next (stored_move (fun _ s => by exact stored_fault_or (stored_fault_or (stored_commitEvent (deliver s _ _ _ _)))) s)

end

/-! Address slots. -/

section
variable {i : Instr} {g : Guard} {a k : Fin 16} {u : Bool} (s : State)

theorem canon_fault_or {t : State} {p : Prop} [Decidable p] {c : Nat} (h : Canon s t) : Canon s (if p then raise s i c else t) :=
  Canon.ite (canon_of_stored (stored_raise s i c)) h

/-- An access joins those of its core. -/
theorem stored_accessAdded (n : Nat) (f : Order → Order) : stored (modOrder { s with uid := n } f) = stored s := rfl

theorem canon_issueNear (op : NearOp) (u : Bool) (a : Fin 16) (x : AddrIn) : Canon s (issueNear s op u a x) :=
  (((canon_of_eq rfl rfl rfl rfl : Canon s { s with uid := s.uid + 1 }).trans (taskStep_submitNear _ op).toCanon)).upto
    (stored_postUpdate _ u a x)

theorem canon_nearLoad {o : BitVec 6} {size align lat : Nat} {kind : NearKind} : Canon s (nearLoad i g a u o size align lat kind s) :=
  canon_runAddr (fun x s => by exact canon_fault_or s (canon_fault_or s (canon_fault_or s (canon_fault_or s (canon_issueNear s _ u a x))))) s

theorem canon_nearStoreOp {o : BitVec 6} {size align : Nat} {tagged : Bool} : Canon s (nearStoreOp i g a u o size align tagged s) :=
  canon_runAddr (fun x s =>
    canon_fault_or s (canon_fault_or s (canon_fault_or s (canon_fault_or s (canon_fault_or s (canon_issueNear s _ u a x)))))) s

theorem canon_laneAccess {o : BitVec 6} {store : Bool} : Canon s (laneAccess i g a u o store s) := by
  refine canon_runAddr (fun x s => ?_) s
  refine canon_fault_or s ?_
  split
  · exact canon_of_stored (stored_raiseWith s i _ _ _)
  · split
    · exact canon_of_stored (stored_raiseWith s i _ _ _)
    · split
      · split
        · exact canon_of_stored (stored_raiseWith s i _ _ _)
        · exact canon_issueNear s _ u a x
      · exact canon_issueNear s _ u a x

theorem canon_farLoad {l : BitVec 2} {size align : Nat} : Canon s (farLoad i g a k u l size align s) := by
  refine canon_runAddr (fun x s => ?_) s
  refine canon_fault_or s (canon_fault_or s ?_)
  split
  · exact canon_of_stored (stored_raise s i _)
  · exact canon_of_stored ((stored_postUpdate _ u a x).trans (stored_accessAdded s _ _))

theorem canon_farStore {size align : Nat} : Canon s (farStore i g a k u size align s) := by
  refine canon_runAddr (fun x s => ?_) s
  refine canon_fault_or s (canon_fault_or s ?_)
  split
  · exact canon_of_stored (stored_raise s i _)
  · refine canon_of_stored ((stored_postUpdate _ u a x).trans ((stored_foldl (fun s p => ?_) _ _).trans (orderStep_signStore s _ _).stored))
    split
    split
    · rfl
    · exact (orderStep_bufferStore s _ _ _ _).stored

theorem canon_prefetch : Canon s (prefetch i g a k u s) :=
  canon_runAddr (fun x s => by exact canon_fault_or s (canon_fault_or s (Canon.ite (canon_of_stored (stored_postUpdate s u a x))
    (canon_of_stored ((stored_postUpdate _ u a x).trans (stored_accessAdded s _ _)))))) s

theorem canon_atomOp {c : BitVec 3} {fn : Nat} : Canon s (atomOp i g a k c fn s) := by
  refine canon_runAddr (fun x s => ?_) s
  dsimp only
  split
  · refine canon_fault_or s (canon_fault_or s (canon_fault_or s ?_))
    exact ((canon_of_eq rfl rfl rfl rfl : Canon s { s with uid := s.uid + 1 }).trans (taskStep_submitNear _ _).toCanon).upto rfl
  · refine canon_fault_or s ?_
    split
    · exact canon_of_stored (stored_raise s i _)
    · exact canon_fault_or s (canon_of_stored ((stored_commitEvent _).trans (stored_accessAdded s _ _)))

theorem canonOut_aupd : CanonOut s (execAupd g a s) :=
  canonOut_next (canon_runAddr (fun x s => by exact canon_fault_or s (canon_of_stored (stored_postUpdate s true a x))) s)

theorem canonOut_aadd (n : BitVec 7) : CanonOut s (execAadd g a n s) :=
  canonOut_next (canon_runAddr (fun _ _ => by exact canon_of_eq rfl rfl rfl rfl) s)

end

/-- Every slot operation keeps the canonical forms. -/
theorem canonOut_slot {i : Instr} (h : encFields i ≠ .none) (s : State) : CanonOut s (exec i s) := by
  cases i with
  | mov g src d => exact canonOut_mov s g src d
  | maskedVectorWrite src d => exact canonOut_maskedVectorWrite s src d
  | saAdd g src sb | saSub g src sb | saAnd g src sb | saOr g src sb | saXor g src sb | saAndn g src sb | saShl g src sb
  | saShr g src sb | saSar g src sb | saMin g src sb | saMax g src sb | saMinu g src sb | saMaxu g src sb | saMul g src sb
  | saMulh g src sb | saMulhu g src sb =>
    exact canonOut_next canon_scalarOp2
  | saClz g src sb | saCtz g src sb | saPopc g src sb => exact canonOut_next canon_scalarOp1
  | saSext g src sb | saZext g src sb | saBfx g src sb => exact canonOut_next canon_scalarWidthOp
  | skEq g src k | skNe g src k | skLt g src k | skGe g src k | skLtu g src k | skGeu g src k | skTst g src k
  | skTstn g src k =>
    exact canonOut_next canon_steerCompare
  | skPrep g src k => exact canonOut_skPrep s g src k
  | seqBr g src | seqBrn g src => exact canonOut_next canon_branchOp
  | seqJmp g src => exact canonOut_seqJmp s g src
  | seqCall g src => exact canonOut_seqCall s g src
  | seqRet g src => exact canonOut_seqRet s g src
  | seqLoop g src => exact canonOut_seqLoop s g src
  | seqLbrk g src => exact canonOut_seqLbrk s g src
  | seqExit g src => exact canonOut_seqExit s g src
  | seqTrap g src => exact canonOut_seqTrap s g src
  | seqWfe g src => exact canonOut_seqWfe s g src
  | seqSev g src => exact canonOut_seqSev s g src
  | seqReti g src => exact canonOut_seqReti s g src
  | seqCsrr g src => exact canonOut_seqCsrr s g src
  | seqCsrw g src => exact canonOut_seqCsrw s g src
  | seqYield g src => exact canonOut_seqYield s g src
  | vuAddF g src | vuSubF g src | vuMulF g src | vuFmaF g src | vuFmsF g src | vuMaxF g src | vuMinF g src | vuAbsF g src
  | vuCmpeqF g src | vuCmpltF g src | vuCmpleF g src | vuAddI g src | vuSubI g src | vuMulI g src | vuMaxI g src
  | vuMinI g src | vuMaxuI g src | vuMinuI g src | vuAnd g src | vuOr g src | vuXor g src | vuShl g src | vuShr g src
  | vuSar g src | vuCmpeqI g src | vuCmpltI g src | vuCmpltuI g src | vuDot4 g src | vuExp2 g src | vuRcp g src
  | vuRsqrt g src | vuRedaddF g src | vuRedmaxF g src | vuRedaddI g src | vuRedmaxI g src | vuRedminI g src | vuScanI g src
  | vuPerm g src | vuRot g src | vuBcast g src | vuSel g src | vuExpand g src | vuIota g src
  | vuCvtFI g src | vuCvtIF g src | vuCvtIFZ g src | vuInsE40 g src | vuInsE41 g src | vuInsE42 g src | vuInsE43 g src
  | vuInsQ80 g src | vuInsQ81 g src | vuInsQ82 g src | vuInsQ83 g src | vuInsQ4x0 g src | vuInsQ4x1 g src | vuInsQ4x2 g src
  | vuInsQ4x3 g src | vuInsH0 g src | vuInsH1 g src | vuExtE40 g src | vuExtE41 g src | vuExtE42 g src | vuExtE43 g src
  | vuExtQ80 g src | vuExtQ81 g src | vuExtQ82 g src | vuExtQ83 g src | vuExtQ4x0 g src | vuExtQ4x1 g src | vuExtQ4x2 g src
  | vuExtQ4x3 g src | vuExtQ4x4 g src | vuExtQ4x5 g src | vuExtQ4x6 g src | vuExtQ4x7 g src | vuExtH0 g src | vuExtH1 g src =>
    exact canonOut_next canon_vectorOp
  | vuCompress g src => exact canonOut_vuCompress s g src
  | vuSpush g src => exact canonOut_vuSpush s g src
  | vuSpop g src => exact canonOut_vuSpop s g src
  | anvLdw g src | anvSwap g src | anvRun g src | anvRunz g src | anvRunv g src | anvMpb g src | anvRd g src
  | anvClr g src =>
    exact canonOut_anv s _
  | anvWr g src => exact canonOut_next (canon_runMovePre (fun _ _ => canon_anvTrigger _ _ _ _) s)
  | anvProg g src => exact canonOut_anvProg s g src
  | engCopy g src | engCopyMc g src | engSmap g src | engSinv g src | engSwb g src | engGather g src | engScatter g src
  | engTopk g src | engSgemv g src | engSattn g src | engSred g src | engCallred g src | engCbcast g src | engCreduce g src
  | engKvapp g src | engKvcomp g src | engPxlook g src | engPxins g src | engPxrel g src =>
    exact canonOut_next (canon_engTrigger s)
  | engQfence g src => exact canonOut_engQfence s g src
  | engQwait g src => exact canonOut_engQwait s g src
  | engQpoll g src => exact canonOut_engQpoll s g src
  | xlHk g src k => exact canonOut_xlHk s g src k
  | xlDrop g src => exact canonOut_xlDrop s g src
  | tntClr g src => exact canonOut_tntClr s g src
  | tntJoin g src => exact canonOut_tntJoin s g src
  | tntPclr g src => exact canonOut_tntPclr s g src
  | tntNext g src => exact canonOut_tntNext s g src
  | tntOf g src => exact canonOut_tntOf s g src
  | barArrive g src => exact canonOut_barArrive s g src
  | barWait g src => exact canonOut_barWait s g src
  | barSync g src => exact canonOut_barSync s g src
  | barDrain g src => exact canonOut_barDrain s g src
  | ldnB g j u o | ldnH g j u o | ldnW g j u o | ldnD g j u o | ldnV g j u o | ldnT g j u o =>
    exact canonOut_next (canon_nearLoad s)
  | stnB g j u o | stnH g j u o | stnW g j u o | stnD g j u o | stnV g j u o | stnT g j u o =>
    exact canonOut_next (canon_nearStoreOp s)
  | ldnGv g j u o | stnSv g j u o => exact canonOut_next (canon_laneAccess s)
  | ldfW g j k u l | ldfD g j k u l | ldfV g j k u l => exact canonOut_next (canon_farLoad s)
  | stfW g j k u l | stfD g j k u l | stfV g j k u l => exact canonOut_next (canon_farStore s)
  | pf g j k u l => exact canonOut_next (canon_prefetch s)
  | atomAdd g j k c | atomAnd g j k c | atomOr g j k c | atomXor g j k c | atomMin g j k c | atomMax g j k c
  | atomMinu g j k c | atomMaxu g j k c | atomXchg g j k c | atomCas g j k c =>
    exact canonOut_next (canon_atomOp s)
  | aupd g j => exact canonOut_aupd s
  | aadd g j n => exact canonOut_aadd s n
  | _ => exact absurd rfl h

end Sys2Proof.Proofs
end

section
/-! PROOF. The runs of engine commands keep the canonical forms: what they read and write goes through the lines, the chunks and the stash
(R163 to R168, R195 to R197, R249 to R256, R271 to R277). -/

namespace Sys2Proof.Proofs

open Sys2Proof.Machine Sys2Proof.Claims Sys2Proof.Laws

/-! Lines, chunks and the stash in a run. -/

theorem st_gateLine (x : EngRun) (l : Loc) : (gateLine x l).st = x.st := by
  unfold gateLine
  split
  · rfl
  · split <;> rfl

theorem st_peerLine (x : EngRun) (l : Loc) : (peerLine x l).2.2.st = x.st := by
  unfold peerLine
  split <;> rfl

theorem st_gateStash (x : EngRun) (q : Nat) : (gateStash x q).st = x.st := by
  unfold gateStash
  split <;> rfl

theorem canon_engLine (x : EngRun) (l : Loc) : Canon x.st (engLine x l).2.2.st := by
  have hgate := st_gateLine x l
  unfold engLine
  dsimp only
  generalize gateLine x l = y at hgate
  rw [← hgate]
  split
  · rw [st_peerLine]
    exact Canon.refl _
  · exact ((memStep_noteRead y.st _ _).trans (memStep_nextStamp _)).toCanon

theorem canon_farReadPieces (l : Loc) (ps : List (Nat × Nat × Nat)) (x : EngRun) : Canon x.st (farReadPieces x l ps).2.2.st := by
  induction ps generalizing x with
  | nil => exact Canon.refl _
  | cons p ps ih =>
    rw [farReadPieces]
    exact (canon_engLine x _).trans (ih _)

theorem canon_engFarRead (x : EngRun) (l : Loc) (n : Nat) : Canon x.st (engFarRead x l n).2.2.st := canon_farReadPieces l _ x

theorem canon_crucibleRead (l : Loc) (ps : List (Nat × Nat × Nat)) (x : EngRun) : Canon x.st (crucibleRead x l ps).2.2.st := by
  induction ps generalizing x with
  | nil => exact Canon.refl _
  | cons p ps ih =>
    rw [crucibleRead]
    exact (canon_engLine x _).trans (ih _)

theorem canon_stackRead (x : EngRun) (l : Loc) (n : Nat) : Canon x.st (stackRead x l n).2.2.st := canon_crucibleRead l _ x

theorem canon_engLineWrite (x : EngRun) (l : Loc) (off : Nat) (bs : List Byte) : Canon x.st (engLineWrite x l off bs).st := by
  have hready : (if l.peer.isNone then forceRecalls (if sealWaits x.st l then (gateLine x l).hold else gateLine x l) [l]
      else if sealWaits x.st l then (gateLine x l).hold else gateLine x l).st = x.st := by
    have hgate : (if sealWaits x.st l then (gateLine x l).hold else gateLine x l).st = x.st := by
      split
      · exact st_gateLine x l
      · exact st_gateLine x l
    split
    · exact hgate
    · exact hgate
  unfold engLineWrite
  dsimp only
  generalize (if l.peer.isNone then forceRecalls (if sealWaits x.st l then (gateLine x l).hold else gateLine x l) [l]
      else if sealWaits x.st l then (gateLine x l).hold else gateLine x l) = y at hready
  rw [← hready]
  split
  · exact Canon.refl _
  · exact ((memStep_nextStamp y.st).trans (memStep_writeLine _ _ _ _ _)).toCanon

theorem canon_farWritePieces (l : Loc) (ps : List (Nat × Nat × Nat)) (bs : List Byte) (x : EngRun) :
    Canon x.st (farWritePieces x l ps bs).st := by
  induction ps generalizing x bs with
  | nil => exact Canon.refl _
  | cons p ps ih =>
    rw [farWritePieces]
    exact (canon_engLineWrite x _ _ _).trans (ih _ _)

theorem canon_engFarWrite (x : EngRun) (l : Loc) (bs : List Byte) : Canon x.st (engFarWrite x l bs).st := canon_farWritePieces l _ bs x

theorem canon_engFill (x : EngRun) (key : Nat) (w : Window) : Canon x.st (engFill x key w).st := by
  unfold engFill
  split
  · exact Canon.refl _
  next l _ =>
    have hgate := st_gateLine x l
    dsimp only
    generalize gateLine x l = y at hgate
    rw [← hgate]
    split
    · exact canon_of_eq (by rw [hgate]) (by rw [hgate]) (by rw [hgate]) (by rw [hgate])
    · exact ((memStep_noteRead y.st _ _).trans (memStep_fillChunk _ _ _ _)).toCanon

theorem canon_engReadyRead (x : EngRun) (q k : Nat) : Canon x.st (engReadyRead x q k).st := by
  unfold engReadyRead
  split
  · split
    · exact Canon.refl _
    · split
      · split
        · exact Canon.refl _
        · exact canon_engFill x _ _
      · exact canon_engFill x _ _
  · exact Canon.refl _

theorem canonRun_foldl {α : Type} {f : EngRun → α → EngRun} (h : ∀ x a, Canon x.st (f x a).st) (l : List α) (x : EngRun) :
    Canon x.st (l.foldl f x).st := by
  induction l generalizing x with
  | nil => exact Canon.refl _
  | cons a l ih => exact (h x a).trans (ih _)

theorem canon_engNearRead (x : EngRun) (q a n : Nat) : Canon x.st (engNearRead x q a n).2.2.st := by
  have h := canonRun_foldl (f := fun (x : EngRun) (k : Nat) => engReadyRead x q k) (fun x k => canon_engReadyRead x q k) (spanChunks [(a, n)])
    (gateStash x q)
  rw [st_gateStash] at h
  exact h

theorem canon_engReadyWrite (x : EngRun) (q k : Nat) : Canon x.st (engReadyWrite x q k).st := by
  unfold engReadyWrite
  dsimp only
  split
  · split
    · exact Canon.refl _
    · split
      · exact Canon.refl _
      · split
        · exact Canon.refl _
        next l _ =>
          split
          · have h := (memStep_registerChunk (gateLine x l).st (q * 65536 + k) l.pa).toCanon
            rw [st_gateLine] at h
            rw [forceRecalls]
            dsimp only
            rw [st_gateLine]
            exact h
          · split
            · exact (memStep_putChunk x.st _ _).toCanon
            · exact Canon.refl _
  · exact Canon.refl _

theorem canon_engNearWrite (x : EngRun) (q a : Nat) (bs : List Byte) : Canon x.st (engNearWrite x q a bs).st := by
  have h := canonRun_foldl (f := fun (x : EngRun) (k : Nat) => engReadyWrite x q k) (fun x k => canon_engReadyWrite x q k)
    (spanChunks [(a, bs.length)]) (gateStash x q)
  rw [st_gateStash] at h
  exact h.trans (memStep_quadWrite _ q a bs).toCanon

theorem canon_engRead (x : EngRun) (c : EngCmd) (ea : EngAddr) (off : Int) (n : Nat) : Canon x.st (engRead x c ea off n).2.2.st := by
  unfold engRead
  split
  · exact canon_engNearRead x _ _ n
  · exact canon_engFarRead x _ n

theorem canon_engWrite (x : EngRun) (c : EngCmd) (ea : EngAddr) (off : Int) (bs : List Byte) : Canon x.st (engWrite x c ea off bs).st := by
  unfold engWrite
  split
  · exact canon_engNearWrite x _ _ bs
  · exact canon_engFarWrite x _ bs

theorem canon_stackReads (l : List (Loc × Nat)) (x : EngRun) : Canon x.st (stackReads l x).2.2.st := by
  induction l generalizing x with
  | nil => exact Canon.refl _
  | cons p l ih =>
    rw [stackReads]
    exact (canon_stackRead x _ _).trans (ih _)

theorem canon_nearReads (l : List (Nat × Nat)) (x : EngRun) : Canon x.st (Machine.nearReads l x).2.2.st := by
  induction l generalizing x with
  | nil => exact Canon.refl _
  | cons p l ih =>
    rw [Machine.nearReads]
    exact (canon_engNearRead x _ _ _).trans (ih _)

/-! Runs. -/

/-- An answer with a run that keeps the canonical forms. -/
def CanonRes {α : Type} (x : EngRun) (r : α × EngRun) : Prop := Canon x.st r.2.st

theorem CanonRes.ite {α : Type} {x : EngRun} {r t : α × EngRun} {p : Prop} [Decidable p] (hr : CanonRes x r) (ht : CanonRes x t) :
    CanonRes x (if p then r else t) := by
  split
  · exact hr
  · exact ht

/-- A run that has come to its end, or to the end of an element, keeps the canonical forms. -/
def CanonRun (x : EngRun) (r : CmdRun) : Prop := Canon x.st r.run.st

theorem canonRun_afterElem {x y : EngRun} (c : EngCmd) (n : Nat) (failed : List Nat) (e : EngEnd) (h : Canon x.st y.st) :
    CanonRun x (afterElem c n failed e y) := by
  unfold afterElem
  split
  · exact h
  · exact h

theorem canonRun_copy (c : EngCmd) (x : EngRun) : CanonRun x (runCopy c x) := by
  unfold runCopy
  split
  next src dst _ _ =>
    dsimp only
    split
    · exact Canon.refl _
    · split
      · exact canon_engRead x c src _ _
      · exact canonRun_afterElem _ _ _ _ ((canon_engRead x c src _ _).trans (canon_engWrite _ c dst _ _))
  · exact Canon.refl _

theorem canon_mcWrite (a : Nat) (bs : List Byte) (l failed : List Nat) (x : EngRun) : Canon x.st (mcWrite a bs failed x l).2.st := by
  induction l generalizing failed x with
  | nil => exact Canon.refl _
  | cons q l ih =>
    rw [mcWrite]
    dsimp only
    split
    · exact ih _ _
    · split
      · exact ih _ _
      · have h := (memStep_quadWrite (gateStash x q).st q a bs).toCanon
        have hg := st_gateStash x q
        generalize gateStash x q = y at h hg
        rw [← hg]
        exact h.trans (ih failed { y with st := quadWrite y.st q a bs })

theorem canonRun_copyMc (c : EngCmd) (x : EngRun) : CanonRun x (runCopyMc c x) := by
  unfold runCopyMc
  split
  next src _ =>
    dsimp only
    split
    · exact Canon.refl _
    · split
      · exact canon_engRead x c src _ _
      · exact canonRun_afterElem _ _ _ _ ((canon_engRead x c src _ _).trans (canon_mcWrite _ _ _ _ _))
  · exact Canon.refl _

theorem canon_runMap (c : EngCmd) (x : EngRun) : Canon x.st (runMap c x).2.st := by
  unfold runMap
  dsimp only
  split
  · exact Canon.refl _
  · exact (windowStep_dropWindow x.st _ _ _).toCanon.upto rfl

theorem canon_runInv (c : EngCmd) (x : EngRun) : Canon x.st (runInv c x).2.st :=
  Canon.foldl (f := fun (s : State) (e : Nat × Window) => invalidateWindow s (quadOf x.core) e.2)
    (fun s e => (memStep_invalidateWindow s _ e.2).toCanon) _ _

theorem canon_runWb (c : EngCmd) (x : EngRun) : Canon x.st (runWb c x).2.st := by
  refine Canon.foldl (fun s e => ?_) _ _
  split
  · exact (windowStep_dropWindow s _ _ _).toCanon
  · exact (memStep_flushWindow s _ _ e.2).toCanon

theorem canon_idxElem (g : Bool) (c : EngCmd) (ea : EngAddr) (x : EngRun) (i idx : Nat) : CanonRes x (idxElem g c ea x i idx) := by
  unfold idxElem
  dsimp only
  refine CanonRes.ite (Canon.refl _) (CanonRes.ite (Canon.refl _) ?_)
  cases g
  · simp only [Bool.false_eq_true, if_false]
    have hread := canon_engRead x c
    generalize engRead x c = f at hread
    exact CanonRes.ite (hread _ _ _) ((hread _ _ _).trans (canon_engWrite _ c _ _ _))
  · simp only [if_true]
    have hread := canon_engRead x c
    generalize engRead x c = f at hread
    exact CanonRes.ite (hread _ _ _) ((hread _ _ _).trans (canon_engWrite _ c _ _ _))

theorem canonRun_indexed (g : Bool) (c : EngCmd) (x : EngRun) : CanonRun x (runIndexed g c x) := by
  unfold runIndexed
  split
  · exact Canon.refl _
  next ea _ =>
    have h := canon_idxElem g c ea x c.elem (fieldOf c.data (4 * c.elem) 4)
    split
    · exact Canon.refl _
    · split
      next heq =>
        rw [heq] at h
        exact h
      next heq =>
        rw [heq] at h
        exact canonRun_afterElem _ _ _ _ h

theorem canon_runTopk (c : EngCmd) (x : EngRun) : Canon x.st (runTopk c x).2.st := by
  unfold runTopk
  dsimp only
  split
  · exact canon_engNearRead x _ _ _
  · exact (canon_engNearRead x _ _ _).trans (canon_engNearWrite _ _ _ _)

/-! The runs of the crucibles. -/

/-- An answer with a run, taken apart. -/
theorem CanonRes.of_eq {α : Type} {x y : EngRun} {r : α × EngRun} {a : α} (h : CanonRes x r) (e : r = (a, y)) : Canon x.st y.st := by
  rw [e] at h
  exact h

theorem canon_of_three {α β : Type} {x y : EngRun} {r : α × β × EngRun} {a : α} {b : β} (h : Canon x.st r.2.2.st) (e : r = (a, b, y)) :
    Canon x.st y.st := by
  rw [e] at h
  exact h

theorem canon_runGemv (c : EngCmd) (x : EngRun) : CanonRes x (runGemv c x) := by
  have hnear := canon_nearReads
  have hrows := canon_stackReads
  unfold runGemv
  dsimp only
  generalize Machine.nearReads = fn at hnear
  generalize stackReads = fr at hrows
  split
  · have k2 (n : List (Nat × Nat)) (l : List (Loc × Nat)) : Canon x.st (fr l (fn n x).2.2).2.2.st := (hnear n x).trans (hrows l _)
    have k3 (n : List (Nat × Nat)) (l m : List (Loc × Nat)) : Canon x.st
        (if (gemvOf c).wfmt = 3 then ([], none, (fr l (fn n x).2.2).2.2) else fr m (fr l (fn n x).2.2).2.2).2.2.st := by
      split
      · exact k2 n l
      · exact (k2 n l).trans (hrows m _)
    refine CanonRes.ite (hnear _ x) ?_
    split
    · exact k2 _ _
    · exact k3 _ _ _
    · exact (k3 _ _ _).trans (canon_engNearWrite _ _ _ _)
  · exact Canon.refl _

theorem canon_readMetas (no : Nat) (p : Pool) (l : List Nat) (x : EngRun) : CanonRes x (readMetas no p l x) := by
  induction l generalizing x with
  | nil => exact Canon.refl _
  | cons n l ih =>
    rw [readMetas]
    split
    next h1 =>
    split
    next h2 =>
    exact (canon_of_three (canon_stackRead x _ _) h1).trans ((ih _).of_eq h2)

theorem canon_readScale (no : Nat) (p : Pool) (page off slot : Nat) (x : EngRun) : Canon x.st (readScale no p page off slot x).2.2.st := by
  unfold readScale
  split
  · exact Canon.refl _
  · exact canon_stackRead x _ _

theorem canon_readSlots (no : Nat) (p : Pool) (page : Nat) (l : List Nat) (x : EngRun) : CanonRes x (readSlots no p page l x) := by
  induction l generalizing x with
  | nil => exact Canon.refl _
  | cons n l ih =>
    rw [readSlots]
    split
    next h1 =>
    split
    next h2 =>
    split
    next h3 =>
    split
    next h4 =>
    split
    next h5 =>
    have k2 := (canon_of_three (canon_stackRead x _ _) h1).trans (canon_of_three (canon_stackRead _ _ _) h2)
    have k4 := (canon_of_three (canon_readScale no p page _ _ _) h3).trans (canon_of_three (canon_readScale no p page _ _ _) h4)
    have k5 := (k2.trans k4).trans ((ih _).of_eq h5)
    exact CanonRes.ite k5 k5

theorem canon_readTokens (no : Nat) (p : Pool) (l : List (Int × Nat × Nat × Nat)) (x : EngRun) : CanonRes x (readTokens no p l x) := by
  induction l generalizing x with
  | nil => exact Canon.refl _
  | cons e l ih =>
    rw [readTokens]
    split
    next h1 =>
    have k1 := (canon_readSlots no p _ _ x).of_eq h1
    split
    · exact k1
    · split
      next h2 =>
      exact k1.trans ((ih _).of_eq h2)

theorem canon_scoreAdd (l : Loc) (x : EngRun) (y : Lane) : Canon x.st (scoreAdd l x y).st := by
  unfold scoreAdd
  split
  next h1 =>
  exact (canon_of_three (canon_engFarRead x l 4) h1).trans (canon_engFarWrite _ l _)

theorem canon_scoreUpdates (v : Attn) (table : Loc) (scores : List (List Lane)) (l : List Nat) (x : EngRun) :
    Canon x.st (scoreUpdates v table scores l x).st := by
  induction l generalizing x with
  | nil => exact Canon.refl _
  | cons i l ih =>
    rw [scoreUpdates]
    exact (canonRun_foldl (fun x h => canon_scoreAdd _ x _) scores x).trans (ih _)

theorem canon_scoreBad (v : Attn) (c : EngCmd) (x : EngRun) : CanonRes x (scoreBad v c x) := by
  unfold scoreBad
  split
  · split
    next h1 => exact canon_of_three (canon_stackRead x _ _) h1
  · exact Canon.refl _

theorem canon_runAttn (ctx : Nat) (c : EngCmd) (x : EngRun) : CanonRes x (runAttn ctx c x) := by
  have hmetas := canon_readMetas
  have hnear := canon_nearReads
  unfold runAttn
  dsimp only
  generalize readMetas = fm at hmetas
  generalize Machine.nearReads = fn at hnear
  split
  · exact Canon.refl _
  · split
    · exact hmetas _ _ _ x
    · have k2 (no : Nat) (p : Pool) (l : List Nat) (n : List (Nat × Nat)) : Canon x.st (fn n (fm no p l x).2).2.2.st :=
        Canon.trans (hmetas no p l x) (hnear n _)
      refine CanonRes.ite (k2 _ _ _ _) ?_
      split
      next h3 => exact (k2 _ _ _ _).trans ((canon_readTokens _ _ _ _).of_eq h3)
      next h3 =>
        have k3 := (k2 _ _ _ _).trans ((canon_readTokens _ _ _ _).of_eq h3)
        split
        next h4 => exact k3.trans ((canon_scoreBad _ c _).of_eq h4)
        next h4 =>
          refine ((k3.trans ((canon_scoreBad _ c _).of_eq h4)).trans ?_).trans (canon_engNearWrite _ _ _ _)
          split
          · exact canon_scoreUpdates _ _ _ _ _
          · exact Canon.refl _

theorem canon_reduceBags (v : Bags) (frame : Loc) (o : Nat) (l : List (Nat × Nat)) (bags : List (Nat × List Lane)) (x : EngRun) :
    CanonRes x (reduceBags v frame o l bags x) := by
  induction l generalizing bags x with
  | nil => exact Canon.refl _
  | cons e l ih =>
    have hread := canon_stackRead
    rw [reduceBags]
    dsimp only
    generalize stackRead = f at hread
    have k2 (l : Loc) (n : Nat) (m : Loc) (k : Nat) :
        Canon x.st (if v.fmt = 2 then ([], none, (f x l n).2.2) else f (f x l n).2.2 m k).2.2.st := by
      split
      · exact hread x l n
      · exact (hread x l n).trans (hread _ m k)
    split
    · exact k2 _ _ _ _
    · exact k2 _ _ _ _
    · exact (k2 _ _ _ _).trans (ih _ _)

theorem canon_runBags (c : EngCmd) (x : EngRun) : CanonRes x (runBags c x) := by
  unfold runBags
  dsimp only
  split
  · split
    · exact Canon.refl _
    · refine CanonRes.ite (Canon.refl _) ?_
      split
      next h1 => exact (canon_reduceBags _ _ _ _ _ x).of_eq h1
      next h1 => exact ((canon_reduceBags _ _ _ _ _ x).of_eq h1).trans (canon_engNearWrite _ _ _ _)
  · exact Canon.refl _

/-! Pages of a key-value pool. -/

section
variable (v : KvEnv)

theorem canon_metaPut (page off len val : Nat) (x : EngRun) : Canon x.st (metaPut v page off len val x).st := canon_engFarWrite x _ _

theorem canon_readHeads (l : List Nat) (x : EngRun) : CanonRes x (readHeads v l x) := by
  induction l generalizing x with
  | nil => exact Canon.refl _
  | cons page l ih =>
    rw [readHeads]
    exact (canon_engFarRead x _ _).trans (ih _)

theorem canon_putHead (page fill crc : Nat) (x : EngRun) : Canon x.st (putHead v page fill crc x).st := canon_engFarWrite x _ _

theorem canon_clearPage (page : Nat) (x : EngRun) : Canon x.st (clearPage v page x).st := canon_putHead v page 0 0 x

theorem canon_dropRef (x : EngRun) (page : Nat) : Canon x.st (dropRef v x page).st := by
  unfold dropRef
  dsimp only
  split
  · exact (canon_metaPut v _ _ _ _ x).trans (canon_clearPage v page _)
  · exact canon_metaPut v _ _ _ _ x

theorem canon_addRef (x : EngRun) (page : Nat) : Canon x.st (addRef v x page).st := canon_metaPut v page _ _ _ x

theorem canon_claimRef (x : EngRun) (page : Nat) : Canon x.st (claimRef v x page).st := canon_metaPut v page _ _ _ x

theorem canon_readSlot (page slot : Nat) (x : EngRun) : Canon x.st (readSlot v page slot x).2.2.st := by
  have hread := canon_engFarRead
  unfold readSlot
  dsimp only
  generalize engFarRead = f at hread
  exact (((hread x _ _).trans (hread _ _ _)).trans (hread _ _ _)).trans (hread _ _ _)

theorem canon_writeSlot (page slot : Nat) (y : Slot) (x : EngRun) : Canon x.st (writeSlot v page slot y x).st := by
  have hwrite := canon_engFarWrite
  unfold writeSlot
  dsimp only
  generalize engFarWrite = f at hwrite
  have h2 (l m : Loc) (a b : List Byte) : Canon x.st (f (f x l a) m b).st := (hwrite x l a).trans (hwrite _ m b)
  split
  · exact h2 _ _ _ _
  · exact ((h2 _ _ _ _).trans (hwrite _ _ _)).trans (hwrite _ _ _)

theorem canon_writeSlots (page n : Nat) (l : List Slot) (x : EngRun) : Canon x.st (writeSlots v page n l x).st := by
  induction l generalizing n x with
  | nil => exact Canon.refl _
  | cons y l ih =>
    rw [writeSlots]
    exact (canon_writeSlot v page n y x).trans (ih _ _)

theorem canon_headWith (fresh : Bool) (page : Nat) (l : List Slot) (x : EngRun) : Canon x.st (headWith v fresh page l x).st := by
  unfold headWith
  split
  · exact canon_putHead v page _ _ x
  · exact (canon_metaPut v page _ _ _ x).trans (canon_metaPut v page _ _ _ _)

theorem canon_readSlotList (l : List (Nat × Nat)) (x : EngRun) : Canon x.st (readSlotList v l x).2.2.st := by
  induction l generalizing x with
  | nil => exact Canon.refl _
  | cons e l ih =>
    rw [readSlotList]
    exact (canon_readSlot v _ _ x).trans (ih _)

/-! `kvapp`. -/

/-- The run after a place has been looked for. -/
def placeRun : Place → EngRun
  | .stop _ x => x
  | .at_ _ _ _ _ _ x => x

theorem canon_newPage (i : Nat) (r : Stream) (x : EngRun) : placeRun (newPage v i r x) = x := by
  unfold newPage
  dsimp only
  split
  · rfl
  · split
    · rfl
    · split <;> rfl

theorem placeRun_ite {p : Prop} [Decidable p] {x : EngRun} {a b : Place} (ha : Canon x.st (placeRun a).st) (hb : Canon x.st (placeRun b).st) :
    Canon x.st (placeRun (if p then a else b)).st := by
  split
  · exact ha
  · exact hb

theorem canon_partPage (i : Nat) (r : Stream) (e : Extent) (n : Nat) (x : EngRun) : Canon x.st (placeRun (partPage v i r e n x)).st := by
  have hheads := canon_readHeads v
  have hslots := canon_readSlotList v
  unfold partPage
  dsimp only
  generalize readHeads v = f at hheads
  generalize readSlotList v = g at hslots
  have h1 := hheads [(e.page ((e.len - 1) / 64)).toNat] x
  refine placeRun_ite h1 (placeRun_ite h1 (placeRun_ite h1 (placeRun_ite h1 (placeRun_ite h1 ?_))))
  split
  · exact h1
  · have h2 := Canon.trans h1 (hslots ((range' 0 n).map (fun k => ((e.page ((e.len - 1) / 64)).toNat, k))) _)
    exact placeRun_ite h2 h2

theorem canon_appendWrites (l : Loc) (pos : Nat) (slot : Slot) (t : Nat) (fresh : Bool) (copied : List Slot) (left : List Nat)
    (exts : List Extent) (x : EngRun) : Canon x.st (appendWrites v l pos slot t fresh copied left exts x).st := by
  have hslots := canon_writeSlots v
  have hhead := canon_headWith v
  unfold appendWrites
  dsimp only
  generalize writeSlots v = f at hslots
  generalize headWith v = g at hhead
  refine Canon.trans ?_ (canon_engFarWrite _ _ _)
  refine Canon.trans ?_ (canonRun_foldl (canon_dropRef v) _ _)
  have h1 (n : Nat) : Canon x.st (g fresh t (copied ++ [slot]) (f t n (copied ++ [slot]) x)).st := (hslots _ _ _ x).trans (hhead _ _ _ _)
  split
  · exact (h1 _).trans (canon_claimRef v _ t)
  · exact h1 _

theorem canon_kvappElem (c : EngCmd) (b : KvApp) (i : Nat) (x : EngRun) : CanonRes x (kvappElem v c b i x) := by
  have hread := canon_engFarRead x (recLoc c (nthD b.recs i 0) 0) 192
  unfold kvappElem
  dsimp only
  generalize engFarRead x (recLoc c (nthD b.recs i 0) 0) 192 = r at hread
  refine CanonRes.ite hread (CanonRes.ite hread (CanonRes.ite hread (CanonRes.ite hread (CanonRes.ite hread ?_))))
  have hplace (place : Place) (h : Canon r.2.2.st (placeRun place).st) (l : Loc) (slot : Slot) : CanonRes x (match place with
      | .stop st x2 => (some st, x2)
      | .at_ t fresh copied left exts x2 => ((none : Option EngEnd), appendWrites v l b.pos slot t fresh copied left exts x2)) := by
    cases place with
    | stop st y => exact hread.trans h
    | at_ t fresh copied left exts y => exact (hread.trans h).trans (canon_appendWrites v _ _ _ _ _ _ _ _ y)
  refine hplace _ ?_ _ _
  split
  · rw [canon_newPage]
    exact Canon.refl _
  · refine placeRun_ite ?_ (canon_partPage v i _ _ _ _)
    rw [canon_newPage]
    exact Canon.refl _

theorem canonRun_nextElem (c : EngCmd) (n : Nat) (e : EngEnd) {f : Nat → EngRun → Option EngEnd × EngRun} (hf : ∀ i x, CanonRes x (f i x))
    (x : EngRun) : CanonRun x (nextElem c n e f x) := by
  unfold nextElem
  split
  next h => exact (hf _ _).of_eq h
  next h => exact canonRun_afterElem _ _ _ _ ((hf _ _).of_eq h)

end

theorem canonRun_kvapp (c : EngCmd) (x : EngRun) : CanonRun x (runKvapp c x) := by
  unfold runKvapp
  split
  · exact Canon.refl _
  next v _ =>
    dsimp only
    split
    · exact Canon.refl _
    · exact canonRun_nextElem _ _ _ (canon_kvappElem v c _) x

/-! `kvcomp`. -/

theorem canon_readEntries (l : Loc) (es : List Nat) (x : EngRun) : Canon x.st (readEntries l es x).2.2.st := by
  induction es generalizing x with
  | nil => exact Canon.refl _
  | cons i es ih =>
    rw [readEntries]
    exact (canon_engFarRead x _ _).trans (ih _)

theorem canon_writeEntries (l : Loc) (i : Nat) (es : List (List Byte)) (x : EngRun) : Canon x.st (writeEntries l i es x).st := by
  induction es generalizing i x with
  | nil => exact Canon.refl _
  | cons bs es ih =>
    rw [writeEntries]
    exact (canon_engFarWrite x _ _).trans (ih _ _)

theorem canon_compWrites (v : KvEnv) (l table : Loc) (base : Nat) (kept : List Slot) (scores : List (List Byte)) (left : List Nat)
    (x : EngRun) : Canon x.st (compWrites v l table base kept scores left x).st := by
  refine Canon.trans ?_ (canon_engFarWrite _ _ _)
  refine Canon.trans ?_ (canonRun_foldl (canon_dropRef v) _ _)
  refine Canon.trans ?_ (canonRun_foldl (canon_claimRef v) _ _)
  refine Canon.trans ?_ (canon_writeEntries _ _ _ _)
  refine Canon.trans ?_ (canonRun_foldl (fun x (e : Nat × List Slot) => canon_headWith v true e.1 e.2 x) _ _)
  exact canonRun_foldl (fun x (e : Nat × List Slot) => canon_writeSlots v e.1 0 e.2 x) _ _

theorem canon_runKvcomp (c : EngCmd) (x : EngRun) : CanonRes x (runKvcomp c x) := by
  have hread := canon_engFarRead x (recLoc c (compRec c.block) 0) 192
  unfold runKvcomp
  split
  · exact Canon.refl _
  next v _ =>
    have hheads := canon_readHeads v
    have hslots := canon_readSlotList v
    have hentries := canon_readEntries (recLoc c (compScore c.block) 0)
    have hwrites := canon_compWrites v (recLoc c (compRec c.block) 0) (recLoc c (compScore c.block) 0)
    dsimp only
    generalize engFarRead x (recLoc c (compRec c.block) 0) 192 = r at hread
    generalize readHeads v = f at hheads
    generalize readSlotList v = g at hslots
    generalize readEntries (recLoc c (compScore c.block) 0) = e at hentries
    generalize compWrites v (recLoc c (compRec c.block) 0) (recLoc c (compScore c.block) 0) = w at hwrites
    have h1 (p : Prop) [Decidable p] (l : List Nat) : Canon x.st (if p then (false, r.2.2) else f l r.2.2).2.st := by
      split
      · exact hread
      · exact Canon.trans hread (hheads l _)
    have h3 (p : Prop) [Decidable p] (l : List Nat) (m : List (Nat × Nat)) (q : Bool) (es : List Nat) : Canon x.st
        (if q = true then e es (g m (if p then (false, r.2.2) else f l r.2.2).2).2.2
          else ([], false, (g m (if p then (false, r.2.2) else f l r.2.2).2).2.2)).2.2.st := by
      split
      · exact ((h1 p l).trans (hslots m _)).trans (hentries es _)
      · exact (h1 p l).trans (hslots m _)
    refine CanonRes.ite (h1 _ _) (CanonRes.ite (h1 _ _) ?_)
    split
    · exact h1 _ _
    · split
      · exact h1 _ _
      · refine CanonRes.ite (h1 _ _) (CanonRes.ite (h1 _ _) (CanonRes.ite (h1 _ _) ?_))
        split
        · exact h1 _ _
        · exact CanonRes.ite (h3 _ _ _ _ _) ((h3 _ _ _ _ _).trans (hwrites _ _ _ _ _))

/-! The index of prefixes (R268). -/

theorem canon_readStreams (c : EngCmd) (w : Nat) (l : List Nat) (x : EngRun) : Canon x.st (readStreams c w l x).2.2.st := by
  induction l generalizing x with
  | nil => exact Canon.refl _
  | cons j l ih =>
    rw [readStreams]
    exact (canon_engFarRead x _ _).trans (ih _)

theorem canon_writeStreams (c : EngCmd) (w j : Nat) (l : List Stream) (x : EngRun) : Canon x.st (writeStreams c w j l x).st := by
  induction l generalizing j x with
  | nil => exact Canon.refl _
  | cons r l ih =>
    rw [writeStreams]
    exact (canon_engFarWrite x _ _).trans (ih _ _)

theorem canon_pxResult (x : EngRun) (c : EngCmd) (a b : Nat) : Canon x.st (pxResult x c a b).st := canon_engNearWrite x _ _ _

theorem canon_setNodes (x : EngRun) (l : List (Nat × PxNode)) : Canon x.st (setNodes x l).st := (memStep_hub x.st _).toCanon

theorem canon_runPxlook (c : EngCmd) (x : EngRun) : CanonRes x (runPxlook c x) := by
  have hread := canon_readStreams c (pxSarr c.block)
  unfold runPxlook
  split
  · exact Canon.refl _
  next v _ =>
    have hheads := canon_readHeads v
    dsimp only
    generalize readStreams c (pxSarr c.block) = f at hread
    generalize readHeads v = g at hheads
    refine CanonRes.ite (hread _ x) ?_
    split
    · exact hread _ x
    · split
      · exact hread _ x
      · have h2 (l : List Nat) (m : List Nat) : Canon x.st (g m (f l x).2.2).2.st := (hread l x).trans (hheads m _)
        refine CanonRes.ite (h2 _ _) (CanonRes.ite (h2 _ _) ?_)
        refine Canon.trans ?_ (canon_pxResult _ c _ _)
        refine Canon.trans ?_ (canon_writeStreams c _ _ _ _)
        exact (h2 _ _).trans (canonRun_foldl (canon_addRef v) _ _)

theorem canon_runPxins (c : EngCmd) (x : EngRun) : CanonRes x (runPxins c x) := by
  have hread := canon_readStreams c (pxSarr c.block)
  unfold runPxins
  split
  · exact Canon.refl _
  next v _ =>
    have hheads := canon_readHeads v
    dsimp only
    generalize readStreams c (pxSarr c.block) = f at hread
    generalize readHeads v = g at hheads
    refine CanonRes.ite (hread _ x) ?_
    split
    · exact hread _ x
    · split
      · exact hread _ x
      · refine CanonRes.ite ((hread _ x).trans (canon_pxResult _ c _ _)) ?_
        split
        · exact hread _ x
        · have h2 (l : List Nat) (m : List Nat) : Canon x.st (g m (f l x).2.2).2.st := (hread l x).trans (hheads m _)
          split
          · exact h2 _ _
          · split
            · exact h2 _ _
            · refine CanonRes.ite (h2 _ _) (CanonRes.ite (h2 _ _) (CanonRes.ite (h2 _ _) ?_))
              refine Canon.trans ?_ (canon_pxResult _ c _ _)
              refine Canon.trans ?_ (canon_setNodes _ _)
              exact (h2 _ _).trans (canonRun_foldl (canon_addRef v) _ _)

theorem canon_pxrelElem (v : KvEnv) (c : EngCmd) (i : Nat) (x : EngRun) : CanonRes x (pxrelElem v c i x) := by
  have hread := canon_engFarRead x (recLoc c (pxSarr c.block) (192 * i)) 192
  have hheads := canon_readHeads v
  unfold pxrelElem
  dsimp only
  generalize engFarRead x (recLoc c (pxSarr c.block) (192 * i)) 192 = r at hread
  generalize readHeads v = g at hheads
  have h2 (l : List Nat) : Canon x.st (g l r.2.2).2.st := Canon.trans hread (hheads l _)
  refine CanonRes.ite hread (CanonRes.ite hread (CanonRes.ite (h2 _) ?_))
  exact ((h2 _).trans (canonRun_foldl (canon_dropRef v) _ _)).trans (canon_engFarWrite _ _ _)

theorem canon_removeLeaf (v : KvEnv) (no : Nat) (node : PxNode) (x : EngRun) : CanonRes x (removeLeaf v no node x) := by
  have hheads := canon_readHeads v (nodeHolds node) x
  unfold removeLeaf
  dsimp only
  generalize readHeads v (nodeHolds node) x = r at hheads
  exact CanonRes.ite hheads ((Canon.trans hheads (canonRun_foldl (canon_dropRef v) _ _)).trans (canon_setNodes _ _))

theorem canonRun_pxrel (c : EngCmd) (x : EngRun) : CanonRun x (runPxrel c x) := by
  unfold runPxrel
  split
  · exact Canon.refl _
  next v _ =>
    dsimp only
    split
    · exact Canon.refl _
    · split
      · split
        next node _ =>
          split
          · exact Canon.refl _
          · exact canon_removeLeaf v _ node x
        · exact Canon.refl _
      · exact canonRun_nextElem _ _ _ (canon_pxrelElem v c) x

/-! Collectives. -/

theorem canon_sendFrags (s : State) (dest : Nat) (l : List PColl) : Canon s (sendFrags s dest l) :=
  Canon.foldl (fun s p => canon_sendPcoll s dest p) l s

theorem canon_spreadResult (s : State) (n : Nat) (p : PColl) (bs : List Byte) : Canon s (spreadResult s n p bs) := by
  unfold spreadResult
  split
  · exact Canon.refl s
  · refine Canon.trans ?_ (Canon.foldl (fun s j => canon_sendFrags s _ _) _ _)
    exact (memStep_hub s _).toCanon

theorem canon_podCollStep (s : State) (n ch phase : Nat) : Canon s (podCollStep s n ch phase) := by
  unfold podCollStep
  split
  · split
    · exact Canon.refl s
    · dsimp only
      split
      · exact Canon.refl s
      · split
        · exact Canon.refl s
        · split
          · refine Canon.trans ?_ (canon_spreadResult _ _ _ _)
            exact (memStep_hub s _).toCanon
          · refine Canon.trans ?_ (canon_sendFrags _ _ _)
            exact (memStep_hub s _).toCanon
  · exact Canon.refl s

theorem canon_takeSource (c : EngCmd) (x : EngRun) : Canon x.st (takeSource c x).st := by
  have hread := canon_engNearRead x (quadOf x.core) c.src.toNat c.len.toNat
  unfold takeSource
  dsimp only
  generalize engNearRead x (quadOf x.core) c.src.toNat c.len.toNat = r at hread
  have hpart (ch : Chan) : Canon x.st (setChan r.2.2.st ch) := Canon.trans hread (memStep_hub r.2.2.st _).toCanon
  split
  · exact (hpart _).trans (canon_podCollStep _ _ _ _)
  · exact hpart _

theorem canon_writeResult (c : EngCmd) (r : EngEnd × Option (List Byte)) (x : EngRun) : CanonRes x (writeResult c r x) := by
  unfold writeResult
  split
  · exact canon_engNearWrite x _ _ _
  · exact Canon.refl _

theorem canonRun_runCmd (c : EngCmd) (x : EngRun) : CanonRun x (runCmd c x) := by
  unfold runCmd
  dsimp only
  split
  · exact canonRun_copy c x
  · exact canonRun_copyMc c x
  · exact canon_runMap c x
  · exact canon_runInv c x
  · exact canon_runWb c x
  · exact canonRun_indexed true c x
  · exact canonRun_indexed false c x
  · exact canon_runTopk c x
  · exact canon_runGemv c x
  · exact canon_runAttn _ c x
  · exact canon_runBags c x
  · exact canon_takeSource c x
  · exact canon_takeSource c x
  · exact canon_takeSource c x
  · exact canonRun_kvapp c x
  · exact canon_runKvcomp c x
  · exact canon_runPxlook c x
  · exact canon_runPxins c x
  · exact canonRun_pxrel c x
  · exact Canon.refl _

/-! The queues. -/

theorem canon_modHead (s : State) (c : Nat) (q : Fin 5) (f : EngCmd → EngCmd) : Canon s (modHead s c q f) := canon_of_eq rfl rfl rfl rfl

theorem canon_sendWrites (s : State) (c : Nat) (q : Fin 5) (l : List (Loc × BitVec 64 × List Byte)) : Canon s (sendWrites s c q l) :=
  Canon.foldl (fun s _ => (memStep_startXfer s _ _ _ _ _ _ _ _).toCanon) l s

theorem canon_askLines (s : State) (c : Nat) (q : Fin 5) (l : List Loc) : Canon s (askLines s c q l) := by
  unfold askLines
  refine Canon.trans ?_ (canon_modHead _ c q _)
  exact Canon.foldl (fun s p => (memStep_startXfer s _ _ _ _ _ _ _ _).toCanon) l s

theorem canon_settle (s : State) (c : Nat) (q : Fin 5) (cmd : EngCmd) (r : CmdRun) :
    Canon s (settle s c q cmd r) ∨ Canon r.run.st (settle s c q cmd r) := by
  have hrun (e : Option EngEnd) (x : EngRun) : Canon s (settleRun s c q cmd e x) ∨ Canon x.st (settleRun s c q cmd e x) := by
    unfold settleRun
    split
    · exact .inl (canon_askLines s c q _)
    · exact .inr ((canon_sendWrites x.st c q _).trans (canon_modHead _ c q _))
  cases r with
  | ended e x => exact hrun (some e) x
  | taken x => exact hrun none x
  | part i failed x =>
    show Canon s (settlePart s c q i failed x) ∨ Canon x.st (settlePart s c q i failed x)
    unfold settlePart
    split
    · exact .inl (canon_askLines s c q _)
    · exact .inr ((canon_sendWrites x.st c q _).trans (canon_modHead _ c q _))

theorem canon_settled {s : State} (c : Nat) (q : Fin 5) (cmd : EngCmd) {r : CmdRun} (h : Canon s r.run.st) : Canon s (settle s c q cmd r) := by
  obtain hs | hr := canon_settle s c q cmd r
  · exact hs
  · exact h.trans hr

theorem canon_takeTokens (s : State) (core ident n : Nat) : Canon s (takeTokens s core ident n).2 :=
  (tokenStep_takeTokensOf s _ _ core ident n).memStep.toCanon

theorem canon_claimTokens (s : State) (c : Nat) (q : Fin 5) (cmd : EngCmd) : Canon s (claimTokens s c q cmd).2 := by
  unfold claimTokens
  split
  · exact (canon_takeTokens s c _ _).trans (canon_modHead _ c q _)
  · exact Canon.refl s

theorem canon_startEngFill (c : Nat) (s : State) (f : Nat × Bool) : Canon s (startEngFill c s f) := by
  unfold startEngFill
  split
  · exact Canon.refl s
  · split
    · split
      · exact (taskStep_readyWrite c _ _ s).toCanon
      · exact (taskStep_startFill s c _ none _ _).toCanon
    · exact Canon.refl s

theorem canon_heldRun (s : State) (c : Nat) (q : Fin 5) (x : EngRun) : Canon s (heldRun s c q x) := by
  unfold heldRun
  refine Canon.trans ?_ (canon_modHead _ c q _)
  refine Canon.trans ?_ (Canon.foldl (canon_startEngFill c) _ _)
  exact Canon.foldl (fun s l => (memStep_recallPaid s c l).toCanon) _ s

theorem canon_paidRun (s : State) (c : Nat) (q : Fin 5) (cmd : EngCmd) {run : EngCmd → State → CmdRun}
    (hrun : ∀ cmd s, Canon s (run cmd s).run.st) : Canon s (paidRun s c q cmd run) := by
  have hclaim := canon_claimTokens s c q cmd
  unfold paidRun
  dsimp only
  generalize claimTokens s c q cmd = r at hclaim
  obtain ⟨cmd1, s0⟩ := r
  dsimp only at hclaim ⊢
  split
  · exact hclaim.trans (canon_heldRun s0 c q _)
  · have hrecalls := hclaim.trans (memStep_takeRecalls (run cmd1 s0).run.forced s0).toCanon
    split
    next s1 h =>
      rw [h] at hrecalls
      exact hrecalls.trans (canon_modHead s1 c q _)
    next s1 h =>
      rw [h] at hrecalls
      dsimp only at hrecalls
      split
      · exact (hrecalls.trans (canon_settled c q cmd1 (hrun cmd1 s1))).trans (canon_modHead _ c q _)
      · have htake := canon_takeTokens s1 c (engIdent c q) (runNeeds (run cmd1 s0).run - cmd1.paid)
        split
        next s2 h2 =>
          rw [h2] at htake
          exact ((hrecalls.trans htake).trans (canon_settled c q cmd1 (hrun cmd1 s2))).trans (canon_modHead _ c q _)
        next s2 h2 =>
          rw [h2] at htake
          refine ((hrecalls.trans htake).trans (Canon.foldl (fun s l => ?_) _ s2)).trans (canon_modHead _ c q _)
          exact (tokenStep_keepGrant s l).memStep.toCanon

theorem canonOut_engineCommandStart (c : Nat) (q : EngineStart) (s : State) : CanonOut s (execEngineCommandStart c q s) := by
  unfold execEngineCommandStart
  split
  · dsimp only
    split
    · split
      · exact canonOut_next ((canon_modHead s c _ _).trans (canon_paidRun _ c _ _ (fun cmd s => canonRun_runCmd cmd (beginRun s c cmd))))
      · exact canonOut_next (Canon.refl s)
    · exact canonOut_next (Canon.refl s)
  · exact canonOut_next (Canon.refl s)

theorem canon_settlePages (s : State) (ctx core : Nat) (b : List (Byte × Bool)) : Canon s (settlePages s ctx core b) := by
  unfold settlePages
  split
  · exact Canon.refl s
  next v _ =>
    dsimp only
    split
    · exact Canon.refl s
    · refine canonRun_foldl (fun x n => ?_) _ (EngRun.start s core 0 [])
      split
      · exact canon_clearPage v n x
      · exact Canon.refl _

theorem stored_dropParts (s : State) (id : ChanId) (phase : Nat) : stored (dropParts s id phase) = stored s := by
  unfold dropParts
  split
  · rfl
  · dsimp only
    split
    · split <;> rfl
    · rfl

theorem canon_completeCmd (s : State) (c : Nat) (q : Fin 5) (cmd : EngCmd) (w : Word) : Canon s (completeCmd s c q cmd w) := by
  have hqueue (f : CoreArch → CoreArch) : Canon s (modArchOf s c f) := canon_of_eq rfl rfl rfl rfl
  have hpages (f : CoreArch → CoreArch) (ctx : Nat) (b : List (Byte × Bool)) :
      Canon s (if cmd.op = .sattn then settlePages (modArchOf s c f) ctx c b else modArchOf s c f) :=
    Canon.ite ((hqueue f).trans (canon_settlePages _ ctx c b)) (hqueue f)
  unfold completeCmd
  dsimp only
  exact Canon.ite ((hpages _ _ _).upto (stored_dropParts _ _ _)) (hpages _ _ _)

theorem canonOut_engineCommandCompletion (c q : Nat) (s : State) : CanonOut s (execEngineCommandCompletion c q s) := by
  unfold execEngineCommandCompletion
  split
  · dsimp only
    split
    · split
      · exact canonOut_next (Canon.ite (canon_of_eq rfl rfl rfl rfl) (Canon.refl s))
      · exact canonOut_next (Canon.ite (canon_completeCmd s c _ _ _) (Canon.refl s))
      · refine canonOut_next (Canon.ite ?_ (Canon.refl s))
        unfold formResult
        split
        next r _ => exact canon_paidRun s c _ _ (fun cmd s => canon_writeResult cmd r (beginRun s c cmd))
        · exact Canon.refl s
    · exact canonOut_next (Canon.refl s)
  · exact canonOut_next (Canon.refl s)

end Sys2Proof.Proofs
end

section
/-! PROOF. The events of cores, of far accesses and of gangs keep the canonical forms (R33 to R37, R220 to R231, R285, R291, R292, R308 to
R317). -/

namespace Sys2Proof.Proofs

open Sys2Proof.Machine Sys2Proof.Claims Sys2Proof.Laws

section
variable {s : State} {o : Out}

theorem canonOut_ite {p : Prop} [Decidable p] {t u : Out} (ht : CanonOut s t) (hu : CanonOut s u) : CanonOut s (if p then t else u) := by
  split
  · exact ht
  · exact hu

theorem canonOut_same (s : State) : CanonOut s (.next s) := canonOut_next (Canon.refl s)

/-- An outcome that leads to a next state. -/
def leadsOn : Out → Bool
  | .next _ => true
  | _ => false

theorem canonOut_of_ends (h : leadsOn o = false) : CanonOut s o := fun _ e =>
  absurd ((congrArg leadsOn e).symm.trans h) Bool.noConfusion

theorem CanonOut.after {t : State} (h : CanonOut t o) (k : Canon s t) : CanonOut s o := fun u e => k.trans (h u e)

end

theorem canon_modCore (s : State) (c : Nat) (f : Core → Core) : Canon s (modCore s c f) := canon_of_eq rfl rfl rfl rfl

theorem canon_modArchOf (s : State) (c : Nat) (f : CoreArch → CoreArch) : Canon s (modArchOf s c f) := canon_of_eq rfl rfl rfl rfl

theorem canon_dropStore (s : State) (c ident : Nat) : Canon s (dropStore s c ident) := canon_modArchOf s c _

theorem canon_addTodo (s : State) (l : List Nat) : Canon s (addTodo s l) := canon_of_eq rfl rfl rfl rfl

theorem canon_modQuad (s : State) (q : Nat) (f : Quad → Quad) : Canon s (modQuad s q f) := canon_of_eq rfl rfl rfl rfl

theorem canon_hub (s : State) (h : Hub) : Canon s { s with hub := h } := canon_of_eq rfl rfl rfl rfl

theorem canon_edge (s : State) (e : Edge) : Canon s { s with edge := e } := canon_of_eq rfl rfl rfl rfl

theorem canon_setBlock (s : State) (ctx : Nat) (b : BitVec 2048) : Canon s (setBlock s ctx b) := canon_hub s _

theorem canon_setState (s : State) (ctx v : Nat) : Canon s (setState s ctx v) := canon_hub s _

/-! Events of a core. -/

theorem canonOut_resultDelivery (c : Nat) (s : State) : CanonOut s (execResultDelivery c s) := by
  have hhandles : Canon s (deliverHandles s c) := Canon.foldl (fun s d => canon_modCore s c _) _ s
  refine canonOut_next (Canon.trans (hhandles.trans (canon_modCore _ c _)) (Canon.foldl (fun s f => ?_) _ _))
  exact (taskStep_journal s c _ _).toCanon

theorem canon_releaseStores (s : State) (c : Nat) : Canon s (releaseStores s c) := canon_modCore s c _

theorem canonOut_tcolAdvance (c : Nat) (s : State) : CanonOut s (execTcolAdvance c s) :=
  canonOut_next (Canon.ite (canon_modCore s c _) (Canon.refl s))

theorem canonOut_forcedCommit (c : Nat) (s : State) : CanonOut s (execForcedCommit c s) :=
  canonOut_next (Canon.ite ((canon_releaseStores s c).trans (canon_modCore _ c _)) (Canon.refl s))

theorem canonOut_checkpoint (c : Nat) (s : State) : CanonOut s (execCheckpoint c s) :=
  canonOut_next (Canon.ite (canon_modCore s c _) (Canon.refl s))

theorem canon_endTask (s : State) (c cause : Nat) (info : Option Nat) : Canon s (endTask s c cause info) :=
  canon_of_stored (stored_endTask s c cause info)

theorem canonOut_freezeWatchdog (c : Nat) (s : State) : CanonOut s (execFreezeWatchdogExpiry c s) :=
  canonOut_next (Canon.ite (canon_endTask s c _ _) (Canon.refl s))

theorem canonOut_waitWatchdog (c : Nat) (s : State) : CanonOut s (execWaitWatchdogExpiry c s) :=
  canonOut_next (Canon.ite (canon_endTask s c _ _) (Canon.refl s))

theorem canonOut_preemptionTimeout (c : Nat) (s : State) : CanonOut s (execPreemptionTimeout c s) := by
  unfold execPreemptionTimeout
  split
  · exact canonOut_next (Canon.ite (canon_endTask s c _ _) (Canon.refl s))
  · exact canonOut_same s

theorem canonOut_engineCompletionEvent (c : Nat) (s : State) : CanonOut s (execEngineCompletionEvent c s) := by
  unfold execEngineCompletionEvent
  dsimp only
  split
  · exact canonOut_ite (canonOut_next (canon_of_eq rfl rfl rfl rfl)) (canonOut_same s)
  · exact canonOut_same s

/-! Far accesses. -/

theorem canon_finishPart (s : State) (c ident : Nat) (r : Nat × List Byte × Bool) : Canon s (finishPart s c ident r) := by
  unfold finishPart
  exact canon_modArchOf s c _

theorem canon_lineRead (s : State) (g : Option Gang) (pa : Nat) : Canon s (nextStamp (noteRead s g pa)).2 :=
  ((memStep_noteRead s g pa).trans (memStep_nextStamp _)).toCanon

theorem canon_loadAtHome (s : State) (c : Nat) (op : FarOp) (p : FarPart) : Canon s (loadAtHome s c op p) := by
  rw [loadAtHome_eq]
  refine Canon.trans (canon_lineRead s (gangOf s c) (p.loc.pa / 64 * 64)) (Canon.trans ?_ (canon_finishPart _ c _ _))
  unfold afterLoad
  exact Canon.ite (Canon.refl _) (canon_noteStamp _ c _ _)

theorem canon_atomAtHome (s : State) (c : Nat) (op : FarOp) (p : FarPart) (fn : Nat) (d x : Word) (scope : Nat) :
    Canon s (atomAtHome s c op p fn d x scope) := by
  rw [atomAtHome_eq, atomRead]
  refine Canon.trans (canon_lineRead s (gangOf s c) (p.loc.pa / 64 * 64)) (Canon.trans ?_ (canon_finishPart _ c _ _))
  have hleft (v : State) (n : Nat) : Canon v (atomLeft (noteStamp v c op.colour n) (gangOf s c) p.loc.pa fn
      (foundWord s (gangOf s c) p.loc.pa) d x) := (canon_noteStamp v c op.colour n).trans (homeStep_atomLeft _ _ _ _ _ _ _).toCanon
  obtain ⟨hub, hbells⟩ := ringBells_eq (atomLeft (noteStamp (nextStamp (noteRead s (gangOf s c) (p.loc.pa / 64 * 64))).2 c op.colour
    (nextStamp (noteRead s (gangOf s c) (p.loc.pa / 64 * 64))).1) (gangOf s c) p.loc.pa fn (foundWord s (gangOf s c) p.loc.pa) d x) scope
    (p.loc.pa / 64 * 64)
  rw [hbells]
  exact (hleft _ _).trans (canon_hub _ hub)

theorem canonOut_farLoadPerform (c ident : Nat) (s : State) : CanonOut s (execFarLoadPerform c ident s) := by
  unfold execFarLoadPerform
  split
  · exact canonOut_same s
  next op _ =>
    split
    · exact canonOut_same s
    next p _ =>
      have htake := (tokenStep_takeWithRecalls s c ident (farRecalls s c op p)).memStep.toCanon
      refine canonOut_ite (canonOut_same s) (canonOut_ite (canonOut_next (memStep_recallPaid s c _).toCanon)
        (canonOut_ite (canonOut_of_ends rfl) ?_))
      dsimp only
      generalize takeWithRecalls s c ident (farRecalls s c op p) = r at htake
      refine canonOut_ite (canonOut_next htake) ?_
      split
      · exact canonOut_next (htake.trans (memStep_startXfer _ _ _ _ _ _ _ _ _).toCanon)
      · exact canonOut_next (htake.trans (memStep_startXfer _ _ _ _ _ _ _ _ _).toCanon)
      · exact canonOut_next (htake.trans (canon_atomAtHome _ c op p _ _ _ _))
      · exact canonOut_next (htake.trans (canon_loadAtHome _ c op p))

theorem canonOut_farStorePerform (c ident : Nat) (s : State) : CanonOut s (execFarStorePerform c ident s) := by
  unfold execFarStorePerform
  split
  · exact canonOut_same s
  next x _ =>
    have htake := (tokenStep_takeWithRecalls s c ident (if x.loc.peer.isNone then [x.loc] else [])).memStep.toCanon
    refine canonOut_ite (canonOut_same s) (canonOut_ite (canonOut_next (memStep_recallPaid s c _).toCanon)
      (canonOut_ite (canonOut_of_ends rfl) ?_))
    dsimp only
    generalize takeWithRecalls s c ident (if x.loc.peer.isNone then [x.loc] else []) = r at htake
    refine canonOut_ite (canonOut_next htake) ?_
    split
    · exact canonOut_next (htake.trans (memStep_startXfer _ _ _ _ _ _ _ _ _).toCanon)
    · refine canonOut_next ((htake.trans (memStep_nextStamp _).toCanon).trans ?_)
      exact (memStep_writeLine _ _ _ _ _).toCanon.trans (canon_dropStore _ c _)

theorem canonOut_barrierRelease (x : ChanId) (s : State) : CanonOut s (execBarrierRelease x s) := by
  unfold execBarrierRelease
  split
  · exact canonOut_next (Canon.ite (canon_hub s _) (Canon.refl s))
  · exact canonOut_same s

/-! A gang is saved. -/

theorem canon_takeFlush (l : List Nat) (s : State) : Canon s (takeFlush l s).2 := by
  induction l generalizing s with
  | nil => exact Canon.refl s
  | cons q l ih =>
    have htake : Canon s (if quadDirty s q = 0 then (true, s) else takeTokens s (4 * q) (flushIdent q) (quadDirty s q)).2 := by
      split
      · exact Canon.refl s
      · exact canon_takeTokens s _ _ _
    rw [takeFlush]
    generalize (if quadDirty s q = 0 then (true, s) else takeTokens s (4 * q) (flushIdent q) (quadDirty s q)) = r at htake
    obtain ⟨b, s1⟩ := r
    cases b with
    | false => exact htake
    | true =>
      have hrest := ih s1
      dsimp only
      generalize takeFlush l s1 = r at hrest
      obtain ⟨b, s2⟩ := r
      have hboth : Canon s s2 := htake.trans hrest
      cases b with
      | false =>
        dsimp only
        exact hboth.trans (memStep_modDie s2 _ _).toCanon
      | true => exact hboth

theorem canon_flushGang (s : State) (g : Gang) : Canon s (flushGang s g).2 := by
  have htake := canon_takeFlush g.quads s
  unfold flushGang
  split
  · exact Canon.refl s
  · generalize takeFlush g.quads s = r at htake
    obtain ⟨b, s1⟩ := r
    cases b with
    | false => exact htake
    | true =>
      refine Canon.trans htake (Canon.foldl (fun s q => ?_) _ s1)
      exact Canon.foldl (f := fun (s : State) (e : Nat × Window) => flushWindow s (4 * q) q e.2)
        (fun s e => (memStep_flushWindow s _ q e.2).toCanon) _ s

theorem canon_vacateQuad (s : State) (q : Nat) : Canon s (vacateQuad s q) := by
  unfold vacateQuad
  refine Canon.trans ?_ (canon_modQuad _ q _)
  refine Canon.trans ?_ (windowStep_stashKeep _ q _).toCanon
  exact Canon.trans (windowStep_dropWindows s q (fun _ => true)).toCanon (Canon.foldl (fun s c => canon_modCore s c _) _ _)

theorem canon_wakeDeferred (s : State) : Canon s (wakeDeferred s) := canon_hub s _

theorem canon_setBind (s : State) (ctx : Nat) (b : Binding) : Canon s (setBind s ctx b) := canon_hub s _

theorem canon_delBind (s : State) (ctx : Nat) : Canon s (delBind s ctx) := canon_hub s _

theorem canon_setGang (s : State) (g : Gang) : Canon s (setGang s g) := canon_hub s _

theorem canon_saveGang (s : State) (g : Gang) : Canon s (saveGang s g) := by
  have hquads : Canon s (g.quads.foldl vacateQuad s) := Canon.foldl canon_vacateQuad _ s
  have hsealed (h : Hub) (lines : Nat) (g1 : Gang) :
      Canon s (setGang (countSeals { g.quads.foldl vacateQuad s with hub := h } g.world lines) g1) :=
    ((hquads.trans (canon_hub _ h)).trans (memStep_countSeals _ _ _).toCanon).trans (canon_setGang _ g1)
  unfold saveGang
  refine Canon.ite ?_ ?_
  · exact (hsealed _ _ _).trans ((canon_setBind _ _ _).trans (canon_wakeDeferred _))
  · exact ((hsealed _ _ _).trans (windowStep_remapAll _ g).toCanon).trans ((canon_setBind _ _ _).trans (canon_wakeDeferred _))

theorem canon_trySave (s : State) (ctx : Nat) : Canon s (trySave s ctx) := by
  unfold trySave
  split
  · exact Canon.refl s
  next g _ =>
    have hflush := canon_flushGang s g
    split
    · generalize flushGang s g = r at hflush
      obtain ⟨b, s1⟩ := r
      cases b with
      | false => exact hflush
      | true => exact Canon.ite hflush (Canon.trans hflush (canon_saveGang s1 g))
    · exact Canon.refl s

theorem canonOut_preemptionStop (c : Nat) (s : State) : CanonOut s (execPreemptionStop c s) := by
  refine canonOut_ite (canonOut_next ?_) (canonOut_ite (canonOut_next (canon_trySave s _)) (canonOut_same s))
  exact ((canon_releaseStores s c).trans (canon_modCore _ c _)).trans (canon_trySave _ _)

theorem canon_markGang (s : State) (g : Gang) : Canon s (markGang s g) :=
  ((Canon.foldl (fun s c => canon_modCore s c _) _ s).trans (canon_setGang _ _)).trans (canon_setState _ _ _)

theorem canon_endGangAll (s : State) (g : Gang) (cause : Nat) : Canon s (endGangAll s g cause) := by
  have hmembers : Canon s ((gangCores g).foldl (fun s c =>
      if (getCore s c).gang = some g.ctx ∧ isLive (getCore s c) then endMember s c cause else s) s) := by
    refine Canon.foldl (fun s c => ?_) _ s
    exact Canon.ite (canon_of_stored (stored_endMember s c cause none)) (Canon.refl s)
  unfold endGangAll
  dsimp only
  refine Canon.trans ?_ (canon_delBind _ _)
  refine Canon.trans ?_ (canon_setGang _ _)
  split
  · exact (hmembers.trans (canon_hub _ _)).trans (canon_hub _ _)
  · exact hmembers.trans (canon_hub _ _)

/-! A gang is resumed. -/

theorem canon_startResume (s : State) (g : Gang) : Canon s (startResume s g) := by
  unfold startResume
  dsimp only
  refine Canon.trans ?_ (canon_delBind _ _)
  refine Canon.trans ?_ (canon_setGang _ _)
  refine Canon.foldl (fun s q => Canon.trans ?_ (canon_modQuad _ q _)) _ s
  exact Canon.ite (Canon.refl s) (windowStep_leaveWorld s q).toCanon

theorem canon_imageBytes (s : State) (h : Hub) (l : List Host.Cell) (bad : List (Nat × Bool)) (tags : List (Nat × Tag)) :
    Canon s { s with hub := h, stash := l.foldl (fun l e => memWrite l e.1 e.2) s.stash, sbad := bad, tags := tags } :=
  canon_of_stash (fun hs => memWf_foldl (fun m (e : Host.Cell) => memWrite m e.1 e.2) (fun _ e hm => memWf_memWrite hm e.1 e.2) hs l) rfl rfl rfl

theorem canon_restoreGang (s : State) (g : Gang) (m : Image) : Canon s (restoreGang s g m) := by
  unfold restoreGang
  dsimp only
  refine Canon.trans ?_ (Canon.foldl (fun s e => ?_) _ _)
  · refine Canon.trans ?_ (canon_imageBytes _ _ _ _ _)
    refine Canon.foldl (fun s q => Canon.trans ?_ (canon_modQuad _ q _)) g.quads s
    refine Canon.trans ?_ (Canon.foldl (fun s c => canon_modCore s c _) _ _)
    refine Canon.trans ?_ (windowStep_stashKeep _ q _).toCanon
    exact Canon.trans (windowStep_dropWindows s q (fun _ => true)).toCanon (canon_of_eq rfl rfl rfl rfl)
  · exact canon_of_eq rfl rfl rfl rfl

theorem canon_runMembers (s : State) (g : Gang) : Canon s (runMembers s g) := Canon.foldl (fun s c => canon_modCore s c _) _ s

theorem canon_formResult (s : State) (c : Nat) (q : Fin 5) (cmd : EngCmd) : Canon s (formResult s c q cmd) := by
  unfold formResult
  split
  next r _ => exact canon_paidRun s c q cmd (fun cmd s => canon_writeResult cmd r (beginRun s c cmd))
  · exact Canon.refl s

theorem canon_formHeld (s : State) (c : Nat) : Canon s (formHeld s c) := by
  unfold formHeld
  split
  · exact Canon.ite (canon_formResult s c 3 _) (Canon.refl s)
  · exact Canon.refl s

theorem canon_reloadBuf (x : EngRun) (w : WeightBuf) : CanonRes x (reloadBuf x w) := by
  have hread := canon_engNearRead
  unfold reloadBuf
  dsimp only
  generalize engNearRead = f at hread
  refine CanonRes.ite ?_ (Canon.refl _)
  have h1 (q a n : Nat) (p : Prop) [Decidable p] (r b k : Nat) :
      Canon x.st (if p then ([], false, (f x q a n).2.2) else f (f x q a n).2.2 r b k).2.2.st := by
    split
    · exact hread x q a n
    · exact (hread x q a n).trans (hread _ r b k)
  exact h1 _ _ _ _ _ _ _

theorem canon_reloadCore (x : EngRun) (c : Nat) : Canon x.st (reloadCore x c).st := by
  have hread := canon_reloadBuf
  unfold reloadCore
  dsimp only
  generalize reloadBuf = f at hread
  have h2 (v w : WeightBuf) : Canon x.st (f (f { x with core := c } v).2 w).2.st := Canon.trans (hread { x with core := c } v) (hread _ w)
  exact (h2 _ _).trans (canon_modCore _ c _)

theorem canon_finishResume (s : State) (g : Gang) (reloaded : Bool) : Canon s (finishResume s g reloaded) := by
  have hread := canonRun_foldl canon_reloadCore (if reloaded then [] else gangCores g) (EngRun.start s (4 * nthD g.quads 0 0) 0 [])
  unfold finishResume
  dsimp only
  generalize (if reloaded then [] else gangCores g).foldl reloadCore (EngRun.start s (4 * nthD g.quads 0 0) 0 []) = x at hread
  refine Canon.ite ?_ ?_
  · refine Canon.trans ?_ (canon_setGang _ _)
    refine Canon.trans ?_ (Canon.foldl (canon_startEngFill _) _ _)
    exact Canon.foldl (fun s l => (memStep_recallPaid s _ l).toCanon) _ s
  · have hformed := Canon.trans hread (Canon.foldl canon_formHeld (gangCores g) x.st)
    refine Canon.ite (hformed.trans (canon_setGang _ _)) ?_
    refine Canon.trans ?_ (canon_addTodo _ _)
    refine Canon.trans ?_ (canon_setState _ _ _)
    refine Canon.trans ?_ (canon_runMembers _ g)
    refine Canon.trans ?_ (Canon.foldl (f := fun (s : State) (c : Nat) => serveAnvil c s) (fun s c => (taskStep_serveAnvil c s).toCanon) _ _)
    exact hformed.trans (canon_setGang _ _)

theorem canonOut_gangResume (r : LoadCheck) (s : State) : CanonOut s (execGangResume r s) := by
  unfold execGangResume
  dsimp only
  split
  · exact canonOut_same s
  next g _ =>
    split
    · refine canonOut_ite ?_ (canonOut_same s)
      refine canonOut_ite (canonOut_next (canon_endGangAll s g _)) (canonOut_ite (canonOut_next (canon_endGangAll s g _)) (canonOut_next ?_))
      exact ((canon_restoreGang s g _).trans (canon_setGang _ _)).trans (canon_finishResume _ _ _)
    · exact canonOut_next (Canon.ite (canon_finishResume s g _) (Canon.refl s))
    · exact canonOut_same s

/-! A gang is done. -/

theorem canon_nextRequest (s : State) (ctx : Nat) : Canon s (nextRequest s ctx) :=
  Canon.ite (canon_delBind s ctx) (Canon.ite ((canon_delBind s ctx).trans (canon_setState _ _ _))
    ((canon_setState s ctx _).trans (canon_setBind _ _ _)))

theorem canon_endRequest (s : State) (ctx ix status code rank : Nat) (path : List Nat) :
    Canon s (endRequest s ctx ix status code rank path) := by
  unfold endRequest
  dsimp only
  refine Canon.trans ?_ (canon_nextRequest _ ctx)
  refine Canon.trans (canon_setBlock s ctx (setBlkAged (getBlock s ctx) false)) ?_
  split
  next r _ =>
    have hreply := (homeStep_makeReply (setBlock s ctx (setBlkAged (getBlock s ctx) false)) r status code rank path).toCanon
    exact Canon.ite ((hreply.trans (canon_hub _ _)).trans (canon_hub _ _)) (hreply.trans (canon_hub _ _))
  · exact Canon.refl _

theorem canon_settleAll (s : State) (g : Gang) : Canon s (settleAll s g) := by
  have hpages := canon_settlePages
  unfold settleAll
  dsimp only
  generalize settlePages = f at hpages
  refine Canon.trans (canon_hub s _) (Canon.foldl (fun s e => ?_) _ _)
  exact hpages s g.ctx e.1 e.2

theorem canon_afterLaunch (s : State) (g : Gang) (code : Nat) : Canon s (afterLaunch s g code) := by
  unfold afterLaunch
  split
  · exact canon_endRequest s _ _ _ _ _ _
  · dsimp only
    refine Canon.ite (canon_endRequest s _ _ _ _ _ _) ?_
    split
    · exact canon_endRequest s _ _ _ _ _ _
    · exact (canon_setState s _ _).trans (canon_setBind _ _ _)

theorem canonOut_gangCompletion (ctx : Nat) (s : State) : CanonOut s (execGangCompletion ctx s) := by
  unfold execGangCompletion
  split
  · exact canonOut_same s
  next g _ =>
    have hflush : Canon s (if g.image.isSome then (true, s) else flushGang s g).2 := by
      split
      · exact Canon.refl s
      · exact canon_flushGang s g
    refine canonOut_ite ?_ (canonOut_same s)
    dsimp only
    generalize (if g.image.isSome then (true, s) else flushGang s g) = r at hflush
    refine canonOut_ite (canonOut_next hflush) (canonOut_next ?_)
    refine Canon.trans ?_ (canon_wakeDeferred _)
    refine Canon.trans ?_ (canon_afterLaunch _ g _)
    refine Canon.trans ?_ (ringsStep_scrubMarked _).toCanon
    refine Canon.trans ?_ (ringsStep_warmFrames _ ctx).toCanon
    refine Canon.trans ?_ (canon_hub _ _ : Canon _ (delGang _ ctx))
    refine Canon.trans ?_ (ringsStep_releaseQuads _ g).toCanon
    exact (hflush.trans (canon_settleAll _ g)).trans (ringsStep_restage _ g).toCanon

/-! Rollbacks. -/

theorem canon_noteDone (c : Nat) (l : List FarOp) (s : State) : Canon s (noteDone c l s) := by
  have h := (stampStep_noteDone c l s).rest
  exact canon_of_eq (congrArg State.stash h :) (congrArg State.far h :) (congrArg State.lineVer h :) (congrArg State.bad h :)

theorem canon_restoreCk (s : State) (c : Nat) (loads : List LoadRec) : Canon s (restoreCk s c loads) := by
  unfold restoreCk
  refine Canon.trans ?_ (canon_noteDone c _ _)
  refine Canon.trans ?_ (canon_modCore _ c _)
  exact (canon_of_eq rfl rfl rfl rfl : Canon s { s with freeCtr := s.freeCtr + 12288 }).trans (memStep_undoNear c _ _).toCanon

theorem canon_retireCore (s : State) (c : Nat) : Canon s (retireCore s c) := by
  have hstopped (f : Core → Core) (k : Quad → Quad) (loads : List LoadRec) :
      Canon s (modQuad (modCore (restoreCk s c loads) c f) (quadOf c) k) :=
    ((canon_restoreCk s c loads).trans (canon_modCore _ c f)).trans (canon_modQuad _ _ k)
  unfold retireCore
  dsimp only
  split
  · exact hstopped _ _ _
  next g _ =>
    refine (hstopped _ _ _).trans (Canon.ite ((canon_markGang _ g).trans (canon_trySave _ _)) (Canon.ite ?_ ?_))
    · exact (canon_of_stored (stored_endGang _ g c _ none)).trans (canon_modQuad _ _ _)
    · exact ((memStep_setDie _ _ _).toCanon.trans (canon_markGang _ _)).trans (canon_trySave _ _)

theorem canon_beginRerun (s : State) (c : Nat) (r : Rerun) : Canon s (beginRerun s c r) := by
  unfold beginRerun
  exact (canon_restoreCk s c _).trans (canon_modCore _ c _)

theorem canon_startRollback (s : State) (c : Nat) (e : ErrorReport) : Canon s (startRollback s c e) := by
  unfold startRollback
  exact (canon_beginRerun s c _).trans (canon_modQuad _ _ _)

theorem canon_releaseHolds (s : State) : Canon s (releaseHolds s) := canon_of_eq rfl rfl rfl rfl

theorem canon_endRerun (s : State) (c : Nat) : Canon s (endRerun s c).2 := by
  unfold endRerun
  dsimp only
  split
  · exact Canon.refl s
  · split
    · exact Canon.refl s
    · split
      · exact canon_beginRerun s c _
      · split
        · exact (canon_modCore s c _ : Canon s (agreedRollback s c))
        · exact canon_retireCore s c

theorem canon_restorePeriod (s : State) (c : Nat) (r : Rerun) : Canon s (restorePeriod s c r) := (canon_modCore s c _).trans (canon_endRerun _ c)

theorem canon_replayLoads (s : State) (c : Nat) : Canon s (replayLoads s c) := by
  unfold replayLoads
  split
  · exact Canon.refl s
  · exact (canon_modCore s c _).trans (canon_noteDone c _ _)

theorem canon_hopError (s : State) (c : Nat) (h : ErrorHop) : Canon s (hopError s c h) := by
  cases h with
  | stored pa => exact Canon.ite (memStep_markBad s _).toCanon (Canon.refl s)
  | fabric ord => exact canon_of_eq rfl rfl rfl rfl

theorem canonOut_detectedError (c : Nat) (e : ErrorReport) (s : State) : CanonOut s (execDetectedError c e s) := by
  refine canonOut_ite (canonOut_next ?_) (canonOut_ite (canonOut_same s) (canonOut_ite (canonOut_next (canon_endTask s c _ _))
    (canonOut_next (canon_startRollback s c e))))
  split
  · exact canon_hopError s c _
  · exact Canon.refl s

/-! A tenant is contained. -/

theorem canon_dropBinding (s : State) (ctx : Nat) : Canon s (dropBinding s ctx) := by
  unfold dropBinding
  split
  · refine Canon.trans ?_ (canon_wakeDeferred _)
    exact Canon.ite (canon_delBind s ctx) ((canon_hub s _).trans (canon_delBind _ ctx))
  · exact Canon.refl s

theorem canon_dropQueued (s : State) (ctx : Nat) : Canon s (dropQueued s ctx) := by
  unfold dropQueued
  dsimp only
  refine Canon.trans ?_ (canon_setBlock _ _ _)
  refine Canon.trans ?_ (canon_hub _ _)
  exact Canon.ite (Canon.refl s) (canon_dropBinding s ctx)

theorem canon_releaseTenant (s : State) (t : Nat) : Canon s (releaseTenant s t) := by
  unfold releaseTenant
  refine Canon.trans ?_ (Canon.foldl (fun s q => (windowStep_gateQuad s q).toCanon) _ _)
  exact Canon.foldl (fun s c => canon_hub s _) _ s

theorem canon_haltTenant (s : State) (t : Nat) : Canon s (haltTenant s t) := by
  unfold haltTenant
  dsimp only
  refine Canon.trans ?_ (Canon.foldl (fun s c => ?_) _ _)
  · exact (Canon.foldl (fun s c => canon_setState s c _) _ s).trans (Canon.foldl canon_dropQueued _ _)
  · split
    · exact canon_endGangAll s _ _
    · exact Canon.refl s

theorem canon_logEntry (s : State) (cause a b : Nat) : Canon s (logEntry s cause a b) := canon_edge s _

theorem canon_contain (s : State) (t cause ctx off : Nat) : Canon s (contain s t cause ctx off) :=
  (((canon_haltTenant s t).trans (canon_releaseTenant _ t)).trans (canon_logEntry _ _ _ _)).trans (canon_edge _ _)

end Sys2Proof.Proofs
end

section
/-! PROOF. The dispatcher keeps the canonical forms: placement, launch, staging, replies, ageing, gating, the governors (R286 to R298, R341,
R342, R357). -/

namespace Sys2Proof.Proofs

open Sys2Proof.Machine Sys2Proof.Claims Sys2Proof.Laws

/-! Placement. -/

theorem canon_enterBuffer (s : State) (world n : Nat) : Canon s (enterBuffer s world n) := Canon.ite (Canon.refl s) (canon_hub s _)

theorem canon_noteLaunch (s : State) (world : Nat) (rc : BitVec 8192) : Canon s (noteLaunch s world rc).2 := by
  unfold noteLaunch
  dsimp only
  refine Canon.trans ?_ (canon_hub _ _)
  exact Canon.foldl (fun s b => canon_enterBuffer s world b) _ s

theorem canon_bindTo (s : State) (w : Want) (b : Binding) (c : Cand) (t : Nat) : Canon s (bindTo s w b c t) := by
  unfold bindTo
  exact ((canon_noteLaunch s w.world w.rc).trans (canon_setState _ _ _)).trans (canon_setBind _ _ _)

theorem canon_placeRequest (s : State) (w : Want) (b : Binding) : Canon s (placeRequest s w b) := by
  unfold placeRequest
  dsimp only
  split
  · exact (canon_bindTo s w b _ _).trans (canon_hub _ _)
  · split
    · exact (Canon.ite (canon_setBind s _ _) (canon_bindTo s w b _ _)).trans (canon_hub _ _)
    · exact (canon_setBind s _ _).trans (canon_hub _ _)

theorem canonOut_placement (ctx : Nat) (s : State) : CanonOut s (execPlacement ctx s) := by
  unfold execPlacement
  split
  · exact canonOut_same s
  next c b _ =>
    refine canonOut_ite (canonOut_same s) (canonOut_ite ?_ ?_)
    · split
      · exact canonOut_next (canon_delBind s ctx)
      · exact canonOut_next ((canon_setBind s ctx _).trans (canon_hub _ _))
    · split
      · exact canonOut_next (canon_contain s _ _ _ _)
      · exact canonOut_ite (canonOut_next (canon_contain s _ _ _ _)) (canonOut_ite (canonOut_next (canon_contain s _ _ _ _))
          (canonOut_next (canon_placeRequest s _ b)))

/-! Launch. -/

theorem canon_beginStart (s : State) (ctx : Nat) (b : Binding) (rc : BitVec 8192) (quads : List Nat) (up : Nat) :
    Canon s (beginStart s ctx b rc quads up) := (canon_setState s ctx _).trans (canon_setBind _ ctx _)

theorem canon_beginImage (s : State) (ctx : Nat) (b : Binding) (rc : BitVec 8192) (quads : List Nat) (up : Nat) :
    Canon s (beginImage s ctx b rc quads up) :=
  Canon.ite (canon_beginStart s ctx b rc quads up) ((canon_setState s ctx _).trans (canon_setBind _ ctx _))

theorem canon_beginCold (s : State) (ctx : Nat) (b : Binding) (rc : BitVec 8192) (quads : List Nat) (up : Nat) :
    Canon s (beginCold s ctx b rc quads up) := by
  have hworld := (windowStep_changeWorld s (blkWorld (getBlock s ctx)) quads).toCanon
  refine Canon.ite ((hworld.trans (canon_setState _ ctx _)).trans (canon_setBind _ ctx _)) (Canon.ite ?_ ?_)
  · exact hworld.trans (canon_setBind _ ctx _)
  · exact hworld.trans (canon_beginImage _ ctx b rc quads up)

theorem canon_beginAt (s : State) (ctx : Nat) (b : Binding) (rc : BitVec 8192) (quads : List Nat) (t up : Nat) :
    Canon s (beginAt s ctx b rc quads t up) := Canon.ite (canon_beginCold s ctx b rc quads up) (canon_setBind s ctx _)

theorem canon_bumpBlk (s : State) (ctx off n : Nat) : Canon s (bumpBlk s ctx off n) := canon_setBlock s ctx _

theorem canon_markVictims (s : State) (victims : List Nat) : Canon s (markVictims s victims) := by
  refine Canon.foldl (fun s c => ?_) victims s
  split
  · exact Canon.ite ((canon_markGang s _).trans (canon_bumpBlk _ _ _ _)) (Canon.refl s)
  · exact Canon.refl s

theorem canon_leaseFrames (s : State) (ctx : Nat) (l : List PageRange) : Canon s (leaseFrames s ctx l) := canon_of_eq rfl rfl rfl rfl

theorem canon_setChan (s : State) (x : Chan) : Canon s (setChan s x) := canon_hub s _

theorem canon_podChannels (s : State) (ctx : Nat) : Canon s (podChannels s ctx) := by
  unfold podChannels
  dsimp only
  split
  · exact Canon.foldl (fun s c => canon_setChan s _) _ s
  · exact Canon.refl s

theorem canon_noteBound (s : State) (ctx ix : Nat) : Canon s (noteBound s ctx ix) := canon_setBlock s ctx _

theorem canon_enterGang (s : State) (ctx : Nat) (b : Binding) (rc : BitVec 8192) (quads : List Nat) :
    Canon s (enterGang s ctx b rc quads) := by
  unfold enterGang
  dsimp only
  refine Canon.trans ?_ (canon_addTodo _ _)
  refine Canon.trans ?_ (canon_podChannels _ ctx)
  refine Canon.trans ?_ (canon_delBind _ ctx)
  refine Canon.trans ?_ (canon_setState _ ctx _)
  have hentered : ∀ u, Canon s u → Canon s (if b.path.isEmpty then noteBound u ctx b.ix else u) := fun u h =>
    Canon.ite (h.trans (canon_noteBound u ctx b.ix)) h
  refine hentered _ ?_
  refine Canon.trans ?_ (Canon.foldl (f := fun (s : State) (e : Nat × Nat) => modCore s e.1 _) (fun s e => canon_modCore s e.1 _) _ _)
  refine Canon.trans ?_ (Canon.foldl (fun s q => (windowStep_enterQuad s ctx _ _ rc q).toCanon) _ _)
  exact (canon_leaseFrames s ctx _).trans (canon_setGang _ _)

theorem canon_stageImage (s : State) (ctx i : Nat) : Canon s (stageImage s ctx i) :=
  (homeStep_imageCells s ctx i).toCanon.trans (canon_hub _ _)

theorem canon_endImage (s : State) (ctx : Nat) (b : Binding) (rc : BitVec 8192) : Canon s (endImage s ctx b rc) :=
  Canon.ite (Canon.refl s) (canon_stageImage s ctx _)

theorem canon_forgetLaunch (s : State) (n : Nat) : Canon s (forgetLaunch s n) := canon_hub s _

theorem canon_placeAgain (s : State) (ctx : Nat) (b : Binding) : Canon s (placeAgain s ctx b) :=
  ((canon_forgetLaunch s _).trans (canon_setState _ ctx _)).trans (canon_setBind _ ctx _)

theorem canon_failLaunch (s : State) (ctx : Nat) (b : Binding) (quads : List Nat) : Canon s (failLaunch s ctx b quads) := by
  have hquads := (canon_forgetLaunch s b.launch).trans
    (Canon.foldl (f := fun (s : State) (q : Nat) => modQuad s q (fun x => { x with power := .clockGated, idleSince := s.now }))
      (fun s q => canon_modQuad s q _) quads _)
  refine Canon.trans ?_ (canon_wakeDeferred _)
  refine Canon.trans ?_ (canon_endRequest _ ctx _ _ _ _ _)
  exact Canon.ite (hquads.trans (canon_setBlock _ ctx _)) hquads

theorem canonOut_launchStart (r : LoadCheck) (s : State) : CanonOut s (execLaunchStart r s) := by
  unfold execLaunchStart
  dsimp only
  split
  · exact canonOut_same s
  next b _ =>
    refine canonOut_ite (canonOut_next (canon_placeAgain s _ b)) ?_
    split
    · exact canonOut_same s
    · exact canonOut_same s
    · split
      next g _ => exact canonOut_ite (canonOut_next (canon_startResume s g)) (canonOut_same s)
      · exact canonOut_same s
    · split
      · exact canonOut_ite (canonOut_same s) (canonOut_ite (canonOut_next (canon_beginAt s _ b _ _ _ _))
          (canonOut_next ((canon_markVictims s _).trans (canon_setBind _ _ _))))
      · exact canonOut_same s
    · split
      · exact canonOut_ite (canonOut_next (canon_beginAt s _ b _ _ _ _)) (canonOut_same s)
      · exact canonOut_same s
    · split
      · exact canonOut_ite (canonOut_same s) (canonOut_next (canon_beginCold s _ b _ _ _))
      · exact canonOut_same s
    · split
      next rc _ =>
        refine canonOut_ite (canonOut_same s) (canonOut_ite (canonOut_next (canon_failLaunch s _ b _)) (canonOut_next ?_))
        exact (windowStep_openSchedule s _ b rc _).toCanon.trans (canon_beginImage _ _ b rc _ _)
      · exact canonOut_same s
    · split
      next rc _ => exact canonOut_ite (canonOut_same s) (canonOut_next ((canon_endImage s _ b rc).trans (canon_beginStart _ _ b rc _ _)))
      · exact canonOut_same s
    · split
      next rc _ => exact canonOut_ite (canonOut_next (canon_enterGang s _ b rc _)) (canonOut_same s)
      · exact canonOut_same s

/-! Staging. -/

theorem canon_endStaging (s : State) (x : Staging) : Canon s (endStaging s x) := by
  have hstaged (u : State) : Canon u (if x.image then stageImage u x.ctx x.recIx else u) :=
    Canon.ite (canon_stageImage u x.ctx x.recIx) (Canon.refl u)
  unfold endStaging
  dsimp only
  split
  · exact canon_hub s _
  · exact Canon.ite (((canon_hub s _).trans (hstaged _)).trans (windowStep_openQuads _ _ _ _ _).toCanon) ((canon_hub s _).trans (hstaged _))

theorem canon_stageAhead (s : State) : Canon s (stageAhead s) := (Canon.foldl canon_endStaging _ s).trans (canon_hub _ _)

/-! Replies, ageing and gating. -/

theorem canon_sendReply (s : State) (r : ReplyDue) : Canon s (sendReply s r) := by
  have hseq := (memStep_takeSeq s r.req.session).toCanon
  unfold sendReply
  generalize takeSeq s r.req.session = x at hseq
  obtain ⟨q, s1⟩ := x
  cases q with
  | none => exact Canon.trans hseq (memStep_emit s1 _).toCanon
  | some q => exact Canon.ite (Canon.trans hseq (memStep_sendFrame s1 _ _ _ _ _ _ _ _ _ _).toCanon) (Canon.trans hseq (canon_edge s1 _))

theorem canonOut_reply (ctx : Nat) (s : State) : CanonOut s (execReply ctx s) := by
  unfold execReply
  split
  next r _ => exact canonOut_next ((canon_hub s _).trans (canon_sendReply _ r))
  · exact canonOut_same s

theorem canonOut_replyHoldExpiry (port : Nat) (s : State) : CanonOut s (execReplyHoldExpiry port s) := canonOut_next (canon_edge s _)

theorem canonOut_requestAgeing (ctx : Nat) (s : State) : CanonOut s (execRequestAgeing ctx s) := by
  unfold execRequestAgeing
  split
  · exact canonOut_next (Canon.ite (canon_setBlock s ctx _) (Canon.refl s))
  · exact canonOut_same s

theorem canonOut_quadPowerGate (quad : Nat) (s : State) : CanonOut s (execQuadPowerGate quad s) :=
  canonOut_next (Canon.ite (windowStep_gateQuad s quad).toCanon (Canon.refl s))

/-! The governors and the bandwidth. -/

theorem canon_stepDuty (s : State) (up : Bool) (g : Option Gang) : Canon s (stepDuty s up g) := by
  cases g with
  | none => exact Canon.refl s
  | some g => exact canon_setGang s _

theorem canonOut_governorReading (watts : Nat) (s : State) : CanonOut s (execGovernorReading watts s) :=
  canonOut_ite (canonOut_next ((canon_stepDuty s false _).trans (canon_edge _ _))) (canonOut_ite (canonOut_next (canon_edge s _))
    (canonOut_ite (canonOut_next ((canon_stepDuty s true _).trans (canon_edge _ _))) (canonOut_next (canon_edge s _))))

theorem canonOut_droopDetection (die : Nat) (s : State) : CanonOut s (execDroopDetection die s) := canonOut_next (memStep_modDie s die _).toCanon

theorem canonOut_droopRecovery (die : Nat) (s : State) : CanonOut s (execDroopRecovery die s) := canonOut_next (memStep_modDie s die _).toCanon

theorem canonOut_bucketWindowStart (die : Nat) (s : State) : CanonOut s (execBucketWindowStart die s) :=
  canonOut_ite (canonOut_next (memStep_setDie s die _).toCanon) (canonOut_same s)

end Sys2Proof.Proofs
end

section
/-! PROOF. The Ethernet side keeps the canonical forms: requests, pod transfers and their answers, pod collectives, the send ring and the
links (R40, R282, R335 to R348). -/

namespace Sys2Proof.Proofs

open Sys2Proof.Machine Sys2Proof.Claims Sys2Proof.Laws

/-! Frames that arrive. -/

theorem canon_dropFrame (s : State) (port : Nat) : Canon s (dropFrame s port) := canon_edge s _

theorem canonOut_arriving (port : Nat) (f : UFrame) (s : State) (go : State → Out) (h : CanonOut s (go s)) :
    CanonOut s (Machine.arriving port f s go) :=
  canonOut_ite (canonOut_next (canon_dropFrame s port)) (canonOut_ite (canonOut_next (memStep_emit s _).toCanon) h)

theorem canonOut_podSession (port : Nat) (f : UFrame) (classes : Nat → Bool) {go : Nat → State → Out} (h : ∀ src s, CanonOut s (go src s))
    (s : State) : CanonOut s (podSession port f classes go s) := by
  unfold podSession
  split
  · exact canonOut_next (canon_dropFrame s port)
  next src _ =>
    have hpeer : Canon s (setPeer s src ((getPeer s src).mark f.seq)) := canon_hub s _
    refine canonOut_ite (canonOut_next (canon_dropFrame s port)) (canonOut_ite (canonOut_next (hpeer.trans (canon_logEntry _ _ _ _))) ?_)
    exact (h src _).after hpeer

theorem canon_hubWrite (s : State) (ctx va : Nat) (bs : List Byte) : Canon s (hubWrite s ctx va bs) := (homeStep_hubWrite s ctx va bs).toCanon

theorem canon_hubFetch (s : State) (ctx va n : Nat) : Canon s (hubFetch s ctx va n).2 := (homeStep_hubFetch s ctx va n).toCanon

theorem canon_flushEntries (s : State) (ctx : Nat) : Canon s (flushEntries s ctx) := by
  refine Canon.foldl (fun s r => ?_) _ s
  have hrecalls := (homeStep_hubRecalls s ctx (ringVa (getBlock s ctx) r.ix) r.entry.length).toCanon
  refine Canon.ite ?_ (Canon.refl s)
  generalize hubRecalls s ctx (ringVa (getBlock s ctx) r.ix) r.entry.length = x at hrecalls
  obtain ⟨b, s1⟩ := x
  cases b with
  | false => exact hrecalls
  | true => exact (Canon.trans hrecalls (canon_hubWrite s1 ctx _ _)).trans (canon_hub _ _)

theorem canon_lookupRequest (s : State) (port : Nat) (f : UFrame) : Canon s (lookupRequest s port f) := by
  unfold lookupRequest
  dsimp only
  refine Canon.ite (canon_hub s _) ?_
  split
  · exact canon_contain s _ _ _ _
  · have hentered : ∀ (h : Hub) (b : BitVec 2048), Canon s (flushEntries (setBlock { s with hub := h } f.ctx b) f.ctx) := fun h b =>
      ((canon_hub s h).trans (canon_setBlock _ _ b)).trans (canon_flushEntries _ _)
    exact Canon.ite (canon_hub s _) (Canon.ite (((hentered _ _).trans (canon_setState _ _ _)).trans (canon_setBind _ _ _)) (hentered _ _))

theorem canon_setSession (s : State) (n : Nat) (x : Session) : Canon s (setSession s n x) := canon_hub s _

theorem canonOut_sessionFrame (port : Nat) (f : UFrame) (s : State) : CanonOut s (sessionFrame port f s) := by
  unfold sessionFrame
  split
  · exact canonOut_next (canon_dropFrame s port)
  next x _ =>
    refine canonOut_ite (canonOut_next (canon_dropFrame s port)) ?_
    dsimp only
    split
    · exact canonOut_next ((canon_setSession s _ _).trans (canon_contain _ _ _ _ _))
    · exact canonOut_next ((canon_setSession s _ _).trans (canon_lookupRequest _ _ _))

theorem canonOut_invoke (port : Nat) (f : UFrame) (s : State) : CanonOut s (execInvoke port f s) :=
  canonOut_arriving port f s _ (canonOut_ite (canonOut_podSession port f _ (fun _ s => canonOut_same s) s) (canonOut_sessionFrame port f s))

theorem canonOut_managementFrame (port : Nat) (bytes : List Byte) (s : State) : CanonOut s (execManagementFrame port bytes s) :=
  canonOut_next (memStep_emit s _).toCanon

/-! Pod transfers at their home. -/

theorem canon_sendAnswer (s : State) (dest : Nat) (a : PodAns) : Canon s (sendAnswer s dest a) := (memStep_sendPod s _ _ _ _).toCanon

theorem canon_answer (s : State) (r : PodReq) (result : Nat) (data : List Byte) : Canon s (answer s r result data) :=
  (canon_hub s _).trans (canon_sendAnswer _ _ _)

theorem canon_podLoad (r : PodReq) (s : State) : Canon s (podLoad r s) :=
  Canon.ite ((canon_lineRead s none _).trans (canon_answer _ _ _ _)) ((canon_lineRead s none _).trans (canon_answer _ _ _ _))

theorem canon_podStore (r : PodReq) (s : State) : Canon s (podStore r s) :=
  ((memStep_nextStamp s).toCanon.trans (memStep_writeLine _ _ _ _ _).toCanon).trans (canon_answer _ _ _ _)

theorem canon_ringBells (s : State) (scope pa : Nat) : Canon s (ringBells s scope pa) := by
  obtain ⟨hub, h⟩ := ringBells_eq s scope pa
  rw [h]
  exact canon_hub s hub

theorem canon_podAtom (r : PodReq) (s : State) : Canon s (podAtom r s) := by
  have hread := canon_lineRead s none (podPa r / 64 * 64)
  unfold podAtom
  dsimp only
  refine Canon.ite (hread.trans (canon_answer _ _ _ _)) (Canon.trans ?_ (canon_answer _ _ _ _))
  exact Canon.trans (Canon.ite (hread.trans (memStep_writeLine _ _ _ _ _).toCanon) hread) (canon_ringBells _ _ _)

theorem canon_performPod (cls : Nat) (r : PodReq) (s : State) : Canon s (performPod cls r s) := by
  unfold performPod
  split
  · exact canon_podLoad r s
  · exact canon_podStore r s
  · exact canon_podAtom r s

theorem canon_tryPod (cls : Nat) (r : PodReq) (s : State) : Canon s (tryPod cls r s).2 := by
  unfold tryPod
  dsimp only
  split
  · exact Canon.refl s
  · have htake := (memStep_takeRecalls (if podWrites s cls r then [{ peer := none, pa := podPa r / 64 * 64 }] else []) s).toCanon
    generalize takeRecalls (if podWrites s cls r then [{ peer := none, pa := podPa r / 64 * 64 }] else []) s = x at htake
    obtain ⟨b, s1⟩ := x
    cases b with
    | false => exact htake
    | true => exact Canon.trans htake (canon_performPod cls r s1)

theorem canonOut_servePod (f : UFrame) (src : Nat) (s : State) : CanonOut s (servePod f src s) := by
  unfold servePod
  split
  · exact canonOut_next (canon_logEntry s _ _ _)
  next r _ =>
    split
    · exact canonOut_next (canon_sendAnswer s _ _)
    · refine canonOut_ite (canonOut_next (canon_answer s _ _ _)) (canonOut_ite (canonOut_same s) ?_)
      have htry := canon_tryPod f.cls r s
      generalize tryPod f.cls r s = x at htry
      obtain ⟨b, s1⟩ := x
      cases b with
      | false => exact canonOut_next (Canon.trans htry (canon_of_eq rfl rfl rfl rfl))
      | true => exact canonOut_next htry

theorem canonOut_podFrame (cls : Nat) (f : UFrame) {go : Nat → State → Out} (h : ∀ src s, CanonOut s (go src s)) (s : State) :
    CanonOut s (podFrame cls f go s) :=
  canonOut_arriving f.origin.port f s _ (canonOut_ite (canonOut_podSession f.origin.port f _ h s) (canonOut_sessionFrame f.origin.port f s))

/-! Answers to this module's transfers. -/

theorem canon_dropXfer (s : State) (x : PodXfer) : Canon s (dropXfer s x) := canon_hub s _

theorem canon_landPart (s : State) (x : PodXfer) (bytes : List Byte) (bad : Bool) : Canon s (landPart s x bytes bad) := by
  unfold landPart
  split
  · exact Canon.refl s
  · split
    · exact Canon.refl s
    · have hstamp := (memStep_nextStamp s).toCanon
      exact (Canon.ite hstamp (hstamp.trans (canon_noteStamp _ _ _ _))).trans (canon_finishPart _ _ _ _)

theorem canon_landFill (s : State) (x : PodXfer) (bytes : List Byte) (bad : Bool) : Canon s (landFill s x bytes bad) := by
  have hplace := (memStep_placeLine s x.ident x.stamp bytes bad).toCanon
  unfold landFill
  dsimp only
  split
  · refine Canon.ite ?_ (Canon.refl s)
    split
    · exact (hplace.trans (memStep_nextStamp _).toCanon).trans (canon_noteStamp _ _ _ _)
    · exact hplace
  · exact Canon.refl s

theorem canon_landEngine (s : State) (x : PodXfer) (bytes : List Byte) (bad : Bool) : Canon s (landEngine s x bytes bad) :=
  Canon.foldl (fun s _ => canon_modArchOf s x.core _) _ s

theorem canon_landXfer (s : State) (x : PodXfer) (bytes : List Byte) (bad : Bool) : Canon s (landXfer s x bytes bad) := by
  have hfree : Canon s (if bad then freeBytes (dropXfer s x) 64 else (bytes, dropXfer s x)).2 := by
    split
    · exact canon_of_eq rfl rfl rfl rfl
    · exact canon_dropXfer s x
  unfold landXfer
  dsimp only
  generalize (if bad then freeBytes (dropXfer s x) 64 else (bytes, dropXfer s x)) = y at hfree
  have hlog : Canon s (if bad ∧ x.cls = 0x41 then logEntry y.2 3 x.peer x.pa else y.2) := Canon.ite (hfree.trans (canon_logEntry _ _ _ _)) hfree
  generalize (if bad = true ∧ x.cls = 0x41 then logEntry y.2 3 x.peer x.pa else y.2) = s2 at hlog
  split
  · exact hlog.trans (canon_landPart s2 x _ _)
  · exact hlog.trans (canon_landFill s2 x _ _)
  · exact hlog.trans (canon_landEngine s2 x _ _)
  · exact hlog.trans (canon_dropStore s2 _ _)
  · exact hlog.trans (canon_landEngine s2 x _ _)
  · exact hlog

theorem canonOut_takeAnswer (f : UFrame) (src : Nat) (s : State) : CanonOut s (takeAnswer f src s) := by
  unfold takeAnswer
  split
  · exact canonOut_same s
  next x _ =>
    split
    · exact canonOut_next (canon_landXfer s x _ _)
    · exact canonOut_next (canon_logEntry s _ _ _)

theorem canonOut_podTransferResend (xfer : Nat) (s : State) : CanonOut s (execPodTransferResend xfer s) := by
  unfold execPodTransferResend
  split
  · exact canonOut_same s
  next x _ =>
    exact canonOut_ite (canonOut_same s) (canonOut_ite (canonOut_next (canon_landXfer s x _ _))
      (canonOut_next ((canon_hub s _).trans (memStep_sendPod _ _ _ _ _).toCanon)))

/-! Pod collectives. -/

theorem canon_ackPcoll (s : State) (r : PColl) : Canon s (ackPcoll s r) := (memStep_sendPod s _ _ _ _).toCanon

theorem canon_setGroup (s : State) (n : Nat) (g : PodGroup) : Canon s (setGroup s n g) := canon_hub s _

theorem canon_applyPcoll (s : State) (g : PodGroup) (r : PColl) : Canon s (applyPcoll s g r) := by
  unfold applyPcoll
  split
  · exact (canon_setGroup s _ _).trans (canon_podAdvance _ _ _ _)
  · exact canon_podRelease s _ _ _
  · exact (canon_setGroup s _ _).trans (canon_podCollStep _ _ _ _)
  · exact (canon_setGroup s _ _).trans (Canon.foldl (fun s _ => canon_sendFrags s _ _) _ _)
  · exact Canon.refl s

theorem canonOut_takePcoll (x : CollFrame) (src : Nat) (s : State) : CanonOut s (takePcoll x src s) := by
  unfold takePcoll
  split
  · exact canonOut_next (canon_logEntry s _ _ _)
  next r _ =>
    refine canonOut_ite (canonOut_next (canon_hub s _)) ?_
    split
    · exact canonOut_next (canon_logEntry s _ _ _)
    next g _ =>
      exact canonOut_ite (canonOut_next (canon_logEntry s _ _ _)) (canonOut_ite (canonOut_next (canon_ackPcoll s r))
        (canonOut_next (((canon_hub s _).trans (canon_ackPcoll _ r)).trans (canon_applyPcoll _ g r))))

/-! The send ring. -/

theorem canon_sendState (s : State) (ctx n v : Nat) : Canon s (sendState s ctx n v) := canon_hubWrite s ctx _ _

theorem canon_sendFails (s : State) (ctx n : Nat) : Canon s (sendFails s ctx n) := (canon_hubWrite s ctx _ _).trans (canon_sendState _ ctx n _)

theorem canon_sendHeader (s : State) (ctx n : Nat) : Canon s (sendHeader s ctx n).2 := canon_hubFetch s ctx _ _

theorem canon_sendInvoke (s : State) (ctx n : Nat) (e : List Byte) : Canon s (sendInvoke s ctx n e) := by
  have hbody := canon_hubFetch s ctx (sendVa (getBlock s ctx) n + 64) (bodyField e 0x18 4)
  unfold sendInvoke
  dsimp only
  generalize hubFetch s ctx (sendVa (getBlock s ctx) n + 64) (bodyField e 0x18 4) = x at hbody
  split
  · exact hbody.trans (memStep_emit _ _).toCanon
  next a p _ =>
    have hseq := (memStep_takeSeq x.2 (bodyField e 4 2)).toCanon
    generalize takeSeq x.2 (bodyField e 4 2) = y at hseq
    obtain ⟨q, s1⟩ := y
    have hboth : Canon s s1 := hbody.trans hseq
    cases q with
    | none => exact hboth.trans (memStep_emit s1 _).toCanon
    | some q => exact hboth.trans (memStep_sendFrame s1 _ _ _ _ _ _ _ _ _ _).toCanon

theorem canon_takeEntry (s : State) (ctx n : Nat) : Canon s (takeEntry s ctx n) := by
  have hheader := canon_sendHeader s ctx n
  unfold takeEntry
  dsimp only
  generalize sendHeader s ctx n = x at hheader
  refine Canon.trans ?_ (canon_hubWrite _ ctx _ _)
  refine Canon.ite ?_ (hheader.trans (canon_sendFails _ ctx n))
  exact ((hheader.trans (canon_sendInvoke _ ctx n _)).trans (canon_sendState _ ctx n _)).trans (canon_hub _ _)

theorem canon_keepGrants (l : List Loc) (s : State) : Canon s (l.foldl keepGrant s) :=
  Canon.foldl (fun s l => (tokenStep_keepGrant s l).memStep.toCanon) l s

theorem canon_takeSendTokens (s : State) (ctx n : Nat) : Canon s (takeSendTokens s ctx n).2 := by
  have htake := (memStep_takeRecalls (entryWrites s ctx n) s).toCanon
  unfold takeSendTokens
  generalize takeRecalls (entryWrites s ctx n) s = x at htake
  obtain ⟨b, s1⟩ := x
  cases b with
  | false => exact htake
  | true =>
    have htokens := (memStep_takeTokensOf s1 (sendDie s1 ctx) (blkTenant (getBlock s1 ctx)) (sendIdent ctx) (sendIdent ctx)
      (sendLines s1 ctx n)).toCanon
    dsimp only
    generalize takeTokensOf s1 (sendDie s1 ctx) (blkTenant (getBlock s1 ctx)) (sendIdent ctx) (sendIdent ctx) (sendLines s1 ctx n) = y
      at htokens
    obtain ⟨b, s2⟩ := y
    have hboth : Canon s s2 := Canon.trans htake htokens
    cases b with
    | false => exact hboth.trans (canon_keepGrants _ s2)
    | true => exact hboth

theorem canon_takeEntries (ctx : Nat) (l : List Nat) (s : State) : Canon s (takeEntries ctx l s) := by
  induction l generalizing s with
  | nil => exact canon_hub s _
  | cons k l ih =>
    have htake := canon_takeSendTokens s ctx (k % 2 ^ 32)
    refine Canon.ite (Canon.refl s) ?_
    generalize takeSendTokens s ctx (k % 2 ^ 32) = x at htake
    obtain ⟨b, s1⟩ := x
    cases b with
    | false => exact htake
    | true => exact (Canon.trans htake (canon_takeEntry s1 ctx _)).trans (ih _)

theorem canonOut_sendRingDoorbell (ctx : Nat) (s : State) : CanonOut s (execSendRingDoorbell ctx s) := by
  have hfetch := canon_hubFetch s ctx (blkSendq (getBlock s ctx)) 8
  unfold execSendRingDoorbell
  dsimp only
  generalize hubFetch s ctx (blkSendq (getBlock s ctx)) 8 = x at hfetch
  have htaken (l : List Nat) : Canon s (takeEntries ctx l x.2) := hfetch.trans (canon_takeEntries ctx l x.2)
  exact canonOut_ite (canonOut_same s) (canonOut_ite (canonOut_next (htaken _)) (canonOut_ite
    (canonOut_next ((htaken _).trans (canon_contain _ _ _ _ _))) (canonOut_next (htaken _))))

theorem canon_writeOutcome (s : State) (ctx n : Nat) (reply : Option (Nat × List Byte)) : Canon s (writeOutcome s ctx n reply) := by
  unfold writeOutcome
  split
  · exact canon_sendFails s ctx n
  · exact (((canon_hubWrite s ctx _ _).trans (canon_hubWrite _ ctx _ _)).trans (canon_hubWrite _ ctx _ _)).trans (canon_sendState _ ctx n _)

theorem canon_tryOutcome (s : State) (ctx n : Nat) (reply : Option (Nat × List Byte)) : Canon s (tryOutcome s ctx n reply).2 := by
  unfold tryOutcome
  dsimp only
  split
  · exact Canon.refl s
  · have hrecalls := (homeStep_hubRecalls s ctx (sendVa (getBlock s ctx) n) (outcomeBytes reply)).toCanon
    generalize hubRecalls s ctx (sendVa (getBlock s ctx) n) (outcomeBytes reply) = x at hrecalls
    obtain ⟨b, s1⟩ := x
    cases b with
    | false => exact hrecalls
    | true =>
      have htokens (t a i k : Nat) : Canon s (takeTokensOf s1 a t i i k).2 := Canon.trans hrecalls (memStep_takeTokensOf s1 a t i i k).toCanon
      dsimp only
      specialize htokens (blkTenant (getBlock s1 ctx)) (sendDie s1 ctx) (2 ^ 65 + 256 * ctx + n % 256) (ceilDiv (outcomeBytes reply) 64)
      generalize takeTokensOf s1 (sendDie s1 ctx) (blkTenant (getBlock s1 ctx)) (2 ^ 65 + 256 * ctx + n % 256)
        (2 ^ 65 + 256 * ctx + n % 256) (ceilDiv (outcomeBytes reply) 64) = y at htokens
      obtain ⟨b, s2⟩ := y
      cases b with
      | false => exact Canon.trans htokens (canon_keepGrants _ s2)
      | true => exact Canon.trans htokens (canon_writeOutcome s2 ctx n reply)

theorem canon_giveOutcome (s : State) (x : SentInvoke) (reply : Option (Nat × List Byte)) : Canon s (giveOutcome s x reply) := by
  have htry := (canon_hub s { s.hub with sends := s.hub.sends.erase x }).trans (canon_tryOutcome _ x.ctx x.entry reply)
  unfold giveOutcome
  generalize tryOutcome { s with hub := { s.hub with sends := s.hub.sends.erase x } } x.ctx x.entry reply = y at htry
  obtain ⟨b, s1⟩ := y
  cases b with
  | false => exact Canon.trans htry (canon_of_eq rfl rfl rfl rfl)
  | true => exact htry

theorem canonOut_sendTimeout (session rid : Nat) (s : State) : CanonOut s (execSendTimeout session rid s) := by
  unfold execSendTimeout
  split
  · exact canonOut_same s
  next x _ => exact canonOut_next (canon_giveOutcome s x none)

theorem canonOut_replyFrame (f : UFrame) (x : Session) (s : State) : CanonOut s (replyFrame f x s) := by
  unfold replyFrame
  refine canonOut_ite (canonOut_next (canon_dropFrame s _)) ?_
  dsimp only
  split
  · exact canonOut_next ((canon_setSession s _ _).trans (canon_contain _ _ _ _ _))
  · exact canonOut_next (canon_setSession s _ _)
  · exact canonOut_next ((canon_setSession s _ _).trans (canon_giveOutcome _ _ _))

theorem canonOut_sentInvokeReply (f : UFrame) (s : State) : CanonOut s (execSentInvokeReply f s) := by
  unfold execSentInvokeReply
  dsimp only
  refine canonOut_arriving f.origin.port f s _ ?_
  refine canonOut_ite (canonOut_podSession f.origin.port f _ (fun _ s => canonOut_same s) s) ?_
  split
  · exact canonOut_next (canon_dropFrame s _)
  next x _ => exact canonOut_ite (canonOut_replyFrame f x s) (canonOut_sessionFrame f.origin.port f s)

/-! Links. -/

theorem canonOut_linkLoss (port : Nat) (s : State) : CanonOut s (execLinkLoss port s) := canonOut_next (canon_edge s _)

theorem canon_sendHeld (s : State) (h : HeldReply) : Canon s (sendHeld s h) := by
  unfold sendHeld
  split
  · exact (memStep_sendFrame s _ _ _ _ _ _ _ _ _ _).toCanon
  · exact (memStep_emit s _).toCanon

theorem canonOut_linkUp (port : Nat) (s : State) : CanonOut s (execLinkUp port s) :=
  canonOut_next ((canon_edge s _).trans (Canon.foldl canon_sendHeld _ _))

end Sys2Proof.Proofs
end

section
/-! PROOF. Frames, keys, the host link, resets and boot keep the canonical forms (R14, R213 to R219, R267, R280, R318, R319, R327 to R334,
R339, R349, R350, R354 to R356). -/

namespace Sys2Proof.Proofs

open Sys2Proof.Machine Sys2Proof.Claims Sys2Proof.Laws

/-! Frames. -/

theorem canon_revokeLater (s : State) (space : Nat) (r : PageRange) : Canon s (revokeLater s space r) := canon_edge s _

theorem canon_revokeNow (s : State) (space : Nat) (r : PageRange) : Canon s (revokeNow s space r) := canon_of_eq rfl rfl rfl rfl

theorem canon_applyRevocations (s : State) : Canon s (applyRevocations s) := by
  have hnow := canon_revokeNow
  unfold applyRevocations
  generalize revokeNow = f at hnow
  refine Canon.trans (canon_edge s _) (Canon.foldl (fun s e => ?_) _ _)
  exact hnow s e.1 e.2

theorem canon_putFrame (s : State) (f : Nat) (x : Frame) : Canon s (putFrame s f x) := canon_of_eq rfl rfl rfl rfl

theorem canon_scrubFrame (s : State) (f : Nat) : Canon s (scrubFrame s f) := (ringsStep_scrubFrame s f).toCanon

theorem canonOut_recalling (s : State) (sweep : Bool) (frames : List Nat) (go : State → State) (h : ∀ s, Canon s (go s)) :
    CanonOut s (recalling s sweep frames go) := by
  refine canonOut_ite (canonOut_same s) ?_
  have htake := (memStep_takeRecalls ((frameChunks s frames).map (·.2)) s).toCanon
  generalize takeRecalls ((frameChunks s frames).map (·.2)) s = x at htake
  obtain ⟨b, s1⟩ := x
  cases b with
  | false => exact canonOut_next htake
  | true => exact canonOut_next ((Canon.trans htake (homeStep_recallFrames s1 frames).toCanon).trans (h _))

theorem alWf_foldl_alSet {α : Type} [DecidableEq α] (d : α) (f : Nat) (x : List (Nat × α)) {m : List (Nat × α)} (h : alWf d m = true) :
    alWf d (x.foldl (fun m e => alSet d m (f + e.1) e.2) m) = true := by
  induction x generalizing m with
  | nil => exact h
  | cons e x ih => exact ih (alWf_alSet d h _ _)

theorem canon_lines (s : State) {v : List (Nat × Nat)} {b : List (Nat × Bool)} (hv : alWf 0 s.lineVer = true → alWf 0 v = true)
    (hb : alWf false s.bad = true → alWf false b = true) : Canon s { s with lineVer := v, bad := b } := canon_of_lines rfl rfl hv hb

theorem canon_farBytes (s : State) {m : Memory} (h : memWf s.far = true → memWf m = true) : Canon s { s with far := m } :=
  canon_of_far rfl h rfl rfl

theorem canon_fillFrame (s : State) (f : Nat) (x : Evicted) : Canon s (Machine.fillFrame s f x) := by
  refine Canon.trans (canon_farBytes s (m := x.bytes.foldl (fun m e => memWrite m (2097152 * f + e.1) e.2) s.far) fun h => ?_)
    (canon_lines _ (alWf_foldl_alSet 0 (32768 * f) x.vers) (alWf_foldl_alSet false (32768 * f) x.bad))
  exact memWf_foldl _ (fun _ e hm => memWf_memWrite hm _ e.2) h x.bytes

theorem canon_evictFrame (s : State) (f : Nat) : Canon s (evictFrame s f) := by
  unfold evictFrame
  split
  · exact Canon.refl s
  · refine Canon.trans ?_ (canon_scrubFrame _ f)
    split
    · exact Canon.ite (canon_edge s _) (Canon.refl s)
    · exact Canon.refl s

theorem canon_bringIn (s : State) (ctx vpage frame : Nat) : Canon s (bringIn s ctx vpage frame) :=
  ((memStep_countSeals s _ _).toCanon.trans (canon_fillFrame _ frame _)).trans (canon_putFrame _ frame _)

theorem canonOut_ladlePageFill (ctx vpage frame : Nat) (s : State) : CanonOut s (execLadlePageFill ctx vpage frame s) :=
  canonOut_ite (canonOut_recalling s _ _ _ fun s => (canon_evictFrame s frame).trans (canon_bringIn _ ctx vpage frame)) (canonOut_same s)

theorem canon_xlat (s : State) (l : List (Nat × BitVec 64)) : Canon s { s with xlat := l } := canon_of_eq rfl rfl rfl rfl

theorem canonOut_promotionComplete (frame : Nat) (s : State) : CanonOut s (execPromotionComplete frame s) := by
  unfold execPromotionComplete
  split
  · exact canonOut_same s
  next x _ =>
    split
    · have hplace : ∀ (y : Frame) (l : List (Nat × BitVec 64)) (ctx : Nat),
          CanonOut s (.next (flushEntries { putFrame s frame y with xlat := l } ctx)) := fun y l ctx =>
        canonOut_next (((canon_putFrame s frame y).trans (canon_xlat _ l)).trans (canon_flushEntries _ ctx))
      exact canonOut_ite (hplace _ _ _) (canonOut_ite (canonOut_next (canon_scrubFrame s frame)) (hplace _ _ _))
    · exact canonOut_same s

theorem canonOut_atsInvalidateRequest (ctx : Nat) (r : PageRange) (s : State) : CanonOut s (execAtsInvalidateRequest ctx r s) :=
  canonOut_next ((canon_revokeLater s ctx r).trans (canon_edge _ _))

theorem canonOut_invalidateCompletion (ctx : Nat) (r : PageRange) (s : State) : CanonOut s (execInvalidateCompletion ctx r s) := by
  unfold execInvalidateCompletion
  split
  · exact canonOut_same s
  next x _ =>
    refine canonOut_ite (canonOut_same s) (canonOut_recalling s _ _ _ fun s => ?_)
    exact ((canon_edge s _).trans (canon_xlat _ _)).trans (memStep_emit _ _).toCanon

theorem canonOut_atsTranslationCompletion (ctx vpage : Nat) (leaf : BitVec 64) (s : State) :
    CanonOut s (execAtsTranslationCompletion ctx vpage leaf s) := by
  unfold execAtsTranslationCompletion
  refine canonOut_ite (canonOut_next (Canon.trans ?_ (canon_flushEntries _ ctx))) ?_
  · exact canon_of_eq rfl rfl rfl rfl
  · split
    · exact canonOut_next (Canon.ite (canon_endGangAll s _ _) (Canon.refl s))
    · exact canonOut_same s

theorem canon_moveFrame (s : State) (f n : Nat) (x : Frame) : Canon s (moveFrame s f n x) := by
  unfold moveFrame
  dsimp only
  refine Canon.trans ?_ (canon_scrubFrame _ f)
  refine Canon.trans (t := putFrame (Machine.fillFrame (countSeals s x.world 32768) n (frameContents (countSeals s x.world 32768) f)) n x) ?_ ?_
  · exact ((memStep_countSeals s _ _).toCanon.trans (canon_fillFrame _ n _)).trans (canon_putFrame _ n x)
  · exact canon_of_eq rfl rfl rfl rfl

theorem canonOut_frameMigration (frame newFrame : Nat) (s : State) : CanonOut s (execFrameMigration frame newFrame s) := by
  unfold execFrameMigration
  split
  · exact canonOut_same s
  next x _ =>
    refine canonOut_ite ?_ (canonOut_ite ?_ (canonOut_same s))
    · exact canonOut_ite (canonOut_same s) (canonOut_recalling s _ _ _ fun s => (canon_edge s _).trans (canon_moveFrame _ frame newFrame x))
    · split
      · exact canonOut_recalling s _ _ _ fun s => (canon_revokeLater s _ _).trans (canon_edge _ _)
      · exact canonOut_same s

/-! Keys and the burnisher. -/

theorem canon_putKey (s : State) (k : Nat) (x : KeySlot) : Canon s (putKey s k x) := canon_hub s _

theorem canon_flipKey (s : State) (k : Nat) (x : KeySlot) (root : BitVec 256) : Canon s (flipKey s k x root) :=
  (canon_putKey s k _).trans (canon_hub _ _)

theorem canon_settleBuffers (s : State) (world : Nat) (gen : Bool) : Canon s (settleBuffers s world gen) := canon_hub s _

theorem canon_sweepVersions (s : State) (f : Nat) (x : Frame) : Canon s { s with lineVer := sweepVersions s f x } := by
  refine canon_of_lines rfl rfl (fun h => ?_) id
  unfold sweepVersions
  dsimp only
  split
  · exact h
  · exact alWf_filter 0 h _

theorem canon_sweepFrame (s : State) (k f : Nat) (x : Frame) (gen : Bool) : Canon s (sweepFrame s k f x gen) := by
  have hrevoked : Canon s (match x.page with
      | some (space, vp) => revokeLater s space { vpage := vp, pages := 1, rw := false }
      | none => s) := by
    split
    · exact canon_revokeLater s _ _
    · exact Canon.refl s
  unfold sweepFrame
  dsimp only
  refine Canon.trans ?_ (canon_settleBuffers _ _ _)
  have hswept := (hrevoked.trans (canon_sweepVersions _ f x)).trans (canon_putFrame _ f { x with gen := gen })
  split
  · exact hswept.trans (canon_putKey _ k _)
  · exact hswept

theorem canon_finishRekey (s : State) (k : Nat) (x : KeySlot) : Canon s (finishRekey s k x) :=
  (canon_putKey s k _).trans (canon_settleBuffers _ _ _)

theorem canonOut_rekey (slot : Nat) (root : BitVec 256) (s : State) : CanonOut s (execRekey slot root s) := by
  unfold execRekey
  split
  · exact canonOut_same s
  next x _ =>
    refine canonOut_ite (canonOut_next (canon_flipKey s slot x root)) (canonOut_ite (canonOut_same s) ?_)
    split
    · exact canonOut_ite (canonOut_recalling s _ _ _ fun s => canon_sweepFrame s slot _ _ _) (canonOut_same s)
    · exact canonOut_ite (canonOut_same s) (canonOut_next (canon_finishRekey s slot x))

theorem canonOut_forcedKeyFlip (slot : Nat) (root : BitVec 256) (s : State) : CanonOut s (execForcedKeyFlip slot root s) := by
  unfold execForcedKeyFlip
  split
  · exact canonOut_next (Canon.ite (canon_flipKey s slot _ root) (Canon.refl s))
  · exact canonOut_same s

theorem canon_freeBytes (s : State) (n : Nat) : Canon s (freeBytes s n).2 := canon_of_eq rfl rfl rfl rfl

theorem canon_markDamaged (v : KvEnv) (s : State) (page : Nat) : Canon s (markDamaged v s page) := by
  have hstamp := (memStep_nextStamp s).toCanon
  unfold markDamaged
  dsimp only
  refine Canon.ite ?_ (hstamp.trans (memStep_writeLine _ _ _ _ _).toCanon)
  exact (hstamp.trans (canon_freeBytes _ 12)).trans (memStep_writeLine _ _ _ _ _).toCanon

theorem canonOut_burnisherCheck (pool page : Nat) (s : State) : CanonOut s (execBurnisherCheck pool page s) := by
  unfold execBurnisherCheck
  split
  · exact canonOut_same s
  next v _ =>
    exact canonOut_ite (canonOut_same s) (canonOut_ite (canonOut_ite (canonOut_same s)
      (canonOut_next ((canon_markDamaged v s page).trans (canon_logEntry _ _ _ _)))) (canonOut_same s))

/-! The host link. -/

theorem canonOut_hostDo (s : State) (fn : Nat) (ok : Bool) {t : State} (h : Canon s t) : CanonOut s (hostDo s fn ok t) :=
  canonOut_next (Canon.ite h (memStep_emit s _).toCanon)

theorem canon_dropStaged (s : State) (ctx : Nat) : Canon s (dropStaged s ctx) := canon_hub s _

theorem canon_freedBlock (s : State) (ctx : Nat) : Canon s (freedBlock s ctx) :=
  Canon.ite (((canon_dropBinding s ctx).trans (canon_dropStaged _ ctx)).trans (canon_hub _ _)) (Canon.refl s)

theorem canon_dropSpace (s : State) (ctx : Nat) : Canon s (dropSpace s ctx) := by
  unfold dropSpace
  dsimp only
  refine Canon.trans ?_ (canon_dropStaged _ ctx)
  have hscrubbed (l : List (Nat × Frame)) : Canon s (l.foldl (fun s e => scrubFrame s e.1) s) :=
    Canon.foldl (f := fun (s : State) (e : Nat × Frame) => scrubFrame s e.1) (fun s e => canon_scrubFrame s e.1) l s
  exact (hscrubbed _).trans (canon_of_eq rfl rfl rfl rfl)

theorem canon_putBlock (s : State) (ctx : Nat) (b : BitVec 2048) : Canon s (putBlock s ctx b) :=
  ((Canon.ite (Canon.refl s) (canon_dropSpace s ctx)).trans (canon_setBlock _ ctx b)).trans (canon_freedBlock _ ctx)

theorem canon_storeSegment (s : State) (x : Submission) : Canon s (storeSegment s x) := by
  unfold storeSegment
  dsimp only
  split
  · exact (canon_hub s _).trans (memStep_emit _ _).toCanon
  · exact (canon_hub s _).trans (memStep_emit _ _).toCanon

theorem canon_releaseSegment (s : State) (world n : Nat) : Canon s (releaseSegment s world n) := by
  unfold releaseSegment
  split
  · exact Canon.refl s
  · exact Canon.ite (canon_hub s _) (canon_hub s _)

theorem canon_renewKey (s : State) : Canon s (renewKey s) := Canon.ite (canon_edge s _) (Canon.refl s)

theorem canonOut_assayRequest (fn world segment : Nat) (nonce : BitVec 256) (s : State) :
    CanonOut s (execAssayRequest fn world segment nonce s) :=
  canonOut_ite (canonOut_next (((canon_renewKey s).trans (canon_edge _ _)).trans (memStep_emit _ _).toCanon))
    (canonOut_next (memStep_emit s _).toCanon)

theorem canon_setTdi (s : State) (fn : Nat) (x : TdiState) : Canon s (setTdi s fn x) := canon_hub s _

theorem canon_tdispRequest (s : State) (fn : Nat) (allowed : TdiState → Bool) (x : TdiState) : Canon s (tdispRequest s fn allowed x) :=
  Canon.ite ((canon_setTdi s fn x).trans (memStep_emit _ _).toCanon) (memStep_emit s _).toCanon

theorem canon_markScrub (s : State) (t : Nat) : Canon s (markScrub s t) := by
  unfold markScrub
  refine Canon.trans ?_ (ringsStep_scrubMarked _).toCanon
  exact canon_of_eq rfl rfl rfl rfl

theorem canon_interfaceError (s : State) (fn : Nat) : Canon s (interfaceError s fn) :=
  (((canon_setTdi s fn _).trans (canon_contain _ _ _ _ _)).trans (canon_hub _ _)).trans (canon_markScrub _ fn)

theorem canonOut_forceInterfaceError (fn : Nat) (s : State) : CanonOut s (execForceInterfaceError fn s) :=
  canonOut_ite (canonOut_next (canon_interfaceError s fn)) (canonOut_next (memStep_emit s _).toCanon)

theorem canon_flrVirtual (s : State) (fn : Nat) : Canon s (flrVirtual s fn) := by
  have hgangs : Canon s ((tenantBlocks s fn).foldl (fun s c => match getGang s c with | some g => endGangAll s g cContain | none => s) s) := by
    refine Canon.foldl (fun s c => ?_) _ s
    split
    · exact canon_endGangAll s _ _
    · exact Canon.refl s
  have hblocks := hgangs.trans (Canon.foldl (f := fun (s : State) (c : Nat) => setState (dropBinding s c) c stHalted)
    (fun s c => (canon_dropBinding s c).trans (canon_setState _ c _)) (tenantBlocks s fn) _)
  exact Canon.ite (hblocks.trans (canon_interfaceError _ fn)) hblocks

theorem canon_unhaltBlock (s : State) (ctx : Nat) (free : Bool) : Canon s (unhaltBlock s ctx free) :=
  ((canon_dropQueued s ctx).trans (canon_setBlock _ ctx _)).trans (canon_freedBlock _ ctx)

theorem canon_ideLost (s : State) (fn : Nat) : Canon s (ideLost s fn) :=
  Canon.ite ((canon_edge s _).trans (canon_interfaceError _ fn)) (canon_edge s _)

theorem canon_modDie (s : State) (n : Nat) (f : Die → Die) : Canon s (modDie s n f) := (memStep_modDie s n f).toCanon

theorem canon_hubEdge (s : State) (h : Hub) (e : Edge) : Canon s { s with hub := h, edge := e } := canon_of_eq rfl rfl rfl rfl

theorem canon_applyHostWrite (s : State) (fn : Nat) (w : HostWrite) : Canon s (applyHostWrite s fn w) := by
  cases w with
  | identity | portMac | stackHomed | mailbox => exact canon_edge s _
  | guarantee | address | buffer | domain | exported | modelKey => exact canon_hub s _
  | podKey | pool => exact canon_hubEdge s _ _
  | grant d | share d =>
    unfold applyHostWrite
    exact canon_modDie s d _
  | keySlot => exact canon_putKey s _ _
  | unhalt ctx free => exact canon_unhaltBlock s ctx free
  | peerPage ctx => exact (canon_xlat s _).trans (canon_flushEntries _ ctx)
  | release world n => exact canon_releaseSegment s world n
  | ideStream => exact Canon.ite (canon_ideLost s fn) (canon_edge s _)
  | ideFailure => exact canon_ideLost s fn

theorem canon_dmaRead (l : List (Nat × Nat × Nat)) (s : State) : Canon s (dmaRead s l).2 := by
  induction l generalizing s with
  | nil => exact Canon.refl s
  | cons p l ih => exact ((homeStep_hubLine s _).toCanon.trans (memStep_nextStamp _).toCanon).trans (ih _)

theorem canon_dmaWrite (l : List (Nat × Nat × Nat)) (bs : List Byte) (s : State) : Canon s (dmaWrite s l bs) := by
  induction l generalizing s bs with
  | nil => exact Canon.refl s
  | cons p l ih => exact ((memStep_nextStamp s).toCanon.trans (memStep_writeLine _ _ _ _ _).toCanon).trans (ih _ _)

theorem canon_tryDma (write : Bool) (pa : Nat) (bytes : List Byte) (s : State) : Canon s (tryDma write pa bytes s).2 := by
  unfold tryDma
  dsimp only
  split
  · exact Canon.refl s
  · split
    · have htake := (memStep_takeRecalls (dmaLines (pieces pa bytes.length)) s).toCanon
      generalize takeRecalls (dmaLines (pieces pa bytes.length)) s = x at htake
      obtain ⟨b, s1⟩ := x
      cases b with
      | false => exact htake
      | true => exact Canon.trans htake (canon_dmaWrite _ _ s1)
    · exact (canon_dmaRead _ s).trans (memStep_emit _ _).toCanon

theorem canonOut_hostDma (write : Bool) (pa : Nat) (bytes : List Byte) (s : State) : CanonOut s (execHostDma write pa bytes s) := by
  have htry := canon_tryDma write pa bytes s
  refine canonOut_ite (canonOut_next (memStep_emit s _).toCanon) ?_
  generalize tryDma write pa bytes s = x at htry
  obtain ⟨b, s1⟩ := x
  cases b with
  | false => exact canonOut_next (Canon.trans htry (canon_of_eq rfl rfl rfl rfl))
  | true => exact canonOut_next htry

theorem canon_tryDelayed (s : State) (d : Delayed) : Canon s (tryDelayed s d).2 := by
  cases d with
  | pod cls r => exact canon_tryPod cls r s
  | dma write pa bytes => exact canon_tryDma write pa bytes s
  | sent ctx n reply => exact canon_tryOutcome s ctx n reply

theorem canon_retryWaiting (s : State) : Canon s (retryWaiting s) := by
  refine Canon.trans ?_ (Canon.foldl canon_flushEntries _ _)
  refine Canon.trans (t := { s with waiting := [] }) (canon_of_eq rfl rfl rfl rfl) (Canon.foldl (fun s d => ?_) _ _)
  have htry := canon_tryDelayed s d
  generalize tryDelayed s d = x at htry
  obtain ⟨b, s1⟩ := x
  cases b with
  | false => exact Canon.trans htry (canon_of_eq rfl rfl rfl rfl)
  | true => exact htry

/-! Resets and boot. -/

theorem canon_certify (s : State) : Canon s (certify s) := Canon.ite (canon_edge s _) (Canon.refl s)

theorem canon_comeUp (s : State) : Canon s (comeUp s) := Canon.ite ((canon_edge s _).trans (canon_certify _)) (Canon.refl s)

theorem canonOut_boot (r : BootReport) (s : State) : CanonOut s (execBoot r s) := by
  refine canonOut_ite (canonOut_same s) (canonOut_ite (canonOut_next (canon_edge s _)) (canonOut_next ?_))
  refine Canon.trans ?_ (canon_comeUp _)
  refine Canon.trans ?_ (canon_edge _ _)
  exact Canon.foldl (fun s d => (memStep_modDie s d _).toCanon) _ s

theorem canonOut_perstNRising (s : State) : CanonOut s (execPerstNRising s) := canonOut_next ((canon_edge s _).trans (canon_comeUp _))

/-- A state that has lost its stash and its lists of lines and kept some bytes of far memory. -/
theorem canon_of_lost {s t : State} {p : Host.Cell → Bool} (hstash : t.stash = []) (hfar : t.far = s.far.filter p) (hver : t.lineVer = [])
    (hbad : t.bad = []) : Canon s t where
  memories h := by
    have hs : memWf s.far = true := (Bool.and_eq_true_iff.1 h).2
    have hkept : memWf (s.far.filter p) = true := memWf_filter hs p
    simp only [memoriesOk, hstash, hfar, hkept, Bool.and_true]
    rfl
  lines _ := by
    simp only [linesOk, hver, hbad]
    rfl

theorem canon_endWorlds (s : State) : Canon s (endWorlds s) := by
  unfold endWorlds
  dsimp only
  refine Canon.trans ?_ (canon_comeUp _)
  refine Canon.trans (Canon.foldl (fun s g => (windowStep_remapAll s g).toCanon) (s.hub.gangs.map (·.2)) s) ?_
  exact canon_of_lost rfl rfl rfl rfl

theorem canonOut_perst (s : State) : CanonOut s (execPerst s) := canonOut_next ((canon_edge s _).trans (canon_endWorlds _))

theorem canonOut_flrVirtualFunction (fn : Nat) (s : State) : CanonOut s (execFlrVirtualFunction fn s) :=
  canonOut_ite (canonOut_same s) (canonOut_ite (canonOut_next (canon_endWorlds s)) (canonOut_next (canon_flrVirtual s fn)))

theorem canon_powerLoss (s : State) : Canon s (powerLoss s) := canon_of_lost rfl rfl rfl rfl

theorem canonOut_thermalTrip (s : State) : CanonOut s (execThermalTrip s) := canonOut_next ((canon_powerLoss s).trans (canon_edge _ _))

theorem canonOut_ucieLinkFailure (die : Nat) (s : State) : CanonOut s (execUcieLinkFailure die s) :=
  canonOut_next ((canon_logEntry s _ _ _).trans (memStep_modDie _ die _).toCanon)

theorem canonOut_telemetryAlertRead (s : State) : CanonOut s (execTelemetryAlertRead s) :=
  canonOut_next ((memStep_emit s _).toCanon.trans (canon_edge _ _))

end Sys2Proof.Proofs
end

section
/-! PROOF. Every instruction, every bundle, every period and every step keeps the canonical forms (R28 to R37, R45 to R57). -/

namespace Sys2Proof.Proofs

open Sys2Proof.Machine Sys2Proof.Claims Sys2Proof.Laws

/-! Every instruction and event. -/

theorem canonOut_event {i : Instr} (h : encFields i = .none) (s : State) : CanonOut s (exec i s) := by
  cases i with
  | checkpoint c => exact canonOut_checkpoint c s
  | anvilOperationStart c => exact canonOut_next (taskStep_anvilRun c 9 s).toCanon
  | engineCommandStart c q => exact canonOut_engineCommandStart c q s
  | engineCommandCompletion c q => exact canonOut_engineCommandCompletion c q s
  | engineCompletionEvent c => exact canonOut_engineCompletionEvent c s
  | resultDelivery c => exact canonOut_resultDelivery c s
  | farLoadPerform c ident => exact canonOut_farLoadPerform c ident s
  | farStorePerform c ident => exact canonOut_farStorePerform c ident s
  | forcedCommit c => exact canonOut_forcedCommit c s
  | tcolAdvance c => exact canonOut_tcolAdvance c s
  | barrierRelease x => exact canonOut_barrierRelease x s
  | freezeWatchdogExpiry c => exact canonOut_freezeWatchdog c s
  | waitWatchdogExpiry c => exact canonOut_waitWatchdog c s
  | preemptionStop c => exact canonOut_preemptionStop c s
  | preemptionTimeout c => exact canonOut_preemptionTimeout c s
  | gangResume r => exact canonOut_gangResume r s
  | gangCompletion ctx => exact canonOut_gangCompletion ctx s
  | placement ctx => exact canonOut_placement ctx s
  | launchStart r => exact canonOut_launchStart r s
  | reply ctx => exact canonOut_reply ctx s
  | replyHoldExpiry port => exact canonOut_replyHoldExpiry port s
  | podTransferResend xfer => exact canonOut_podTransferResend xfer s
  | sendRingDoorbell ctx => exact canonOut_sendRingDoorbell ctx s
  | sendTimeout session rid => exact canonOut_sendTimeout session rid s
  | invalidateCompletion ctx r => exact canonOut_invalidateCompletion ctx r s
  | promotionComplete frame => exact canonOut_promotionComplete frame s
  | forcedKeyFlip slot root => exact canonOut_forcedKeyFlip slot root s
  | droopRecovery die => exact canonOut_droopRecovery die s
  | bucketWindowStart die => exact canonOut_bucketWindowStart die s
  | requestAgeing ctx => exact canonOut_requestAgeing ctx s
  | quadPowerGate quad => exact canonOut_quadPowerGate quad s
  | invoke port f => exact canonOut_invoke port f s
  | managementFrame port bytes => exact canonOut_managementFrame port bytes s
  | pload r => exact canonOut_podFrame 0x40 r (canonOut_servePod r) s
  | pstore r => exact canonOut_podFrame 0x41 r (canonOut_servePod r) s
  | patom r => exact canonOut_podFrame 0x42 r (canonOut_servePod r) s
  | preply r => exact canonOut_podFrame 0x43 r (canonOut_takeAnswer r) s
  | pcoll r => exact canonOut_podFrame 0x50 r.frame (canonOut_takePcoll r) s
  | sentInvokeReply f => exact canonOut_sentInvokeReply f s
  | microContextWrite fn ide ctx off len val => exact canonOut_hostDo s fn _ (canon_putBlock s ctx _)
  | podGroupWrite group members channels => exact canonOut_hostDo s 0 _ (Canon.ite (canon_hub s _) (canon_setGroup s group _))
  | sessionInstall fn ide session world role key => exact canonOut_hostDo s fn _ (Canon.ite (canon_hub s _) (canon_setSession s session _))
  | segmentSubmission fn sub => exact canonOut_hostDo s fn _ (canon_storeSegment s sub)
  | assayRequest fn world segment nonce => exact canonOut_assayRequest fn world segment nonce s
  | lockInterface fn | startInterface fn | stopInterface fn => exact canonOut_next (canon_tdispRequest s fn _ _)
  | forceInterfaceError fn => exact canonOut_forceInterfaceError fn s
  | hostRegisterWrite fn ide w => exact canonOut_hostDo s fn _ (canon_applyHostWrite s fn w)
  | atsInvalidateRequest ctx r => exact canonOut_atsInvalidateRequest ctx r s
  | frameMigration frame newFrame => exact canonOut_frameMigration frame newFrame s
  | ladlePageFill ctx vpage frame => exact canonOut_ladlePageFill ctx vpage frame s
  | rekey slot root => exact canonOut_rekey slot root s
  | burnisherCheck pool page => exact canonOut_burnisherCheck pool page s
  | governorReading watts => exact canonOut_governorReading watts s
  | droopDetection die => exact canonOut_droopDetection die s
  | detectedError c e => exact canonOut_detectedError c e s
  | flrVirtualFunction fn => exact canonOut_flrVirtualFunction fn s
  | perst => exact canonOut_perst s
  | moduleReset => exact canonOut_next (canon_powerLoss s)
  | boot r => exact canonOut_boot r s
  | thermalTrip => exact canonOut_thermalTrip s
  | linkLoss port => exact canonOut_linkLoss port s
  | linkUp port => exact canonOut_linkUp port s
  | ucieLinkFailure die => exact canonOut_ucieLinkFailure die s
  | hostDma write pa bytes => exact canonOut_hostDma write pa bytes s
  | atsTranslationCompletion ctx vpage leaf => exact canonOut_atsTranslationCompletion ctx vpage leaf s
  | perstNRising => exact canonOut_perstNRising s
  | telemetryAlertRead => exact canonOut_telemetryAlertRead s
  | _ => exact absurd h SlotEnc.noConfusion

theorem canonOut_exec (i : Instr) (s : State) : CanonOut s (exec i s) := by
  by_cases h : encFields i = .none
  · exact canonOut_event h s
  · exact canonOut_slot h s

/-! Steps one after another. -/

theorem canonOut_andThen {s : State} {o : Out} {f : State → Out} (ho : CanonOut s o) (hf : ∀ t, CanonOut t (f t)) :
    CanonOut s (andThen o f) := by
  cases o with
  | next t => exact (hf t).after (ho t rfl)
  | fault r => exact canonOut_of_ends rfl
  | refused r => exact canonOut_of_ends rfl

theorem canonOut_foldOut {α : Type} {f : α → State → Out} (h : ∀ x s, CanonOut s (f x s)) (l : List α) (s : State) :
    CanonOut s (foldOut f l s) := by
  induction l generalizing s with
  | nil => exact canonOut_same s
  | cons x l ih => exact canonOut_andThen (h x s) ih

theorem canonOut_when {p : Prop} [Decidable p] {s : State} {o : Out} (h : CanonOut s o) : CanonOut s (if p then o else .next s) :=
  canonOut_ite h (canonOut_same s)

/-! Waits and boundaries. -/

theorem canon_modSeq (s : State) (f : Sequencer → Sequencer) : Canon s (modSeq s f) := canon_of_eq rfl rfl rfl rfl

theorem canon_modOrder (s : State) (f : Order → Order) : Canon s (modOrder s f) := canon_of_eq rfl rfl rfl rfl

theorem canon_modCsr (s : State) (f : Csrs → Csrs) : Canon s (modCsr s f) := canon_of_eq rfl rfl rfl rfl

theorem canon_setArch (s : State) (a : CoreArch) : Canon s (setArch s a) := canon_of_eq rfl rfl rfl rfl

theorem canon_issue (s : State) (i : Option Issue) : Canon s { s with issue := i } := canon_of_eq rfl rfl rfl rfl

theorem canon_afterWait (s : State) (port : PortId) (w : Word) : Canon s (afterWait s port w) := canon_of_stored (stored_deliver s port 1 false _)

theorem canon_noteObserved (s : State) (x : ChanId) (c : Nat) : Canon s (noteObserved s x c) := canon_of_eq rfl rfl rfl rfl

theorem canon_endWait (s : State) (w : Wait) : Canon s (endWait s w).2 := by
  cases w with
  | release x phase => exact canon_afterWait s _ _
  | blocked x phase sync => exact (canon_noteObserved s x s.cur).trans (canon_countArrival _ x _)
  | drain => exact Canon.refl s
  | wfe mask =>
    unfold endWait
    dsimp only
    exact canon_modOrder s _
  | command q n => exact canon_afterWait s _ _
  | fence n => exact canon_afterWait s _ _
  | both a b => exact Canon.refl s

theorem canon_stepWait (s : State) (w : Wait) : Canon s (stepWait s w).2 := by
  have hend := canon_endWait s w
  unfold stepWait
  split
  · generalize endWait s w = r at hend
    obtain ⟨v, s1⟩ := r
    cases v with
    | none => exact hend
    | some v =>
      dsimp only
      split
      · exact Canon.trans hend (canon_endWait s1 v)
      · exact hend
  · exact Canon.refl s

theorem canon_stepWaits (w : Wait) (s : State) : Canon s (stepWaits s w).2 := by
  induction w generalizing s with
  | both a b iha ihb => exact (iha s).trans (ihb _)
  | _ => exact canon_stepWait s _

theorem canon_tryEndWait (s : State) : Canon s (tryEndWait s) := by
  unfold tryEndWait
  split
  · exact Canon.refl s
  next w _ => exact (canon_stepWaits w s).trans (canon_modSeq _ _)

theorem canon_completeTask (s : State) (code : BitVec 16) : Canon s (completeTask s code) := by
  unfold completeTask
  dsimp only
  split
  · exact (canon_modCore s _ _).trans (canon_dateGang _ _)
  · exact canon_modCore s _ _

theorem canonOut_goOn (s : State) : CanonOut s (goOn s) := by
  refine canonOut_andThen (canonOut_when (canonOut_exec _ s)) fun t => ?_
  split
  · exact canonOut_next (Canon.ite (canon_retireCore t _) (canon_completeTask t _))
  · split
    · exact canonOut_next (canon_setArch t _)
    · exact canonOut_when (canonOut_ite (canonOut_exec _ t) (canonOut_when (canonOut_exec _ t)))

theorem canonOut_atBoundary (s : State) : CanonOut s (atBoundary s) := by
  have hrerun := canon_endRerun s s.cur
  unfold atBoundary
  generalize endRerun s s.cur = r at hrerun
  obtain ⟨b, s1⟩ := r
  cases b with
  | false => exact canonOut_next hrerun
  | true => exact (canonOut_goOn s1).after hrerun

/-! A bundle. -/

theorem canon_signSlots (s : State) (live : List (Nat × Instr)) : Canon s (signSlots s live) := by
  refine Canon.ite (Canon.refl s) (Canon.foldl (fun s e => ?_) live s)
  split
  · exact (taskStep_signWrite s _ _ _).toCanon
  · exact Canon.refl s

theorem canonOut_runSlots (l : List (Nat × Instr)) (s : State) : CanonOut s (runSlots l s) := by
  induction l generalizing s with
  | nil => exact canonOut_same s
  | cons e l ih => exact canonOut_andThen ((canonOut_exec e.2 _).after (canon_issue s _)) ih

theorem canonOut_endBundle {s : State} {b : BitVec 256} {safe : Bool} {o : Out} (h : endBundle s b safe = some o) : CanonOut s o := by
  have hreleased : ∀ p : Bool, Canon s (if p then releaseStores { s with issue := none } s.cur else { s with issue := none }) := fun p =>
    Canon.ite ((canon_issue s none).trans (canon_releaseStores _ _)) (canon_issue s none)
  have hcolour (p : Prop) [Decidable p] (t : State) (f : Order → Order) : Canon t (if p then modOrder t f else t) :=
    Canon.ite (canon_modOrder t f) (Canon.refl t)
  unfold endBundle at h
  dsimp only at h
  split at h
  · exact absurd h (Option.some_ne_none o).symm
  · rw [← Option.some.inj h]
    refine CanonOut.after (canonOut_andThen (canonOut_when (canonOut_exec _ _)) fun t => ?_)
      (((hreleased _).trans (canon_setArch _ _)).trans (hcolour _ _ _))
    exact (canonOut_when (canonOut_atBoundary _)).after (canon_tryEndWait t)

theorem canonOut_bundleFault (s : State) (f : SlotFault) : CanonOut s (.next (takeBundleFault s f)) :=
  canonOut_next (canon_of_stored (stored_takeFault s f.cause f.uinfo))

/-- What issuing a bundle comes to keeps the canonical forms; of a held bundle nothing is kept. -/
def CanonIssued (s : State) (r : IssueRes) : Prop := ∀ o, r = .done o → CanonOut s o

theorem canonIssued_done {s : State} {o : Out} (h : CanonOut s o) : CanonIssued s (.done o) := fun _ e => IssueRes.done.inj e ▸ h

theorem canonIssued_held {s : State} {x : State} {r : IssueRes} (h : heldBy x = some r) : CanonIssued s r := by
  unfold heldBy at h
  split at h
  · split at h
    · intro o ho
      rw [← Option.some.inj h] at ho
      exact IssueRes.noConfusion ho
    · exact absurd h (Option.some_ne_none r).symm
  · exact absurd h (Option.some_ne_none r).symm

theorem canonIssued_issueBundle (s : State) : CanonIssued s (issueBundle s) := by
  have hslots (l : List (Nat × Instr)) (i : Issue) : CanonOut s (runSlots l { s with issue := some i }) :=
    (canonOut_runSlots l _).after (canon_issue s _)
  unfold issueBundle
  dsimp only
  split
  next f _ =>
    split
    · exact canonIssued_done (canonOut_bundleFault s f)
    · split
      · split
        next r hr => exact canonIssued_held hr
        · split
          next f _ => exact canonIssued_done (canonOut_bundleFault s f)
          · exact canonIssued_done (canonOut_same s)
      · exact canonIssued_done (hslots _ _)
  · split
    next s2 hrun =>
      split
      next r hr => exact canonIssued_held hr
      · split
        next f _ => exact canonIssued_done (canonOut_bundleFault s f)
        · split
          next o ho => exact canonIssued_done (((canonOut_endBundle ho).after (canon_signSlots s2 _)).after (hslots _ _ s2 hrun))
          · exact canonIssued_done (canonOut_bundleFault s _)
    · exact canonIssued_done (hslots _ _)

/-! The period of a core. -/

theorem canonOut_tickDogs (s : State) (freeze : Bool) : CanonOut s (tickDogs s freeze) := by
  unfold tickDogs
  dsimp only
  refine canonOut_ite (canonOut_same s) ?_
  exact (canonOut_ite (canonOut_exec _ _) (canonOut_when (canonOut_exec _ _))).after (canon_modCore s s.cur _)

theorem canonOut_restDogs (s : State) : CanonOut s (restDogs s) := canonOut_next (canon_modCore s _ _)

theorem canonOut_endCycle (s : State) : CanonOut s (endCycle s) := by
  refine canonOut_ite (canonOut_same s) (canonOut_andThen (canonOut_when (canonOut_exec _ s)) fun t => ?_)
  split
  · exact canonOut_when (canonOut_exec _ t)
  · exact canonOut_same t

theorem canonOut_cycleEnd (s : State) : CanonOut s (andThen (endCycle s) restDogs) := canonOut_andThen (canonOut_endCycle s) canonOut_restDogs

theorem canonOut_beginCycle (s : State) : CanonOut s (beginCycle s) := by
  unfold beginCycle
  exact (canonOut_andThen (canonOut_exec _ _) fun t => canonOut_exec _ t).after (canon_modCore s s.cur _)

theorem canon_startNeeded (s : State) (need : List Nat) : Canon s (startNeeded s need) := by
  refine Canon.foldl (fun s key => ?_) need s
  split
  · exact Canon.ite (Canon.refl s) (taskStep_startFill s _ _ _ _ _).toCanon
  · exact Canon.refl s

theorem canon_drainAnvil (c : Nat) (s : State) : Canon s (drainAnvil c s) :=
  Canon.ite (Canon.refl s) ((taskStep_modAnvOf s c _).toCanon.trans (taskStep_anvilRun c 9 _).toCanon)

theorem canonOut_heldPeriod (s : State) (need : List Nat) (drain : Bool) : CanonOut s (heldPeriod s need drain) := by
  have hheld (f : Csrs → Csrs) := (canon_startNeeded s need).trans (canon_modCsr _ f)
  exact (canonOut_tickDogs _ true).after (Canon.ite ((hheld _).trans (canon_drainAnvil _ _)) (hheld _))

theorem canonOut_coreCycle (s : State) : CanonOut s (coreCycle s) := by
  have hbegun := canonOut_beginCycle s
  unfold coreCycle
  generalize beginCycle s = b at hbegun
  cases b with
  | next t =>
    have ht := hbegun t rfl
    refine canonOut_ite ?_ ?_
    · exact (canonOut_andThen (canonOut_when (canonOut_atBoundary _)) canonOut_cycleEnd).after (ht.trans (canon_modSeq t _))
    · have hissued := canonIssued_issueBundle t
      generalize issueBundle t = r at hissued
      cases r with
      | held need drain => exact canonOut_heldPeriod s need drain
      | done o => exact (canonOut_andThen (hissued o rfl) canonOut_cycleEnd).after ht
  | fault r => exact canonOut_of_ends rfl
  | refused r => exact canonOut_of_ends rfl

theorem canonOut_classify (s : State) : CanonOut s (classify s) := by
  have hticked {t : State} (h : Canon s t) (b : Bool) : CanonOut s (tickDogs t b) := (canonOut_tickDogs t b).after h
  unfold classify
  dsimp only
  split
  · exact hticked (canon_modCsr s _) _
  · split
    · exact hticked ((canon_modCsr s _).trans (canon_modCore _ _ _)) _
    · split
      · exact hticked (canon_modCsr s _) _
      · split
        · split
          · exact canonOut_heldPeriod s _ _
          · exact hticked ((canon_modCsr s _).trans (canon_modSeq _ _)) _
        · split
          · exact hticked (canon_modCsr s _) _
          · exact canonOut_coreCycle s

theorem canonOut_whileBound {s : State} {o : Out} {f : State → Out} (ho : CanonOut s o) (hf : ∀ t, CanonOut t (f t)) :
    CanonOut s (whileBound o f) := canonOut_andThen ho fun t => canonOut_when (hf t)

theorem canonOut_waitingPeriod (s : State) : CanonOut s (waitingPeriod s) := by
  have hclass := canonOut_classify s
  unfold waitingPeriod
  generalize classify s = o at hclass
  refine canonOut_ite ?_ hclass
  cases o with
  | next t => exact canonOut_ite (canonOut_exec _ s) hclass
  | fault r => exact canonOut_of_ends rfl
  | refused r => exact canonOut_of_ends rfl

theorem canonOut_boundPeriod (s : State) : CanonOut s (boundPeriod s) := by
  refine canonOut_ite ((canonOut_ite (canonOut_waitingPeriod _) ?_).after (canon_tryEndWait s)) (canonOut_classify s)
  exact (canonOut_whileBound (canonOut_when (canonOut_atBoundary _)) canonOut_classify).after (canon_modCore _ _ _)

theorem canonOut_rerunPeriod (s : State) (r : Rerun) : CanonOut s (rerunPeriod s r) := by
  refine canonOut_ite (canonOut_next (canon_restorePeriod s _ r)) ?_
  have hspent : Canon s (if r.first.isNone then modCore s s.cur (fun x => { x with rerun := some { r with spent := r.spent + 1 } }) else s) :=
    Canon.ite (canon_modCore s _ _) (Canon.refl s)
  intro u hu
  have hbound := (canonOut_boundPeriod _).after hspent
  generalize (if r.first.isNone then modCore s s.cur (fun x => { x with rerun := some { r with spent := r.spent + 1 } }) else s) = s0
    at hu hspent hbound
  generalize boundPeriod s0 = o at hu hbound
  cases o with
  | next t =>
    exact canonOut_next (Canon.ite (hspent.trans (canon_retireCore s0 _)) ((hbound t rfl).trans (canon_replayLoads t _))) u hu
  | fault r => exact canonOut_of_ends rfl u hu
  | refused r => exact canonOut_of_ends rfl u hu

theorem canonOut_rerunWait (s : State) : CanonOut s (rerunWait s) := by
  have hrerun := canon_endRerun s s.cur
  unfold rerunWait
  generalize endRerun s s.cur = r at hrerun
  obtain ⟨b, s1⟩ := r
  cases b with
  | true => exact (canonOut_boundPeriod s1).after hrerun
  | false =>
    dsimp only
    split
    · exact canonOut_next (Canon.trans hrerun (canon_restorePeriod s1 _ _))
    · exact canonOut_next hrerun

theorem canonOut_corePeriod (c : Nat) (s : State) : CanonOut s (corePeriod c s) := by
  have hturn : Canon s { s with cur := c, issue := none } := canon_of_eq rfl rfl rfl rfl
  unfold corePeriod
  dsimp only
  generalize ({ s with cur := c, issue := none } : State) = s0 at hturn
  have hserved : Canon s (if heldOut s0 c then s0 else serveNear c (getCore s0 c).arch.order.nearq.length s0) :=
    Canon.ite hturn (hturn.trans (taskStep_serveNear c _ s0).toCanon)
  generalize (if heldOut s0 c then s0 else serveNear c (getCore s0 c).arch.order.nearq.length s0) = s1 at hserved
  refine canonOut_ite ?_ (canonOut_next hserved)
  split
  · exact (canonOut_boundPeriod s1).after hserved
  · exact canonOut_ite ((canonOut_rerunWait s1).after hserved) ((canonOut_rerunPeriod s1 _).after hserved)

/-! The clock. -/

theorem canon_latchEvents (s : State) : Canon s (latchEvents s) := by
  refine Canon.foldl (fun s e => ?_) s.quads s
  have hlatched (l : List SevLatch) : Canon s (l.foldl (fun s l =>
      if hasCompleted s l.core then s
      else modCore s l.core (fun x =>
        { x with arch := { x.arch with order := { x.arch.order with events := x.arch.order.events ||| l.events } },
                 jn := { x.jn with latched := x.jn.latched ||| l.events } })) s) := by
    refine Canon.foldl (fun s l => ?_) l s
    exact Canon.ite (Canon.refl s) (canon_modCore s _ _)
  exact Canon.ite (hlatched _) ((hlatched _).trans (canon_modQuad _ _ _))

theorem canon_popResults (s : State) (p : Pop) (es : List (Lane × Bool)) : Canon s (popResults s p es) := by
  unfold popResults
  exact canon_modCore s _ _

theorem canon_applyPop (q : Nat) (s : State) (p : Pop) : Canon s (applyPop q s p) :=
  Canon.ite ((canon_modQuad s q _).trans (canon_popResults _ p _)) (canon_modQuad s q _)

theorem canon_applyPops (s : State) : Canon s (applyPops s) := by
  refine Canon.foldl (fun s e => ?_) s.quads s
  exact Canon.ite (Canon.refl s) ((canon_modQuad s _ _).trans (Canon.foldl (canon_applyPop e.1) _ _))

theorem canon_tickGangs (s : State) : Canon s (tickGangs s) := canon_hub s _

theorem canon_tickDies (s : State) : Canon s (tickDies s) := canon_of_eq rfl rfl rfl rfl

theorem canon_freeBanks (s : State) : Canon s (freeBanks s) := canon_of_eq rfl rfl rfl rfl

theorem canon_clock (s : State) (n : Nat) : Canon s { s with now := n } := canon_of_eq rfl rfl rfl rfl

theorem canon_served (s : State) (b : Bool) : Canon s { s with served := b } := canon_of_eq rfl rfl rfl rfl

theorem canon_todo (s : State) (l : List Nat) : Canon s { s with todo := l } := canon_of_eq rfl rfl rfl rfl

theorem canon_serveAnvils (s : State) : Canon s (serveAnvils s) := by
  refine Canon.foldl (fun s e => ?_) s.cores s
  exact Canon.ite (Canon.refl s) (taskStep_serveAnvil e.1 s).toCanon

theorem canonOut_newPeriod (s : State) : CanonOut s (newPeriod s) := by
  have hended := (((canon_served s false).trans (canon_applyPops _)).trans (canon_applyRevocations _)).trans (canon_retryWaiting _)
  unfold newPeriod
  dsimp only
  refine CanonOut.after (t := tickDies (tickGangs (freeBanks _))) (canonOut_andThen (canonOut_foldOut (fun d s => canonOut_exec _ s) _ _)
    fun t => ?_) ((((hended.trans (canon_releaseHolds _)).trans (canon_clock _ _)).trans (canon_freeBanks _)).trans
      ((canon_tickGangs _).trans (canon_tickDies _)))
  refine canonOut_andThen (canonOut_when (canonOut_foldOut (fun d s => canonOut_exec _ s) _ t)) fun u => canonOut_next ?_
  exact ((canon_latchEvents u).trans (canon_stageAhead _)).trans (canon_todo _ _)

theorem canonOut_clockStep (s : State) : CanonOut s (clockStep s) := by
  unfold clockStep
  split
  next c rest _ => exact (canonOut_corePeriod c _).after (canon_todo s rest)
  · exact canonOut_ite (canonOut_newPeriod s) (canonOut_next ((canon_serveAnvils s).trans (canon_served _ true)))

theorem canon_agenda (s : State) (l : List Sched) : Canon s { s with agenda := l } := canon_of_eq rfl rfl rfl rfl

theorem canonOut_step (s : State) : CanonOut s (step s) := by
  unfold step
  split
  · exact (canonOut_exec _ _).after (canon_agenda s _)
  · exact (canonOut_clockStep _).after (canon_agenda s _)
  · split
    · exact canonOut_exec _ s
    · exact canonOut_clockStep s

/-- Settles O60: every event, every slot and every part of a period keeps the canonical forms, for each reaches the memories and the lists of
lines by writes, clears and filters alone. -/
theorem stepKeepsMemories : Obligations.StepKeepsMemories := by
  unfold Obligations.StepKeepsMemories
  intro s t h
  obtain ⟨hmemories, hlines⟩ := canonOut_step s t h
  exact ⟨hmemories, hlines⟩

end Sys2Proof.Proofs
end

section
/-! PROOF. Pod transfers at their home: a frame of a pod class that passes its checks, and the line that it reads or writes (R117, R337 to R339,
R344, R346). -/

namespace Sys2Proof.Proofs

open Sys2Proof.Machine Sys2Proof.Claims Sys2Proof.Laws

/-! A frame that passes its checks. -/

theorem arriving_arrives {s : State} {f : UFrame} (h : arrives s f) (port : Nat) (go : State → Out) : Machine.arriving port f s go = go s := by
  obtain ⟨hfcs, hlen, hup, hport, haddr⟩ := h
  rw [Machine.arriving, hfcs, hup, haddr, if_neg (by rw [decide_eq_false (Nat.not_lt.mpr hlen)]; decide), if_neg (by
    rintro (hp | ha)
    · exact hp hport
    · exact absurd ha (by decide))]

section
variable {s : State} {cls src : Nat} {f : UFrame}

theorem podSession_passes (h : podPasses s cls f src) (port : Nat) (go : Nat → State → Out) :
    podSession port f (fun c => decide (c = cls)) go s = go src (podMarked s src f) := by
  obtain ⟨-, -, hkey, hsender, hfresh, htag, hheader, -, hctx⟩ := h
  have hnone : ¬ ((headerFault f (fun c => decide (c = cls)) (modIdent (podMarked s src f))).isSome = true ∨ f.ctx ≠ 0) := by
    rw [show modIdent (podMarked s src f) = modIdent s from rfl, hheader, hctx]
    decide
  rw [podSession, if_pos hkey, hsender]
  dsimp only
  rw [hfresh, htag, if_neg (by decide)]
  exact if_neg hnone

theorem podFrame_passes (h : podPasses s cls f src) (go : Nat → State → Out) : podFrame cls f go s = go src (podMarked s src f) := by
  rw [podFrame, arriving_arrives h.1, if_pos h.2.1, podSession_passes h]

/-- The bytes of a body that the header rules let pass. -/
theorem length_of_headerFault {classes : Nat → Bool} {n : Nat} (h : headerFault f classes n = none) : f.body.length = f.len := by
  unfold headerFault at h
  by_contra hne
  split at h
  · exact Option.some_ne_none _ h
  · split at h
    · exact Option.some_ne_none _ h
    · split at h
      · exact Option.some_ne_none _ h
      · split at h
        · exact Option.some_ne_none _ h
        · split at h
          · exact Option.some_ne_none _ h
          · rw [if_pos (.inr (.inr hne))] at h
            exact Option.some_ne_none _ h

theorem length_body (h : podPasses s cls f src) : f.body.length = f.len := by
  obtain ⟨-, -, -, -, -, -, hheader, -, -⟩ := h
  exact length_of_headerFault hheader

theorem podPasses_cls (h : podPasses s cls f src) : f.cls = cls := by
  obtain ⟨-, -, -, -, -, -, -, hcls, -⟩ := h
  exact hcls

/-! The body of a request. -/

variable {r : PodReq}

theorem podAsks_src (h : podAsks src f r) : r.src = src := by rw [h.1]

theorem podAsks_data (h : podAsks src f r) : r.data = f.body.drop 0x20 := by rw [h.1]

/-- What a PLOAD, PSTORE and PATOM each has to be besides. -/
def podShape (cls : Nat) (f : UFrame) (r : PodReq) : Bool :=
  match cls with
  | 0x40 => decide (f.len = 32 ∧ r.fn = 0 ∧ r.mask = 0 ∧ r.paddr % 64 = 0)
  | 0x41 => decide (f.len = 96 ∧ r.fn = 0 ∧ r.paddr % 64 = 0)
  | _ => decide (f.len = 96 ∧ r.fn ≤ 9 ∧ r.mask = 0 ∧ r.paddr % 8 = 0 ∧ bodyField f.body 0x30 48 = 0)

theorem podRequest_asks (h : podAsks src f r) (hs : podShape f.cls f r = true) : podRequest src f = some r := by
  obtain ⟨rfl, hrid, h7, h18⟩ := h
  have hfirst : decide (f.rid = bodyField f.body 0 4 ∧ bodyField f.body 7 1 = 0 ∧ bodyField f.body 0x18 8 = 0) = true :=
    decide_eq_true ⟨hrid, h7, h18⟩
  rw [podRequest]
  exact if_pos ((Bool.and_eq_true _ _).mpr ⟨hfirst, hs⟩)

end

/-! A line that takes a transfer. -/

section
variable {s : State} {pa : Nat}

theorem mergesAt_of_lineTakes {g : Option Gang} (h : lineTakes s g pa) : mergesAt s g pa := by
  obtain ⟨-, hbad, hopens, -⟩ := h
  exact ⟨hbad, hopens⟩

theorem takeRecalls_home {l : List Loc} (h : ∀ x ∈ l, holderOf s x = none) : takeRecalls l s = (true, s) := by
  induction l with
  | nil => rfl
  | cons x l ih =>
    rw [takeRecalls, recallToken, h x List.mem_cons_self]
    dsimp only
    rw [ih fun y hy => h y (List.mem_cons_of_mem x hy)]

/-- A transfer to a line that no chunk holds and that waits for no rekey performs. -/
theorem tryPod_takes {r : PodReq} (h : lineTakes s none (podPa r / 64 * 64)) (cls : Nat) : tryPod cls r s = (true, performPod cls r s) := by
  obtain ⟨hreg, -, -, hseal⟩ := h
  have hholder : holderOf s { peer := none, pa := podPa r / 64 * 64 } = none := hreg
  have hheld : lineHeld s { peer := none, pa := podPa r / 64 * 64 } = false := by rw [lineHeld, hholder]
  have hrecall : recallHeld s { peer := none, pa := podPa r / 64 * 64 } = false := by rw [recallHeld, hheld, hholder]; rfl
  have hopen (b : Bool) : ¬ (lineHeld s { peer := none, pa := podPa r / 64 * 64 } || (b && (recallHeld s { peer := none, pa := podPa r / 64 * 64 } ||
      sealWaits s { peer := none, pa := podPa r / 64 * 64 }))) = true := by
    rw [hheld, hrecall, hseal]
    cases b <;> decide
  rw [tryPod, if_neg (hopen _), takeRecalls_home (fun x hx => ?_)]
  split at hx
  · rw [List.mem_singleton.mp hx]
    exact hholder
  · exact absurd hx List.not_mem_nil

end

/-! An answer. -/

/-- State s with the answers that it has recorded. -/
def withAnswers (s : State) (l : List (Nat × Nat × PodAns)) : State := { s with hub := { s.hub with answered := l } }

/-- The answer that a request has. -/
def podAns (r : PodReq) (result : Nat) (data : List Byte) : PodAns := { xfer := r.xfer, result := result, data := data }

theorem answer_frame (s : State) (r : PodReq) (result : Nat) (data : List Byte) : ∃ e ps, answer s r result data =
    let t := withAnswers s (s.hub.answered ++ [(r.xfer, r.src, podAns r result data)])
    { t with edge := e, hub := { t.hub with peers := ps } } :=
  sendPod_frame _ 0x43 r.src r.xfer _

/-- What a transfer at its home leaves but for memory: the answer is recorded, the stash and the cores stay. -/
structure Answered (s t : State) (r : PodReq) (result : Nat) (data : List Byte) : Prop where
  answered : t.hub.answered = s.hub.answered ++ [(r.xfer, r.src, podAns r result data)]
  stash : t.stash = s.stash
  cores : t.cores = s.cores

theorem Answered.claim {s t : State} {r : PodReq} {data : List Byte} (h : Answered s t r 0 data) : answers_ s t r data :=
  ⟨_, h.answered, rfl, rfl, rfl⟩

/-- An answer, after what leaves the answers, the stash and the cores. -/
theorem answered_answer {s t : State} (ha : t.hub.answered = s.hub.answered) (hs : t.stash = s.stash) (hc : t.cores = s.cores) (r : PodReq)
    (result : Nat) (data : List Byte) : Answered s (answer t r result data) r result data ∧ (answer t r result data).far = t.far := by
  obtain ⟨e, ps, heq⟩ := answer_frame t r result data
  rw [heq]
  exact ⟨⟨congrArg (· ++ _) ha, hs, hc⟩, rfl⟩

theorem HomeStep.answered {s t : State} (h : HomeStep s t) : t.hub.answered = s.hub.answered := (congrArg Hub.answered h.hub :)

/-- The answer after accesses of lines at their homes. -/
theorem HomeStep.answer {s t : State} (h : HomeStep s t) (r : PodReq) (result : Nat) (data : List Byte) :
    Answered s (Machine.answer t r result data) r result data ∧ (Machine.answer t r result data).far = t.far :=
  answered_answer h.answered h.stash h.cores r result data

/-- A transfer that is served at its home. -/
structure Served (s : State) (cls : Nat) (f : UFrame) (src : Nat) (r : PodReq) : Prop where
  passes : podPasses s cls f src
  asks : podAsks src f r
  serves : serves s r
  shape : podShape cls f r = true

section
variable {s : State} {cls src : Nat} {f : UFrame} {r : PodReq}

theorem Served.takes (h : Served s cls f src r) : lineTakes (podMarked s src f) none (podPa r / 64 * 64) := by
  obtain ⟨-, -, -, htakes, -⟩ := h.serves
  exact htakes

theorem Served.far (h : Served s cls f src r) : memWf (podMarked s src f).far = true := by
  obtain ⟨-, -, -, -, hwf⟩ := h.serves
  exact hwf

/-- What the frame of such a transfer does. -/
theorem podFrame_served (h : Served s cls f src r) : podFrame cls f (servePod f) s = .next (performPod cls r (podMarked s src f)) := by
  obtain ⟨hrec, hexp, hwaits, -, -⟩ := h.serves
  have hcls := podPasses_cls h.passes
  have hrec' : recorded (podMarked s src f) src r.xfer = none := by rw [podAsks_src h.asks] at hrec; exact hrec
  rw [podFrame_passes h.passes, servePod, podRequest_asks h.asks (by rw [hcls]; exact h.shape)]
  dsimp only
  rw [hrec', show isExported (podMarked s src f) r = isExported s r from rfl, hexp, show podWaits (podMarked s src f) r = podWaits s r from rfl,
    hwaits, tryPod_takes h.takes, hcls]
  rfl

/-- A line read at its home. -/
theorem sameLines_read {t : State} {pa : Nat} (h : lineTakes t none pa) : SameLines t (nextStamp (noteRead t none pa)).2 := by
  rw [noteRead_merges h.1 (mergesAt_of_lineTakes h)]
  exact (sameLines_touchL2 t pa).trans (sameLines_nextStamp _)

theorem homeStep_read (t : State) (pa : Nat) : HomeStep t (nextStamp (noteRead t none pa)).2 :=
  (homeStep_noteRead t none pa).trans (homeStep_nextStamp _)

theorem podPa_line (h : r.paddr % 64 = 0) : podPa r / 64 * 64 = podPa r := by
  rw [podPa]
  omega

/-- A PLOAD answers the bytes of its line. -/
theorem pload_claim (h : Served s 0x40 f src r) (ha : r.paddr % 64 = 0) (hopen : slotOpen s (podPa r / 64 * 64) = false) :
    ∃ t, exec (.pload f) s = .next t ∧ answers_ s t r (memReadN s.far (podPa r) 64) ∧ t.far = s.far ∧ t.stash = s.stash ∧ t.cores = s.cores := by
  have htakes := h.takes
  rw [podPa_line ha] at htakes hopen
  have hline : readLine (podMarked s src f) none (podPa r) = (memReadN s.far (podPa r) 64, false) := by
    rw [readLine_home htakes.1 (mergesAt_of_lineTakes htakes)]
    exact congrArg (·, false) (homeBytes_closed (s := podMarked s src f) hopen)
  have hsame := sameLines_read htakes
  obtain ⟨hans, hfar⟩ := (homeStep_read (podMarked s src f) (podPa r)).answer r 0 (memReadN s.far (podPa r) 64)
  refine ⟨answer (nextStamp (noteRead (podMarked s src f) none (podPa r))).2 r 0 (memReadN s.far (podPa r) 64), ?_, hans.claim,
    hfar.trans hsame.far, hans.stash, hans.cores⟩
  refine (podFrame_served h).trans (congrArg Host.Outcome.next ?_)
  rw [performPod, podLoad, hline]
  exact if_neg Bool.false_ne_true

theorem podStore_answers (t : State) (r : PodReq) : ∃ u, HomeStep t u ∧ u = writeLine (nextStamp t).2 none (podPa r) r.mask (lineOfBytes r.data) ∧
    podStore r t = answer u r 0 [] := ⟨_, (homeStep_nextStamp t).trans (homeStep_writeLine _ _ _ _ _), rfl, rfl⟩

/-- A PSTORE writes the bytes of its mask. -/
theorem pstore_claim (h : Served s 0x41 f src r) (ha : r.paddr % 64 = 0) (hlen : f.len = 96) :
    ∃ t, exec (.pstore f) s = .next t ∧ answers_ s t r [] ∧
      (∀ i, i < 64 → memRead t.far (podPa r + i) = if r.mask.getLsbD i then nthD r.data i 0#8 else memRead s.far (podPa r + i)) ∧
      (∀ a, (a < podPa r ∨ podPa r + 64 ≤ a) → memRead t.far a = memRead s.far a) ∧ t.stash = s.stash ∧ t.cores = s.cores := by
  have htakes := h.takes
  rw [podPa_line ha] at htakes
  have hdata : r.data.length = 64 := by
    rw [podAsks_data h.asks, List.length_drop, length_body h.passes, hlen]
  have hstamp := sameLines_nextStamp (podMarked s src f)
  obtain ⟨u, hstep, hu, hstore⟩ := podStore_answers (podMarked s src f) r
  rw [writeLine_home ((hstamp.registered _).trans htakes.1)] at hu
  have hread := memRead_homeWrite (data := lineOfBytes r.data) (.inr (hstamp.mergesAt (mergesAt_of_lineTakes htakes)) : r.mask = _ ∨ _)
    (by rw [hstamp.far]; exact h.far)
  rw [← hu, hstamp.far] at hread
  obtain ⟨hans, hfar⟩ := hstep.answer r 0 []
  refine ⟨answer u r 0 [], (podFrame_served h).trans (congrArg Host.Outcome.next hstore), hans.claim, fun i hi => ?_, fun a ha => ?_,
    hans.stash, hans.cores⟩
  · rw [hfar, hread, Nat.add_sub_cancel_left]
    simp only [Nat.le_add_right, Nat.add_lt_add_iff_left, hi, true_and]
    split
    · rw [extract_lineOfBytes r.data (by omega)]
    · rfl
  · rw [hfar, hread, if_neg (by omega)]
    rfl

/-! An atomic. -/

theorem ringBells_kept (s : State) (scope pa : Nat) : (ringBells s scope pa).hub.answered = s.hub.answered ∧
    (ringBells s scope pa).stash = s.stash ∧ (ringBells s scope pa).cores = s.cores ∧ (ringBells s scope pa).far = s.far := by
  unfold ringBells
  split <;> exact ⟨rfl, rfl, rfl, rfl⟩

/-- An atomic at the home of a line that has not failed. -/
theorem podAtom_eq {t : State} {r : PodReq} {old : Word} (h : podOld t r = (old, false)) : podAtom r t =
    answer (ringBells (atomLeft (nextStamp (noteRead t none (podPa r / 64 * 64))).2 none (podPa r) r.fn old (podOperands r).1 (podOperands r).2) 5
      (podPa r / 64 * 64)) r 0 (leBytes old.toNat 8) := by
  rw [podAtom, h]
  exact if_neg Bool.false_ne_true

/-- A PATOM answers the old value and leaves the new one. -/
theorem patom_claim (h : Served s 0x42 f src r) (ha : r.paddr % 8 = 0) (hopen : slotOpen s (podPa r / 64 * 64) = false) {old : Word}
    (hold : old = BitVec.ofNat 64 (leNat (memReadN s.far (podPa r) 8))) :
    ∃ t, exec (.patom f) s = .next t ∧ answers_ s t r (leBytes old.toNat 8) ∧
      memReadN t.far (podPa r) 8 = leBytes (atomFn r.fn old (podOperands r).1 (podOperands r).2).toNat 8 ∧
      (∀ a, (a < podPa r ∨ podPa r + 8 ≤ a) → memRead t.far a = memRead s.far a) ∧ t.stash = s.stash ∧ t.cores = s.cores := by
  have htakes := h.takes
  have h8 : podPa r % 8 = 0 := by
    rw [podPa]
    omega
  have hfound : podOld (podMarked s src f) r = (old, false) := by
    rw [podOld, readLine_home htakes.1 (mergesAt_of_lineTakes htakes), hold]
    exact congrArg (fun l => (BitVec.ofNat 64 (leNat l), false)) (homeBytes_part (s := podMarked s src f) hopen (by omega))
  have hsame := sameLines_read htakes
  have hleft := atomLeft_home (fn := r.fn) (old := old) (d := (podOperands r).1) (x := (podOperands r).2) h8 ((hsame.registered _).trans htakes.1)
    (hsame.mergesAt (mergesAt_of_lineTakes htakes)) (by rw [hsame.far]; exact h.far)
    (by rw [hsame.far, hold]; exact leBytes_foundBytes _ (memReadN_length _ _ _))
  have hstep := (homeStep_read (podMarked s src f) (podPa r / 64 * 64)).trans
    (homeStep_atomLeft _ none (podPa r) r.fn old (podOperands r).1 (podOperands r).2)
  have hatom := podAtom_eq hfound
  rw [hsame.far] at hleft
  generalize atomLeft (nextStamp (noteRead (podMarked s src f) none (podPa r / 64 * 64))).2 none (podPa r) r.fn old (podOperands r).1
    (podOperands r).2 = u at hleft hstep hatom
  obtain ⟨hans, hstash, hcores, hfar⟩ := ringBells_kept u 5 (podPa r / 64 * 64)
  obtain ⟨hdone, hmem⟩ := answered_answer (hans.trans hstep.answered) (hstash.trans hstep.stash) (hcores.trans hstep.cores) r 0
    (leBytes old.toNat 8)
  refine ⟨_, (podFrame_served h).trans (congrArg Host.Outcome.next hatom), hdone.claim, ?_, ?_, hdone.stash, hdone.cores⟩
  · rw [hmem, hfar]
    exact hleft.1
  · rw [hmem, hfar]
    exact hleft.2

end

end Sys2Proof.Proofs
end

section
/-! PROOF. Requests, repeated and refused transfers, answers, resends, pod collectives, the send ring and the links (R40, R282, R335 to
R348). -/

namespace Sys2Proof.Proofs

open Sys2Proof.Machine Sys2Proof.Claims Sys2Proof.Laws

/-! Transfers that are repeated or refused. -/

theorem repeated_claim {s : State} {f : UFrame} {src : Nat} {r : PodReq} {a : PodAns} (h : podPasses s 0x40 f src) (hasks : podAsks src f r)
    (hshape : podShape 0x40 f r = true) (hrec : recorded s src r.xfer = some a) :
    exec (.pload f) s = .next (sendAnswer (podMarked s src f) src a) := by
  refine (podFrame_passes h (servePod f)).trans ?_
  rw [servePod, podRequest_asks hasks (by rw [podPasses_cls h]; exact hshape)]
  dsimp only
  rw [show recorded (podMarked s src f) src r.xfer = some a from hrec]

theorem refused_claim {s : State} {f : UFrame} {src : Nat} {r : PodReq} (h : podPasses s 0x40 f src) (hasks : podAsks src f r)
    (hshape : podShape 0x40 f r = true) (hrec : recorded s src r.xfer = none) (hexp : isExported s r = false) :
    ∃ t b, exec (.pload f) s = .next t ∧ t.far = s.far ∧ t.hub.answered = s.hub.answered ++ [(r.xfer, src, b)] ∧ b.xfer = r.xfer ∧
      b.result = 1 ∧ b.data = [] := by
  obtain ⟨hans, hfar⟩ := answered_answer (s := s) (t := podMarked s src f) rfl rfl rfl r 1 []
  refine ⟨answer (podMarked s src f) r 1 [], podAns r 1 [], (podFrame_passes h (servePod f)).trans ?_, hfar, ?_, rfl, rfl, rfl⟩
  · rw [servePod, podRequest_asks hasks (by rw [podPasses_cls h]; exact hshape)]
    dsimp only
    rw [show recorded (podMarked s src f) src r.xfer = none from hrec, show isExported (podMarked s src f) r = false from hexp]
    rfl
  · rw [hans.answered, podAsks_src hasks]

/-! Answers to this module's transfers. -/

/-- What a stored answer does: a store of this module leaves the released stores, and a poisoned result is logged. -/
theorem landXfer_store (s : State) {x : PodXfer} (hk : x.kind = 3) (hc : x.cls = 0x41) (bytes : List Byte) (bad : Bool) :
    (landXfer s x bytes bad).hub.xfers = s.hub.xfers.filter (fun y => y.num ≠ x.num) ∧
      (coreArch (landXfer s x bytes bad) x.core).order.released =
        (coreArch s x.core).order.released.filter (fun y => y.ident ≠ x.ident) ∧
      (landXfer s x bytes bad).far = s.far ∧
      (landXfer s x bytes bad).edge.logs = s.edge.logs ++ (if bad then [(3, x.peer, x.pa)] else []) := by
  unfold landXfer
  rw [hk, hc]
  cases bad with
  | false =>
    refine ⟨rfl, ?_, rfl, (List.append_nil _).symm⟩
    exact congrArg (fun y : Core => y.arch.order.released) (getCore_modCore_same _ _ _)
  | true =>
    refine ⟨rfl, ?_, rfl, rfl⟩
    exact congrArg (fun y : Core => y.arch.order.released) (getCore_modCore_same _ _ _)

theorem preply_claim {s : State} {f : UFrame} {src : Nat} {x : PodXfer} (h : podPasses s 0x43 f src)
    (hx : s.hub.xfers.find? (fun x => decide (x.num = f.rid ∧ x.kind ≠ 4 ∧ s.edge.podid * 1024 + x.peer = src)) = some x) (hk : x.kind = 3)
    (hc : x.cls = 0x41) (hnum : leNat (f.body.take 4) = f.rid) (hzero : leNat ((f.body.drop 5).take 3) = 0) (hlen : f.len = 8)
    (hresult : leNat ((f.body.drop 4).take 1) ≤ 2) : ∃ t, exec (.preply f) s = .next t ∧
      t.hub.xfers = s.hub.xfers.filter (fun y => y.num ≠ x.num) ∧
      (coreArch t x.core).order.released = (coreArch s x.core).order.released.filter (fun y => y.ident ≠ x.ident) ∧ t.far = s.far ∧
      t.edge.logs = s.edge.logs ++ (if leNat ((f.body.drop 4).take 1) = 0 then [] else [(3, x.peer, x.pa)]) := by
  have hanswer : podAnswer x.cls f = some { xfer := bodyField f.body 0 4, result := bodyField f.body 4 1, data := f.body.drop 8 } := by
    refine if_pos ⟨hnum.symm, hzero, hresult, ?_⟩
    rw [hc, hlen, answerLength, if_pos (.inr rfl)]
  obtain ⟨hxfers, hreleased, hfar, hlogs⟩ := landXfer_store (podMarked s src f) hk hc (f.body.drop 8)
    (decide (bodyField f.body 4 1 ≠ 0))
  refine ⟨_, (podFrame_passes h (takeAnswer f)).trans ?_, hxfers, hreleased, hfar, hlogs.trans ?_⟩
  · rw [takeAnswer, show (podMarked s src f).hub.xfers.find? (fun y => decide (y.num = f.rid ∧ y.kind ≠ 4 ∧
      (podMarked s src f).edge.podid * 1024 + y.peer = src)) = some x from hx]
    dsimp only
    rw [hanswer]
  · refine congrArg (s.edge.logs ++ ·) ?_
    by_cases h0 : leNat ((f.body.drop 4).take 1) = 0
    · rw [if_pos h0]
      exact if_neg (by rw [decide_eq_true_iff]; exact fun hc => hc h0)
    · rw [if_neg h0]
      exact if_pos (decide_eq_true h0)

theorem resend_claim {s : State} {n : Nat} {x : PodXfer} (hx : s.hub.xfers.find? (fun x => x.num = n) = some x) (hdue : x.sentAt + 15040 ≤ s.now) :
    (x.kind ≠ 4 → 8 ≤ x.resends → exec (.podTransferResend n) s = .next (landXfer s x [] true)) ∧
      ((x.kind = 4 ∨ x.resends < 8) → ∃ t, exec (.podTransferResend n) s = .next t ∧
        t.hub.xfers = s.hub.xfers.map (fun y => if y.num = n then { y with sentAt := s.now, resends := y.resends + 1 } else y)) := by
  have hexec : exec (.podTransferResend n) s = execPodTransferResend n s := rfl
  rw [hexec, execPodTransferResend, hx]
  dsimp only
  rw [if_neg (Nat.not_lt.mpr hdue)]
  refine ⟨fun hk h8 => if_pos ⟨hk, h8⟩, fun h => ?_⟩
  rw [if_neg fun hc => h.elim hc.1 (Nat.not_lt.mpr hc.2)]
  refine ⟨_, rfl, ?_⟩
  obtain ⟨e, ps, hsend⟩ := sendPod_frame { s with hub := { s.hub with xfers := s.hub.xfers.map (fun y =>
    if y.num = n then { y with sentAt := s.now, resends := y.resends + 1 } else y) } } x.cls (xferDest s x) x.num (xferBody x)
  rw [hsend]

/-! Pod collectives. -/

section
variable {s : State} {x : CollFrame} {src : Nat} {r : PColl}

/-- The body of a PCOLL as its fields give it. -/
def collOf (src : Nat) (x : CollFrame) : PColl :=
  let g (off len : Nat) : Nat := leNat ((x.frame.body.drop off).take len)
  { src := src, group := g 0 2, channel := g 2 1, kind := g 3 1, phase := g 4 4, xfer := g 8 4, op := g 0xC 1, fnfmt := g 0xD 1,
    root := g 0xE 2, offset := g 0x10 4, total := g 0x14 4, data := x.frame.body.drop 0x20, tasks := x.tasks }

theorem podColl_eq (src : Nat) (x : CollFrame) : podColl src x =
    if (decide (32 ≤ x.frame.len ∧ x.frame.rid = (collOf src x).xfer ∧ leNat ((x.frame.body.drop 0x18).take 8) = 0 ∧ (collOf src x).kind ≤ 4) &&
      (if (collOf src x).kind = 2 ∨ (collOf src x).kind = 3 then fragmentOk (collOf src x) else decide ((collOf src x).data = []))) = true
    then some (collOf src x) else none := rfl

theorem podColl_says (h : collSays src x r) (hk : r.kind ≤ 4)
    (hb : if r.kind = 2 ∨ r.kind = 3 then fragmentOk r = true else r.data = []) : podColl src x = some r := by
  obtain ⟨hr, hlen, hrid, hzero⟩ := h
  have hcoll : r = collOf src x := hr
  rw [podColl_eq, ← hcoll]
  refine if_pos ((Bool.and_eq_true _ _).mpr ⟨decide_eq_true ⟨hlen, hrid, hzero, hk⟩, ?_⟩)
  by_cases hc : r.kind = 2 ∨ r.kind = 3
  · rw [if_pos hc] at hb ⊢
    exact hb
  · rw [if_neg hc] at hb ⊢
    exact decide_eq_true hb

/-- The record of a PCOLL that has taken effect. -/
def pcollAns (r : PColl) : PodAns := { xfer := r.xfer, result := 0, data := [] }

/-- A PCOLL of a group that this module is in. -/
theorem takePcoll_member {s : State} {g : PodGroup} (h : podColl src x = some r) (hk : r.kind ≠ 4) (hg : getGroup s r.group = some g)
    (hin : ¬ ((!g.members.contains src) = true ∨ g.channels ≤ r.channel)) : takePcoll x src s =
      if (recorded s src r.xfer).isSome = true then .next (ackPcoll s r)
      else .next (applyPcoll (ackPcoll (withAnswers s (s.hub.answered ++ [(r.xfer, src, pcollAns r)])) r) g r) := by
  rw [takePcoll, h]
  dsimp only
  rw [if_neg hk, hg]
  exact if_neg hin

theorem pcollAck_claim (h : podPasses s 0x50 x.frame src) (hs : collSays src x r) (hk : r.kind = 4) (hd : r.data = []) :
    ∃ t, exec (.pcoll x) s = .next t ∧
      t.hub.xfers = s.hub.xfers.filter (fun x => !decide (x.kind = 4 ∧ x.num = r.xfer ∧ x.peer = src)) := by
  have hsrc : r.src = src := by rw [hs.1]
  refine ⟨ackArrives (podMarked s src x.frame) r, (podFrame_passes h (takePcoll x)).trans ?_, ?_⟩
  · rw [takePcoll, podColl_says hs hk.le (by rw [if_neg (by rw [hk]; decide)]; exact hd)]
    exact if_pos hk
  · rw [← hsrc]
    rfl

theorem pcollNew_claim {g : PodGroup} (h : podPasses s 0x50 x.frame src) (hs : collSays src x r) (hk : r.kind < 4)
    (hg : getGroup s r.group = some g) (hmem : g.members.contains src = true) (hch : r.channel < g.channels)
    (hb : if 2 ≤ r.kind then fragmentOk r = true else r.data = []) :
    (recorded s src r.xfer = none → ∃ u a, u.hub.answered = s.hub.answered ++ [(r.xfer, src, a)] ∧
        u.hub.groups = s.hub.groups ∧ u.far = s.far ∧ u.cores = s.cores ∧ exec (.pcoll x) s = .next (applyPcoll (ackPcoll u r) g r)) ∧
      ((recorded s src r.xfer).isSome = true → exec (.pcoll x) s = .next (ackPcoll (podMarked s src x.frame) r)) := by
  have hfrag : if r.kind = 2 ∨ r.kind = 3 then fragmentOk r = true else r.data = [] := by
    by_cases h2 : 2 ≤ r.kind
    · rw [if_pos (by omega)]
      rwa [if_pos h2] at hb
    · rw [if_neg (by omega)]
      rwa [if_neg h2] at hb
  have hcoll := podColl_says hs hk.le hfrag
  have hgroup : getGroup (podMarked s src x.frame) r.group = some g := hg
  have hin : ¬ ((!g.members.contains src) = true ∨ g.channels ≤ r.channel) := by
    rw [hmem]
    rintro (hc | hc)
    · exact absurd hc (by decide)
    · exact absurd hch (Nat.not_lt.mpr hc)
  have htake : exec (.pcoll x) s = takePcoll x src (podMarked s src x.frame) := podFrame_passes h (takePcoll x)
  rw [htake, takePcoll_member hcoll hk.ne hgroup hin]
  have hrecorded : recorded (podMarked s src x.frame) src r.xfer = recorded s src r.xfer := rfl
  rw [hrecorded]
  have hkept : (podMarked s src x.frame).hub.answered = s.hub.answered := rfl
  generalize hm : podMarked s src x.frame = m at hkept
  have hfar : m.far = s.far := by rw [← hm]; rfl
  have hcores : m.cores = s.cores := by rw [← hm]; rfl
  have hgroups : m.hub.groups = s.hub.groups := by rw [← hm]; rfl
  refine ⟨fun hnone => ?_, fun hsome => if_pos hsome⟩
  rw [hnone]
  exact ⟨withAnswers m (m.hub.answered ++ [(r.xfer, src, pcollAns r)]), _, congrArg (· ++ _) hkept, hgroups, hfar, hcores, rfl⟩

end

/-! Ring entries that are written. -/

/-- A request without the bytes that have still to be written. -/
def entryWritten (r : Request) : Request := { r with entry := [] }

/-- State t with the requests of s. -/
def reqsErased (s t : State) : State := { t with hub := { t.hub with reqs := s.hub.reqs } }

/-- Accesses of lines at their homes, with entries that have been written. -/
structure EntryStep (s t : State) : Prop where
  home : HomeStep s (reqsErased s t)
  reqs : t.hub.reqs.map entryWritten = s.hub.reqs.map entryWritten

section
variable {s t u : State}

theorem HomeStep.withReqs (h : HomeStep s t) (v : State) : HomeStep (reqsErased v s) (reqsErased v t) where
  memories := h.memories
  lines := h.lines
  eq := (congrArg (reqsErased v) h.eq :)
  hub := (congrArg (fun k : Hub => { k with reqs := v.hub.reqs }) h.hub :)
  edge := h.edge
  frames := h.frames

theorem HomeStep.entryStep (h : HomeStep s t) : EntryStep s t where
  home := h.withReqs s
  reqs := by rw [h.reqs]

theorem EntryStep.refl (s : State) : EntryStep s s := (HomeStep.refl s).entryStep

theorem EntryStep.trans (h : EntryStep s t) (k : EntryStep t u) : EntryStep s u where
  home := h.home.trans (k.home.withReqs s)
  reqs := k.reqs.trans h.reqs

theorem EntryStep.foldl {α : Type} {f : State → α → State} (h : ∀ s x, EntryStep s (f s x)) (l : List α) (s : State) :
    EntryStep s (l.foldl f s) := by
  induction l generalizing s with
  | nil => exact EntryStep.refl s
  | cons x l ih => exact (h s x).trans (ih (f s x))

/-- A state in which the entry of a request has been written. -/
def writtenFor (s : State) (r : Request) : State :=
  { s with hub := { s.hub with reqs := s.hub.reqs.map (fun x => if x = r then { x with entry := [] } else x) } }

theorem entryStep_written (s : State) (r : Request) : EntryStep s (writtenFor s r) where
  home := HomeStep.refl s
  reqs := by
    rw [writtenFor, List.map_map]
    refine List.map_congr_left fun x _ => ?_
    rw [Function.comp_apply]
    split <;> rfl

theorem entryStep_flushEntries (s : State) (ctx : Nat) : EntryStep s (flushEntries s ctx) := by
  refine EntryStep.foldl (fun s r => ?_) _ s
  have hrecalls := homeStep_hubRecalls s ctx (ringVa (getBlock s ctx) r.ix) r.entry.length
  dsimp only
  split
  · generalize hubRecalls s ctx (ringVa (getBlock s ctx) r.ix) r.entry.length = x at hrecalls
    obtain ⟨b, s1⟩ := x
    cases b with
    | false => exact hrecalls.entryStep
    | true => exact (HomeStep.trans hrecalls (homeStep_hubWrite s1 ctx _ _)).entryStep.trans (entryStep_written _ r)
  · exact EntryStep.refl s

/-- A list of requests that is longer by one request, but for entries that have been written. -/
theorem getLast?_entries {l : List Request} {k : List Request} {r : Request} (h : l.map entryWritten = (k ++ [r]).map entryWritten) :
    l.length = k.length + 1 ∧ ∃ x, l.getLast? = some x ∧ entryWritten x = entryWritten r := by
  have hlen := congrArg List.length h
  have hlast := congrArg List.getLast? h
  rw [List.length_map, List.length_map, List.length_append, List.length_singleton] at hlen
  rw [List.getLast?_map, List.getLast?_map, List.getLast?_concat, Option.map_some] at hlast
  obtain ⟨x, hx, he⟩ := Option.map_eq_some_iff.mp hlast
  exact ⟨hlen, x, hx, he⟩

end

/-! Requests. -/

theorem badFrame_claim (s : State) (port : Nat) {f : UFrame} (h : f.fcsOk = false ∨ 9216 < arrivedBytes f ∨ answers s = false) :
    ∃ t, exec (.invoke port f) s = .next t ∧ t = { s with edge := { s.edge with portErrors := t.edge.portErrors } } ∧
      alGet 0 t.edge.portErrors port = alGet 0 s.edge.portErrors port + 1 ∧
      (∀ p, p ≠ port → alGet 0 t.edge.portErrors p = alGet 0 s.edge.portErrors p) := by
  have hput : (dropFrame s port).edge.portErrors = alPut s.edge.portErrors port (alGet 0 s.edge.portErrors port + 1) := by
    have hset : (dropFrame s port).edge.portErrors = alSet 0 s.edge.portErrors port (alGet 0 s.edge.portErrors port + 1) := rfl
    rw [hset, alSet, if_neg (Nat.succ_ne_zero _)]
  refine ⟨dropFrame s port, ?_, rfl, ?_, fun p hp => ?_⟩
  · refine if_pos ?_
    rcases h with h | h | h
    · rw [h]; rfl
    · rw [decide_eq_true h, Bool.or_true, Bool.true_or]
    · rw [h, Bool.not_false, Bool.or_true]
  · rw [hput, alGet_alPut_same]
  · rw [hput, alGet_alPut_other _ _ _ hp.symm]

theorem elsewhere_claim (s : State) (port : Nat) {f : UFrame} (hf : f.fcsOk = true) (hlen : arrivedBytes f ≤ 9216) (hup : answers s = true)
    (h : f.origin.udpDst.toNat ≠ uludinPort ∨ ownAddress s f.origin.v6 ≠ some f.origin.dst) : ∃ t bytes, exec (.invoke port f) s = .next t ∧
      sends s t (.management port bytes) ∧ t.hub = s.hub ∧ t.cores = s.cores := by
  refine ⟨emit s (.management port (headerBytes f ++ f.body)), _, ?_, rfl, rfl, rfl⟩
  have harriving : exec (.invoke port f) s = Machine.arriving port f s
    (fun s => if f.session = 0 then podSession port f (fun _ => false) (fun _ s => .next s) s else sessionFrame port f s) := rfl
  rw [harriving, Machine.arriving, hf, hup, if_neg (by rw [decide_eq_false (Nat.not_lt.mpr hlen)]; decide)]
  refine if_pos (h.imp id fun hne => ?_)
  rw [addressedHere, decide_eq_false hne, Bool.not_false]

/-- The request that an INVOKE brings. -/
def broughtRequest (s : State) (port : Nat) (f : UFrame) : Request :=
  { ctx := f.ctx, ix := blkQtail (getBlock s f.ctx), port := port, session := f.session, rid := f.rid,
    digest := Config.shake256 (headerBytes f ++ f.body), origin := f.origin, arrived := s.now - 64,
    entry := entryBytes f port (2 * (s.now - 64)) (Config.shake256 (headerBytes f ++ f.body)) }

/-- A request that enters its ring. -/
theorem reqs_lookupRequest {s : State} (port : Nat) {f : UFrame} (hhalt : blkState (getBlock s f.ctx) ≠ stHalted) (hring : ringFault s f.ctx = none)
    (hroom : (blkQtail (getBlock s f.ctx) + 2 ^ 32 - blkQhead (getBlock s f.ctx)) % 2 ^ 32 ≠ 2 ^ blkQlog2 (getBlock s f.ctx)) :
    (lookupRequest s port f).hub.reqs.map entryWritten = (s.hub.reqs ++ [broughtRequest s port f]).map entryWritten := by
  unfold lookupRequest
  dsimp only
  rw [if_neg hhalt, hring]
  dsimp only
  rw [if_neg hroom]
  have hflush := fun t : State => (entryStep_flushEntries t f.ctx).reqs
  split <;> exact hflush _

theorem invoke_claim (s : State) (port : Nat) {f : UFrame} {x : Session} (h : accepted s f 0 x) (hfault : requestFault s f x.world = none)
    (hhalt : blkState (getBlock s f.ctx) ≠ stHalted) (hring : ringFault s f.ctx = none)
    (hroom : (blkQtail (getBlock s f.ctx) + 2 ^ 32 - blkQhead (getBlock s f.ctx)) % 2 ^ 32 ≠ 2 ^ blkQlog2 (getBlock s f.ctx)) :
    ∃ t r, exec (.invoke port f) s = .next t ∧ t.hub.reqs.length = s.hub.reqs.length + 1 ∧ t.hub.reqs.getLast? = some r ∧
      r.ctx = f.ctx ∧ r.rid = f.rid ∧ r.session = f.session ∧ r.port = port ∧ r.arrived = s.now - 64 ∧
      r.ix = blkQtail (getBlock s f.ctx) := by
  obtain ⟨harrives, hne, htag, hsession, hrole, hfresh⟩ := h
  have htag' : tagGood s f false = true := htag
  have hexec : exec (.invoke port f) s = .next (lookupRequest (setSession s f.session { x with sq := x.sq.mark f.seq }) port f) := by
    have harriving : exec (.invoke port f) s = Machine.arriving port f s
      (fun s => if f.session = 0 then podSession port f (fun _ => false) (fun _ s => .next s) s else sessionFrame port f s) := rfl
    rw [harriving, arriving_arrives harrives, if_neg hne, sessionFrame, hsession]
    dsimp only
    rw [hrole, hfresh, htag', if_neg (by decide), show requestFault (setSession s f.session { x with sq := x.sq.mark f.seq, role := 0 }) f x.world = none
      from hfault]
  have hreqs := reqs_lookupRequest (s := setSession s f.session { x with sq := x.sq.mark f.seq }) port hhalt hring hroom
  obtain ⟨hlen, r, hlast, hr⟩ := getLast?_entries hreqs
  refine ⟨_, r, hexec, hlen, hlast, ?_⟩
  exact ⟨congrArg Request.ctx hr, congrArg Request.rid hr, congrArg Request.session hr, congrArg Request.port hr, congrArg Request.arrived hr,
    congrArg Request.ix hr⟩

/-! Outcomes of sent entries. -/

theorem homeStep_sendFails (s : State) (ctx n : Nat) : HomeStep s (sendFails s ctx n) := (homeStep_hubWrite s ctx _ _).trans (homeStep_hubWrite _ ctx _ _)

theorem homeStep_writeOutcome (s : State) (ctx n : Nat) (reply : Option (Nat × List Byte)) : HomeStep s (writeOutcome s ctx n reply) := by
  unfold writeOutcome
  split
  · exact homeStep_sendFails s ctx n
  · exact (((homeStep_hubWrite s ctx _ _).trans (homeStep_hubWrite _ ctx _ _)).trans (homeStep_hubWrite _ ctx _ _)).trans
      (homeStep_hubWrite _ ctx _ _)

theorem homeStep_keepGrants (l : List Loc) (s : State) : HomeStep s (l.foldl keepGrant s) :=
  HomeStep.foldl (fun s l => (tokenStep_keepGrant s l).homeStep) l s

theorem homeStep_tryOutcome (s : State) (ctx n : Nat) (reply : Option (Nat × List Byte)) : HomeStep s (tryOutcome s ctx n reply).2 := by
  unfold tryOutcome
  dsimp only
  split
  · exact HomeStep.refl s
  · have hrecalls := homeStep_hubRecalls s ctx (sendVa (getBlock s ctx) n) (outcomeBytes reply)
    generalize hubRecalls s ctx (sendVa (getBlock s ctx) n) (outcomeBytes reply) = x at hrecalls
    obtain ⟨b, s1⟩ := x
    cases b with
    | false => exact hrecalls
    | true =>
      have htokens (t a i k : Nat) : HomeStep s (takeTokensOf s1 a t i i k).2 := hrecalls.trans (tokenStep_takeTokensOf s1 a t i i k).homeStep
      dsimp only
      specialize htokens (blkTenant (getBlock s1 ctx)) (sendDie s1 ctx) (2 ^ 65 + 256 * ctx + n % 256) (ceilDiv (outcomeBytes reply) 64)
      generalize takeTokensOf s1 (sendDie s1 ctx) (blkTenant (getBlock s1 ctx)) (2 ^ 65 + 256 * ctx + n % 256)
        (2 ^ 65 + 256 * ctx + n % 256) (ceilDiv (outcomeBytes reply) 64) = y at htokens
      obtain ⟨b, s2⟩ := y
      cases b with
      | false => exact htokens.trans (homeStep_keepGrants _ s2)
      | true => exact htokens.trans (homeStep_writeOutcome s2 ctx n reply)

theorem sends_giveOutcome (s : State) (x : SentInvoke) (reply : Option (Nat × List Byte)) :
    (giveOutcome s x reply).hub.sends = s.hub.sends.erase x := by
  have htry := (homeStep_tryOutcome { s with hub := { s.hub with sends := s.hub.sends.erase x } } x.ctx x.entry reply).sends
  unfold giveOutcome
  generalize tryOutcome { s with hub := { s.hub with sends := s.hub.sends.erase x } } x.ctx x.entry reply = y at htry
  obtain ⟨b, s1⟩ := y
  cases b <;> exact htry

theorem sentReply_claim {s : State} {f : UFrame} {x : Session} {y : SentInvoke} (h : accepted s f 1 x)
    (hy : s.hub.sends.find? (fun y => decide (y.session = f.session ∧ y.rid = f.rid)) = some y)
    (hheader : headerFault f (fun c => decide (c = 0x81 ∨ c = 0x82 ∨ c = 0x83)) y.dest = none) :
    ∃ t, exec (.sentInvokeReply f) s = .next t ∧ t.hub.sends = s.hub.sends.erase y := by
  obtain ⟨harrives, hne, htag, hsession, hrole, hfresh⟩ := h
  have htag' : tagGood s f true = true := htag
  refine ⟨giveOutcome (setSession s f.session { x with sq := x.sq.mark f.seq }) y (some (f.status, f.body)), ?_, sends_giveOutcome _ _ _⟩
  have hexec : exec (.sentInvokeReply f) s = execSentInvokeReply f s := rfl
  rw [hexec, execSentInvokeReply, arriving_arrives harrives, if_neg hne, hsession]
  dsimp only
  rw [if_pos hrole, replyFrame, hfresh, htag', if_neg (by decide)]
  dsimp only
  rw [show (setSession s f.session { x with sq := x.sq.mark f.seq }).hub.sends.find? (fun y => decide (y.session = f.session ∧ y.rid = f.rid)) =
    some y from hy]
  rw [Option.map_some, Option.getD_some, hheader]

theorem sendTimeout_claim {s : State} {x : SentInvoke}
    (h : s.hub.sends.find? (fun y => decide (y.session = x.session ∧ y.rid = x.rid ∧ y.sentAt + 940000000 ≤ s.now)) = some x) :
    ∃ t, exec (.sendTimeout x.session x.rid) s = .next t ∧ t.hub.sends = s.hub.sends.erase x := by
  refine ⟨giveOutcome s x none, ?_, sends_giveOutcome s x none⟩
  have hexec : exec (.sendTimeout x.session x.rid) s = execSendTimeout x.session x.rid s := rfl
  rw [hexec, execSendTimeout, h]

/-! The send ring. -/

theorem doorbell_claim {s : State} {ctx : Nat} (hbell : s.hub.bells.contains ctx = true) (hready : hubReady s false ctx (blkSendq (getBlock s ctx)) 8 = true)
    (hq : blkSendq (getBlock s ctx) ≠ 0) : exec (.sendRingDoorbell ctx) s =
      if !sendRingOk s ctx || decide (256 < (sendSpan s ctx).2) then
        .next (contain (takeEntries ctx [] (hubFetch s ctx (blkSendq (getBlock s ctx)) 8).2) (blkTenant (getBlock s ctx)) 2 ctx 0x48)
      else .next (takeEntries ctx (range' (sendSpan s ctx).1 (sendSpan s ctx).2) (hubFetch s ctx (blkSendq (getBlock s ctx)) 8).2) := by
  have hexec : exec (.sendRingDoorbell ctx) s = execSendRingDoorbell ctx s := rfl
  rw [hexec, execSendRingDoorbell]
  dsimp only
  rw [hbell, hready, if_neg (by decide), if_neg hq]

theorem takeEntries_claim (s : State) (ctx k : Nat) (rest : List Nat) :
    takeEntries ctx [] s = { s with hub := { s.hub with bells := s.hub.bells.erase ctx } } ∧
      (entryFree s ctx (k % 2 ^ 32) = false → takeEntries ctx (k :: rest) s = s) ∧
      (entryFree s ctx (k % 2 ^ 32) = true →
        (∀ u, takeSendTokens s ctx (k % 2 ^ 32) = (true, u) →
          takeEntries ctx (k :: rest) s = takeEntries ctx rest (takeEntry u ctx (k % 2 ^ 32))) ∧
        (∀ u, takeSendTokens s ctx (k % 2 ^ 32) = (false, u) → takeEntries ctx (k :: rest) s = u)) := by
  refine ⟨rfl, fun h => ?_, fun h => ⟨fun u hu => ?_, fun u hu => ?_⟩⟩
  · rw [takeEntries, h]
    rfl
  · rw [takeEntries, h, if_neg (by decide), hu]
  · rw [takeEntries, h, if_neg (by decide), hu]

/-! Links. -/

theorem getLsbD_portBit {port p : Nat} (hp : port < 8) : ((1#8 <<< port : BitVec 8)).getLsbD p = decide (p = port) := by
  rw [BitVec.getLsbD_shiftLeft, BitVec.getLsbD_one]
  by_cases h : p = port
  · subst h
    simp [hp]
  · rw [decide_eq_false h]
    by_cases hlt : p < port
    · simp [hlt]
    · simp only [show ¬ p - port = 0 by omega, decide_false, Bool.and_false]

theorem linkLoss_claim (s : State) {port : Nat} (hp : port < 8) : ∃ t, exec (.linkLoss port) s = .next t ∧ t.edge.links.getLsbD port = false ∧
    (∀ p, p ≠ port → t.edge.links.getLsbD p = s.edge.links.getLsbD p) ∧ t.edge.held = s.edge.held ∧ t.hub = s.hub := by
  have hbit (p : Nat) : (s.edge.links &&& ~~~(1#8 <<< port)).getLsbD p = (s.edge.links.getLsbD p && (decide (p < 8) && !decide (p = port))) := by
    rw [BitVec.getLsbD_and, BitVec.getLsbD_not, getLsbD_portBit hp]
  refine ⟨_, rfl, ?_, fun p hne => ?_, rfl, rfl⟩
  · rw [hbit, decide_eq_true rfl, Bool.not_true, Bool.and_false, Bool.and_false]
  · rw [hbit, decide_eq_false hne, Bool.not_false, Bool.and_true]
    by_cases h8 : p < 8
    · rw [decide_eq_true h8, Bool.and_true]
    · rw [BitVec.getLsbD_of_ge _ _ (Nat.not_lt.mp h8), Bool.false_and]

/-- What leaves the links, the held replies and the hub. -/
def linksKept (s t : State) : Prop := t.edge.links = s.edge.links ∧ t.edge.held = s.edge.held ∧ t.hub = s.hub

theorem linksKept_sendHeld (s : State) (h : HeldReply) : linksKept s (sendHeld s h) := by
  unfold sendHeld
  split <;> exact ⟨rfl, rfl, rfl⟩

theorem linksKept_sendAll (l : List HeldReply) (s : State) : linksKept s (l.foldl sendHeld s) := by
  induction l generalizing s with
  | nil => exact ⟨rfl, rfl, rfl⟩
  | cons h l ih =>
    obtain ⟨hl, hh, hb⟩ := linksKept_sendHeld s h
    obtain ⟨kl, kh, kb⟩ := ih (sendHeld s h)
    exact ⟨kl.trans hl, kh.trans hh, kb.trans hb⟩

theorem linkUp_claim (s : State) {port : Nat} (hp : port < 8) : ∃ t, exec (.linkUp port) s = .next t ∧ t.edge.links.getLsbD port = true ∧
    (∀ p, p ≠ port → t.edge.links.getLsbD p = s.edge.links.getLsbD p) ∧ t.edge.held = s.edge.held.filter (fun h => h.port ≠ port) ∧
    t.hub = s.hub := by
  let s1 : State :=
    { s with edge := { s.edge with links := s.edge.links ||| (1#8 <<< port), held := s.edge.held.filter (fun h => h.port ≠ port) } }
  obtain ⟨hlinks, hheld, hhub⟩ := linksKept_sendAll (s.edge.held.filter (fun h => h.port = port)) s1
  have hbit (p : Nat) : s1.edge.links.getLsbD p = (s.edge.links.getLsbD p || decide (p = port)) := by
    rw [BitVec.getLsbD_or, getLsbD_portBit hp]
  refine ⟨_, rfl, ?_, fun p hne => ?_, hheld, hhub⟩
  · rw [hlinks, hbit, decide_eq_true rfl, Bool.or_true]
  · rw [hlinks, hbit, decide_eq_false hne, Bool.or_false]

/-! The obligation. -/

theorem atomics_le : ∀ k ∈ Claims.atomics, k.2.1 ≤ 9 := by
  simp only [Claims.atomics, List.forall_mem_cons]
  exact ⟨by decide, by decide, by decide, by decide, by decide, by decide, by decide, by decide, by decide, by decide, fun _ h => nomatch h⟩

/-- Settles O52: the transfers at their home, the answers, the resends, the collectives, the requests, the send ring and the links, each as it
is stated. -/
theorem podEvents : Obligations.PodEvents := by
  unfold Obligations.PodEvents
  intro s
  refine ⟨?_, ?_, ?_, ?_, ?_, ?_, ?_, ?_, ?_, ?_, ?_, ?_, ?_, ?_, ?_, ?_, ?_, ?_⟩
  · intro f src r hpass hasks hserves ha hfn hmask hlen hopen
    exact pload_claim ⟨hpass, hasks, hserves, decide_eq_true ⟨hlen, hfn, hmask, ha⟩⟩ ha hopen
  · intro f src r hpass hasks hserves ha hfn hlen
    exact pstore_claim ⟨hpass, hasks, hserves, decide_eq_true ⟨hlen, hfn, ha⟩⟩ ha hlen
  · intro k hk f src r hpass hasks hserves ha hfn hmask hlen hzero hopen
    have hrest : bodyField f.body 0x30 48 = 0 := by
      rw [bodyField, List.take_of_length_le (by rw [List.length_drop, length_body hpass, hlen])]
      rw [podAsks_data hasks, List.drop_drop] at hzero
      exact hzero
    have hclaim := patom_claim ⟨hpass, hasks, hserves, decide_eq_true ⟨hlen, hfn ▸ atomics_le k hk, hmask, ha, hrest⟩⟩ ha hopen rfl
    rw [hfn, atomFn_of_mem k hk] at hclaim
    exact hclaim
  · intro f src r a hpass hasks ha hfn hmask hlen
    have hshape : podShape 0x40 f r = true := decide_eq_true ⟨hlen, hfn, hmask, ha⟩
    exact ⟨repeated_claim hpass hasks hshape, refused_claim hpass hasks hshape⟩
  · intro f src x hpass hx hk hc hnum hzero hlen result hresult
    exact preply_claim hpass hx hk hc hnum hzero hlen hresult
  · intro n x hx hdue
    exact resend_claim hx hdue
  · intro x src r hpass hs hk hd
    exact pcollAck_claim hpass hs hk hd
  · intro x src r g hpass hs hk hg hmem hch hb
    exact pcollNew_claim hpass hs hk hg hmem hch hb
  · intro port f h
    exact badFrame_claim s port h
  · intro port f hf hlen hup h
    exact elsewhere_claim s port hf hlen hup h
  · intro port f x h hfault hhalt hring hroom
    exact invoke_claim s port h hfault hhalt hring hroom
  · intro f x y h hy hheader
    exact sentReply_claim h hy hheader
  · intro ctx hbell hready hq b hdr n u
    have hexec := doorbell_claim hbell hready hq
    refine ⟨fun hok hn => ?_, fun hbad => ?_⟩
    · rw [hexec, hok, if_neg (by rw [decide_eq_false (Nat.not_lt.mpr hn : ¬ 256 < (sendSpan s ctx).2)]; decide)]
      rfl
    · rw [hexec, if_pos (by
        refine (Bool.or_eq_true _ _).mpr (hbad.imp (fun hbad => ?_) fun hbad => decide_eq_true hbad)
        rw [hbad]
        rfl)]
  · intro ctx k rest
    exact takeEntries_claim s ctx k rest
  · intro x h
    exact sendTimeout_claim h
  · intro port bytes
    exact ⟨_, rfl, rfl, rfl, rfl⟩
  · intro port hp
    exact linkLoss_claim s hp
  · intro port hp
    exact linkUp_claim s hp

end Sys2Proof.Proofs
end

section
/-! PROOF. Host DMA: a request cut into the pieces of its lines, written and read line by line (R208, R220, R311). -/

namespace Sys2Proof.Proofs

open Sys2Proof.Machine Sys2Proof.Claims Sys2Proof.Laws

/-! The pieces of a span. -/

/-- A list of pieces of lines that covers `n` bytes from `a` on, each piece within its line and all but the last up to its end. -/
def Tiles : Nat → Nat → List (Nat × Nat × Nat) → Prop
  | _, n, [] => n = 0
  | a, n, (k, off, m) :: rest => 64 * k + off = a ∧ off + m ≤ 64 ∧ 0 < m ∧ m ≤ n ∧ (rest = [] ∨ off + m = 64) ∧ Tiles (a + m) (n - m) rest

/-- The piece of a span that lies in line `k`. -/
def pieceOf (a n k : Nat) : Nat × Nat × Nat := (k, max a (64 * k) - 64 * k, min (a + n) (64 * k + 64) - max a (64 * k))

theorem tiles_from {a n : Nat} (hn : 0 < n) (c k : Nat) (hk : a / 64 ≤ k) (hend : k + c = (a + n - 1) / 64 + 1) :
    Tiles (max a (64 * k)) (a + n - max a (64 * k)) ((range' k c).map (pieceOf a n)) := by
  induction c generalizing k with
  | zero =>
    change a + n - max a (64 * k) = 0
    omega
  | succ c ih =>
    have hrest := ih (k + 1) (by omega) (by omega)
    have hsum : max a (64 * k) + (min (a + n) (64 * k + 64) - max a (64 * k)) = min (a + n) (64 * k + 64) := by omega
    refine ⟨by omega, by omega, by omega, by omega, ?_, ?_⟩
    · cases c with
      | zero => exact .inl rfl
      | succ c => exact .inr (by omega)
    · rw [hsum, show a + n - max a (64 * k) - (min (a + n) (64 * k + 64) - max a (64 * k)) = a + n - min (a + n) (64 * k + 64) by omega]
      cases c with
      | zero =>
        change a + n - min (a + n) (64 * k + 64) = 0
        omega
      | succ c =>
        rw [show min (a + n) (64 * k + 64) = max a (64 * (k + 1)) by omega]
        exact hrest

theorem tiles_pieces (a n : Nat) : Tiles a n (pieces a n) := by
  rcases Nat.eq_zero_or_pos n with rfl | hn
  · rfl
  · have h := tiles_from hn ((a + n - 1) / 64 - a / 64 + 1) (a / 64) le_rfl (by omega)
    rw [show max a (64 * (a / 64)) = a by omega, show a + n - a = n by omega] at h
    rw [pieces, spanChunks_one a n (by omega)]
    exact h

/-- The lines after a piece lie above it. -/
theorem tiles_above {a n : Nat} {l : List (Nat × Nat × Nat)} (h : Tiles a n l) : ∀ p ∈ l, a < 64 * p.1 + 64 := by
  induction l generalizing a n with
  | nil => exact fun _ h => nomatch h
  | cons q l ih =>
    obtain ⟨hstart, hline, hpos, -, -, hrest⟩ := h
    intro p hp
    rcases List.mem_cons.mp hp with rfl | hp
    · omega
    · have hnext := ih hrest p hp
      omega

theorem tiles_tail {a n : Nat} {p : Nat × Nat × Nat} {l : List (Nat × Nat × Nat)} (h : Tiles a n (p :: l)) : ∀ q ∈ l, q.1 ≠ p.1 := by
  obtain ⟨hstart, hline, hpos, -, hfull, hrest⟩ := h
  intro q hq
  have hnext := tiles_above hrest q hq
  rcases hfull with rfl | hfull
  · exact absurd hq List.not_mem_nil
  · omega

/-! A write of one line, and the others. -/

theorem alGet_alDel_other {α : Type} (d : α) (l : List (Nat × α)) {n m : Nat} (h : n ≠ m) : alGet d (alDel l n) m = alGet d l m := by
  induction l with
  | nil => rfl
  | cons e l ih =>
    obtain ⟨k, v⟩ := e
    rw [alDel]
    split
    · rfl
    · split
      next hk => rw [alGet, if_neg (fun hc => h (hk.trans hc))]
      · rw [alGet, alGet, ih]

theorem alGet_alSet_other {α : Type} [DecidableEq α] (d : α) (l : List (Nat × α)) {n m : Nat} (x : α) (h : n ≠ m) :
    alGet d (alSet d l n x) m = alGet d l m := by
  rw [alSet]
  split
  · exact alGet_alDel_other d l h
  · exact alGet_alPut_other d l x h

/-- A line other than the written one keeps its version. -/
theorem lineVer_homeWrite_other {s : State} {g : Option Gang} {pa k : Nat} {mask : BitVec 64} {data : BitVec 512}
    (h : mask = BitVec.allOnes 64 ∨ mergesAt s g pa) (hne : pa / 64 ≠ k) :
    alGet 0 (homeWrite s g pa mask data).lineVer k = alGet 0 s.lineVer k := by
  by_cases hh : isHbm pa = true
  · rw [(homeWrite_merges h).2.2 hh, alGet_alSet_other 0 _ _ hne]
  · have hno : ¬ (isBad s pa = true ∧ mask ≠ BitVec.allOnes 64) := fun hc => by
      rcases h with h | h
      · exact hc.2 h
      · exact absurd (hc.1.symm.trans h.1) (by decide)
    rw [homeWrite_eq, openForMerge_merges h, if_neg hno, if_neg hh]
    rfl

theorem SameBuffers.lineOpens_at {s t : State} (h : SameBuffers s t) {pa : Nat} (hv : alGet 0 t.lineVer (pa / 64) = alGet 0 s.lineVer (pa / 64))
    (g : Option Gang) : Machine.lineOpens t g pa = Machine.lineOpens s g pa := by
  unfold Machine.lineOpens
  rw [hv, h.writeVersion, h.lineBuf]
  simp only [h.getBuf]

/-- A write of one line leaves another one open for merges. -/
theorem mergesAt_homeWrite_other {s : State} {g : Option Gang} {pa pb : Nat} {mask : BitVec 64} {data : BitVec 512}
    (h : mask = BitVec.allOnes 64 ∨ mergesAt s g pa) (hne : pa / 64 ≠ pb / 64) (hm : mergesAt s g pb) :
    mergesAt (homeWrite s g pa mask data) g pb := by
  have hbufs := (homeStep_homeWrite s g pa mask data).sameBuffers
  refine ⟨?_, fun hh => (hbufs.lineOpens_at (lineVer_homeWrite_other h hne) g).trans (hm.2 hh)⟩
  rw [isBad, (homeWrite_merges h).2.1, alGet_alSet_other false _ _ hne]
  exact hm.1

/-! Writes. -/

/-- The line that a piece of a request writes. -/
def pieceLine (off m : Nat) (bs : List Byte) : BitVec 512 := lineOfBytes (List.replicate off 0#8 ++ bs.take m)

theorem nthD_pieceLine {off m i : Nat} {bs : List Byte} (h : off + m ≤ 64) (hi : i < m) (hb : m ≤ bs.length) :
    (pieceLine off m bs).extractLsb' (8 * (off + i)) 8 = nthD bs i 0#8 := by
  have hlen : (List.replicate off 0#8 ++ bs.take m).length ≤ 64 := by
    rw [List.length_append, List.length_replicate, List.length_take]
    omega
  rw [pieceLine, extract_lineOfBytes _ hlen, nthD, nthD, List.getElem?_append_right (by rw [List.length_replicate]; omega),
    List.length_replicate, Nat.add_sub_cancel_left, List.getElem?_take, if_pos hi]

theorem nthD_drop {α : Type} (l : List α) (m i : Nat) (d : α) : nthD (l.drop m) i d = nthD l (m + i) d := by
  rw [nthD, nthD, List.getElem?_drop]

/-- The lines of a request can be written at their homes. -/
def Writable (s : State) (l : List (Nat × Nat × Nat)) : Prop := ∀ p ∈ l, registered s (64 * p.1) = none ∧ mergesAt s none (64 * p.1)

/-- One piece written. -/
def pieceWritten (s : State) (k off m : Nat) (bs : List Byte) : State :=
  writeLine (nextStamp s).2 none (64 * k) (runMask off m) (pieceLine off m bs)

theorem homeStep_pieceWritten (s : State) (k off m : Nat) (bs : List Byte) : HomeStep s (pieceWritten s k off m bs) :=
  (homeStep_nextStamp s).trans (homeStep_writeLine _ _ _ _ _)

section
variable {s : State} {k off m : Nat} {bs : List Byte} {rest : List (Nat × Nat × Nat)}

theorem pieceWritten_eq (h : registered s (64 * k) = none) :
    pieceWritten s k off m bs = homeWrite (nextStamp s).2 none (64 * k) (runMask off m) (pieceLine off m bs) :=
  writeLine_home (((sameLines_nextStamp s).registered _).trans h)

theorem writable_pieceWritten (h : Writable s ((k, off, m) :: rest)) (hne : ∀ q ∈ rest, q.1 ≠ k) : Writable (pieceWritten s k off m bs) rest := by
  obtain ⟨hreg, hmerges⟩ := h _ List.mem_cons_self
  have hstamp := sameLines_nextStamp s
  intro q hq
  obtain ⟨qreg, qmerges⟩ := h q (List.mem_cons_of_mem _ hq)
  have hdiff : 64 * k / 64 ≠ 64 * q.1 / 64 := fun hc => hne q hq (by omega)
  rw [pieceWritten_eq hreg]
  exact ⟨((sameHolders_homeWrite _ _ _ _ _).registered _).trans ((hstamp.registered _).trans qreg),
    mergesAt_homeWrite_other (.inr (hstamp.mergesAt hmerges)) hdiff (hstamp.mergesAt qmerges)⟩

/-- The bytes of a piece, and the others. -/
theorem memRead_pieceWritten (h : Writable s ((k, off, m) :: rest)) (hwf : memWf s.far = true) (hline : off + m ≤ 64) (hb : m ≤ bs.length) :
    (∀ i, i < m → memRead (pieceWritten s k off m bs).far (64 * k + off + i) = nthD bs i 0#8) ∧
      ∀ a, (a < 64 * k + off ∨ 64 * k + off + m ≤ a) → memRead (pieceWritten s k off m bs).far a = memRead s.far a := by
  obtain ⟨hreg, hmerges⟩ := h _ List.mem_cons_self
  have hstamp := sameLines_nextStamp s
  have hread := memRead_homeWrite (data := pieceLine off m bs) (mask := runMask off m) (.inr (hstamp.mergesAt hmerges))
    (by rw [hstamp.far]; exact hwf)
  rw [pieceWritten_eq hreg]
  refine ⟨fun i hi => ?_, fun a ha => ?_⟩
  · have hoff : 64 * k + off + i - 64 * k = off + i := by omega
    rw [hread, hoff, getLsbD_runMask (by omega), decide_eq_true (by omega : off ≤ off + i ∧ off + i < off + m), if_pos (by
      refine ⟨?_, ?_, rfl⟩ <;> omega), nthD_pieceLine hline hi hb]
  · rw [hread, hstamp.far]
    refine if_neg fun hc => ?_
    obtain ⟨hlo, hhi, hbit⟩ := hc
    rw [getLsbD_runMask (by omega), decide_eq_true_iff] at hbit
    omega

end

/-- A request written line by line changes exactly its bytes. -/
theorem dmaWrite_tiles (l : List (Nat × Nat × Nat)) {a n : Nat} {bs : List Byte} {s : State} (ht : Tiles a n l) (hlen : bs.length = n)
    (h : Writable s l) (hwf : memWf s.far = true) :
    (∀ i, i < n → memRead (dmaWrite s l bs).far (a + i) = nthD bs i 0#8) ∧
      (∀ x, (x < a ∨ a + n ≤ x) → memRead (dmaWrite s l bs).far x = memRead s.far x) ∧ HomeStep s (dmaWrite s l bs) := by
  induction l generalizing a n bs s with
  | nil =>
    have hn : n = 0 := ht
    exact ⟨fun i hi => by omega, fun _ _ => rfl, HomeStep.refl s⟩
  | cons p l ih =>
    obtain ⟨k, off, m⟩ := p
    have hdistinct := tiles_tail ht
    obtain ⟨hstart, hline, hpos, hle, -, hrest⟩ := ht
    have hstep := homeStep_pieceWritten s k off m bs
    obtain ⟨hin, hout⟩ := memRead_pieceWritten h hwf hline (by omega : m ≤ bs.length)
    have hfar : memWf (pieceWritten s k off m bs).far = true := by
      rw [pieceWritten_eq (h _ List.mem_cons_self).1]
      have hstamp := sameLines_nextStamp s
      rw [(homeWrite_merges (.inr (hstamp.mergesAt (h _ List.mem_cons_self).2))).1]
      exact memWf_lineWritten (by rw [hstamp.far]; exact hwf) _ _ _
    obtain ⟨rin, rout, rstep⟩ := ih hrest (by rw [List.length_drop, hlen] : (bs.drop m).length = n - m) (writable_pieceWritten h hdistinct) hfar
    have heq : dmaWrite s ((k, off, m) :: l) bs = dmaWrite (pieceWritten s k off m bs) l (bs.drop m) := rfl
    rw [heq]
    refine ⟨fun i hi => ?_, fun x hx => ?_, hstep.trans rstep⟩
    · by_cases him : i < m
      · rw [rout _ (by omega), ← hstart, hin i him]
      · have hread := rin (i - m) (by omega)
        rw [nthD_drop, show a + m + (i - m) = a + i by omega, show m + (i - m) = i by omega] at hread
        exact hread
    · rw [rout x (by omega), hout x (by omega)]

/-! Reads. -/

/-- The lines of a request can be read at their homes as they stand in memory. -/
def Readable (s : State) (l : List (Nat × Nat × Nat)) : Prop :=
  ∀ p ∈ l, registered s (64 * p.1) = none ∧ mergesAt s none (64 * p.1) ∧ slotOpen s (64 * p.1) = false

/-- Lines have been read at their homes: the order of the L2s and the clock of accesses have changed. -/
structure ReadStep (s t : State) : Prop where
  same : SameLines s t
  eq : { t with dies := s.dies, clock := s.clock } = s

section
variable {s t u : State}

theorem ReadStep.refl (s : State) : ReadStep s s := ⟨SameLines.refl s, rfl⟩

theorem ReadStep.trans (h : ReadStep s t) (k : ReadStep t u) : ReadStep s u where
  same := h.same.trans k.same
  eq := (congrArg (fun v : State => { v with dies := s.dies, clock := s.clock }) k.eq :).trans h.eq

theorem ReadStep.cores (h : ReadStep s t) : t.cores = s.cores := (congrArg State.cores h.eq :)

theorem ReadStep.edge (h : ReadStep s t) : t.edge = s.edge := (congrArg State.edge h.eq :)

theorem ReadStep.slotOpen (h : ReadStep s t) (pa : Nat) : slotOpen t pa = slotOpen s pa := (congrArg (Machine.slotOpen · pa) h.eq :)

theorem ReadStep.readable {l : List (Nat × Nat × Nat)} (h : ReadStep s t) (hr : Readable s l) : Readable t l := fun p hp => by
  obtain ⟨hreg, hmerges, hopen⟩ := hr p hp
  exact ⟨(h.same.registered _).trans hreg, h.same.mergesAt hmerges, (h.slotOpen _).trans hopen⟩

end

theorem readStep_touchL2 (s : State) (pa : Nat) : ReadStep s (touchL2 s pa) where
  same := sameLines_touchL2 s pa
  eq := by
    unfold touchL2
    split <;> rfl

theorem readStep_nextStamp (s : State) : ReadStep s (nextStamp s).2 := ⟨sameLines_nextStamp s, by cases s; rfl⟩

theorem hubLine_good {s : State} {l : Loc} (h : ¬ (readLine s none l.pa).2 = true) :
    hubLine s l = ((readLine s none l.pa).1.map (fun b => (b, false)), noteRead s none l.pa) := by
  rw [hubLine]
  exact if_neg h

/-- A line that has failed is read as free bytes, poisoned. -/
theorem hubLine_bad {s : State} {l : Loc} (h : (readLine s none l.pa).2 = true) :
    hubLine s l = ((range' (noteRead s none l.pa).freeCtr 64).map (fun k => (Config.freeByte k, true)),
      { noteRead s none l.pa with freeCtr := (noteRead s none l.pa).freeCtr + 64 }) := by
  rw [hubLine]
  exact if_pos h

/-- A line that can be read at its home as it stands in memory. -/
theorem hubLine_readable {s : State} {pa : Nat} (hreg : registered s pa = none) (hmerges : mergesAt s none pa) (hopen : slotOpen s pa = false) :
    hubLine s { peer := none, pa := pa } = ((memReadN s.far pa 64).map (fun b => (b, false)), touchL2 s pa) := by
  have hline := readLine_home hreg hmerges
  rw [homeBytes_closed hopen] at hline
  rw [hubLine_good (by rw [hline]; exact Bool.false_ne_true), hline, noteRead_merges hreg hmerges]

theorem memReadN_add (m : Memory) (a k n : Nat) : memReadN m a (k + n) = memReadN m a k ++ memReadN m (a + k) n := by
  refine List.ext_getElem? fun i => ?_
  rw [getElem?_memReadN]
  by_cases hi : i < k
  · rw [List.getElem?_append_left (by rw [memReadN_length]; exact hi), getElem?_memReadN, if_pos hi, if_pos (by omega)]
  · rw [List.getElem?_append_right (by rw [memReadN_length]; omega), memReadN_length, getElem?_memReadN]
    by_cases hn : i < k + n
    · rw [if_pos hn, if_pos (by omega), show a + k + (i - k) = a + i by omega]
    · rw [if_neg hn, if_neg (by omega)]

theorem dmaRead_cons (s : State) (k off n : Nat) (l : List (Nat × Nat × Nat)) : dmaRead s ((k, off, n) :: l) =
    (((hubLine s { peer := none, pa := 64 * k }).1.drop off).take n ++ (dmaRead (nextStamp (hubLine s { peer := none, pa := 64 * k }).2).2 l).1,
      (dmaRead (nextStamp (hubLine s { peer := none, pa := 64 * k }).2).2 l).2) := rfl

/-- A request read line by line gives the bytes of memory. -/
theorem dmaRead_tiles (l : List (Nat × Nat × Nat)) {a n : Nat} {s : State} (ht : Tiles a n l) (h : Readable s l) :
    (dmaRead s l).1 = (memReadN s.far a n).map (fun b => (b, false)) ∧ ReadStep s (dmaRead s l).2 := by
  induction l generalizing a n s with
  | nil =>
    have hn : n = 0 := ht
    rw [hn]
    exact ⟨rfl, ReadStep.refl s⟩
  | cons p l ih =>
    obtain ⟨k, off, m⟩ := p
    obtain ⟨hstart, hline, hpos, hle, -, hrest⟩ := ht
    obtain ⟨hreg, hmerges, hopen⟩ := h _ List.mem_cons_self
    have hhub := hubLine_readable hreg hmerges hopen
    have hstep : ReadStep s (nextStamp (touchL2 s (64 * k))).2 := (readStep_touchL2 s (64 * k)).trans (readStep_nextStamp _)
    obtain ⟨rbytes, rstep⟩ := ih hrest (hstep.readable fun q hq => h q (List.mem_cons_of_mem _ hq))
    rw [dmaRead_cons, hhub]
    refine ⟨?_, hstep.trans rstep⟩
    dsimp only
    rw [rbytes, hstep.same.far, ← List.map_drop, ← List.map_take, drop_take_memReadN _ _ _ _ _ hline, hstart, ← List.map_append,
      ← memReadN_add, Nat.add_sub_cancel' hle]

/-! The request. -/

section
variable {s : State} {pa : Nat} {bytes : List Byte}

theorem lineHeld_home {l : Loc} (hp : l.peer = none) (h : registered s l.pa = none) : lineHeld s l = false := by
  rw [lineHeld, holderOf_home hp, h]

/-- No piece of a request lies in the reserved range. -/
theorem exec_hostDma (h : ∀ p ∈ pieces pa bytes.length, isHole (64 * p.1) = false) (w : Bool) : exec (.hostDma w pa bytes) s =
    match tryDma w pa bytes s with
    | (true, s1) => .next s1
    | (false, s1) => .next { s1 with waiting := s1.waiting ++ [.dma w pa bytes] } := by
  have hany : ¬ (pieces pa bytes.length).any (fun p => isHole (64 * p.1)) = true := by
    rw [List.any_eq_true]
    rintro ⟨p, hp, hh⟩
    exact absurd (hh.symm.trans (h p hp)) (by decide)
  exact if_neg hany

theorem hostDma_hole (h : ∃ p ∈ pieces pa bytes.length, isHole (64 * p.1) = true) (w : Bool) : exec (.hostDma w pa bytes) s = .next (reject s 0) :=
  if_pos (List.any_eq_true.mpr h)

theorem any_dmaLines {f : Loc → Bool} {l : List (Nat × Nat × Nat)} (h : ∀ p ∈ l, f { peer := none, pa := 64 * p.1 } = false) :
    ¬ (dmaLines l).any f = true := by
  rw [List.any_eq_true]
  rintro ⟨x, hx, hf⟩
  obtain ⟨p, hp, rfl⟩ := List.mem_map.mp hx
  exact absurd (hf.symm.trans (h p hp)) (by decide)

theorem hostDma_write (hhole : ∀ p ∈ pieces pa bytes.length, isHole (64 * p.1) = false)
    (h : ∀ p ∈ pieces pa bytes.length, lineTakes s none (64 * p.1)) (hwf : memWf s.far = true) :
    ∃ t, exec (.hostDma true pa bytes) s = .next t ∧ (∀ i, i < bytes.length → memRead t.far (pa + i) = nthD bytes i 0#8) ∧
      (∀ a, (a < pa ∨ pa + bytes.length ≤ a) → memRead t.far a = memRead s.far a) ∧ t.cores = s.cores := by
  have hholder (p : Nat × Nat × Nat) (hp : p ∈ pieces pa bytes.length) : holderOf s { peer := none, pa := 64 * p.1 } = none := (h p hp).1
  have htry : tryDma true pa bytes s = (true, dmaWrite s (pieces pa bytes.length) bytes) := by
    have hready (p : Nat × Nat × Nat) (hp : p ∈ pieces pa bytes.length) : (lineHeld s { peer := none, pa := 64 * p.1 } ||
        (true && (recallHeld s { peer := none, pa := 64 * p.1 } || sealWaits s { peer := none, pa := 64 * p.1 }))) = false := by
      obtain ⟨hreg, -, -, hseal⟩ := h p hp
      have hheld : lineHeld s { peer := none, pa := 64 * p.1 } = false := lineHeld_home rfl hreg
      have hrecall : recallHeld s { peer := none, pa := 64 * p.1 } = false := by rw [recallHeld, hheld, hholder p hp]; rfl
      rw [hheld, hrecall, hseal]
      rfl
    have hlines (x : Loc) (hx : x ∈ dmaLines (pieces pa bytes.length)) : holderOf s x = none := by
      obtain ⟨p, hp, rfl⟩ := List.mem_map.mp hx
      exact hholder p hp
    rw [tryDma]
    dsimp only
    rw [if_neg (any_dmaLines hready), if_pos rfl, takeRecalls_home hlines]
  obtain ⟨hin, hout, hstep⟩ := dmaWrite_tiles _ (tiles_pieces pa bytes.length) rfl
    (fun p hp => ⟨(h p hp).1, mergesAt_of_lineTakes (h p hp)⟩) hwf
  refine ⟨_, ?_, hin, hout, hstep.cores⟩
  rw [exec_hostDma hhole, htry]

/-- A read whose lines stand in no held quad performs. -/
theorem tryDma_read (h : ∀ p ∈ pieces pa bytes.length, registered s (64 * p.1) = none) : tryDma false pa bytes s =
    (true, emit (dmaRead s (pieces pa bytes.length)).2 (.dmaData pa (dmaRead s (pieces pa bytes.length)).1)) := by
  have hready (p : Nat × Nat × Nat) (hp : p ∈ pieces pa bytes.length) : (lineHeld s { peer := none, pa := 64 * p.1 } ||
      (false && (recallHeld s { peer := none, pa := 64 * p.1 } || sealWaits s { peer := none, pa := 64 * p.1 }))) = false := by
    rw [lineHeld_home rfl (h p hp), Bool.false_and, Bool.or_false]
  rw [tryDma]
  dsimp only
  rw [if_neg (any_dmaLines hready), if_neg (by decide)]

theorem hostDma_read (hhole : ∀ p ∈ pieces pa bytes.length, isHole (64 * p.1) = false) (h : Readable s (pieces pa bytes.length)) :
    ∃ t, exec (.hostDma false pa bytes) s = .next t ∧ sends s t (.dmaData pa ((memReadN s.far pa bytes.length).map (fun b => (b, false)))) ∧
      t.far = s.far ∧ t.cores = s.cores := by
  obtain ⟨hbytes, hstep⟩ := dmaRead_tiles _ (tiles_pieces pa bytes.length) h
  have htry := tryDma_read fun p hp => (h p hp).1
  rw [hbytes] at htry
  refine ⟨emit (dmaRead s (pieces pa bytes.length)).2 (.dmaData pa ((memReadN s.far pa bytes.length).map (fun b => (b, false)))), ?_, ?_,
    hstep.same.far, hstep.cores⟩
  · rw [exec_hostDma hhole, htry]
  · exact congrArg (fun e : Edge => e.outbox ++ _) hstep.edge

/-- State s after poisoned bytes have been read. -/
def freeBytesTaken (s : State) : State := { s with freeCtr := s.freeCtr + 64 }

/-- A read of bytes of a line that has failed gives them poisoned. -/
theorem dmaRead_bad {k off n : Nat} (hbad : (readLine s none (64 * k)).2 = true) : dmaRead s [(k, off, n)] =
    ((((range' (noteRead s none (64 * k)).freeCtr 64).map (fun k => (Config.freeByte k, true))).drop off).take n,
      (nextStamp (freeBytesTaken (noteRead s none (64 * k)))).2) := by
  have hhub := hubLine_bad (l := { peer := none, pa := 64 * k }) hbad
  rw [dmaRead_cons, hhub, dmaRead, List.append_nil]
  rfl

theorem poisoned_part {f off n : Nat} (hline : off + n ≤ 64) :
    let l := ((((range' f 64).map (fun k => (Config.freeByte k, true))).drop off).take n)
    l.length = n ∧ ∀ e ∈ l, e.2 = true := by
  refine ⟨?_, fun e he => ?_⟩
  · rw [List.length_take, List.length_drop, List.length_map, range'_length]
    omega
  · obtain ⟨x, -, rfl⟩ := List.mem_map.mp (List.mem_of_mem_drop (List.mem_of_mem_take he))
    rfl

/-- Delivering the bytes of a read leaves the rest of the state. -/
theorem emit_poisoned (v : State) (m : Outgoing) :
    (emit (nextStamp (freeBytesTaken v)).2 m).edge.outbox = v.edge.outbox ++ [m] ∧ (emit (nextStamp (freeBytesTaken v)).2 m).far = v.far ∧
      (emit (nextStamp (freeBytesTaken v)).2 m).cores = v.cores := by
  cases v
  exact ⟨rfl, rfl, rfl⟩

theorem hostDma_failed (hhole : ∀ p ∈ pieces pa bytes.length, isHole (64 * p.1) = false) {k off n : Nat}
    (hp : pieces pa bytes.length = [(k, off, n)]) (hreg : registered s (64 * k) = none) (hbad : (readLine s none (64 * k)).2 = true) :
    ∃ t l, exec (.hostDma false pa bytes) s = .next t ∧ sends s t (.dmaData pa l) ∧ l.length = n ∧ (∀ e ∈ l, e.2 = true) ∧
      t.far = s.far ∧ t.cores = s.cores := by
  have hline : off + n ≤ 64 := by
    have ht := tiles_pieces pa bytes.length
    rw [hp] at ht
    exact ht.2.1
  have htry := tryDma_read (bytes := bytes) (pa := pa) (s := s) (by rw [hp]; intro p hm; rw [List.mem_singleton.mp hm]; exact hreg)
  rw [hp, dmaRead_bad hbad] at htry
  have hexec := exec_hostDma (s := s) hhole false
  rw [htry] at hexec
  have hnote := homeStep_noteRead s none (64 * k)
  have hfar : (noteRead s none (64 * k)).far = s.far := (congrArg State.far (fetch_noteRead s none (64 * k)).eq :)
  generalize noteRead s none (64 * k) = v at hnote hfar hexec
  obtain ⟨hlen, hpoison⟩ := poisoned_part (f := v.freeCtr) hline
  obtain ⟨hout, hmem, hcores⟩ := emit_poisoned v (Outgoing.dmaData pa ((((range' v.freeCtr 64).map (fun k => (Config.freeByte k, true))).drop off).take n))
  exact ⟨_, _, hexec, hout.trans (congrArg (· ++ _) hnote.outbox), hlen, hpoison, hmem.trans hfar, hcores.trans hnote.cores⟩

theorem hostDma_held (hhole : ∀ p ∈ pieces pa bytes.length, isHole (64 * p.1) = false) (w : Bool)
    (h : ∃ p ∈ pieces pa bytes.length, lineHeld s { peer := none, pa := 64 * p.1 } = true) :
    exec (.hostDma w pa bytes) s = .next { s with waiting := s.waiting ++ [.dma w pa bytes] } := by
  obtain ⟨p, hp, hheld⟩ := h
  have htry : tryDma w pa bytes s = (false, s) := by
    refine if_pos (List.any_eq_true.mpr ⟨{ peer := none, pa := 64 * p.1 }, List.mem_map.mpr ⟨p, hp, rfl⟩, ?_⟩)
    rw [hheld, Bool.true_or]
  rw [exec_hostDma hhole, htry]

end

end Sys2Proof.Proofs
end

section
/-! PROOF. The host link: writes that are made or rejected, segments, assays, interfaces, translations (R40, R214, R281, R300, R327 to R333,
R339, R349, R350). -/

namespace Sys2Proof.Proofs

open Sys2Proof.Machine Sys2Proof.Claims Sys2Proof.Laws

/-! Lists by key. -/

section
variable {α : Type}

theorem find?_above {lo : Nat} {l : List (Nat × α)} (h : alRising (some lo) l = true) {n : Nat} (hn : n ≤ lo) : l.find? (fun e => e.1 = n) = none := by
  induction l generalizing lo with
  | nil => rfl
  | cons e t ih =>
    obtain ⟨k, v⟩ := e
    obtain ⟨hk, ht⟩ := Bool.and_eq_true_iff.mp h
    have hlt : lo < k := of_decide_eq_true hk
    rw [List.find?_cons, decide_eq_false (by dsimp only; omega)]
    exact ih ht (by omega)

theorem find?_alDel_same {lo : Option Nat} {l : List (Nat × α)} (h : alRising lo l = true) (n : Nat) : (alDel l n).find? (fun e => e.1 = n) = none := by
  induction l generalizing lo with
  | nil => rfl
  | cons e t ih =>
    obtain ⟨k, v⟩ := e
    have ht : alRising (some k) t = true := by
      cases lo with
      | none => exact h
      | some lo => exact (Bool.and_eq_true_iff.mp h).2
    rw [alDel]
    split
    · next hlt =>
      rw [List.find?_cons, decide_eq_false (by dsimp only; omega)]
      exact find?_above ht (by omega)
    · next hge =>
      split
      · next heq => exact find?_above ht (by omega)
      · next hne =>
        rw [List.find?_cons, decide_eq_false (by dsimp only; omega)]
        exact ih ht

/-- A value other than the default stands in the list. -/
theorem mem_of_alGet_ne {d : α} {l : List (Nat × α)} {n : Nat} (h : alGet d l n ≠ d) : (n, alGet d l n) ∈ l := by
  induction l with
  | nil => exact absurd rfl h
  | cons e t ih =>
    obtain ⟨k, v⟩ := e
    rw [alGet] at h ⊢
    by_cases hk : k = n
    · rw [if_pos hk, hk]
      exact List.mem_cons_self
    · rw [if_neg hk] at h ⊢
      exact List.mem_cons_of_mem _ (ih h)

end

/-! Writes of the host. -/

section
variable {s : State}

theorem hostDo_ok {ok : Bool} (h : ok = true) (fn : Nat) (t : State) : hostDo s fn ok t = .next t := by rw [hostDo, h, if_pos rfl]

theorem hostDo_reject {ok : Bool} (h : ok = false) (fn : Nat) (t : State) : hostDo s fn ok t = .next (reject s fn) := by
  rw [hostDo, h, if_neg Bool.false_ne_true]

theorem blockWriteOk_active {fn : Nat} {ide : Bool} {ctx off len : Nat} {b : BitVec 2048}
    (h : blkState (getBlock s ctx) ∈ [stBinding, stRunning, stStopped, stUnsealing]) : blockWriteOk s fn ide ctx off len b = false := by
  have hactive : blkState (getBlock s ctx) = 3 ∨ blkState (getBlock s ctx) = 4 ∨ blkState (getBlock s ctx) = 5 ∨ blkState (getBlock s ctx) = 7 := by
    simp only [List.mem_cons, List.not_mem_nil, or_false, stBinding, stRunning, stStopped, stUnsealing] at h
    omega
  rw [blockWriteOk]
  simp [hactive]

/-- A group of a pod on which nothing has arrived. -/
def freshGroup (members : List Nat) (ch : Nat) : PodGroup :=
  { members := members, channels := ch, mine := [], theirs := [], released := [], parts := [] }

theorem groupWrite_claim {n ch : Nat} {members : List Nat} (hans : answers s = true) (hn : n < 256) (hm : membersOk members = true) (h1 : 1 ≤ ch)
    (h2 : ch ≤ 16) (hheld : groupHeld s n = false) :
    ∃ t g, exec (.podGroupWrite n members ch) s = .next t ∧ getGroup t n = some g ∧ g.members = members ∧ g.channels = ch ∧
      (∀ k, k ≠ n → getGroup t k = getGroup s k) := by
  have hsome : members.isEmpty = false := by
    cases members with
    | nil => exact absurd hm (by decide)
    | cons => rfl
  refine ⟨setGroup s n (freshGroup members ch), freshGroup members ch, ?_, ?_, rfl, rfl, fun k hk => ?_⟩
  · refine (hostDo_ok ?_ _ _).trans ?_
    · rw [hans, hsome, hm, hheld, decide_eq_true hn, decide_eq_true ⟨h1, h2⟩]
      rfl
    · rw [hsome]
      rfl
  · exact congrArg (Option.map (·.2)) (find?_alPut_same _ _ _)
  · exact congrArg (Option.map (·.2)) (find?_alPut_other _ _ (Ne.symm hk))

theorem sessionInstall_claim {fn n world role : Nat} {ide : Bool} (key : BitVec 256) (hans : answers s = true) (h0 : 0 < n) (hn : n < 65536)
    (hrole : role ≤ 1) (hnone : getSession s n = none) (hown : ownObject s fn ide (worldTenant s world) = true)
    (hworld : (tenantWorlds s fn).contains world = true) :
    ∃ t, exec (.sessionInstall fn ide n world role key) s = .next t ∧
      getSession t n = some { world := world, role := role, key := key, sq := SeqState.reset } ∧
      (∀ k, k ≠ n → getSession t k = getSession s k) := by
  refine ⟨setSession s n { world := world, role := role, key := key, sq := SeqState.reset }, ?_, ?_, fun k hk => ?_⟩
  · refine (hostDo_ok ?_ _ _).trans ?_
    · dsimp only
      rw [hnone, hown, hworld, hans, decide_eq_true ⟨h0, hn⟩]
      exact Bool.and_eq_true_iff.mpr ⟨Bool.or_true _, rfl⟩
    · rw [if_neg (by omega)]
  · exact congrArg (Option.map (·.2)) (find?_alPut_same _ _ _)
  · exact congrArg (Option.map (·.2)) (find?_alPut_other _ _ (Ne.symm hk))

/-! Segments. -/

theorem segment_rejected {fn : Nat} {sub : Submission}
    (h : modelKey s sub.world = none ∨ sub.signer ≠ modelKey s sub.world ∨ routeOk sub = false) :
    exec (.segmentSubmission fn sub) s = .next (reject s fn) := by
  refine hostDo_reject ?_ _ _
  have hbad : (signedRight s sub && routeOk sub) = false := by
    rw [signedRight]
    rcases h with h | h | h
    · rw [h]
      cases sub.signer <;> rfl
    · rw [decide_eq_false h, Bool.and_false, Bool.false_and]
    · rw [h, Bool.and_false]
  rw [Bool.and_assoc (answers s && _), hbad, Bool.and_false, Bool.false_and, Bool.false_and]

theorem exec_segment {fn : Nat} {sub : Submission} {key : BitVec 256} (hans : answers s = true) (hworld : (tenantWorlds s fn).contains sub.world = true)
    (hkey : modelKey s sub.world = some key) (hsig : sub.signer = some key) (hroute : routeOk sub = true) (hbuf : buffersOwn s sub = true)
    (hfresh : getSeg s sub.ident = none ∨ (sameSegment s sub (Config.shake256 sub.content)).isSome = true) :
    exec (.segmentSubmission fn sub) s = .next (storeSegment s sub) := by
  refine hostDo_ok ?_ _ _
  have hsigned : signedRight s sub = true := by rw [signedRight, hsig, hkey, decide_eq_true rfl]; rfl
  have hnew : ((getSeg s sub.ident).isNone || (sameSegment s sub (Config.shake256 sub.content)).isSome) = true := by
    rcases hfresh with h | h
    · rw [h]; rfl
    · rw [h, Bool.or_true]
  rw [hans, hworld, hsigned, hroute, hbuf, hnew]
  rfl

/-- The segment that a submission makes. -/
def newSegment (x : Submission) : Segment :=
  { ident := x.ident, content := x.content, measure := Config.shake256 x.content, shared := x.shared, worlds := [x.world], recs := x.recs,
    code := x.code, near := x.near, far := x.far, measures := x.code.map codeMeasure }

/-- State s with a segment. -/
def segPut (s : State) (n : Nat) (g : Segment) : State := { s with hub := { s.hub with segs := alPut s.hub.segs n g } }

theorem getSeg_segPut_same (s : State) (n : Nat) (g : Segment) : getSeg (segPut s n g) n = some g :=
  congrArg (Option.map (fun e : Nat × Segment => e.2)) (find?_alPut_same s.hub.segs n g)

theorem getSeg_segPut_other (s : State) {n k : Nat} (g : Segment) (h : k ≠ n) : getSeg (segPut s n g) k = getSeg s k :=
  congrArg (Option.map (fun e : Nat × Segment => e.2)) (find?_alPut_other s.hub.segs g (Ne.symm h))

theorem storeSegment_new {sub : Submission} (h : sameSegment s sub (Config.shake256 sub.content) = none) :
    storeSegment s sub = emit (segPut s sub.ident (newSegment sub)) (.sealed sub.ident true) := by
  rw [storeSegment]
  dsimp only
  rw [h]
  rfl

theorem storeSegment_same {sub : Submission} {n : Nat} {g : Segment} (h : sameSegment s sub (Config.shake256 sub.content) = some (n, g)) :
    storeSegment s sub = emit (segPut s n { g with worlds := g.worlds ++ [sub.world] }) (.sealed n false) := by
  rw [storeSegment]
  dsimp only
  rw [h]
  rfl

theorem release_last {fn w n : Nat} {g : Segment} (hseg : getSeg s n = some g) (hrising : alRising none s.hub.segs = true) (h : g.worlds = [w]) :
    getSeg (applyHostWrite s fn (.release w n)) n = none := by
  have heq : applyHostWrite s fn (.release w n) = releaseSegment s w n := rfl
  have hlast : (g.worlds.erase w).isEmpty = true := by rw [h, List.erase_cons_head]; rfl
  rw [heq, releaseSegment, hseg]
  dsimp only
  rw [if_pos hlast]
  exact congrArg (Option.map (·.2)) (find?_alDel_same hrising n)

theorem release_shared {fn w n : Nat} {g : Segment} (hseg : getSeg s n = some g) (h : g.worlds.erase w ≠ []) :
    getSeg (applyHostWrite s fn (.release w n)) n = some { g with worlds := g.worlds.erase w } := by
  have heq : applyHostWrite s fn (.release w n) = releaseSegment s w n := rfl
  rw [heq, releaseSegment, hseg]
  dsimp only
  rw [if_neg fun hc => h (List.isEmpty_iff.mp hc)]
  exact congrArg (Option.map (·.2)) (find?_alPut_same _ _ _)

/-! Assays. -/

theorem assayBody_length (s : State) (fn world seg : Nat) (nonce : BitVec 256) : (assayBody s fn world seg nonce).length = 256 := by
  rw [assayBody]
  simp only [List.length_append, leBytes_length, List.length_cons, List.length_nil]

theorem renewKey_kept (h : ¬ (s.edge.boot.sigsLeft = 0 ∧ s.edge.boot.longIndex < 2 ^ 20)) : renewKey s = s := if_neg h

theorem assay_claim {fn world : Nat} (seg : Nat) (nonce : BitVec 256) (hstage : s.edge.boot.stage = 3) (hindex : s.edge.boot.longIndex < 2 ^ 20)
    (hsigs : 0 < s.edge.boot.sigsLeft) (hworld : (tenantWorlds s fn).contains world = true) :
    ∃ t sig, exec (.assayRequest fn world seg nonce) s = .next t ∧ t.edge.boot.sigsLeft = s.edge.boot.sigsLeft - 1 ∧
      sig.length = 2692 ∧ (assayBody s fn world seg nonce).length = 256 ∧
      sends s t (.assay fn (assayBody s fn world seg nonce ++ sig) (bootCertificate s.edge.boot)) ∧ t.hub = s.hub := by
  have hexec : exec (.assayRequest fn world seg nonce) s = execAssayRequest fn world seg nonce s := rfl
  rw [hexec, execAssayRequest, renewKey_kept (by omega)]
  dsimp only
  rw [if_pos ⟨hstage, hsigs, hindex, hworld⟩]
  exact ⟨_, _, rfl, rfl, leBytes_length _ _, assayBody_length _ _ _ _ _, rfl, rfl⟩

/-- State s with the next certified key. -/
def keyRenewed (s : State) : State :=
  { s with edge := { s.edge with boot := { s.edge.boot with sigsLeft := 65536, longIndex := s.edge.boot.longIndex + 1 } } }

theorem assay_renewed {fn world : Nat} (seg : Nat) (nonce : BitVec 256) (hstage : s.edge.boot.stage = 3) (hindex : s.edge.boot.longIndex + 1 < 2 ^ 20)
    (hsigs : s.edge.boot.sigsLeft = 0) (hworld : (tenantWorlds s fn).contains world = true) :
    ∃ t, exec (.assayRequest fn world seg nonce) s = .next t ∧ t.edge.boot.sigsLeft = 65535 ∧
      t.edge.boot.longIndex = s.edge.boot.longIndex + 1 ∧ t.hub = s.hub := by
  have hrenew : renewKey s = keyRenewed s := if_pos ⟨hsigs, by omega⟩
  have hexec : exec (.assayRequest fn world seg nonce) s = execAssayRequest fn world seg nonce s := rfl
  rw [hexec, execAssayRequest, hrenew]
  dsimp only
  rw [if_pos ⟨hstage, (by decide : 0 < 65536), hindex, hworld⟩]
  exact ⟨_, rfl, rfl, rfl, rfl⟩

theorem assay_rejected {fn world : Nat} (seg : Nat) (nonce : BitVec 256) (h : s.edge.boot.stage < 3 ∨ 2 ^ 20 ≤ s.edge.boot.longIndex) :
    exec (.assayRequest fn world seg nonce) s = .next (reject s fn) := by
  have hstage : (renewKey s).edge.boot.stage = s.edge.boot.stage := by
    rw [renewKey]
    dsimp only
    split <;> rfl
  have hno : ¬ ((renewKey s).edge.boot.stage = 3 ∧ 0 < (renewKey s).edge.boot.sigsLeft ∧ (renewKey s).edge.boot.longIndex < 2 ^ 20 ∧
      (tenantWorlds s fn).contains world) := by
    rintro ⟨hthree, -, hindex, -⟩
    rcases h with h | h
    · omega
    · rw [renewKey_kept (by omega)] at hindex
      omega
  exact if_neg hno

/-! Interfaces. -/

theorem tdisp_moves {fn : Nat} {allowed : TdiState → Bool} (hans : answers s = true) (hfn : fn ≠ 0) (x : TdiState) (h : allowed (getTdi s fn) = true) :
    getTdi (tdispRequest s fn allowed x) fn = x ∧ sends s (tdispRequest s fn allowed x) (.tdisp fn true) ∧
      (∀ k, k ≠ fn → getTdi (tdispRequest s fn allowed x) k = getTdi s k) := by
  have hall : (answers s && decide (fn ≠ 0) && allowed (getTdi s fn)) = true := by rw [hans, decide_eq_true hfn, h]; rfl
  rw [tdispRequest, if_pos hall]
  exact ⟨alGet_alPut_same _ _ _ _, rfl, fun k hk => alGet_alPut_other _ _ _ (Ne.symm hk)⟩

theorem tdisp_refuses {fn : Nat} {allowed : TdiState → Bool} (x : TdiState) (h : allowed (getTdi s fn) = false) :
    tdispRequest s fn allowed x = emit s (.tdisp fn false) := by
  rw [tdispRequest, h, Bool.and_false, if_neg Bool.false_ne_true]

end

theorem hub_dropRegistrations (s : State) (f : Nat) : (dropRegistrations s f).hub = s.hub := by
  have hfold (l : List Nat) (t : State) : (l.foldl dropChunk t).hub = t.hub := by
    induction l generalizing t with
    | nil => rfl
    | cons k l ih => exact ih (dropChunk t k)
  exact hfold _ _

theorem keys_scrubFrame (s : State) (f : Nat) : (scrubFrame s f).hub.keys = s.hub.keys :=
  (congrArg Hub.keys (hub_dropRegistrations s f) :)

theorem keys_scrubFrames {α : Type} (g : α → Nat) (l : List α) (s : State) : (l.foldl (fun s e => scrubFrame s (g e)) s).hub.keys = s.hub.keys := by
  induction l generalizing s with
  | nil => rfl
  | cons e l ih => exact (ih _).trans (keys_scrubFrame s (g e))

theorem keys_markScrub (s : State) (t : Nat) : (markScrub s t).hub.keys = s.hub.keys := keys_scrubFrames _ _ _

theorem interfaceError_keys (s : State) (fn : Nat) : ∀ e ∈ (interfaceError s fn).hub.keys, e.2.tenant = fn → e.2.st = 0 ∨ e.2.st = 3 := by
  rw [interfaceError, keys_markScrub]
  intro e he hfn
  obtain ⟨x, -, rfl⟩ := List.mem_map.mp he
  dsimp only at hfn ⊢
  split
  · exact .inr rfl
  · next hx =>
    rw [if_neg hx] at hfn
    exact .inl (Decidable.byContradiction fun hst => hx ⟨hfn, hst⟩)

theorem tdisp_claim (s : State) (fn : Nat) (hans : answers s = true) (hfn : fn ≠ 0) :
    let moves (i : Instr) (x : TdiState) : Prop := ∃ t, exec i s = .next t ∧ getTdi t fn = x ∧ sends s t (.tdisp fn true) ∧
      (∀ k, k ≠ fn → getTdi t k = getTdi s k)
    let refuses (i : Instr) : Prop := exec i s = .next (emit s (.tdisp fn false))
    (getTdi s fn = .unlocked → moves (.lockInterface fn) .locked ∧ refuses (.startInterface fn) ∧ refuses (.stopInterface fn)) ∧
    (getTdi s fn = .locked → moves (.startInterface fn) .run ∧ refuses (.lockInterface fn)) ∧
    (getTdi s fn = .run → refuses (.startInterface fn) ∧ refuses (.lockInterface fn)) ∧
    (getTdi s fn ≠ .unlocked → moves (.stopInterface fn) .unlocked) ∧
    (getTdi s fn ≠ .error → ∃ t, exec (.forceInterfaceError fn) s = .next t ∧
      (∀ e ∈ t.hub.keys, e.2.tenant = fn → e.2.st = 0 ∨ e.2.st = 3)) ∧
    (getTdi s fn = .error → refuses (.forceInterfaceError fn)) := by
  dsimp only
  have hmove (i : Instr) (allowed : TdiState → Bool) (x : TdiState) (hi : exec i s = .next (tdispRequest s fn allowed x))
      (h : allowed (getTdi s fn) = true) : ∃ t, exec i s = .next t ∧ getTdi t fn = x ∧ sends s t (.tdisp fn true) ∧
        (∀ k, k ≠ fn → getTdi t k = getTdi s k) := ⟨_, hi, tdisp_moves hans hfn x h⟩
  have hrefuse (i : Instr) (allowed : TdiState → Bool) (x : TdiState) (hi : exec i s = .next (tdispRequest s fn allowed x))
      (h : allowed (getTdi s fn) = false) : exec i s = .next (emit s (.tdisp fn false)) := by rw [hi, tdisp_refuses x h]
  refine ⟨fun h => ⟨hmove _ _ _ rfl ?_, hrefuse _ _ _ rfl ?_, hrefuse _ _ _ rfl ?_⟩, fun h => ⟨hmove _ _ _ rfl ?_, hrefuse _ _ _ rfl ?_⟩,
    fun h => ⟨hrefuse _ _ _ rfl ?_, hrefuse _ _ _ rfl ?_⟩, fun h => hmove _ _ _ rfl (decide_eq_true h),
    fun h => ⟨_, if_pos ⟨hans, hfn, h⟩, interfaceError_keys s fn⟩, fun h => if_neg fun hc => hc.2.2 h⟩ <;> rw [h] <;> decide

/-! Translations of host pages. -/

theorem keySpace_pageKey (space : Nat) {vp : Nat} (h : vp < 2 ^ 27) : keySpace (pageKey space vp) = space := by
  rw [keySpace, pageKey]
  rw [levelIndex, levelIndex, levelIndex, natField_eq, natField_eq, natField_eq]
  omega

theorem keyPage_pageKey (space : Nat) {vp : Nat} (h : vp < 2 ^ 27) : keyPage (pageKey space vp) = vp := by
  rw [keyPage, pageKey]
  rw [levelIndex, levelIndex, levelIndex, natField_eq, natField_eq, natField_eq]
  omega

/-- The space of a page is found in the blocks and the pools. -/
theorem spaceOf_congr {s t : State} (hblocks : t.hub.blocks = s.hub.blocks) (hpools : t.hub.pools = s.hub.pools) (ctx vp : Nat) :
    spaceOf t ctx vp = spaceOf s ctx vp := by
  rw [spaceOf, spaceOf, poolOf, poolOf, poolNo, poolNo, getPool, getPool, getBlock, getBlock, hblocks, hpools]

theorem leafOf_congr {s t : State} (hxlat : t.xlat = s.xlat) (hblocks : t.hub.blocks = s.hub.blocks) (hpools : t.hub.pools = s.hub.pools)
    (ctx va : Nat) : leafOf t ctx va = leafOf s ctx va := by
  rw [leafOf, leafOf, hxlat, spaceOf_congr hblocks hpools]

/-- State s with a translation of a host page. -/
def hostPlaced (s : State) (ctx vp : Nat) (leaf : BitVec 64) : State :=
  { s with xlat := alPut s.xlat (pageKey ctx vp) (makeLeaf (leafW leaf && leasedRw s ctx vp) (leafSh leaf) 1 (leafFrame leaf / 2097152) 0),
           edge := { s.edge with hostPages := pageKey ctx vp :: s.edge.hostPages.filter (fun k => k ≠ pageKey ctx vp) } }

theorem leafOf_hostPlaced {s : State} {ctx vp : Nat} (leaf : BitVec 64) (h : spaceOf s ctx vp = ctx) :
    leafOf (hostPlaced s ctx vp leaf) ctx (2097152 * vp) =
      makeLeaf (leafW leaf && leasedRw s ctx vp) (leafSh leaf) 1 (leafFrame leaf / 2097152) 0 := by
  have hspace : spaceOf (hostPlaced s ctx vp leaf) ctx vp = ctx := (spaceOf_congr rfl rfl _ _).trans h
  rw [leafOf, Nat.mul_div_cancel_left _ (by decide), hspace]
  exact alGet_alPut_same _ _ _ _

section
variable (w sh : Bool) {home frame : Nat}

/-- The number of a translation of a page of the first package. -/
theorem makeLeaf_toNat (hh : home < 4) (hf : frame < 2 ^ 25) :
    (makeLeaf w sh home frame 0).toNat = 1 + 2 * w.toNat + 4 * sh.toNat + 8 * home + 2 ^ 21 * frame := by
  rw [makeLeaf, BitVec.toNat_ofNat]
  cases w <;> cases sh <;> simp only [Bool.toNat_true, Bool.toNat_false, if_true, if_false, Bool.false_eq_true] <;> omega

theorem leafV_makeLeaf (hh : home < 4) (hf : frame < 2 ^ 25) : leafV (makeLeaf w sh home frame 0) = true := by
  rw [leafV, BitVec.getLsbD, Nat.testBit_zero, makeLeaf_toNat w sh hh hf]
  exact decide_eq_true (by omega)

theorem leafW_makeLeaf (hh : home < 4) (hf : frame < 2 ^ 25) : leafW (makeLeaf w sh home frame 0) = w := by
  have hw := w.toNat_lt
  rw [leafW, BitVec.getLsbD, Nat.testBit_eq_decide_div_mod_eq, makeLeaf_toNat w sh hh hf,
    show (1 + 2 * w.toNat + 4 * sh.toNat + 8 * home + 2 ^ 21 * frame) / 2 ^ 1 % 2 = w.toNat by omega]
  cases w <;> rfl

theorem leafHome_makeLeaf (hh : home < 4) (hf : frame < 2 ^ 25) : leafHome (makeLeaf w sh home frame 0) = home := by
  have hw := w.toNat_lt
  have hs := sh.toNat_lt
  rw [leafHome, natField_eq, makeLeaf_toNat w sh hh hf]
  omega

theorem leafFrame_makeLeaf (hh : home < 4) (hf : frame < 2 ^ 25) : leafFrame (makeLeaf w sh home frame 0) = frame * 2097152 := by
  have hw := w.toNat_lt
  have hs := sh.toNat_lt
  rw [leafFrame, natField_eq, makeLeaf_toNat w sh hh hf]
  omega

end

/-- The entries written once a translation is there leave the translations. -/
theorem leafOf_flushEntries (s : State) (c ctx va : Nat) : leafOf (flushEntries s c) ctx va = leafOf s ctx va := by
  have h := (entryStep_flushEntries s c).home
  exact leafOf_congr h.xlat h.blocks (congrArg Hub.pools h.hub :) ctx va

theorem atsCompletion_claim {s : State} {ctx vp : Nat} {leaf : BitVec 64} (hv : leafV leaf = true) (hhome : leafHome leaf = 1)
    (hhigh : 0x200000000000 ≤ leafFrame leaf) (hlease : isLeasePage s ctx vp = true) (hspace : spaceOf s ctx vp = ctx) :
    ∃ t, exec (.atsTranslationCompletion ctx vp leaf) s = .next t ∧ leafV (leafOf t ctx (2097152 * vp)) = true ∧
      leafHome (leafOf t ctx (2097152 * vp)) = 1 ∧ leafFrame (leafOf t ctx (2097152 * vp)) = leafFrame leaf ∧
      leafW (leafOf t ctx (2097152 * vp)) = (leafW leaf && leasedRw s ctx vp) := by
  have hexec : exec (.atsTranslationCompletion ctx vp leaf) s = .next (flushEntries (hostPlaced s ctx vp leaf) ctx) :=
    if_pos ⟨hv, hhome, hhigh, hlease, hspace⟩
  have hframe : leafFrame leaf / 2097152 < 2 ^ 25 := by rw [leafFrame, natField_eq]; omega
  refine ⟨_, hexec, ?_⟩
  rw [leafOf_flushEntries, leafOf_hostPlaced leaf hspace, leafV_makeLeaf _ _ (by decide) hframe, leafHome_makeLeaf _ _ (by decide) hframe,
    leafFrame_makeLeaf _ _ (by decide) hframe, leafW_makeLeaf _ _ (by decide) hframe]
  refine ⟨rfl, rfl, ?_, rfl⟩
  rw [leafFrame, natField_eq]
  omega

/-- State s with an invalidation of a range under way. -/
def invalidationBegun (s : State) (ctx : Nat) (r : PageRange) (frames : List Nat) : State :=
  { s with edge := { s.edge with
      revoking := s.edge.revoking ++ [(ctx, r)],
      invalidating := s.edge.invalidating ++ [{ ctx := ctx, range := r, frames := frames }] } }

theorem hostEntry_mem {s : State} {ctx va : Nat} {r : PageRange} (hva : va < 2 ^ 48) (hv : leafV (leafOf s ctx va) = true)
    (hhome : leafHome (leafOf s ctx va) = 1) (hlo : r.vpage ≤ va / 2 ^ 21) (hhi : va / 2 ^ 21 < r.vpage + r.pages) :
    (pageKey (spaceOf s ctx (va / 2097152)) (va / 2097152), leafOf s ctx va) ∈ hostEntries s ctx r := by
  have hvp : va / 2097152 < 2 ^ 27 := by omega
  have hne : leafOf s ctx va ≠ 0#64 := fun hc => by
    rw [hc] at hv
    exact absurd hv (by decide)
  have hmem := mem_of_alGet_ne hne
  refine List.mem_filter.mpr ⟨List.mem_filter.mpr ⟨hmem, ?_⟩, ?_⟩
  · rw [keySpace_pageKey _ hvp, keyPage_pageKey _ hvp, rangeNames, decide_eq_true ⟨hlo, hhi⟩, decide_eq_true rfl]
    rfl
  · rw [hv, hhome]
    rfl

theorem pageReady_invalidating {s : State} {ctx va : Nat} {r : PageRange} (frames : List Nat) (hhome : leafHome (leafOf s ctx va) = 1)
    (hlo : r.vpage ≤ va / 2 ^ 21) (hhi : va / 2 ^ 21 < r.vpage + r.pages) : pageReady (invalidationBegun s ctx r frames) ctx va = false := by
  have hleaf : leafOf (invalidationBegun s ctx r frames) ctx va = leafOf s ctx va := leafOf_congr rfl rfl rfl ctx va
  have hany : (invalidationBegun s ctx r frames).edge.invalidating.any (fun x =>
      decide (x.ctx = ctx ∧ x.range.vpage ≤ va / 2097152 ∧ va / 2097152 < x.range.vpage + x.range.pages)) = true :=
    List.any_eq_true.mpr ⟨_, List.mem_append_right _ (List.mem_singleton.mpr rfl), decide_eq_true ⟨rfl, hlo, hhi⟩⟩
  have hmoving : pageMoving (invalidationBegun s ctx r frames) ctx va = true := by
    rw [pageMoving, hleaf, hhome, hany]
    exact Bool.or_true _
  rw [pageReady, hmoving, Bool.not_true, Bool.and_false]

theorem atsInvalidate_claim (s : State) (ctx : Nat) (r : PageRange) :
    ∃ t frames, exec (.atsInvalidateRequest ctx r) s = .next t ∧
      t = { s with edge := { s.edge with
              revoking := s.edge.revoking ++ [(ctx, r)],
              invalidating := s.edge.invalidating ++ [{ ctx := ctx, range := r, frames := frames }] } } ∧
      (∀ va, va < 2 ^ 48 → leafV (leafOf s ctx va) = true → leafHome (leafOf s ctx va) = 1 → r.vpage ≤ va / 2 ^ 21 →
        va / 2 ^ 21 < r.vpage + r.pages → leafFrame (leafOf s ctx va) / 2 ^ 21 ∈ frames ∧ pageReady t ctx va = false) := by
  have hexec : exec (.atsInvalidateRequest ctx r) s = execAtsInvalidateRequest ctx r s := rfl
  have hmem (va : Nat) (hva : va < 2 ^ 48) (hv : leafV (leafOf s ctx va) = true) (hhome : leafHome (leafOf s ctx va) = 1)
      (hlo : r.vpage ≤ va / 2 ^ 21) (hhi : va / 2 ^ 21 < r.vpage + r.pages) :
      leafFrame (leafOf s ctx va) / 2 ^ 21 ∈ (hostEntries s ctx r).map (fun e => leafFrame e.2 / 2097152) :=
    List.mem_map.mpr ⟨_, hostEntry_mem hva hv hhome hlo hhi, rfl⟩
  rw [hexec, execAtsInvalidateRequest]
  generalize (hostEntries s ctx r).map (fun e => leafFrame e.2 / 2097152) = frames at hmem ⊢
  exact ⟨invalidationBegun s ctx r frames, frames, rfl, rfl, fun va hva hv hhome hlo hhi =>
    ⟨hmem va hva hv hhome hlo hhi, pageReady_invalidating frames hhome hlo hhi⟩⟩

/-! The obligation. -/

/-- Settles O53, clause by clause: each write is the function that says what it stores, or a rejection; host DMA goes line by line. -/
theorem hostEvents : Obligations.HostEvents := by
  unfold Obligations.HostEvents
  intro s
  refine ⟨?_, ?_, ?_, ?_, ?_, ?_, ?_, ?_, ?_, ?_, ?_, ?_, ?_, ?_, ?_, ?_, ?_, ?_, ?_⟩
  · intro fn ide ctx off len val
    exact ⟨fun h => hostDo_ok h _ _, fun h => hostDo_reject (blockWriteOk_active h) _ _⟩
  · intro n members ch hans hn hm h1 h2 hheld
    exact groupWrite_claim hans hn hm h1 h2 hheld
  · intro fn ide n world role key hans h0 hn hrole hnone hown hworld
    exact sessionInstall_claim key hans h0 hn hrole hnone hown hworld
  · intro fn sub h
    exact segment_rejected h
  · intro fn sub key hans hworld hkey hsig hroute hbuf
    refine ⟨fun hnone hsame => ?_, fun n g hsame => ?_⟩
    · rw [exec_segment hans hworld hkey hsig hroute hbuf (.inl hnone), storeSegment_new hsame]
      exact ⟨_, newSegment sub, rfl, getSeg_segPut_same s _ _, rfl, rfl, rfl, rfl, rfl, rfl, rfl⟩
    · rw [exec_segment hans hworld hkey hsig hroute hbuf (.inr (by rw [hsame]; rfl)), storeSegment_same hsame]
      exact ⟨_, rfl, getSeg_segPut_same s n _, fun k hk => getSeg_segPut_other s _ hk, rfl⟩
  · intro fn w n g hseg hrising
    exact ⟨fun h => release_last hseg hrising h, fun h => release_shared hseg h⟩
  · intro fn world seg nonce hstage hindex hsigs hworld
    exact assay_claim seg nonce hstage hindex hsigs hworld
  · intro fn world seg nonce hstage hindex hsigs hworld
    exact assay_renewed seg nonce hstage hindex hsigs hworld
  · intro fn world seg nonce h
    exact assay_rejected seg nonce h
  · intro fn hans hfn
    exact tdisp_claim s fn hans hfn
  · intro fn ide w
    exact ⟨fun h => hostDo_ok h _ _, fun h => hostDo_reject h _ _⟩
  · intro pkg pod hans hpkg hpod
    refine ⟨applyHostWrite s 0 (.identity pkg pod), hostDo_ok ?_ _ _, rfl, rfl, rfl⟩
    rw [hostWriteOk, isService, hans]
    exact decide_eq_true ⟨hpkg, hpod⟩
  · intro key hans
    refine ⟨applyHostWrite s 0 (.podKey key), hostDo_ok ?_ _ _, rfl, fun m => rfl⟩
    rw [hostWriteOk, isService, hans]
    rfl
  · intro fn hans hide hlocked
    refine ⟨{ s with edge := { s.edge with ide := alDel s.edge.ide fn } }, (hostDo_ok ?_ _ _).trans ?_, rfl, rfl⟩
    · rw [hostWriteOk, hans, hide]
      rfl
    · rw [applyHostWrite, ideLost, hlocked]
      rfl
  · intro pa bytes h w
    exact hostDma_hole h w
  · intro pa bytes hhole
    refine ⟨hostDma_write hhole, fun h => hostDma_read hhole fun p hp => ?_, fun k off n hp hreg hbad => hostDma_failed hhole hp hreg hbad,
      fun w h => hostDma_held hhole w h⟩
    obtain ⟨hreg, hgood, hopen, hopens⟩ := h p hp
    exact ⟨hreg, ⟨hgood, hopens⟩, hopen⟩
  · intro fn hans hfn
    have hexec : exec (.flrVirtualFunction fn) s = execFlrVirtualFunction fn s := rfl
    rw [hexec, execFlrVirtualFunction, hans, if_neg (by decide), if_neg hfn]
  · intro ctx vp leaf hv hhome hhigh hlease hspace
    exact atsCompletion_claim hv hhome hhigh hlease hspace
  · intro ctx r
    exact atsInvalidate_claim s ctx r

end Sys2Proof.Proofs
end

section
/-! PROOF. Frames of HBM: what a scrub leaves, recalls of registrations, the ladle, promotions, invalidations and migrations (R214 to R218,
R351). -/

namespace Sys2Proof.Proofs

open Sys2Proof.Machine Sys2Proof.Claims Sys2Proof.Laws

/-! Frames by number. -/

section
variable {α : Type}

theorem find?_alDel_other (l : List (Nat × α)) {n m : Nat} (h : n ≠ m) : (alDel l n).find? (fun e => e.1 = m) = l.find? (fun e => e.1 = m) := by
  induction l with
  | nil => rfl
  | cons e t ih =>
    obtain ⟨k, v⟩ := e
    rw [alDel]
    split
    · rfl
    · split
      · next heq => rw [List.find?_cons, decide_eq_false (by dsimp only; omega)]
      · rw [List.find?_cons, List.find?_cons, ih]

end

theorem getFrame_putFrame_same (s : State) (f : Nat) (x : Frame) : getFrame (putFrame s f x) f = some x :=
  congrArg (Option.map (fun e : Nat × Frame => e.2)) (find?_alPut_same s.frames f x)

/-- The frames of t are those of s but for their marks of changes. -/
theorem getFrame_still {s t : State} (h : t.frames.map stillFrame = s.frames.map stillFrame) {f : Nat} {x : Frame} (hx : getFrame s f = some x) :
    ∃ y, getFrame t f = some y ∧ y.st = x.st ∧ y.page = x.page ∧ y.late = x.late := by
  have hfind (l : List (Nat × Frame)) : ((l.map stillFrame).find? (fun e => e.1 = f)).map (·.2) =
      ((l.find? (fun e => e.1 = f)).map (·.2)).map (fun y => { y with changed := false }) := by
    rw [List.find?_map, Option.map_map, Option.map_map]
    rfl
  have hmap : (getFrame t f).map (fun y => { y with changed := false }) = some { x with changed := false } := by
    have ht := hfind t.frames
    rw [h, hfind s.frames] at ht
    rw [getFrame, ← ht]
    exact congrArg (Option.map _) hx
  obtain ⟨y, hy, heq⟩ := Option.map_eq_some_iff.mp hmap
  exact ⟨y, hy, (congrArg Frame.st heq :), (congrArg Frame.page heq :), (congrArg Frame.late heq :)⟩

/-! What a scrub leaves. -/

/-- Registrations have been dropped: chunks and directories have changed, nothing else. -/
def dropErased (s t : State) : State := { t with dies := s.dies, chunks := s.chunks }

theorem dropRegistrations_eq (s : State) (f : Nat) : dropErased s (dropRegistrations s f) = s := by
  have hfold (l : List Nat) (t : State) : dropErased s (l.foldl dropChunk t) = dropErased s t := by
    induction l generalizing t with
    | nil => rfl
    | cons k l ih => exact (ih (dropChunk t k)).trans rfl
  exact (hfold _ _).trans rfl

/-- A frame has been scrubbed: its bytes and its entry are gone. -/
structure Scrubbed (s t : State) (f : Nat) : Prop where
  far : t.far = memClear s.far (2097152 * f) 2097152
  frames : t.frames = alDel s.frames f
  cores : t.cores = s.cores
  drives : t.edge.drives = s.edge.drives
  migrating : t.edge.migrating = s.edge.migrating.filter (fun e => e.1 ≠ f)
  blocks : t.hub.blocks = s.hub.blocks
  pools : t.hub.pools = s.hub.pools

theorem scrubbed (s : State) (f : Nat) : Scrubbed s (scrubFrame s f) f := by
  have h := dropRegistrations_eq s f
  rw [scrubFrame, clearFrame]
  generalize dropRegistrations s f = d at h ⊢
  have hfar : d.far = s.far := (congrArg State.far h :)
  have hframes : d.frames = s.frames := (congrArg State.frames h :)
  have hedge : d.edge = s.edge := (congrArg State.edge h :)
  have hhub : d.hub = s.hub := (congrArg State.hub h :)
  exact ⟨congrArg (memClear · _ _) hfar, congrArg (alDel · f) hframes, (congrArg State.cores h :), (congrArg Edge.drives hedge :),
    (congrArg (fun e : Edge => e.migrating.filter (fun e => e.1 ≠ f)) hedge :), (congrArg Hub.blocks hhub :), (congrArg Hub.pools hhub :)⟩

/-- Seals are counted with the keys of a world; nothing else changes. -/
def sealErased (s t : State) : State := { t with hub := s.hub }

theorem countSeals_eq (s : State) (w n : Nat) : sealErased s (countSeals s w n) = s := by
  unfold countSeals
  split <;> rfl

/-- Cells written to a frame. -/
def cellsWritten (m : Memory) (n : Nat) (l : List Host.Cell) : Memory := l.foldl (fun m e => memWrite m (2097152 * n + e.1) e.2) m

/-! Recalls. -/

section
variable {s u : State} {sweep : Bool} {frames : List Nat} {go : State → State} {i : Instr}

theorem recalling_waits (h : exec i s = recalling s sweep frames go) : recallWaits s sweep frames i := by
  rw [recallWaits, h, recalling]
  refine ⟨fun hr => ?_, fun hr v hv => ?_⟩
  · rw [hr]
    rfl
  · rw [hr, hv]
    rfl

theorem recalling_done (h : recallDone s sweep frames u) : recalling s sweep frames go = .next (go u) := by
  obtain ⟨hr, v, hv, rfl⟩ := h
  rw [recalling, hr, hv]
  rfl

/-- The registrations of frames are recalled by accesses of their lines. -/
theorem homeStep_recallDone (h : recallDone s sweep frames u) : HomeStep s u := by
  obtain ⟨-, v, hv, rfl⟩ := h
  have htake := (tokenStep_takeRecalls ((frameChunks s frames).map (·.2)) s).homeStep
  rw [hv] at htake
  exact htake.trans (homeStep_recallFrames v frames)

/-- Frames without registrations are recalled at once. -/
theorem recallDone_none (h : frameChunks s frames = []) : recallDone s sweep frames s := by
  refine ⟨?_, s, ?_, ?_⟩
  · rw [framesReady, h]
    rfl
  · rw [h]
    rfl
  · rw [recallFrames, h]
    rfl

theorem HomeStep.invalidating (h : HomeStep s u) : u.edge.invalidating = s.edge.invalidating := (congrArg Edge.invalidating h.edge :)
theorem HomeStep.migrating (h : HomeStep s u) : u.edge.migrating = s.edge.migrating := (congrArg Edge.migrating h.edge :)
theorem HomeStep.revoking (h : HomeStep s u) : u.edge.revoking = s.edge.revoking := (congrArg Edge.revoking h.edge :)

end

/-! The ladle (R216, R217, R351). -/

section
variable {s : State} {ctx vp f : Nat}

theorem exec_ladlePageFill (hnext : ladleNext s ctx = some vp) (hallowed : frameAllowed s ctx vp f = true) :
    exec (.ladlePageFill ctx vp f) s = recalling s false [f] (fun s1 => bringIn (evictFrame s1 f) ctx vp f) := if_pos ⟨hnext, hallowed⟩

theorem ladle_declined (h : ladleNext s ctx ≠ some vp ∨ frameAllowed s ctx vp f = false) : exec (.ladlePageFill ctx vp f) s = .next s := by
  refine if_neg fun hc => ?_
  obtain ⟨hnext, hallowed⟩ := hc
  rcases h with h | h
  · exact h hnext
  · rw [h] at hallowed
    exact nomatch hallowed

theorem frameAllowed_free (hf : f < frameCount) (hstack : stackOk s (spaceOf s ctx vp) vp f = true) (hfree : frameFree s f = true)
    (hroom : heldFrames s (blkTenant (getBlock s ctx)) < tenantG s (blkTenant (getBlock s ctx)) + tenantU s (blkTenant (getBlock s ctx))) :
    frameAllowed s ctx vp f = true := by
  rw [frameAllowed, decide_eq_true hf, hstack, if_pos ⟨hroom, hfree⟩]
  rfl

/-- The entry of a frame into which a page comes. -/
def promotingFrame (s : State) (ctx vp : Nat) : Frame :=
  { st := .promoting, tenant := blkTenant (getBlock s ctx), world := blkWorld (getBlock s ctx), page := some (spaceOf s ctx vp, vp), lastLease := s.now,
    late := false, changed := false, gen := worldGen s (blkWorld (getBlock s ctx)) }

theorem getFrame_bringIn (s : State) (ctx vp f : Nat) : getFrame (bringIn s ctx vp f) f = some (promotingFrame s ctx vp) :=
  getFrame_putFrame_same _ _ _

theorem bringIn_kept (s : State) (ctx vp f : Nat) : (bringIn s ctx vp f).cores = s.cores ∧ (bringIn s ctx vp f).edge = s.edge ∧
    (bringIn s ctx vp f).xlat = s.xlat ∧ (bringIn s ctx vp f).stash = s.stash ∧
    (bringIn s ctx vp f).far = (slowPage s ctx vp).bytes.foldl (fun m e => memWrite m (2097152 * f + e.1) e.2) s.far := by
  have h := countSeals_eq s (blkWorld (getBlock s ctx)) 32768
  rw [bringIn]
  generalize countSeals s (blkWorld (getBlock s ctx)) 32768 = d at h ⊢
  have hfar : d.far = s.far := (congrArg State.far h :)
  exact ⟨(congrArg State.cores h :), (congrArg State.edge h :), (congrArg State.xlat h :), (congrArg State.stash h :),
    congrArg (cellsWritten · f (slowPage s ctx vp).bytes) hfar⟩

/-- Taking a frame from its page leaves cores, blocks and pools. -/
theorem evictFrame_kept (s : State) (f : Nat) :
    (evictFrame s f).cores = s.cores ∧ (evictFrame s f).hub.blocks = s.hub.blocks ∧ (evictFrame s f).hub.pools = s.hub.pools := by
  have hscrub (u : State) := scrubbed u f
  unfold evictFrame
  split
  · exact ⟨rfl, rfl, rfl⟩
  · split
    · split
      · exact ⟨(hscrub _).cores, (hscrub _).blocks, (hscrub _).pools⟩
      · exact ⟨(hscrub _).cores, (hscrub _).blocks, (hscrub _).pools⟩
    · exact ⟨(hscrub _).cores, (hscrub _).blocks, (hscrub _).pools⟩

theorem evictFrame_free (h : getFrame s f = none) : evictFrame s f = s := by rw [evictFrame, h]

/-- A changed page goes to the drives. -/
theorem evictFrame_drives {y : Frame} {c wp : Nat} (hy : getFrame s f = some y) (hchanged : y.changed = true) (hpage : y.page = some (c, wp)) :
    (evictFrame s f).edge.drives = alPut s.edge.drives (pageKey c wp) (frameContents s f) := by
  rw [evictFrame, hy]
  dsimp only
  rw [hpage]
  dsimp only
  rw [hchanged, if_pos rfl]
  exact (scrubbed _ f).drives

theorem ladle_claim (hnext : ladleNext s ctx = some vp) (hallowed : frameAllowed s ctx vp f = true) (hchunks : frameChunks s [f] = []) :
    ∃ t x, exec (.ladlePageFill ctx vp f) s = .next t ∧ getFrame t f = some x ∧ x.st = .promoting ∧ x.page = some (spaceOf s ctx vp, vp) ∧
      x.tenant = blkTenant (getBlock s ctx) ∧ x.world = blkWorld (getBlock s ctx) ∧ t.cores = s.cores ∧
      (getFrame s f = none → t.far = (slowPage s ctx vp).bytes.foldl (fun m e => memWrite m (2097152 * f + e.1) e.2) s.far ∧
        t.xlat = s.xlat ∧ t.stash = s.stash) ∧
      (∀ y c wp, getFrame s f = some y → y.changed = true → y.page = some (c, wp) →
        (t.edge.drives.find? (fun e => e.1 = pageKey c wp)).map (·.2) = some (frameContents s f)) := by
  obtain ⟨hcores, hblocks, hpools⟩ := evictFrame_kept s f
  have hblock : getBlock (evictFrame s f) ctx = getBlock s ctx := by rw [getBlock, getBlock, hblocks]
  obtain ⟨bcores, bedge, bxlat, bstash, bfar⟩ := bringIn_kept (evictFrame s f) ctx vp f
  refine ⟨bringIn (evictFrame s f) ctx vp f, promotingFrame (evictFrame s f) ctx vp,
    (exec_ladlePageFill hnext hallowed).trans (recalling_done (recallDone_none hchunks)), getFrame_bringIn _ ctx vp f, rfl, ?_, ?_, ?_,
    bcores.trans hcores, fun hfree => ?_, fun y c wp hy hchanged hpage => ?_⟩
  · exact congrArg (fun k => some (k, vp)) (spaceOf_congr hblocks hpools ctx vp)
  · exact congrArg blkTenant hblock
  · exact congrArg blkWorld hblock
  · rw [evictFrame_free hfree] at bxlat bstash bfar ⊢
    exact ⟨bfar, bxlat, bstash⟩
  · rw [bedge, evictFrame_drives hy hchanged hpage, find?_alPut_same]
    rfl

end

/-! Promotions (R216, R218). -/

section
variable {s : State} {f : Nat} {x : Frame} {space vp : Nat}

/-- State s with a page translated to its frame. -/
def placed (s : State) (f : Nat) (x : Frame) (space vp : Nat) (st : FrameState) (late : Bool) : State :=
  { putFrame s f { x with st := st, late := late } with xlat := alPut s.xlat (pageKey space vp) (frameLeaf s space vp f) }

theorem exec_promotionComplete (hx : getFrame s f = some x) (hst : x.st = .promoting) (hpage : x.page = some (space, vp)) :
    exec (.promotionComplete f) s = if leaseInForce s space vp then .next (flushEntries (placed s f x space vp .leased false) space)
      else if tenantG s x.tenant + tenantU s x.tenant < heldFrames s x.tenant then .next (scrubFrame s f)
      else .next (flushEntries (placed s f x space vp .warm (!streamedPage s space vp)) space) := by
  have hexec : exec (.promotionComplete f) s = execPromotionComplete f s := rfl
  obtain ⟨st, tenant, world, page, lastLease, late, changed, gen⟩ := x
  obtain rfl : st = .promoting := hst
  obtain rfl : page = some (space, vp) := hpage
  rw [hexec, execPromotionComplete, hx]
  rfl

theorem placed_claim (s : State) (f : Nat) (x : Frame) (space vp : Nat) (st : FrameState) (late : Bool) :
    ∃ y, getFrame (flushEntries (placed s f x space vp st late) space) f = some y ∧ y.st = st ∧ y.late = late ∧ y.page = x.page ∧
      (∀ ctx, spaceOf s ctx vp = space →
        leafOf (flushEntries (placed s f x space vp st late) space) ctx (2097152 * vp) = frameLeaf s space vp f) := by
  have hframe : getFrame (placed s f x space vp st late) f = some { x with st := st, late := late } := getFrame_putFrame_same s f _
  have hstep := entryStep_flushEntries (placed s f x space vp st late) space
  obtain ⟨y, hy, hst, hpage, hlate⟩ := getFrame_still hstep.home.frames hframe
  refine ⟨y, hy, hst, hlate, hpage, fun ctx hctx => ?_⟩
  have hspace : spaceOf (placed s f x space vp st late) ctx vp = space := (spaceOf_congr rfl rfl _ _).trans hctx
  rw [leafOf_flushEntries, leafOf, Nat.mul_div_cancel_left _ (by decide), hspace]
  exact alGet_alPut_same _ _ _ _

theorem promotion_claim (hx : getFrame s f = some x) (hst : x.st = .promoting) (hpage : x.page = some (space, vp)) :
    (leaseInForce s space vp = true → ∃ t y, exec (.promotionComplete f) s = .next t ∧ getFrame t f = some y ∧ y.st = .leased ∧
      y.page = x.page ∧ (∀ ctx, spaceOf s ctx vp = space → leafOf t ctx (2097152 * vp) = frameLeaf s space vp f)) ∧
    (leaseInForce s space vp = false → tenantG s x.tenant + tenantU s x.tenant < heldFrames s x.tenant →
      exec (.promotionComplete f) s = .next (scrubFrame s f)) ∧
    (leaseInForce s space vp = false → heldFrames s x.tenant ≤ tenantG s x.tenant + tenantU s x.tenant →
      ∃ t y, exec (.promotionComplete f) s = .next t ∧ getFrame t f = some y ∧ y.st = .warm ∧ y.late = !streamedPage s space vp ∧
        y.page = x.page ∧
        (∀ ctx, spaceOf s ctx vp = space → leafOf t ctx (2097152 * vp) = frameLeaf s space vp f)) := by
  have hexec := exec_promotionComplete hx hst hpage
  refine ⟨fun h => ?_, fun h hmany => ?_, fun h hfew => ?_⟩
  · rw [h, if_pos rfl] at hexec
    obtain ⟨y, hy, yst, -, ypage, yleaf⟩ := placed_claim s f x space vp .leased false
    exact ⟨_, y, hexec, hy, yst, ypage, yleaf⟩
  · rw [h, if_neg Bool.false_ne_true, if_pos hmany] at hexec
    exact hexec
  · rw [h, if_neg Bool.false_ne_true, if_neg (Nat.not_lt.mpr hfew)] at hexec
    obtain ⟨y, hy, yst, ylate, ypage, yleaf⟩ := placed_claim s f x space vp .warm (!streamedPage s space vp)
    exact ⟨_, y, hexec, hy, yst, ylate, ypage, yleaf⟩

end

/-! Invalidations (R214). -/

section
variable {s : State} {ctx : Nat} {r : PageRange} {x : Invalidation}

/-- The translations of the host pages of a range go, and the completion is sent. -/
def invalidated (ctx : Nat) (r : PageRange) (x : Invalidation) (u : State) : State :=
  emit { u with edge := { u.edge with invalidating := u.edge.invalidating.erase x },
                xlat := u.xlat.filter (fun e => !(hostEntries u ctx r).contains e) } (.invalidated ctx r)

theorem exec_invalidateCompletion (hx : s.edge.invalidating.find? (fun x => decide (x.ctx = ctx ∧ x.range = r)) = some x)
    (hrevoke : (ctx, r) ∉ s.edge.revoking) (huse : ∀ a ∈ allArchs s, accessesTo x.frames a = false ∧ commandsOn x.frames a = false) :
    exec (.invalidateCompletion ctx r) s = recalling s false x.frames (invalidated ctx r x) := by
  have hexec : exec (.invalidateCompletion ctx r) s = execInvalidateCompletion ctx r s := rfl
  have hidle : ¬ (s.edge.revoking.any (fun e => decide (e = (ctx, r))) = true ∨
      (allArchs s).any (fun a => accessesTo x.frames a || commandsOn x.frames a) = true) := by
    rw [List.any_eq_true, List.any_eq_true]
    rintro (⟨e, he, heq⟩ | ⟨a, ha, hbusy⟩)
    · rw [of_decide_eq_true heq] at he
      exact hrevoke he
    · rw [(huse a ha).1, (huse a ha).2] at hbusy
      exact nomatch hbusy
  rw [hexec, execInvalidateCompletion, hx]
  dsimp only
  rw [if_neg hidle]
  rfl

theorem rangeNames_congr {s t : State} (hblocks : t.hub.blocks = s.hub.blocks) (hpools : t.hub.pools = s.hub.pools) (ctx : Nat) (r : PageRange)
    (space vp : Nat) : rangeNames t ctx r space vp = rangeNames s ctx r space vp := by
  rw [rangeNames, rangeNames, spaceOf_congr hblocks hpools]

theorem xlat_invalidated (u : State) {e : Nat × BitVec 64} (he : e ∈ (invalidated ctx r x u).xlat) :
    e ∈ u.xlat ∧ (rangeNames (invalidated ctx r x u) ctx r (keySpace e.1) (keyPage e.1) = true → leafV e.2 = false ∨ leafHome e.2 ≠ 1) := by
  obtain ⟨hmem, hnot⟩ := List.mem_filter.mp he
  refine ⟨hmem, fun hnames => ?_⟩
  rw [rangeNames_congr (s := u) (t := invalidated ctx r x u) rfl rfl] at hnames
  by_contra hno
  obtain ⟨hv, hhome⟩ := not_or.mp hno
  have hentry : e ∈ hostEntries u ctx r := by
    refine List.mem_filter.mpr ⟨List.mem_filter.mpr ⟨hmem, hnames⟩, ?_⟩
    rw [Bool.not_eq_false] at hv
    rw [hv, decide_eq_true (Decidable.byContradiction hhome)]
    rfl
  rw [List.contains_iff_mem.mpr hentry] at hnot
  exact nomatch hnot

theorem invalidation_claim (hx : s.edge.invalidating.find? (fun x => decide (x.ctx = ctx ∧ x.range = r)) = some x)
    (hrevoke : (ctx, r) ∉ s.edge.revoking) (huse : ∀ a ∈ allArchs s, accessesTo x.frames a = false ∧ commandsOn x.frames a = false) :
    recallWaits s false x.frames (.invalidateCompletion ctx r) ∧
      ∀ u, recallDone s false x.frames u → ∃ t, exec (.invalidateCompletion ctx r) s = .next t ∧ sends s t (.invalidated ctx r) ∧
        t.edge.invalidating = s.edge.invalidating.erase x ∧ t.cores = s.cores ∧ t.far = u.far ∧ (∀ e ∈ t.xlat, e ∈ s.xlat) ∧
        (∀ e ∈ t.xlat, rangeNames t ctx r (keySpace e.1) (keyPage e.1) = true → leafV e.2 = false ∨ leafHome e.2 ≠ 1) := by
  have hexec := exec_invalidateCompletion hx hrevoke huse
  refine ⟨recalling_waits hexec, fun u hu => ?_⟩
  have hstep := homeStep_recallDone hu
  refine ⟨invalidated ctx r x u, hexec.trans (recalling_done hu), ?_, ?_, hstep.cores, rfl, fun e he => ?_, fun e he => (xlat_invalidated u he).2⟩
  · exact congrArg (· ++ _) hstep.outbox
  · exact congrArg (List.erase · x) hstep.invalidating
  · rw [← hstep.xlat]
    exact (xlat_invalidated u he).1

end

/-! Migrations (R215). -/

section
variable {s : State} {f n : Nat} {x : Frame}

/-- The handles of a page are revoked and its move to another frame has begun. -/
def moveBegun (f n space vp : Nat) (u : State) : State :=
  { u with edge := { u.edge with revoking := u.edge.revoking ++ [(space, { vpage := vp, pages := 1, rw := false })],
                                 migrating := u.edge.migrating ++ [(f, n)] } }

theorem exec_migrationBegins {space vp : Nat} (hx : getFrame s f = some x) (hst : x.st = .leased) (hpage : x.page = some (space, vp))
    (hfree : getFrame s n = none) (hn : n < frameCount) (hstack : frameStack n = frameStack f) (hnone : ∀ e ∈ s.edge.migrating, e.1 ≠ f ∧ e.2 ≠ n) :
    exec (.frameMigration f n) s = recalling s false [f] (moveBegun f n space vp) := by
  have hexec : exec (.frameMigration f n) s = execFrameMigration f n s := rfl
  have hnew : ¬ s.edge.migrating.contains (f, n) = true := fun hc => (hnone _ (List.contains_iff_mem.mp hc)).1 rfl
  have hother : ¬ s.edge.migrating.any (fun e => e.1 = f) = true := by
    rw [List.any_eq_true]
    rintro ⟨e, he, heq⟩
    exact (hnone e he).1 (of_decide_eq_true heq)
  have htarget : frameFree s n = true := by
    have hno : s.edge.migrating.any (fun e => e.2 = n) = false := by
      rw [List.any_eq_false]
      intro e he heq
      exact (hnone e he).2 (of_decide_eq_true heq)
    rw [frameFree, hfree, hno]
    rfl
  rw [hexec, execFrameMigration, hx]
  dsimp only
  rw [if_neg hnew, if_pos ⟨hst, htarget, hn, hstack, hother⟩, hpage]
  rfl

theorem migrationBegins_claim {space vp : Nat} (hx : getFrame s f = some x) (hst : x.st = .leased) (hpage : x.page = some (space, vp))
    (hfree : getFrame s n = none) (hn : n < frameCount) (hstack : frameStack n = frameStack f) (hnone : ∀ e ∈ s.edge.migrating, e.1 ≠ f ∧ e.2 ≠ n) :
    recallWaits s false [f] (.frameMigration f n) ∧
      ∀ u, recallDone s false [f] u → ∃ t, exec (.frameMigration f n) s = .next t ∧ t.far = u.far ∧ t.edge.migrating = s.edge.migrating ++ [(f, n)] ∧
        t.edge.revoking = s.edge.revoking ++ [(space, { vpage := vp, pages := 1, rw := false })] ∧ t.cores = s.cores := by
  have hexec := exec_migrationBegins hx hst hpage hfree hn hstack hnone
  refine ⟨recalling_waits hexec, fun u hu => ?_⟩
  have hstep := homeStep_recallDone hu
  exact ⟨moveBegun f n space vp u, hexec.trans (recalling_done hu), rfl, congrArg (· ++ _) hstep.migrating, congrArg (· ++ _) hstep.revoking,
    hstep.cores⟩

end

/-- The cells of a memory that lie in a frame, by their places in it. -/
def frameCells (m : Memory) (f : Nat) : List Host.Cell := (m.filter (fun e => decide (e.1 / 2097152 = f))).map (fun e => (e.1 % 2097152, e.2))

theorem memRead_cellsWritten_other {m : Memory} (h : memWf m = true) {n a : Nat} (l : List Host.Cell) (hl : ∀ e ∈ l, 2097152 * n + e.1 ≠ a) :
    memRead (cellsWritten m n l) a = memRead m a := by
  induction l generalizing m with
  | nil => rfl
  | cons e l ih =>
    have hne := hl e List.mem_cons_self
    exact (ih (memWf_memWrite h _ _) fun d hd => hl d (List.mem_cons_of_mem _ hd)).trans ((memRead_memWrite h _ _ _).trans (if_neg hne))

/-- The cells of a frame, written to another, are read there; places without a cell read as before. -/
theorem memRead_cellsWritten (L : Memory) {lo : Option Nat} (hL : alRising lo L = true) {m : Memory} (h : memWf m = true) (f n : Nat) {i : Nat}
    (hi : i < 2097152) : memRead (cellsWritten m n (frameCells L f)) (2097152 * n + i) = alGet (memRead m (2097152 * n + i)) L (2097152 * f + i) := by
  induction L generalizing m lo with
  | nil => rfl
  | cons e L ih =>
    obtain ⟨a, b⟩ := e
    have htail : alRising (some a) L = true := by
      cases lo with
      | none => exact hL
      | some lo => exact (Bool.and_eq_true_iff.mp hL).2
    by_cases hin : a / 2097152 = f
    · have hcells : frameCells ((a, b) :: L) f = (a % 2097152, b) :: frameCells L f := by
        rw [frameCells, List.filter_cons_of_pos (by exact decide_eq_true hin)]
        rfl
      have hstep : cellsWritten m n (frameCells ((a, b) :: L) f) = cellsWritten (memWrite m (2097152 * n + a % 2097152) b) n (frameCells L f) := by
        rw [hcells]
        rfl
      rw [hstep, ih htail (memWf_memWrite h _ _), memRead_memWrite h, alGet]
      by_cases hat : a = 2097152 * f + i
      · rw [if_pos (by omega), if_pos hat, alGet_above b htail (by omega)]
      · rw [if_neg (by omega), if_neg hat]
    · have hcells : frameCells ((a, b) :: L) f = frameCells L f := by
        rw [frameCells, List.filter_cons_of_neg (by exact fun hc => hin (of_decide_eq_true hc))]
        rfl
      rw [hcells, ih htail h, alGet, if_neg (by omega)]

theorem frameCells_lt (m : Memory) (f : Nat) : ∀ e ∈ frameCells m f, e.1 < 2097152 := by
  intro e he
  obtain ⟨x, -, rfl⟩ := List.mem_map.mp he
  exact Nat.mod_lt _ (by decide)

section
variable {s : State} {f n : Nat} {x : Frame}

/-- A frame moved to another: the bytes, the entries and the list of moves. -/
theorem moveFrame_kept (s : State) (f n : Nat) (x : Frame) : (moveFrame s f n x).far = memClear (cellsWritten s.far n (frameCells s.far f)) (2097152 * f) 2097152 ∧
    (moveFrame s f n x).frames = alDel (alPut s.frames n x) f ∧ (moveFrame s f n x).edge.migrating = s.edge.migrating.filter (fun e => e.1 ≠ f) := by
  have h := countSeals_eq s x.world 32768
  rw [moveFrame]
  dsimp only
  generalize countSeals s x.world 32768 = d at h ⊢
  have hfar : d.far = s.far := (congrArg State.far h :)
  have hframes : d.frames = s.frames := (congrArg State.frames h :)
  have hedge : d.edge = s.edge := (congrArg State.edge h :)
  refine ⟨(scrubbed _ f).far.trans ?_, (scrubbed _ f).frames.trans ?_, (scrubbed _ f).migrating.trans ?_⟩
  · exact congrArg (fun m => memClear (cellsWritten m n (frameCells m f)) (2097152 * f) 2097152) hfar
  · exact congrArg (fun l => alDel (alPut l n x) f) hframes
  · exact congrArg (fun e : Edge => e.migrating.filter (fun e => e.1 ≠ f)) hedge

/-- State s without a move under way. -/
def moveEnded (s : State) (f n : Nat) : State := { s with edge := { s.edge with migrating := s.edge.migrating.erase (f, n) } }

theorem exec_migrationEnds (hx : getFrame s f = some x) (hmoving : s.edge.migrating.contains (f, n) = true) (hidle : frameBusy s f = false)
    (hrevoking : s.edge.revoking = []) :
    exec (.frameMigration f n) s = recalling s false [f] (fun s1 => moveFrame (moveEnded s1 f n) f n x) := by
  have hexec : exec (.frameMigration f n) s = execFrameMigration f n s := rfl
  rw [hexec, execFrameMigration, hx]
  dsimp only
  rw [if_pos hmoving, hidle, hrevoking, if_neg (by rintro (h | h); exact nomatch h; exact h rfl)]
  rfl

theorem frameChunks_empty (h : ∀ e ∈ s.dies, e.2.dir = []) (frames : List Nat) : frameChunks s frames = [] := by
  refine List.flatMap_eq_nil_iff.mpr fun d hd => ?_
  rw [h d hd]
  rfl

theorem migrationEnds_claim (hx : getFrame s f = some x) (hmoving : s.edge.migrating.contains (f, n) = true) (hidle : frameBusy s f = false)
    (hrevoking : s.edge.revoking = []) (hne : f ≠ n) (hdir : ∀ e ∈ s.dies, e.2.dir = []) (hwf : memWf s.far = true)
    (hempty : ∀ i, i < 2097152 → memRead s.far (2097152 * n + i) = memDefault) :
    ∃ t, exec (.frameMigration f n) s = .next t ∧ getFrame t n = some x ∧
      t.edge.migrating = (s.edge.migrating.erase (f, n)).filter (fun e => e.1 ≠ f) ∧
      (∀ i, i < 2097152 → memRead t.far (2097152 * n + i) = memRead s.far (2097152 * f + i)) ∧
      (∀ a, a / 2097152 ≠ f → a / 2097152 ≠ n → memRead t.far a = memRead s.far a) := by
  obtain ⟨hfar, hframes, hmigrating⟩ := moveFrame_kept (moveEnded s f n) f n x
  have hexec := (exec_migrationEnds hx hmoving hidle hrevoking).trans (recalling_done (recallDone_none (frameChunks_empty hdir [f])))
  have hrising : alRising none s.far = true := (Bool.and_eq_true_iff.mp hwf).1
  refine ⟨_, hexec, ?_, hmigrating, fun i hi => ?_, fun a haf han => ?_⟩
  · rw [getFrame, hframes, find?_alDel_other _ hne, find?_alPut_same]
    rfl
  · rw [hfar, memRead_memClear, if_neg (by omega)]
    refine (memRead_cellsWritten s.far hrising hwf f n hi).trans ?_
    rw [hempty i hi]
    rfl
  · rw [hfar, memRead_memClear, if_neg (by omega)]
    refine memRead_cellsWritten_other hwf _ fun e he hc => ?_
    have hlt := frameCells_lt s.far f e he
    omega

end

end Sys2Proof.Proofs
end

section
/-! PROOF. Rekeys, the marks of the burnisher, and what the firmware does with frames and keys (R267, R318, R319). -/

namespace Sys2Proof.Proofs

open Sys2Proof.Machine Sys2Proof.Claims Sys2Proof.Laws

/-! Rekeys (R318, R319). -/

theorem getKey_putKey_same (s : State) (k : Nat) (x : KeySlot) : getKey (putKey s k x) k = some x :=
  congrArg (Option.map (fun e : Nat × KeySlot => e.2)) (find?_alPut_same s.hub.keys k x)

/-- A key slot after the first step of a rekey: the root in the other generation. -/
def flippedKey (x : KeySlot) (root : BitVec 256) : KeySlot :=
  if x.gen then { x with root0 := root, uses0 := 0, gen := false, st := 2 } else { x with root1 := root, uses1 := 0, gen := true, st := 2 }

/-- A key slot after a rekey: the old root zeroised. -/
def renewedKey (x : KeySlot) : KeySlot :=
  if x.gen then { x with root0 := 0, uses0 := 0, st := 1 } else { x with root1 := 0, uses1 := 0, st := 1 }

section
variable {s : State} {k : Nat} {x : KeySlot} {root : BitVec 256}

theorem getKey_flipKey (s : State) (k : Nat) (x : KeySlot) (root : BitVec 256) : getKey (flipKey s k x root) k = some (flippedKey x root) :=
  getKey_putKey_same s k _

theorem getKey_finishRekey (s : State) (k : Nat) (x : KeySlot) : getKey (finishRekey s k x) k = some (renewedKey x) := getKey_putKey_same s k _

theorem flippedKey_roots (x : KeySlot) (root : BitVec 256) : (flippedKey x root).st = 2 ∧ (flippedKey x root).gen = !x.gen ∧
    (if (flippedKey x root).gen then (flippedKey x root).root1 = root ∧ (flippedKey x root).root0 = x.root0
      else (flippedKey x root).root0 = root ∧ (flippedKey x root).root1 = x.root1) := by
  rw [flippedKey]
  cases x.gen
  · exact ⟨rfl, rfl, rfl, rfl⟩
  · exact ⟨rfl, rfl, rfl, rfl⟩

theorem renewedKey_roots (x : KeySlot) : (renewedKey x).st = 1 ∧ (renewedKey x).gen = x.gen ∧
    (if x.gen then (renewedKey x).root0 = 0 ∧ (renewedKey x).root1 = x.root1 else (renewedKey x).root1 = 0 ∧ (renewedKey x).root0 = x.root0) := by
  rw [renewedKey]
  cases x.gen
  · exact ⟨rfl, rfl, rfl, rfl⟩
  · exact ⟨rfl, rfl, rfl, rfl⟩

theorem flip_claim (s : State) (k : Nat) (x : KeySlot) (root : BitVec 256) {i : Instr} (h : exec i s = .next (flipKey s k x root)) :
    ∃ t y, exec i s = .next t ∧ getKey t k = some y ∧ y.st = 2 ∧ y.gen = !x.gen ∧
      (if y.gen then y.root1 = root ∧ y.root0 = x.root0 else y.root0 = root ∧ y.root1 = x.root1) :=
  ⟨_, flippedKey x root, h, getKey_flipKey s k x root, flippedKey_roots x root⟩

theorem exec_rekey_flips (hx : getKey s k = some x) (h : rekeyAsked s x = true) : exec (.rekey k root) s = .next (flipKey s k x root) := by
  have hexec : exec (.rekey k root) s = execRekey k root s := rfl
  rw [hexec, execRekey, hx]
  exact if_pos h

/-- A rekey that has begun is not asked for again. -/
theorem rekeyAsked_begun (s : State) (h : x.st = 2) : ¬ rekeyAsked s x = true := by
  rw [rekeyAsked, h]
  exact Bool.false_ne_true

theorem exec_rekey_sweeps {e : Nat × Frame} (hx : getKey s k = some x) (hst : x.st = 2) (hnext : nextSweep s x = some e)
    (hready : sweepReady s e = true) :
    exec (.rekey k root) s = recalling s true [e.1] (fun s1 => sweepFrame s1 k e.1 e.2 x.gen) := by
  have hexec : exec (.rekey k root) s = execRekey k root s := rfl
  rw [hexec, execRekey, hx]
  dsimp only
  rw [if_neg (rekeyAsked_begun s hst), if_neg (fun hc => hc hst), hnext]
  exact if_pos hready

theorem exec_rekey_ends (hx : getKey s k = some x) (hst : x.st = 2) (hnext : nextSweep s x = none)
    (hidle : ¬ s.hub.buffers.any (fun e => e.2.sweep && decide (e.2.world = x.world) && bufRunning s e.1) = true) :
    exec (.rekey k root) s = .next (finishRekey s k x) := by
  have hexec : exec (.rekey k root) s = execRekey k root s := rfl
  rw [hexec, execRekey, hx]
  dsimp only
  rw [if_neg (rekeyAsked_begun s hst), if_neg (fun hc => hc hst), hnext]
  exact if_neg hidle

/-- A frame swept: its generation is recorded, memory stands. -/
theorem sweepFrame_kept (s : State) (k f : Nat) (x : Frame) (gen : Bool) :
    (sweepFrame s k f x gen).far = s.far ∧ (sweepFrame s k f x gen).frames = alPut s.frames f { x with gen := gen } := by
  unfold sweepFrame
  dsimp only
  split <;> split <;> exact ⟨rfl, rfl⟩

theorem sweep_claim {e : Nat × Frame} (hx : getKey s k = some x) (hst : x.st = 2) (hnext : nextSweep s x = some e) (hready : sweepReady s e = true) :
    recallWaits s true [e.1] (.rekey k root) ∧
      ∀ u, recallDone s true [e.1] u → ∃ t, exec (.rekey k root) s = .next t ∧ t.far = u.far ∧ getFrame t e.1 = some { e.2 with gen := x.gen } := by
  have hexec := exec_rekey_sweeps (root := root) hx hst hnext hready
  refine ⟨recalling_waits hexec, fun u hu => ?_⟩
  obtain ⟨hfar, hframes⟩ := sweepFrame_kept u k e.1 e.2 x.gen
  refine ⟨_, hexec.trans (recalling_done hu), hfar, ?_⟩
  rw [getFrame, hframes, find?_alPut_same]
  rfl

theorem rekeyEnds_claim (hx : getKey s k = some x) (hst : x.st = 2) (hnext : nextSweep s x = none)
    (hbuf : ∀ e ∈ s.hub.buffers, e.2.sweep = true → e.2.world = x.world → bufRunning s e.1 = false) :
    ∃ t y, exec (.rekey k root) s = .next t ∧ getKey t k = some y ∧ y.st = 1 ∧ y.gen = x.gen ∧
      (if x.gen then y.root0 = 0 ∧ y.root1 = x.root1 else y.root1 = 0 ∧ y.root0 = x.root0) := by
  have hidle : ¬ s.hub.buffers.any (fun e => e.2.sweep && decide (e.2.world = x.world) && bufRunning s e.1) = true := by
    rw [List.any_eq_true]
    rintro ⟨e, he, hall⟩
    obtain ⟨hboth, hrun⟩ := Bool.and_eq_true_iff.mp hall
    obtain ⟨hsweep, hworld⟩ := Bool.and_eq_true_iff.mp hboth
    rw [hbuf e he hsweep (of_decide_eq_true hworld)] at hrun
    exact nomatch hrun
  exact ⟨_, renewedKey x, exec_rekey_ends hx hst hnext hidle, getKey_finishRekey s k x, renewedKey_roots x⟩

theorem exec_forcedKeyFlip (hx : getKey s k = some x) (hst : x.st = 1) (huses : 2 ^ 44 - 1 ≤ keyUses x) :
    exec (.forcedKeyFlip k root) s = .next (flipKey s k x root) := by
  have hexec : exec (.forcedKeyFlip k root) s = execForcedKeyFlip k root s := rfl
  rw [hexec, execForcedKeyFlip, hx]
  dsimp only
  rw [if_pos ⟨hst, huses⟩]

end

/-! The burnisher (R267). -/

/-- The place of a byte of a page's metadata, from that of the first byte. -/
theorem metaLoc_offset {s : State} {no : Nat} {p : Pool} {page : Nat} (hok : poolOk p = true) (hhere : isHbm (p.metaLoc s no page 0).pa = true) :
    (p.metaLoc s no page 0).pa % 64 = 0 ∧ ∀ off, off < 512 → (p.metaLoc s no page off).pa = (p.metaLoc s no page 0).pa + off := by
  have hbase : p.mvbase % 2097152 = 0 := by
    rw [poolOk, Bool.and_eq_true, decide_eq_true_eq] at hok
    exact hok.1.2.2.2.2.2.2.1
  have hpage (off : Nat) (h : off < 512) : (p.mvbase + 512 * page + off) / 2097152 = (p.mvbase + 512 * page) / 2097152 ∧
      (p.mvbase + 512 * page + off) % 2097152 = (p.mvbase + 512 * page) % 2097152 + off := by omega
  rw [Pool.metaLoc, poolPlace, Nat.add_zero] at hhere ⊢
  by_cases hleaf : leafOk (alGet 0#64 s.xlat (pageKey (16384 + no) ((p.mvbase + 512 * page) / 2097152))) = true
  · rw [if_pos hleaf] at hhere ⊢
    refine ⟨?_, fun off hoff => ?_⟩
    · rw [leafLoc, leafFrame]
      dsimp only
      omega
    · obtain ⟨hdiv, hmod⟩ := hpage off hoff
      rw [Pool.metaLoc, poolPlace, hdiv, if_pos hleaf, leafLoc, leafLoc]
      dsimp only
      rw [hmod, Nat.add_assoc]
  · rw [if_neg hleaf] at hhere
    exact absurd hhere (by decide)

theorem metaLoc_congr {s t : State} (h : t.xlat = s.xlat) (no : Nat) (p : Pool) (page off : Nat) : p.metaLoc t no page off = p.metaLoc s no page off := by
  rw [Pool.metaLoc, Pool.metaLoc, poolPlace, poolPlace, h]

/-- Bit 8 of a number of four bytes is bit 0 of the second. -/
theorem testBit_memReadNat (m : Memory) (a : Nat) : (memReadNat m a 4).testBit 8 = decide ((memRead m (a + 1)).toNat % 2 = 1) := by
  have heq : memReadNat m a 4 = (memRead m a).toNat + 256 * ((memRead m (a + 1)).toNat + 256 * leNat (memReadN m (a + 1 + 1) 2)) := rfl
  have hlow := (memRead m a).isLt
  rw [Nat.testBit_eq_decide_div_mod_eq, heq]
  refine decide_eq_decide.mpr ?_
  omega

theorem pageDamaged_eq {s : State} {v : KvEnv} {page : Nat} (hok : poolOk v.pool = true) (hhere : isHbm (v.pool.metaLoc s v.no page 0).pa = true) :
    pageDamaged v s page = decide ((memRead s.far ((v.pool.metaLoc s v.no page 0).pa + 5)).toNat % 2 = 1) := by
  rw [pageDamaged, pageAttr, metaGet, (metaLoc_offset hok hhere).2 4 (by decide), testBit_memReadNat]

/-- A write of a whole line, or of bytes that can be merged, leaves the log. -/
theorem edge_homeWrite {s : State} {g : Option Gang} {pa : Nat} {mask : BitVec 64} {data : BitVec 512}
    (h : mask = BitVec.allOnes 64 ∨ mergesAt s g pa) : (homeWrite s g pa mask data).edge = s.edge := by
  have hseal (u : State) : (touchL2 (countSeal u pa) pa).edge = u.edge := by
    have hcount : (countSeal u pa).edge = u.edge := by
      unfold countSeal countSeals
      split
      · split <;> rfl
      · rfl
    have htouch (w : State) : (touchL2 w pa).edge = w.edge := by
      unfold touchL2
      split <;> rfl
    exact (htouch _).trans hcount
  have hno : ¬ (isBad s pa = true ∧ mask ≠ BitVec.allOnes 64) := by
    rintro ⟨hb, hm⟩
    rcases h with h | h
    · exact hm h
    · rw [h.1] at hb
      exact nomatch hb
  rw [homeWrite_eq, openForMerge_merges h, if_neg hno]
  split
  · exact hseal _
  · rfl

/-- The ATTR byte of a metadata line with the mark set. -/
def markedAttr (m : Nat) : List Byte := List.replicate 5 0#8 ++ leBytes (m ||| 1) 1

/-- A metadata line written anew with the mark set. -/
def markedLine (v : KvEnv) (bs : List Byte) : List Byte := bs.take 4 ++ leBytes (freshAttr v + 256) 4 ++ bs.drop 4 ++ List.replicate 48 0#8

theorem markedAttr_length (m : Nat) : (markedAttr m).length ≤ 64 := by
  rw [markedAttr, List.length_append, leBytes_length, List.length_replicate]
  decide

theorem markedAttr_odd (m : Nat) : (nthD (markedAttr m) 5 0#8).toNat % 2 = 1 := by
  have heq : nthD (markedAttr m) 5 0#8 = BitVec.ofNat 8 (m ||| 1) := rfl
  rw [heq, BitVec.toNat_ofNat, Nat.mod_mod_of_dvd _ (by decide), Nat.or_mod_two_eq_one]
  exact .inr rfl

theorem markedLine_odd {v : KvEnv} {bs : List Byte} (hok : poolOk v.pool = true) (hlen : bs.length = 12) :
    (markedLine v bs).length = 64 ∧ (nthD (markedLine v bs) 5 0#8).toNat % 2 = 1 := by
  have hattr : freshAttr v < 256 := by
    rw [poolOk, Bool.and_eq_true, decide_eq_true_eq] at hok
    obtain ⟨⟨hfmt, hdsel, -⟩, -⟩ := hok
    rw [freshAttr]
    omega
  have htake : (bs.take 4).length = 4 := by rw [List.length_take, hlen]; rfl
  refine ⟨?_, ?_⟩
  · simp only [markedLine, List.length_append, leBytes_length, List.length_drop, htake, hlen, List.length_replicate]
  · have hbyte : (markedLine v bs)[5]? = some (BitVec.ofNat 8 ((freshAttr v + 256) / 256)) := by
      rw [markedLine, List.append_assoc, List.append_assoc, List.getElem?_append_right (by omega), htake,
        List.getElem?_append_left (by rw [leBytes_length]; decide), getElem?_leBytes]
      rfl
    rw [nthD_of_getElem? hbyte, show (freshAttr v + 256) / 256 = 1 by omega]
    rfl

section
variable {s : State} {v : KvEnv} {page : Nat}

/-- State s after free bytes have been taken. -/
def bytesTaken (s : State) (n : Nat) : State := { s with freeCtr := s.freeCtr + n }

theorem registered_bytesTaken (s : State) (n pa : Nat) : registered (bytesTaken s n) pa = registered s pa := rfl

theorem far_bytesTaken (s : State) (n : Nat) : (bytesTaken s n).far = s.far := rfl

theorem edge_bytesTaken (s : State) (n : Nat) : (bytesTaken s n).edge = s.edge := rfl

theorem edge_nextStamp (s : State) : (nextStamp s).2.edge = s.edge := by rw [nextStamp_snd, stamped]

theorem homeStep_bytesTaken (s : State) (n : Nat) : HomeStep s (bytesTaken s n) := ⟨canon_of_eq rfl rfl rfl rfl, rfl, rfl, rfl, rfl⟩

theorem markDamaged_merged (h : isBad (nextStamp s).2 (v.pool.metaLoc s v.no page 0).pa = false) :
    markDamaged v s page = writeLine (nextStamp s).2 none (v.pool.metaLoc s v.no page 0).pa (runMask 5 1)
      (lineOfBytes (List.replicate 5 0#8 ++ leBytes (metaGet v s page 5 1 ||| 1) 1)) := by
  unfold markDamaged
  exact if_neg (by rw [h]; exact Bool.false_ne_true)

theorem markDamaged_whole (h : isBad (nextStamp s).2 (v.pool.metaLoc s v.no page 0).pa = true) :
    markDamaged v s page = writeLine (bytesTaken (nextStamp s).2 12) none (v.pool.metaLoc s v.no page 0).pa (BitVec.allOnes 64)
      (lineOfBytes (markedLine v ((range' (nextStamp s).2.freeCtr 12).map Config.freeByte))) := by
  unfold markDamaged
  exact if_pos h

theorem markDamaged_good (hreg : registered s (v.pool.metaLoc s v.no page 0).pa = none) (hbad : isBad s (v.pool.metaLoc s v.no page 0).pa = false) :
    markDamaged v s page = homeWrite (nextStamp s).2 none (v.pool.metaLoc s v.no page 0).pa (runMask 5 1)
      (lineOfBytes (markedAttr (metaGet v s page 5 1))) := by
  have hstamp := sameLines_nextStamp s
  rw [markDamaged_merged ((hstamp.isBad _).trans hbad), writeLine_home ((hstamp.registered _).trans hreg), markedAttr]

theorem markDamaged_bad (hreg : registered s (v.pool.metaLoc s v.no page 0).pa = none) (hbad : isBad s (v.pool.metaLoc s v.no page 0).pa = true) :
    markDamaged v s page = homeWrite (bytesTaken (nextStamp s).2 12) none (v.pool.metaLoc s v.no page 0).pa (BitVec.allOnes 64)
      (lineOfBytes (markedLine v ((range' (nextStamp s).2.freeCtr 12).map Config.freeByte))) := by
  have hstamp := sameLines_nextStamp s
  have hfree : registered (bytesTaken (nextStamp s).2 12) (v.pool.metaLoc s v.no page 0).pa = none :=
    (registered_bytesTaken _ _ _).trans ((hstamp.registered _).trans hreg)
  rw [markDamaged_whole ((hstamp.isBad _).trans hbad), writeLine_home hfree]

/-- The mark is set, and neither the log nor the translations change. -/
theorem markDamaged_claim (hok : poolOk v.pool = true) (hhere : isHbm (v.pool.metaLoc s v.no page 0).pa = true)
    (hreg : registered s (v.pool.metaLoc s v.no page 0).pa = none)
    (hline : isBad s (v.pool.metaLoc s v.no page 0).pa = true ∨ lineOpens s none (v.pool.metaLoc s v.no page 0).pa = true)
    (hwf : memWf s.far = true) : pageDamaged v (markDamaged v s page) page = true ∧ (markDamaged v s page).edge = s.edge ∧
      (markDamaged v s page).cores = s.cores := by
  have hstamp := sameLines_nextStamp s
  have hfar : memWf (nextStamp s).2.far = true := by rw [hstamp.far]; exact hwf
  have hfive (a : Nat) : a + 5 - a = 5 := Nat.add_sub_cancel_left a 5
  have hdamaged (t : State) (hxlat : t.xlat = s.xlat) (hodd : (memRead t.far ((v.pool.metaLoc s v.no page 0).pa + 5)).toNat % 2 = 1) :
      pageDamaged v t page = true := by
    have hplace := metaLoc_congr hxlat v.no v.pool page 0
    rw [pageDamaged_eq hok (by rw [hplace]; exact hhere), hplace]
    exact decide_eq_true hodd
  cases hbad : isBad s (v.pool.metaLoc s v.no page 0).pa with
  | false =>
    have hopen := hline.resolve_left (by rw [hbad]; exact Bool.false_ne_true)
    have hmerges : mergesAt (nextStamp s).2 none (v.pool.metaLoc s v.no page 0).pa := hstamp.mergesAt ⟨hbad, fun _ => hopen⟩
    have hstep := (homeStep_nextStamp s).trans (homeStep_homeWrite (nextStamp s).2 none (v.pool.metaLoc s v.no page 0).pa (runMask 5 1)
      (lineOfBytes (markedAttr (metaGet v s page 5 1))))
    rw [markDamaged_good hreg hbad]
    refine ⟨hdamaged _ hstep.xlat ?_, (edge_homeWrite (.inr hmerges)).trans (edge_nextStamp s), hstep.cores⟩
    rw [memRead_homeWrite (.inr hmerges) hfar, hfive, if_pos ⟨by omega, by omega, by decide⟩, extract_lineOfBytes _ (markedAttr_length _)]
    exact markedAttr_odd _
  | true =>
    obtain ⟨hlen, hodd⟩ := markedLine_odd (bs := (range' (nextStamp s).2.freeCtr 12).map Config.freeByte) hok
      (by rw [List.length_map, range'_length])
    have htaken := homeStep_bytesTaken (nextStamp s).2 12
    have hkept : memWf (bytesTaken (nextStamp s).2 12).far = true := (congrArg memWf (far_bytesTaken _ _)).trans hfar
    rw [markDamaged_bad hreg hbad]
    generalize markedLine v ((range' (nextStamp s).2.freeCtr 12).map Config.freeByte) = line at hlen hodd ⊢
    have hstep := ((homeStep_nextStamp s).trans htaken).trans (homeStep_homeWrite (bytesTaken (nextStamp s).2 12) none
      (v.pool.metaLoc s v.no page 0).pa (BitVec.allOnes 64) (lineOfBytes line))
    refine ⟨hdamaged _ hstep.xlat ?_, (edge_homeWrite (.inl rfl)).trans ((edge_bytesTaken _ _).trans (edge_nextStamp s)), hstep.cores⟩
    rw [memRead_homeWrite (.inl rfl) hkept, hfive, if_pos ⟨by omega, by omega, by decide⟩, extract_lineOfBytes _ (by omega)]
    exact hodd

theorem exec_burnisherCheck {no : Nat} (hv : poolEnv s no = some v) (hpage : page < v.pool.pages) (hhere : pageHere v s page = true)
    (hrefs : pageRefs v s page ≠ 0) : exec (.burnisherCheck no page) s =
      if (checkPage v s page).2 = true ∨ (checkPage v s page).1 ≠ pageCrc v s page then
        (if pageDamaged v s page then .next s else .next (logEntry (markDamaged v s page) 4 no page))
      else .next s := by
  have hexec : exec (.burnisherCheck no page) s = execBurnisherCheck no page s := rfl
  have hgo : ¬ (v.pool.pages ≤ page ∨ ¬ pageHere v s page = true ∨ pageRefs v s page = 0) := by
    rintro (h | h | h)
    · omega
    · exact h hhere
    · exact hrefs h
  rw [hexec, execBurnisherCheck, hv]
  dsimp only
  rw [if_neg hgo]

theorem burnisher_claim {no : Nat} (hv : poolEnv s no = some v) (hpage : page < v.pool.pages) (hhere : pageHere v s page = true)
    (hrefs : pageRefs v s page ≠ 0) :
    (checkPage v s page = (pageCrc v s page, false) → exec (.burnisherCheck no page) s = .next s) ∧
    (pageDamaged v s page = true → exec (.burnisherCheck no page) s = .next s) ∧
    (checkPage v s page ≠ (pageCrc v s page, false) → pageDamaged v s page = false → registered s (v.pool.metaLoc s no page 0).pa = none →
      (isBad s (v.pool.metaLoc s no page 0).pa = true ∨ lineOpens s none (v.pool.metaLoc s no page 0).pa = true) → poolOk v.pool = true →
      memWf s.far = true →
      ∃ t, exec (.burnisherCheck no page) s = .next t ∧ pageDamaged v t page = true ∧ t.edge.logs = s.edge.logs ++ [(4, no, page)] ∧
        t.cores = s.cores) := by
  have hno : v.no = no := by
    obtain ⟨p, -, hp⟩ := Option.map_eq_some_iff.mp hv
    exact (congrArg KvEnv.no hp :).symm
  have hexec := exec_burnisherCheck hv hpage hhere hrefs
  refine ⟨fun h => ?_, fun h => ?_, fun h hfresh hreg hline hok hwf => ?_⟩
  · rw [hexec, h, if_neg (by rintro (h | h); exact nomatch h; exact h rfl)]
  · rw [hexec, h]
    exact ite_self _
  · have hfound : (checkPage v s page).2 = true ∨ (checkPage v s page).1 ≠ pageCrc v s page := by
      by_contra hc
      obtain ⟨hgood, hcrc⟩ := not_or.mp hc
      exact h (Prod.ext (Decidable.byContradiction hcrc) (Bool.eq_false_of_not_eq_true hgood))
    rw [if_pos hfound, hfresh, if_neg Bool.false_ne_true] at hexec
    rw [← hno] at hreg hline
    have hhbm : isHbm (v.pool.metaLoc s v.no page 0).pa = true := (Bool.and_eq_true_iff.mp hhere).2
    obtain ⟨hdamaged, hedge, hcores⟩ := markDamaged_claim hok hhbm hreg hline hwf
    exact ⟨_, hexec, hdamaged, congrArg (fun e : Edge => e.logs ++ [(4, no, page)]) hedge, hcores⟩

end

/-! The obligation. -/

/-- Settles O54, clause by clause: what waits for recalls goes on from the state that the recalls leave, and each step is the function that
says what it changes. -/
theorem memoryEvents : Obligations.MemoryEvents := by
  unfold Obligations.MemoryEvents
  intro s
  refine ⟨?_, ?_, ?_, ?_, ?_, ?_, ?_, ?_, ?_, ?_⟩
  · intro ctx vp f hnext hallowed _ hchunks
    exact ladle_claim hnext hallowed hchunks
  · intro ctx vp f h
    exact ladle_declined h
  · intro ctx vp f hnext hallowed
    exact recalling_waits (exec_ladlePageFill hnext hallowed)
  · intro ctx vp f hf hstack hfree hroom
    exact frameAllowed_free hf hstack hfree hroom
  · intro f x space vp hx hst hpage
    exact promotion_claim hx hst hpage
  · intro ctx r x hx hrevoke huse
    exact invalidation_claim hx hrevoke huse
  · intro f n x space vp hx hst hpage hfree hn hstack hnone
    exact migrationBegins_claim hx hst hpage hfree hn hstack hnone
  · intro f n x hx hmoving hidle hrevoking hne hdir hwf hempty
    exact migrationEnds_claim hx hmoving hidle hrevoking hne hdir hwf hempty
  · intro k x root hx
    exact ⟨fun h => flip_claim s k x root (exec_rekey_flips hx h), fun e hst hnext hready => sweep_claim hx hst hnext hready,
      fun hst hnext hbuf => rekeyEnds_claim hx hst hnext hbuf, fun hst huses => flip_claim s k x root (exec_forcedKeyFlip hx hst huses)⟩
  · intro no page v hv hpage hhere hrefs
    exact burnisher_claim hv hpage hhere hrefs

end Sys2Proof.Proofs
end
